-- ==== Sys2Proof/Word.lean ====
section
/-! DEFINITION. The register word of the HL8640 (32 bits, R6) and its plainest bit-field arithmetic. -/

namespace Sys2Proof

/-- A register word: all registers are 32 bits wide (R6). -/
abbrev Word := BitVec 32

/-- A byte of the SRAM, of the FRAM or of a frame. -/
abbrev Byte := BitVec 8

/-- The field of `w` that starts at bit `lo` and is `n` bits wide, as a number. -/
def Word.fld (w : Word) (lo n : Nat) : Nat := (w.toNat >>> lo) % 2 ^ n

/-- Bit `i` of `w`. -/
def Word.bit (w : Word) (i : Nat) : Bool := w.getLsbD i

/-- A field value `v` of `n` bits placed at bit `lo`. -/
def Word.put (lo n v : Nat) : Word := BitVec.ofNat 32 ((v % 2 ^ n) <<< lo)

/-- One flag placed at bit `lo`. -/
def Word.flag (lo : Nat) (b : Bool) : Word := if b then Word.put lo 1 1 else 0

/-- The number `v` of `n` bits read as two's complement. -/
def signedOf (n v : Nat) : Int :=
  if v % 2 ^ n < 2 ^ (n - 1) then (v % 2 ^ n : Nat) else (v % 2 ^ n : Nat) - (2 ^ n : Nat)

/-- The field of `w` at `lo`, `n` bits wide, read as two's complement. -/
def Word.sfld (w : Word) (lo n : Nat) : Int := signedOf n (w.fld lo n)

/-- `x` limited to `lo`..`hi` (naturals). -/
def clampNat (lo hi x : Nat) : Nat := max lo (min hi x)

/-- `x` limited to `lo`..`hi` (integers). -/
def clampInt (lo hi x : Int) : Int := max lo (min hi x)

/-- `x` saturated to an `n`-bit unsigned field. -/
def satNat (n x : Nat) : Nat := min (2 ^ n - 1) x

/-- The `n`-bit two's-complement pattern of `x`, as a number. -/
def wrapInt (n : Nat) (x : Int) : Nat := (x % (2 ^ n : Nat)).toNat

/-- `x` reduced modulo `m` into the range −m/2 to m/2 − 1. -/
def wrapSigned (m x : Int) : Int := (x + m / 2) % m - m / 2

end Sys2Proof
end

