-- ==== Sys2Proof/Syntax.lean ====
section
/-! DEFINITION. The commands and events of the HL8640: one constructor of `Instr` per row of
spec/opcode_table.json, with the operands the row's rule needs (instance numbers, written words,
and what the environment presents: levels, voltages, measured values, frame bytes). -/

namespace Sys2Proof

/-- The two halves of the device (R17). -/
inductive Half | h0 | h1
  deriving DecidableEq, Repr

/-- A drive, 0 or 1. -/
abbrev Drive := Fin 2

/-- The five supply rails monitored by Table 3.1 (VEXC_n has rows of its own). -/
inductive Rail | vaon | vio | vpre | vdda0 | vdda1
  deriving DecidableEq, Repr

/-- The five domains with a regulator of their own (R60). -/
inductive VDom | h0 | h1 | core | mem | net
  deriving DecidableEq, Repr

/-- A domain that can return under R427 or R445. -/
inductive Dom | h0 | h1 | net | core | bank (b : Fin 8)
  deriving DecidableEq, Repr

/-- What a critical-path monitor reports to the adaptive loop (R61): margin below the lower threshold,
between the two, or above the upper one. -/
inductive Margin | low | mid | high
  deriving DecidableEq, Repr

/-- The margins of the five domains at one evaluation (R61). -/
structure Margins where
  h0 : Margin
  h1 : Margin
  core : Margin
  mem : Margin
  net : Margin
  deriving DecidableEq, Repr

/-- The pages that bear a fault header (R341): one per block and one per PCH_n. -/
inductive Page
  | sys | pwr | boot | fab | pch (n : Fin 8) | exc | scl | dch | enc | aev | sdm | aux | xmon | crz | time
  | net | que | mem
  deriving DecidableEq, Repr

/-- What a self-test engine shows when it stops (R93): terminal count reached, signature matched; for
an SRAM bank also the failing cells of the first march, as (row, column) pairs, and whether the second
march passed (R94). -/
structure BistRun where
  terminal : Bool
  sigOk : Bool
  cells : List (Nat × Nat)
  secondOk : Bool
  deriving DecidableEq, Repr

/-- The offsets and gain trims a converter calibration or a trim run has measured. -/
structure TrimVals where
  sinCal : BitVec 16
  cosCal : BitVec 16
  sinGain : BitVec 16
  cosGain : BitVec 16
  deriving DecidableEq, Repr

/-- What the current sensors of a bridge deliver for the carrier period just ended, in 0.1 mA. -/
structure ExcMeas where
  iFund : BitVec 16
  iPeak : BitVec 16
  iSum : BitVec 16
  deriving DecidableEq, Repr

/-- What the current monitor of bridge EXC_n delivers: the highest leg currents of its latest consecutive switching periods,
in mA, the newest first. -/
structure LegPeaks where
  n : Fin 4
  peaks : List Nat
  deriving DecidableEq, Repr

/-- The four pins of one position channel at one ADC sample instant, in µV to AGND. -/
structure Sample where
  sinp : Int
  sinn : Int
  cosp : Int
  cosn : Int
  deriving DecidableEq, Repr

/-- The five samples of one tick of one channel, oldest first (R131). -/
structure TickSamples where
  s0 : Sample
  s1 : Sample
  s2 : Sample
  s3 : Sample
  s4 : Sample
  deriving DecidableEq, Repr

/-- One conversion of an auxiliary converter: input and reference voltage in nV, and what the
supervision of R326 and R330 saw during it: the modulator at full scale, the current source at its compliance, the pins
outside the window at any check and at the latest one. -/
structure Conv where
  vIn : Int
  vRef : Int
  clipped : Bool
  atCompliance : Bool
  outside : BitVec 16
  outNow : BitVec 16
  deriving DecidableEq, Repr

/-- Where a flight-recorder trigger comes from (R393). -/
inductive TrigCause | aev | fault | firmware
  deriving DecidableEq, Repr

/-- What a valid Sync and Follow_Up pair carries to the servo (R380): TIME at receipt, preciseOriginTimestamp and
correctionField in ns, the Sync interval in ns, the clockIdentity of the grandmaster. -/
structure SyncInfo where
  port : Fin 2
  rxTime : Int
  origin : Int
  correction : Int
  interval : Nat
  gmId : BitVec 64
  deriving DecidableEq, Repr

/-- What a Lookout cycle sees (R436 to R439): the samples of channel LK_CH, one every 100 ns from the start of the first measured
period on; whether a trip source of EXC_0 has answered; the conversions of the slot's visit, oldest first. -/
structure LookoutMeas where
  samples : List Sample
  excTrip : Bool
  convs : List Conv
  deriving DecidableEq, Repr

/-- The pins of the safe-state voter (R44). -/
inductive SafePin | inh (d : Drive) | asc (d : Drive) | dis
  deriving DecidableEq, Repr

/-- Who makes an access (BLZ_SRC MASTER, Table 15.1). -/
inductive Master | detector | host | yarder | net | cruise | boot | force | checker
  deriving DecidableEq, Repr

/-- The commands and events, one per row of the table. -/
inductive Instr
  -- supplies, clocks and reset
  | supplyGood (r : Rail)
  | supplyLost (r : Rail)
  | pinReset
  | swrstKey
  | softwareReset
  | internalResetEnd
  | vuv (rail : Fin 2) (mv : BitVec 16)
  | vov (rail : Fin 2) (mv : BitVec 16)
  | refLoss (mon : Half)
  | refFreq (mon : Half) (edges : Nat)
  | tclkFreq (mon : Half) (cycles : Nat)
  | tpllUnlock
  | spllUnlock
  | rcFail (mon : Half) (refAgrees tclkAgrees : Bool)
  | regUv (x : VDom) (outUv : Nat)
  | regOv (x : VDom) (outUv : Nat)
  | cpmFail (x : VDom) (meets : Bool)
  | avsEval (m : Margins)
  | rtcXtal
  | rtcXtalRestore
  -- boot
  | headerReadDone
  | bistPhaseEnd (bankLo bankHi logic : BistRun)
  | bodyReadDone
  | sramInitDone
  | regWriteRecord
  | regMaskRecord
  | regSeqRecord
  | sramLoadRecord
  | sramFillRecord
  | authInitRecord
  | endRecord
  | convCalDone (pchFail : BitVec 8) (auxFail : BitVec 2) (trims : Vector TrimVals 8)
  | storeKey
  | calStoreDone (latchSet readOk : Bool)
  | dlKeyApply
  | dlKeyProgram
  | framProgDone (matches' : Bool)
  -- excitation
  | excEnable (n : Fin 4)
  | excDisable (n : Fin 4)
  | excRestart (n : Fin 4)
  | excFreqWrite (n : Fin 4) (v : Word)
  | excPhaseWrite (n : Fin 4) (v : Word)
  | excAmpWrite (n : Fin 4) (v : Word)
  | excModeWrite (n : Fin 4) (closed : Bool)
  | carrierZeroCrossing (n : Fin 4) (m : ExcMeas)
  | excSettleEnd (n : Fin 4)
  | excRampEnd (n : Fin 4)
  | oc (e : LegPeaks)
  | openLoad (n : Fin 4)
  | imbal (n : Fin 4)
  | ots (n : Fin 4) (temp : BitVec 16)
  | regSat (n : Fin 4)
  -- position channels
  | pchEnable (n : Fin 8)
  | pchDisable (n : Fin 8)
  | pchCntClr (n : Fin 8)
  | lossRearm (n : Fin 8)
  | angleTick (inp : Vector TickSamples 8)
  | cmwLoss (n : Fin 8)
  | phaseAcqDone (n : Fin 8)
  | phLock (n : Fin 8)
  | lockDeclared (n : Fin 8)
  | bwStepUp (n : Fin 8)
  | bwStepDown (n : Fin 8)
  | coastLong (n : Fin 8)
  | lol (n : Fin 8)
  | ovspd (n : Fin 8)
  | acqTo (n : Fin 8)
  | pchSectSet (n : Fin 8) (v : Word)
  | pchAngleRead (n : Fin 8)
  | pchPredAngRead (n : Fin 8)
  | pchPredTimeHiWrite (n : Fin 8) (v : Word)
  | pchPeakClr (n : Fin 8)
  -- Scaler
  | revolutionEnd (n : Fin 8)
  | learnBlockEnd (n : Fin 8)
  | sclPendingApply (n : Fin 8)
  | sclCoefWrite (n : Fin 8) (reg : Fin 18) (v : Word)
  | sclApplyWrite (n : Fin 8) (v : Word)
  | neutral (n : Fin 8)
  | alignWr (n : Fin 8) (v : BitVec 4)
  | trimReq (n : Fin 8)
  | trimSweepStart (h : Half)
  | trimRunStart (n : Fin 8)
  | trimRunEnd (n : Fin 8) (t : TrimVals)
  | trimLate (n : Fin 8)
  -- digital position inputs
  | dchEnable (n : Fin 4)
  | dchDisable (n : Fin 4)
  | dchTransition (n : Fin 4) (samples : Vector (BitVec 3) 16)
  | indexEdge (n : Fin 4) (samples : Vector Bool 16)
  | illRate (n : Fin 4)
  | hallInv (n : Fin 4)
  | refClr (n : Fin 4)
  | uncClr (n : Fin 4)
  | ssiTrig (n : Fin 4)
  | ssiFrameStart (n : Fin 4)
  | ssiFrameEnd (n : Fin 4) (ready : Bool) (bits : BitVec 32) (endBit : Bool)
  | ssiRecoveryEnd (n : Fin 4)
  | dchAngleRead (n : Fin 4)
  -- cross-monitor and authority
  | angDiv (d : Drive) (copy : Half)
  | spdDiv (d : Drive) (copy : Half)
  | dref (d : Drive) (copy : Half)
  | copyMis (d : Drive)
  | ofsCap (d : Drive)
  | ofsCapDone (d : Drive)
  | authConflict (d : Drive)
  | handoverRequest (d : Drive)
  | handoverDone (d : Drive)
  | holderClaimLost (d : Drive)
  | authCmd (d : Drive) (target : Half)
  -- encoder emulation
  | encEnable (n : Fin 4)
  | encDisable (n : Fin 4)
  | preset (n : Fin 4)
  | encFirstPreset (n : Fin 4)
  | encCountStep (n : Fin 4) (dt : Nat)
  | encTargetRead (n : Fin 4)
  -- angle-event scheduler
  | aevSlotStep (s : Fin 256) (dt : Nat)
  | aevPulseEnd (n : Fin 8)
  | predictionSwitch
  | aevSlotStageWrite (s : Fin 256) (par : Bool) (v : Word)
  | aevSlotAngWrite (s : Fin 256) (v : Word)
  | aevForceSet (n : Fin 8)
  | aevForceClr (n : Fin 8)
  | aevEnable
  | aevDisable
  | aevCntClr
  | pinMis (n : Fin 8) (readBack : Bool)
  | internalTrigger
  -- current sensing and protection
  | sdmLatch
  | sdmDecimatedOutput
  | hi (n : Fin 8) (copy : Half)
  | lo (n : Fin 8) (copy : Half)
  | stuck (n : Fin 8) (copy : Half)
  | filtMis
  | phsum (d : Drive) (copy : Half)
  | tqDev (d : Drive)
  | tqStale (d : Drive)
  | tqCmdWrite (d : Drive) (v : Word)
  | relCmd (d : Drive)
  | relGapEnd (d : Drive)
  | disSet
  | disClear
  | sdmPeakClr
  -- auxiliary measurement
  | auxSettleEnd (c : Fin 2)
  | auxConversionDone (c : Fin 2) (m : Conv)
  | auxVisitEnd (c : Fin 2)
  | lim (k : Fin 16)
  | auxSlotBlocked (k : Fin 16)
  | slotEnWrite (v : Word)
  | auxResRead (k : Fin 16)
  | fwCodeWrite (n : Fin 2) (v : Word)
  -- fault handling
  | blzClr (p : Page)
  | reactBusyEnd (p : Page)
  | holdoffEnd (p : Page)
  | fltForceWrite (p : Page) (v : Word)
  | stickyClear (p : Page) (v : Word)
  | chkInvWrite (p : Page) (v : Word)
  | parityError (p : Page)
  | aliveEdge
  | tgtTmo (m : Master) (addr : Word) (isWrite : Bool)
  -- Cruise
  | cruiseRoundStart
  | restartRnd
  | cruiseRunEnd (item : Fin 15) (terminal sigOk : Bool) (detail : BitVec 24)
  | cruiseYield (item : Fin 15) (ns : Nat)
  -- time base and network
  | syncPair (i : SyncInfo)
  | timeSlewEnd
  | syncLoss
  | timeSet (hi : Word)
  | syncRelay (p : Fin 2) (rx : Int) (correction : Int)
  | followUpRelay (rateRatio : Rat)
  | syncSend (p : Fin 2)
  | pdelayReqSend (p : Fin 2)
  | frameReceive (p : Fin 2) (bytes : List Byte) (delay : Option Nat)
  | frameForward (p : Fin 2) (bytes : List Byte) (fcsOk : Bool)
  | linkDown (p : Fin 2)
  | linkUp (p : Fin 2)
  | streamFrameBuild (k : Fin 8)
  | frecEntry (n : Fin 8) (written : Bool)
  | frecTrigger (n : Fin 8) (cause : TrigCause)
  | frecFreeze (n : Fin 8)
  | arm (n : Fin 8)
  | disarm (n : Fin 8)
  | trig (n : Fin 8)
  -- host interface and queues
  -- `cmd` is the first byte of a frame without data phase: 0x10 for READ, or one that Table 18.1 does not name
  | read (cmd : Byte) (addr : Word) (len : BitVec 16) (crc : Byte)
  | write (addr : Word) (len : BitVec 16) (data : List Word) (crc : Byte)
  | qread (addr : Word) (len : BitVec 16) (crc : Byte)
  | qack (addr : Word) (len : BitVec 16) (data : List Word) (crc : Byte)
  | qpush (addr : Word) (len : BitVec 16) (data : List Word) (crc : Byte)
  | qspiFrame
  | registerWrite (addr : Word) (v : Word)
  | yarderWrite
  | flush (q : Fin 64)
  | yardStall
  | queueAge (q : Fin 64)
  -- power states
  | reqRun
  | reqDoze
  | reqLookout
  | reqOff
  | entryComplete
  | oppTgtWrite (v : BitVec 2)
  | dvfsDone
  | dvfsTmo
  | voteWrite (v : Word)
  | domainOn (x : Dom)
  | memBankInitDone (b : Fin 8)
  | halfCalDone (h : Half) (pchFail : BitVec 4) (auxFail : Bool) (trims : Vector TrimVals 4)
  | domTmo (x : Dom)
  | padRelease (v : Word)
  | lookoutCycleStart
  | lookoutCycleEnd (m : LookoutMeas)
  | alarm
  | alarmHiWrite (v : Word)
  | wakeIn
  | hostWake (clks : Nat) (bits : BitVec 64)
  | netWake (p : Fin 2) (bytes : List Byte)
  | wakeCoreReady
  | unlockFirst (blk : Byte)
  | unlockSecond (blk : Byte)
  | relock (blk : Byte)
  | unlockTimeout (blk : Fin 18)
  -- rows added at the end of the table
  | sdmBitSample (clk : Fin 2) (bits : Byte)
  | safePinHoldExpiry (p : SafePin)
  | resetNRisingEdge (testEn : Bool)
  | tapTckEdge (tms tdi : Bool)
  | frameTransmitDone (p : Fin 2)
  | sclTempReading (h : Half) (t : BitVec 16)
  | vexcGoodAgain (rail : Fin 2) (mv : BitVec 16)
  | otsClear (n : Fin 4) (temp : BitVec 16)
  | unlockFirstExpiry
  deriving DecidableEq, Repr

end Sys2Proof
end

