-- ==== Sys2Proof/Decode.lean ====
section
/-! DEFINITION. Commands that a word spells by the bits of spec/opcode_table.json. -/

namespace Sys2Proof

/-- The command spelt by a word of `nbits` bits: none, since no row of the table gives bits. -/
def decodeTableWord (_nbits _w : Nat) : Option Instr := none

end Sys2Proof
end

