-- ==== Sys2Proof/Config.lean ====
section
/-! DEFINITION. What the spec leaves to an implementation, as opaque constants (nothing can evaluate them, so a
statement that mentions one holds for every value of it), and the constants of the device. -/

namespace Sys2Proof

/-- A choice between the two integers next to `x` where the spec does not state the rounding, by the point at
which it is made (assumption 3). -/
opaque Config.roundUp (point : Nat) (x : Rat) : Bool

/-- What the arithmetic of the device makes of the sine of `turn` turns (assumption 4). -/
opaque Config.sinRaw (turn : Rat) : Rat

/-- What the arithmetic of the device makes of atan2 of `y` and `x`, in turns (assumption 4). -/
opaque Config.atanRaw (y x : Rat) : Rat

/-- What the arithmetic of the device makes of a square root (assumption 4). -/
opaque Config.sqrtRaw (x : Rat) : Rat

/-- A value the spec leaves open, `w` bits wide, drawn at point `point` for the `n`-th time (assumption 5). -/
opaque Config.freeBits (point n : Nat) : Nat

/-- The device identification code that the TAP shows (assumption 6). -/
opaque Config.idcode : BitVec 32

/-- The instruction that an instruction register value of the TAP selects: 0 bypass, 1 identification, other
values boundary-scan instructions of the description file (assumption 6). -/
opaque Config.tapSelect (ir : Nat) : Nat

/-- The number of bits of the TAP's instruction register, beyond the two that IEEE 1149.1 requires (assumption 6). -/
opaque Config.irMore : Nat

/-- The number of cells of the boundary-scan chain (assumption 6). -/
opaque Config.bsrLen : Nat

end Sys2Proof
end

