-- ==== Sys2Proof/Machine/RegTable.lean ====
section
/-! DEFINITION. The register map (R458, R464, Table 21.3): for every register its block, offset, instance
stride and count, the masks of its fields by access code (R9), and the reset value of its stored fields. The
masks and resets are those of the field tables of each chapter; reserved bits are in no mask (R7). -/

namespace Sys2Proof.Machine

/-- One row of the register map. `rw` and `lk` mark the stored fields with access rw and rw-lk, `w1c`, `wo`
and `rs` those with these codes (Table 0.2); every other bit is ro or reserved. -/
structure RegRow where
  off : Nat
  stride : Nat
  count : Nat
  rw : Word
  lk : Word
  w1c : Word
  wo : Word
  rs : Word
  reset : Nat → Word

/-- Reset values of SDM_n_CFG (Table 13.10). -/
def sdmCfgReset (i : Nat) : Word :=
  match i with
  | 0 => 0x00020004 | 1 => 0x00020024 | 2 => 0x00020044 | 3 => 0x00020008
  | 4 => 0x00020114 | 5 => 0x00020134 | 6 => 0x00020154 | _ => 0x00020110

/-- Reset values of QUE_q_CFG on the HL8640-QA (Table 18.14). -/
def queCfgReset (q : Nat) : Word :=
  if 16 ≤ q ∧ q ≤ 23 then 0x00010101
  else if 40 ≤ q ∧ q ≤ 47 then 0x000101F1
  else if 56 ≤ q ∧ q ≤ 57 then 0x00010111
  else if q = 58 then 0x00010171
  else if 59 ≤ q then 0x000101F5
  else 0x000101F3

/-- Registers of the SYS page beyond the fault header. -/
def regRowsSYS : List RegRow :=
  [
   ⟨0x40, 0x4, 1, 0, 0, 0x0000001F, 0, 0, fun _ => 0⟩ /- SYS_RST_CAUSE -/,
   ⟨0x44, 0x4, 1, 0, 0, 0, 0x0000FFFF, 0, fun _ => 0⟩ /- SYS_SWRST -/,
   ⟨0x48, 0x4, 1, 0, 0, 0, 0, 0, fun _ => 0⟩ /- SYS_CLK_STAT -/,
   ⟨0x4C, 0x4, 1, 0, 0x00000033, 0, 0, 0, fun _ => 0x00000012⟩ /- SYS_CLK_CFG -/,
   ⟨0x50, 0x4, 1, 0, 0, 0, 0, 0, fun _ => 0⟩ /- SYS_SUPPLY_STAT -/,
   ⟨0x54, 0x4, 1, 0, 0, 0, 0, 0, fun _ => 0⟩ /- SYS_AVS_STAT -/,
   ⟨0x58, 0x4, 1, 0, 0x000F0F01, 0, 0, 0, fun _ => 0x00060C01⟩ /- SYS_AVS_CFG -/,
   ⟨0x5C, 0x4, 1, 0, 0x000001FF, 0, 0, 0, fun _ => 0x00000032⟩ /- SYS_ALIVE_CFG -/,
   ⟨0x60, 0x4, 1, 0, 0, 0, 0, 0, fun _ => 0⟩ /- SYS_ALIVE_STAT -/,
   ⟨0x64, 0x4, 1, 0, 0, 0, 0, 0, fun _ => 0⟩ /- SYS_FLT_SUM -/,
   ⟨0x68, 0x4, 1, 0, 0, 0, 0xFFFF01FF, 0, fun _ => 0⟩ /- SYS_UNLOCK -/,
   ⟨0x6C, 0x4, 1, 0, 0, 0x80000000, 0, 0, fun _ => 0⟩ /- SYS_UNLOCK_STAT -/,
   ⟨0x70, 0x4, 1, 0, 0x0000FFFF, 0, 0, 0, fun _ => 0x000003E8⟩ /- SYS_UNLOCK_CFG -/]

/-- Registers of the PWR page beyond the fault header. -/
def regRowsPWR : List RegRow :=
  [
   ⟨0x40, 0x4, 1, 0, 0, 0, 0, 0, fun _ => 0⟩ /- PWR_STATE -/,
   ⟨0x44, 0x4, 1, 0, 0, 0, 0xFFFF0003, 0, fun _ => 0⟩ /- PWR_STATE_REQ -/,
   ⟨0x48, 0x4, 1, 0x00000003, 0, 0, 0, 0, fun _ => 0⟩ /- PWR_OPP -/,
   ⟨0x4C, 0x4, 1, 0x0000FF07, 0, 0, 0, 0, fun _ => 0x0000FF07⟩ /- PWR_VOTE_HOST -/,
   ⟨0x50, 0x4, 1, 0, 0, 0, 0, 0, fun _ => 0⟩ /- PWR_VOTE_NET -/,
   ⟨0x54, 0x4, 1, 0, 0, 0, 0, 0, fun _ => 0⟩ /- PWR_VOTE_HALF -/,
   ⟨0x58, 0x4, 1, 0, 0, 0, 0, 0, fun _ => 0⟩ /- PWR_VOTE_YARD -/,
   ⟨0x5C, 0x4, 1, 0, 0, 0, 0, 0, fun _ => 0⟩ /- PWR_VOTE_CRZ -/,
   ⟨0x60, 0x4, 1, 0, 0, 0, 0, 0, fun _ => 0⟩ /- PWR_VOTE_FREC -/,
   ⟨0x64, 0x4, 1, 0, 0, 0, 0, 0, fun _ => 0⟩ /- PWR_DOM_STAT -/,
   ⟨0x68, 0x4, 1, 0, 0, 0, 0x0000000F, 0, fun _ => 0⟩ /- PAD_RELEASE -/,
   ⟨0x6C, 0x4, 1, 0, 0, 0, 0, 0, fun _ => 0⟩ /- PWR_BANK_FAIL -/,
   ⟨0x70, 0x4, 1, 0, 0x000000FF, 0, 0, 0, fun _ => 0x000000F5⟩ /- PWR_WAKE_CFG -/,
   ⟨0x74, 0x4, 1, 0, 0, 0, 0, 0, fun _ => 0⟩ /- PWR_WAKE_REC -/,
   ⟨0x78, 0x4, 1, 0, 0, 0, 0, 0, fun _ => 0⟩ /- PWR_WAKE_TIME_LO -/,
   ⟨0x7C, 0x4, 1, 0, 0, 0, 0, 0, fun _ => 0⟩ /- PWR_WAKE_TIME_HI -/,
   ⟨0x80, 0x4, 1, 0, 0, 0, 0, 0, fun _ => 0⟩ /- PWR_RTC_LO -/,
   ⟨0x84, 0x4, 1, 0, 0, 0, 0, 0, fun _ => 0⟩ /- PWR_RTC_HI -/,
   ⟨0x88, 0x4, 1, 0xFFFFFFFF, 0, 0, 0, 0, fun _ => 0⟩ /- PWR_ALARM_LO -/,
   ⟨0x8C, 0x4, 1, 0x8000FFFF, 0, 0, 0, 0, fun _ => 0⟩ /- PWR_ALARM_HI -/] ++
  [
   ⟨0x90, 0x4, 1, 0, 0, 0x00000001, 0, 0, fun _ => 0⟩ /- PWR_ALARM_STAT -/,
   ⟨0x94, 0x4, 1, 0, 0, 0, 0, 0, fun _ => 0⟩ /- PWR_REPLAY_STAT -/,
   ⟨0x98, 0x4, 1, 0, 0, 0, 0, 0, fun _ => 0⟩ /- PWR_REPLAY_BITS_LO -/,
   ⟨0x9C, 0x4, 1, 0, 0, 0, 0, 0, fun _ => 0⟩ /- PWR_REPLAY_BITS_HI -/,
   ⟨0xA0, 0x4, 1, 0, 0xFFFF0FFF, 0, 0, 0, fun _ => 0x00640020⟩ /- PWR_LK_CFG -/,
   ⟨0xA4, 0x4, 1, 0, 0x000F0FFF, 0, 0, 0, fun _ => 0x000001F4⟩ /- PWR_LK_EXC -/,
   ⟨0xA8, 0x4, 1, 0, 0xFFFFFFFF, 0, 0, 0, fun _ => 0x020000C0⟩ /- PWR_LK_WIN -/,
   ⟨0xAC, 0x4, 1, 0, 0x00FFFFFF, 0, 0, 0, fun _ => 0x007FFFFF⟩ /- PWR_LK_AHI -/,
   ⟨0xB0, 0x4, 1, 0, 0x00FFFFFF, 0, 0, 0, fun _ => 0x00800000⟩ /- PWR_LK_ALO -/,
   ⟨0xB4, 0x4, 1, 0, 0x00000FFF, 0, 0, 0, fun _ => 0x00000400⟩ /- PWR_LK_AMIN -/,
   ⟨0xB8, 0x4, 1, 0, 0, 0, 0, 0, fun _ => 0⟩ /- PWR_LK_STAT -/,
   ⟨0xBC, 0x4, 1, 0, 0, 0, 0, 0, fun _ => 0⟩ /- PWR_LK_ACC -/,
   ⟨0xC0, 0x4, 1, 0, 0, 0, 0, 0, fun _ => 0⟩ /- PWR_LK_AVAL -/]

/-- Registers of the BOOT page beyond the fault header. -/
def regRowsBOOT : List RegRow :=
  [
   ⟨0x40, 0x4, 1, 0, 0, 0, 0, 0, fun _ => 0⟩ /- BOOT_STAT -/,
   ⟨0x44, 0x4, 1, 0, 0, 0, 0, 0, fun _ => 0⟩ /- BOOT_BIST_STAT -/,
   ⟨0x48, 0x4, 1, 0, 0, 0, 0, 0, fun _ => 0⟩ /- BOOT_BIST_MEM -/,
   ⟨0x4C, 0x4, 1, 0, 0, 0, 0, 0, fun _ => 0⟩ /- BOOT_REPAIR_LOWER -/,
   ⟨0x50, 0x4, 1, 0, 0, 0, 0, 0, fun _ => 0⟩ /- BOOT_REPAIR_UPPER -/,
   ⟨0x54, 0x4, 1, 0, 0, 0, 0, 0, fun _ => 0⟩ /- BOOT_IMG_ID -/,
   ⟨0x58, 0x4, 1, 0, 0, 0, 0, 0, fun _ => 0⟩ /- BOOT_ERR_OFS -/,
   ⟨0x5C, 0x4, 1, 0, 0, 0, 0, 0, fun _ => 0⟩ /- BOOT_SKIP_CNT -/,
   ⟨0x60, 0x4, 1, 0, 0, 0, 0, 0, fun _ => 0⟩ /- BOOT_REL_TIME -/,
   ⟨0x64, 0x4, 1, 0, 0, 0x00000060, 0, 0, fun _ => 0⟩ /- BOOT_CAL_STAT -/,
   ⟨0x68, 0x4, 1, 0, 0, 0, 0, 0, fun _ => 0⟩ /- BOOT_CAL_GEN_A -/,
   ⟨0x6C, 0x4, 1, 0, 0, 0, 0, 0, fun _ => 0⟩ /- BOOT_CAL_GEN_B -/,
   ⟨0x70, 0x4, 1, 0, 0, 0, 0x0000FFFF, 0, fun _ => 0⟩ /- BOOT_CAL_CMD -/,
   ⟨0x74, 0x4, 1, 0, 0, 0, 0x0000FFFF, 0, fun _ => 0⟩ /- BOOT_DL_CMD -/]

/-- Registers of the PCH_n page beyond the fault header. -/
def regRowsPCH : List RegRow :=
  [
   ⟨0x40, 0x1000, 8, 0x00000001, 0, 0, 0x00000002, 0, fun _ => 0⟩ /- PCH_CTRL -/,
   ⟨0x44, 0x1000, 8, 0, 0x0000F337, 0, 0, 0, fun i => BitVec.ofNat 32 (0x00008301 + 0x10 * (i / 2))⟩ /- PCH_CFG -/,
   ⟨0x48, 0x1000, 8, 0, 0x0FFF0FFF, 0, 0, 0, fun _ => 0x0E000600⟩ /- PCH_AMPW -/,
   ⟨0x4C, 0x1000, 8, 0, 0x00FF07F3, 0, 0, 0, fun _ => 0x00200442⟩ /- PCH_PH_CFG -/,
   ⟨0x50, 0x1000, 8, 0, 0x0000FFFF, 0, 0, 0, fun _ => 0⟩ /- PCH_PH_INIT -/,
   ⟨0x54, 0x1000, 8, 0, 0, 0, 0, 0, fun _ => 0⟩ /- PCH_PH_STAT -/,
   ⟨0x58, 0x1000, 8, 0, 0, 0, 0, 0, fun _ => 0⟩ /- PCH_STAT -/,
   ⟨0x5C, 0x1000, 8, 0, 0, 0, 0, 0, fun _ => 0⟩ /- PCH_LOSS_CAUSE -/,
   ⟨0x60, 0x1000, 8, 0, 0, 0, 0, 0, fun _ => 0⟩ /- PCH_INV_CNT -/,
   ⟨0x64, 0x1000, 8, 0, 0, 0, 0, 0, fun _ => 0⟩ /- PCH_RAW -/,
   ⟨0x68, 0x1000, 8, 0, 0, 0, 0, 0, fun _ => 0⟩ /- PCH_DEMOD -/,
   ⟨0x6C, 0x1000, 8, 0, 0, 0, 0, 0, fun _ => 0⟩ /- PCH_AMP -/,
   ⟨0x70, 0x1000, 8, 0, 0, 0, 0, 0, fun _ => 0⟩ /- PCH_DEMOD_AGE -/,
   ⟨0x100, 0x1000, 8, 0, 0x0003771F, 0, 0, 0, fun _ => 0x00017001⟩ /- PCH_TRK_CFG -/,
   ⟨0x104, 0x1000, 8, 0, 0xFFFFFFFF, 0, 0, 0, fun _ => 0x00200100⟩ /- PCH_TRK_BW_THR -/,
   ⟨0x108, 0x1000, 8, 0, 0x0F0FFFFF, 0, 0, 0, fun _ => 0x08040800⟩ /- PCH_TRK_BW_TIME -/,
   ⟨0x10C, 0x1000, 8, 0, 0xFFFFFFFF, 0, 0, 0, fun _ => 0x01000080⟩ /- PCH_TRK_LOCK_CFG -/,
   ⟨0x110, 0x1000, 8, 0, 0x000FFFFF, 0, 0, 0, fun _ => 0x00088000⟩ /- PCH_TRK_LOL_CFG -/,
   ⟨0x114, 0x1000, 8, 0, 0x0000FFFF, 0, 0, 0, fun _ => 0x00001770⟩ /- PCH_TRK_SPD_LIM -/,
   ⟨0x118, 0x1000, 8, 0, 0xFFFFFFFF, 0, 0, 0, fun _ => 0x00141388⟩ /- PCH_TRK_TIMEOUT -/] ++
  [
   ⟨0x11C, 0x1000, 8, 0, 0, 0, 0x001FFFFF, 0, fun _ => 0⟩ /- PCH_SECT_SET -/,
   ⟨0x120, 0x1000, 8, 0, 0, 0, 0, 0, fun _ => 0⟩ /- PCH_ANGLE -/,
   ⟨0x124, 0x1000, 8, 0, 0, 0, 0, 0, fun _ => 0⟩ /- PCH_SPEED -/,
   ⟨0x128, 0x1000, 8, 0, 0, 0, 0, 0, fun _ => 0⟩ /- PCH_ACCEL -/,
   ⟨0x12C, 0x1000, 8, 0, 0, 0, 0, 0, fun _ => 0⟩ /- PCH_MANGLE -/,
   ⟨0x130, 0x1000, 8, 0, 0, 0, 0, 0, fun _ => 0⟩ /- PCH_TURNS -/,
   ⟨0x134, 0x1000, 8, 0, 0, 0, 0, 0, fun _ => 0⟩ /- PCH_TICK_TIME_LO -/,
   ⟨0x138, 0x1000, 8, 0, 0, 0, 0, 0, fun _ => 0⟩ /- PCH_TICK_TIME_HI -/,
   ⟨0x13C, 0x1000, 8, 0, 0, 0, 0, 0, fun _ => 0⟩ /- PCH_RAW_ANG -/,
   ⟨0x140, 0x1000, 8, 0, 0, 0, 0, 0, fun _ => 0⟩ /- PCH_TRK_ERR -/,
   ⟨0x144, 0x1000, 8, 0, 0, 0, 0, 0, fun _ => 0⟩ /- PCH_TRK_STAT -/,
   ⟨0x148, 0x1000, 8, 0, 0, 0, 0, 0, fun _ => 0⟩ /- PCH_ERR_PEAK -/,
   ⟨0x14C, 0x1000, 8, 0, 0, 0, 0x00000001, 0, fun _ => 0⟩ /- PCH_TRK_CTRL -/,
   ⟨0x150, 0x1000, 8, 0x0001FFFF, 0, 0, 0, 0, fun _ => 0x00000064⟩ /- PCH_PRED_CFG -/,
   ⟨0x154, 0x1000, 8, 0xFFFFFFFF, 0, 0, 0, 0, fun _ => 0⟩ /- PCH_PRED_LEAD -/,
   ⟨0x158, 0x1000, 8, 0xFFFFFFFF, 0, 0, 0, 0, fun _ => 0⟩ /- PCH_PRED_TIME_LO -/,
   ⟨0x15C, 0x1000, 8, 0xFFFFFFFF, 0, 0, 0, 0, fun _ => 0⟩ /- PCH_PRED_TIME_HI -/,
   ⟨0x160, 0x1000, 8, 0, 0, 0, 0, 0, fun _ => 0⟩ /- PCH_PRED_ANG -/,
   ⟨0x164, 0x1000, 8, 0, 0, 0, 0, 0, fun _ => 0⟩ /- PCH_PRED_SPD -/]

/-- Registers of the EXC page beyond the fault header. -/
def regRowsEXC : List RegRow :=
  [
   ⟨0x40, 0x4, 1, 0, 0, 0, 0, 0, fun _ => 0⟩ /- EXC_VMON -/,
   ⟨0x44, 0x4, 1, 0, 0, 0, 0, 0, fun _ => 0⟩ /- EXC_TEMP -/,
   ⟨0x100, 0x40, 4, 0x000F1F73, 0, 0, 0x00000004, 0, fun i => BitVec.ofNat 32 (0x00080400 + 0x20 * i)⟩ /- EXC_n_CTRL -/,
   ⟨0x104, 0x40, 4, 0x0000FFFF, 0, 0, 0, 0, fun _ => 0x00002710⟩ /- EXC_n_FREQ -/,
   ⟨0x108, 0x40, 4, 0x0000FFFF, 0, 0, 0, 0, fun _ => 0⟩ /- EXC_n_PHASE -/,
   ⟨0x10C, 0x40, 4, 0x0FFF0FFF, 0, 0, 0, 0, fun _ => 0x080003E8⟩ /- EXC_n_AMP -/,
   ⟨0x110, 0x40, 4, 0x0FFF0FFF, 0, 0, 0, 0, fun _ => 0x00C80960⟩ /- EXC_n_LIMIT -/,
   ⟨0x114, 0x40, 4, 0, 0x0F3F3F3F, 0, 0, 0, fun _ => 0x081E052D⟩ /- EXC_n_IMON_CFG -/,
   ⟨0x118, 0x40, 4, 0, 0, 0, 0, 0, fun _ => 0⟩ /- EXC_n_STAT -/,
   ⟨0x11C, 0x40, 4, 0, 0, 0, 0, 0, fun _ => 0⟩ /- EXC_n_IMEAS -/,
   ⟨0x120, 0x40, 4, 0, 0, 0, 0, 0, fun _ => 0⟩ /- EXC_n_AMEAS -/]

/-- Registers of the SCL page beyond the fault header. -/
def regRowsSCL : List RegRow :=
  [
   ⟨0x40, 0x4, 1, 0, 0, 0, 0, 0, fun _ => 0⟩ /- SCL_TEMP -/,
   ⟨0x44, 0x4, 1, 0, 0, 0, 0, 0, fun _ => 0⟩ /- SCL_TBASE -/,
   ⟨0x48, 0x4, 1, 0, 0xFFFF0FFF, 0, 0, 0, fun _ => 0x8A6400A0⟩ /- SCL_TRIM_CFG -/,
   ⟨0x4C, 0x4, 1, 0, 0x00FF0F07, 0, 0, 0, fun _ => 0x00200401⟩ /- SCL_LRN_CFG -/,
   ⟨0x50, 0x4, 1, 0, 0xFFFFFFFF, 0, 0, 0, fun _ => 0x040000C0⟩ /- SCL_LRN_LIM -/,
   ⟨0x54, 0x4, 1, 0, 0xFFFFFFFF, 0, 0, 0, fun _ => 0x01900014⟩ /- SCL_SPD_WIN -/,
   ⟨0x100, 0x80, 8, 0x001F0F03, 0, 0, 0x0000001C, 0, fun _ => 0x00100002⟩ /- SCL_n_CTRL -/,
   ⟨0x104, 0x80, 8, 0, 0, 0, 0, 0, fun _ => 0⟩ /- SCL_n_STAT -/,
   ⟨0x108, 0x80, 8, 0, 0, 0, 0, 0, fun _ => 0⟩ /- SCL_n_CONV -/,
   ⟨0x10C, 0x80, 8, 0xFFFFFFFF, 0, 0, 0, 0, fun _ => 0⟩ /- SCL_n_FRONT_OFS -/,
   ⟨0x110, 0x80, 8, 0xFFFFFFFF, 0, 0, 0, 0, fun _ => 0⟩ /- SCL_n_FRONT_GQ -/,
   ⟨0x114, 0x80, 8, 0, 0, 0, 0, 0, fun _ => 0⟩ /- SCL_n_TRIM_OFS -/,
   ⟨0x118, 0x80, 8, 0, 0, 0, 0, 0, fun _ => 0⟩ /- SCL_n_TRIM_GAIN -/,
   ⟨0x11C, 0x80, 8, 0, 0, 0, 0, 0, fun _ => 0⟩ /- SCL_n_RESID -/,
   ⟨0x120, 0x80, 8, 0xFFFFFFFF, 0, 0, 0, 0, fun _ => 0⟩ /- SCL_n_HARM_1 -/,
   ⟨0x124, 0x80, 8, 0xFFFFFFFF, 0, 0, 0, 0, fun _ => 0⟩ /- SCL_n_HARM_2 -/,
   ⟨0x128, 0x80, 8, 0xFFFFFFFF, 0, 0, 0, 0, fun _ => 0⟩ /- SCL_n_HARM_3 -/,
   ⟨0x12C, 0x80, 8, 0xFFFFFFFF, 0, 0, 0, 0, fun _ => 0⟩ /- SCL_n_HARM_4 -/,
   ⟨0x130, 0x80, 8, 0xFFFFFFFF, 0, 0, 0, 0, fun _ => 0⟩ /- SCL_n_HARM_5 -/,
   ⟨0x134, 0x80, 8, 0xFFFFFFFF, 0, 0, 0, 0, fun _ => 0⟩ /- SCL_n_HARM_6 -/] ++
  [
   ⟨0x138, 0x80, 8, 0xFFFFFFFF, 0, 0, 0, 0, fun _ => 0⟩ /- SCL_n_HARM_7 -/,
   ⟨0x13C, 0x80, 8, 0xFFFFFFFF, 0, 0, 0, 0, fun _ => 0⟩ /- SCL_n_HARM_8 -/,
   ⟨0x140, 0x80, 8, 0xFFFFFFFF, 0, 0, 0, 0, fun _ => 0⟩ /- SCL_n_HARM_9 -/,
   ⟨0x144, 0x80, 8, 0xFFFFFFFF, 0, 0, 0, 0, fun _ => 0⟩ /- SCL_n_HARM_10 -/,
   ⟨0x148, 0x80, 8, 0xFFFFFFFF, 0, 0, 0, 0, fun _ => 0⟩ /- SCL_n_HARM_11 -/,
   ⟨0x14C, 0x80, 8, 0xFFFFFFFF, 0, 0, 0, 0, fun _ => 0⟩ /- SCL_n_HARM_12 -/,
   ⟨0x150, 0x80, 8, 0xFFFFFFFF, 0, 0, 0, 0, fun _ => 0⟩ /- SCL_n_HARM_13 -/,
   ⟨0x154, 0x80, 8, 0xFFFFFFFF, 0, 0, 0, 0, fun _ => 0⟩ /- SCL_n_HARM_14 -/,
   ⟨0x158, 0x80, 8, 0xFFFFFFFF, 0, 0, 0, 0, fun _ => 0⟩ /- SCL_n_HARM_15 -/,
   ⟨0x15C, 0x80, 8, 0xFFFFFFFF, 0, 0, 0, 0, fun _ => 0⟩ /- SCL_n_HARM_16 -/]

/-- Registers of the DCH page beyond the fault header. -/
def regRowsDCH : List RegRow :=
  [
   ⟨0x100, 0x80, 4, 0x00000001, 0, 0, 0x0000000E, 0, fun _ => 0⟩ /- DCH_n_CTRL -/,
   ⟨0x104, 0x80, 4, 0, 0x0F1F3FFF, 0, 0, 0, fun _ => 0x0F010010⟩ /- DCH_n_CFG -/,
   ⟨0x108, 0x80, 4, 0, 0xFFFFFFFF, 0, 0, 0, fun _ => 0x00000400⟩ /- DCH_n_SCALE -/,
   ⟨0x10C, 0x80, 4, 0, 0xFF03FFFF, 0, 0, 0, fun _ => 0x02000000⟩ /- DCH_n_IDX_CFG -/,
   ⟨0x110, 0x80, 4, 0, 0xFFFFFFFF, 0, 0, 0, fun _ => 0x03E80A04⟩ /- DCH_n_MON_CFG -/,
   ⟨0x114, 0x80, 4, 0, 0xFFFFFFFF, 0, 0, 0, fun _ => 0x00C80014⟩ /- DCH_n_RATE -/,
   ⟨0x118, 0x80, 4, 0, 0xF1371F1F, 0, 0, 0, fun _ => 0x3100000D⟩ /- DCH_n_SSI_CFG -/,
   ⟨0x11C, 0x80, 4, 0, 0xFFFF0FFF, 0, 0, 0, fun _ => 0x14000028⟩ /- DCH_n_SSI_TIM -/,
   ⟨0x120, 0x80, 4, 0, 0x00FFFFFF, 0, 0, 0, fun _ => 0x00000400⟩ /- DCH_n_SSI_JUMP -/,
   ⟨0x124, 0x80, 4, 0, 0, 0, 0, 0, fun _ => 0⟩ /- DCH_n_ANGLE -/,
   ⟨0x128, 0x80, 4, 0, 0, 0, 0, 0, fun _ => 0⟩ /- DCH_n_SPEED -/,
   ⟨0x12C, 0x80, 4, 0, 0, 0, 0, 0, fun _ => 0⟩ /- DCH_n_POS -/,
   ⟨0x130, 0x80, 4, 0, 0, 0, 0, 0, fun _ => 0⟩ /- DCH_n_TURNS -/,
   ⟨0x134, 0x80, 4, 0, 0, 0, 0, 0, fun _ => 0⟩ /- DCH_n_UP_CNT -/,
   ⟨0x138, 0x80, 4, 0, 0, 0, 0, 0, fun _ => 0⟩ /- DCH_n_DN_CNT -/,
   ⟨0x13C, 0x80, 4, 0, 0, 0, 0, 0, fun _ => 0⟩ /- DCH_n_ILL_CNT -/,
   ⟨0x140, 0x80, 4, 0, 0, 0, 0, 0, fun _ => 0⟩ /- DCH_n_TRANS_CNT -/,
   ⟨0x144, 0x80, 4, 0, 0, 0, 0, 0, fun _ => 0⟩ /- DCH_n_SLIP_ACC -/,
   ⟨0x148, 0x80, 4, 0, 0, 0, 0, 0, fun _ => 0⟩ /- DCH_n_STAMP_LO -/,
   ⟨0x14C, 0x80, 4, 0, 0, 0, 0, 0, fun _ => 0⟩ /- DCH_n_STAMP_HI -/] ++
  [
   ⟨0x150, 0x80, 4, 0, 0, 0, 0, 0, fun _ => 0⟩ /- DCH_n_STAT -/,
   ⟨0x154, 0x80, 4, 0, 0, 0, 0, 0, fun _ => 0⟩ /- DCH_n_IDX_CAP -/,
   ⟨0x158, 0x80, 4, 0, 0, 0, 0, 0, fun _ => 0⟩ /- DCH_n_IDX_EXP -/,
   ⟨0x15C, 0x80, 4, 0, 0, 0, 0, 0, fun _ => 0⟩ /- DCH_n_SSI_RAW -/,
   ⟨0x160, 0x80, 4, 0, 0, 0, 0, 0, fun _ => 0⟩ /- DCH_n_SSI_STAT -/]

/-- Registers of the ENC page beyond the fault header. -/
def regRowsENC : List RegRow :=
  [
   ⟨0x100, 0x40, 4, 0x00000001, 0, 0, 0x00000002, 0, fun _ => 0⟩ /- ENC_n_CTRL -/,
   ⟨0x104, 0x40, 4, 0, 0x0003FF7F, 0, 0, 0, fun i => BitVec.ofNat 32 (0x00000A48 + i / 2)⟩ /- ENC_n_CFG -/,
   ⟨0x108, 0x40, 4, 0, 0x0000FFFF, 0, 0, 0, fun _ => 0x00001000⟩ /- ENC_n_LINES -/,
   ⟨0x10C, 0x40, 4, 0, 0x0003FFFF, 0, 0, 0, fun _ => 0⟩ /- ENC_n_IDX -/,
   ⟨0x110, 0x40, 4, 0, 0xFFFFFFFF, 0, 0, 0, fun _ => 0x00000040⟩ /- ENC_n_TUNE -/,
   ⟨0x114, 0x40, 4, 0, 0x001FFFFF, 0, 0, 0, fun _ => 0x00010000⟩ /- ENC_n_WARN -/,
   ⟨0x118, 0x40, 4, 0, 0, 0, 0, 0, fun _ => 0⟩ /- ENC_n_TARGET -/,
   ⟨0x11C, 0x40, 4, 0, 0, 0, 0, 0, fun _ => 0⟩ /- ENC_n_EMIT -/,
   ⟨0x120, 0x40, 4, 0, 0, 0, 0, 0, fun _ => 0⟩ /- ENC_n_BACKLOG -/,
   ⟨0x124, 0x40, 4, 0, 0, 0, 0, 0, fun _ => 0⟩ /- ENC_n_JUMP -/,
   ⟨0x128, 0x40, 4, 0, 0, 0, 0, 0, fun _ => 0⟩ /- ENC_n_UP -/,
   ⟨0x12C, 0x40, 4, 0, 0, 0, 0, 0, fun _ => 0⟩ /- ENC_n_DN -/,
   ⟨0x130, 0x40, 4, 0, 0, 0, 0, 0, fun _ => 0⟩ /- ENC_n_SNAP_LO -/,
   ⟨0x134, 0x40, 4, 0, 0, 0, 0, 0, fun _ => 0⟩ /- ENC_n_SNAP_HI -/,
   ⟨0x138, 0x40, 4, 0, 0, 0, 0, 0, fun _ => 0⟩ /- ENC_n_OUT -/,
   ⟨0x13C, 0x40, 4, 0, 0, 0, 0, 0, fun _ => 0⟩ /- ENC_n_STAT -/]

/-- Registers of the AEV page beyond the fault header. -/
def regRowsAEV : List RegRow :=
  [
   ⟨0x40, 0x4, 1, 0x00000001, 0, 0, 0x00000002, 0, fun _ => 0⟩ /- AEV_CTRL -/,
   ⟨0x44, 0x4, 1, 0, 0x00FFFFFF, 0, 0, 0, fun _ => 0x00000400⟩ /- AEV_HYST -/,
   ⟨0x48, 0x4, 1, 0, 0, 0, 0, 0, fun _ => 0⟩ /- AEV_STAT -/,
   ⟨0x100, 0x10, 8, 0, 0x0000000B, 0, 0, 0, fun i => BitVec.ofNat 32 (0x00000008 + i / 4)⟩ /- AEV_n_CFG -/,
   ⟨0x104, 0x10, 8, 0, 0, 0, 0, 0, fun _ => 0⟩ /- AEV_n_OUT -/,
   ⟨0x108, 0x10, 8, 0, 0x0000FFFF, 0, 0, 0, fun _ => 0⟩ /- AEV_n_LEAD -/,
   ⟨0x10C, 0x10, 8, 0, 0, 0, 0x00000003, 0, fun _ => 0⟩ /- AEV_n_FORCE -/,
   ⟨0x1000, 0x10, 256, 0xFFFFFF33, 0, 0, 0, 0, fun _ => 0⟩ /- AEV_SLOT_s_ANG -/,
   ⟨0x1004, 0x10, 256, 0xF0FF0000, 0, 0, 0, 0, fun _ => 0⟩ /- AEV_SLOT_s_ACT -/,
   ⟨0x1008, 0x10, 256, 0xFFFFFFFF, 0, 0, 0, 0, fun _ => 0x00010000⟩ /- AEV_SLOT_s_PAR -/,
   ⟨0x100C, 0x10, 256, 0, 0, 0, 0, 0, fun _ => 0⟩ /- AEV_SLOT_s_STAT -/]

/-- Registers of the SDM page beyond the fault header. -/
def regRowsSDM : List RegRow :=
  [
   ⟨0x40, 0x4, 1, 0, 0x000F13F3, 0, 0, 0, fun _ => 0x00020300⟩ /- SDM_GLB_CFG -/,
   ⟨0x44, 0x4, 2, 0, 0xFFFFFFFF, 0, 0, 0, fun _ => 0x0190012C⟩ /- SDM_ASC_SPD_d -/,
   ⟨0x4C, 0x4, 1, 0, 0, 0, 0xFFFF0001, 0, fun _ => 0⟩ /- SDM_REL_CMD -/,
   ⟨0x50, 0x4, 1, 0, 0, 0, 0x0000FFFF, 0, fun _ => 0⟩ /- SDM_DIS_CMD -/,
   ⟨0x54, 0x4, 1, 0, 0, 0, 0, 0, fun _ => 0⟩ /- SDM_SAFE_STAT -/,
   ⟨0x58, 0x4, 1, 0, 0, 0, 0x00000001, 0, fun _ => 0⟩ /- SDM_CTRL -/,
   ⟨0x100, 0x20, 8, 0, 0x00077D7D, 0, 0, 0, fun i => sdmCfgReset i⟩ /- SDM_n_CFG -/,
   ⟨0x104, 0x20, 8, 0, 0xFFFFFFFF, 0, 0, 0, fun _ => 0x7FFF8000⟩ /- SDM_n_THR -/,
   ⟨0x108, 0x20, 8, 0, 0xFFFFFFFF, 0, 0, 0, fun _ => 0x40000000⟩ /- SDM_n_SCALE -/,
   ⟨0x10C, 0x20, 8, 0, 0, 0, 0, 0, fun _ => 0⟩ /- SDM_n_DATA -/,
   ⟨0x110, 0x20, 8, 0, 0, 0, 0, 0, fun _ => 0⟩ /- SDM_n_LATCH -/,
   ⟨0x114, 0x20, 8, 0, 0, 0, 0, 0, fun _ => 0⟩ /- SDM_n_LAT_TIME_LO -/,
   ⟨0x118, 0x20, 8, 0, 0, 0, 0, 0, fun _ => 0⟩ /- SDM_n_LAT_TIME_HI -/,
   ⟨0x11C, 0x20, 8, 0, 0, 0, 0, 0, fun _ => 0⟩ /- SDM_n_PEAK -/,
   ⟨0x200, 0x40, 2, 0, 0x00FFF0F3, 0, 0, 0, fun _ => 0x00000040⟩ /- SDM_TQ_d_CFG -/,
   ⟨0x204, 0x40, 2, 0, 0xFFFFFFFF, 0, 0, 0, fun _ => 0⟩ /- SDM_TQ_d_K -/,
   ⟨0x208, 0x40, 2, 0, 0xFFFFFFFF, 0, 0, 0, fun _ => 0x00660100⟩ /- SDM_TQ_d_WIN -/,
   ⟨0x20C, 0x40, 2, 0, 0x0F0FFFFF, 0, 0, 0, fun _ => 0x04080200⟩ /- SDM_TQ_d_CHK -/,
   ⟨0x210, 0x40, 2, 0, 0xFFFFFFFF, 0, 0, 0, fun _ => 0x03E801F4⟩ /- SDM_TQ_d_TIME -/,
   ⟨0x214, 0x40, 2, 0, 0xFFFFFF00, 0, 0, 0, fun _ => 0⟩ /- SDM_TQ_d_ROT -/] ++
  [
   ⟨0x218, 0x40, 2, 0, 0xFFFFFFFF, 0, 0, 0, fun _ => 0x00010000⟩ /- SDM_TQ_d_AUXG -/,
   ⟨0x21C, 0x40, 2, 0xFFFFFFFF, 0, 0, 0, 0, fun _ => 0⟩ /- SDM_TQ_d_CMD -/,
   ⟨0x220, 0x40, 2, 0, 0, 0, 0, 0, fun _ => 0⟩ /- SDM_TQ_d_IDQ -/,
   ⟨0x224, 0x40, 2, 0, 0, 0, 0, 0, fun _ => 0⟩ /- SDM_TQ_d_EST -/,
   ⟨0x228, 0x40, 2, 0, 0, 0, 0, 0, fun _ => 0⟩ /- SDM_TQ_d_REF -/,
   ⟨0x22C, 0x40, 2, 0, 0, 0, 0, 0, fun _ => 0⟩ /- SDM_TQ_d_STAT -/]

/-- Registers of the AUX page beyond the fault header. -/
def regRowsAUX : List RegRow :=
  [
   ⟨0x40, 0x4, 1, 0x0000FFFF, 0, 0, 0, 0, fun _ => 0⟩ /- AUX_CTRL -/,
   ⟨0x44, 0x4, 1, 0, 0, 0, 0, 0, fun _ => 0⟩ /- AUX_CONV_STAT -/,
   ⟨0x48, 0x4, 1, 0, 0, 0, 0, 0, fun _ => 0⟩ /- AUX_PIN_STAT -/,
   ⟨0x4C, 0x4, 1, 0, 0x0000000F, 0, 0, 0, fun _ => 0x00000002⟩ /- AUX_AUTO_CFG -/,
   ⟨0x80, 0x10, 2, 0, 0xFFF1FF1F, 0, 0, 0, fun _ => 0⟩ /- AUX_ROUT_n_CFG -/,
   ⟨0x84, 0x10, 2, 0, 0xFFFFFFFF, 0, 0, 0, fun _ => 0x00010000⟩ /- AUX_ROUT_n_SCALE -/,
   ⟨0x88, 0x10, 2, 0x00000FFF, 0, 0, 0, 0, fun _ => 0⟩ /- AUX_ROUT_n_CODE -/,
   ⟨0x8C, 0x10, 2, 0, 0, 0, 0, 0, fun _ => 0⟩ /- AUX_ROUT_n_STAT -/,
   ⟨0x100, 0x40, 16, 0, 0x3FFFFFFF, 0, 0, 0, fun _ => 0x3FFFFFFF⟩ /- AUX_k_PINS -/,
   ⟨0x104, 0x40, 16, 0, 0x0FFFFFFF, 0, 0, 0, fun i => BitVec.ofNat 32 (0x00A06008 + 0x80 * (i / 8))⟩ /- AUX_k_CFG -/,
   ⟨0x108, 0x40, 16, 0, 0x00FFFFFF, 0, 0, 0, fun _ => 0⟩ /- AUX_k_RREF -/,
   ⟨0x10C, 0x40, 16, 0, 0xFFFFFFFF, 0, 0, 0, fun _ => 0x3E810000⟩ /- AUX_k_LEAD_CFG -/,
   ⟨0x110, 0x40, 16, 0, 0x0000FFFF, 0, 0, 0, fun _ => 0x000003E8⟩ /- AUX_k_R0 -/,
   ⟨0x114, 0x40, 16, 0, 0x00FFFFFF, 0, 0, 0, fun _ => 0x007FFFFF⟩ /- AUX_k_LIM_HI -/,
   ⟨0x118, 0x40, 16, 0, 0xF0FFFFFF, 0, 0, 0, fun _ => 0x10800000⟩ /- AUX_k_LIM_LO -/,
   ⟨0x11C, 0x40, 16, 0, 0x00FFFFFF, 0, 0, 0, fun _ => 0⟩ /- AUX_k_SHORT -/,
   ⟨0x120, 0x40, 16, 0, 0, 0, 0, 0, fun _ => 0⟩ /- AUX_k_RES -/,
   ⟨0x124, 0x40, 16, 0, 0, 0, 0, 0, fun _ => 0⟩ /- AUX_k_TEMP -/,
   ⟨0x128, 0x40, 16, 0, 0, 0, 0, 0, fun _ => 0⟩ /- AUX_k_LEADR -/,
   ⟨0x12C, 0x40, 16, 0, 0, 0, 0, 0, fun _ => 0⟩ /- AUX_k_TIME_LO -/] ++
  [
   ⟨0x130, 0x40, 16, 0, 0, 0, 0, 0, fun _ => 0⟩ /- AUX_k_TIME_HI -/,
   ⟨0x134, 0x40, 16, 0, 0, 0, 0, 0, fun _ => 0⟩ /- AUX_k_STAT -/]

/-- Registers of the XMON page beyond the fault header. -/
def regRowsXMON : List RegRow :=
  [
   ⟨0x40, 0x4, 1, 0, 0, 0x0000C0C0, 0, 0, fun _ => 0⟩ /- XMON_AUTH_STAT -/,
   ⟨0x44, 0x4, 1, 0, 0, 0, 0xFFFF0101, 0, fun _ => 0⟩ /- XMON_AUTH_CMD -/,
   ⟨0x48, 0x4, 1, 0, 0, 0, 0, 0, fun _ => 0⟩ /- XMON_HEALTH -/,
   ⟨0x100, 0x40, 2, 0, 0x0F030077, 0, 0, 0, fun i => BitVec.ofNat 32 (0x04000040 + 0x22 * i)⟩ /- XMON_n_CFG -/,
   ⟨0x104, 0x40, 2, 0, 0x00FFFFFF, 0, 0, 0, fun _ => 0x0000B60B⟩ /- XMON_n_ANG_WIN -/,
   ⟨0x108, 0x40, 2, 0, 0xFFFFFFFF, 0, 0, 0, fun _ => 0x000800A0⟩ /- XMON_n_SPD_WIN -/,
   ⟨0x10C, 0x40, 2, 0, 0xFFFFFFFF, 0, 0, 0, fun _ => 0x00080140⟩ /- XMON_n_DREF_WIN -/,
   ⟨0x110, 0x40, 2, 0x00FFFFFF, 0, 0, 0, 0, fun _ => 0⟩ /- XMON_n_ANG_OFS -/,
   ⟨0x114, 0x40, 2, 0, 0, 0, 0x00000003, 0, fun _ => 0⟩ /- XMON_n_CTRL -/,
   ⟨0x118, 0x40, 2, 0, 0, 0, 0, 0, fun _ => 0⟩ /- XMON_n_ADIFF -/,
   ⟨0x11C, 0x40, 2, 0, 0, 0, 0, 0, fun _ => 0⟩ /- XMON_n_SDIFF -/,
   ⟨0x120, 0x40, 2, 0, 0, 0, 0, 0, fun _ => 0⟩ /- XMON_n_PEAK -/,
   ⟨0x124, 0x40, 2, 0, 0, 0, 0, 0, fun _ => 0⟩ /- XMON_n_STAT -/,
   ⟨0x128, 0x40, 2, 0, 0, 0, 0, 0, fun _ => 0⟩ /- XMON_n_HO_TIME_LO -/,
   ⟨0x12C, 0x40, 2, 0, 0, 0, 0, 0, fun _ => 0⟩ /- XMON_n_HO_TIME_HI -/]

/-- Registers of the CRZ page beyond the fault header. -/
def regRowsCRZ : List RegRow :=
  [
   ⟨0x40, 0x4, 1, 0x00000001, 0, 0, 0x00000002, 0, fun _ => 0x00000001⟩ /- CRZ_CTRL -/,
   ⟨0x44, 0x4, 1, 0, 0x00007FFF, 0, 0, 0, fun _ => 0x00007FFF⟩ /- CRZ_ITEM_EN -/,
   ⟨0x48, 0x4, 1, 0, 0x010FFFFF, 0, 0, 0, fun _ => 0x00040064⟩ /- CRZ_SCHED -/,
   ⟨0x4C, 0x4, 1, 0, 0, 0, 0, 0, fun _ => 0⟩ /- CRZ_STAT -/,
   ⟨0x50, 0x4, 1, 0, 0, 0, 0, 0, fun _ => 0⟩ /- CRZ_RES_LO -/,
   ⟨0x54, 0x4, 1, 0, 0, 0, 0, 0, fun _ => 0⟩ /- CRZ_RES_HI -/,
   ⟨0x58, 0x4, 1, 0, 0, 0, 0, 0, fun _ => 0⟩ /- CRZ_YIELD -/,
   ⟨0x5C, 0x4, 1, 0, 0, 0, 0, 0, fun _ => 0⟩ /- CRZ_COUNT -/,
   ⟨0x60, 0x4, 1, 0, 0, 0, 0, 0, fun _ => 0⟩ /- CRZ_FAIL_INFO -/,
   ⟨0x64, 0x4, 1, 0, 0, 0, 0, 0, fun _ => 0⟩ /- CRZ_ROUND_TIME_LO -/,
   ⟨0x68, 0x4, 1, 0, 0, 0, 0, 0, fun _ => 0⟩ /- CRZ_ROUND_TIME_HI -/]

/-- Registers of the TIME page beyond the fault header. -/
def regRowsTIME : List RegRow :=
  [
   ⟨0x40, 0x4, 1, 0, 0, 0, 0, 0, fun _ => 0⟩ /- TIME_NOW_LO -/,
   ⟨0x44, 0x4, 1, 0, 0, 0, 0, 0, fun _ => 0⟩ /- TIME_NOW_HI -/,
   ⟨0x48, 0x4, 1, 0, 0x00007703, 0, 0, 0, fun _ => 0x00005201⟩ /- TIME_CFG -/,
   ⟨0x4C, 0x4, 1, 0, 0xFFFFFFFF, 0, 0, 0, fun _ => 0x00640032⟩ /- TIME_THR -/,
   ⟨0x50, 0x4, 1, 0, 0x0000FFFF, 0, 0, 0, fun _ => 0x00000177⟩ /- TIME_TMO -/,
   ⟨0x54, 0x4, 1, 0, 0, 0, 0, 0, fun _ => 0⟩ /- TIME_RATE -/,
   ⟨0x58, 0x4, 1, 0, 0, 0, 0, 0, fun _ => 0⟩ /- TIME_OFFSET -/,
   ⟨0x5C, 0x4, 1, 0, 0, 0, 0, 0, fun _ => 0⟩ /- TIME_STAT -/,
   ⟨0x60, 0x4, 1, 0, 0, 0, 0, 0, fun _ => 0⟩ /- TIME_STEP_LO -/,
   ⟨0x64, 0x4, 1, 0, 0, 0, 0, 0, fun _ => 0⟩ /- TIME_STEP_HI -/,
   ⟨0x68, 0x4, 1, 0, 0, 0, 0, 0, fun _ => 0⟩ /- TIME_GM_LO -/,
   ⟨0x6C, 0x4, 1, 0, 0, 0, 0, 0, fun _ => 0⟩ /- TIME_GM_HI -/,
   ⟨0x70, 0x4, 1, 0xFFFFFFFF, 0, 0, 0, 0, fun _ => 0⟩ /- TIME_SET_LO -/,
   ⟨0x74, 0x4, 1, 0xFFFFFFFF, 0, 0, 0, 0, fun _ => 0⟩ /- TIME_SET_HI -/,
   ⟨0x100, 0x20, 8, 0xFFFFFF31, 0, 0, 0, 0, fun _ => 0x04000111⟩ /- FREC_n_CFG -/,
   ⟨0x104, 0x20, 8, 0x007FFFFF, 0, 0, 0, 0, fun _ => 0⟩ /- FREC_n_BASE -/,
   ⟨0x108, 0x20, 8, 0x0000FFFF, 0, 0, 0, 0, fun _ => 0x00001000⟩ /- FREC_n_LEN -/,
   ⟨0x10C, 0x20, 8, 0x0000FF07, 0, 0, 0, 0, fun _ => 0⟩ /- FREC_n_SRC -/,
   ⟨0x110, 0x20, 8, 0, 0, 0, 0x00000007, 0, fun _ => 0⟩ /- FREC_n_CTRL -/,
   ⟨0x114, 0x20, 8, 0, 0, 0, 0, 0, fun _ => 0⟩ /- FREC_n_STAT -/] ++
  [
   ⟨0x118, 0x20, 8, 0, 0, 0, 0, 0, fun _ => 0⟩ /- FREC_n_TRIG_LO -/,
   ⟨0x11C, 0x20, 8, 0, 0, 0, 0, 0, fun _ => 0⟩ /- FREC_n_TRIG_HI -/]

/-- Registers of the NET page beyond the fault header. -/
def regRowsNET : List RegRow :=
  [
   ⟨0x40, 0x4, 1, 0x0000FF33, 0, 0, 0, 0, fun _ => 0⟩ /- NET_CTRL -/,
   ⟨0x44, 0x4, 1, 0, 0xFFFFFFFF, 0, 0, 0, fun _ => 0⟩ /- NET_MAC_LO -/,
   ⟨0x48, 0x4, 1, 0, 0x0000FFFF, 0, 0, 0, fun _ => 0⟩ /- NET_MAC_HI -/,
   ⟨0x4C, 0x4, 1, 0, 0xFFFFFF1F, 0, 0, 0, fun _ => 0xFFFF0D13⟩ /- NET_PTP_CFG -/,
   ⟨0x50, 0x4, 1, 0, 0x0000FFFF, 0, 0, 0, fun _ => 0x00000320⟩ /- NET_PTP_THR -/,
   ⟨0x54, 0x4, 1, 0, 0x0001FFFF, 0, 0, 0, fun _ => 0x000088B5⟩ /- NET_CTL_ETYPE -/,
   ⟨0x100, 0x20, 2, 0, 0xFFFFFFFF, 0, 0, 0, fun _ => 0⟩ /- NET_PORT_n_LAT -/,
   ⟨0x104, 0x20, 2, 0, 0x00000077, 0, 0, 0, fun _ => 0x00000023⟩ /- NET_PORT_n_CLASS -/,
   ⟨0x108, 0x20, 2, 0, 0xFFFFFFFF, 0, 0, 0, fun _ => 0⟩ /- NET_PORT_n_CBS -/,
   ⟨0x10C, 0x20, 2, 0, 0, 0, 0, 0, fun _ => 0⟩ /- NET_PORT_n_STAT -/,
   ⟨0x110, 0x20, 2, 0, 0, 0, 0, 0, fun _ => 0⟩ /- NET_PORT_n_PDLY -/,
   ⟨0x114, 0x20, 2, 0, 0, 0, 0, 0, fun _ => 0⟩ /- NET_PORT_n_TXF -/,
   ⟨0x118, 0x20, 2, 0, 0, 0, 0, 0, fun _ => 0⟩ /- NET_PORT_n_RXF -/,
   ⟨0x11C, 0x20, 2, 0, 0, 0, 0, 0, fun _ => 0⟩ /- NET_PORT_n_RXDROP -/,
   ⟨0x200, 0x20, 8, 0, 0x0FFF03F7, 0, 0, 0, fun _ => 0⟩ /- NET_STR_k_CFG -/,
   ⟨0x204, 0x20, 8, 0, 0x0000FFFF, 0, 0, 0, fun _ => 0⟩ /- NET_STR_k_DST_HI -/,
   ⟨0x208, 0x20, 8, 0, 0xFFFFFFFF, 0, 0, 0, fun _ => 0⟩ /- NET_STR_k_DST_LO -/,
   ⟨0x20C, 0x20, 8, 0, 0xFFFFFFFF, 0, 0, 0, fun _ => 0⟩ /- NET_STR_k_SID_HI -/,
   ⟨0x210, 0x20, 8, 0, 0xFFFFFFFF, 0, 0, 0, fun _ => 0⟩ /- NET_STR_k_SID_LO -/,
   ⟨0x214, 0x20, 8, 0, 0x07FFFFFF, 0, 0, 0, fun _ => 0x05C403E8⟩ /- NET_STR_k_TIM -/] ++
  [
   ⟨0x218, 0x20, 8, 0, 0xFFFFFFFF, 0, 0, 0, fun _ => 0⟩ /- NET_STR_k_PRES -/,
   ⟨0x21C, 0x20, 8, 0, 0, 0, 0, 0, fun _ => 0⟩ /- NET_STR_k_STAT -/]

/-- Registers of the QUE page beyond the fault header. -/
def regRowsQUE : List RegRow :=
  [
   ⟨0x40, 0x4, 1, 0, 0xFFFF003F, 0, 0, 0, fun _ => 0x03E8003A⟩ /- QUE_GLB_CFG -/,
   ⟨0x44, 0x4, 1, 0, 0, 0, 0, 0, fun _ => 0⟩ /- QUE_IRQ_STAT -/,
   ⟨0x48, 0x4, 1, 0, 0, 0, 0, 0, fun _ => 0⟩ /- QUE_PEND_LO -/,
   ⟨0x4C, 0x4, 1, 0, 0, 0, 0, 0, fun _ => 0⟩ /- QUE_PEND_HI -/,
   ⟨0x50, 0x4, 1, 0, 0, 0, 0, 0, fun _ => 0⟩ /- QUE_QSPI_STAT -/,
   ⟨0x54, 0x4, 1, 0, 0, 0, 0, 0, fun _ => 0⟩ /- QUE_YARD_STAT -/,
   ⟨0x80, 0x4, 12, 0x003FFFFF, 0, 0, 0, 0, fun i => BitVec.ofNat 32 (i * 0x10000)⟩ /- QUE_SNAP_m_CFG -/,
   ⟨0x100, 0x40, 64, 0, 0x0007FFFF, 0, 0, 0, fun i => BitVec.ofNat 32 (i * 0x2000)⟩ /- QUE_q_BASE -/,
   ⟨0x104, 0x40, 64, 0, 0x000FFFFF, 0, 0, 0, fun _ => 0x00002000⟩ /- QUE_q_SIZE -/,
   ⟨0x108, 0x40, 64, 0xFFFF01F7, 0, 0, 0, 0, fun i => queCfgReset i⟩ /- QUE_q_CFG -/,
   ⟨0x10C, 0x40, 64, 0xFFFF0000, 0, 0, 0x00000001, 0, fun _ => 0⟩ /- QUE_q_CTRL -/,
   ⟨0x110, 0x40, 64, 0, 0, 0, 0, 0, fun _ => 0⟩ /- QUE_q_CREDIT -/,
   ⟨0x114, 0x40, 64, 0, 0, 0, 0, 0, fun _ => 0⟩ /- QUE_q_USED -/,
   ⟨0x118, 0x40, 64, 0, 0, 0, 0, 0, fun _ => 0⟩ /- QUE_q_RECS -/,
   ⟨0x11C, 0x40, 64, 0, 0, 0, 0, 0, fun _ => 0⟩ /- QUE_q_RPTR -/,
   ⟨0x120, 0x40, 64, 0, 0, 0, 0, 0, fun _ => 0⟩ /- QUE_q_WPTR -/,
   ⟨0x124, 0x40, 64, 0, 0, 0, 0, 0, fun _ => 0⟩ /- QUE_q_NSEQ_LO -/,
   ⟨0x128, 0x40, 64, 0, 0, 0, 0, 0, fun _ => 0⟩ /- QUE_q_NSEQ_HI -/,
   ⟨0x12C, 0x40, 64, 0, 0, 0, 0, 0, fun _ => 0⟩ /- QUE_q_DELIV -/,
   ⟨0x130, 0x40, 64, 0, 0, 0, 0, 0, fun _ => 0⟩ /- QUE_q_DROP -/] ++
  [
   ⟨0x134, 0x40, 64, 0, 0, 0, 0, 0, fun _ => 0⟩ /- QUE_q_HELD -/,
   ⟨0x13C, 0x40, 64, 0, 0, 0x00000002, 0, 0, fun _ => 0⟩ /- QUE_q_STAT -/]

/-- The rows of block `b` (R458). -/
def regRows (b : Nat) : List RegRow :=
  match b with
  | 0 => regRowsSYS
  | 1 => regRowsPWR
  | 2 => regRowsBOOT
  | 4 => regRowsPCH
  | 5 => regRowsEXC
  | 6 => regRowsSCL
  | 7 => regRowsDCH
  | 8 => regRowsENC
  | 9 => regRowsAEV
  | 10 => regRowsSDM
  | 11 => regRowsAUX
  | 12 => regRowsXMON
  | 13 => regRowsCRZ
  | 14 => regRowsTIME
  | 15 => regRowsNET
  | 16 => regRowsQUE
  | _ => []

/-- The instance of `r` that lies at offset `off` of its block, if one does. -/
def RegRow.hit (r : RegRow) (off : Nat) : Option Nat :=
  if r.off ≤ off ∧ (off - r.off) % r.stride = 0 ∧ (off - r.off) / r.stride < r.count
  then some ((off - r.off) / r.stride) else none

/-- The row and the instance number at offset `off` of block `b`. -/
def findReg (b off : Nat) : Option (RegRow × Nat) :=
  (regRows b).findSome? fun r => (r.hit off).map fun i => (r, i)

end Sys2Proof.Machine
end

