-- ==== Sys2Proof/Machine/Store.lean ====
section
/-! DEFINITION. Sparse stores in one canonical form: a list of (address, value) pairs, addresses strictly rising, no
entry equal to what an unlisted address reads as. The register file, the SRAM and the FRAM are such stores. -/

namespace Sys2Proof.Machine

/-- What the store holds at `a`; `d` is what an unlisted `a` reads as. -/
def Store.get {α : Type} (d : α) : List (Nat × α) → Nat → α
  | [], _ => d
  | (k, v) :: t, a => if k = a then v else Store.get d t a

/-- The store with `v` at `a`; writing `d`, what an unlisted `a` reads as, removes the entry. -/
def Store.set {α : Type} [DecidableEq α] (d : α) : List (Nat × α) → Nat → α → List (Nat × α)
  | [], a, v => if v = d then [] else [(a, v)]
  | (k, w) :: t, a, v =>
    if k < a then (k, w) :: Store.set d t a v
    else if k = a then (if v = d then t else (a, v) :: t)
    else if v = d then (k, w) :: t
    else (a, v) :: (k, w) :: t

/-- The canonical form: keys strictly rising, none listed with its default. -/
def Store.wf {α : Type} [DecidableEq α] (dflt : Nat → α) : List (Nat × α) → Bool
  | [] => true
  | (k, v) :: t => decide (v ≠ dflt k) && t.all (fun e => decide (k < e.1)) && Store.wf dflt t

/-- What a byte of SRAM that nothing has written reads as: zero, as SRAM initialisation leaves it (R96). -/
def sramDefault : Byte := 0

/-- What a byte of an FRAM that nothing has written reads as: 0xFF, as an absent FRAM (R83). -/
def framDefault : Byte := 0xFF

/-- The canonical form of a memory whose unlisted bytes read as `d`. -/
def Memory.wf (d : Byte) (m : List Host.Cell) : Bool := Store.wf (fun _ => d) m

/-- One byte of a memory. -/
def Memory.read (d : Byte) (m : List Host.Cell) (a : Nat) : Byte := Store.get d m a

/-- A memory with one byte written. -/
def Memory.write (d : Byte) (m : List Host.Cell) (a : Nat) (b : Byte) : List Host.Cell := Store.set d m a b

/-- `n` bytes from `a` upwards. -/
def Memory.readBytes (d : Byte) (m : List Host.Cell) (a : Nat) : Nat → List Byte
  | 0 => []
  | n + 1 => Memory.read d m a :: Memory.readBytes d m (a + 1) n

/-- The bytes `bs` written from `a` upwards. -/
def Memory.writeBytes (d : Byte) (m : List Host.Cell) (a : Nat) : List Byte → List Host.Cell
  | [] => m
  | b :: bs => Memory.writeBytes d (Memory.write d m a b) (a + 1) bs

/-- The bytes outside `lo` to `hi` − 1 kept, those inside back at the default. -/
def Memory.clear (m : List Host.Cell) (lo hi : Nat) : List Host.Cell :=
  m.filter fun e => decide (e.1 < lo ∨ hi ≤ e.1)

/-- Little-endian bytes as a number (R81, R402). -/
def leNat : List Byte → Nat
  | [] => 0
  | b :: bs => b.toNat + 256 * leNat bs

/-- The `n` bytes of `v`, little-endian. -/
def leBytes : Nat → Nat → List Byte
  | 0, _ => []
  | n + 1, v => BitVec.ofNat 8 v :: leBytes n (v / 256)

/-- The `n` bytes of `v`, most significant first (R397). -/
def beBytes (n v : Nat) : List Byte := (leBytes n v).reverse

/-- The 32-bit little-endian word at `a` (R402). -/
def Memory.readWord (d : Byte) (m : List Host.Cell) (a : Nat) : Word :=
  BitVec.ofNat 32 (leNat (Memory.readBytes d m a 4))

/-- The word `w` stored little-endian at `a` (R402). -/
def Memory.writeWord (d : Byte) (m : List Host.Cell) (a : Nat) (w : Word) : List Host.Cell :=
  Memory.writeBytes d m a (leBytes 4 w.toNat)

end Sys2Proof.Machine
end

