-- ==== Sys2Proof/Machine/State.lean ====
section
/-! DEFINITION. The state of the HL8640 as plain data: every register, queue, latch, counter and pin the spec names,
one structure per block, and the state right after a power-on reset. Stored register fields (rw, rw-lk) live in
`State.cfg`, keyed by byte address, with their reset values in Machine/RegTable.lean. -/

namespace Sys2Proof.Machine

/-! ## Shared shapes -/

/-- One value per half (R17). -/
structure Two (α : Type) where
  h0 : α
  h1 : α
  deriving DecidableEq, Repr

/-- Which copy of a detector reports (BLZ_SRC HALF, Table 15.1). -/
inductive Copy | shared | h0 | h1
  deriving DecidableEq, Repr

/-- The reports of one page in one TCLK cycle (R344): the cycle, how many came in it, the one of them that goes first, and
whether FULL was set before; `extra` says that this one has written a record only because it was the Blaze (R358), `dropWas`
whether its queue showed DROP_EV before that record. -/
structure CycRep where
  cyc : Nat := 0
  n : Nat := 0
  addr : Word := 0
  src : Word := 0
  code : Word := 0
  was : Bool := false
  extra : Bool := false
  dropWas : Bool := false
  deriving DecidableEq, Repr

/-- The fault header of one page (R341): what its detectors see and what it has recorded. `raw` is each copy's
detecting condition, `live` the part of it that has been detected and not held off (R357); `ev` lists the sources live at
an instant of detection with the first cycle at which they no longer are (R347); `now` holds the reports of the latest
cycle that had one (R344). -/
structure FaultHdr where
  rawSh : Word := 0
  rawH0 : Word := 0
  rawH1 : Word := 0
  liveSh : Word := 0
  liveH0 : Word := 0
  liveH1 : Word := 0
  ev : List (Nat × Nat) := []
  now : CycRep := {}
  sticky : Word := 0
  ce : BitVec 16 := 0
  ue : BitVec 16 := 0
  ueLive : BitVec 16 := 0
  full : Bool := false
  bAddr : Word := 0
  bSrc : Word := 0
  bTime : BitVec 64 := 0
  bCode : Word := 0
  cnt : Nat := 0
  cntSat : Bool := false
  holdSeen : Bool := false
  holdSrc : Nat := 0
  busyUntil : Nat := 0
  deriving DecidableEq, Repr

/-! ## SYS: supplies, clocks, reset, ALIVE, unlock -/

/-- The rails that count as good (Table 3.1, R103). -/
structure Rails where
  vaon : Bool := true
  vio : Bool := true
  vpre : Bool := true
  vdda0 : Bool := true
  vdda1 : Bool := true
  vexc0 : Bool := true
  vexc1 : Bool := true
  deriving DecidableEq, Repr

/-- Clocks and time: TCLK cycles since the end of internal reset, TIME in 2^-32 ns, the RTC in 1/39,062,500 of a
tick. -/
structure Clk where
  cyc : Nat := 0
  time : Nat := 0
  rate : Int := 0
  rtc : Nat := 0
  deriving DecidableEq, Repr

/-- Reset, clock and supply status of SYS. `avsNext` is the first cycle of the next evaluation of the adaptive loop (R61),
`avsHeld` the SYS_AVS_CFG that stays in force while a written one waits for the end of a DVFS sequence (R62). -/
structure Sys where
  cause : BitVec 5 := 1
  causesNow : BitVec 5 := 1
  rstCnt : Nat := 0
  resetLow : Bool := false
  scan : Bool := false
  swrstAt : Option Nat := none
  xtalOk : Bool := true
  tpllLock : Bool := true
  spllLock : Bool := true
  rcOk : Two Bool := ⟨true, true⟩
  rtcXtalOk : Bool := false
  rtcLprc : Bool := true
  avsCode : Vector Nat 5 := ⟨#[50, 50, 50, 50, 50], rfl⟩
  avsHigh : Vector Nat 5 := ⟨#[0, 0, 0, 0, 0], rfl⟩
  avsNext : Nat := 4000
  avsHeld : Option Word := none
  deriving DecidableEq, Repr

/-- ALIVE: the toggling level, the pad, and the cycle of the next edge (R361, R448). -/
structure Alive where
  running : Bool := false
  level : Bool := false
  pad : Bool := false
  next : Nat := 0
  deriving DecidableEq, Repr

/-- The lock of the registers (R460 to R462): unlocked blocks and their expiry cycles, the first write waiting. -/
structure Unlock where
  blocks : BitVec 18 := 0
  expiry : Vector Nat 18 := Vector.replicate 18 0
  first : Option (Byte × Nat) := none
  seen : Bool := false
  deriving DecidableEq, Repr

/-! ## Pads -/

/-- A safe-state pin at its voter (R45): sinking, and the end of the hold time while one runs. -/
structure VPin where
  sink : Bool := false
  holdUntil : Option Nat := none
  deriving DecidableEq, Repr

/-- Pads: the safe-state pins, pad hold by domain (Table 2.7), and the levels of the driven pads. `sdclk`, `framCs`,
`framClk`, `framMosi` and `tdo` (none: high impedance) are the levels that pad hold keeps on SDCLK_n, the FRAM pads and
TDO. -/
structure Pads where
  inh : Vector VPin 2 := Vector.replicate 2 {}
  asc : Vector VPin 2 := Vector.replicate 2 {}
  dis : VPin := {}
  heldH : Two Bool := ⟨false, false⟩
  heldNet : Bool := false
  heldCore : Bool := false
  encHeld : BitVec 4 := 0
  encZHeld : BitVec 4 := 0
  aevHeld : BitVec 8 := 0
  encA : BitVec 4 := 0
  encB : BitVec 4 := 0
  encZ : BitVec 4 := 0
  aev : BitVec 8 := 0
  irq : BitVec 8 := 0
  sdiOff : Two Bool := ⟨false, false⟩
  sdclk : Two Bool := ⟨false, false⟩
  framCs : Bool := true
  framClk : Bool := false
  framMosi : Bool := false
  tdo : Option Bool := none
  deriving DecidableEq, Repr

/-! ## BOOT -/

/-- PHASE of BOOT_STAT (Table 4.8). -/
inductive Phase
  | reset | header | bist | apply | convCal | released | hold | dlCheck | framProg
  deriving DecidableEq, Repr

/-- Which boot runs: after a reset, a wake (R446) or a download (R99). -/
inductive BootKind | cold | wake | download
  deriving DecidableEq, Repr

/-- A store in progress (R90): target slot B, the new generation, the slot image. -/
structure Store90 where
  toB : Bool
  gen : Nat
  bytes : List Byte
  deriving DecidableEq, Repr

/-- BOOT: phase, results, the apply walk, and the calibration slots. `bistTaint` holds the SYS sources that have been live
during the present BIST phase (R93); `torn` marks the slots, A and B, that a reset has left half written (R90). -/
structure Boot where
  phase : Phase := .reset
  kind : BootKind := .cold
  released : Bool := false
  inHold : Bool := false
  holdCause : Nat := 0
  imgCause : Nat := 0
  imgDl : Bool := false
  dlProgram : Bool := false
  slotUsed : Nat := 0
  bistPhase : Nat := 0
  bistTaint : Word := 0
  bistEng : Vector Nat 6 := ⟨#[0, 0, 0, 0, 0, 0], rfl⟩
  bistMem : Vector Nat 8 := Vector.replicate 8 0
  repCols : Vector Nat 8 := Vector.replicate 8 0
  repRows : Vector Nat 8 := Vector.replicate 8 0
  hdrRead : Bool := false
  bodyRead : Bool := false
  sramInit : Bool := false
  imgId : Word := 0
  bodyLen : Nat := 0
  calUse : Nat := 0
  walk : Nat := 0
  errOfs : Nat := 0
  skipCnt : Nat := 0
  relUs : Nat := 0
  authInit : Vector Half 2 := ⟨#[.h0, .h0], rfl⟩
  storeErr : Bool := false
  storeDone : Bool := false
  store : Option Store90 := none
  inForce : Nat := 0
  torn : BitVec 2 := 0
  aValid : Bool := false
  bValid : Bool := false
  genA : Nat := 0
  genB : Nat := 0
  deriving DecidableEq, Repr

/-! ## Cross-monitor and authority -/

/-- A handover request waiting at the other half (R248): asking half, source page and bit, instant of detection. -/
structure HoReq where
  frm : Half
  page : Page
  bit : Nat
  at' : Nat
  deriving DecidableEq, Repr

/-- A hold-off window (Table 15.4): the cycle of its latest opening, its end before that, and its end. A detection in the cycle
that opens the window is not held off (R243, Table 10.2; DEDUCED, assumption 62). -/
structure HoldWin where
  at' : Nat := 0
  was : Nat := 0
  till : Nat := 0
  deriving DecidableEq, Repr

/-- One XMON copy for one drive: the differences of the latest compared tick (R237) with the largest |Δθ|, its verdicts on the
two windows (R239, R243), the counts (R240, R242), and whether the latest tick was skipped (R238). -/
structure XCopy where
  adiff : Int := 0
  sdiff : Int := 0
  peak : Nat := 0
  overA : Bool := false
  overS : Bool := false
  angCnt : Nat := 0
  spdCnt : Nat := 0
  drefCnt : Nat := 0
  skip : Bool := false
  deriving DecidableEq, Repr

/-- XMON state of one drive: claims (R245), handover (R249), comparison (R237). `wasHeld` is the holder before the latest
move of the latch, at cycle `movedAt`; `misCnt` counts the consecutive compared ticks on which the copies' verdicts
differ (R243). `orphan` is the half whose valid claim was lost with its domain, until the drive has a holder again or the
conflict arises (R251); `mate` the cycle at which the half that does not hold the drive last declared a source with a
handover reaction (Table 10.2). -/
structure XDrive where
  claim : Two Bool := ⟨false, false⟩
  conflict : Bool := false
  noHolderSince : Option Nat := none
  seen : Two Bool := ⟨false, false⟩
  busy : Bool := false
  req : List HoReq := []
  taking : Option Half := none
  takeCause : Nat := 0
  takeAt : Nat := 0
  hoCause : Nat := 0
  hoCnt : Nat := 0
  hoTime : BitVec 64 := 0
  capBusy : Bool := false
  capCnt : Nat := 0
  capSum : Int := 0
  wasHeld : Option Half := none
  movedAt : Nat := 0
  misCnt : Nat := 0
  orphan : Option Half := none
  mate : Option Nat := none
  blame : Nat := 0
  angAt : Option Nat := none
  copies : Two XCopy := ⟨{}, {}⟩
  holdHo : HoldWin := {}
  holdSsl : HoldWin := {}
  holdLoss : Nat := 0
  deriving DecidableEq, Repr

/-! ## Safe state and SDM -/

/-- Safe state of one drive (R305): latch and form of each half, release request, gap. -/
structure SafeDrive where
  ssl : Two Bool := ⟨true, true⟩
  form : Two Bool := ⟨false, false⟩
  rel : Bool := false
  gapUntil : Option Nat := none
  relAt : Nat := 0
  deriving DecidableEq, Repr

/-- One input in one half's copy: the last 190 bits (newest first), the densities and the comparator runs. -/
structure SdmIn where
  bits : List Bool := []
  cnt : Nat := 0
  fast : Int := 0
  outs : Nat := 0
  decD : Int := 0
  decI : Int := 0
  hiRun : Nat := 0
  loRun : Nat := 0
  sameRun : Nat := 0
  lastBit : Bool := false
  deriving DecidableEq, Repr

/-- What an SDM_TRIG leaves waiting at its inputs (R297): TIME of the event edge, cycle of its arrival, inputs, the slots it
came from, each with its own mask, the values latched so far, and the inputs that dropped it at their sample edge. -/
structure SdmPend where
  time : BitVec 64
  cyc : Nat
  mask : BitVec 8
  src : List (Fin 256 × BitVec 8)
  got : List (Fin 8 × Int)
  lost : BitVec 8 := 0
  deriving DecidableEq, Repr

/-- The torque monitor of one drive in one half's copy (R310). -/
structure TqCopy where
  id : Int := 0
  iq : Int := 0
  est : Rat := 0
  refF : Rat := 0
  devCnt : Nat := 0
  holdWhy : BitVec 5 := 0x1F
  sumRun : Nat := 0
  evals : Nat := 0
  deriving DecidableEq, Repr

/-- SDM: the two copies of every input and torque monitor, the latches and the results. `next` is the first cycle at which
each clock can sample again, `decNext` that of the next decimated output; `mis` counts the consecutive outputs on which the
two copies of an input differ (R301). -/
structure Sdm where
  next : Vector Nat 2 := ⟨#[0, 0], rfl⟩
  decNext : Nat := 0
  inp : Two (Vector SdmIn 8) := ⟨Vector.replicate 8 {}, Vector.replicate 8 {}⟩
  tq : Two (Vector TqCopy 2) := ⟨Vector.replicate 2 {}, Vector.replicate 2 {}⟩
  pendLatch : List SdmPend := []
  mis : Vector Nat 8 := Vector.replicate 8 0
  latch : Vector Int 8 := Vector.replicate 8 0
  latTime : Vector (BitVec 64) 8 := Vector.replicate 8 0
  peak : Vector Nat 8 := Vector.replicate 8 0
  tqTimer : Vector Nat 2 := Vector.replicate 2 0
  dis : Two Bool := ⟨false, false⟩
  deriving DecidableEq, Repr

/-! ## Queues and host interface -/

/-- A record waiting in staging: its bytes (frame and payload, padded), and the cycle of its offer. -/
structure Staged where
  seq : Nat
  src : Nat
  payload : List Byte
  cyc : Nat
  order : Nat
  deriving DecidableEq, Repr

/-- A record in a ring: length in bytes and the cycle at which it entered. -/
structure RingRec where
  len : Nat
  cyc : Nat
  deriving DecidableEq, Repr

/-- One queue of the Landing (R405 to R424). -/
structure Queue where
  base : Nat := 0
  size : Nat := 0x2000
  nseq : Nat := 0
  deliv : Nat := 0
  drop : Nat := 0
  credit : Nat := 1024
  rptr : Nat := 0
  wptr : Nat := 0
  ring : List RingRec := []
  staged : List Staged := []
  nextSeq : Nat := 0
  gap : Bool := false
  badEcc : Nat := 0
  halted : Bool := false
  dropEv : Bool := false
  intWas : Bool := false
  sameAt : Nat := 0
  same : List Nat := []
  deriving DecidableEq, Repr

/-- The queue block: queues, the order of offers, the stalled queue. -/
structure Que where
  q : Vector Queue 64
  offers : Nat := 0
  stalled : Bool := false
  stallQ : Nat := 0
  crcErrs : Nat := 0
  frameErrs : Nat := 0
  deriving DecidableEq, Repr

/-- Status codes of a response (R400). -/
inductive Status | ok | crcBad | accOff | notReady | denied | range
  deriving DecidableEq, Repr

/-- The response to the latest frame (R397); none while no response is driven. -/
structure Resp where
  status : Status
  errIdx : Nat
  data : List Word
  crc : Byte
  deriving DecidableEq, Repr

/-! ## Power -/

/-- Device states (Table 19.2). -/
inductive PState | run | doze | lookout | off | entering | waking
  deriving DecidableEq, Repr

/-- A domain's supply: on; off; or returning, with the cycle since which it returns. -/
inductive DomSt | on | off | rising (since : Nat)
  deriving DecidableEq, Repr

/-- The Lookout set copied at entry (Table 19.4). -/
structure LkSet where
  freq : Word := 0
  phase : Word := 0
  pchCfg : Word := 0
  phEst : Int := 0
  trimOfs : Word := 0
  trimGain : Word := 0
  aux : Vector Word 6 := Vector.replicate 6 0
  deriving DecidableEq, Repr

/-- PWR: state machine, domains, operating point, wake record, replay latch, Lookout. `stuck` marks the domains (H0, H1, NET,
banks) whose return has failed and whose votes have not been withdrawn since; `bankAt` and `calAt` are the cycles at which the
initialisation of a bank and the calibration of a half end, `dvfsAt` the one at which the sequence began; `keptVotes` are the votes
of NET, the halves, the Yarder and the recorders while CORE is off; `firstEnt` and `firstTick` the earliest source seen in ENTERING
and the RTC tick of the first one; `alarmAt` the RTC tick at which the alarm is due; `offHeld` that OFF lasts till a reset (R446);
`lkLead` the R_lead of the Lookout slot, `lkLost` that VDDA_0 was lost in the cycle under way. -/
structure Pwr where
  st : PState := .run
  before : PState := .run
  entTgt : PState := .lookout
  pend : Option (Fin 4) := none
  half : Two DomSt := ⟨.on, .on⟩
  net : DomSt := .on
  core : DomSt := .on
  bank : Vector DomSt 8 := Vector.replicate 8 .on
  bankInit : BitVec 8 := 0xFF
  bankAt : Vector Nat 8 := Vector.replicate 8 0
  calBusy : Two Bool := ⟨false, false⟩
  calAt : Two Nat := ⟨0, 0⟩
  padOpen : Two Bool := ⟨false, false⟩
  padOpenNet : Bool := false
  domFail : BitVec 3 := 0
  bankFail : BitVec 8 := 0
  stuck : BitVec 11 := 0
  oppNow : BitVec 2 := 0
  dvfs : Option (BitVec 2) := none
  dvfsFrom : BitVec 2 := 0
  dvfsAt : Nat := 0
  oppPend : Option (BitVec 2) := none
  wakeCnt : Nat := 0
  coreTmo : Bool := false
  memTmo : Bool := false
  tmoNow : Bool := false
  wakeRestarts : Nat := 0
  wakeFail : Bool := false
  offHeld : Bool := false
  keptVotes : Word := 0
  wakeFrom : Nat := 0
  first : Nat := 0
  src : BitVec 7 := 0
  srcEnt : BitVec 7 := 0
  firstEnt : Nat := 0
  firstTick : Nat := 0
  wakeRtc : BitVec 48 := 0
  alarm : BitVec 48 := 0
  alarmEn : Bool := false
  alarmAt : Nat := 0
  alarmEv : Bool := false
  netLost : Nat := 0
  netBuf : List (Fin 2 × List Byte) := []
  hostClks : Nat := 0
  hostMore : Nat := 0
  hostLatched : Bool := false
  replay : BitVec 64 := 0
  offTime : Nat := 0
  offRtc : Nat := 0
  wakeAt : Nat := 0
  lkSet : LkSet := {}
  lkRun : Bool := false
  lkCyc : Nat := 0
  lkNext : Nat := 0
  lkFcnt : Nat := 0
  lkAcc : Int := 0
  lkPrevE : Int := 0
  lkAval : BitVec 24 := 0
  lkAvalid : Bool := false
  lkLead : Rat := 0
  lkLost : Bool := false
  deriving DecidableEq, Repr

/-! ## Published values -/

/-- The published set of a position channel (R165): angle in 2^-24 turn, speed in 2^-16 e-turn/s, acceleration, m-turn
angle, turn count, tag byte (Table 0.4), loop angle, time stamp, and the cycle of the sample instant (R378). -/
structure Pub where
  ang : Nat := 0
  spd : Int := 0
  acc : Int := 0
  mang : Nat := 0
  turns : Nat := 0
  tag : BitVec 8 := 4
  raw : Nat := 0
  time : BitVec 64 := 0
  cyc : Nat := 0
  deriving DecidableEq, Repr

/-! ## Excitation -/

/-- STATE of EXC_n_STAT. -/
inductive ExcSt | off | rampUp | run | rampDown | tripped | lookout
  deriving DecidableEq, Repr

/-- How a carrier runs from cycle `t0` on, where it stands at phase `ph` (turns): FREQ_HZ, and the slew in progress, its Δ
with the carrier turns it still covers (R104, R107). -/
structure Carrier where
  ph : Rat := 0
  t0 : Nat := 0
  freq : Nat := 10000
  slew : Option (Rat × Rat) := none
  deriving DecidableEq, Repr

/-- One excitation driver: applied values (R106), the carrier and how it ran before cycle `car.t0`, ramp and SETTLE
progress, regulation and monitors. `lvlNow` is the level requested of the bridge (R102). -/
structure Exc where
  st : ExcSt := .off
  phase : Nat := 0
  lvl : Nat := 1000
  tgt : Nat := 0x800
  closed : Bool := false
  car : Carrier := {}
  old : Carrier := {}
  calmAt : Nat := 0
  waitX : Bool := false
  stopping : Bool := false
  rampCnt : Nat := 0
  rampLvl : Nat := 0
  lvlNow : Nat := 0
  settle : Bool := false
  settleRem : Nat := 0
  clip : Bool := false
  openRun : Nat := 0
  imbRun : Nat := 0
  satHi : Nat := 0
  satLo : Nat := 0
  iFund : BitVec 16 := 0
  iPeak : BitVec 16 := 0
  ampMeas : Nat := 0
  temp : BitVec 16 := 400
  deriving DecidableEq, Repr

/-! ## Position channels -/

/-- The sums of one tick (R133); `ok` says that its five samples were valid, `ecc` how many check bits of the stored word
are inverted (R364). -/
structure TickSum where
  si : Rat
  sq : Rat
  ci : Rat
  cq : Rat
  e : Rat
  ea : Rat
  ok : Bool
  ecc : Nat
  deriving DecidableEq, Repr

/-- CH_STATE (Table 6.6). -/
inductive ChSt | off | phaseAcq | track | lost
  deriving DecidableEq, Repr

/-- Front end of a channel (chapter 6): history of ticks (newest first), the latest corrected pair in converter
codes, sample verdicts and counters, the amplitude window. `cmwDue`: the third invalid sample has been seen. -/
structure Front where
  hist : List TickSum := []
  sin : Rat := 0
  cos : Rat := 0
  sinQ : Rat := 0
  cosQ : Rat := 0
  pairOk : Bool := false
  winTicks : Nat := 0
  age : Rat := 0
  rawSin : Int := 0
  rawCos : Int := 0
  cmw : BitVec 4 := 0
  clip : Bool := false
  invRun : Nat := 0
  invCnt : Nat := 0
  clipCnt : Nat := 0
  cmwDue : Bool := false
  mTick : Rat := 0
  mAvg : Rat := 0
  mHist : List (Rat × Bool) := []
  suspTill : Nat := 0
  susp : Bool := false
  deriving DecidableEq, Repr

/-- Carrier-phase adaptation (R136 to R140): the lag estimate `d` and the centre of its limit in turns, the sums of the
period under way, counted periods, and the run of small errors. -/
structure PhaseAd where
  d : Rat := 0
  centre : Rat := 0
  num : Rat := 0
  den : Rat := 0
  bad : Bool := false
  cnt : Nat := 0
  run : Nat := 0
  lock : Bool := false
  held : Bool := false
  deriving DecidableEq, Repr

/-- The loop of the tracking converter (R151 to R163): θ in turns, ω in e-turn/s, α in e-turn/s², the latest error in
turns; bandwidth step, ceiling and counters; lock, loss and coast counters. `fresh` until the first used tick after a start;
`coastFrom` is the cycle from which the present coast counts. -/
structure Loop where
  th : Rat := 0
  w : Rat := 0
  a : Rat := 0
  e : Rat := 0
  fresh : Bool := true
  used : Bool := false
  idx : Nat := 0
  ceil : Nat := 0
  upCnt : Nat := 0
  dnCnt : Nat := 0
  hold : Nat := 0
  lockCnt : Nat := 0
  locked : Bool := false
  lolRun : Nat := 0
  ovsRun : Nat := 0
  acqTicks : Nat := 0
  coastFrom : Option Nat := none
  coastAt : Nat := 0
  peak : Nat := 0
  dir : Bool := false
  deriving DecidableEq, Repr

/-- Turn counting (R170 to R172) and the prediction registers (R173, R174). `pendSect` is a PCH_SECT_SET write waiting
for the next tick; `turned` says that E_TURNS changed in the latest tick. -/
structure Turns where
  eTurns : Nat := 0
  sector : Nat := 0
  mTurns : Nat := 0
  sectRef : Bool := false
  pendSect : Option (Nat × Nat) := none
  turned : Bool := false
  predLo : Word := 0
  predT : BitVec 64 := 0
  clamped : Bool := false
  predAng : Word := 4
  predSpd : Word := 0
  deriving DecidableEq, Repr

/-- A position channel: state, calibration failure, live loss causes and PCH_LOSS_CAUSE, published set. -/
structure Pch where
  st : ChSt := .off
  calf : Bool := false
  live : BitVec 16 := 0
  cause : BitVec 16 := 0
  pub : Pub := {}
  fe : Front := {}
  ph : PhaseAd := {}
  lp : Loop := {}
  tn : Turns := {}
  deriving DecidableEq, Repr

/-! ## Scaler -/

/-- The coefficient set of a channel (Table 8.1) with HARM_MAX, APPLY and the alignment. -/
structure SclSet where
  sinOfs : Int := 0
  cosOfs : Int := 0
  imbal : Int := 0
  quad : Int := 0
  a : Vector Int 16 := Vector.replicate 16 0
  b : Vector Int 16 := Vector.replicate 16 0
  hmax : Nat := 16
  apply : Bool := true
  align : Nat := 0
  aligned : Bool := true
  deriving DecidableEq, Repr

/-- What the estimator keeps of one tick of a revolution (R188 to R191): table angle in m-turns, loop angle, corrected
pair, published speed, and the bandwidth step. -/
structure RevTick where
  tht : Rat
  th : Rat
  s : Rat
  c : Rat
  spd : Rat
  idx : Nat
  deriving DecidableEq, Repr

/-- Learning of a channel: the revolution under way (newest tick first; `revOk` while nothing has spoilt it, `inRev`
once a passage of θ_t through zero has begun it, `revEnd` when it has just ended), the accepted revolutions of the
block, alignment tries, convergence counts (h = 1 to 16, offsets, imbalance, quadrature). -/
structure Learn where
  rev : List RevTick := []
  done : List RevTick := []
  inRev : Bool := false
  revOk : Bool := false
  doneOk : Bool := false
  revEnd : Bool := false
  blk : List (List RevTick) := []
  blkCnt : Nat := 0
  tries : Nat := 0
  convCnt : Vector Nat 19 := Vector.replicate 19 0
  conv : BitVec 19 := 0
  resid : Nat := 0
  deriving DecidableEq, Repr

/-- The Scaler of one channel: the applied set, the pending one, origin of the set, learning, and the trims of the
converters with the trim run (R196 to R200). `hr` is the loop response H_h (real, imaginary) with its age in ticks;
`pendLrn` and `pendFw` mark the coefficient registers with a learning update and with a write pending (Table 8.5);
`pendSeen` tells that the pending set was already there at the channel's latest tick (R194). `trimAsk` is a request that awaits
its gate, `trimSweep` the sweep's turn that awaits it, since `trimFrom`; `trimOwn` tells that the latest run was a request's;
`trimLast` is the cycle of the last tick of the latest trim run (R199). -/
structure Scl where
  cur : SclSet := {}
  pend : Option SclSet := none
  pendNeutral : Bool := false
  pendSeen : Bool := false
  pendLrn : BitVec 18 := 0
  pendFw : BitVec 18 := 0
  src : Nat := 0
  pendSrc : Nat := 0
  hr : Vector (Rat × Rat) 16 := Vector.replicate 16 (1, 0)
  hAge : Nat := 0
  hIdx : Nat := 0
  lrn : Learn := {}
  trims : TrimVals := ⟨0, 0, 0, 0⟩
  trimAsk : Bool := false
  trimFrom : Nat := 0
  trimLate : Bool := false
  trimEnd : Option Nat := none
  trimLast : Nat := 0
  trimSweep : Bool := false
  trimOwn : Bool := false
  deriving DecidableEq, Repr

/-- The temperature sensor of a half and its trim sweep (R196): reading, baseline once valid, channels still to take. -/
structure SclHalf where
  temp : BitVec 16 := 400
  base : Option (BitVec 16) := none
  sweep : List (Fin 8) := []
  deriving DecidableEq, Repr

/-! ## Digital position channels -/

/-- The published set of a digital channel (R227, R228). -/
structure DchSet where
  ang : Nat := 0
  tag : BitVec 8 := 4
  spd : Int := 0
  pos : Nat := 0
  turns : Nat := 0
  up : Nat := 0
  dn : Nat := 0
  ill : Nat := 0
  trans : Nat := 0
  slip : Int := 0
  stamp : BitVec 64 := 0
  deriving DecidableEq, Repr

/-- SSI of a digital channel (R222 to R226): the frame under way (cycle and TIME of t0; `blind` where its data pad is held, R52),
end of the recovery time, the last two accepted frames (single-turn value, cycle and TIME of t0; newest first), errors. -/
structure DchSsi where
  ticks : Nat := 0
  due : Bool := false
  frame : Option (Nat × BitVec 64) := none
  blind : Bool := false
  recTill : Option Nat := none
  lost : Nat := 0
  raw : BitVec 32 := 0
  acc : List (Nat × Nat × BitVec 64) := []
  accAt : Nat := 0
  stat : Nat := 0
  errCnt : Nat := 0
  errRun : Nat := 0
  runs : Nat := 0
  lastErr : Nat := 0
  loss : Bool := false
  deriving DecidableEq, Repr

/-- The latest index edge (Table 9.8): the tick it fell in, d, the correction made, and UNCERT with the tick of its latest cause,
ILL_CNT and the captures before it. -/
structure DchEdge where
  tick : Nat
  d : Int
  c : Int
  unc : Bool
  uncTick : Option Nat
  ill : Nat
  capPos : Nat
  capExp : Nat
  deriving DecidableEq, Repr

/-- Index of a digital channel (R215 to R219): deviation, captures, counts since the last index edge, the latest edge; `slip` says
that this tick has found INDEX_SLIP, which is raised as the tick ends. -/
structure DchIdx where
  ref : Bool := false
  since : Int := 0
  missed : Bool := false
  dev : Int := 0
  capPos : Nat := 0
  capExp : Nat := 0
  edge : Option DchEdge := none
  slip : Bool := false
  deriving DecidableEq, Repr

/-- A digital channel: MODE in force, LINES and POLE_PAIRS as taken at the setting of EN, filtered inputs (A or U in bit 0, B or V
in bit 1, Z or W in bit 2), counters, and the counted transitions (cycle, running count) for the speed. -/
structure Dch where
  on : Bool := false
  mode : Nat := 0
  cpr : Nat := 4096
  pp : Nat := 1
  lvl : BitVec 3 := 0
  pos : Nat := 0
  turns : Nat := 0
  up : Nat := 0
  dn : Nat := 0
  ill : Nat := 0
  trans : Nat := 0
  slip : Int := 0
  unc : Bool := false
  uncTick : Option Nat := none
  illCyc : Option Nat := none
  run : Int := 0
  hist : List (Nat × Int) := []
  sector : Nat := 0
  invSince : Option Nat := none
  illWin : Nat := 0
  winFrom : Nat := 0
  idx : DchIdx := {}
  ssi : DchSsi := {}
  pub : DchSet := {}
  deriving DecidableEq, Repr

/-! ## Generators: predictions in use, encoder emulation -/

/-- The frame in which one half's copy follows the angle of a drive (R259, R277): the number of turns that the
unwrapping adds to the prediction. -/
structure Follow where
  have' : Bool := false
  ofs : Rat := 0
  deriving DecidableEq, Repr

/-- The predictions that encoder emulation, the angle-event scheduler and the torque monitor use: the sets of the newest
tick taken, the ticks published and not yet taken (cycle and sets), the cycle of the latest switch (R260, R277), the
number of ticks since release (R418) and the first cycle at which the next one can fall. -/
structure Gen where
  cur : Vector Pub 8 := Vector.replicate 8 {}
  wait : List (Nat × Vector Pub 8) := []
  at' : Nat := 0
  ticks : Nat := 0
  next : Nat := 0
  frm : Vector (Two Follow) 2 := Vector.replicate 2 ⟨{}, {}⟩
  deriving DecidableEq, Repr

/-- One output of encoder emulation (R258 to R272): the first preset due, the quantised count of each copy with its validity
and the whole turns `ofs` of its counting frame, the ledger, the configuration words in force, the drive for the end of whose
handover a preset waits (`late`), the levels driven. -/
structure Enc where
  armed : Bool := false
  late : Option Drive := none
  done : Bool := false
  q : Two Int := ⟨0, 0⟩
  ofs : Two Int := ⟨0, 0⟩
  valid : Two Bool := ⟨false, false⟩
  act : Half := .h0
  cfg : Word := 0x00000A48
  lines : Word := 0x00001000
  idx : Word := 0
  p : Nat := 0
  target : Int := 0
  emit : Int := 0
  jump : Int := 0
  up : Nat := 0
  dn : Nat := 0
  last : Nat := 0
  hi : Bool := false
  ovf : Bool := false
  a : Bool := false
  b : Bool := false
  z : Bool := false
  deriving DecidableEq, Repr

/-- Output ENC_n at reset: it serves drive n / 2 (R275). -/
def Enc.reset (n : Fin 4) : Enc := { cfg := 0x00000A48 + BitVec.ofNat 32 (n.val / 2) }

/-! ## Angle-event scheduler -/

/-- A slot (R278 to R288): committed words, pending words, the words (ANG, ACT, PAR) whose commit waits for the prediction
switch, level count. -/
structure AevSlot where
  ang : Word := 0
  act : Word := 0
  par : Word := 0x00010000
  pAct : Option Word := none
  pPar : Option Word := none
  commit : Option (Word × Option Word × Option Word) := none
  c : Int := 0
  hold : Bool := false
  fire : Nat := 0
  late : Nat := 0
  drop : Nat := 0
  deriving DecidableEq, Repr

/-- What an output of the scheduler is told (R284): a level, a change of level, a pulse that ends at a cycle. -/
inductive OutOp | level (lvl : Bool) | toggle | pulse (till : Nat)
  deriving DecidableEq, Repr

/-- The latest cycle in which an output was told something (Table 12.2): level, pulse, edges and latest edge before it, and
the operations in the order in which they apply, each with its place (0, or the slot's number + 1). -/
structure AevCyc where
  cyc : Nat := 0
  lvl : Bool := false
  pulse : Option Nat := none
  edges : Nat := 0
  edgeAt : Option Nat := none
  ops : List (Nat × OutOp) := []
  deriving DecidableEq, Repr

/-- An output of the scheduler (R284, R285, R290): level driven, end of a pulse, edges, cycle of the latest edge, a read-back
level that differs from the level driven, and the latest cycle with an operation. -/
structure AevOut where
  lvl : Bool := false
  pulse : Option Nat := none
  edges : Nat := 0
  edgeAt : Option Nat := none
  mis : Option Bool := none
  now : AevCyc := {}
  deriving DecidableEq, Repr

/-- An internal trigger on its way to its target (R284): slot, action, target, cycle and TIME of the event edge. -/
structure AevTrig where
  slot : Fin 256
  action : Nat
  target : Nat
  cyc : Nat
  time : BitVec 64
  deriving DecidableEq, Repr

/-- The scheduler. `live d` says that drive `d` is not frozen, `first d` that it has left the frozen state it has from
release on (R286). -/
structure Aev where
  slot : Vector AevSlot 256 := Vector.replicate 256 {}
  out : Vector AevOut 8 := Vector.replicate 8 {}
  live : Vector Bool 2 := ⟨#[false, false], rfl⟩
  first : Vector Bool 2 := ⟨#[false, false], rfl⟩
  trig : List AevTrig := []
  lateTotal : Nat := 0
  deriving DecidableEq, Repr

/-! ## Auxiliary measurement -/

/-- The registers of a slot, as a visit takes them (R318, Table 14.5). -/
structure AuxSet where
  pins : Word
  cfg : Word
  rref : Word
  lead : Word
  r0 : Word
  limHi : Word
  limLo : Word
  short : Word
  deriving DecidableEq, Repr

/-- A visit under way (R321): slot, settings, gain indexes in use, whether it has lead conversions; conversions done
(newest first), whether the converter settles, cycle at which the settle or the conversion ends; the cycle at which the first
signal conversion starts, and the TIME count of the midpoint of the signal conversions once it has passed (R379); `ended` once the
last conversion is done, with the cycle. -/
structure AuxVisit where
  slot : Fin 16
  set : AuxSet
  gS : Nat
  gL : Nat
  lead : Bool
  convs : List Conv
  settling : Bool
  till : Nat
  t0 : Nat
  stamp : Option Nat
  ended : Option Nat
  deriving DecidableEq, Repr

/-- A slot (R323 to R332): latest result with its primary value P, gain indexes with their runs, lead resistance, causes judged by visit, counts.
`fresh` takes GAIN at the next visit; `started` is clear until the first visit after the slot starts to run. -/
structure AuxSlot where
  value : Int := 0
  tag : BitVec 8 := 0
  temp : Int := 0
  p : Int := 0
  leadR : Nat := 0
  time : BitVec 64 := 0
  resCnt : Nat := 0
  cause : BitVec 8 := 0
  started : Bool := false
  visits : Nat := 0
  fresh : Bool := true
  gS : Nat := 0
  upS : Nat := 0
  minS : Nat := 0
  gL : Nat := 0
  upL : Nat := 0
  minL : Nat := 0
  rLead : Rat := 0
  had : Bool := false
  limRun : Nat := 0
  deriving DecidableEq, Repr

/-- A converter: slot of the present or last visit, least number to visit next, and the visit. -/
structure AuxConv where
  cur : Nat := 0
  next : Nat := 0
  visit : Option AuxVisit := none
  deriving DecidableEq, Repr

/-- A ratiometric output: the code driven now, and whether FAIL_CODE is in force. -/
structure Rout where
  code : Nat := 0
  invalid : Bool := false
  deriving DecidableEq, Repr

/-- AUX: slots, converters, converters that failed calibration, pins outside the window at the latest check, ROUT_n. -/
structure Aux where
  slot : Vector AuxSlot 16 := Vector.replicate 16 {}
  conv : Vector AuxConv 2 := Vector.replicate 2 {}
  calf : BitVec 2 := 0
  cmwOut : BitVec 16 := 0
  rout : Vector Rout 2 := Vector.replicate 2 {}
  deriving DecidableEq, Repr

/-! ## Cruise -/

/-- Cruise (R366 to R374): the item running in each lane (H0, H1, shared); `ran` is the active time of its run up to cycle `actAt`,
in eighths of a cycle of the item's full clock. `seg` is the segment that item 10 marches at that cycle, `part` what it has spent on it,
`banks` the banks that it may test. `again` has a new round follow the runs in progress, `due` the whole round. Items of the round
still to run, results, items completed in the present round and those passed over for their half, rounds each item has missed,
`roles` the copies that serve (QSPI target, supply monitors), the latest run to end in each lane with its cycle, counts. -/
structure Crz where
  rounds : Nat := 0
  inRound : Bool := false
  again : Bool := false
  due : Bool := false
  roundAt : Nat := 0
  act : Vector (Option (Fin 15)) 3 := ⟨#[none, none, none], rfl⟩
  actAt : Vector Nat 3 := ⟨#[0, 0, 0], rfl⟩
  ran : Vector Nat 3 := ⟨#[0, 0, 0], rfl⟩
  seg : Nat := 0
  part : Nat := 0
  banks : BitVec 8 := 0
  lastEnd : Vector (Option (Fin 15 × Nat)) 3 := ⟨#[none, none, none], rfl⟩
  todo : List (Fin 15) := []
  res : Vector Nat 15 := Vector.replicate 15 0
  done : BitVec 15 := 0
  passed : BitVec 15 := 0
  missed : Vector Nat 15 := Vector.replicate 15 0
  roles : BitVec 2 := 0
  yieldCnt : Nat := 0
  yieldMax : Nat := 0
  failCnt : Nat := 0
  abandon : Nat := 0
  failInfo : Word := 0
  roundTime : BitVec 64 := 0
  deriving DecidableEq, Repr

/-! ## Time base, network, flight recorder, TAP -/

/-- STATE of TIME_STAT (Table 17.9). -/
inductive TimeSt | free | acq | locked | holdover
  deriving DecidableEq, Repr

/-- The servo of TIME (R380, R381): `freq` and the rate it gives (2^-40), good pairs, last offset and step, the
grandmaster used, the cycle SYNC_TMO counts from, the cycle at which a slew ends, and the mr bit of stream frames. -/
structure Tim where
  st : TimeSt := .free
  freq : Int := 0
  rate : Int := 0
  good : Nat := 0
  offset : Int := 0
  step : Int := 0
  stepCnt : Nat := 0
  gm : BitVec 64 := 0
  gmUsed : Bool := false
  lastPair : Nat := 0
  slewTill : Option Nat := none
  mr : Bool := false
  deriving DecidableEq, Repr

/-- What a frame waiting at a port is: a gPTP message, of which `relayed` is a relayed Sync (R385), a stream frame
(Table 17.3), or a forwarded frame. The Follow_Up of the device's own Sync carries the egress time stamp of it, a Pdelay_Resp the
receipt of its Pdelay_Req, and its Follow_Up its own egress time stamp (R379). -/
inductive NetMsg
  | sync
  | relayed
  | followUp (corr : Int)
  | ownFollowUp (origin : Int)
  | announce (clockClass clockAccuracy priority1 priority2 : Nat)
  | pdelayReq
  | pdelayResp (receipt : Int)
  | pdelayRespFollowUp (egress : Int)
  | stream (k : Fin 8)
  | forward
  deriving DecidableEq, Repr

/-- A frame to send: its message, its class 0 to 3 (R388), its bytes without FCS (none for a gPTP message, whose layout is
that of IEEE 802.1AS), its length with FCS, and the damage of its check bits in the frame buffer (R364). Of a stream frame, the
count of its stream's frames at the build, and whether the other port has a copy of it that it can send or has sent (R390). -/
structure TxFrame where
  msg : NetMsg
  cls : Fin 4
  bytes : List Byte
  len : Nat
  ecc : Nat
  fid : Nat := 0
  also : Bool := false
  deriving DecidableEq, Repr

/-- A relayed Sync on its way through a master port (R385): the TCLK cycle of its receipt, the incoming correctionField in
2^-16 ns, the upstream meanLinkDelay in ns, and the cycle of its egress once it has left; the residence between the two is a duration
and counts in cycles (R378). -/
structure Relay where
  rx : Rat
  corr : Int
  delay : Nat
  egress : Option Rat
  deriving DecidableEq, Repr

/-- A network port: link, meanLinkDelay with the state of the Pdelay exchange, the instants of the last Sync and
Pdelay_Req, counters, the four traffic classes, the frame in transmission with its end, credits of classes A and B in
bits at cycle `credAt`; the priority vector of the latest Announce received, with the cycle at which it times out. -/
structure Port where
  link : Bool := false
  pdly : Nat := 0
  pdlyOk : Bool := false
  pdlyWait : Bool := false
  syncAt : Option Nat := none
  pdlyAt : Option Nat := none
  annAt : Option Nat := none
  annRx : Option (Nat × Nat) := none
  txf : Nat := 0
  rxf : Nat := 0
  rxdrop : Nat := 0
  q : Vector (List TxFrame) 4 := Vector.replicate 4 []
  cur : Option (TxFrame × Nat) := none
  credA : Rat := 0
  credB : Rat := 0
  credAt : Nat := 0
  relay : Option Relay := none
  deriving DecidableEq, Repr

/-- A stream: frames built, next sequence_num, frames lost. -/
structure NStream where
  frames : Nat := 0
  seq : Nat := 0
  lost : Nat := 0
  deriving DecidableEq, Repr

/-- NET: ports, streams, and the number of gPTP frames received. -/
structure Net where
  port : Vector Port 2 := Vector.replicate 2 {}
  str : Vector NStream 8 := Vector.replicate 8 {}
  gptp : Nat := 0
  deriving DecidableEq, Repr

/-- STATE of FREC_n_STAT. -/
inductive FrecSt | off | armed | post | frozen
  deriving DecidableEq, Repr

/-- A flight recorder (R392, R393): the registers in force since ARM, the tick count to the next entry, the entry due,
entries written since ARM, place of the next and of the last written, entries after the trigger, the trigger waiting
(causes, time, and the cycle in which it came) and the one taken. -/
structure Frec where
  st : FrecSt := .off
  cfg : Word := 0
  base : Nat := 0
  len : Nat := 1
  src : Word := 0
  ticks : Nat := 0
  due : Option (List Byte) := none
  next : Nat := 0
  total : Nat := 0
  last : Option Nat := none
  trigIdx : Nat := 0
  post : Nat := 0
  pend : BitVec 3 := 0
  pendTime : BitVec 64 := 0
  pendCyc : Nat := 0
  cause : BitVec 3 := 0
  time : BitVec 64 := 0
  drop : Nat := 0
  deriving DecidableEq, Repr

/-- States of the TAP controller (IEEE 1149.1). -/
inductive TapSt
  | reset | idle | selDr | capDr | shDr | ex1Dr | pauDr | ex2Dr | updDr
  | selIr | capIr | shIr | ex1Ir | pauIr | ex2Ir | updIr
  deriving DecidableEq, Repr

/-- The TAP (R55): controller state, instruction register and its shift stage, data shift stage (next bit out first), and
TDO while shifting; the boundary cells last updated. -/
structure Tap where
  st : TapSt := .reset
  ir : Nat := 0
  irSh : List Bool := []
  idSel : Bool := true
  drSh : List Bool := []
  tdo : Option Bool := none
  bsr : List Bool := []
  deriving DecidableEq, Repr


/-! ## The machine -/

/-- The state of the device. `pending` is the queue of commands waiting, first in, first out. -/
structure State where
  pending : List Instr := []
  qb : Bool := false
  free : Nat := 0
  cfg : List (Nat × Word) := []
  capt : List (Nat × Word) := []
  badPar : List Nat := []
  badEcc : List (Nat × Nat) := []
  sram : List Host.Cell := []
  fram : List Host.Cell := []
  clk : Clk := {}
  rails : Rails := {}
  sys : Sys := {}
  alive : Alive := {}
  unlock : Unlock := {}
  pads : Pads := {}
  boot : Boot := {}
  flt : Vector FaultHdr 25 := Vector.replicate 25 {}
  xd : Vector XDrive 2 := Vector.replicate 2 {}
  safe : Vector SafeDrive 2 := Vector.replicate 2 {}
  sdm : Sdm := {}
  que : Que := { q := Vector.ofFn fun i => { base := i.val * 0x2000 } }
  resp : Option Resp := none
  wst : Status := .ok
  pwr : Pwr := {}
  exc : Vector Exc 4 := Vector.replicate 4 {}
  vexcMv : Vector Nat 2 := ⟨#[12000, 12000], rfl⟩
  pch : Vector Pch 8 := Vector.replicate 8 {}
  scl : Vector Scl 8 := Vector.replicate 8 {}
  sclH : Two SclHalf := ⟨{}, {}⟩
  dch : Vector Dch 4 := Vector.replicate 4 {}
  gen : Gen := {}
  enc : Vector Enc 4 := Vector.ofFn Enc.reset
  aev : Aev := {}
  aux : Aux := {}
  crz : Crz := {}
  tim : Tim := {}
  net : Net := {}
  frec : Vector Frec 8 := Vector.replicate 8 {}
  tap : Tap := {}
  deriving DecidableEq, Repr

/-- Reasons a step could stop with a fault. No command of the table ends so: every row has its effect in the spec. -/
inductive Fault
  /-- Raised by no meaning; safe. -/
  | none
  deriving DecidableEq, Repr

/-- Reasons a step could be refused. -/
inductive Refusal
  /-- Raised by an arm of exec whose meaning is not written; safe. -/
  | notModelled (mnemonic : String)
  deriving DecidableEq, Repr

/-- The machine right after a power-on reset: internal reset in progress, supplies good, every register at the
value the spec states for reset (values the spec does not state: assumption 1). -/
def State.reset : State := {}

end Sys2Proof.Machine
end

