-- ==== Sys2Proof/Machine/Regs.lean ====
section
/-! DEFINITION. Pages and addresses (R458, R342), the reset values of the fault header (Tables 15.3 and 15.7), and
the register file: reading and writing the stored fields of a register. -/

namespace Sys2Proof
namespace Machine

/-! ## Halves and vectors -/

/-- The value of half `h`. -/
def Two.get {α : Type} (t : Two α) : Half → α
  | .h0 => t.h0
  | .h1 => t.h1

/-- The pair with the value of half `h` replaced. -/
def Two.set {α : Type} (t : Two α) (h : Half) (a : α) : Two α :=
  match h with
  | .h0 => { t with h0 := a }
  | .h1 => { t with h1 := a }

/-- The pair with the value of half `h` changed by `f`. -/
def Two.upd {α : Type} (t : Two α) (h : Half) (f : α → α) : Two α := t.set h (f (t.get h))

end Machine

/-- The other half. -/
def Half.other : Half → Half
  | .h0 => .h1
  | .h1 => .h0

/-- The number of a half. -/
def Half.num : Half → Nat
  | .h0 => 0
  | .h1 => 1

/-- Half 0 or 1 by number; any other number names H1. -/
def Half.byNum (n : Nat) : Half := if n = 0 then .h0 else .h1

/-- The copy of a duplicated block in a half. -/
def Half.copy : Half → Machine.Copy
  | .h0 => .h0
  | .h1 => .h1

namespace Machine

/-- The entry of `v` at `i` replaced. -/
def vset {α : Type} {n : Nat} (v : Vector α n) (i : Fin n) (a : α) : Vector α n := v.set i.val a i.isLt

/-- The entry of `v` at `i` changed by `f`. -/
def vupd {α : Type} {n : Nat} (v : Vector α n) (i : Fin n) (f : α → α) : Vector α n := vset v i (f v[i])

/-- Bit `i` of `b` set to `v`. -/
def bput {n : Nat} (b : BitVec n) (i : Nat) (v : Bool) : BitVec n :=
  if v then b ||| BitVec.ofNat n (2 ^ i) else b &&& ~~~ BitVec.ofNat n (2 ^ i)

end Machine

/-! ## Pages -/

/-- The block number of a page (R342). -/
def Page.blk : Page → Nat
  | .sys => 0 | .pwr => 1 | .boot => 2 | .fab => 3 | .pch _ => 4 | .exc => 5 | .scl => 6 | .dch => 7 | .enc => 8
  | .aev => 9 | .sdm => 10 | .aux => 11 | .xmon => 12 | .crz => 13 | .time => 14 | .net => 15 | .que => 16
  | .mem => 17

/-- The instance number of a page (R342). -/
def Page.inst : Page → Nat
  | .pch n => n.val
  | _ => 0

/-- The base address of a page (R458). -/
def Page.base (p : Page) : Nat :=
  match p with
  | .pch n => 0x40000 + n.val * 0x1000
  | q => q.blk * 0x10000

/-- The place of a page's header in `State.flt`. -/
def Page.idx : Page → Fin 25
  | .sys => 0 | .pwr => 1 | .boot => 2 | .fab => 3
  | .pch n => ⟨4 + n.val, by omega⟩
  | .exc => 12 | .scl => 13 | .dch => 14 | .enc => 15 | .aev => 16 | .sdm => 17 | .aux => 18 | .xmon => 19
  | .crz => 20 | .time => 21 | .net => 22 | .que => 23 | .mem => 24

/-- Every page. -/
def Page.all : List Page :=
  [.sys, .pwr, .boot, .fab] ++ (List.finRange 8).map Page.pch ++
  [.exc, .scl, .dch, .enc, .aev, .sdm, .aux, .xmon, .crz, .time, .net, .que, .mem]

/-- The page of a register address, if the address lies in a block (R458). -/
def pageOf (a : Nat) : Option Page :=
  match a / 0x10000 with
  | 0 => some .sys | 1 => some .pwr | 2 => some .boot | 3 => some .fab
  | 4 => if h : (a % 0x10000) / 0x1000 < 8 then some (.pch ⟨(a % 0x10000) / 0x1000, h⟩) else none
  | 5 => some .exc | 6 => some .scl | 7 => some .dch | 8 => some .enc | 9 => some .aev | 10 => some .sdm
  | 11 => some .aux | 12 => some .xmon | 13 => some .crz | 14 => some .time | 15 => some .net | 16 => some .que
  | 17 => some .mem
  | _ => none

/-- The offset of an address in its page. -/
def pageOff (p : Page) (a : Nat) : Nat := a - p.base

/-! ## Reset values of the fault header -/

/-- Number of checkers (Table 15.7). -/
def Page.nChk : Page → Nat
  | .pch _ | .scl | .aev | .que | .net => 2
  | .mem => 9
  | _ => 1

/-- Reset value of CHK_REACT (Table 15.7). -/
def Page.chkReactReset : Page → Nat
  | .sys | .exc | .dch | .enc | .xmon | .sdm | .pch _ | .scl | .aev => 2
  | _ => 0

/-- The pages that belong to one half only (R363: UE_n of a PCH_n page has the scope of that half). -/
def Page.shared : Page → Bool
  | .pch _ => false
  | _ => true

namespace Machine

/-- Default reaction of source `b` (Table 15.3). -/
def reactDefault (p : Page) (b : Nat) : Nat :=
  match p with
  | .sys =>
    if b ≤ 7 then 3
    else if b ≤ 11 then 1
    else if (b - 12) % 4 = 3 then 0
    else match (b - 12) / 4 with
      | 0 => 1 | 1 => 1 | 2 => 3 | 3 => 3 | _ => 0
  | .pch _ => if b = 5 then 1 else 0
  | .xmon =>
    if b = 16 ∨ b = 17 then 2
    else if b < 16 then
      match b % 8 with
      | 0 => 2 | 1 => 2 | 2 => 1 | 5 => 2 | 6 => 2 | _ => 0
    else 0
  | .enc => if b < 8 ∧ b % 2 = 1 then 2 else 0
  | .sdm => if b < 26 then 2 else if b = 28 ∨ b = 29 ∨ b = 30 then 2 else 0
  | .crz => match b with
    | 0 => 1 | 1 => 1 | 2 => 2 | _ => 0
  | _ => 0

/-- Floor of source `b`: the reaction field never holds less (Table 15.3, R350). -/
def reactFloor (p : Page) (b : Nat) : Nat :=
  match p with
  | .sys => if b = 0 ∨ b = 1 ∨ b = 4 ∨ b = 5 ∨ b = 6 ∨ b = 7 then 3 else 0
  | .xmon => if b = 6 ∨ b = 14 then 2 else 0
  | _ => 0

/-- Whether source `b` always has shared scope (Table 15.3), so that its field never holds handover (R350). -/
def srcShared (p : Page) (b : Nat) : Bool :=
  match p with
  | .sys => !(decide (8 ≤ b ∧ b ≤ 19))
  | .pch _ | .exc | .scl | .dch => false
  | .xmon => !(decide (b = 2 ∨ b = 10 ∨ b = 3 ∨ b = 11))
  | .aux => decide (16 ≤ b)
  | .crz => decide (2 ≤ b)
  | _ => true

/-- The word that holds the reactions of sources `lo` to `lo` + 15. -/
def reactWord (f : Nat → Nat) (lo : Nat) : Word :=
  BitVec.ofNat 32 ((List.range 16).foldl (fun acc i => acc + f (lo + i) * 4 ^ i) 0)

/-- Reset value of the stored header register at offset `off` of page `p` (Table 15.1). -/
def headerReset (p : Page) (off : Nat) : Word :=
  if off = 0x14 then reactWord (reactDefault p) 0
  else if off = 0x18 then reactWord (reactDefault p) 16
  else if off = 0x3C then Word.put 24 2 p.chkReactReset
  else 0

/-! ## The register file -/

/-- The key of the copy of a duplicated register in half `h`. -/
def copyKey (h : Half) (a : Nat) : Nat :=
  match h with
  | .h0 => a
  | .h1 => a + 0x100000000

/-- Reset value of the stored fields of the register at byte address `a`; on the HL8640-QB Q_48 to Q_55 are
firmware queues (Table 18.14). -/
def regReset (qb : Bool) (a : Nat) : Word :=
  match pageOf (a % 0x100000000) with
  | none => 0
  | some p =>
    let off := pageOff p (a % 0x100000000)
    if off < 0x40 then headerReset p off
    else match findReg p.blk (off + p.inst * 0x1000) with
      | none => 0
      | some (r, i) =>
        if qb ∧ p.blk = 16 ∧ r.off = 0x108 ∧ 48 ≤ i ∧ i ≤ 55 then 0x000101F5 else r.reset i

/-- The stored fields of the register at byte address `a`. -/
def State.reg (s : State) (a : Nat) : Word := Store.get (regReset s.qb a) s.cfg a

/-- The stored fields of a duplicated register in the copy of half `h`. -/
def State.regH (s : State) (h : Half) (a : Nat) : Word := s.reg (copyKey h a)

/-- The register file with `v` as the stored fields at `a`, its check bits left alone. -/
def State.putReg (s : State) (a : Nat) (v : Word) : State :=
  { s with cfg := Store.set (regReset s.qb a) s.cfg a v }

/-- The register at `a` belongs to page `p` (a copy counts with its register). -/
def inPage (p : Page) (a : Nat) : Bool := decide (pageOf (a % 0x100000000) = some p)

/-- The parity bits of the register at `a` of page `p` after a write (R363, R364): wrong while INV_0 is not 0; with the last
wrong word of the page written again, UE_0 stops being live. CHK_INV has none. -/
def State.markParity (s : State) (p : Page) (a : Nat) : State :=
  if pageOff p (a % 0x100000000) = 0x34 then s
  else if (s.reg (p.base + 0x34)).fld 0 2 ≠ 0 then { s with badPar := (a :: s.badPar).dedup }
  else if s.badPar.contains a then
    let rest := s.badPar.filter fun b => b != a
    if rest.any (inPage p) then { s with badPar := rest }
    else { s with badPar := rest, flt := vupd s.flt p.idx fun f => { f with ueLive := bput f.ueLive 0 false } }
  else s

/-- A write of `v` to the stored fields of the register at `a`. -/
def State.setReg (s : State) (a : Nat) (v : Word) : State :=
  match pageOf (a % 0x100000000) with
  | none => s.putReg a v
  | some p => (s.putReg a v).markParity p a

/-- The captured value at register address `a` (R8). -/
def State.captured (s : State) (a : Nat) : Word := Store.get 0 s.capt a

/-- `v` captured for register address `a`. -/
def State.capture (s : State) (a : Nat) (v : Word) : State := { s with capt := Store.set 0 s.capt a v }

end Machine
end Sys2Proof
end

