-- ==== Sys2Proof/Machine/Fields.lean ====
section
/-! DEFINITION. The stored fields (rw and rw-lk) of every register, each under the name the field tables of
spec/ give it: register name without its instance letter, then field name. Instances are counted by `n`; a field
of a duplicated block (R17) is read from the copy of half `h`. -/

namespace Sys2Proof.Machine

/-- RTC_GAIN of SYS_CLK_CFG: RTC amplifier gain, 0 lowest to 3 highest; takes effect at once. -/
def State.SYS_CLK_CFG_RTC_GAIN (s : State) : Nat := (s.reg (0x4C)).fld 4 2

/-- XTAL_GAIN of SYS_CLK_CFG: 25 MHz amplifier gain, 0 lowest to 3 highest; takes effect at once. -/
def State.SYS_CLK_CFG_XTAL_GAIN (s : State) : Nat := (s.reg (0x4C)).fld 0 2

/-- CEIL_STEP of SYS_AVS_CFG: Steps allowed above nominal; values above 6 act as 6. -/
def State.SYS_AVS_CFG_CEIL_STEP (s : State) : Nat := (s.reg (0x58)).fld 16 4

/-- FLOOR_STEP of SYS_AVS_CFG: Steps allowed below nominal; values above 12 act as 12. -/
def State.SYS_AVS_CFG_FLOOR_STEP (s : State) : Nat := (s.reg (0x58)).fld 8 4

/-- AVS_EN of SYS_AVS_CFG: Adaptive loop enabled (R61, R63). -/
def State.SYS_AVS_CFG_AVS_EN (s : State) : Nat := (s.reg (0x58)).fld 0 1

/-- RAMP_PER of EXC_n_CTRL: Ramp length in carrier periods, 1–15; 0 acts as 1. -/
def State.EXC_CTRL_RAMP_PER (s : State) (n : Nat) : Nat := (s.reg (0x50100 + n * 0x40)).fld 16 4

/-- SETTLE_PER of EXC_n_CTRL: SETTLE length in carrier periods, 2–16; values below 2 act as 2, values above 16 act as 16. -/
def State.EXC_CTRL_SETTLE_PER (s : State) (n : Nat) : Nat := (s.reg (0x50100 + n * 0x40)).fld 8 5

/-- REG_SRC of EXC_n_CTRL: Channel whose amplitude regulates the bridge, 0–7 for PCH_0–PCH_7. -/
def State.EXC_CTRL_REG_SRC (s : State) (n : Nat) : Nat := (s.reg (0x50100 + n * 0x40)).fld 4 3

/-- MODE of EXC_n_CTRL: 0 = open loop, 1 = closed loop; change pending under R106. -/
def State.EXC_CTRL_MODE (s : State) (n : Nat) : Nat := (s.reg (0x50100 + n * 0x40)).fld 1 1

/-- EN of EXC_n_CTRL: Bridge enabled (R110, R111). -/
def State.EXC_CTRL_EN (s : State) (n : Nat) : Nat := (s.reg (0x50100 + n * 0x40)).fld 0 1

/-- FREQ_HZ of EXC_n_FREQ: Carrier in Hz, 2,000–40,000 (R104, R106). -/
def State.EXC_FREQ_FREQ_HZ (s : State) (n : Nat) : Nat := (s.reg (0x50104 + n * 0x40)).fld 0 16

/-- PHASE_OFS of EXC_n_PHASE: Phase offset in 2^-16 turn (R105, R107). -/
def State.EXC_PHASE_PHASE_OFS (s : State) (n : Nat) : Nat := (s.reg (0x50108 + n * 0x40)).fld 0 16

/-- AMP_TGT of EXC_n_AMP: Closed-loop target, 4,096 = full scale (R115); 0 acts as 1. -/
def State.EXC_AMP_AMP_TGT (s : State) (n : Nat) : Nat := (s.reg (0x5010C + n * 0x40)).fld 16 12

/-- DRV_LVL of EXC_n_AMP: Level in 10 mV peak-to-peak differential (R114, R115). -/
def State.EXC_AMP_DRV_LVL (s : State) (n : Nat) : Nat := (s.reg (0x5010C + n * 0x40)).fld 0 12

/-- LVL_MIN of EXC_n_LIMIT: Lowest closed-loop level, 10 mV units. -/
def State.EXC_LIMIT_LVL_MIN (s : State) (n : Nat) : Nat := (s.reg (0x50110 + n * 0x40)).fld 16 12

/-- LVL_MAX of EXC_n_LIMIT: Highest closed-loop level, 10 mV units; above 2,400 acts as 2,400. -/
def State.EXC_LIMIT_LVL_MAX (s : State) (n : Nat) : Nat := (s.reg (0x50110 + n * 0x40)).fld 0 12

/-- OC_CNT of EXC_n_IMON_CFG: Consecutive limited switching periods before OC_n, 1–15; 0 acts as 1. -/
def State.EXC_IMON_CFG_OC_CNT (s : State) (n : Nat) : Nat := (s.reg (0x50114 + n * 0x40)).fld 24 4

/-- IMB_THR of EXC_n_IMON_CFG: Imbalance threshold in mA. -/
def State.EXC_IMON_CFG_IMB_THR (s : State) (n : Nat) : Nat := (s.reg (0x50114 + n * 0x40)).fld 16 6

/-- OPEN_THR of EXC_n_IMON_CFG: Open threshold in mA. -/
def State.EXC_IMON_CFG_OPEN_THR (s : State) (n : Nat) : Nat := (s.reg (0x50114 + n * 0x40)).fld 8 6

/-- OC_THR of EXC_n_IMON_CFG: Overcurrent threshold in 10 mA units, 15–60; values outside act as the nearer limit. -/
def State.EXC_IMON_CFG_OC_THR (s : State) (n : Nat) : Nat := (s.reg (0x50114 + n * 0x40)).fld 0 6

/-- EN of PCH_CTRL: Channel enabled (R125, R147). -/
def State.PCH_CTRL_EN (s : State) (n : Nat) : Nat := (s.reg (0x40040 + n * 0x1000)).fld 0 1

/-- CMW_MARGIN of PCH_CFG: Window margin in 0.25 V, 2–12 (R127). -/
def State.PCH_CFG_CMW_MARGIN (s : State) (n : Nat) : Nat := (s.reg (0x40044 + n * 0x1000)).fld 12 4

/-- BD_CUR of PCH_CFG: Break-detect current: 0 = off, 1 = 20 µA, 2 = 50 µA, 3 = 100 µA. -/
def State.PCH_CFG_BD_CUR (s : State) (n : Nat) : Nat := (s.reg (0x40044 + n * 0x1000)).fld 8 2

/-- EXC_SEL of PCH_CFG: Driver for demodulation, 0–3 for EXC_0–EXC_3 (R27). -/
def State.PCH_CFG_EXC_SEL (s : State) (n : Nat) : Nat := (s.reg (0x40044 + n * 0x1000)).fld 4 2

/-- DEMOD_MODE of PCH_CFG: 0 = carrier, 1 = baseband (R135). -/
def State.PCH_CFG_DEMOD_MODE (s : State) (n : Nat) : Nat := (s.reg (0x40044 + n * 0x1000)).fld 2 1

/-- RANGE of PCH_CFG: Table 6.2. -/
def State.PCH_CFG_RANGE (s : State) (n : Nat) : Nat := (s.reg (0x40044 + n * 0x1000)).fld 0 2

/-- AMPW_HI of PCH_AMPW: Upper amplitude limit, 4,096 = range peak. -/
def State.PCH_AMPW_AMPW_HI (s : State) (n : Nat) : Nat := (s.reg (0x40048 + n * 0x1000)).fld 16 12

/-- AMPW_LO of PCH_AMPW: Lower amplitude limit. -/
def State.PCH_AMPW_AMPW_LO (s : State) (n : Nat) : Nat := (s.reg (0x40048 + n * 0x1000)).fld 0 12

/-- PH_LIM of PCH_PH_CFG: Limit in 2^-10 turn (R139). -/
def State.PCH_PH_CFG_PH_LIM (s : State) (n : Nat) : Nat := (s.reg (0x4004C + n * 0x1000)).fld 16 8

/-- PH_GAIN of PCH_PH_CFG: Adaptation shift, 2–7; values below 2 act as 2. -/
def State.PCH_PH_CFG_PH_GAIN (s : State) (n : Nat) : Nat := (s.reg (0x4004C + n * 0x1000)).fld 8 3

/-- PH_ACQ_PER of PCH_PH_CFG: Counted periods in PHASE_ACQ, 2–15; values below 2 act as 2. -/
def State.PCH_PH_CFG_PH_ACQ_PER (s : State) (n : Nat) : Nat := (s.reg (0x4004C + n * 0x1000)).fld 4 4

/-- PH_MODE of PCH_PH_CFG: Table 6.5. -/
def State.PCH_PH_CFG_PH_MODE (s : State) (n : Nat) : Nat := (s.reg (0x4004C + n * 0x1000)).fld 0 2

/-- PH_INIT of PCH_PH_INIT: Starting lag δ̂ in 2^-16 turn (R136). -/
def State.PCH_PH_INIT_PH_INIT (s : State) (n : Nat) : Nat := (s.reg (0x40050 + n * 0x1000)).fld 0 16

/-- DIR_INV of PCH_TRK_CFG: Reverse the sense of angle (R151). -/
def State.PCH_TRK_CFG_DIR_INV (s : State) (n : Nat) : Nat := (s.reg (0x40100 + n * 0x1000)).fld 17 1

/-- ADAPT_EN of PCH_TRK_CFG: Adaptive bandwidth (R156). -/
def State.PCH_TRK_CFG_ADAPT_EN (s : State) (n : Nat) : Nat := (s.reg (0x40100 + n * 0x1000)).fld 16 1

/-- BW_MAX of PCH_TRK_CFG: Highest step (Table 7.1). -/
def State.PCH_TRK_CFG_BW_MAX (s : State) (n : Nat) : Nat := (s.reg (0x40100 + n * 0x1000)).fld 12 3

/-- BW_MIN of PCH_TRK_CFG: Lowest step (R155). -/
def State.PCH_TRK_CFG_BW_MIN (s : State) (n : Nat) : Nat := (s.reg (0x40100 + n * 0x1000)).fld 8 3

/-- POLE_PAIRS of PCH_TRK_CFG: 1–16; 0 acts as 1, values above 16 act as 16. -/
def State.PCH_TRK_CFG_POLE_PAIRS (s : State) (n : Nat) : Nat := (s.reg (0x40100 + n * 0x1000)).fld 0 5

/-- E_DOWN of PCH_TRK_BW_THR: Narrowing threshold in 2^-20 turn (R156). -/
def State.PCH_TRK_BW_THR_E_DOWN (s : State) (n : Nat) : Nat := (s.reg (0x40104 + n * 0x1000)).fld 16 16

/-- E_UP of PCH_TRK_BW_THR: Widening threshold in 2^-20 turn; E_JUMP = 8 × E_UP. -/
def State.PCH_TRK_BW_THR_E_UP (s : State) (n : Nat) : Nat := (s.reg (0x40104 + n * 0x1000)).fld 0 16

/-- UP_HOLD of PCH_TRK_BW_TIME: Ticks between widening steps. -/
def State.PCH_TRK_BW_TIME_UP_HOLD (s : State) (n : Nat) : Nat := (s.reg (0x40108 + n * 0x1000)).fld 24 4

/-- UP_CNT of PCH_TRK_BW_TIME: Consecutive ticks at or above E_UP; 0 acts as 1. -/
def State.PCH_TRK_BW_TIME_UP_CNT (s : State) (n : Nat) : Nat := (s.reg (0x40108 + n * 0x1000)).fld 16 4

/-- DWELL of PCH_TRK_BW_TIME: Consecutive ticks below E_DOWN before narrowing; 0 acts as 1. -/
def State.PCH_TRK_BW_TIME_DWELL (s : State) (n : Nat) : Nat := (s.reg (0x40108 + n * 0x1000)).fld 0 16

/-- LOCK_TICKS of PCH_TRK_LOCK_CFG: Consecutive ticks for lock (R160); 0 acts as 1. -/
def State.PCH_TRK_LOCK_CFG_LOCK_TICKS (s : State) (n : Nat) : Nat := (s.reg (0x4010C + n * 0x1000)).fld 16 16

/-- E_LOCK of PCH_TRK_LOCK_CFG: Lock threshold in 2^-20 turn. -/
def State.PCH_TRK_LOCK_CFG_E_LOCK (s : State) (n : Nat) : Nat := (s.reg (0x4010C + n * 0x1000)).fld 0 16

/-- LOL_TICKS of PCH_TRK_LOL_CFG: Consecutive ticks for LOL; 0 acts as 1. -/
def State.PCH_TRK_LOL_CFG_LOL_TICKS (s : State) (n : Nat) : Nat := (s.reg (0x40110 + n * 0x1000)).fld 16 4

/-- E_LOL of PCH_TRK_LOL_CFG: LOL threshold in 2^-20 turn. -/
def State.PCH_TRK_LOL_CFG_E_LOL (s : State) (n : Nat) : Nat := (s.reg (0x40110 + n * 0x1000)).fld 0 16

/-- SPD_LIM of PCH_TRK_SPD_LIM: Overspeed limit in e-turn/s; 0 acts as 1, values above 8,000 act as 8,000. -/
def State.PCH_TRK_SPD_LIM_SPD_LIM (s : State) (n : Nat) : Nat := (s.reg (0x40114 + n * 0x1000)).fld 0 16

/-- ACQ_TMO of PCH_TRK_TIMEOUT: Acquisition limit in ms; 0 acts as 1. -/
def State.PCH_TRK_TIMEOUT_ACQ_TMO (s : State) (n : Nat) : Nat := (s.reg (0x40118 + n * 0x1000)).fld 16 16

/-- COAST_LIM of PCH_TRK_TIMEOUT: Coast limit in µs; values below 10 act as 10. -/
def State.PCH_TRK_TIMEOUT_COAST_LIM (s : State) (n : Nat) : Nat := (s.reg (0x40118 + n * 0x1000)).fld 0 16

/-- PRED_MODE of PCH_PRED_CFG: 0 = absolute time, 1 = TIME at read plus LEAD_NS (R174). -/
def State.PCH_PRED_CFG_PRED_MODE (s : State) (n : Nat) : Nat := (s.reg (0x40150 + n * 0x1000)).fld 16 1

/-- HORIZON of PCH_PRED_CFG: Limit on |Δ| in µs; 0 acts as 1, values above 1,000 act as 1,000. -/
def State.PCH_PRED_CFG_HORIZON (s : State) (n : Nat) : Nat := (s.reg (0x40150 + n * 0x1000)).fld 0 16

/-- LEAD_NS of PCH_PRED_LEAD: Signed lead in ns for PRED_MODE 1. -/
def State.PCH_PRED_LEAD_LEAD_NS (s : State) (n : Nat) : Nat := (s.reg (0x40154 + n * 0x1000)).fld 0 32

/-- PRED_TIME of PCH_PRED_TIME_LO: Low and high words of t_p for PRED_MODE 0; a write to _HI commits both (R174). -/
def State.PCH_PRED_TIME_LO_PRED_TIME (s : State) (n : Nat) : Nat := (s.reg (0x40158 + n * 0x1000)).fld 0 32

/-- PRED_TIME of PCH_PRED_TIME_HI: Low and high words of t_p for PRED_MODE 0; a write to _HI commits both (R174). -/
def State.PCH_PRED_TIME_HI_PRED_TIME (s : State) (n : Nat) : Nat := (s.reg (0x4015C + n * 0x1000)).fld 0 32

/-- TRIM_AUTO of SCL_TRIM_CFG: Temperature-triggered sweeps enabled. -/
def State.SCL_TRIM_CFG_TRIM_AUTO (s : State) : Nat := (s.reg (0x60048)).fld 31 1

/-- TRIM_WAIT of SCL_TRIM_CFG: Gate wait in 10 ms units; 0 acts as 1. -/
def State.SCL_TRIM_CFG_TRIM_WAIT (s : State) : Nat := (s.reg (0x60048)).fld 24 7

/-- TRIM_ACC of SCL_TRIM_CFG: Acceleration limit in 100 e-turn/s² units. -/
def State.SCL_TRIM_CFG_TRIM_ACC (s : State) : Nat := (s.reg (0x60048)).fld 16 8

/-- TRIM_DT of SCL_TRIM_CFG: Threshold in 1/16 °C; 0 acts as 1. -/
def State.SCL_TRIM_CFG_TRIM_DT (s : State) : Nat := (s.reg (0x60048)).fld 0 12

/-- BLK_REV of SCL_LRN_CFG: Accepted revolutions per block; values below 2 act as 2. -/
def State.SCL_LRN_CFG_BLK_REV (s : State) : Nat := (s.reg (0x6004C)).fld 16 8

/-- CONV_BLK of SCL_LRN_CFG: Blocks for convergence (R193); 0 acts as 1. -/
def State.SCL_LRN_CFG_CONV_BLK (s : State) : Nat := (s.reg (0x6004C)).fld 8 4

/-- LRN_SHIFT of SCL_LRN_CFG: Update shift (R192), 0–4; values above 4 act as 4. -/
def State.SCL_LRN_CFG_LRN_SHIFT (s : State) : Nat := (s.reg (0x6004C)).fld 0 3

/-- UPD_LIM of SCL_LRN_LIM: Largest update per block, angle-equivalent, 2^-24 e-turn. -/
def State.SCL_LRN_LIM_UPD_LIM (s : State) : Nat := (s.reg (0x60050)).fld 16 16

/-- CONV_TOL of SCL_LRN_LIM: Convergence tolerance, angle-equivalent, 2^-24 e-turn. -/
def State.SCL_LRN_LIM_CONV_TOL (s : State) : Nat := (s.reg (0x60050)).fld 0 16

/-- SPD_HI of SCL_SPD_WIN: Upper learning speed, m-turn/s. -/
def State.SCL_SPD_WIN_SPD_HI (s : State) : Nat := (s.reg (0x60054)).fld 16 16

/-- SPD_LO of SCL_SPD_WIN: Lower learning speed, m-turn/s; 0 acts as 1. -/
def State.SCL_SPD_WIN_SPD_LO (s : State) : Nat := (s.reg (0x60054)).fld 0 16

/-- HARM_MAX of SCL_n_CTRL: Highest order, 1–16; 0 acts as 1, values above 16 act as 16; pending under R194. -/
def State.SCL_CTRL_HARM_MAX (s : State) (n : Nat) : Nat := (s.reg (0x60100 + n * 0x80)).fld 16 5

/-- ALIGN_VAL of SCL_n_CTRL: Value written to SECT_ALIGN by ALIGN_WR; values at or above POLE_PAIRS complete with RANGE. -/
def State.SCL_CTRL_ALIGN_VAL (s : State) (n : Nat) : Nat := (s.reg (0x60100 + n * 0x80)).fld 8 4

/-- APPLY of SCL_n_CTRL: Correction applied (R184). -/
def State.SCL_CTRL_APPLY (s : State) (n : Nat) : Nat := (s.reg (0x60100 + n * 0x80)).fld 1 1

/-- LEARN of SCL_n_CTRL: Learning enabled (R188). -/
def State.SCL_CTRL_LEARN (s : State) (n : Nat) : Nat := (s.reg (0x60100 + n * 0x80)).fld 0 1

/-- EN of DCH_n_CTRL: Channel enabled (R210). -/
def State.DCH_CTRL_EN (s : State) (n : Nat) : Nat := (s.reg (0x70100 + n * 0x80)).fld 0 1

/-- CLK_PIN of DCH_n_CFG: SSI clock pin (R222). -/
def State.DCH_CFG_CLK_PIN (s : State) (n : Nat) : Nat := (s.reg (0x70104 + n * 0x80)).fld 24 4

/-- POLE_PAIRS of DCH_n_CFG: 1–16; 0 acts as 1, values above 16 act as 16. -/
def State.DCH_CFG_POLE_PAIRS (s : State) (n : Nat) : Nat := (s.reg (0x70104 + n * 0x80)).fld 16 5

/-- DRIVE of DCH_n_CFG: 0 = none, 1 = drive 0, 2 = drive 1; 3 acts as 0. -/
def State.DCH_CFG_DRIVE (s : State) (n : Nat) : Nat := (s.reg (0x70104 + n * 0x80)).fld 12 2

/-- Z_QUAD of DCH_n_CFG: Gating quadrant (R215). -/
def State.DCH_CFG_Z_QUAD (s : State) (n : Nat) : Nat := (s.reg (0x70104 + n * 0x80)).fld 10 2

/-- Z_GATE of DCH_n_CFG: Index gated by A and B. -/
def State.DCH_CFG_Z_GATE (s : State) (n : Nat) : Nat := (s.reg (0x70104 + n * 0x80)).fld 9 1

/-- Z_INV of DCH_n_CFG: Index on falling edge. -/
def State.DCH_CFG_Z_INV (s : State) (n : Nat) : Nat := (s.reg (0x70104 + n * 0x80)).fld 8 1

/-- FILT of DCH_n_CFG: Filter length FILT + 1 samples (R206). -/
def State.DCH_CFG_FILT (s : State) (n : Nat) : Nat := (s.reg (0x70104 + n * 0x80)).fld 4 4

/-- DIR_INV of DCH_n_CFG: Exchange up and down (R211). -/
def State.DCH_CFG_DIR_INV (s : State) (n : Nat) : Nat := (s.reg (0x70104 + n * 0x80)).fld 3 1

/-- RESYNC of DCH_n_CFG: Correct at index slip (R216). -/
def State.DCH_CFG_RESYNC (s : State) (n : Nat) : Nat := (s.reg (0x70104 + n * 0x80)).fld 2 1

/-- MODE of DCH_n_CFG: Table 9.1. -/
def State.DCH_CFG_MODE (s : State) (n : Nat) : Nat := (s.reg (0x70104 + n * 0x80)).fld 0 2

/-- HALL_OFS of DCH_n_SCALE: Hall angle offset in 2^-16 turn (R220). -/
def State.DCH_SCALE_HALL_OFS (s : State) (n : Nat) : Nat := (s.reg (0x70108 + n * 0x80)).fld 16 16

/-- LINES of DCH_n_SCALE: Encoder lines, 1–65,535; 0 means 65,536. -/
def State.DCH_SCALE_LINES (s : State) (n : Nat) : Nat := (s.reg (0x70108 + n * 0x80)).fld 0 16

/-- IDX_TOL of DCH_n_IDX_CFG: Index tolerance in counts. -/
def State.DCH_IDX_CFG_IDX_TOL (s : State) (n : Nat) : Nat := (s.reg (0x7010C + n * 0x80)).fld 24 8

/-- EXP_IDX of DCH_n_IDX_CFG: Expected POS at index, taken modulo CPR. -/
def State.DCH_IDX_CFG_EXP_IDX (s : State) (n : Nat) : Nat := (s.reg (0x7010C + n * 0x80)).fld 0 18

/-- ILL_WIN of DCH_n_MON_CFG: Window in µs (R213); 0 acts as 1. -/
def State.DCH_MON_CFG_ILL_WIN (s : State) (n : Nat) : Nat := (s.reg (0x70110 + n * 0x80)).fld 16 16

/-- SPD_TMO of DCH_n_MON_CFG: Speed time-out in ms (R230); 0 acts as 1. -/
def State.DCH_MON_CFG_SPD_TMO (s : State) (n : Nat) : Nat := (s.reg (0x70110 + n * 0x80)).fld 8 8

/-- ILL_MAX of DCH_n_MON_CFG: Illegal transitions allowed per window. -/
def State.DCH_MON_CFG_ILL_MAX (s : State) (n : Nat) : Nat := (s.reg (0x70110 + n * 0x80)).fld 0 8

/-- TRIG_DIV of DCH_n_RATE: Ticks between SSI frames; 0 = triggers only (R223). -/
def State.DCH_RATE_TRIG_DIV (s : State) (n : Nat) : Nat := (s.reg (0x70114 + n * 0x80)).fld 16 16

/-- SPD_WIN of DCH_n_RATE: Speed window in µs (R230). -/
def State.DCH_RATE_SPD_WIN (s : State) (n : Nat) : Nat := (s.reg (0x70114 + n * 0x80)).fld 0 16

/-- ERR_MAX of DCH_n_SSI_CFG: Consecutive rejections for SSI_LOSS; 0 acts as 1. -/
def State.DCH_SSI_CFG_ERR_MAX (s : State) (n : Nat) : Nat := (s.reg (0x70118 + n * 0x80)).fld 28 4

/-- GRAY of DCH_n_SSI_CFG: Gray-coded position fields. -/
def State.DCH_SSI_CFG_GRAY (s : State) (n : Nat) : Nat := (s.reg (0x70118 + n * 0x80)).fld 24 1

/-- CHK of DCH_n_SSI_CFG: 0 = none, 1 = even parity, 2 = CRC-6; 3 completes with RANGE. -/
def State.DCH_SSI_CFG_CHK (s : State) (n : Nat) : Nat := (s.reg (0x70118 + n * 0x80)).fld 20 2

/-- STAT_BITS of DCH_n_SSI_CFG: Status bits, 0–4; values above 4 act as 4 (R224). -/
def State.DCH_SSI_CFG_STAT_BITS (s : State) (n : Nat) : Nat := (s.reg (0x70118 + n * 0x80)).fld 16 3

/-- MT_BITS of DCH_n_SSI_CFG: Multi-turn bits, 0–16; values above 16 act as 16 (R224). -/
def State.DCH_SSI_CFG_MT_BITS (s : State) (n : Nat) : Nat := (s.reg (0x70118 + n * 0x80)).fld 8 5

/-- ST_BITS of DCH_n_SSI_CFG: Single-turn bits, 8–24; values below 8 act as 8, values above 24 act as 24 (R224). -/
def State.DCH_SSI_CFG_ST_BITS (s : State) (n : Nat) : Nat := (s.reg (0x70118 + n * 0x80)).fld 0 5

/-- REC_US of DCH_n_SSI_TIM: Recovery time in µs; 0 acts as 1. -/
def State.DCH_SSI_TIM_REC_US (s : State) (n : Nat) : Nat := (s.reg (0x7011C + n * 0x80)).fld 24 8

/-- DLY of DCH_n_SSI_TIM: Sample delay in 5 ns units (R224). -/
def State.DCH_SSI_TIM_DLY (s : State) (n : Nat) : Nat := (s.reg (0x7011C + n * 0x80)).fld 16 8

/-- CLK_HALF of DCH_n_SSI_TIM: Half clock period in TCLK cycles, 20–2,000; values outside act as the nearer limit. -/
def State.DCH_SSI_TIM_CLK_HALF (s : State) (n : Nat) : Nat := (s.reg (0x7011C + n * 0x80)).fld 0 12

/-- JUMP_MAX of DCH_n_SSI_JUMP: Largest single-turn change per frame; 0 disables the check. -/
def State.DCH_SSI_JUMP_JUMP_MAX (s : State) (n : Nat) : Nat := (s.reg (0x70120 + n * 0x80)).fld 0 24

/-- DIV_TICKS of XMON_n_CFG: Consecutive compared ticks for a divergence (R240); 0 acts as 1. -/
def State.XMON_CFG_DIV_TICKS (s : State) (h : Half) (n : Nat) : Nat := (s.regH h (0xC0100 + n * 0x40)).fld 24 4

/-- REF_EN of XMON_n_CFG: Digital reference used (R241, R242). -/
def State.XMON_CFG_REF_EN (s : State) (h : Half) (n : Nat) : Nat := (s.regH h (0xC0100 + n * 0x40)).fld 17 1

/-- CMP_EN of XMON_n_CFG: Comparison enabled (R237). -/
def State.XMON_CFG_CMP_EN (s : State) (h : Half) (n : Nat) : Nat := (s.regH h (0xC0100 + n * 0x40)).fld 16 1

/-- SRC_B of XMON_n_CFG: Second channel, 0–7 for PCH_0–PCH_7. -/
def State.XMON_CFG_SRC_B (s : State) (h : Half) (n : Nat) : Nat := (s.regH h (0xC0100 + n * 0x40)).fld 4 3

/-- SRC_A of XMON_n_CFG: First channel. -/
def State.XMON_CFG_SRC_A (s : State) (h : Half) (n : Nat) : Nat := (s.regH h (0xC0100 + n * 0x40)).fld 0 3

/-- ANG_WIN of XMON_n_ANG_WIN: Angle window in 2^-24 e-turn (about 1° electrical). -/
def State.XMON_ANG_WIN_ANG_WIN (s : State) (h : Half) (n : Nat) : Nat := (s.regH h (0xC0104 + n * 0x40)).fld 0 24

/-- SPD_REL of XMON_n_SPD_WIN: Relative part in 1/1,024 of the mean speed magnitude (R239). -/
def State.XMON_SPD_WIN_SPD_REL (s : State) (h : Half) (n : Nat) : Nat := (s.regH h (0xC0108 + n * 0x40)).fld 16 16

/-- SPD_ABS of XMON_n_SPD_WIN: Absolute part in 1/16 e-turn/s. -/
def State.XMON_SPD_WIN_SPD_ABS (s : State) (h : Half) (n : Nat) : Nat := (s.regH h (0xC0108 + n * 0x40)).fld 0 16

/-- DREF_REL of XMON_n_DREF_WIN: Relative part in 1/1,024 of the reference speed magnitude (R241). -/
def State.XMON_DREF_WIN_DREF_REL (s : State) (h : Half) (n : Nat) : Nat := (s.regH h (0xC010C + n * 0x40)).fld 16 16

/-- DREF_ABS of XMON_n_DREF_WIN: Absolute part in 1/16 e-turn/s. -/
def State.XMON_DREF_WIN_DREF_ABS (s : State) (h : Half) (n : Nat) : Nat := (s.regH h (0xC010C + n * 0x40)).fld 0 16

/-- ANG_OFS of XMON_n_ANG_OFS: Offset θ_A − θ_B in 2^-24 e-turn; written by a capture (R244). -/
def State.XMON_ANG_OFS_ANG_OFS (s : State) (h : Half) (n : Nat) : Nat := (s.regH h (0xC0110 + n * 0x40)).fld 0 24

/-- EN of ENC_n_CTRL: Output enabled (R267). -/
def State.ENC_CTRL_EN (s : State) (h : Half) (n : Nat) : Nat := (s.regH h (0x80100 + n * 0x40)).fld 0 1

/-- EDGE_GAP of ENC_n_CFG: Least TCLK cycles between steps; values below 10 act as 10 (R261). -/
def State.ENC_CFG_EDGE_GAP (s : State) (h : Half) (n : Nat) : Nat := (s.regH h (0x80104 + n * 0x40)).fld 8 10

/-- Z_LEN of ENC_n_CFG: Index length in counts, 1–4; 0 acts as 1, values above 4 act as 4 (R265). -/
def State.ENC_CFG_Z_LEN (s : State) (h : Half) (n : Nat) : Nat := (s.regH h (0x80104 + n * 0x40)).fld 4 3

/-- SLEW_FAST of ENC_n_CFG: Fast slew setting of the O33 pads. -/
def State.ENC_CFG_SLEW_FAST (s : State) (h : Half) (n : Nat) : Nat := (s.regH h (0x80104 + n * 0x40)).fld 3 1

/-- Z_OFF of ENC_n_CFG: Z driven low. -/
def State.ENC_CFG_Z_OFF (s : State) (h : Half) (n : Nat) : Nat := (s.regH h (0x80104 + n * 0x40)).fld 2 1

/-- DIR_INV of ENC_n_CFG: Exchange A and B (R264). -/
def State.ENC_CFG_DIR_INV (s : State) (h : Half) (n : Nat) : Nat := (s.regH h (0x80104 + n * 0x40)).fld 1 1

/-- DRIVE of ENC_n_CFG: 0 = drive 0, 1 = drive 1 (R258). -/
def State.ENC_CFG_DRIVE (s : State) (h : Half) (n : Nat) : Nat := (s.regH h (0x80104 + n * 0x40)).fld 0 1

/-- LINES of ENC_n_LINES: Lines per e-turn; 0 means 65,536, values 1–63 act as 64. -/
def State.ENC_LINES_LINES (s : State) (h : Half) (n : Nat) : Nat := (s.regH h (0x80108 + n * 0x40)).fld 0 16

/-- IDX_POS of ENC_n_IDX: Start of the index, taken modulo CPR (R265). -/
def State.ENC_IDX_IDX_POS (s : State) (h : Half) (n : Nat) : Nat := (s.regH h (0x8010C + n * 0x40)).fld 0 18

/-- LEAD_NS of ENC_n_TUNE: Signed output lead in ns (R260). -/
def State.ENC_TUNE_LEAD_NS (s : State) (h : Half) (n : Nat) : Nat := (s.regH h (0x80110 + n * 0x40)).fld 16 16

/-- HYST of ENC_n_TUNE: Hysteresis in 2^-24 turn; values of one count or more act as one count less 1 LSB (R259). -/
def State.ENC_TUNE_HYST (s : State) (h : Half) (n : Nat) : Nat := (s.regH h (0x80110 + n * 0x40)).fld 0 16

/-- BKL_WARN of ENC_n_WARN: TALLY_HI threshold in counts; values above 2^20 act as 2^20. -/
def State.ENC_WARN_BKL_WARN (s : State) (h : Half) (n : Nat) : Nat := (s.regH h (0x80114 + n * 0x40)).fld 0 21

/-- EN of AEV_CTRL: Scheduler enabled (Table 12.2). -/
def State.AEV_CTRL_EN (s : State) (h : Half) : Nat := (s.regH h (0x90040)).fld 0 1

/-- HYST of AEV_HYST: Slot hysteresis in 2^-24 turn (R278); values above 0x40_0000 act as 0x40_0000. -/
def State.AEV_HYST_HYST (s : State) (h : Half) : Nat := (s.regH h (0x90044)).fld 0 24

/-- SLEW_FAST of AEV_n_CFG: Fast slew setting of the O33 pad. -/
def State.AEV_CFG_SLEW_FAST (s : State) (h : Half) (n : Nat) : Nat := (s.regH h (0x90100 + n * 0x10)).fld 3 1

/-- POL of AEV_n_CFG: 0 = active high, 1 = active low; the pin takes its idle level at release. -/
def State.AEV_CFG_POL (s : State) (h : Half) (n : Nat) : Nat := (s.regH h (0x90100 + n * 0x10)).fld 1 1

/-- DRIVE of AEV_n_CFG: 0 = drive 0, 1 = drive 1 (R28, R285). -/
def State.AEV_CFG_DRIVE (s : State) (h : Half) (n : Nat) : Nat := (s.regH h (0x90100 + n * 0x10)).fld 0 1

/-- LEAD_NS of AEV_n_LEAD: Signed output lead in ns (R280). -/
def State.AEV_LEAD_LEAD_NS (s : State) (h : Half) (n : Nat) : Nat := (s.regH h (0x90108 + n * 0x10)).fld 0 16

/-- REL_GAP of SDM_GLB_CFG: Gap in µs (R308); 0 acts as 1. -/
def State.SDM_GLB_CFG_REL_GAP (s : State) (h : Half) : Nat := (s.regH h (0xA0040)).fld 16 4

/-- DIS_ON_DEV of SDM_GLB_CFG: Whole-device safe state sets the DIS latch (R309). -/
def State.SDM_GLB_CFG_DIS_ON_DEV (s : State) (h : Half) : Nat := (s.regH h (0xA0040)).fld 12 1

/-- FB_FORM_1 of SDM_GLB_CFG: Drive 1 form without VALID: 0 = inhibit, 1 = ASC (R304). -/
def State.SDM_GLB_CFG_FB_FORM_1 (s : State) (h : Half) : Nat := (s.regH h (0xA0040)).fld 9 1

/-- FB_FORM_0 of SDM_GLB_CFG: As FB_FORM_1, drive 0. -/
def State.SDM_GLB_CFG_FB_FORM_0 (s : State) (h : Half) : Nat := (s.regH h (0xA0040)).fld 8 1

/-- SAFE_MODE_1 of SDM_GLB_CFG: Drive 1 form (R304). -/
def State.SDM_GLB_CFG_SAFE_MODE_1 (s : State) (h : Half) : Nat := (s.regH h (0xA0040)).fld 6 2

/-- SAFE_MODE_0 of SDM_GLB_CFG: Drive 0 form. -/
def State.SDM_GLB_CFG_SAFE_MODE_0 (s : State) (h : Half) : Nat := (s.regH h (0xA0040)).fld 4 2

/-- SDCLK_1_EN of SDM_GLB_CFG: SDCLK_1 running (R292). -/
def State.SDM_GLB_CFG_SDCLK_1_EN (s : State) (h : Half) : Nat := (s.regH h (0xA0040)).fld 1 1

/-- SDCLK_0_EN of SDM_GLB_CFG: SDCLK_0 running. -/
def State.SDM_GLB_CFG_SDCLK_0_EN (s : State) (h : Half) : Nat := (s.regH h (0xA0040)).fld 0 1

/-- ASC_ON of SDM_ASC_SPD_d: ASC form at or above, e-turn/s (R304). -/
def State.SDM_ASC_SPD_ASC_ON (s : State) (h : Half) (n : Nat) : Nat := (s.regH h (0xA0044 + n * 0x4)).fld 16 16

/-- ASC_OFF of SDM_ASC_SPD_d: Inhibit form below, e-turn/s; values above ASC_ON act as ASC_ON. -/
def State.SDM_ASC_SPD_ASC_OFF (s : State) (h : Half) (n : Nat) : Nat := (s.regH h (0xA0044 + n * 0x4)).fld 0 16

/-- OC_CNT of SDM_n_CFG: Consecutive bits for HI_n, LO_n (R298, R299). -/
def State.SDM_CFG_OC_CNT (s : State) (h : Half) (n : Nat) : Nat := (s.regH h (0xA0100 + n * 0x20)).fld 16 3

/-- SMP_DLY of SDM_n_CFG: Sample delay in TCLK cycles (R293). -/
def State.SDM_CFG_SMP_DLY (s : State) (h : Half) (n : Nat) : Nat := (s.regH h (0xA0100 + n * 0x20)).fld 10 5

/-- CLK_SRC of SDM_n_CFG: 0 = SDCLK_0, 1 = SDCLK_1. -/
def State.SDM_CFG_CLK_SRC (s : State) (h : Half) (n : Nat) : Nat := (s.regH h (0xA0100 + n * 0x20)).fld 8 1

/-- PHASE of SDM_n_CFG: 0 = a, 1 = b, 2 = c; 3 acts as 0. -/
def State.SDM_CFG_PHASE (s : State) (h : Half) (n : Nat) : Nat := (s.regH h (0xA0100 + n * 0x20)).fld 5 2

/-- DRIVE of SDM_n_CFG: Drive of a PHASE input. -/
def State.SDM_CFG_DRIVE (s : State) (h : Half) (n : Nat) : Nat := (s.regH h (0xA0100 + n * 0x20)).fld 4 1

/-- ROLE of SDM_n_CFG: Table 13.1. -/
def State.SDM_CFG_ROLE (s : State) (h : Half) (n : Nat) : Nat := (s.regH h (0xA0100 + n * 0x20)).fld 2 2

/-- EN of SDM_n_CFG: Input enabled. -/
def State.SDM_CFG_EN (s : State) (h : Half) (n : Nat) : Nat := (s.regH h (0xA0100 + n * 0x20)).fld 0 1

/-- HI_THR of SDM_n_THR: Upper threshold on fast-path D, signed; the reset value is never exceeded. -/
def State.SDM_THR_HI_THR (s : State) (h : Half) (n : Nat) : Nat := (s.regH h (0xA0104 + n * 0x20)).fld 16 16

/-- LO_THR of SDM_n_THR: Lower threshold, signed; the reset value is never undercut. -/
def State.SDM_THR_LO_THR (s : State) (h : Half) (n : Nat) : Nat := (s.regH h (0xA0104 + n * 0x20)).fld 0 16

/-- GAIN of SDM_n_SCALE: Unsigned; 16,384 = 1 (R296). -/
def State.SDM_SCALE_GAIN (s : State) (h : Half) (n : Nat) : Nat := (s.regH h (0xA0108 + n * 0x20)).fld 16 16

/-- OFS of SDM_n_SCALE: Signed offset in D units. -/
def State.SDM_SCALE_OFS (s : State) (h : Half) (n : Nat) : Nat := (s.regH h (0xA0108 + n * 0x20)).fld 0 16

/-- LOG_DIV of SDM_TQ_d_CFG: Evaluations per torque record; 0 = none (R313). -/
def State.SDM_TQ_CFG_LOG_DIV (s : State) (h : Half) (n : Nat) : Nat := (s.regH h (0xA0200 + n * 0x40)).fld 16 8

/-- TQ_AUX of SDM_TQ_d_CFG: Auxiliary result used with REF_SRC 1. -/
def State.SDM_TQ_CFG_TQ_AUX (s : State) (h : Half) (n : Nat) : Nat := (s.regH h (0xA0200 + n * 0x40)).fld 12 4

/-- TQ_FILT of SDM_TQ_d_CFG: Filter shift, 0–15 (R310). -/
def State.SDM_TQ_CFG_TQ_FILT (s : State) (h : Half) (n : Nat) : Nat := (s.regH h (0xA0200 + n * 0x40)).fld 4 4

/-- REF_SRC of SDM_TQ_d_CFG: 0 = SDM_TQ_d_CMD, 1 = auxiliary result. -/
def State.SDM_TQ_CFG_REF_SRC (s : State) (h : Half) (n : Nat) : Nat := (s.regH h (0xA0200 + n * 0x40)).fld 1 1

/-- EN of SDM_TQ_d_CFG: Monitor enabled. -/
def State.SDM_TQ_CFG_EN (s : State) (h : Half) (n : Nat) : Nat := (s.regH h (0xA0200 + n * 0x40)).fld 0 1

/-- KR of SDM_TQ_d_K: Reluctance coefficient, signed (R310). -/
def State.SDM_TQ_K_KR (s : State) (h : Half) (n : Nat) : Nat := (s.regH h (0xA0204 + n * 0x40)).fld 16 16

/-- KT of SDM_TQ_d_K: Flux coefficient, signed. -/
def State.SDM_TQ_K_KT (s : State) (h : Half) (n : Nat) : Nat := (s.regH h (0xA0204 + n * 0x40)).fld 0 16

/-- WIN_REL of SDM_TQ_d_WIN: Relative window in 1/1,024 of |REF_F|. -/
def State.SDM_TQ_WIN_WIN_REL (s : State) (h : Half) (n : Nat) : Nat := (s.regH h (0xA0208 + n * 0x40)).fld 16 16

/-- WIN_ABS of SDM_TQ_d_WIN: Absolute window in torque units. -/
def State.SDM_TQ_WIN_WIN_ABS (s : State) (h : Half) (n : Nat) : Nat := (s.regH h (0xA0208 + n * 0x40)).fld 0 16

/-- SUM_CNT of SDM_TQ_d_CHK: Outputs for PHSUM_d (R302); 0 acts as 1. -/
def State.SDM_TQ_CHK_SUM_CNT (s : State) (h : Half) (n : Nat) : Nat := (s.regH h (0xA020C + n * 0x40)).fld 24 4

/-- TQ_CNT of SDM_TQ_d_CHK: Outputs for TQ_DEV_d; 0 acts as 1. -/
def State.SDM_TQ_CHK_TQ_CNT (s : State) (h : Half) (n : Nat) : Nat := (s.regH h (0xA020C + n * 0x40)).fld 16 4

/-- SUM_TOL of SDM_TQ_d_CHK: Phase-sum tolerance in I units. -/
def State.SDM_TQ_CHK_SUM_TOL (s : State) (h : Half) (n : Nat) : Nat := (s.regH h (0xA020C + n * 0x40)).fld 0 16

/-- CMD_TMO of SDM_TQ_d_TIME: Command time-out in µs (R312); 0 acts as 1. -/
def State.SDM_TQ_TIME_CMD_TMO (s : State) (h : Half) (n : Nat) : Nat := (s.regH h (0xA0210 + n * 0x40)).fld 16 16

/-- SETTLE_US of SDM_TQ_d_TIME: Hold after release in µs (R311). -/
def State.SDM_TQ_TIME_SETTLE_US (s : State) (h : Half) (n : Nat) : Nat := (s.regH h (0xA0210 + n * 0x40)).fld 0 16

/-- ROT_OFS of SDM_TQ_d_ROT: Commutation offset, 2^-24 e-turn. -/
def State.SDM_TQ_ROT_ROT_OFS (s : State) (h : Half) (n : Nat) : Nat := (s.regH h (0xA0214 + n * 0x40)).fld 8 24

/-- AUX_GAIN of SDM_TQ_d_AUXG: Signed; 65,536 = 1 (R310). -/
def State.SDM_TQ_AUXG_AUX_GAIN (s : State) (h : Half) (n : Nat) : Nat := (s.regH h (0xA0218 + n * 0x40)).fld 0 32

/-- TQ_CMD of SDM_TQ_d_CMD: Commanded torque, signed, torque units; each write restarts the timer of R312. -/
def State.SDM_TQ_CMD_TQ_CMD (s : State) (h : Half) (n : Nat) : Nat := (s.regH h (0xA021C + n * 0x40)).fld 0 32

/-- SLOT_EN of AUX_CTRL: Bit k enables slot k (R318). -/
def State.AUX_CTRL_SLOT_EN (s : State) : Nat := (s.reg (0xB0040)).fld 0 16

/-- UP_CNT of AUX_AUTO_CFG: Visits for a step to higher gain (R326); 0 acts as 1. -/
def State.AUX_AUTO_CFG_UP_CNT (s : State) : Nat := (s.reg (0xB004C)).fld 0 4

/-- FAIL_CODE of AUX_ROUT_n_CFG: Code driven while the source is invalid (R337). -/
def State.AUX_ROUT_CFG_FAIL_CODE (s : State) (n : Nat) : Nat := (s.reg (0xB0080 + n * 0x10)).fld 20 12

/-- SHIFT of AUX_ROUT_n_CFG: Right shift of R336. -/
def State.AUX_ROUT_CFG_SHIFT (s : State) (n : Nat) : Nat := (s.reg (0xB0080 + n * 0x10)).fld 12 5

/-- SLOT of AUX_ROUT_n_CFG: Slot for SRC 1. -/
def State.AUX_ROUT_CFG_SLOT (s : State) (n : Nat) : Nat := (s.reg (0xB0080 + n * 0x10)).fld 8 4

/-- DRIVE of AUX_ROUT_n_CFG: Drive for SRC 2–4. -/
def State.AUX_ROUT_CFG_DRIVE (s : State) (n : Nat) : Nat := (s.reg (0xB0080 + n * 0x10)).fld 4 1

/-- SRC of AUX_ROUT_n_CFG: Source (R336). -/
def State.AUX_ROUT_CFG_SRC (s : State) (n : Nat) : Nat := (s.reg (0xB0080 + n * 0x10)).fld 1 3

/-- EN of AUX_ROUT_n_CFG: Output enabled. -/
def State.AUX_ROUT_CFG_EN (s : State) (n : Nat) : Nat := (s.reg (0xB0080 + n * 0x10)).fld 0 1

/-- GAIN of AUX_ROUT_n_SCALE: Signed multiplier (R336). -/
def State.AUX_ROUT_SCALE_GAIN (s : State) (n : Nat) : Nat := (s.reg (0xB0084 + n * 0x10)).fld 16 16

/-- OFS of AUX_ROUT_n_SCALE: Signed code offset. -/
def State.AUX_ROUT_SCALE_OFS (s : State) (n : Nat) : Nat := (s.reg (0xB0084 + n * 0x10)).fld 0 16

/-- FW_CODE of AUX_ROUT_n_CODE: Code for SRC 0. -/
def State.AUX_ROUT_CODE_FW_CODE (s : State) (n : Nat) : Nat := (s.reg (0xB0088 + n * 0x10)).fld 0 12

/-- IEXB of AUX_k_PINS: Pin 0–15; 16–31 = unused (R318, R324). -/
def State.AUX_PINS_IEXB (s : State) (n : Nat) : Nat := (s.reg (0xB0100 + n * 0x40)).fld 25 5

/-- IEXA of AUX_k_PINS: As IEXB. -/
def State.AUX_PINS_IEXA (s : State) (n : Nat) : Nat := (s.reg (0xB0100 + n * 0x40)).fld 20 5

/-- REFN of AUX_k_PINS: As IEXB. -/
def State.AUX_PINS_REFN (s : State) (n : Nat) : Nat := (s.reg (0xB0100 + n * 0x40)).fld 15 5

/-- REFP of AUX_k_PINS: As IEXB. -/
def State.AUX_PINS_REFP (s : State) (n : Nat) : Nat := (s.reg (0xB0100 + n * 0x40)).fld 10 5

/-- INN of AUX_k_PINS: As IEXB; unused connects AGND. -/
def State.AUX_PINS_INN (s : State) (n : Nat) : Nat := (s.reg (0xB0100 + n * 0x40)).fld 5 5

/-- INP of AUX_k_PINS: As IEXB. -/
def State.AUX_PINS_INP (s : State) (n : Nat) : Nat := (s.reg (0xB0100 + n * 0x40)).fld 0 5

/-- SETTLE of AUX_k_CFG: Settle before each conversion, 10 µs units (R321). -/
def State.AUX_CFG_SETTLE (s : State) (n : Nat) : Nat := (s.reg (0xB0104 + n * 0x40)).fld 20 8

/-- LSB_SEL of AUX_k_CFG: VALUE unit (Table 14.1). -/
def State.AUX_CFG_LSB_SEL (s : State) (n : Nat) : Nat := (s.reg (0xB0104 + n * 0x40)).fld 18 2

/-- LEAD_MODE of AUX_k_CFG: R329; 3 acts as 0. -/
def State.AUX_CFG_LEAD_MODE (s : State) (n : Nat) : Nat := (s.reg (0xB0104 + n * 0x40)).fld 16 2

/-- TCONV of AUX_k_CFG: Table 14.2. -/
def State.AUX_CFG_TCONV (s : State) (n : Nat) : Nat := (s.reg (0xB0104 + n * 0x40)).fld 12 4

/-- LOG of AUX_k_CFG: Records to the queue (R334). -/
def State.AUX_CFG_LOG (s : State) (n : Nat) : Nat := (s.reg (0xB0104 + n * 0x40)).fld 11 1

/-- IEX of AUX_k_CFG: Current code (R324). -/
def State.AUX_CFG_IEX (s : State) (n : Nat) : Nat := (s.reg (0xB0104 + n * 0x40)).fld 8 3

/-- CONV_SEL of AUX_k_CFG: 0 = converter 0, 1 = converter 1. -/
def State.AUX_CFG_CONV_SEL (s : State) (n : Nat) : Nat := (s.reg (0xB0104 + n * 0x40)).fld 7 1

/-- GAIN of AUX_k_CFG: Fixed GIDX, or starting GIDX with AUTO (R326). -/
def State.AUX_CFG_GAIN (s : State) (n : Nat) : Nat := (s.reg (0xB0104 + n * 0x40)).fld 4 3

/-- AUTO of AUX_k_CFG: Autoranging. -/
def State.AUX_CFG_AUTO (s : State) (n : Nat) : Nat := (s.reg (0xB0104 + n * 0x40)).fld 3 1

/-- ALT of AUX_k_CFG: Alternate polarity (R325). -/
def State.AUX_CFG_ALT (s : State) (n : Nat) : Nat := (s.reg (0xB0104 + n * 0x40)).fld 2 1

/-- TYPE of AUX_k_CFG: Table 14.1. -/
def State.AUX_CFG_TYPE (s : State) (n : Nat) : Nat := (s.reg (0xB0104 + n * 0x40)).fld 0 2

/-- LEAD_MAX of AUX_k_LEAD_CFG: LEAD cause threshold, 10 mΩ units. -/
def State.AUX_LEAD_CFG_LEAD_MAX (s : State) (n : Nat) : Nat := (s.reg (0xB010C + n * 0x40)).fld 20 12

/-- LEAD_DIV of AUX_k_LEAD_CFG: Visits per lead measurement; 0 acts as 1. -/
def State.AUX_LEAD_CFG_LEAD_DIV (s : State) (n : Nat) : Nat := (s.reg (0xB010C + n * 0x40)).fld 16 4

/-- LEAD_FIX of AUX_k_LEAD_CFG: Two-wire lead resistance, 1 mΩ. -/
def State.AUX_LEAD_CFG_LEAD_FIX (s : State) (n : Nat) : Nat := (s.reg (0xB010C + n * 0x40)).fld 0 16

/-- RREF of AUX_k_RREF: Reference resistor, 10 mΩ; [31:24] reserved. -/
def State.AUX_RREF_RREF (s : State) (n : Nat) : Nat := (s.reg (0xB0108 + n * 0x40)).fld 0 24

/-- R0 of AUX_k_R0: R0 in 0.1 Ω (R328); [31:16] reserved. -/
def State.AUX_R0_R0 (s : State) (n : Nat) : Nat := (s.reg (0xB0110 + n * 0x40)).fld 0 16

/-- LIM_HI of AUX_k_LIM_HI: Upper limit on P, signed (R332); [31:24] reserved. -/
def State.AUX_LIM_HI_LIM_HI (s : State) (n : Nat) : Nat := (s.reg (0xB0114 + n * 0x40)).fld 0 24

/-- LIM_CNT of AUX_k_LIM_LO: Consecutive results; 0 acts as 1. -/
def State.AUX_LIM_LO_LIM_CNT (s : State) (n : Nat) : Nat := (s.reg (0xB0118 + n * 0x40)).fld 28 4

/-- LIM_LO of AUX_k_LIM_LO: Lower limit on P, signed; [27:24] reserved. -/
def State.AUX_LIM_LO_LIM_LO (s : State) (n : Nat) : Nat := (s.reg (0xB0118 + n * 0x40)).fld 0 24

/-- SHORT_LIM of AUX_k_SHORT: SHORT threshold in VALUE units; [31:24] reserved. -/
def State.AUX_SHORT_SHORT_LIM (s : State) (n : Nat) : Nat := (s.reg (0xB011C + n * 0x40)).fld 0 24

/-- HALF_US of SYS_ALIVE_CFG: Half period in µs, 5–500 (100 kHz to 1 kHz); values outside act as the nearer limit. -/
def State.SYS_ALIVE_CFG_HALF_US (s : State) : Nat := (s.reg (0x5C)).fld 0 9

/-- EN of CRZ_CTRL: Cruise enabled. -/
def State.CRZ_CTRL_EN (s : State) : Nat := (s.reg (0xD0040)).fld 0 1

/-- ITEM_EN of CRZ_ITEM_EN: Bit i enables item i (Table 16.1). -/
def State.CRZ_ITEM_EN_ITEM_EN (s : State) : Nat := (s.reg (0xD0044)).fld 0 15

/-- DOZE_RUN of CRZ_SCHED: Run in DOZE (R366). -/
def State.CRZ_SCHED_DOZE_RUN (s : State) : Nat := (s.reg (0xD0048)).fld 24 1

/-- STARVE of CRZ_SCHED: Rounds for STARVED (R373); 0 acts as 1. -/
def State.CRZ_SCHED_STARVE (s : State) : Nat := (s.reg (0xD0048)).fld 16 4

/-- PERIOD_MS of CRZ_SCHED: Round period in ms; 0 acts as 1. -/
def State.CRZ_SCHED_PERIOD_MS (s : State) : Nat := (s.reg (0xD0048)).fld 0 16

/-- KI of TIME_CFG: Integral shift (R380). -/
def State.TIME_CFG_KI (s : State) : Nat := (s.reg (0xE0048)).fld 12 3

/-- KP of TIME_CFG: Proportional shift. -/
def State.TIME_CFG_KP (s : State) : Nat := (s.reg (0xE0048)).fld 8 3

/-- NO_BACK of TIME_CFG: Slew instead of a backward step (R381). -/
def State.TIME_CFG_NO_BACK (s : State) : Nat := (s.reg (0xE0048)).fld 1 1

/-- DISC_EN of TIME_CFG: Discipline enabled; no effect on HL8640-QB. -/
def State.TIME_CFG_DISC_EN (s : State) : Nat := (s.reg (0xE0048)).fld 0 1

/-- LOCK_NS of TIME_THR: Lock threshold, ns. -/
def State.TIME_THR_LOCK_NS (s : State) : Nat := (s.reg (0xE004C)).fld 16 16

/-- STEP_THR of TIME_THR: Step threshold, µs; 0 acts as 1. -/
def State.TIME_THR_STEP_THR (s : State) : Nat := (s.reg (0xE004C)).fld 0 16

/-- SYNC_TMO of TIME_TMO: Sync time-out, ms; 0 acts as 1. -/
def State.TIME_TMO_SYNC_TMO (s : State) : Nat := (s.reg (0xE0050)).fld 0 16

/-- SET of TIME_SET_LO: New TIME, low word. -/
def State.TIME_SET_LO_SET (s : State) : Nat := (s.reg (0xE0070)).fld 0 32

/-- SET of TIME_SET_HI: High word; a write applies it (R382). -/
def State.TIME_SET_HI_SET (s : State) : Nat := (s.reg (0xE0074)).fld 0 32

/-- POST of FREC_n_CFG: Entries after the trigger. -/
def State.FREC_CFG_POST (s : State) (n : Nat) : Nat := (s.reg (0xE0100 + n * 0x20)).fld 16 16

/-- DIV of FREC_n_CFG: Ticks per entry; 0 acts as 1. -/
def State.FREC_CFG_DIV (s : State) (n : Nat) : Nat := (s.reg (0xE0100 + n * 0x20)).fld 8 8

/-- FLT_TRIG of FREC_n_CFG: 0 = off; 1–3 = least reaction code (R393). -/
def State.FREC_CFG_FLT_TRIG (s : State) (n : Nat) : Nat := (s.reg (0xE0100 + n * 0x20)).fld 4 2

/-- AEV_TRIG of FREC_n_CFG: Trigger on FREC target n. -/
def State.FREC_CFG_AEV_TRIG (s : State) (n : Nat) : Nat := (s.reg (0xE0100 + n * 0x20)).fld 0 1

/-- BASE of FREC_n_BASE: Ring offset from 0x1000_0000. -/
def State.FREC_BASE_BASE (s : State) (n : Nat) : Nat := (s.reg (0xE0104 + n * 0x20)).fld 0 23

/-- ENTRIES of FREC_n_LEN: Ring length; 0 acts as 1. -/
def State.FREC_LEN_ENTRIES (s : State) (n : Nat) : Nat := (s.reg (0xE0108 + n * 0x20)).fld 0 16

/-- SDI_MASK of FREC_n_SRC: Inputs recorded (Table 17.6). -/
def State.FREC_SRC_SDI_MASK (s : State) (n : Nat) : Nat := (s.reg (0xE010C + n * 0x20)).fld 8 8

/-- PCH of FREC_n_SRC: Channel recorded. -/
def State.FREC_SRC_PCH (s : State) (n : Nat) : Nat := (s.reg (0xE010C + n * 0x20)).fld 0 3

/-- STR_EN of NET_CTRL: Bit k enables stream k. -/
def State.NET_CTRL_STR_EN (s : State) : Nat := (s.reg (0xF0040)).fld 8 8

/-- FWD_10 of NET_CTRL: Forward SG_1 to SG_0 (R387). -/
def State.NET_CTRL_FWD_10 (s : State) : Nat := (s.reg (0xF0040)).fld 5 1

/-- FWD_01 of NET_CTRL: Forward SG_0 to SG_1. -/
def State.NET_CTRL_FWD_01 (s : State) : Nat := (s.reg (0xF0040)).fld 4 1

/-- PORT_EN of NET_CTRL: Bit n enables SG_n. -/
def State.NET_CTRL_PORT_EN (s : State) : Nat := (s.reg (0xF0040)).fld 0 2

/-- MAC_LO of NET_MAC_LO: Unicast address bytes 2–5, byte 2 in [31:24]. -/
def State.NET_MAC_LO_MAC_LO (s : State) : Nat := (s.reg (0xF0044)).fld 0 32

/-- MAC_HI of NET_MAC_HI: Bytes 0–1, byte 0 (first sent) in [15:8]. -/
def State.NET_MAC_HI_MAC_HI (s : State) : Nat := (s.reg (0xF0048)).fld 0 16

/-- PRIO2 of NET_PTP_CFG: priority2. -/
def State.NET_PTP_CFG_PRIO2 (s : State) : Nat := (s.reg (0xF004C)).fld 24 8

/-- PRIO1 of NET_PTP_CFG: priority1; 255 = not grandmaster-capable. -/
def State.NET_PTP_CFG_PRIO1 (s : State) : Nat := (s.reg (0xF004C)).fld 16 8

/-- LOG_PDLY of NET_PTP_CFG: Signed log2 interval. -/
def State.NET_PTP_CFG_LOG_PDLY (s : State) : Nat := (s.reg (0xF004C)).fld 12 4

/-- LOG_SYNC of NET_PTP_CFG: Signed log2 interval (−3). -/
def State.NET_PTP_CFG_LOG_SYNC (s : State) : Nat := (s.reg (0xF004C)).fld 8 4

/-- ROLE_1 of NET_PTP_CFG: 0 = disabled, 1 = slave, 2 = master, 3 = passive. -/
def State.NET_PTP_CFG_ROLE_1 (s : State) : Nat := (s.reg (0xF004C)).fld 3 2

/-- ROLE_0 of NET_PTP_CFG: As ROLE_1. -/
def State.NET_PTP_CFG_ROLE_0 (s : State) : Nat := (s.reg (0xF004C)).fld 1 2

/-- EXT_CFG of NET_PTP_CFG: External port configuration (R384). -/
def State.NET_PTP_CFG_EXT_CFG (s : State) : Nat := (s.reg (0xF004C)).fld 0 1

/-- PDLY_THR of NET_PTP_THR: neighborPropDelayThresh, ns. -/
def State.NET_PTP_THR_PDLY_THR (s : State) : Nat := (s.reg (0xF0050)).fld 0 16

/-- CTL_EN of NET_CTL_ETYPE: Control frames to Q_49 + n (R391). -/
def State.NET_CTL_ETYPE_CTL_EN (s : State) : Nat := (s.reg (0xF0054)).fld 16 1

/-- CTL_ETYPE of NET_CTL_ETYPE: EtherType. -/
def State.NET_CTL_ETYPE_CTL_ETYPE (s : State) : Nat := (s.reg (0xF0054)).fld 0 16

/-- RX_LAT of NET_PORT_n_LAT: PHY receive latency, ns. -/
def State.NET_PORT_LAT_RX_LAT (s : State) (n : Nat) : Nat := (s.reg (0xF0100 + n * 0x20)).fld 16 16

/-- TX_LAT of NET_PORT_n_LAT: PHY transmit latency, ns. -/
def State.NET_PORT_LAT_TX_LAT (s : State) (n : Nat) : Nat := (s.reg (0xF0100 + n * 0x20)).fld 0 16

/-- PCP_B of NET_PORT_n_CLASS: Class B PCP. -/
def State.NET_PORT_CLASS_PCP_B (s : State) (n : Nat) : Nat := (s.reg (0xF0104 + n * 0x20)).fld 4 3

/-- PCP_A of NET_PORT_n_CLASS: Class A PCP. -/
def State.NET_PORT_CLASS_PCP_A (s : State) (n : Nat) : Nat := (s.reg (0xF0104 + n * 0x20)).fld 0 3

/-- IDLE_B of NET_PORT_n_CBS: idleSlope, 100 kb/s (R388). -/
def State.NET_PORT_CBS_IDLE_B (s : State) (n : Nat) : Nat := (s.reg (0xF0108 + n * 0x20)).fld 16 16

/-- IDLE_A of NET_PORT_n_CBS: idleSlope, 100 kb/s. -/
def State.NET_PORT_CBS_IDLE_A (s : State) (n : Nat) : Nat := (s.reg (0xF0108 + n * 0x20)).fld 0 16

/-- VID of NET_STR_k_CFG: VLAN ID. -/
def State.NET_STR_CFG_VID (s : State) (n : Nat) : Nat := (s.reg (0xF0200 + n * 0x20)).fld 16 12

/-- QUEUE of NET_STR_k_CFG: Source queue. -/
def State.NET_STR_CFG_QUEUE (s : State) (n : Nat) : Nat := (s.reg (0xF0200 + n * 0x20)).fld 4 6

/-- CLASS of NET_STR_k_CFG: 0 = A, 1 = B. -/
def State.NET_STR_CFG_CLASS (s : State) (n : Nat) : Nat := (s.reg (0xF0200 + n * 0x20)).fld 2 1

/-- PORTS of NET_STR_k_CFG: Bit n: send on SG_n. -/
def State.NET_STR_CFG_PORTS (s : State) (n : Nat) : Nat := (s.reg (0xF0200 + n * 0x20)).fld 0 2

/-- DST of NET_STR_k_DST_HI: Destination bytes 0–1, as MAC_HI. -/
def State.NET_STR_DST_HI_DST (s : State) (n : Nat) : Nat := (s.reg (0xF0204 + n * 0x20)).fld 0 16

/-- DST of NET_STR_k_DST_LO: Bytes 2–5. -/
def State.NET_STR_DST_LO_DST (s : State) (n : Nat) : Nat := (s.reg (0xF0208 + n * 0x20)).fld 0 32

/-- SID of NET_STR_k_SID_HI: stream_id, upper word. -/
def State.NET_STR_SID_HI_SID (s : State) (n : Nat) : Nat := (s.reg (0xF020C + n * 0x20)).fld 0 32

/-- SID of NET_STR_k_SID_LO: Lower word. -/
def State.NET_STR_SID_LO_SID (s : State) (n : Nat) : Nat := (s.reg (0xF0210 + n * 0x20)).fld 0 32

/-- MAX_BYTES of NET_STR_k_TIM: Frame data limit; values above 1,476 act as 1,476. -/
def State.NET_STR_TIM_MAX_BYTES (s : State) (n : Nat) : Nat := (s.reg (0xF0214 + n * 0x20)).fld 16 11

/-- MAX_LAT_US of NET_STR_k_TIM: Build latency, µs; 0 acts as 1. -/
def State.NET_STR_TIM_MAX_LAT_US (s : State) (n : Nat) : Nat := (s.reg (0xF0214 + n * 0x20)).fld 0 16

/-- PRES_OFS of NET_STR_k_PRES: Signed ns (Table 17.3). -/
def State.NET_STR_PRES_PRES_OFS (s : State) (n : Nat) : Nat := (s.reg (0xF0218 + n * 0x20)).fld 0 32

/-- STALL_US of QUE_GLB_CFG: YARD_STALL threshold in µs (R417); 0 acts as 1. -/
def State.QUE_GLB_CFG_STALL_US (s : State) : Nat := (s.reg (0x100040)).fld 16 16

/-- MSG_Q of QUE_GLB_CFG: Notice queue (R421). -/
def State.QUE_GLB_CFG_MSG_Q (s : State) : Nat := (s.reg (0x100040)).fld 0 6

/-- QUEUE of QUE_SNAP_m_CFG: Target queue of source m, m = 0–11 (R418). -/
def State.QUE_SNAP_CFG_QUEUE (s : State) (n : Nat) : Nat := (s.reg (0x100080 + n * 0x4)).fld 16 6

/-- DIV of QUE_SNAP_m_CFG: Ticks per periodic snapshot; 0 = off. -/
def State.QUE_SNAP_CFG_DIV (s : State) (n : Nat) : Nat := (s.reg (0x100080 + n * 0x4)).fld 0 16

/-- BASE of QUE_q_BASE: Ring offset from 0x1000_0000 (R405). -/
def State.QUE_BASE_BASE (s : State) (n : Nat) : Nat := (s.reg (0x100100 + n * 0x40)).fld 0 19

/-- SIZE of QUE_q_SIZE: Ring length in bytes. -/
def State.QUE_SIZE_SIZE (s : State) (n : Nat) : Nat := (s.reg (0x100104 + n * 0x40)).fld 0 20

/-- THR of QUE_q_CFG: Record threshold (R420). -/
def State.QUE_CFG_THR (s : State) (n : Nat) : Nat := (s.reg (0x100108 + n * 0x40)).fld 16 16

/-- DROP_IRQ of QUE_q_CFG: A drop activates the interrupt. -/
def State.QUE_CFG_DROP_IRQ (s : State) (n : Nat) : Nat := (s.reg (0x100108 + n * 0x40)).fld 8 1

/-- ROUTE of QUE_q_CFG: R420, R421. -/
def State.QUE_CFG_ROUTE (s : State) (n : Nat) : Nat := (s.reg (0x100108 + n * 0x40)).fld 4 4

/-- PROD_FW of QUE_q_CFG: QPUSH allowed (R415). -/
def State.QUE_CFG_PROD_FW (s : State) (n : Nat) : Nat := (s.reg (0x100108 + n * 0x40)).fld 2 1

/-- POLICY of QUE_q_CFG: 0 = HOLD, 1 = DROP (R409). -/
def State.QUE_CFG_POLICY (s : State) (n : Nat) : Nat := (s.reg (0x100108 + n * 0x40)).fld 1 1

/-- EN of QUE_q_CFG: Queue enabled. -/
def State.QUE_CFG_EN (s : State) (n : Nat) : Nat := (s.reg (0x100108 + n * 0x40)).fld 0 1

/-- AGE_US of QUE_q_CTRL: Age limit in µs; 0 = off. -/
def State.QUE_CTRL_AGE_US (s : State) (n : Nat) : Nat := (s.reg (0x10010C + n * 0x40)).fld 16 16

/-- OPP_TGT of PWR_OPP: Target operating point. -/
def State.PWR_OPP_OPP_TGT (s : State) : Nat := (s.reg (0x10048)).fld 0 2

/-- BANK of PWR_VOTE_HOST: Bit 8 + b: MEM bank b. -/
def State.PWR_VOTE_HOST_BANK (s : State) : Nat := (s.reg (0x1004C)).fld 8 8

/-- NET of PWR_VOTE_HOST: NET; on the HL8640-QB, stored only (R2). -/
def State.PWR_VOTE_HOST_NET (s : State) : Nat := (s.reg (0x1004C)).fld 2 1

/-- HALF of PWR_VOTE_HOST: Bit 0: H0; bit 1: H1. -/
def State.PWR_VOTE_HOST_HALF (s : State) : Nat := (s.reg (0x1004C)).fld 0 2

/-- LK_AUX_EN of PWR_WAKE_CFG: LK_AUX wakes (R440). -/
def State.PWR_WAKE_CFG_LK_AUX_EN (s : State) : Nat := (s.reg (0x10070)).fld 7 1

/-- LK_MOVE_EN of PWR_WAKE_CFG: LK_MOVE wakes (R440). -/
def State.PWR_WAKE_CFG_LK_MOVE_EN (s : State) : Nat := (s.reg (0x10070)).fld 6 1

/-- LK_FWAKE of PWR_WAKE_CFG: LK_FAULT wakes (R439). -/
def State.PWR_WAKE_CFG_LK_FWAKE (s : State) : Nat := (s.reg (0x10070)).fld 5 1

/-- ALARM_WAKE_EN of PWR_WAKE_CFG: Table 19.6. -/
def State.PWR_WAKE_CFG_ALARM_WAKE_EN (s : State) : Nat := (s.reg (0x10070)).fld 4 1

/-- NET_WAKE_EN of PWR_WAKE_CFG: Listen mode (R443). -/
def State.PWR_WAKE_CFG_NET_WAKE_EN (s : State) : Nat := (s.reg (0x10070)).fld 3 1

/-- HOST_WAKE_EN of PWR_WAKE_CFG: Table 19.6. -/
def State.PWR_WAKE_CFG_HOST_WAKE_EN (s : State) : Nat := (s.reg (0x10070)).fld 2 1

/-- WAKE_POL of PWR_WAKE_CFG: Inactive level of WAKE_IN: 0 = low. -/
def State.PWR_WAKE_CFG_WAKE_POL (s : State) : Nat := (s.reg (0x10070)).fld 1 1

/-- WAKE_IN_EN of PWR_WAKE_CFG: Table 19.6. -/
def State.PWR_WAKE_CFG_WAKE_IN_EN (s : State) : Nat := (s.reg (0x10070)).fld 0 1

/-- ALARM of PWR_ALARM_LO: Alarm count, low word. -/
def State.PWR_ALARM_LO_ALARM (s : State) : Nat := (s.reg (0x10088)).fld 0 32

/-- ALARM_EN of PWR_ALARM_HI: Alarm armed; cleared when it fires. -/
def State.PWR_ALARM_HI_ALARM_EN (s : State) : Nat := (s.reg (0x1008C)).fld 31 1

/-- ALARM of PWR_ALARM_HI: High bits; a write commits both words. -/
def State.PWR_ALARM_HI_ALARM (s : State) : Nat := (s.reg (0x1008C)).fld 0 16

/-- LK_PER_MS of PWR_LK_CFG: Cycle period, ms; 0 acts as 1. -/
def State.PWR_LK_CFG_LK_PER_MS (s : State) : Nat := (s.reg (0x100A0)).fld 16 16

/-- LK_AUX_DIV of PWR_LK_CFG: Cycles per slot visit; 0 = none. -/
def State.PWR_LK_CFG_LK_AUX_DIV (s : State) : Nat := (s.reg (0x100A0)).fld 8 4

/-- LK_NPER of PWR_LK_CFG: Measured periods, 4–63; below 4 acts as 4. -/
def State.PWR_LK_CFG_LK_NPER (s : State) : Nat := (s.reg (0x100A0)).fld 2 6

/-- LK_CH of PWR_LK_CFG: Channel PCH_0–PCH_3. -/
def State.PWR_LK_CFG_LK_CH (s : State) : Nat := (s.reg (0x100A0)).fld 0 2

/-- LK_SLOT of PWR_LK_EXC: Auxiliary slot. -/
def State.PWR_LK_EXC_LK_SLOT (s : State) : Nat := (s.reg (0x100A4)).fld 16 4

/-- LK_LVL of PWR_LK_EXC: Level, 10 mV peak-to-peak differential. -/
def State.PWR_LK_EXC_LK_LVL (s : State) : Nat := (s.reg (0x100A4)).fld 0 12

/-- LK_WIN of PWR_LK_WIN: Displacement limit, 2^-12 e-turn (R437). -/
def State.PWR_LK_WIN_LK_WIN (s : State) : Nat := (s.reg (0x100A8)).fld 16 16

/-- LK_DWIN of PWR_LK_WIN: Within-cycle limit, 2^-16 e-turn. -/
def State.PWR_LK_WIN_LK_DWIN (s : State) : Nat := (s.reg (0x100A8)).fld 0 16

/-- LK_AHI of PWR_LK_AHI: Upper limit on P, signed (R438). -/
def State.PWR_LK_AHI_LK_AHI (s : State) : Nat := (s.reg (0x100AC)).fld 0 24

/-- LK_ALO of PWR_LK_ALO: Lower limit on P, signed. -/
def State.PWR_LK_ALO_LK_ALO (s : State) : Nat := (s.reg (0x100B0)).fld 0 24

/-- LK_AMIN of PWR_LK_AMIN: Amplitude floor, 4,096 = range peak (R439). -/
def State.PWR_LK_AMIN_LK_AMIN (s : State) : Nat := (s.reg (0x100B4)).fld 0 12

/-- UNLK_MS of SYS_UNLOCK_CFG: Unlock duration in ms; 0 acts as 1. -/
def State.SYS_UNLOCK_CFG_UNLK_MS (s : State) : Nat := (s.reg (0x70)).fld 0 16

end Sys2Proof.Machine
end

