-- ==== Sys2Proof/Machine/Trig.lean ====
section
/-! DEFINITION. Real arithmetic on rationals (assumption 4): sine, cosine, atan2 and square root. The spec states these
functions and not how the device computes them, so each is an opaque value of Config held to a stated distance from
the true function. -/

namespace Sys2Proof.Machine

/-- π to 32 decimals. -/
def piQ : Rat := 314159265358979323846264338327950 / 10 ^ 32

/-- `x` reduced to [0, 1) (wrap01 of R151). -/
def wrap01 (x : Rat) : Rat := x - (x.floor : Rat)

/-- `x` reduced to [−0.5, +0.5) (wrap_pm_half of R151). -/
def wrapHalf (x : Rat) : Rat := wrap01 (x + 1 / 2) - 1 / 2

/-- `x` held between `lo` and `hi`. -/
def clampRat (lo hi x : Rat) : Rat := if x < lo then lo else if hi < x then hi else x

/-- The terms t − t³/3! + … of the sine series, `k` of them from term number `i` on, the next term being `term`. -/
def sinSeries (t2 term : Rat) (i : Nat) : Nat → Rat
  | 0 => 0
  | k + 1 => term + sinSeries t2 (-term * t2 / ((2 * i + 2) * (2 * i + 3))) (i + 1) k

/-- Sine of `x` turns by its series, within 2^-40. -/
def sinApprox (x : Rat) : Rat :=
  let t := 2 * piQ * wrapHalf x
  sinSeries (t * t) t 0 16

/-- Sine of `x` turns as the device computes it, within 2^-20 of the true sine (assumption 4). -/
def sinT (x : Rat) : Rat :=
  clampRat (sinApprox x - 1 / 2 ^ 20) (sinApprox x + 1 / 2 ^ 20) (Config.sinRaw (wrap01 x))

/-- Cosine of `x` turns. -/
def cosT (x : Rat) : Rat := sinT (x + 1 / 4)

/-- Euler's series of the arctangent, `k` terms. -/
def atanSeries (y term : Rat) (n : Nat) : Nat → Rat
  | 0 => 0
  | k + 1 => term + atanSeries y (term * y * (2 * n + 2) / (2 * n + 3)) (n + 1) k

/-- Arctangent of `z`, |z| ≤ 1, in turns. -/
def atanUnit (z : Rat) : Rat :=
  let y := z * z / (1 + z * z)
  if z = 0 then 0 else atanSeries y (z / (1 + z * z)) 0 32 / (2 * piQ)

/-- atan2 of `y` and `x` in turns, in (−0.5, 0.5], by series; 0 at the origin. -/
def atanApprox (y x : Rat) : Rat :=
  if x = 0 ∧ y = 0 then 0
  else if |y| ≤ |x| then
    (if 0 < x then atanUnit (y / x) else if 0 ≤ y then 1 / 2 + atanUnit (y / x) else atanUnit (y / x) - 1 / 2)
  else (if 0 < y then 1 / 4 - atanUnit (x / y) else -(1 / 4) - atanUnit (x / y))

/-- atan2 in turns as the device computes it, within 1/54,000 turn, the converter error of R476 (assumption 4). -/
def atanT (y x : Rat) : Rat :=
  clampRat (atanApprox y x - 1 / 54000) (atanApprox y x + 1 / 54000) (Config.atanRaw y x)

/-- Square root as the device computes it, to within 2^-24 below or above (assumption 4); 0 for a negative number. -/
def sqrtT (x : Rat) : Rat :=
  let n : Rat := (Nat.sqrt (x * 2 ^ 48).floor.toNat : Nat)
  if x ≤ 0 then 0 else clampRat (n / 2 ^ 24) ((n + 1) / 2 ^ 24) (Config.sqrtRaw x)

/-- `x` rounded to the nearest integer; at an exact half either neighbour (assumption 3). -/
def roundNear (point : Nat) (x : Rat) : Int :=
  let lo := (x + 1 / 2).floor
  if (lo : Rat) - 1 / 2 = x ∧ Config.roundUp point x = false then lo - 1 else lo

/-- `x` as an integer: one of the two neighbours where the spec does not state the rounding (assumption 3). -/
def roundFree (point : Nat) (x : Rat) : Int :=
  if (x.floor : Rat) = x then x.floor
  else if Config.roundUp point x then x.floor + 1 else x.floor

end Sys2Proof.Machine
end

