-- ==== Sys2Proof/Machine/Ops.lean ====
section
/-! DEFINITION. The operations every block shares: the clock and TIME, domains, authority and the safe-state voter,
and offering a record to a queue. -/

namespace Sys2Proof.Machine

/-! ## Outcomes -/

/-- A meaning that completes. -/
abbrev Done := Host.Outcome State Fault Refusal

/-- The outcome of a register write: the next state, with the status the write completes with (R9). -/
def finish (r : Status × State) : Done := .next { r.2 with wst := r.1 }

/-- A write that completes with status `st` and changes nothing else. -/
def State.only (s : State) (st : Status) : Status × State := (st, s)

/-! ## Clock and TIME -/

/-- What TIME advances in one TCLK cycle at rate adjustment `r`, in 2^-32 ns (R377): 2.5 × (1 + r × 2^-40) ns. The spec does not say
how that is rounded into the 32-bit fraction: either neighbour (DESIGN CHOICE, assumption 19). -/
def timeStepOf (r : Int) : Int := 5 * 2 ^ 31 + roundFree 52 (5 * (r : Rat) / 512)

/-- TIME advanced over `k` TCLK cycles at rate adjustment `r`, in 2^-32 ns (R377). The count wraps at 2^64 ns. -/
def timeAdd (t : Nat) (r : Int) (k : Nat) : Nat := wrapInt 96 ((t : Int) + (k : Int) * timeStepOf r)

/-- The parts of an RTC tick that `Clk.rtc` counts. -/
def rtcUnit : Nat := 39062500

/-- What the RTC counts in one TCLK cycle: 3,200 parts from the crystal, 32.768 kHz; from the low-power RC oscillator a free
value within 15 % of 32 kHz (R70, DESIGN CHOICE, assumption 34); nothing without VAON (R69). -/
def State.rtcRate (s : State) : Nat :=
  if !s.rails.vaon then 0
  else if s.sys.rtcLprc then 2657 + Config.freeBits 62 s.clk.cyc % 937
  else 3200

/-- `k` TCLK cycles pass, in each of which the RTC counts `r` parts. -/
def Clk.run (c : Clk) (r k : Nat) : Clk :=
  { c with cyc := c.cyc + k, time := timeAdd c.time c.rate k, rtc := c.rtc + r * k }

/-- The time of `k` TCLK cycles passes while CORE is off: the RTC runs, TIME stands still (R447). -/
def Clk.rest (c : Clk) (r k : Nat) : Clk := { c with cyc := c.cyc + k, rtc := c.rtc + r * k }

/-- `k` TCLK cycles pass. -/
def State.wait (s : State) (k : Nat) : State :=
  { s with clk := if s.pwr.core == .off then s.clk.rest s.rtcRate k else s.clk.run s.rtcRate k }

/-- The TCLK cycles until the RTC has counted `n` more parts of a tick. -/
def State.cyclesFor (s : State) (n : Nat) : Nat := (n + s.rtcRate - 1) / s.rtcRate

/-- The clock moved on to cycle `t`, if it is not there yet. -/
def State.waitTill (s : State) (t : Nat) : State := s.wait (t - s.clk.cyc)

/-- The TIME value: the integer part of the counter (R377). -/
def State.now (s : State) : BitVec 64 := BitVec.ofNat 64 (s.clk.time / 2 ^ 32)

/-- TIME as it stood, or will stand, `k` cycles from now, by the present relation between TIME and cycles (R378). -/
def State.timeAt (s : State) (k : Int) : Nat := wrapInt 96 ((s.clk.time : Int) + k * timeStepOf s.clk.rate)

/-- The cycles in which TIME makes `d` units of 2^-32 ns, by the present relation between TIME and cycles (R378). -/
def State.cyclesOf (s : State) (d : Int) : Rat := (d : Rat) / timeStepOf s.clk.rate

/-- The RTC count: 48 bits of 32.768 kHz ticks (Table 19.10). -/
def State.rtcNow (s : State) : BitVec 48 := BitVec.ofNat 48 (s.clk.rtc / rtcUnit)

/-- TCLK cycles of `us` microseconds (R22). -/
def usCyc (us : Nat) : Nat := 400 * us

/-- A drawn free value: the counter that makes each draw its own moves on. -/
def State.draw (s : State) : State := { s with free := s.free + 1 }

/-! ## Domains -/

/-- A domain counts as on when its supply is up (R426, R427). -/
def DomSt.isOn : DomSt → Bool
  | .on => true
  | _ => false

/-- Half `h` is on. -/
def State.halfOn (s : State) (h : Half) : Bool := (s.pwr.half.get h).isOn

/-- CORE is on. -/
def State.coreOn (s : State) : Bool := s.pwr.core.isOn

/-- NET is present and on (R2). -/
def State.netOn (s : State) : Bool := !s.qb && s.pwr.net.isOn

/-- Bank `b` is on and initialised (R427). -/
def State.bankOn (s : State) (b : Fin 8) : Bool := s.pwr.bank[b].isOn && s.pwr.bankInit.getLsbD b.val

/-- The device has released and is in RUN or DOZE (Table 19.2). -/
def State.inRun (s : State) : Bool := s.boot.released && (s.pwr.st == .run || s.pwr.st == .doze)

/-- The analogue supply of half `h` is good (R57). -/
def State.vddaGood (s : State) : Half → Bool
  | .h0 => s.rails.vdda0
  | .h1 => s.rails.vdda1

/-- ROUT_n drives: enabled, its half on, its analogue supply good, the device released (R336, R57). -/
def State.routOn (s : State) (n : Fin 2) : Bool :=
  s.inRun && s.AUX_ROUT_CFG_EN n.val == 1 && s.halfOn (Half.byNum n.val) && s.vddaGood (Half.byNum n.val)

/-- The copy of a duplicated register that a read shows (assumption 9): H0's while H0 is on, else H1's; a half that has
returned and awaits its PAD_RELEASE gives way to the other. -/
def State.lead (s : State) : Half :=
  if s.halfOn .h0 && (!s.pwr.padOpen.h0 || !s.halfOn .h1 || s.pwr.padOpen.h1) then .h0 else .h1

/-- The half of channel PCH_n (Table 1.1). -/
def pchHalf (n : Nat) : Half := if n < 4 then .h0 else .h1

/-- The half of EXC_n and of DCH_n (Table 1.1). -/
def excHalf (n : Nat) : Half := if n < 2 then .h0 else .h1

/-! ## Authority -/

/-- HOLDER_n (R245). -/
inductive Holder | none | h0 | h1 | both
  deriving DecidableEq, Repr

/-- Half `h` takes drive `d` over and its claim has become valid, 400 ns after the start of the handover (Table 10.1). -/
def State.claimsToo (s : State) (d : Drive) (h : Half) : Bool :=
  let x := s.xd[d]
  x.busy && x.taking == some h && x.takeCause != 2 && !x.conflict && s.clk.cyc == x.takeAt + 160

/-- Half `h` claims drive `d` validly: its rails claim and its domain is on (R245). -/
def State.claims (s : State) (d : Drive) (h : Half) : Bool :=
  (s.xd[d].claim.get h || s.claimsToo d h) && s.halfOn h

/-- Which halves claim drive `d` validly (R245). -/
def State.holder (s : State) (d : Drive) : Holder :=
  match s.claims d .h0, s.claims d .h1 with
  | true, false => .h0
  | false, true => .h1
  | false, false => .none
  | true, true => .both

/-- The single holder of drive `d`, if there is one. -/
def State.holderHalf (s : State) (d : Drive) : Option Half :=
  match s.holder d with
  | .h0 => some .h0
  | .h1 => some .h1
  | _ => none

/-- Half `h` is the single holder of drive `d`. -/
def State.holds (s : State) (d : Drive) (h : Half) : Bool := s.holderHalf d == some h

/-- The copy whose registers govern drive `d` where there is one of each kind (R28): that of the single holder. -/
def State.copyOf (s : State) (d : Drive) : Half := (s.holderHalf d).getD s.lead

/-- The copy of the scheduler that drives output AEV_n (R28, R49): that of the half which holds the drive its own AEV_n_CFG names;
where both or none do, the leading one. -/
def State.outHalf (s : State) (n : Fin 8) : Half :=
  let own (h : Half) : Bool := s.holds (Fin.ofNat 2 (s.AEV_CFG_DRIVE h n.val)) h
  match own .h0, own .h1 with
  | true, false => .h0
  | false, true => .h1
  | _, _ => s.lead

/-- DRIVE and POL of output AEV_n. -/
def State.outDrive (s : State) (n : Fin 8) : Drive := Fin.ofNat 2 (s.AEV_CFG_DRIVE (s.outHalf n) n.val)
def State.outPol (s : State) (n : Fin 8) : Bool := s.AEV_CFG_POL (s.outHalf n) n.val == 1

/-- HO_EN: SRC_A and SRC_B of the drive lie in different halves (R234). -/
def State.hoEn (s : State) (d : Drive) : Bool :=
  pchHalf (s.XMON_CFG_SRC_A s.lead d.val) != pchHalf (s.XMON_CFG_SRC_B s.lead d.val)

/-- The channel of half `h` for drive `d`, if the half holds one; SRC_A when both lie in it (R234). -/
def State.ownChan (s : State) (d : Drive) (h : Half) : Option (Fin 8) :=
  let a := s.XMON_CFG_SRC_A h d.val
  let b := s.XMON_CFG_SRC_B h d.val
  if pchHalf a = h then some (Fin.ofNat 8 a) else if pchHalf b = h then some (Fin.ofNat 8 b) else none

/-- The active source of drive `d`: the channel in the holder's half, or SRC_A while handover is disabled (R234);
none while HOLDER_d names no single half (R241). -/
def State.activeSrc (s : State) (d : Drive) : Option (Fin 8) :=
  match s.holderHalf d with
  | none => none
  | some h => if s.hoEn d then s.ownChan d h else some (Fin.ofNat 8 (s.XMON_CFG_SRC_A h d.val))

/-- PCH_n is SRC_A or SRC_B of drive `d` (R349). -/
def State.names (s : State) (d : Drive) (n : Nat) : Bool :=
  s.XMON_CFG_SRC_A s.lead d.val == n || s.XMON_CFG_SRC_B s.lead d.val == n

/-- Tag bits (Table 0.4). -/
def tagValid (t : BitVec 8) : Bool := t.getLsbD 0
def tagCoast (t : BitVec 8) : Bool := t.getLsbD 1
def tagAcq (t : BitVec 8) : Bool := t.getLsbD 2
def tagUncert (t : BitVec 8) : Bool := t.getLsbD 4

/-! ## Safe state and the voter -/

/-- The form half `h` takes for drive `d` at speed `|ω|` (R304); `true` is ASC. -/
def State.formOf (s : State) (d : Drive) (h : Half) : Bool :=
  let mode := if d = 0 then s.SDM_GLB_CFG_SAFE_MODE_0 h else s.SDM_GLB_CFG_SAFE_MODE_1 h
  let fb := decide ((if d = 0 then s.SDM_GLB_CFG_FB_FORM_0 h else s.SDM_GLB_CFG_FB_FORM_1 h) = 1)
  match mode with
  | 0 => false
  | 2 =>
    match s.ownChan d h with
    | none => fb
    | some n =>
      let p := s.pch[n].pub
      if tagValid p.tag then
        let w := p.spd.natAbs
        let on := s.SDM_ASC_SPD_ASC_ON h d.val
        let off := min on (s.SDM_ASC_SPD_ASC_OFF h d.val)
        if on * 65536 ≤ w then true
        else if w < off * 65536 then false
        else s.safe[d].form.get h
      else fb
  | _ => true

/-- The vote of a half on a pin (Table 13.4). -/
inductive Vote | assert | release | neither
  deriving DecidableEq, Repr

/-- REL_GAP of drive `d` runs (R308). -/
def State.gapOn (s : State) (d : Drive) : Bool := (s.safe[d].gapUntil).isSome

/-- Half `h` drives its inputs of the voter: the device has released, and the half is on (R43, R45). -/
def State.votesPins (s : State) (h : Half) : Bool := s.boot.released && s.halfOn h

/-- The vote of half `h` on SAFE_INH_d (Table 13.4, R308); a half that is off gives none, and none does before release
(R43, R45). -/
def State.voteInh (s : State) (d : Drive) (h : Half) : Vote :=
  if !s.votesPins h then .neither
  else if s.safe[d].ssl.get h then .assert
  else if s.holds d h && s.safe[d].rel then (if s.gapOn d then .assert else .release)
  else .neither

/-- The vote of half `h` on SAFE_ASC_d (Table 13.4). -/
def State.voteAsc (s : State) (d : Drive) (h : Half) : Vote :=
  if !s.votesPins h then .neither
  else if s.safe[d].ssl.get h then
    (if s.safe[d].form.get h then .assert else if s.holds d h then .release else .neither)
  else if s.holds d h && s.safe[d].rel then .release
  else .neither

/-- The vote of half `h` on DIS_REQ as holder of drive `d` (R309). -/
def State.voteDis (s : State) (d : Drive) (h : Half) : Vote :=
  if !s.votesPins h then .neither
  else if s.sdm.dis.get h then .assert
  else if s.holds d h then .release
  else .neither

/-- The voter on one pin (R45): asserted if any half asserts, else released if `rel`, else the present state is
kept from `now` on until the hold time ends. `a` is the sinking state of the asserted pin. -/
def VPin.vote (p : VPin) (a : Bool) (asserted rel : Bool) (now : Nat) : VPin :=
  if asserted then { sink := a, holdUntil := none }
  else if rel then { sink := !a, holdUntil := none }
  else match p.holdUntil with
    | some _ => p
    | none => { p with holdUntil := some now }

/-- The safe-state pins follow the votes (R29, R45). In boundary-scan mode every pin is asserted (R46). -/
def State.voteAll (s : State) : State :=
  let anyInh (d : Drive) := decide (s.voteInh d .h0 = .assert) || decide (s.voteInh d .h1 = .assert)
  let relInh (d : Drive) := decide (s.voteInh d .h0 = .release) || decide (s.voteInh d .h1 = .release)
  let anyAsc (d : Drive) := decide (s.voteAsc d .h0 = .assert) || decide (s.voteAsc d .h1 = .assert)
  let relAsc (d : Drive) := decide (s.voteAsc d .h0 = .release) || decide (s.voteAsc d .h1 = .release)
  let relDis (d : Drive) := decide (s.voteDis d .h0 = .release) || decide (s.voteDis d .h1 = .release)
  let anyDis := decide (s.voteDis 0 .h0 = .assert) || decide (s.voteDis 0 .h1 = .assert)
  let t := s.clk.cyc
  { s with pads := { s.pads with
      inh := Vector.ofFn fun d => s.pads.inh[d].vote false (s.sys.scan || anyInh d) (relInh d) t
      asc := Vector.ofFn fun d => s.pads.asc[d].vote true (s.sys.scan || anyAsc d) (relAsc d) t
      dis := s.pads.dis.vote true (s.sys.scan || anyDis) (relDis 0 && relDis 1) t } }

/-- Every half's form for every drive brought up to date, and the pins with it (R304, Table 13.7). -/
def State.reform (s : State) : State :=
  let f (d : Drive) : Two Bool := ⟨s.formOf d .h0, s.formOf d .h1⟩
  State.voteAll { s with safe := Vector.ofFn fun d => { s.safe[d] with form := f d } }

/-- The window opened at cycle `t`, to last till cycle `e` (R355). -/
def HoldWin.opened (w : HoldWin) (t e : Nat) : HoldWin :=
  if w.at' = t then { w with till := max w.till e } else { at' := t, was := w.till, till := max w.till e }

/-- The window covers a detection in cycle `t`. -/
def HoldWin.covers (w : HoldWin) (t : Nat) : Bool := decide (t < if w.at' = t then w.was else w.till)

/-- SSL_d set in both halves by a source detected at cycle `t`: REL_d clears, a running gap ends, and the hold-off window of
Table 15.4 opens if the latch was clear (R305, R308, R355). -/
def State.setSslAt (s : State) (d : Drive) (t : Nat) : State :=
  let sd := s.safe[d]
  let wasClear := !(sd.ssl.h0 && sd.ssl.h1)
  let s1 := { s with safe := vset s.safe d { sd with ssl := ⟨true, true⟩, rel := false, gapUntil := none } }
  let s2 := if wasClear then
      { s1 with xd := vupd s1.xd d fun x => { x with holdSsl := x.holdSsl.opened t (t + 2000) } }
    else s1
  s2.reform

/-- SSL_d set by a source detected now. -/
def State.setSsl (s : State) (d : Drive) : State := s.setSslAt d s.clk.cyc

/-! ## Queues -/

/-- Payload bytes padded with zero to a multiple of 8 (R406). -/
def pad8 (b : List Byte) : List Byte := b ++ List.replicate ((8 - b.length % 8) % 8) 0

/-- The ring in force of queue `q` is valid by itself (R405, first three conditions). -/
def Queue.ringShape (q : Queue) : Bool :=
  q.base % 64 == 0 && q.size % 64 == 0 && decide (256 ≤ q.size) && decide (q.size ≤ 524288) &&
    decide (q.base + q.size ≤ 0x80000)

/-- Two rings share a byte. -/
def Queue.overlaps (p q : Queue) : Bool := decide (p.base < q.base + q.size ∧ q.base < p.base + p.size)

/-- EN of QUE_q_CFG. -/
def State.queEn (s : State) (q : Nat) : Bool := s.QUE_CFG_EN q == 1

/-- The ring of queue `q` is valid (R405). -/
def State.ringValid (s : State) (q : Fin 64) : Bool :=
  s.que.q[q].ringShape &&
    (List.finRange 64).all fun r => r == q || !s.queEn r.val || !(s.que.q[q].overlaps s.que.q[r])

/-- RING_BAD of queue `q`: the queue is enabled and its ring is invalid (R405). -/
def State.ringBad (s : State) (q : Fin 64) : Bool := s.queEn q.val && !s.ringValid q

/-- The record limit of a queue (R406). -/
def Queue.limit (q : Queue) : Nat := min 2048 (q.size / 2)

/-- Record length in bytes, frame included (R406). -/
def recLen (payload : List Byte) : Nat := 16 + (pad8 payload).length

/-- Words held by the records in the ring (R410). -/
def Queue.used (q : Queue) : Nat := (q.ring.map fun r => r.len / 8).sum

/-- HELD (R411). -/
def Queue.held (q : Queue) : Nat := q.ring.length + q.staged.length

/-- A record counted as dropped (R411). -/
def Queue.dropOne (q : Queue) : Queue := { q with drop := (q.drop + 1) % 2 ^ 32, dropEv := true }

/-- The sequence numbers as an offer by producer `src` in cycle `t` finds them (R408): of the offers of one cycle those of a higher
SRC come after it. The number it takes, and the queue with the numbers that follow moved on. -/
def Queue.number (q : Queue) (src t : Nat) : Nat × Queue :=
  let same := if q.sameAt = t then q.same else []
  let later := same.countP fun x => decide (src < x)
  let seq := q.nseq - later
  let f (x : Staged) : Staged := if 0 < later ∧ x.cyc = t ∧ src < x.src ∧ seq ≤ x.seq then { x with seq := x.seq + 1 } else x
  (seq, { q with nseq := (q.nseq + 1) % 2 ^ 64, sameAt := t, same := same ++ [src], staged := q.staged.map f })

/-- A record that enters staging in the order of the numbers (R408, R409): of three, the last is dropped. -/
def Queue.enter (q : Queue) (x : Staged) : Queue :=
  let l := (q.staged.takeWhile fun y => decide (y.seq < x.seq)) ++ x :: q.staged.dropWhile fun y => decide (y.seq < x.seq)
  if l.length ≤ 2 then { q with staged := l } else Queue.dropOne { q with staged := l.dropLast }

/-- An offer of `payload` by producer `src` to queue `i`, judged under R409; every offer takes the next sequence
number (R408). -/
def State.offerRaw (s : State) (i : Fin 64) (src : Nat) (payload : List Byte) : State :=
  let q := s.que.q[i]
  let n := q.number src s.clk.cyc
  let q2 :=
    if !s.queEn i.val || s.ringBad i || q.halted || decide (q.limit < recLen payload) then n.2.dropOne
    else n.2.enter ⟨n.1, src, payload, s.clk.cyc, s.que.offers⟩
  { s with que := { s.que with q := vset s.que.q i q2, offers := s.que.offers + 1 } }

/-- The oldest record has been in the ring for AGE_US or longer (R420). -/
def State.queAged (s : State) (i : Fin 64) : Bool :=
  let age := s.QUE_CTRL_AGE_US i.val
  match s.que.q[i].ring with
  | [] => false
  | r :: _ => decide (age ≠ 0) && decide (usCyc age ≤ s.clk.cyc - r.cyc)

/-- RECS has reached the threshold (R420). -/
def State.queThr (s : State) (i : Fin 64) : Bool :=
  decide (max 1 (s.QUE_CFG_THR i.val) ≤ s.que.q[i].ring.length)

/-- PEND of queue `i` (R420). -/
def State.quePend (s : State) (i : Fin 64) : Bool := s.queEn i.val && (s.queThr i || s.queAged i)

/-- The interrupt of queue `i` is active (R420). -/
def State.queInt (s : State) (i : Fin 64) : Bool :=
  s.quePend i || (s.que.q[i].dropEv && s.QUE_CFG_DROP_IRQ i.val == 1)

/-- Payload of a notice (Table 18.10). -/
def State.noticeBytes (s : State) (i : Fin 64) : List Byte :=
  let q := s.que.q[i]
  let thr := s.queEn i.val && s.queThr i
  let age := s.queEn i.val && s.queAged i
  let drp := q.dropEv && s.QUE_CFG_DROP_IRQ i.val == 1
  let cause := (if thr then 1 else 0) + (if age then 2 else 0) + (if drp then 4 else 0)
  leBytes 1 i.val ++ leBytes 1 cause ++ leBytes 2 q.ring.length ++ leBytes 4 q.nseq

/-- The interrupt of queue `i` judged again: with ROUTE 8, each time it becomes active a notice goes to MSG_Q,
whose own ROUTE 8 acts as 15 (R421). -/
def State.settle (s : State) (i : Fin 64) : State :=
  let act := s.queInt i
  let m : Fin 64 := Fin.ofNat 64 s.QUE_GLB_CFG_MSG_Q
  let rise := act && !s.que.q[i].intWas
  let s1 := { s with que := { s.que with q := vupd s.que.q i fun q => { q with intWas := act } } }
  if rise && s.QUE_CFG_ROUTE i.val == 8 && i != m then s1.offerRaw m 12 (s.noticeBytes i) else s1

/-- Every queue's interrupt judged again (R420, Table 18.11). -/
def State.settleAll (s : State) : State := (List.finRange 64).foldl (fun st i => st.settle i) s

/-- The level of IRQ_n that the queues ask for (R420). -/
def State.irqLine (s : State) (n : Nat) : Bool :=
  (List.finRange 64).any fun q => s.QUE_CFG_ROUTE q.val == n && s.queInt q

/-- An offer of a record to queue `i` (R409) and the interrupt that may follow. -/
def State.offer (s : State) (i : Fin 64) (src : Nat) (payload : List Byte) : State :=
  (s.offerRaw i src payload).settle i

end Sys2Proof.Machine
end

