-- ==== Sys2Proof/Machine/Flags.lean ====
section
/-! DEFINITION. Fault sources and flags (chapter "Fault detection and reaction"): live and sticky bits, reports and
the Blaze, hold-off, reactions, fault records. -/

namespace Sys2Proof.Machine

/-! ## Headers -/

/-- The header of page `p`. -/
def State.hdr (s : State) (p : Page) : FaultHdr := s.flt[p.idx]

/-- The header of page `p` changed by `f`. -/
def State.updHdr (s : State) (p : Page) (f : FaultHdr → FaultHdr) : State :=
  { s with flt := vupd s.flt p.idx f }

/-- The bits of page `p` that have a source (Table 15.3). -/
def srcMask : Page → Word
  | .sys | .scl | .aux => 0xFFFFFFFF
  | .pwr | .fab | .time | .net => 0x7
  | .boot => 0x3
  | .pch _ => 0x001F03FF
  | .exc => 0x0FFFFFFF
  | .dch => 0x00FFFFFF
  | .xmon => 0x0003FFFF
  | .enc | .aev => 0xFF
  | .sdm => 0x7FFFFFFF
  | .crz => 0xF
  | .que => 0x1F
  | .mem => 0

/-- The sources of page `p` that FLT_FORCE holds live (R362). -/
def State.fltForce (s : State) (p : Page) : Word := s.reg (p.base + 0x10) &&& srcMask p

/-- The sources of a page that are live at an instant of detection which cycle `t` still belongs to (R347). -/
def FaultHdr.evLive (f : FaultHdr) (t : Nat) : Word :=
  f.ev.foldl (fun w e => if t < e.2 then bput w e.1 true else w) 0

/-- The first cycle that no longer belongs to the instant of a detection made now (R347): the next tick for the blocks that
judge by ticks, else the next cycle. -/
def State.eventTill (s : State) (p : Page) : Nat :=
  match p with
  | .pch _ | .scl | .dch | .xmon => (s.clk.cyc / 200 + 1) * 200
  | _ => s.clk.cyc + 1

/-- FLT_MASK of page `p`. -/
def State.fltMask (s : State) (p : Page) : Word := s.reg (p.base + 0x0C)

/-- The live bits the detectors of a page hold, all copies together. -/
def FaultHdr.det (f : FaultHdr) : Word := f.liveSh ||| f.liveH0 ||| f.liveH1

/-- FLT_LIVE (R347, R362). -/
def State.fltLive (s : State) (p : Page) : Word := (s.hdr p).det ||| (s.hdr p).evLive s.clk.cyc ||| s.fltForce p

/-- REACT_b of page `p` (Table 15.1). -/
def State.reactField (s : State) (p : Page) (b : Nat) : Nat :=
  if b < 16 then (s.reg (p.base + 0x14)).fld (2 * b) 2 else (s.reg (p.base + 0x18)).fld (2 * (b - 16)) 2

/-- CHK_REACT of page `p`. -/
def State.chkReact (s : State) (p : Page) : Nat := (s.reg (p.base + 0x3C)).fld 24 2

/-- INV_n of page `p`; 3 acts as 2 (Table 15.1). -/
def State.chkInv (s : State) (p : Page) (n : Nat) : Nat := min 2 ((s.reg (p.base + 0x34)).fld (2 * n) 2)

/-- BLZ_CODE layout without FULL (Table 15.1). -/
def codeWord (p : Page) (num : Nat) : Word := Word.put 16 8 p.blk ||| Word.put 8 8 p.inst ||| Word.put 0 8 num

/-- HALF of BLZ_SRC. -/
def Copy.num : Copy → Nat
  | .shared => 0
  | .h0 => 1
  | .h1 => 2

/-- MASTER of BLZ_SRC (Table 15.1). -/
def masterNum : Master → Nat
  | .detector => 0 | .host => 1 | .yarder => 2 | .net => 3 | .cruise => 4 | .boot => 5 | .force => 6 | .checker => 7

/-! ## Scope and affected drives -/

/-- The active source by which a divergence of drive `d` is judged now: that before the move, in the tick in which the latch
moves (Table 10.2). -/
def State.judgedSrc (s : State) (d : Drive) : Option (Fin 8) :=
  let x := s.xd[d]
  if x.hoCnt ≠ 0 ∧ x.movedAt / 200 = s.clk.cyc / 200 then
    x.wasHeld.bind fun h => if s.hoEn d then s.ownChan d h else some (Fin.ofNat 8 (s.XMON_CFG_SRC_A h d.val))
  else s.activeSrc d

/-- The half of a fault's scope, none for shared (Table 15.3; ACT_BAD and MON_BAD by R241). -/
def State.scope (s : State) (p : Page) (b : Nat) : Option Half :=
  match p with
  | .sys =>
    if b = 8 ∨ b = 10 then some .h0
    else if b = 9 ∨ b = 11 then some .h1
    else if 12 ≤ b ∧ b ≤ 15 then some .h0
    else if 16 ≤ b ∧ b ≤ 19 then some .h1
    else none
  | .pch n => some (pchHalf n.val)
  | .exc => if b < 24 then some (excHalf (b / 6)) else some (if b < 26 then .h0 else .h1)
  | .scl => some (pchHalf (b / 4))
  | .dch => some (excHalf (b / 6))
  | .xmon =>
    let d : Drive := Fin.ofNat 2 (b / 8)
    if b = 2 ∨ b = 10 then (s.judgedSrc d).map fun n => pchHalf n.val
    else if b = 3 ∨ b = 11 then
      (s.judgedSrc d).map fun n => if s.hoEn d then (pchHalf n.val).other else pchHalf n.val
    else none
  | .aux => if b < 16 then some (Half.byNum (s.AUX_CFG_CONV_SEL b)) else none
  | .crz => if b = 0 then some .h0 else if b = 1 then some .h1 else none
  | _ => none

/-- Drive `d` is affected by a fault of the channel `n` (R349). -/
def State.chanDrive (s : State) (n : Nat) (d : Drive) : Bool := s.names d n

/-- Drive `d` is affected by a source of page `p` (R349); a baseband channel depends on no driver (R135). -/
def State.affects (s : State) (p : Page) (b : Nat) (d : Drive) : Bool :=
  match p with
  | .pch n => s.chanDrive n.val d
  | .scl => s.chanDrive (b / 4) d
  | .exc =>
    (List.finRange 8).any fun n =>
      s.chanDrive n.val d && s.PCH_CFG_DEMOD_MODE n.val != 1 &&
        (if b < 24 then s.PCH_CFG_EXC_SEL n.val == b / 6
         else s.PCH_CFG_EXC_SEL n.val / 2 == (if b < 26 then 0 else 1))
  | .dch => let v := s.DCH_CFG_DRIVE (b / 6); v == d.val + 1
  | .enc => (s.enc[Fin.ofNat 4 (b / 2)]).cfg.fld 0 1 == d.val
  | .aev => s.outDrive (Fin.ofNat 8 b) == d
  | .xmon => if b < 16 then b / 8 == d.val else b - 16 == d.val
  | .sdm =>
    if b < 24 then
      (if s.SDM_CFG_ROLE s.lead (b / 3) == 1 then s.SDM_CFG_DRIVE s.lead (b / 3) == d.val else true)
    else if b < 26 then b - 24 == d.val
    else if b < 28 then b - 26 == d.val
    else if b < 30 then b - 28 == d.val
    else true
  | _ => true

/-- The reaction a source of page `p` takes (R348, R350, R354): HI_n, LO_n and STUCK_n act by role, and a source
of shared scope never hands over. -/
def State.reaction (s : State) (p : Page) (b : Nat) : Nat :=
  let r := s.reactField p b
  match p with
  | .sdm =>
    if b < 24 then
      let role := s.SDM_CFG_ROLE s.lead (b / 3)
      let byRole := if r = 2 ∧ ¬(role = 1 ∨ role = 2) then 0 else r
      if b % 3 ≠ 2 ∧ (role = 1 ∨ role = 2) then max 2 byRole else byRole
    else if r = 1 then 2 else r
  | _ => if r = 1 ∧ (s.scope p b).isNone then 2 else r

/-- What reaction code `r` of a source of scope `sc` comes to on drive `d`: a handover is asked for only by the half that holds
the drive, and acts as interrupt only from the other (Tables 10.2, 16.2); where handover is disabled it is drive safe state
(R30), as it is for a shared source (R350). -/
def State.codeOn (s : State) (sc : Option Half) (r : Nat) (d : Drive) : Nat :=
  if r = 1 then
    match sc with
    | none => 2
    | some h => if s.holds d h then (if s.hoEn d then 1 else 2) else 0
  else r

/-- The reaction of a source on drive `d` (R30, Table 10.2). -/
def State.reactionOn (s : State) (p : Page) (b : Nat) (d : Drive) : Nat := s.codeOn (s.scope p b) (s.reaction p b) d

/-- The reaction taken when source `b` of page `p` with code `r` affects the drives `aff` (R348 to R350): none before release
(R352), interrupt only without an affected drive. -/
def State.taken (s : State) (p : Page) (b : Nat) (r : Nat) (aff : Drive → Bool) : Nat :=
  if !s.boot.released then 0
  else if r = 3 then 3
  else max (if aff 0 then s.codeOn (s.scope p b) r 0 else 0) (if aff 1 then s.codeOn (s.scope p b) r 1 else 0)

/-! ## Hold-off (R355 to R357) -/

/-- The window of reactions over source `b` of page `p` (Table 15.4); empty for a source never held. -/
def State.holdWin (s : State) (p : Page) (b : Nat) : HoldWin :=
  match p with
  | .xmon =>
    if b < 16 ∧ (b % 8 = 0 ∨ b % 8 = 1 ∨ b % 8 = 4 ∨ b % 8 = 5) then (s.xd[Fin.ofNat 2 (b / 8)]).holdHo else {}
  | .enc => if b < 8 ∧ b % 2 = 0 then (s.xd[Fin.ofNat 2 ((s.enc[Fin.ofNat 4 (b / 2)]).cfg.fld 0 1)]).holdHo else {}
  | .aev => if b < 8 then (s.xd[s.outDrive (Fin.ofNat 8 b)]).holdHo else {}
  | .sdm =>
    if b = 24 ∨ b = 25 then (s.xd[Fin.ofNat 2 (b - 24)]).holdSsl
    else if b = 26 ∨ b = 27 then (s.xd[Fin.ofNat 2 (b - 26)]).holdSsl
    else if b = 28 ∨ b = 29 then (s.xd[Fin.ofNat 2 (b - 28)]).holdSsl
    else {}
  | _ => {}

/-- The end of the window that a channel loss opens over source `b` of page `p` (Table 15.4). -/
def State.lossEnd (s : State) (p : Page) (b : Nat) : Nat :=
  if p = .xmon ∧ b < 16 ∧ (b % 8 = 0 ∨ b % 8 = 1 ∨ b % 8 = 4) then (s.xd[Fin.ofNat 2 (b / 8)]).holdLoss else 0

/-- The cycle at which the hold-off over source `b` of page `p` ends. -/
def State.holdEnd (s : State) (p : Page) (b : Nat) : Nat := max (s.holdWin p b).till (s.lossEnd p b)

/-- Source `b` of page `p` is held off now, its FLT_FORCE bit being clear (R356). -/
def State.heldOff (s : State) (p : Page) (b : Nat) : Bool :=
  ((s.holdWin p b).covers s.clk.cyc || decide (s.clk.cyc < s.lossEnd p b)) && !(s.fltForce p).getLsbD b

/-- A held-off detection is noted (R357). -/
def State.noteHeld (s : State) (p : Page) (b : Nat) : State :=
  s.updHdr p fun f => { f with holdSeen := true, holdSrc := if f.holdSeen then f.holdSrc else b }

/-! ## Reactions (R348 to R351) -/

/-- A handover of drive `d` asked for by half `h` (R248): it waits at the other half; a request while one waits or runs is
merged with it (Table 10.2). The hold-off window of the handover opens (R355). -/
def State.askHandover (s : State) (d : Drive) (h : Half) (p : Page) (b : Nat) : State :=
  let x := s.xd[d]
  if x.busy || x.req.any (fun r => r.frm == h) then s
  else { s with xd := vset s.xd d { x with
    req := x.req ++ [⟨h, p, b, s.clk.cyc⟩], holdHo := x.holdHo.opened s.clk.cyc (s.clk.cyc + 2000) } }

/-- Reaction 1 on drive `d` by a source of half `h` (R248, R30): a request while that half holds the drive's
authority, or drive safe state where handover is disabled; from the other half it only shows that half's own request of the
instant (Table 10.2). -/
def State.reactHo (s : State) (d : Drive) (h : Half) (p : Page) (b : Nat) : State :=
  if s.holds d h then (if s.hoEn d then s.askHandover d h p b else s.setSsl d)
  else { s with xd := vset s.xd d { s.xd[d] with mate := some s.clk.cyc } }

/-- Reaction 3: drive safe state of both drives, every hold-off window, and the DIS latches if DIS_ON_DEV is set
(Table 15.2, Table 15.4, R309). -/
def State.reactDev (s : State) : State :=
  let t := s.clk.cyc
  let s1 : State := { s with xd := Vector.ofFn fun d =>
    { s.xd[d] with holdHo := s.xd[d].holdHo.opened t (t + 2000), holdSsl := s.xd[d].holdSsl.opened t (t + 2000) } }
  let s2 := if s1.SDM_GLB_CFG_DIS_ON_DEV s1.lead = 1
    then { s1 with sdm := { s1.sdm with dis := ⟨true, true⟩ } } else s1
  (s2.setSsl 0).setSsl 1

/-- The reaction `r` of a fault of page `p` on the drives `aff` is taken (R348); before release none is (R352). -/
def State.react (s : State) (p : Page) (b : Nat) (r : Nat) (aff : Drive → Bool) : State :=
  if !s.boot.released then s
  else
    let s1 := match r with
      | 1 =>
        match s.scope p b with
        | none => s
        | some h =>
          let t0 := if aff 0 then s.reactHo 0 h p b else s
          if aff 1 then t0.reactHo 1 h p b else t0
      | 2 =>
        let t0 := if aff 0 then s.setSsl 0 else s
        if aff 1 then t0.setSsl 1 else t0
      | 3 => s.reactDev
      | _ => s
    if s.taken p b r aff = 0 then s1
    else s1.updHdr p fun f => { f with busyUntil := max f.busyUntil (s.clk.cyc + 2000) }

/-! ## Reports (R343 to R346, R358) -/

/-- The queue of a block group's fault records (Table 15.5). -/
def faultQueue (p : Page) : Fin 64 :=
  match p with
  | .sys | .pwr | .boot => 16
  | .fab | .mem | .que | .crz => 17
  | .pch n => if n.val < 4 then 18 else 19
  | .exc | .scl | .dch => 20
  | .xmon | .sdm => 21
  | .enc | .aev | .aux => 22
  | .time | .net => 23

/-- What a report carries: source number (Table 15.1), copy, master, access, address, whether it is forced, found by
a checker, allowed a record by its mask, whether its sticky bit was clear, the reaction taken, and the live bits
to show. -/
structure Report where
  num : Nat
  copy : Copy
  master : Master
  access : Nat
  addr : Word
  forced : Bool
  checker : Bool
  unmasked : Bool
  newSticky : Bool
  react : Nat
  live : Word

/-- BLZ_SRC of a report (Table 15.1). -/
def Report.srcWord (r : Report) : Word :=
  Word.put 16 2 r.copy.num ||| Word.put 4 2 r.access ||| Word.put 0 4 (masterNum r.master)

/-- The payload of the fault record of a report (Table 15.6), after the report. -/
def State.faultBytes (s : State) (p : Page) (r : Report) (blaze : Bool) : List Byte :=
  let f := s.hdr p
  let code := codeWord p r.num ||| Word.flag 31 blaze
  let flags := (if f.cntSat then 1 else 0) + (if r.forced then 2 else 0) + (if r.checker then 4 else 0)
  leBytes 4 code.toNat ++ leBytes 4 r.live.toNat ++ leBytes 4 f.sticky.toNat ++ leBytes 2 f.cnt ++
    leBytes 1 r.react ++ leBytes 1 flags ++ leBytes 4 r.addr.toNat ++ leBytes 4 r.srcWord.toNat ++
    leBytes 8 s.now.toNat

/-- The place of a report in the order of R344, by its BLZ_SRC and BLZ_CODE: the copy in H0 first, then the lower SRC_NUM. -/
def blazeRank (src code : Word) : Nat := (if src.fld 16 2 = 1 then 0 else 256) + code.fld 0 8

/-- A report in a cycle that has had one already goes first in the order of R344. -/
def CycRep.before (x : CycRep) (src code : Word) : Bool := decide (blazeRank src code < blazeRank x.src x.code)

/-- The reports of the cycle with one more (R344). -/
def FaultHdr.noted (f : FaultHdr) (p : Page) (r : Report) (cyc : Nat) : CycRep :=
  let x := f.now
  let code := codeWord p r.num
  let extra := r.unmasked && !r.newSticky
  if x.n = 0 ∨ x.cyc ≠ cyc then
    { cyc := cyc, n := 1, addr := r.addr, src := r.srcWord, code := code, was := f.full, extra := extra }
  else if x.before r.srcWord code then
    { x with n := x.n + 1, addr := r.addr, src := r.srcWord, code := code, extra := extra }
  else { x with n := x.n + 1 }

/-- The report becomes the Blaze (R344): FULL was clear before its cycle, and it goes first among the cycle's reports. -/
def FaultHdr.blazes (f : FaultHdr) (p : Page) (r : Report) (cyc : Nat) : Bool :=
  let x := f.now
  if x.n = 0 ∨ x.cyc ≠ cyc then !f.full else !x.was && x.before r.srcWord (codeWord p r.num)

/-- One more report counted (R345): at 65,535 CNT stops and CNT_SAT sets. -/
def FaultHdr.counted (f : FaultHdr) : FaultHdr :=
  if f.cnt < 65535 then { f with cnt := f.cnt + 1, cntSat := f.cntSat || f.cnt == 65534 } else { f with cntSat := true }

/-- The header after a report at cycle `cyc` and TIME `now` (R344, R345): the cycle's first report in the order of R344
becomes the Blaze where FULL was clear, every other one counts. -/
def FaultHdr.take (f : FaultHdr) (p : Page) (r : Report) (cyc : Nat) (now : BitVec 64) : FaultHdr :=
  let f1 := if f.full then f.counted else { f with full := true }
  let f2 := if f.blazes p r cyc then
      { f1 with bAddr := r.addr, bSrc := r.srcWord, bTime := now, bCode := codeWord p r.num }
    else f1
  { f2 with now := f.noted p r cyc }

/-- The header after a report; with the Blaze it notes DROP_EV as the report finds it, `was`, for a record taken back (R344, R358). -/
def FaultHdr.filed (f : FaultHdr) (p : Page) (r : Report) (cyc : Nat) (now : BitVec 64) (was : Bool) : FaultHdr :=
  let g := f.take p r cyc now
  if f.blazes p r cyc then { g with now := { g.now with dropWas := was } } else g

/-- A trigger of cause bit `c` with time stamp `t` reaches a recorder in cycle `cyc` (R393): outside ARMED it is ignored; of several
waiting, the first gives the time, and the causes of one cycle are joined, also with the trigger taken in it (Table 17.8). -/
def Frec.offer (f : Frec) (c : Nat) (t : BitVec 64) (cyc : Nat) : Frec :=
  match f.st with
  | .armed =>
    if f.pend = 0 then { f with pend := bput 0 c true, pendTime := t, pendCyc := cyc }
    else if f.pendCyc = cyc then { f with pend := bput f.pend c true }
    else f
  | .post => if f.pendCyc = cyc then { f with cause := bput f.cause c true } else f
  | _ => f

/-- A report of reaction code `r` triggers every recorder whose FLT_TRIG it reaches (R393). -/
def State.fltTriggers (s : State) (r : Nat) : State :=
  { s with frec := s.frec.map fun f =>
    let m := f.cfg.fld 4 2
    if m ≠ 0 ∧ m ≤ r then f.offer 1 s.now s.clk.cyc else f }

/-- A staged fault record of code `code` of cycle `cyc` with bit 31 of CODE as given (R344, R358). -/
def Staged.mark (x : Staged) (cyc : Nat) (code : Word) (full : Bool) : Staged :=
  if x.src = 4 ∧ x.cyc = cyc ∧ x.payload.take 3 = (leBytes 4 code.toNat).take 3 then
    { x with payload := x.payload.take 3 ++ [if full then 0x80 else 0] ++ x.payload.drop 4 }
  else x

/-- The fault record that a report of this cycle has written in page `p` shows whether the report is the Blaze. -/
def State.markRecord (s : State) (p : Page) (code : Word) (full : Bool) : State :=
  { s with que := { s.que with q := vupd s.que.q (faultQueue p) fun q =>
    { q with staged := q.staged.map fun x => x.mark s.clk.cyc code full } } }

/-- The number before `n` of those modulo `m`. -/
def stepBack (m n : Nat) : Nat := if n = 0 then m - 1 else n - 1

/-- The fault record of code `code` that this cycle has offered to a queue is taken back: from staging, with its sequence
number, or from the count of drops. -/
def Queue.takeBack (q0 : Queue) (cyc : Nat) (code : Word) (dropWas : Bool) : Queue :=
  let q := { q0 with same := q0.same.erase 4 }
  let hit (x : Staged) : Bool := x.src == 4 && x.cyc == cyc && x.payload.take 3 == (leBytes 4 code.toNat).take 3
  let n := stepBack (2 ^ 64) q.nseq
  match q.staged.find? hit with
  | some y => { q with
      nseq := n
      staged := (q.staged.eraseP hit).map fun x =>
        if y.seq < x.seq then { x with seq := stepBack (2 ^ 64) x.seq } else x }
  | none => { q with nseq := n, drop := stepBack (2 ^ 32) q.drop, dropEv := dropWas }

/-- The Blaze of this cycle gives way to a report that goes before it (R344): its record loses bit 31 of CODE, or, where it was
written for the Blaze alone, is not written (R358). -/
def State.yieldBlaze (s : State) (p : Page) (r : Report) : State :=
  let f := s.hdr p
  if f.full && f.blazes p r s.clk.cyc then
    if f.now.extra then
      let back (q : Queue) : Queue := q.takeBack s.clk.cyc f.bCode f.now.dropWas
      { s with que := { s.que with q := vupd s.que.q (faultQueue p) back } }
    else s.markRecord p f.bCode false
  else s

/-- A report (R343) taken by the header, with the record it writes (R358) and the recorders it triggers (R393). -/
def State.fileReport (s0 : State) (p : Page) (r : Report) : State :=
  let s := (s0.fltTriggers r.react).yieldBlaze p r
  let blaze := (s.hdr p).blazes p r s.clk.cyc
  let was := (s.que.q[faultQueue p]).dropEv
  let s1 := s.updHdr p fun f => f.filed p r s.clk.cyc s.now was
  if r.unmasked && (blaze || r.newSticky) then s1.offer (faultQueue p) 4 (s1.faultBytes p r blaze) else s1

/-- The page's domain is on (R17, R359): PCH_n with its half, NET with its domain, a page whose instances lie in both halves
while either half is on (DEDUCED, assumption 49), every other page with CORE. -/
def State.pageOn (s : State) (p : Page) : Bool :=
  match p with
  | .pch n => s.halfOn (pchHalf n.val)
  | .net => s.netOn
  | .exc | .scl | .dch | .enc | .aev | .sdm | .aux | .xmon => s.halfOn .h0 || s.halfOn .h1
  | _ => true

/-- The page of a report is powered (R343). -/
def State.powered (s : State) (p : Page) : Bool := s.coreOn && s.boot.phase != .reset && s.pageOn p

/-- A report of source `b` of page `p`: sticky bit, Blaze or count, record, reaction (R343 to R348); BIST notes the SYS sources
seen during a phase (R93). -/
def State.report (s : State) (p : Page) (b : Nat) (c : Copy) (m : Master) : State :=
  if !s.powered p then s else
  let newSt := !(s.hdr p).sticky.getLsbD b
  let r := s.reaction p b
  let aff (d : Drive) := s.affects p b d
  let s0 : State := if p = .sys ∧ s.boot.phase = .bist
    then { s with boot := { s.boot with bistTaint := bput s.boot.bistTaint b true } } else s
  let s1 := s0.updHdr p fun f => { f with sticky := bput f.sticky b true }
  let s2 := s1.fileReport p
    { num := b, copy := c, master := m, access := 0, addr := BitVec.ofNat 32 p.base, forced := m = .force
      checker := false, unmasked := !(s.fltMask p).getLsbD b, newSticky := newSt, react := s.taken p b r aff
      live := bput (s1.fltLive p) b true }
  s2.react p b r aff

/-- Source `b` of page `p` is live from now until its instant of detection is over (R347). -/
def State.flash (s : State) (p : Page) (b : Nat) : State :=
  let t := s.eventTill p
  s.updHdr p fun f => { f with ev := (b, t) :: f.ev.filter fun e => decide (s.clk.cyc < e.2) && e.1 != b }

/-- A source that is live only at the instant of detection (R353): held off, or live for that instant and reported. -/
def State.event (s : State) (p : Page) (b : Nat) (c : Copy) : State :=
  if !s.powered p then s
  else if s.heldOff p b then s.noteHeld p b else (s.flash p b).report p b c .detector

/-- The live word of copy `c`. -/
def FaultHdr.liveOf (f : FaultHdr) : Copy → Word
  | .shared => f.liveSh
  | .h0 => f.liveH0
  | .h1 => f.liveH1

/-- The detecting conditions of copy `c`. -/
def FaultHdr.rawOf (f : FaultHdr) : Copy → Word
  | .shared => f.rawSh
  | .h0 => f.rawH0
  | .h1 => f.rawH1

/-- The header with the condition and the live bit `b` of copy `c` set as given. -/
def FaultHdr.setBit (f : FaultHdr) (c : Copy) (b : Nat) (raw live : Bool) : FaultHdr :=
  match c with
  | .shared => { f with rawSh := bput f.rawSh b raw, liveSh := bput f.liveSh b live }
  | .h0 => { f with rawH0 := bput f.rawH0 b raw, liveH0 := bput f.liveH0 b live }
  | .h1 => { f with rawH1 := bput f.rawH1 b raw, liveH1 := bput f.liveH1 b live }

/-- Source `b` of page `p` is live already, by FLT_FORCE or at this instant of detection (R347, R362). -/
def State.liveAlready (s : State) (p : Page) (b : Nat) : Bool :=
  (s.fltForce p ||| (s.hdr p).evLive s.clk.cyc).getLsbD b

/-- The condition of source `b` as copy `c` sees it is now `v` (R343, R347, R357): a live bit that goes from clear to
set is a report, unless the source is live already by FLT_FORCE or at this instant, or a hold-off window covers it. -/
def State.cond (s : State) (p : Page) (b : Nat) (c : Copy) (v : Bool) : State :=
  if !s.powered p then s
  else if !v then s.updHdr p fun f => f.setBit c b false false
  else if ((s.hdr p).liveOf c).getLsbD b then s.updHdr p fun f => f.setBit c b true true
  else if s.heldOff p b then (s.updHdr p fun f => f.setBit c b true false).noteHeld p b
  else if s.liveAlready p b then s.updHdr p fun f => f.setBit c b true true
  else (s.updHdr p fun f => f.setBit c b true true).report p b c .detector

/-- A checker error: CE_n, or UE_n with its reaction (R343, R363). -/
def State.checkerErr (s : State) (p : Page) (n : Nat) (uncorr : Bool) : State :=
  if !s.powered p then s else
  let f := s.hdr p
  let newSt := if uncorr then !f.ue.getLsbD n else !f.ce.getLsbD n
  let shared := p.shared
  let r1 := s.chkReact p
  let r := if uncorr then (if r1 = 1 ∧ shared then 2 else r1) else 0
  let aff (d : Drive) := match p with
    | .pch k => s.chanDrive k.val d
    | _ => true
  let s1 := s.updHdr p fun f =>
    if uncorr then { f with ue := bput f.ue n true } else { f with ce := bput f.ce n true }
  let c : Copy := match p with
    | .pch k => (pchHalf k.val).copy
    | _ => .shared
  let s2 := s1.fileReport p
    { num := (if uncorr then 0x50 else 0x40) + n, copy := c, master := .checker, access := 0
      addr := BitVec.ofNat 32 p.base, forced := false, checker := true, unmasked := true, newSticky := newSt
      react := s.taken p 0 r aff, live := s1.fltLive p }
  s2.react p 0 r aff

/-- The key under which `State.badEcc` keeps the check-bit damage of the register word at `a` of an ECC-checked store. -/
def eccKey (a : Nat) : Nat := a + 0x100000000

/-- The register word at `a` of the ECC-checked store of page `p` is written: its check bits as INV_1 says (R364). -/
def State.eccPut (s : State) (p : Page) (a : Nat) : State :=
  { s with badEcc := Store.set 0 s.badEcc (eccKey a) (s.chkInv p 1) }

/-- A read of the word `v` at `a` of the ECC-checked store of page `p` (R360, R363): corrected with CE_1, or zero with DENIED
and UE_1. -/
def State.eccGet (s : State) (p : Page) (a : Nat) (v : Word) : Status × Word × State :=
  match Store.get 0 s.badEcc (eccKey a) with
  | 0 => (.ok, v, s)
  | 1 => (.ok, v, s.checkerErr p 1 false)
  | _ => (.denied, 0, s.checkerErr p 1 true)

/-- A failed access reported in FAB (R343, R344, R359, R360): bit 0 ACC_OFF, 1 DECODE, 2 TGT_TMO; `wr` a write. -/
def State.fabReport (s : State) (b : Nat) (m : Master) (addr : Nat) (wr : Bool) : State :=
  let newSt := !(s.hdr .fab).sticky.getLsbD b
  let r := s.reaction .fab b
  let s1 := (s.flash .fab b).updHdr .fab fun f => { f with sticky := bput f.sticky b true }
  let s2 := s1.fileReport .fab
    { num := b, copy := .shared, master := m, access := if wr then 2 else 1, addr := BitVec.ofNat 32 addr
      forced := false, checker := false, unmasked := !(s.fltMask .fab).getLsbD b, newSticky := newSt, react := s.taken .fab b r fun _ => true
      live := bput (s1.fltLive .fab) b true }
  s2.react .fab b r (fun _ => true)

/-- A register access of the host at `addr` to an instance in half `h`, completing as `r` says: ACC_OFF while that half
is off (R359). -/
def State.inst (s : State) (h : Half) (addr : Nat) (r : Status × State) : Status × State :=
  if s.halfOn h then r else (.accOff, s.fabReport 0 .host addr true)

/-- The same for a read (R359). -/
def State.instRead (s : State) (h : Half) (addr : Nat) (r : Status × State) : Status × State :=
  if s.halfOn h then r else (.accOff, s.fabReport 0 .host addr false)

/-! ## Summaries -/

/-- REACT_BUSY of page `p` (R346). -/
def State.reactBusy (s : State) (p : Page) : Bool := decide (s.clk.cyc < (s.hdr p).busyUntil)

/-- HOLD_ACT: a hold-off window covers a detector of the page now (Table 15.1). -/
def State.holdAct (s : State) (p : Page) : Bool := (List.range 32).any fun b => decide (s.clk.cyc < s.holdEnd p b)

/-- Whether source `b` of page `p` is live or sticky. -/
def State.standing (s : State) (p : Page) (b : Nat) : Bool := (s.fltLive p ||| (s.hdr p).sticky).getLsbD b

/-- Whether a checker's UE_n of page `p` is live or sticky. -/
def State.standingUe (s : State) (p : Page) : Bool := (s.hdr p).ue != 0 || (s.hdr p).ueLive != 0

/-- DEV_SAFE (R361): a source, or a UE_n, whose reaction is whole-device safe state is live or sticky. -/
def State.devSafe (s : State) : Bool :=
  Page.all.any fun p =>
    ((List.range 32).any fun b => s.standing p b && s.reaction p b == 3) || (s.standingUe p && s.chkReact p == 3)

/-- Half period of ALIVE in TCLK cycles. -/
def State.aliveHalf (s : State) : Nat := usCyc (clampNat 5 500 s.SYS_ALIVE_CFG_HALF_US)

/-- When DEV_SAFE has cleared between `old` and `s`, the next edge of ALIVE follows one half period later. -/
def State.aliveWatch (s old : State) : State :=
  if old.devSafe && !s.devSafe then { s with alive := { s.alive with next := s.clk.cyc + s.aliveHalf } } else s

/-- A source that selects drive safe state for drive `d`, or whole-device safe state, is live or sticky (R307). -/
def State.blocksRelease (s : State) (d : Drive) : Bool :=
  Page.all.any fun p =>
    ((List.range 32).any fun b =>
      s.standing p b && (s.reaction p b == 3 || (s.reactionOn p b d == 2 && s.affects p b d))) ||
    (s.standingUe p && (s.chkReact p == 3 ||
      ((s.chkReact p == 2 || (s.chkReact p == 1 && (p.shared || !s.hoEn d))) &&
      (match p with
        | .pch k => s.chanDrive k.val d
        | _ => true))))

/-- Source `b` of page `p` reacts otherwise than by interrupt only: a reaction without an affected drive acts so (R349). -/
def State.acts (s : State) (p : Page) (b : Nat) : Bool :=
  s.reaction p b == 3 || (s.reaction p b != 0 && (s.affects p b 0 || s.affects p b 1))

/-- A source scoped to half `h` is live with a reaction other than interrupt only (R248); XMON sources are left out
of the judgement when `noXmon` is set (R253). -/
def State.halfFaulty (s : State) (h : Half) (noXmon : Bool) : Bool :=
  Page.all.any fun p =>
    (noXmon == false || p != .xmon) &&
    (((List.range 32).any fun b =>
        (s.fltLive p).getLsbD b && s.scope p b == some h && s.acts p b) ||
      (match p with
        | .pch k => pchHalf k.val == h && (s.hdr p).ueLive != 0 &&
          (s.chkReact p == 3 || (s.chkReact p != 0 && (s.chanDrive k.val 0 || s.chanDrive k.val 1)))
        | _ => false))

end Sys2Proof.Machine
end

