-- ==== Sys2Proof/Machine/ExcCore.lean ====
section
/-! DEFINITION. Excitation drivers: carrier phase, levels, starting, stopping (R101 to R118, R481). -/

namespace Sys2Proof.Machine

/-- Driver `n` replaced. -/
def State.setExc (s : State) (n : Fin 4) (x : Exc) : State := { s with exc := vset s.exc n x }

/-- FREQ_HZ as applied (R106). -/
def Exc.freq (x : Exc) : Nat := x.car.freq

/-- Carrier turns per TCLK cycle outside a slew: FREQ_HZ / 400,000,000 (R104). -/
def Carrier.rate (x : Carrier) : Rat := (x.freq : Rat) / 400000000

/-- Carrier turns made in `n` TCLK cycles from `t0` on. A slew scales the increment by 1 + Δ over the turns it covers,
1 + Δ from its crossing on: one period of the carrier, after which it stands Δ ahead (R107; DEDUCED, assumption 51). -/
def Carrier.turns (x : Carrier) (n : Rat) : Rat :=
  match x.slew with
  | none => x.rate * n
  | some (dl, left) =>
    let fast := x.rate * (1 + dl)
    if fast * n ≤ left then fast * n else left + x.rate * (n - left / fast)

/-- The cycles that the carrier takes for `k` turns from `t0` on: the inverse of `Carrier.turns`. -/
def Carrier.cycles (x : Carrier) (k : Rat) : Rat :=
  match x.slew with
  | none => k / x.rate
  | some (dl, left) =>
    let fast := x.rate * (1 + dl)
    if k ≤ left then k / fast else left / fast + (k - left) / x.rate

/-- Carrier phase at cycle `c`, in turns, not reduced (R105). -/
def Carrier.phaseAt (x : Carrier) (c : Nat) : Rat := x.ph + x.turns ((c : Rat) - (x.t0 : Rat))

/-- Carrier phase of the driver at cycle `c`, in turns, not reduced (R105). -/
def Exc.phaseAt (x : Exc) (c : Nat) : Rat := if c < x.car.t0 then x.old.phaseAt c else x.car.phaseAt c

/-- The carrier taken on at cycle `c`, with what is left of its slew. -/
def Carrier.rebase (x : Carrier) (c : Nat) : Carrier :=
  { x with
    ph := wrap01 (x.phaseAt c), t0 := c
    slew := x.slew.map fun d => (d.1, max 0 (d.2 - x.turns ((c : Rat) - (x.t0 : Rat)))) }

/-- The driver with its carrier taken on at cycle `c`. -/
def Exc.rebase (x : Exc) (c : Nat) : Exc := { x with car := x.car.rebase c, old := x.car }

/-- The cycle of the next zero crossing: the first at which the carrier phase has reached one turn (R105). -/
def Exc.nextX (x : Exc) : Nat := x.car.t0 + (x.car.cycles (1 - x.car.ph)).ceil.toNat

/-- The bridge is running for R106: not OFF, not TRIPPED. -/
def Exc.running (x : Exc) : Bool := match x.st with
  | .off | .tripped => false
  | _ => true

/-- The driver counts as faulted for R27: OFF or TRIPPED (R112). -/
def Exc.faulted (x : Exc) : Bool := !x.running

/-- The dependent channels of the driver coast with SETTLE: a change settles (R108), or a ramp runs (R112). -/
def Exc.settling (x : Exc) : Bool := x.settle || x.st == .rampUp || x.st == .rampDown

/-- The values in the registers, as the applied ones (R106). -/
def State.applyExc (s : State) (n : Fin 4) (x : Exc) : Exc :=
  { x with
    car := { x.car with freq := s.EXC_FREQ_FREQ_HZ n }
    phase := s.EXC_PHASE_PHASE_OFS n, lvl := s.EXC_AMP_DRV_LVL n
    tgt := s.EXC_AMP_AMP_TGT n, closed := s.EXC_CTRL_MODE n == 1 }

/-- A written value waits for the zero crossing: PEND of EXC_n_STAT (R106). -/
def State.excPend (s : State) (n : Fin 4) : Bool :=
  let x := s.exc[n]
  x.running && s.applyExc n x != x

/-- SETTLE_PER, 2 to 16. -/
def State.settlePer (s : State) (n : Fin 4) : Nat := clampNat 2 16 (s.EXC_CTRL_SETTLE_PER n)

/-- RAMP_PER, at least 1. -/
def State.rampPer (s : State) (n : Fin 4) : Nat := max 1 (s.EXC_CTRL_RAMP_PER n)

/-- The level requested of the bridge at this instant, in 10 mV units: in a ramp the level moves linearly from one crossing
to the next (R110, R111). -/
def State.lvlAsked (s : State) (n : Fin 4) : Nat :=
  let x := s.exc[n]
  let p : Rat := (s.rampPer n : Nat)
  let done : Rat := min p ((x.rampCnt : Nat) + (x.phaseAt s.clk.cyc - (x.phaseAt s.clk.cyc).floor))
  match x.st with
  | .rampUp => if x.waitX then 0 else (roundFree 50 ((min 2400 x.lvl : Nat) * done / p)).toNat
  | .rampDown => (roundFree 51 ((x.rampLvl : Nat) * (p - done) / p)).toNat
  | _ => x.lvlNow

/-- The limit of R102 in 10 mV units: 1.9 × VEXC_n, and never more than 24 V. The spec states no rounding where 1.9 × VEXC_n is no
whole step: the step below (DESIGN CHOICE, assumption 67). -/
def State.lvlLimit (s : State) (n : Fin 4) : Nat :=
  min 2400 (19 * s.vexcMv[Fin.ofNat 2 (n.val / 2)] / 100)

/-- LVL_NOW: the level that the bridge delivers, the one requested or the limit of R102 (R114; DEDUCED, assumption 52). -/
def State.lvlShown (s : State) (n : Fin 4) : Nat := min (s.lvlAsked n) (s.lvlLimit n)

/-- A trip cause of bridge `n` is live: OC, IMBAL, OTS, or VUV, VOV of its rail (Table 5.3, R110). -/
def State.tripLive (s : State) (n : Fin 4) : Bool :=
  let l := s.fltLive .exc
  let r := 24 + 2 * (n.val / 2)
  l.bit (6 * n.val) || l.bit (6 * n.val + 2) || l.bit (6 * n.val + 5) || l.bit r || l.bit (r + 1)

/-- VEXC of the bridge's rail is good (R103, R110). -/
def State.vexcGood (s : State) (n : Fin 4) : Bool := if n.val < 2 then s.rails.vexc0 else s.rails.vexc1

/-- A start of bridge `n` (R110): RAMP_UP, at high impedance until the next zero crossing, or TRIPPED. -/
def State.startExc (s : State) (n : Fin 4) : State :=
  let x := s.applyExc n s.exc[n]
  if s.vexcGood n && !s.tripLive n then
    s.setExc n { x with st := .rampUp, waitX := true, stopping := false, rampCnt := 0, lvlNow := 0 }
  else s.setExc n { x with st := .tripped, waitX := false, stopping := false, lvlNow := 0 }

/-- The requested level is above the limit of R102 (R114). -/
def State.overLimit (s : State) (n : Fin 4) : Bool :=
  decide (19 * s.vexcMv[Fin.ofNat 2 (n.val / 2)] < 100 * s.exc[n].lvlNow) || decide (2400 < s.exc[n].lvlNow)

/-- CLIP follows the requested level (R114). -/
def State.judgeClip (s : State) (n : Fin 4) : State :=
  let c := s.exc[n].running && !s.exc[n].waitX && s.overLimit n
  (s.setExc n { s.exc[n] with clip := c }).cond .exc (6 * n.val + 4) (excHalf n.val).copy c

/-- A quotient whose rounding the spec does not state: one of the two neighbouring integers (assumption 3). -/
def freeDiv (point : Nat) (num : Int) (den : Nat) : Int :=
  let q : Int := num / (den : Int)
  if q * (den : Int) = num then q
  else if Config.roundUp point ((num : Rat) / (den : Rat)) then q + 1 else q

/-- One regulation step (R115); divisions truncate towards zero as the operators of the listing do. With `hi` below `lo` the
level becomes `lo` (DESIGN CHOICE, assumption 53). -/
def regulate (lvl tgt meas lo hi : Int) : Int :=
  let err := tgt - meas
  if err > 8 ∨ err < -8 then
    let d0 := (lvl * err).tdiv (4 * tgt)
    let d1 := if d0 > lvl.tdiv 64 then lvl.tdiv 64 else d0
    let d2 := if d1 < (-lvl).tdiv 64 then (-lvl).tdiv 64 else d1
    let d3 := if d2 = 0 then (if err > 0 then 1 else -1) else d2
    clampInt lo hi (lvl + d3)
  else lvl

end Sys2Proof.Machine
end

