-- ==== Sys2Proof/Machine/Gen.lean ====
section
/-! DEFINITION. The predicted angle that encoder emulation and the angle-event scheduler follow (R173, R258 to R260,
R277). -/

namespace Sys2Proof.Machine

/-- The present instant in ns of TCLK cycles, in which every Δ is counted (R378). -/
def State.cycNs (s : State) : Rat := (s.clk.cyc : Rat) * 5 / 2

/-- ANG_OFS of drive `d` as the copy of half `h` holds it, signed, in 2^-24 turn (R239). -/
def State.angOfs (s : State) (h : Half) (d : Drive) : Int := signedOf 24 (s.XMON_ANG_OFS_ANG_OFS h d.val)

/-- The channel whose angle the copy of half `h` follows for drive `d`; none while the half is off (R258). -/
def State.copyChan (s : State) (d : Drive) (h : Half) : Option (Fin 8) :=
  if s.halfOn h then s.ownChan d h else none

/-- The tag of the set in use of channel `n`. -/
def State.genTag (s : State) (n : Fin 8) : BitVec 8 := (s.gen.cur[n]).tag

/-- The predicted angle of channel `n` at `t` ns, in turns, not reduced (R173, no HORIZON; Δ in TCLK cycles, R378); the
channel that is SRC_B adds ANG_OFS (R258). -/
def State.polyAt (s : State) (d : Drive) (h : Half) (n : Fin 8) (t : Rat) : Rat :=
  let p := s.gen.cur[n]
  let dt := (t - (p.cyc : Rat) * 5 / 2) / 10 ^ 9
  let al : Rat := if tagCoast p.tag then 0 else (p.acc : Rat) / 16
  let o := if s.XMON_CFG_SRC_B h d.val = n.val ∧ s.XMON_CFG_SRC_A h d.val ≠ n.val then (s.angOfs h d : Rat) else 0
  ((p.ang : Nat) + o) / 2 ^ 24 + (p.spd : Rat) / 65536 * dt + al * dt * dt / 2

/-- The unwrapped predicted angle u of the copy of half `h` for drive `d` at `t` ns, if the copy has a source (R277). -/
def State.uAt (s : State) (d : Drive) (h : Half) (t : Rat) : Option Rat :=
  match s.copyChan d h with
  | none => none
  | some n => some (s.polyAt d h n t + ((s.gen.frm[d]).get h).ofs)

/-- The frame of one copy after the angle that it follows has changed from that of `old`, by a new set, another source or another
ANG_OFS: the unwrapping takes the change modulo one turn into [−0.5, +0.5) (R259). -/
def State.reframe (s old : State) (d : Drive) (h : Half) : Follow :=
  let f := (s.gen.frm[d]).get h
  match s.copyChan d h with
  | none => {}
  | some n =>
    let new := s.polyAt d h n s.cycNs
    match f.have', old.uAt d h s.cycNs with
    | true, some u => ⟨true, u + wrapHalf (new + f.ofs - u) - new⟩
    | _, _ => ⟨true, 0⟩

/-- Every copy's frame after the angles that they follow have changed from those of `old` (R259). -/
def State.reframeAll (s old : State) : State :=
  { s with gen := { s.gen with frm := Vector.ofFn fun d => ⟨s.reframe old d .h0, s.reframe old d .h1⟩ } }

/-- The set `p` comes into use, and every copy's frame follows (R259, R260). -/
def State.takeGen (s : State) (p : Vector Pub 8) (rest : List (Nat × Vector Pub 8)) : State :=
  State.reframeAll { s with gen := { s.gen with cur := p, wait := rest, at' := s.clk.cyc } } s

/-- The newest of the waiting ticks whose sample instant lies 1,250 ns back, and the ticks after it (Table 1.3). -/
def dueTick (now : Nat) : List (Nat × Vector Pub 8) → Option (Vector Pub 8 × List (Nat × Vector Pub 8))
  | [] => none
  | (c, p) :: t =>
    if c + 500 ≤ now then
      match dueTick now t with
      | none => some (p, t)
      | some r => some r
    else none

end Sys2Proof.Machine
end

