-- ==== Sys2Proof/Machine/EncCore.lean ====
section
/-! DEFINITION. The counts and the ledger of encoder emulation: each copy's count, and how an output follows its angle
(R258 to R263, R268, R269, R272). -/

namespace Sys2Proof.Machine

/-- The address of offset `off` of output ENC_n. -/
def encAddr (n : Fin 4) (off : Nat) : Nat := 0x80100 + n.val * 0x40 + off

/-- Output `n` replaced. -/
def State.setEnc (s : State) (n : Fin 4) (x : Enc) : State := { s with enc := vset s.enc n x }

/-- DRIVE of the configuration in force (R258, R267). -/
def Enc.drive (x : Enc) : Drive := Fin.ofNat 2 (x.cfg.fld 0 1)

/-- CPR in force: 4 × LINES, LINES 64 to 65,536 (R259). -/
def Enc.cpr (x : Enc) : Nat :=
  let l := x.lines.fld 0 16
  4 * (if l = 0 then 65536 else max 64 l)

/-- The copy whose registers govern output `n`: the one that drives it or drove it last, unless its half is off (R28). -/
def State.encHalf (s : State) (n : Fin 4) : Half := if s.halfOn s.enc[n].act then s.enc[n].act else s.enc[n].act.other

/-- EN of output `n`. -/
def State.encEn (s : State) (n : Fin 4) : Bool := s.ENC_CTRL_EN (s.encHalf n) n.val == 1

/-- The drive that output `n` is written to serve. -/
def State.encDrive (s : State) (n : Fin 4) : Drive := Fin.ofNat 2 (s.ENC_CFG_DRIVE (s.encHalf n) n.val)

/-- LEAD_NS of output `n` in the copy of half `h` (R260). -/
def State.encLead (s : State) (n : Fin 4) (h : Half) : Int := signedOf 16 (s.ENC_TUNE_LEAD_NS h n.val)

/-- The hysteresis in counts of the copy of half `h`: HYST × CPR / 2^24, below one count (R259). -/
def State.encHyst (s : State) (n : Fin 4) (h : Half) (cpr : Nat) : Rat :=
  let h := s.ENC_TUNE_HYST h n.val
  if 2 ^ 24 ≤ h * cpr then 1 - (cpr : Rat) / 2 ^ 24 else ((h * cpr : Nat) : Rat) / 2 ^ 24

/-- The quantiser (R259). -/
def quantise (q : Int) (x h : Rat) : Int :=
  if (q : Rat) + 1 ≤ x then x.floor
  else if x < (q : Rat) - h then (x + h).floor
  else q

/-- The continuous count of the copy of half `h` at the output instant now, with `x` in force (R259, R260). -/
def State.encX (s : State) (n : Fin 4) (x : Enc) (h : Half) : Option Rat :=
  (s.uAt x.drive h (s.cycNs + s.encLead n h)).map fun u => (u + x.ofs.get h) * x.cpr

/-- The channel of the copy of half `h` shows VALID in the set in use. -/
def State.encValid (s : State) (drive : Drive) (h : Half) : Bool :=
  match s.copyChan drive h with
  | none => false
  | some c => tagValid (s.genTag c)

/-! ## Ledger, faults and records -/

/-- A quantity of the ledger, which holds 48 bits (R262). -/
def wrap48 (v : Int) : Int := wrapSigned (2 ^ 48) v

/-- BACKLOG (R261, R262). -/
def Enc.backlog (x : Enc) : Int := wrap48 (x.target - x.emit)

/-- BACKLOG as shown (R262). -/
def Enc.backlogShown (x : Enc) : Int := clampInt (-(2 ^ 31 - 1)) (2 ^ 31 - 1) x.backlog

/-- BKL_SAT (R262). -/
def Enc.bklSat (x : Enc) : Bool := x.backlog != x.backlogShown

/-- An event record of the Tally (R272, Table 11.3) offered to Q_12 + n. -/
def State.tallyEvent (s : State) (n : Fin 4) (code : Nat) (jump : Int) : State :=
  let x := s.enc[n]
  let w (v : Int) : List Byte := leBytes 4 (wrapInt 32 v)
  s.offer (Fin.ofNat 64 (12 + n.val)) 3
    (leBytes 1 code ++ leBytes 1 n.val ++ leBytes 2 0 ++ w jump ++ w x.target ++ w x.emit ++ w x.backlogShown ++
      leBytes 4 0 ++ leBytes 8 s.now.toNat)

/-- TALLY_HI and TALLY_OVF follow BACKLOG, a record at each crossing (R263, R272, R274). -/
def State.judgeTally (s : State) (n : Fin 4) : State :=
  let x := s.enc[n]
  let m := x.backlog.natAbs
  let hi := decide (min (2 ^ 20) (s.ENC_WARN_BKL_WARN (s.encHalf n) n.val) < m)
  let ovf := decide (2 ^ 20 < m)
  let s1 := s.setEnc n { x with hi := hi, ovf := ovf }
  let s2 := if hi && !x.hi then s1.tallyEvent n 4 0 else if !hi && x.hi then s1.tallyEvent n 5 0 else s1
  let s3 := if ovf && !x.ovf then s2.tallyEvent n 6 0 else s2
  (s3.cond .enc (2 * n.val) .shared hi).cond .enc (2 * n.val + 1) .shared ovf

/-- `j` added to TARGET and to JUMP_ACC. -/
def Enc.addJump (x : Enc) (j : Int) : Enc := { x with target := wrap48 (x.target + j), jump := wrap48 (x.jump + j) }

/-- `a` moved by whole turns of `cpr` to within ±CPR/2 of `b` (R269). -/
def nearTurn (cpr : Nat) (a b : Int) : Int := b + wrapSigned cpr (a - b)

/-- The count of the copy of half `h` now, while its source shows VALID: from its held count on, or the floor of x when it
regains VALID (R259, R268). -/
def State.copyCount (s : State) (n : Fin 4) (h : Half) : Option Int :=
  let x := s.enc[n]
  if s.encValid x.drive h then
    (s.encX n x h).map fun y => if x.valid.get h then quantise (x.q.get h) y (s.encHyst n h x.cpr) else y.floor
  else none

/-- The copy of half `h`, whose x floors to `raw`, stands at count `q`, whole turns away: its frame moves by them. -/
def Enc.place (x : Enc) (h : Half) (raw q : Int) (valid : Bool) : Enc :=
  { x with
    q := x.q.set h q, ofs := x.ofs.set h (x.ofs.get h + (q - raw) / x.cpr), valid := x.valid.set h valid }

/-- The copy of half `h` at count `c`, if its source shows VALID; one that has just regained VALID takes the whole turn that
brings it nearest to count `b` (R268, R269). -/
def Enc.move (x : Enc) (h : Half) (c : Option Int) (b : Int) : Enc :=
  match c with
  | none => { x with valid := x.valid.set h false }
  | some c => if x.valid.get h then { x with q := x.q.set h c } else x.place h c (nearTurn x.cpr c b) true

/-- The first preset after EN was set is due: the active source's tag has VALID set and ACQ clear (R266). -/
def State.presetDue (s : State) (n : Fin 4) : Bool :=
  (s.enc[n]).armed && s.boot.released && s.encEn n &&
    match s.activeSrc (s.encDrive n) with
    | none => false
    | some c => tagValid (s.genTag c) && !tagAcq (s.genTag c)

/-- The ledger of the output counts: it has been preset and is enabled (R261, R267). -/
def State.encLed (s : State) (n : Fin 4) : Bool := s.enc[n].done && s.encEn n

/-- The output follows its angle up to the present instant (R261, R268, R269): motion of the active copy enters TARGET; a
source that regains VALID brings a thaw jump, or aligns the inactive copy. Where the first preset is due, no thaw comes
before it (assumption 56). -/
def State.encFollow (s : State) (n : Fin 4) : State :=
  let x := s.enc[n]
  let h := x.act
  let back := (s.copyCount n h).isSome && !x.valid.get h
  let xa := if back && s.presetDue n then x else x.move h (s.copyCount n h) (x.q.get h)
  let y := xa.move h.other (s.copyCount n h.other) (xa.q.get h)
  let d := xa.q.get h - x.q.get h
  if !s.encLed n then s.setEnc n y
  else if back && xa.valid.get h then (((s.setEnc n (y.addJump d)).tallyEvent n 3 d)).judgeTally n
  else (s.setEnc n { y with target := wrap48 (y.target + d) }).judgeTally n

/-- FROZEN: q of the output is held, because the source of its active copy lacks VALID (R268); an output that has been neither
enabled nor preset holds none. -/
def State.encFrozen (s : State) (n : Fin 4) : Bool :=
  let x := s.enc[n]
  (x.done || s.encEn n) && !x.valid.get x.act

/-- Every output brought up to the present instant. -/
def State.encFollowAll (s : State) : State := (List.finRange 4).foldl State.encFollow s

end Sys2Proof.Machine
end

