-- ==== Sys2Proof/Machine/PchCore.lean ====
section
/-! DEFINITION. Position channels: states and loss (R144 to R149), tags (Table 7.2), starting and stopping. -/

namespace Sys2Proof.Machine

/-- Channel `n` replaced. -/
def State.setPch (s : State) (n : Fin 8) (x : Pch) : State := { s with pch := vset s.pch n x }

/-- Condition of source `b` of page PCH_n. -/
def State.pcond (s : State) (n : Fin 8) (b : Nat) (v : Bool) : State := s.cond (.pch n) b (pchHalf n.val).copy v

/-- The channel runs: not OFF, its half on. -/
def State.pchOn (s : State) (n : Fin 8) : Bool := s.pch[n].st != .off && s.halfOn (pchHalf n.val)

/-- The driver that the channel selects (R132). -/
def State.drv (s : State) (n : Fin 8) : Fin 4 := Fin.ofNat 4 (s.PCH_CFG_EXC_SEL n.val)

/-- Baseband mode (R135). -/
def State.baseband (s : State) (n : Fin 8) : Bool := s.PCH_CFG_DEMOD_MODE n.val == 1

/-- PH_MODE with 3 acting as 2 (Table 6.5). -/
def State.phMode (s : State) (n : Fin 8) : Nat := min 2 (s.PCH_PH_CFG_PH_MODE n.val)

/-- POLE_PAIRS, 1 to 16. -/
def State.polePairs (s : State) (n : Fin 8) : Nat := clampNat 1 16 (s.PCH_TRK_CFG_POLE_PAIRS n.val)

/-- A trim run of the channel is in progress (R198). -/
def State.trimBusy (s : State) (n : Fin 8) : Bool := (s.scl[n]).trimEnd.isSome

/-- The channel's trim awaits its gate: a request of its own, or its turn in the sweep (R196, R197). -/
def Scl.trimWait (x : Scl) : Bool := x.trimAsk || x.trimSweep

/-- The learning block under way is discarded, with the revolution that has just ended. -/
def Learn.drop (l : Learn) : Learn := { l with blk := [], revOk := false, doneOk := false }

/-! ## Bandwidth steps (Table 7.1) -/

/-- ω0 of step `i` in rad/s. -/
def omega0 (i : Nat) : Rat :=
  match i with
  | 0 => 4028 / 10 | 1 => 8055 / 10 | 2 => 16111 / 10 | 3 => 32221 / 10 | 4 => 48332 / 10 | 5 => 80554 / 10
  | 6 => 12083 | _ => 161107 / 10

/-- Bandwidth of step `i` in Hz. -/
def bwHz (i : Nat) : Nat :=
  match i with
  | 0 => 250 | 1 => 500 | 2 => 1000 | 3 => 2000 | 4 => 3000 | 5 => 5000 | 6 => 7500 | _ => 10000

/-- Minimum carrier of step `i`: twice its bandwidth (R154). -/
def bwCarrier (i : Nat) : Nat := 2 * bwHz i

/-- The highest step a carrier of `f` Hz permits (R154). -/
def bwTop (f : Nat) : Nat := ((List.range 8).filter fun i => decide (bwCarrier i ≤ f)).length - 1

/-- The ceiling (R155). -/
def State.bwCeil (s : State) (n : Fin 8) : Nat :=
  if s.baseband n then s.PCH_TRK_CFG_BW_MAX n.val
  else min (s.PCH_TRK_CFG_BW_MAX n.val) (bwTop s.exc[s.drv n].freq)

/-- The floor (R155). -/
def State.bwFloor (s : State) (n : Fin 8) : Nat := min (s.PCH_TRK_CFG_BW_MIN n.val) (s.bwCeil n)

/-! ## Tags -/

/-- The half of channel `n` holds authority for a drive the channel is assigned to (Table 0.4, R234). -/
def State.chanAuth (s : State) (n : Fin 8) : Bool :=
  (s.names 0 n.val && s.holds 0 (pchHalf n.val)) || (s.names 1 n.val && s.holds 1 (pchHalf n.val))

/-- A tag byte from its bits (Table 0.4). -/
def tagByte (auth uncert settle acq coast valid : Bool) : BitVec 8 :=
  BitVec.ofNat 8 ((if auth then 32 else 0) + (if uncert then 16 else 0) + (if settle then 8 else 0) +
    (if acq then 4 else 0) + (if coast then 2 else 0) + (if valid then 1 else 0))

/-- The tag of channel `n` for a tick that is (`settle`) or is not tagged SETTLE (Table 7.2, R168); in OFF it keeps its bits, but
VALID is clear and AUTH follows the latch (Table 6.6, R252). -/
def State.chanTag (s : State) (n : Fin 8) (settle : Bool) : BitVec 8 :=
  let x := s.pch[n]
  let unc := (s.fltLive (.pch n)).bit 20
  match x.st with
  | .off => (x.pub.tag &&& 0xDE) ||| (if s.chanAuth n then 0x20 else 0)
  | .lost => tagByte (s.chanAuth n) unc settle false true false
  | _ =>
    if x.lp.locked then tagByte (s.chanAuth n) unc settle false (!x.lp.used) true
    else tagByte (s.chanAuth n) unc (settle && !x.lp.used) true (!x.lp.used) false

/-- The last entry of a list changed by `f`. -/
def lastUpd {α : Type} (f : α → α) : List α → List α
  | [] => []
  | [a] => [f a]
  | a :: t => a :: lastUpd f t

/-- The tag of channel `n` in a tick's sets changed by `f`. -/
def tagIn (n : Fin 8) (f : BitVec 8 → BitVec 8) (v : Vector Pub 8) : Vector Pub 8 :=
  vupd v n fun p => { p with tag := f p.tag }

/-- A drive whose active source has lost VALID in the set in use freezes (R286). -/
def State.freezeLost (s : State) : State :=
  let ok (d : Drive) : Bool := match s.activeSrc d with
    | none => true
    | some c => tagValid (s.genTag c)
  { s with aev := { s.aev with live := Vector.ofFn fun d => s.aev.live[d] && ok d } }

/-- The tag of the newest tick of channel `n`, in its registers and on its way to the generators (Table 1.3). -/
def State.setTag (s0 : State) (n : Fin 8) (tag : BitVec 8) : State :=
  let s := if s0.gen.wait.isEmpty then s0.encFollowAll else s0
  let x := s.pch[n]
  let g := s.gen
  let put := tagIn n fun _ => tag
  let g1 := if g.wait.isEmpty then { g with cur := put g.cur }
    else { g with wait := lastUpd (fun w => (w.1, put w.2)) g.wait }
  let s1 : State := { s.setPch n { x with pub := { x.pub with tag := tag } } with gen := g1 }
  if s.gen.wait.isEmpty then s1.freezeLost else s1

/-- The tag of the newest tick brought up to date after a change of state in that tick; safe-state forms follow. -/
def State.retag (s : State) (n : Fin 8) : State := (s.setTag n (s.chanTag n (s.pch[n].pub.tag.getLsbD 3))).reform

/-- VALID clears in every set of a channel that goes OFF (Table 6.6): encoder outputs are frozen from the instant on, and so
are the slots of a drive whose active source it is (R268, R286); safe-state forms follow. -/
def State.unvalid (s0 : State) (n : Fin 8) : State :=
  let s := s0.encFollowAll
  let x := s.pch[n]
  let off := tagIn n fun t => t &&& 0xFE
  let g := { s.gen with cur := off s.gen.cur, wait := s.gen.wait.map fun w => (w.1, off w.2) }
  let s1 : State := { s.setPch n { x with pub := { x.pub with tag := x.pub.tag &&& 0xFE } } with gen := g }
  s1.freezeLost.reform

/-! ## Channel loss (R145, Table 6.7, Table 7.4) -/

/-- A channel in PHASE_ACQ or TRACK becomes LOST; LOCKED clears (R161). -/
def Pch.toLost (x : Pch) : Pch :=
  match x.st with
  | .phaseAcq | .track => { x with st := .lost, lp := { x.lp with locked := false } }
  | _ => x

/-- CRATIO is not evaluated while the channel is not locked (Table 7.4). -/
def State.dropCratio (s : State) (n : Fin 8) : State := if s.pch[n].lp.locked then s else s.pcond n 20 false

/-- A channel loss of PCH_n opens its hold-off window of 5.0 µs over the comparison of each drive that names the channel
(Table 15.4); a channel that is lost already opens none. -/
def State.lossWindow (s : State) (n : Fin 8) : State :=
  if s.pch[n].st = .phaseAcq ∨ s.pch[n].st = .track then
    { s with xd := Vector.ofFn fun d =>
      let x := s.xd[d]
      if s.names d n.val then { x with holdLoss := max x.holdLoss (s.clk.cyc + 2000) } else x }
  else s

/-- Cause `i` of PCH_LOSS_CAUSE becomes live and declares channel loss (R145); a channel that is OFF records nothing. -/
def State.declareLoss (s0 : State) (n : Fin 8) (i : Nat) : State :=
  let s := s0.lossWindow n
  let x := s.pch[n].toLost
  let c := if x.st = .off then x.cause else bput x.cause i true
  (s.setPch n { x with live := bput x.live i true, cause := c }).pcond n 5 true |>.dropCratio n

/-- Cause `i`, live in the tick of detection only, declares channel loss (Table 7.4); a second one in the same tick adds its
cause to the one declaration (Table 7.5). -/
def State.declareOnce (s0 : State) (n : Fin 8) (i : Nat) : State :=
  let s := s0.lossWindow n
  let x := s.pch[n].toLost
  let s1 := s.setPch n { x with cause := bput x.cause i true }
  (if (s1.fltLive (.pch n)).bit 5 then s1 else s1.event (.pch n) 5 (pchHalf n.val).copy).dropCratio n

/-- Cause `i` stops being live; LOSS is live while any cause is (Table 6.9). -/
def State.causeEnds (s : State) (n : Fin 8) (i : Nat) : State :=
  let x := s.pch[n]
  let l := bput x.live i false
  (s.setPch n { x with live := l }).pcond n 5 (l != 0)

/-- The selected driver is unusable (Table 6.7, DRV). -/
def State.drvBad (s : State) (n : Fin 8) : Bool :=
  !s.baseband n && (s.exc[s.drv n].faulted || !s.halfOn (excHalf (s.drv n).val))

/-- DRV judged for channel `n` (R27, R112): declared while the channel is not OFF and its driver is unusable. -/
def State.judgeDrv (s : State) (n : Fin 8) : State :=
  let bad := s.pchOn n && s.drvBad n
  let s1 := s.pcond n 8 bad
  if bad then (if s.pch[n].live.getLsbD 3 then s1 else s1.declareLoss n 3) else s1.causeEnds n 3

/-- DRV judged for every channel. -/
def State.judgeDrvAll (s : State) : State := (List.finRange 8).foldl (fun st n => st.judgeDrv n) s

/-- VDDA of the channel's half counts as good (R57). -/
def State.vddaOk (s : State) (h : Half) : Bool := match h with
  | .h0 => s.rails.vdda0
  | .h1 => s.rails.vdda1

/-- The causes that stand when a channel starts: CAL, VDDA, DRV (R148, R57, Table 6.8). -/
def State.standingCauses (s : State) (n : Fin 8) : State :=
  let s1 := if s.pch[n].calf then s.declareLoss n 4 else s
  let s2 := if s1.vddaOk (pchHalf n.val) then s1 else s1.declareLoss n 5
  s2.judgeDrv n

/-! ## Sector alignment at a start (R185) -/

/-- Angle-equivalent of the harmonic pair of order `i` + 1, squared (Table 8.1). -/
def SclSet.harmSq (c : SclSet) (i : Fin 16) : Int := c.a[i] * c.a[i] + c.b[i] * c.b[i]

/-- Every coefficient of the set is zero. -/
def SclSet.isNeutral (c : SclSet) : Bool :=
  c.sinOfs == 0 && c.cosOfs == 0 && c.imbal == 0 && c.quad == 0 && (List.finRange 16).all fun i => c.harmSq i == 0

/-- ALIGNED needs no alignment run (R185): one pole pair, a neutral set, or every term whose order is no multiple of
POLE_PAIRS below 2 × CONV_TOL. -/
def SclSet.alignFree (c : SclSet) (pp tol : Nat) : Bool :=
  pp == 1 || c.isNeutral ||
    (List.finRange 16).all fun i =>
      (i.val + 1) % pp == 0 || decide (c.hmax < i.val + 1) || decide (c.harmSq i < (2 * tol) * (2 * tol))

/-- The set with its alignment judged under R185. At the start of an acquisition (`acq`) ALIGNED is judged afresh, and
SECT_ALIGN is 0 in the frame in which an alignment run measures (R186); at other times ALIGNED only sets. -/
def SclSet.judgeAlign (c : SclSet) (pp tol : Nat) (acq : Bool) : SclSet :=
  if c.alignFree pp tol && (acq || !c.aligned) then { c with align := 0, aligned := true }
  else if acq then { c with align := 0, aligned := false }
  else c

/-! ## Starting and stopping (R144, R146, R147, R159, R172) -/

/-- The starting lag in turns (R136). -/
def State.phInit (s : State) (n : Fin 8) : Rat := (s.PCH_PH_INIT_PH_INIT n.val : Rat) / 65536

/-- The state in which a channel starts (Table 6.6, R135). -/
def State.startState (s : State) (n : Fin 8) : ChSt :=
  if s.baseband n || decide (s.phMode n < 2) then .track else .phaseAcq

/-- Of the causes of a channel that was OFF, those of the selected driver, of CAL and of VDDA are judged afresh at the start, so
that a standing one is declared and reported anew (R147); the live causes of `startKeeps` go on without a new report
(DESIGN CHOICE, assumption 66). -/
def startKeeps : BitVec 16 := 0x0101

/-- Channel `n` starts without loop history: at release and when EN is set with its counts at zero, or at a re-arm with
its counts and its run of invalid samples kept (R130, R146, R159, R172). The estimate of the carrier phase is at PH_INIT again, so that PHASE_LIM ends (R139);
the amplitude window stays suspended for a carrier period after SETTLE (R143). A PCH_SECT_SET write that waits for the
tick when EN is set is dropped (DESIGN CHOICE, assumption 54). -/
def State.startChan (s : State) (n : Fin 8) (rearm : Bool) : State :=
  let x := s.pch[n]
  let d := s.phInit n
  let fe := { x.fe with
    hist := [], mHist := [], invRun := if rearm then x.fe.invRun else 0, cmwDue := rearm && x.fe.cmwDue
    susp := s.startState n == .phaseAcq || decide (s.clk.cyc < x.fe.suspTill) }
  let lp : Loop := { th := x.lp.th, e := x.lp.e, peak := x.lp.peak, dir := x.lp.dir, idx := s.bwCeil n, ceil := s.bwCeil n }
  let tn := if rearm then { x.tn with sectRef := false }
    else { x.tn with eTurns := 0, sector := 0, mTurns := 0, sectRef := false, turned := false, pendSect := none }
  let st := s.startState n
  let live := x.live &&& startKeeps
  let sc := s.scl[n]
  let fresh (c : SclSet) := c.judgeAlign (s.polePairs n) s.SCL_LRN_LIM_CONV_TOL true
  let s1 := s.setPch n { x with st := st, fe := fe, ph := { d := d, centre := d }, lp := lp, tn := tn, live := live }
  let l0 := if sc.cur.aligned && fresh sc.cur == sc.cur then sc.lrn else sc.lrn.drop
  let lrn := { l0 with tries := 0, inRev := false, rev := [] }
  let s2 := { s1 with scl := vset s1.scl n { sc with cur := fresh sc.cur, pend := sc.pend.map fresh, lrn := lrn } }
  (((s2.pcond n 9 false).pcond n 5 (live != 0)).standingCauses n).reform

/-- A channel that is enabled starts (R147); while its half is off, or calibrates after a return, it stays idle (R427). -/
def State.enableChan (s : State) (n : Fin 8) : State :=
  let h := pchHalf n.val
  if s.boot.released && s.halfOn h && !s.pwr.calBusy.get h then s.startChan n false else s

/-- Channel `n` goes OFF (R147, Table 6.6): its registers keep their values, VALID clears. A cause lasts as long as its
condition (R145). -/
def State.stopChan (s : State) (n : Fin 8) : State :=
  let x := s.pch[n]
  let live := x.live &&& 0x0131
  let fe := { x.fe with invRun := 0, cmwDue := false }
  let lp := { x.lp with locked := false, lockCnt := 0, used := false }
  let s1 := s.setPch n { x with st := .off, live := live, fe := fe, lp := lp }
  let s2 := [0, 1, 2, 3, 4, 6, 7, 8, 9, 20].foldl (fun st b => st.pcond n b false) s1
  (s2.pcond n 5 (live != 0)).unvalid n

/-- The rs write of 1 to LOSS has been accepted (R146, R147): PCH_LOSS_CAUSE clears, and a LOST channel starts again. -/
def State.rearm (s : State) (n : Fin 8) : State :=
  let s1 := s.setPch n { s.pch[n] with cause := 0 }
  if s.pch[n].st = .lost then s1.startChan n true else s1

end Sys2Proof.Machine
end

