-- ==== Sys2Proof/Machine/Front.lean ====
section
/-! DEFINITION. Position channel front end: samples, common-mode window, demodulation, front correction, amplitude
window, carrier-phase adaptation (R126 to R143, R180). -/

namespace Sys2Proof.Machine

/-! ## Samples -/

/-- Range peak in µV of the code RANGE (Table 6.2). -/
def peakOf (range : Nat) : Int :=
  match range with
  | 0 => 2000000
  | 1 => 4000000
  | _ => 8000000

/-- Half width of the common-mode window in µV (R127). -/
def windowHalf (peak : Int) (margin : Nat) : Int := peak / 2 + 250000 * (clampNat 2 12 margin : Nat)

/-- The range peak and the window of channel `n`. -/
def State.rangePeak (s : State) (n : Fin 8) : Int := peakOf (s.PCH_CFG_RANGE n.val)
def State.cmwHalf (s : State) (n : Fin 8) : Int := windowHalf (s.rangePeak n) (s.PCH_CFG_CMW_MARGIN n.val)

/-- The code of a converter for `v` µV and whether it clipped (R126). -/
def convCode (peak v : Int) : Int × Bool :=
  if 5 * peak < 4 * (v.natAbs : Int) then (if 0 < v then 32767 else -32767, true)
  else (clampInt (-32767) 32767 ((26214 * v).tdiv peak), false)

/-- The pin at `v` µV is outside its window (R127). -/
def pinOut (half v : Int) : Bool := decide (half < ((v - 2500000).natAbs : Int))

/-- The pins outside their windows: bit 0 SINP, 1 SINN, 2 COSP, 3 COSN (Table 6.9). -/
def pinsOut (half : Int) (x : Sample) : BitVec 4 :=
  BitVec.ofNat 4 ((if pinOut half x.sinp then 1 else 0) + (if pinOut half x.sinn then 2 else 0) +
    (if pinOut half x.cosp then 4 else 0) + (if pinOut half x.cosn then 8 else 0))

/-- The calibration offsets of channel `n` in use, in codes (sin, cos). -/
def State.calOfs (s : State) (n : Fin 8) : Int × Int :=
  let t := (s.scl[n]).trims
  (t.sinCal.toInt, t.cosCal.toInt)

/-- What the front end keeps after the verdict of one sample (R128 to R130): `busy` in a trim run, when the sample is
not counted and a clip is not judged (R198). -/
def Front.sample (f : Front) (peak half : Int) (cal : Int × Int) (busy : Bool) (x : Sample) : Front :=
  let a := convCode peak (x.sinp - x.sinn)
  let b := convCode peak (x.cosp - x.cosn)
  let out := pinsOut half x
  let clip := !busy && (a.2 || b.2)
  let inv := out != 0 || clip
  let run := if inv then f.invRun + 1 else 0
  { f with
    cmw := out, clip := clip, invRun := run
    invCnt := if inv && !busy then min 65535 (f.invCnt + 1) else f.invCnt
    clipCnt := if clip then min 65535 (f.clipCnt + 1) else f.clipCnt
    cmwDue := f.cmwDue || decide (run = 3)
    rawSin := a.1 - cal.1
    rawCos := b.1 - cal.2 }

/-- The bits WB_SINP to ADC_CLIP follow the latest sample (R128), and CMW ends at a valid one (R130). -/
def State.sampleBits (s : State) (n : Fin 8) : State :=
  let f := s.pch[n].fe
  let s1 := [0, 1, 2, 3].foldl (fun st b => st.pcond n b (f.cmw.getLsbD b)) s
  let s2 := s1.pcond n 4 f.clip
  if f.invRun = 0 ∧ s2.pch[n].live.getLsbD 0 then s2.causeEnds n 0 else s2

/-- The sums with one valid sample added (R133): reference `r`, quadrature `q`, `age` in ns. -/
def TickSum.add (t : TickSum) (xs xc r q age : Rat) : TickSum :=
  { t with
    si := t.si + xs * r, sq := t.sq + xs * q, ci := t.ci + xc * r, cq := t.cq + xc * q
    e := t.e + r * r, ea := t.ea + r * r * age }

/-- Reference and quadrature reference for a sample at cycle `c` (R132, R133, R135). -/
def State.refAt (s : State) (n : Fin 8) (c : Nat) : Rat × Rat :=
  if s.baseband n then (1, 0)
  else
    let x := s.exc[s.drv n]
    let phi := x.phaseAt c - s.pch[n].ph.d
    (sinT phi, cosT phi)

/-- One sample of a tick, `k` samples of 100 ns before the tick's instant (R128, R133). -/
def State.oneSample (s : State) (n : Fin 8) (k : Nat) (x : Sample) (t : TickSum) : State × TickSum :=
  let busy := s.trimBusy n
  let f := s.pch[n].fe.sample (s.rangePeak n) (s.cmwHalf n) (s.calOfs n) busy x
  let s1 := (s.setPch n { s.pch[n] with fe := f }).sampleBits n
  if busy || f.invRun != 0 then (s1, { t with ok := false })
  else
    let rq := s.refAt n (s.clk.cyc - 40 * k)
    (s1, t.add f.rawSin f.rawCos rq.1 rq.2 (100 * k))

/-- The five samples of a tick, oldest first (R131). -/
def State.fiveSamples (s : State) (n : Fin 8) (i : TickSamples) : State × TickSum :=
  let t0 : TickSum := ⟨0, 0, 0, 0, 0, 0, true, 0⟩
  let r0 := s.oneSample n 4 i.s0 t0
  let r1 := r0.1.oneSample n 3 i.s1 r0.2
  let r2 := r1.1.oneSample n 2 i.s2 r1.2
  let r3 := r2.1.oneSample n 1 i.s3 r2.2
  r3.1.oneSample n 0 i.s4 r3.2

/-! ## The pair -/

/-- The window of R133: ticks from the newest, `i` of them taken, until the energy reaches 2.0; at most `lim`. -/
def window (s : TickSum) (i lim : Nat) : List TickSum → TickSum × Nat
  | [] => (s, i)
  | h :: t =>
    if lim ≤ i ∨ 2 ≤ s.e then (s, i)
    else window ⟨s.si + h.si, s.sq + h.sq, s.ci + h.ci, s.cq + h.cq, s.e + h.e, s.ea + h.ea + h.e * 500 * i, true, 0⟩
      (i + 1) lim t

/-- The front correction (R180); `m` is M_AVG of the previous tick as a fraction of the range peak. Offsets act in
codes, 26,214 for the range peak (R126). -/
def frontCorrect (c : SclSet) (m sn cs : Rat) : Rat × Rat :=
  if c.apply then
    let s0 := sn - (c.sinOfs : Rat) / 2 ^ 18 * m * 26214
    let c0 := cs - (c.cosOfs : Rat) / 2 ^ 18 * m * 26214
    let im := (c.imbal : Rat) / 2 ^ 18
    let s1 := s0 / (1 + im / 2)
    let c1 := c0 / (1 - im / 2)
    let q := (c.quad : Rat) / 2 ^ 20
    (s1, if c.quad = 0 then c1 else (c1 + s1 * sinT q) / cosT q)
  else (sn, cs)

/-- Ticks of the most recent carrier period (R141): 8 in baseband mode. -/
def State.periodTicks (s : State) (n : Fin 8) : Nat :=
  if s.baseband n then 8 else max 1 (roundFree 23 (2000000 / (max 1 s.exc[s.drv n].freq : Nat))).toNat

/-- The mean of a list of rationals; 0 of an empty one. -/
def ratMean (l : List Rat) : Rat := if l.length = 0 then 0 else l.sum / (l.length : Nat)

/-- The pair of a tick formed from the history, and M with its average (R133 to R135, R141, R180). The tick's word is
stored in the history with check bits as INV_1 says, and the older words of the window are read back (R363, R364). A window
with no energy at all, by which the listing would divide, gives zero for sin, cos, both quadratures and the age, hence M = 0
(DESIGN CHOICE, assumption 66). -/
def State.formPair (s : State) (n : Fin 8) (t0 : TickSum) : State :=
  let x := s.pch[n]
  let t := { t0 with ecc := s.chkInv (.pch n) 1 }
  let bb := s.baseband n
  let hist := (t :: x.fe.hist).take 64
  let w := window ⟨0, 0, 0, 0, 0, 0, true, 0⟩ 0 (if bb then 1 else 64) hist
  let e := w.1.e
  let z (v : Rat) : Rat := if e = 0 then 0 else v / e
  let p := frontCorrect (s.scl[n]).cur (x.fe.mAvg / 4096) (z w.1.si) (z w.1.ci)
  let ok := t.ok && decide (2 ≤ e)
  let m := sqrtT (p.1 * p.1 + p.2 * p.2) * 4096 / 26214
  let mh := ((m, ok) :: x.fe.mHist).take (s.periodTicks n)
  let bad := ((x.fe.hist.take (w.2 - 1)).map TickSum.ecc).foldl max 0
  let s0 := if bad = 0 then s else s.checkerErr (.pch n) 1 (bad == 2)
  s0.setPch n { x with fe := { x.fe with
    hist := hist, sin := p.1, cos := p.2, sinQ := z w.1.sq, cosQ := z w.1.cq, pairOk := ok
    winTicks := w.2, age := if bb then 200 else z w.1.ea, mTick := m, mHist := mh
    mAvg := ratMean (mh.map Prod.fst) } }

/-- The current in µA of the code BD_CUR (Table 6.1). -/
def breakOf (code : Nat) : Nat :=
  match code with
  | 0 => 0
  | 1 => 20
  | 2 => 50
  | _ => 100

/-- Current in µA of the break-detect sources of channel `n`, out of SINP and COSP and into SINN and COSN: on while EN is set,
as BD_CUR says (Table 6.1, R125), from release on: until then the pins keep their state of Table 2.4 (R86, R98). In a Lookout
cycle channel LK_CH has them as copied (R435). -/
def State.breakCur (s : State) (n : Fin 8) : Nat :=
  if s.pwr.lkRun && s.PWR_LK_CFG_LK_CH == n.val then breakOf (s.pwr.lkSet.pchCfg.fld 8 2)
  else if s.boot.released && s.halfOn (pchHalf n.val) && s.PCH_CTRL_EN n.val == 1 then breakOf (s.PCH_CFG_BD_CUR n.val)
  else 0

/-- The tick is tagged SETTLE: one of its samples falls while the selected driver counts SETTLE periods or ramps
(R152). -/
def State.tickSettle (s : State) (n : Fin 8) : Bool :=
  let x := s.exc[s.drv n]
  !s.baseband n && (x.settling || decide (s.clk.cyc < x.calmAt + 160))

/-- M_AVG lies outside the amplitude window. -/
def State.ampOut (s : State) (n : Fin 8) : Bool :=
  let m := s.pch[n].fe.mAvg
  decide (m < (s.PCH_AMPW_AMPW_LO n.val : Rat)) || decide ((s.PCH_AMPW_AMPW_HI n.val : Rat) < m)

/-- One verdict of the amplitude window: source `b`, cause `i`. -/
def State.ampVerdict (s : State) (n : Fin 8) (b i : Nat) (v : Bool) : State :=
  let s1 := s.pcond n b v
  if v then (if s.pch[n].live.getLsbD i then s1 else s1.declareLoss n i) else s1.causeEnds n i

/-- The amplitude window (R142, R143): suspended, or not judging a period with an invalid pair, it leaves its verdicts
as they are. -/
def State.judgeAmp (s : State) (n : Fin 8) : State :=
  let x := s.pch[n]
  let settle := s.tickSettle n
  let till := if settle then s.clk.cyc + 200 * s.periodTicks n else x.fe.suspTill
  let susp := x.st == .phaseAcq || settle || decide (s.clk.cyc < till)
  let s1 := s.setPch n { x with fe := { x.fe with suspTill := till, susp := susp } }
  if susp || !(x.fe.mHist.all Prod.snd) then s1
  else
    let m := x.fe.mAvg
    (s1.ampVerdict n 6 1 (decide (m < (s.PCH_AMPW_AMPW_LO n.val : Rat)))).ampVerdict n 7 2
      (decide ((s.PCH_AMPW_AMPW_HI n.val : Rat) < m))

/-! ## Carrier-phase adaptation -/

/-- The tick added to the period under way (R137, R138); SETTLE in PHASE_ACQ restarts its counted periods
(Table 6.8). -/
def State.periodTick (s : State) (n : Fin 8) : State :=
  let x := s.pch[n]
  let f := x.fe
  let settle := s.tickSettle n
  let bad := x.ph.bad || !f.pairOk || settle || !x.lp.used || s.ampOut n
  let ph := { x.ph with
    num := x.ph.num + (f.sin * f.sinQ + f.cos * f.cosQ)
    den := x.ph.den + (f.sin * f.sin + f.cos * f.cos)
    bad := bad
    cnt := if settle && x.st == .phaseAcq then 0 else x.ph.cnt }
  s.setPch n { x with ph := ph }

/-- The counted period of a zero crossing (R137 to R140): δ̂ after it, and whether the unclipped estimate lies beyond
the limit. -/
def State.adapted (s : State) (n : Fin 8) (eps : Rat) : Rat × Bool :=
  let x := s.pch[n]
  if s.phMode n = 0 then (x.ph.d, false)
  else if x.st = .phaseAcq then (wrap01 (x.ph.d + eps), false)
  else
    let g := max 2 (s.PCH_PH_CFG_PH_GAIN n.val)
    let lim : Rat := (s.PCH_PH_CFG_PH_LIM n.val : Rat) / 1024
    let off := wrapHalf (x.ph.d + eps / (2 ^ g : Nat) - x.ph.centre)
    if lim < |off| then (wrap01 (x.ph.centre + clampRat (-lim) lim off), true)
    else (wrap01 (x.ph.centre + off), false)

/-- The work of channel `n` at a zero crossing of its driver (R137 to R140). Two choices of the model (DESIGN CHOICE, assumption
66): a carrier period with den = 0 is skipped with PH_HELD set, though R138 does not list it; and the part of a carrier period in
which the channel starts counts as its first period, towards PH_ACQ_PER and for the estimate. -/
def State.phaseAdapt (s : State) (n : Fin 8) : State :=
  let x := s.pch[n]
  if !s.pchOn n || s.baseband n then s
  else if x.ph.bad || decide (x.ph.den = 0) then
    s.setPch n { x with ph := { x.ph with num := 0, den := 0, bad := false, held := true } }
  else
    let eps := -(atanT x.ph.num x.ph.den)
    let r := s.adapted n eps
    let small := decide (|eps| < 1 / 4096)
    let ph := { x.ph with
      num := 0, den := 0, bad := false, held := false, d := r.1
      cnt := if x.st = .phaseAcq then x.ph.cnt + 1 else x.ph.cnt
      run := if small then x.ph.run + 1 else 0
      lock := x.ph.lock && decide (|eps| ≤ 1 / 1024) }
    (s.setPch n { x with ph := ph }).pcond n 9 r.2

end Sys2Proof.Machine
end

