-- ==== Sys2Proof/Machine/Track.lean ====
section
/-! DEFINITION. Angle tracking converter: the loop, harmonic correction, published values, turn counting, and the tick
of a channel (R151 to R177, R182 to R188, R194, R195). -/

namespace Sys2Proof.Machine

/-! ## Scaler: changes taking effect (R185, R194, R195, Table 8.5) -/

/-- Channel `n`'s Scaler replaced. -/
def State.setScl (s : State) (n : Fin 8) (x : Scl) : State := { s with scl := vset s.scl n x }

/-- The address of offset `off` of Scaler channel `n`. -/
def sclAddr (n : Fin 8) (off : Nat) : Nat := 0x60100 + n.val * 0x80 + off

/-- Address of coefficient register `r` of channel `n`: FRONT_OFS, FRONT_GQ, HARM_1 to HARM_16. -/
def coefAddr (n : Fin 8) (r : Fin 18) : Nat :=
  sclAddr n (if r.val < 2 then 0x0C + 4 * r.val else 0x18 + 4 * r.val)

/-- The coefficient registers `m` of channel `n` are written: their check bits as INV_1 says (R364). -/
def State.coefPut (s : State) (n : Fin 8) (m : BitVec 18) : State :=
  ((List.finRange 18).filter fun r => m.getLsbD r.val).foldl (fun st r => st.eccPut .scl (coefAddr n r)) s

/-- Pending changes are due: the channel is not locked, or E_TURNS changed in its latest tick, at which they were pending
already (R194, R195). -/
def State.sclDue (s : State) (n : Fin 8) : Bool :=
  (s.scl[n]).pend.isSome && (!s.pch[n].lp.locked || (s.pch[n].tn.turned && (s.scl[n]).pendSeen))

/-- The pending changes take effect together; NEUTRAL clears convergence and BLK_CNT; the revolution under way is
spoilt (R188, R194, Table 8.5). The block under way is discarded where the table frame changes, or where learning's own update
comes into force (R186, assumption 48). -/
def State.sclTake (s : State) (n : Fin 8) : State :=
  let x := s.scl[n]
  match x.pend with
  | none => s
  | some c =>
    let c1 := c.judgeAlign (s.polePairs n) s.SCL_LRN_LIM_CONV_TOL false
    let same := c1.align == x.cur.align && c1.aligned == x.cur.aligned && x.pendLrn == 0
    let l := if same then { x.lrn with revOk := false } else x.lrn.drop
    let l1 := if x.pendNeutral then { l.drop with conv := 0, convCnt := Vector.replicate 19 0, blkCnt := 0 } else l
    (s.coefPut n (if x.pendNeutral then BitVec.allOnes 18 else x.pendLrn)).setScl n { x with
      cur := c1, pend := none, pendNeutral := false, pendSeen := false, pendLrn := 0, pendFw := 0, src := x.pendSrc
      lrn := l1 }

/-- Pending changes applied if they are due. -/
def State.sclApplyDue (s : State) (n : Fin 8) : State := if s.sclDue n then s.sclTake n else s

/-! ## Harmonic correction (R182 to R184) -/

/-- The closed-loop response of the loop at `f` Hz, real and imaginary part (R151, R182): all three poles at −ω0. -/
def loopResp (w0 f : Rat) : Rat × Rat :=
  let o := 2 * piQ * f
  let nr := w0 ^ 3 - 3 * w0 * o ^ 2
  let ni := 3 * w0 ^ 2 * o
  let di := ni - o ^ 3
  let m := nr * nr + di * di
  ((nr * nr + ni * di) / m, (ni * nr - nr * di) / m)

/-- Every H_h for step `i` at loop speed `w` (R182). -/
def respAll (i pp : Nat) (w : Rat) : Vector (Rat × Rat) 16 :=
  Vector.ofFn fun h => if w = 0 then (1, 0) else loopResp (omega0 i) (((h.val + 1 : Nat) : Rat) * w / (pp : Nat))

/-- The term of order `i` + 1 applies: within HARM_MAX, and not omitted for want of alignment (R184, R185). -/
def SclSet.termOn (c : SclSet) (pp : Nat) (i : Fin 16) : Bool :=
  decide (i.val + 1 ≤ c.hmax) && (c.aligned || (i.val + 1) % pp == 0) && (c.a[i] != 0 || c.b[i] != 0)

/-- C in 2^-24 e-turn and dC/dθ_t per m-turn at table angle `t` (R182, R183); zero while APPLY is clear (R184). -/
def harmonic (c : SclSet) (hr : Vector (Rat × Rat) 16) (pp : Nat) (t : Rat) : Rat × Rat :=
  if c.apply then
    (List.finRange 16).foldl (fun acc i =>
      if c.termOn pp i then
        let h : Rat := (i.val + 1 : Nat)
        let sn := sinT (h * t)
        let cs := cosT (h * t)
        let x := cs * hr[i].1 - sn * hr[i].2
        let y := sn * hr[i].1 + cs * hr[i].2
        let a : Rat := c.a[i]
        let b : Rat := c.b[i]
        (acc.1 + a * x + b * y, acc.2 + 2 * piQ * h * (b * x - a * y))
      else acc) (0, 0)
  else (0, 0)

/-- The table angle in m-turns: the count of R170, the alignment and the loop angle, the count carried over a wrap that
the published angle has not yet seen (assumption 20); the first tick of an acquisition, which is not counted, has no
angle before it. -/
def State.tableAngle (s : State) (n : Fin 8) (th : Rat) (first : Bool) : Rat :=
  let x := s.pch[n]
  let pp := s.polePairs n
  let prev : Rat := if first then th else (x.pub.ang : Nat) / 2 ^ 24
  let pos : Rat := (x.tn.sector + (s.scl[n]).cur.align : Nat) + prev + wrapHalf (th - prev)
  wrap01 (pos / (pp : Nat))

/-! ## The loop (R151 to R164) -/

/-- The measured angle of a pair in turns, reversed with DIR_INV (R151). -/
def State.measured (s : State) (n : Fin 8) : Rat :=
  let f := s.pch[n].fe
  let m := atanT f.sin f.cos
  if s.PCH_TRK_CFG_DIR_INV n.val = 1 then 1 - m else m

/-- T, 500 ns. -/
def tickT : Rat := 1 / 2000000

/-- The loop on a used tick after the first (R151). -/
def Loop.update (l : Loop) (meas tau : Rat) : Loop :=
  let w0 := omega0 l.idx
  let th1 := wrap01 (l.th + l.w * tickT + l.a * tickT * tickT / 2)
  let w1 := l.w + l.a * tickT
  let at' := th1 - w1 * tau + l.a * tau * tau / 2
  let e := wrapHalf (meas - at')
  { l with
    th := wrap01 (th1 + 3 * w0 * tickT * e), w := w1 + 3 * w0 ^ 2 * tickT * e, a := l.a + w0 ^ 3 * tickT * e, e := e }

/-- The first used tick after a start (R159). -/
def Loop.first (l : Loop) (meas : Rat) : Loop :=
  { l with th := wrap01 meas, w := 0, a := 0, fresh := false }

/-- A coasted tick (R161); before the first used tick the states stand still (R159). -/
def Loop.coast (l : Loop) : Loop := if l.fresh then l else { l with th := wrap01 (l.th + l.w * tickT) }

/-- `v` of 2^-20 turn. -/
def t20 (v : Nat) : Rat := (v : Rat) / 2 ^ 20

/-- A step up is due, and one down where none up is (R156); `thr` is UP_CNT, `dwell` DWELL. -/
def Loop.upDue (l : Loop) (ceil thr : Nat) : Bool := decide (thr ≤ l.upCnt) && l.hold == 0 && decide (l.idx < ceil)
def Loop.downDue (l : Loop) (ceil floor thr dwell : Nat) : Bool :=
  !l.upDue ceil thr && decide (dwell ≤ l.dnCnt) && decide (floor < l.idx)

/-- The adaptive bandwidth on a used tick after lock (R156): counters, and the jump to the ceiling. A single step that is due is
BW_STEP_UP or BW_STEP_DOWN, and the limits apply after it. -/
def Loop.adapt (l : Loop) (ceil floor eUp eDown upHold thr dwell : Nat) : Loop :=
  let ae := |l.e|
  let l1 := if 8 * t20 eUp ≤ ae then { l with idx := ceil, upCnt := 0, dnCnt := 0, hold := upHold }
    else { l with
      hold := l.hold - 1
      upCnt := if t20 eUp ≤ ae then l.upCnt + 1 else 0
      dnCnt := if ae < t20 eDown then l.dnCnt + 1 else 0 }
  if l1.upDue ceil thr || l1.downDue ceil floor thr dwell then l1 else { l1 with idx := clampNat floor ceil l1.idx }

/-- SPD_LIM, 1 to 8,000. -/
def State.spdLim (s : State) (n : Fin 8) : Nat := clampNat 1 8000 (s.PCH_TRK_SPD_LIM_SPD_LIM n.val)

/-- UP_CNT and DWELL of the adaptive bandwidth; 0 acts as 1. -/
def State.bwThr (s : State) (n : Fin 8) : Nat := max 1 (s.PCH_TRK_BW_TIME_UP_CNT n.val)
def State.bwDwell (s : State) (n : Fin 8) : Nat := max 1 (s.PCH_TRK_BW_TIME_DWELL n.val)

/-- Counters of a used tick on which an error was formed (R156, R160, R176): lock, LOL, OVSPD, bandwidth, peak. The spec states no
rounding of |e| into PEAK: whole 2^-24 turns, the rest dropped, at most 0xFFFFFF (DESIGN CHOICE, assumption 67). -/
def State.loopCounts (s : State) (n : Fin 8) (l : Loop) : Loop :=
  let ceil := s.bwCeil n
  let adapt := decide (s.PCH_TRK_CFG_ADAPT_EN n.val = 1)
  if l.locked then
    let l1 := { l with
      lolRun := if t20 (s.PCH_TRK_LOL_CFG_E_LOL n.val) < |l.e| then l.lolRun + 1 else 0
      ovsRun := if (s.spdLim n : Rat) < |l.w| then l.ovsRun + 1 else 0
      peak := max l.peak (min 0xFFFFFF (|l.e| * 2 ^ 24).floor.toNat) }
    if adapt then l1.adapt ceil (s.bwFloor n) (s.PCH_TRK_BW_THR_E_UP n.val) (s.PCH_TRK_BW_THR_E_DOWN n.val)
      (s.PCH_TRK_BW_TIME_UP_HOLD n.val) (s.bwThr n) (s.bwDwell n)
    else { l1 with idx := ceil }
  else { l with
    idx := ceil
    lockCnt := if s.pch[n].st = .track ∧ |l.e| < t20 (s.PCH_TRK_LOCK_CFG_E_LOCK n.val) then l.lockCnt + 1 else 0 }

/-- The tick may be used (R152). -/
def State.usePair (s : State) (n : Fin 8) : Bool :=
  let x := s.pch[n]
  (x.st == .phaseAcq || x.st == .track) && x.fe.pairOk && !s.tickSettle n

/-- The step in force is the ceiling: during acquisition, and always when ADAPT_EN is clear (R156, R159). -/
def State.atCeil (s : State) (n : Fin 8) : Bool :=
  let x := s.pch[n]
  s.PCH_TRK_CFG_ADAPT_EN n.val != 1 || ((x.st == .phaseAcq || x.st == .track) && !x.lp.locked)

/-- One tick of the loop of channel `n` (R151, R159, R161 to R163). -/
def State.loopTick (s : State) (n : Fin 8) : State :=
  let x := s.pch[n]
  let used := s.usePair n
  let l0 := { x.lp with used := used, coastAt := s.clk.cyc, idx := if s.atCeil n then s.bwCeil n else x.lp.idx }
  let l1 :=
    if used then
      let m := s.measured n
      let l := if l0.fresh then l0.first m
        else s.loopCounts n (l0.update m (x.fe.age / 10 ^ 9))
      let acq := if x.st = .track ∧ l0.locked = false then l.acqTicks + 1 else l.acqTicks
      { l with coastFrom := some s.clk.cyc, acqTicks := acq }
    else { l0.coast with
      lockCnt := 0
      coastFrom := match l0.coastFrom with
        | none => some s.clk.cyc
        | some c => some c }
  let l2 := { l1 with ceil := s.bwCeil n, dir := if 1 < l1.w then true else if l1.w < -1 then false else l1.dir }
  s.setPch n { x with lp := l2 }

/-- CRATIO (Table 7.4): after lock in carrier mode, while 5 × |ω| exceeds the frequency of the selected driver. -/
def State.judgeCratio (s : State) (n : Fin 8) : State :=
  let l := s.pch[n].lp
  s.pcond n 20 (l.locked && !s.baseband n && decide ((s.exc[s.drv n].freq : Rat) < 5 * |l.w|))

/-- COAST_LONG ends at the first valid pair not tagged SETTLE, in any state (Table 7.4). -/
def State.endCoastLong (s : State) (n : Fin 8) : State :=
  if s.pch[n].fe.pairOk && !s.tickSettle n then (s.pcond n 16 false).causeEnds n 8 else s

/-! ## Publishing (R165 to R172) -/

/-- H_h recomputed every 64 ticks, and at once when the step changes (R182). -/
def State.respTick (s : State) (n : Fin 8) : State :=
  let x := s.scl[n]
  let l := s.pch[n].lp
  if 64 ≤ x.hAge + 1 ∨ x.hIdx ≠ l.idx then
    s.setScl n { x with hr := respAll l.idx (s.polePairs n) l.w, hAge := 0, hIdx := l.idx }
  else s.setScl n { x with hAge := x.hAge + 1 }

/-- Counting of one tick (R170): published angle from `a` to `b`. -/
def Turns.count (t : Turns) (pp a b : Nat) : Turns :=
  let d := wrapSigned (2 ^ 24) ((b : Int) - a)
  if 0 ≤ d ∧ b < a then
    { t with
      eTurns := (t.eTurns + 1) % 65536, turned := true
      sector := if t.sector + 1 ≥ pp then 0 else t.sector + 1
      mTurns := if t.sector + 1 ≥ pp then (t.mTurns + 1) % 65536 else t.mTurns }
  else if d < 0 ∧ a < b then
    { t with
      eTurns := (t.eTurns + 65535) % 65536, turned := true
      sector := if t.sector = 0 then pp - 1 else t.sector - 1
      mTurns := if t.sector = 0 then (t.mTurns + 65535) % 65536 else t.mTurns }
  else { t with turned := false }

/-- A PCH_SECT_SET write takes effect after the tick's own counting (R172); SECT_ALIGN moves against it (R187). -/
def State.takeSect (s : State) (n : Fin 8) : State :=
  let x := s.pch[n]
  match x.tn.pendSect with
  | none => s
  | some (v, mt) =>
    let pp := s.polePairs n
    let d : Int := (v : Int) - x.tn.sector
    let mv (c : SclSet) : SclSet := { c with align := (((c.align : Int) - d) % pp).toNat }
    let sc := s.scl[n]
    let s1 := s.setPch n { x with tn := { x.tn with sector := v, mTurns := mt, sectRef := true, pendSect := none } }
    s1.setScl n { sc with cur := mv sc.cur, pend := sc.pend.map mv }

/-- The values of one tick published (R165 to R172); `first` on the first tick of an acquisition, which is not
counted. Before it the registers keep their values but for the tag (R159) and a PCH_SECT_SET write (R172). -/
def State.publish (s : State) (n : Fin 8) (first : Bool) : State :=
  let x := s.pch[n]
  let settle := s.tickSettle n
  if x.lp.fresh then
    (s.setPch n { x with pub := { x.pub with tag := s.chanTag n settle }, tn := { x.tn with turned := false } }).takeSect n
  else
    let pp := s.polePairs n
    let c := harmonic (s.scl[n]).cur (s.scl[n]).hr pp (s.tableAngle n x.lp.th first)
    let ang := (roundFree 20 (wrap01 (x.lp.th - c.1 / 2 ^ 24) * 2 ^ 24)).toNat % 2 ^ 24
    let spd := clampInt (-(2 ^ 31)) (2 ^ 31 - 1)
      (roundFree 21 ((x.lp.w - c.2 * (x.lp.w / (pp : Nat)) / 2 ^ 24) * 65536))
    let acc := clampInt (-(2 ^ 31 - 1)) (2 ^ 31 - 1) (roundFree 22 (x.lp.a * 16))
    let tn := if first then { x.tn with turned := false } else x.tn.count pp x.pub.ang ang
    let s1 := (s.setPch n { x with tn := tn }).takeSect n
    let t := s1.pch[n].tn
    let pub : Pub := {
      ang := ang, spd := spd, acc := acc
      mang := (roundFree 24 (((t.sector * 2 ^ 24 + ang : Nat) : Rat) / (pp : Nat))).toNat % 2 ^ 24
      turns := t.mTurns * 65536 + t.eTurns, tag := s.chanTag n settle
      raw := (roundFree 25 (x.lp.th * 2 ^ 24)).toNat % 2 ^ 24, time := s.now, cyc := s.clk.cyc }
    s1.setPch n { s1.pch[n] with pub := pub, tn := t }

/-! ## Learning: what the estimator collects (R188) -/

/-- Every condition of R188 that one tick can show. -/
def State.learnOk (s : State) (n : Fin 8) : Bool :=
  let x := s.pch[n]
  let v : Rat := |x.lp.w| / (s.polePairs n : Nat)
  s.SCL_CTRL_LEARN n.val == 1 && (s.scl[n]).cur.apply && (s.pwr.st == .run || s.pwr.st == .doze) && x.lp.used &&
    x.lp.locked && !s.trimBusy n && decide ((max 1 s.SCL_SPD_WIN_SPD_LO : Nat) ≤ v) && decide (v ≤ (s.SCL_SPD_WIN_SPD_HI : Nat))

/-- The tick added to the revolution under way (R188): a passage of θ_t through zero ends it and begins the next. -/
def Learn.tick (l : Learn) (t : RevTick) (ok : Bool) : Learn :=
  match l.rev with
  | [] => { l with rev := [t], revOk := false, inRev := false }
  | p :: _ =>
    let good := ok && p.idx == t.idx
    if 1 / 2 < |t.tht - p.tht| then
      { l with done := l.rev, doneOk := l.inRev && l.revOk && good, revEnd := true, rev := [t], inRev := true, revOk := ok }
    else if l.inRev && l.revOk && good then { l with rev := t :: l.rev }
    else { l with rev := [t], revOk := false }

/-- The estimator of channel `n` takes the tick. -/
def State.learnTick (s : State) (n : Fin 8) : State :=
  let x := s.pch[n]
  let sc := s.scl[n]
  let tht := wrap01 (((x.tn.sector + sc.cur.align : Nat) + (x.pub.ang : Rat) / 2 ^ 24 +
    wrapHalf (x.lp.th - (x.pub.ang : Rat) / 2 ^ 24)) / (s.polePairs n : Nat))
  let t : RevTick := ⟨tht, x.lp.th, x.fe.sin, x.fe.cos, (x.pub.spd : Rat) / 65536, x.lp.idx⟩
  s.setScl n { sc with lrn := sc.lrn.tick t (s.learnOk n), pendSeen := sc.pend.isSome }

/-! ## The tick of a channel -/

/-- Channel `n` on one angle tick (Table 7.3): samples, pair, amplitude window, loop, correction, counting, tags,
adaptation sums and learning. In OFF, changes of the Scaler and of SECTOR that wait for the tick take effect (R172,
R195). -/
def State.chanTick (s : State) (n : Fin 8) (i : TickSamples) : State :=
  if !s.boot.released || !s.halfOn (pchHalf n.val) then s
  else if s.pch[n].st = .off then (s.sclApplyDue n).takeSect n
  else
    let s1 := s.sclApplyDue n
    let r := s1.fiveSamples n i
    let s2 := ((r.1.formPair n r.2).endCoastLong n).judgeAmp n
    let wasFresh := s2.pch[n].lp.fresh
    let s3 := ((s2.loopTick n).judgeCratio n).respTick n
    (((s3.publish n wasFresh).periodTick n).learnTick n)

end Sys2Proof.Machine
end

