-- ==== Sys2Proof/Machine/Pch.lean ====
section
/-! DEFINITION. The commands and events of the position channels (chapters "Position channel front end" and "Angle
tracking converter"). The angle tick itself is in Machine/Tick.lean. -/

namespace Sys2Proof.Machine

/-- The address of offset `off` in page PCH_n. -/
def pchAddr (n : Fin 8) (off : Nat) : Nat := (Page.pch n).base + off

/-- EN of PCH_CTRL is written (R147): the channel starts when EN is set, and goes OFF when it is cleared. -/
def State.pchSetEn (s : State) (n : Fin 8) (en : Bool) : State :=
  let a := pchAddr n 0x40
  let was := (s.reg a).bit 0
  let s1 := s.setReg a (bput (s.reg a) 0 en)
  if en && !was then s1.enableChan n
  else if !en && was then s1.stopChan n
  else s1

/-- CNT_CLR (PCH_CTRL): INV_CNT and CLIP_CNT clear. -/
def State.pchCntClr (s : State) (n : Fin 8) : State :=
  let x := s.pch[n]
  s.setPch n { x with fe := { x.fe with invCnt := 0, clipCnt := 0 } }

/-- PCH_ENABLE (R147). -/
def execPchEnable (n : Fin 8) (s : State) : Done :=
  finish (s.inst (pchHalf n.val) (pchAddr n 0x40) (.ok, s.pchSetEn n true))

/-- PCH_DISABLE (R147). -/
def execPchDisable (n : Fin 8) (s : State) : Done :=
  finish (s.inst (pchHalf n.val) (pchAddr n 0x40) (.ok, s.pchSetEn n false))

/-- PCH_CNT_CLR. -/
def execPchCntClr (n : Fin 8) (s : State) : Done :=
  finish (s.inst (pchHalf n.val) (pchAddr n 0x40) (.ok, s.pchCntClr n))

/-- The rs write of 1 to LOSS in FLT_STICKY of page PCH_n (R10, R146): accepted only when no loss cause is live. -/
def State.clearLoss (s : State) (n : Fin 8) : State :=
  if (s.fltLive (.pch n)).bit 5 then s
  else (s.updHdr (.pch n) fun f => { f with sticky := bput f.sticky 5 false }).rearm n

/-- LOSS_REARM (R146). -/
def execLossRearm (n : Fin 8) (s : State) : Done :=
  finish (s.inst (pchHalf n.val) (pchAddr n 0x08) (.ok, (s.clearLoss n).aliveWatch s))

/-- CMW_LOSS (R130): three consecutive invalid samples have been seen; CMW is live until the verdict of the first valid
sample after them. -/
def execCmwLoss (n : Fin 8) (s : State) : Done :=
  let x := s.pch[n]
  if s.pchOn n && x.fe.cmwDue then
    let s1 := (s.setPch n { x with fe := { x.fe with cmwDue := false } }).declareLoss n 0
    .next ((if x.fe.invRun = 0 then s1.causeEnds n 0 else s1).retag n)
  else .next s

/-- PHASE_ACQ_DONE (R138, R139): PH_ACQ_PER counted periods have passed; the limit is centred on δ̂ from here on. -/
def execPhaseAcqDone (n : Fin 8) (s : State) : Done :=
  let x := s.pch[n]
  if x.st = .phaseAcq ∧ max 2 (s.PCH_PH_CFG_PH_ACQ_PER n.val) ≤ x.ph.cnt then
    .next ((s.setPch n { x with st := .track, ph := { x.ph with centre := x.ph.d, cnt := 0 } }).retag n)
  else .next s

/-- PH_LOCK (R140): four consecutive counted periods with |eps| < 2^-12 turn. -/
def execPhLock (n : Fin 8) (s : State) : Done :=
  let x := s.pch[n]
  if s.pchOn n && decide (4 ≤ x.ph.run) then .next (s.setPch n { x with ph := { x.ph with lock := true } })
  else .next s

/-- LOCK_DECLARED (R160): ACQ clears, VALID and LOCKED set, the bandwidth rule starts from the ceiling, and the faults
after lock start to be evaluated. A channel that has declared loss in the tick does not lock (R177). -/
def execLockDeclared (n : Fin 8) (s : State) : Done :=
  let x := s.pch[n]
  if s.pchOn n && x.st == .track && !x.lp.locked && x.lp.used &&
      decide (max 1 (s.PCH_TRK_LOCK_CFG_LOCK_TICKS n.val) ≤ x.lp.lockCnt) then
    let lp := { x.lp with
      locked := true, idx := s.bwCeil n, upCnt := 0, dnCnt := 0, hold := 0, lolRun := 0, ovsRun := 0 }
    .next (((s.setPch n { x with lp := lp }).judgeCratio n).retag n)
  else .next s

/-- The bandwidth rule runs: locked, ADAPT_EN set, the latest tick used (R156). -/
def State.adaptRuns (s : State) (n : Fin 8) : Bool :=
  let x := s.pch[n]
  s.pchOn n && x.lp.locked && x.lp.used && s.PCH_TRK_CFG_ADAPT_EN n.val == 1

/-- BW_STEP_UP (R156). -/
def execBwStepUp (n : Fin 8) (s : State) : Done :=
  let x := s.pch[n]
  if s.adaptRuns n && x.lp.upDue (s.bwCeil n) (s.bwThr n) then
    let lp := { x.lp with
      idx := clampNat (s.bwFloor n) (s.bwCeil n) (x.lp.idx + 1), upCnt := 0, dnCnt := 0, hold := s.PCH_TRK_BW_TIME_UP_HOLD n.val }
    .next (s.setPch n { x with lp := lp })
  else .next s

/-- BW_STEP_DOWN (R156). -/
def execBwStepDown (n : Fin 8) (s : State) : Done :=
  let x := s.pch[n]
  if s.adaptRuns n && x.lp.downDue (s.bwCeil n) (s.bwFloor n) (s.bwThr n) (s.bwDwell n) then
    .next (s.setPch n { x with lp := { x.lp with idx := clampNat (s.bwFloor n) (s.bwCeil n) (x.lp.idx - 1), dnCnt := 0 } })
  else .next s

/-- Cycles of the present coast: from the last used tick, or from the first tick after the start, to the latest tick
(R162). -/
def Loop.coastCyc (l : Loop) : Nat := match l.coastFrom with
  | none => 0
  | some c => l.coastAt - c

/-- The present coast exceeds COAST_LIM (R163); not evaluated while LOST, nor on the ticks of a trim run (R199). -/
def State.coastTooLong (s : State) (n : Fin 8) : Bool :=
  let x := s.pch[n]
  s.pchOn n && x.st != .lost && !x.lp.used && decide ((s.scl[n]).trimLast < x.lp.coastAt) &&
    decide (usCyc (max 10 (s.PCH_TRK_TIMEOUT_COAST_LIM n.val)) < x.lp.coastCyc)

/-- COAST_LONG (R163): raised, and channel loss declared in that tick. -/
def execCoastLong (n : Fin 8) (s : State) : Done :=
  if s.coastTooLong n then .next (((s.pcond n 16 true).declareLoss n 8).retag n) else .next s

/-- A tracking fault that is live in the tick of detection only (Table 7.4): source `b`, cause `i`. -/
def State.trackFault (s : State) (n : Fin 8) (b i : Nat) : State :=
  ((s.event (.pch n) b (pchHalf n.val).copy).declareOnce n i).retag n

/-- LOL (R176): |e| > E_LOL on LOL_TICKS consecutive used ticks after lock. -/
def execLol (n : Fin 8) (s : State) : Done :=
  let x := s.pch[n]
  if s.pchOn n && decide (max 1 (s.PCH_TRK_LOL_CFG_LOL_TICKS n.val) ≤ x.lp.lolRun) && x.lp.used then
    .next ((s.setPch n { x with lp := { x.lp with lolRun := 0 } }).trackFault n 17 9)
  else .next s

/-- OVSPD (R176): |ω| > SPD_LIM on 16 consecutive used ticks after lock. -/
def execOvspd (n : Fin 8) (s : State) : Done :=
  let x := s.pch[n]
  if s.pchOn n && decide (16 ≤ x.lp.ovsRun) && x.lp.used then
    .next ((s.setPch n { x with lp := { x.lp with ovsRun := 0 } }).trackFault n 18 10)
  else .next s

/-- ACQ_TO (R176): acquisition in TRACK has lasted longer than ACQ_TMO, coasted time excluded. -/
def execAcqTo (n : Fin 8) (s : State) : Done :=
  let x := s.pch[n]
  if s.pchOn n && x.st == .track && !x.lp.locked &&
      decide (2000 * max 1 (s.PCH_TRK_TIMEOUT_ACQ_TMO n.val) < x.lp.acqTicks) then
    .next (s.trackFault n 19 11)
  else .next s

/-- A write of PCH_SECT_SET (R172): RANGE for SECT_SET at or above POLE_PAIRS, else it waits for the next tick. -/
def State.writeSect (s : State) (n : Fin 8) (v : Word) : Status × State :=
  if s.polePairs n ≤ v.fld 16 5 then s.only .range
  else
    let x := s.pch[n]
    (.ok, s.setPch n { x with tn := { x.tn with pendSect := some (v.fld 16 5, v.fld 0 16) } })

/-- PCH_SECT_SET (R172). -/
def execPchSectSet (n : Fin 8) (v : Word) (s : State) : Done :=
  finish (s.inst (pchHalf n.val) (pchAddr n 0x11C) (s.writeSect n v))

/-- The word of an angle register: angle in [31:8], tag in [7:0] (R13). -/
def angWord (ang : Nat) (tag : BitVec 8) : Word := BitVec.ofNat 32 (ang % 2 ^ 24 * 256 + tag.toNat)

/-- The newest set of channel `n` published at cycle `t`: a tick is published 1,200 ns after its sample instant
(Table 7.3). -/
def State.publishedAt (s : State) (n : Fin 8) (t : Nat) : Pub :=
  s.gen.wait.foldl (fun p w => if w.1 + 480 ≤ t then w.2[n] else p) s.gen.cur[n]

/-- A read of PCH_ANGLE captures the whole set (R165). -/
def State.pchCapture (s : State) (n : Fin 8) : State :=
  let p := s.publishedAt n s.clk.cyc
  let c (st : State) (off : Nat) (w : Word) := st.capture (pchAddr n off) w
  let s1 := c (c (c s 0x120 (angWord p.ang p.tag)) 0x124 (BitVec.ofInt 32 p.spd)) 0x128 (BitVec.ofInt 32 p.acc)
  let s2 := c (c s1 0x12C (angWord p.mang p.tag ^^^ 4)) 0x130 (BitVec.ofNat 32 p.turns)
  let s3 := c (c s2 0x134 (p.time.setWidth 32)) 0x138 ((p.time >>> 32).setWidth 32)
  c s3 0x13C (angWord p.raw p.tag ^^^ 4)

/-- PCH_ANGLE_READ (R165). -/
def execPchAngleRead (n : Fin 8) (s : State) : Done :=
  finish (s.instRead (pchHalf n.val) (pchAddr n 0x120) (.ok, s.pchCapture n))

/-- A prediction by Δ ns from the newest published tick (R173): angle in 2^-24 turn, speed in 2^-16 e-turn/s; α is zero
on a coasted tick. -/
def Pub.predict (p : Pub) (dns : Rat) : Rat × Rat :=
  let dt : Rat := dns / 10 ^ 9
  let al : Rat := if tagCoast p.tag then 0 else (p.acc : Rat) / 16
  let w : Rat := (p.spd : Rat) / 65536
  ((p.ang : Nat) + (w * dt + al * dt * dt / 2) * 2 ^ 24, (w + al * dt) * 65536)

/-- The time from now to t_p in ns (R174, R378). A PRED_TIME handed to the device becomes cycles by the present relation
between TIME and cycles; LEAD_NS is a duration (DEDUCED, assumption 54). -/
def State.predAhead (s : State) (n : Fin 8) : Rat :=
  if s.PCH_PRED_CFG_PRED_MODE n.val = 1 then (signedOf 32 (s.PCH_PRED_LEAD_LEAD_NS n.val) : Rat)
  else
    s.cyclesOf (wrapSigned (2 ^ 96) ((s.pch[n].tn.predT.toNat : Int) * 2 ^ 32 - s.clk.time)) * 5 / 2

/-- A read of PCH_PRED_ANG (R173, R174): the prediction formed from the newest published tick, its Δ in TCLK cycles (R378)
and limited to HORIZON, the speed captured. -/
def State.predRead (s : State) (n : Fin 8) : State :=
  let x := s.pch[n]
  let p := s.publishedAt n s.clk.cyc
  let hor : Rat := (1000 * clampNat 1 1000 (s.PCH_PRED_CFG_HORIZON n.val) : Nat)
  let d := s.predAhead n + ((s.clk.cyc : Rat) - (p.cyc : Rat)) * 5 / 2
  let dl := clampRat (-hor) hor d
  let cl := decide (d ≠ dl)
  let r := p.predict dl
  let tag := if cl then p.tag ||| 0x10 else p.tag
  let ang := wrapInt 24 (roundFree 26 r.1)
  let spd := clampInt (-(2 ^ 31)) (2 ^ 31 - 1) (roundFree 27 r.2)
  s.setPch n { x with tn := { x.tn with
    clamped := cl, predAng := angWord ang tag, predSpd := BitVec.ofInt 32 spd } }

/-- PCH_PRED_ANG_READ (R174). -/
def execPchPredAngRead (n : Fin 8) (s : State) : Done :=
  finish (s.instRead (pchHalf n.val) (pchAddr n 0x160) (.ok, s.predRead n))

/-- A write to PCH_PRED_TIME_LO is held until the write of _HI (R174). -/
def State.writePredLo (s : State) (n : Fin 8) (v : Word) : State :=
  let x := s.pch[n]
  (s.setPch n { x with tn := { x.tn with predLo := v } }).markParity (.pch n) (pchAddr n 0x158)

/-- A write to PCH_PRED_TIME_HI commits both words (R174). -/
def State.writePredHi (s : State) (n : Fin 8) (v : Word) : State :=
  let x := s.pch[n]
  (s.setPch n { x with tn := { x.tn with predT := v ++ x.tn.predLo } }).markParity (.pch n) (pchAddr n 0x15C)

/-- PCH_PRED_TIME_HI_WRITE (R174). -/
def execPchPredTimeHiWrite (n : Fin 8) (v : Word) (s : State) : Done :=
  finish (s.inst (pchHalf n.val) (pchAddr n 0x15C) (.ok, s.writePredHi n v))

/-- PEAK_CLR clears PEAK (PCH_TRK_CTRL). -/
def State.pchPeakClr (s : State) (n : Fin 8) : State :=
  let x := s.pch[n]
  s.setPch n { x with lp := { x.lp with peak := 0 } }

/-- PCH_PEAK_CLR. -/
def execPchPeakClr (n : Fin 8) (s : State) : Done :=
  finish (s.inst (pchHalf n.val) (pchAddr n 0x14C) (.ok, s.pchPeakClr n))

end Sys2Proof.Machine
end

