-- ==== Sys2Proof/Machine/Scl.lean ====
section
/-! DEFINITION. Scaler self-calibration: coefficient writes, learning, sector alignment, trim runs (R184 to R200,
R204). The corrections themselves are in Machine/Front.lean (R180) and Machine/Track.lean (R182, R183). -/

namespace Sys2Proof.Machine

/-! ## Changes held as pending (R194, R195) -/

/-- A change of the applied set or of the alignment becomes pending, on top of what is pending already. -/
def Scl.change (x : Scl) (src : Nat) (f : SclSet → SclSet) : Scl :=
  let base := x.pend.getD x.cur
  { x with pend := some (f base), pendSrc := src }

/-- The origin a pending set will have. -/
def Scl.nextSrc (x : Scl) : Nat := if x.pend.isSome then x.pendSrc else x.src

/-- Low and high half word of `v` as signed numbers. -/
def loS (v : Word) : Int := v.sfld 0 16
def hiS (v : Word) : Int := v.sfld 16 16

/-- A coefficient register written into a set: 0 FRONT_OFS, 1 FRONT_GQ, 2 + i HARM_(i+1). -/
def SclSet.putReg (c : SclSet) (r : Fin 18) (v : Word) : SclSet :=
  if r.val = 0 then { c with sinOfs := loS v, cosOfs := hiS v }
  else if r.val = 1 then { c with imbal := loS v, quad := hiS v }
  else
    let i : Fin 16 := Fin.ofNat 16 (r.val - 2)
    { c with a := vset c.a i (loS v), b := vset c.b i (hiS v) }

/-- A coefficient register read: the applied values. -/
def SclSet.getReg (c : SclSet) (r : Fin 18) : Word :=
  let w (lo hi : Int) : Word := BitVec.ofNat 32 (wrapInt 16 hi * 65536 + wrapInt 16 lo)
  if r.val = 0 then w c.sinOfs c.cosOfs
  else if r.val = 1 then w c.imbal c.quad
  else
    let i : Fin 16 := Fin.ofNat 16 (r.val - 2)
    w c.a[i] c.b[i]

/-- The learning block under way is discarded. -/
def Scl.dropBlock (x : Scl) : Scl := { x with lrn := x.lrn.drop }

/-- A firmware write of a coefficient register (R194); with a learning update of it pending too, the block under way is
discarded (Table 8.5). -/
def State.sclCoef (s0 : State) (n : Fin 8) (r : Fin 18) (v : Word) : State :=
  let s := s0.eccPut .scl (coefAddr n r)
  let x := (s.scl[n]).change 3 fun c => c.putReg r v
  let y := { x with pendFw := bput x.pendFw r.val true, pendLrn := bput x.pendLrn r.val false }
  s.setScl n (if x.pendLrn.getLsbD r.val then y.dropBlock else y)

/-- SCL_COEF_WRITE (R194). -/
def execSclCoefWrite (n : Fin 8) (reg : Fin 18) (v : Word) (s : State) : Done :=
  finish (s.inst (pchHalf n.val) (coefAddr n reg) (.ok, s.sclCoef n reg v))

/-- HARM_MAX, 1 to 16. -/
def harmMax (v : Word) : Nat := clampNat 1 16 (v.fld 16 5)

/-- APPLY, LEARN and HARM_MAX of SCL_n_CTRL written (R184, R188, R194). -/
def State.sclCtrl (s : State) (n : Fin 8) (v : Word) : State :=
  let s1 := s.setReg (sclAddr n 0) (v &&& ~~~(0x1C : Word))
  let x := s1.scl[n]
  let c := x.pend.getD x.cur
  if c.apply = v.bit 1 ∧ c.hmax = harmMax v then s1
  else s1.setScl n (x.change x.nextSrc fun d => { d with apply := v.bit 1, hmax := harmMax v })

/-- A write of SCL_n_CTRL completes with RANGE where ALIGN_VAL is at or above POLE_PAIRS (the register's field table). -/
def State.alignRange (s : State) (n : Fin 8) (v : Word) : Bool := decide (s.polePairs n ≤ v.fld 8 4)

/-- SCL_APPLY_WRITE (R184, R194, R205). -/
def execSclApplyWrite (n : Fin 8) (v : Word) (s : State) : Done :=
  finish (s.inst (pchHalf n.val) (sclAddr n 0)
    (if s.alignRange n v then s.only .range else (.ok, s.sclCtrl n (v &&& ~~~(0x1C : Word)))))

/-- The set with every coefficient zero, ALIGNED set (Table 8.5, R185). -/
def SclSet.toNeutral (c : SclSet) : SclSet := { ({} : SclSet) with hmax := c.hmax, apply := c.apply }

/-- NEUTRAL written (Table 8.5). -/
def State.sclNeutral (s : State) (n : Fin 8) : State :=
  s.setScl n { (s.scl[n]).change 0 SclSet.toNeutral with pendNeutral := true, pendLrn := 0, pendFw := 0 }

/-- NEUTRAL (Table 8.5). -/
def execNeutral (n : Fin 8) (s : State) : Done :=
  finish (s.inst (pchHalf n.val) (sclAddr n 0) (.ok, s.sclNeutral n))

/-- ALIGN_WR with ALIGN_VAL `v` (R187): RANGE at or above POLE_PAIRS. -/
def State.sclAlign (s : State) (n : Fin 8) (v : Nat) : Status × State :=
  if s.polePairs n ≤ v then s.only .range
  else
    let x := s.scl[n]
    (.ok, s.setScl n (x.change x.nextSrc fun c => { c with align := v, aligned := true }))

/-- ALIGN_WR (R187); ALIGN_VAL is a stored field. -/
def execAlignWr (n : Fin 8) (v : BitVec 4) (s : State) : Done :=
  let a := sclAddr n 0
  let r := s.sclAlign n v.toNat
  finish (s.inst (pchHalf n.val) a
    (r.1, if r.1 = .ok then r.2.setReg a ((r.2.reg a &&& ~~~(0xF00 : Word)) ||| Word.put 8 4 v.toNat) else r.2))

/-- SCL_PENDING_APPLY (R194, R195). -/
def execSclPendingApply (n : Fin 8) (s : State) : Done := .next (s.sclApplyDue n)

/-! ## Revolutions (R188) -/

/-- Position of a tick in its revolution, 0 to 1 in the direction of travel. -/
def RevTick.pos (t : RevTick) : Rat := if t.spd < 0 then 1 - t.tht else t.tht

/-- Mean speed of the ticks of a revolution. -/
def meanSpd (l : List RevTick) : Rat := ratMean (l.map RevTick.spd)

/-- Mean speeds of the first and last eighths. -/
def eighths (l : List RevTick) : Rat × Rat :=
  (meanSpd (l.filter fun t => decide (t.pos < 1 / 8)), meanSpd (l.filter fun t => decide (7 / 8 ≤ t.pos)))

/-- First and last eighths differ by no more than 1/16 of the mean speed (R188). -/
def steadyRev (l : List RevTick) : Bool :=
  let e := eighths l
  decide (|e.1 - e.2| ≤ |meanSpd l| / 16)

/-- REVOLUTION_END (R188): the revolution just ended joins the block, or is discarded whole. -/
def execRevolutionEnd (n : Fin 8) (s : State) : Done :=
  let x := s.scl[n]
  if x.lrn.revEnd then
    let ok := x.lrn.doneOk && !x.lrn.done.isEmpty && steadyRev x.lrn.done
    let l := { x.lrn with
      revEnd := false, done := [], doneOk := false, blk := if ok then x.lrn.blk ++ [x.lrn.done] else x.lrn.blk }
    .next (s.setScl n { x with lrn := l })
  else .next s

/-! ## Residuals of a block (R189 to R191) -/

/-- Harmonic `h` is learnable in a revolution (R189). -/
def learnable (pp h : Nat) (l : List RevTick) : Bool :=
  match l with
  | [] => false
  | t :: _ => decide ((h : Rat) * |meanSpd l| / (pp : Nat) ≤ (bwHz t.idx : Rat) / 2)

/-- The sums Σ r sin, Σ r cos of order `h` over a revolution (R191); the trend is the straight line through the mean
speeds of the first and last eighths, over the position in the revolution (assumption 21). -/
def ripple (h : Nat) (l : List RevTick) : Rat × Rat :=
  let w := meanSpd l
  let e := eighths l
  l.foldl (fun acc t =>
    let line := e.1 + (e.2 - e.1) * (t.pos - 1 / 16) * 8 / 7
    let r := if w = 0 then 0 else (t.spd - line) / w
    (acc.1 + r * sinT ((h : Rat) * t.tht), acc.2 + r * cosT ((h : Rat) * t.tht))) (0, 0)

/-- Complex quotient. -/
def cdiv (a b : Rat × Rat) : Rat × Rat :=
  let m := b.1 * b.1 + b.2 * b.2
  if m = 0 then (0, 0) else ((a.1 * b.1 + a.2 * b.2) / m, (a.2 * b.1 - a.1 * b.2) / m)

/-- The residual (A, B) of order `h` in turns (R191); none if `h` was learnable in fewer than half of the block's
revolutions (R189). A − jB is what the response H_h multiplies in R182 (assumption 21). -/
def harmResid (pp blkRev h : Nat) (blk : List (List RevTick)) : Option (Rat × Rat) :=
  let ls := blk.filter fun l => learnable pp h l
  if 2 * ls.length < blkRev ∨ ls.length = 0 then none
  else
    let n : Rat := ((ls.map List.length).sum : Nat)
    let sums := ls.map (ripple h)
    let ys := (sums.map Prod.fst).sum / n
    let yc := (sums.map Prod.snd).sum / n
    let ra := -(pp : Rat) * ys / (piQ * h)
    let rb := (pp : Rat) * yc / (piQ * h)
    let hs := ls.map fun l => match l with
      | [] => ((1, 0) : Rat × Rat)
      | t :: _ => loopResp (omega0 t.idx) ((h : Rat) * meanSpd l / (pp : Nat))
    let hm := (ratMean (hs.map Prod.fst), ratMean (hs.map Prod.snd))
    let q := cdiv (ra, -rb) hm
    some (q.1, -q.2)

/-- Means over 64 bins of loop angle of f (R190): the mean of each bin first, then over the bins that hold a tick. -/
def binMean (ts : List RevTick) (f : RevTick → Rat) : Rat :=
  let bins := (List.range 64).map fun b => ts.filter fun t => decide ((wrap01 t.th * 64).floor = (b : Int))
  ratMean ((bins.filter fun l => !l.isEmpty).map fun l => ratMean (l.map f))

/-- The front residuals of a block (R190): offsets as fractions of A, imbalance, quadrature in turns. -/
structure FrontRes where
  os : Rat
  oc : Rat
  imb : Rat
  q : Rat

/-- Arcsine in turns. -/
def asinT (z : Rat) : Rat := atanT z (sqrtT (1 - z * z))

/-- The front residuals of a block (R190). -/
def frontResid (blk : List (List RevTick)) : FrontRes :=
  let ts := blk.flatten
  let ss := binMean ts fun t => t.s * t.s
  let cc := binMean ts fun t => t.c * t.c
  let a2 := ss + cc
  let a := sqrtT a2
  if a2 = 0 then ⟨0, 0, 0, 0⟩
  else ⟨binMean ts RevTick.s / a, binMean ts RevTick.c / a, (ss - cc) / a2,
    asinT (-2 * binMean ts (fun t => t.s * t.c) / a2)⟩

/-! ## Updates (R192, R193) -/

/-- Length of a vector. -/
def len2 (p : Rat × Rat) : Rat := sqrtT (p.1 * p.1 + p.2 * p.2)

/-- The factor that brings an angle-equivalent `u` within `lim`. -/
def limitFactor (u lim : Rat) : Rat := if u ≤ lim ∨ u = 0 then 1 else lim / u

/-- A coefficient with the update `u`, rounded down in magnitude (Table 8.2), saturated at its format (R192). -/
def addCoef (c : Int) (u : Rat) : Int :=
  clampInt (-32768) 32767 (c + (if u < 0 then -((-u).floor) else u.floor))

/-- Convergence of coefficient group `g` after a block with residual `r`, angle-equivalent (R193). -/
def Learn.judge (l : Learn) (g : Fin 19) (r : Rat) (tol blocks : Nat) : Learn :=
  let c := if r < tol then l.convCnt[g] + 1 else 0
  let on := if decide (blocks ≤ c) then true else if (2 * tol : Nat) < r then false else l.conv.getLsbD g.val
  { l with convCnt := vset l.convCnt g c, conv := bput l.conv g.val on }

/-- What a block uses of the configuration. -/
structure LrnCfg where
  pp : Nat
  blkRev : Nat
  shift : Nat
  upd : Nat
  tol : Nat
  convBlk : Nat

/-- The settings of the estimator for channel `n`. -/
def State.lrnCfg (s : State) (n : Fin 8) : LrnCfg :=
  ⟨s.polePairs n, max 2 s.SCL_LRN_CFG_BLK_REV, min 4 s.SCL_LRN_CFG_LRN_SHIFT, s.SCL_LRN_LIM_UPD_LIM,
    s.SCL_LRN_LIM_CONV_TOL, max 1 s.SCL_LRN_CFG_CONV_BLK⟩

/-- The update of one harmonic (R192, R193): set, learning, largest residual. -/
def harmStep (k : LrnCfg) (cur : SclSet) (blk : List (List RevTick)) (acc : SclSet × Learn × Rat) (i : Fin 16) :
    SclSet × Learn × Rat :=
  if i.val + 1 ≤ cur.hmax ∧ (cur.aligned ∨ (i.val + 1) % k.pp = 0) then
    match harmResid k.pp k.blkRev (i.val + 1) blk with
    | none => acc
    | some r =>
      let eq := len2 r * 2 ^ 24
      let f := limitFactor (eq / (2 ^ k.shift : Nat)) k.upd * 2 ^ 24 / (2 ^ k.shift : Nat)
      ({ acc.1 with
          a := vset acc.1.a i (addCoef cur.a[i] (r.1 * f)), b := vset acc.1.b i (addCoef cur.b[i] (r.2 * f)) },
        acc.2.1.judge (Fin.ofNat 19 i.val) eq k.tol k.convBlk, max acc.2.2 eq)
  else acc

/-- The update of the front coefficients (R192, R193). -/
def frontStep (k : LrnCfg) (cur : SclSet) (r : FrontRes) (acc : SclSet × Learn × Rat) : SclSet × Learn × Rat :=
  let g : Rat := 1 / (2 ^ k.shift : Nat)
  let eo := len2 (r.os, r.oc) / (2 * piQ) * 2 ^ 24
  let ei := |r.imb| / (4 * piQ) * 2 ^ 24
  let eq := |r.q| * 2 ^ 24
  let fo := limitFactor (eo * g) k.upd * g * 2 ^ 18
  let fi := limitFactor (ei * g) k.upd * g * 2 ^ 18
  let fq := limitFactor (eq * g) k.upd * g * 2 ^ 20
  let c := { acc.1 with
    sinOfs := addCoef cur.sinOfs (r.os * fo), cosOfs := addCoef cur.cosOfs (r.oc * fo)
    imbal := addCoef cur.imbal (r.imb * fi), quad := addCoef cur.quad (r.q * fq) }
  (c, ((acc.2.1.judge 16 eo k.tol k.convBlk).judge 17 ei k.tol k.convBlk).judge 18 eq k.tol k.convBlk,
    max acc.2.2 (max eo (max ei eq)))

/-! ## Sector alignment (R186) -/

/-- The pair of order `h` turned into the frame of candidate `k` (R186). -/
def rotPair (pp h k : Nat) (c : Rat × Rat) : Rat × Rat :=
  let p : Rat := ((h * k : Nat) : Rat) / (pp : Nat)
  (c.1 * cosT p + c.2 * sinT p, c.2 * cosT p - c.1 * sinT p)

/-- Cost of candidate `k` over the omitted terms (R186), in 2^-24 e-turn squared. -/
def alignCost (c : LrnCfg) (cur : SclSet) (blk : List (List RevTick)) (k : Nat) : Rat :=
  ((List.finRange 16).map fun i =>
    if i.val + 1 ≤ cur.hmax ∧ (i.val + 1) % c.pp ≠ 0 then
      match harmResid c.pp c.blkRev (i.val + 1) blk with
      | none => 0
      | some r =>
        let q := rotPair c.pp (i.val + 1) k (cur.a[i], cur.b[i])
        let dx := r.1 * 2 ^ 24 - q.1
        let dy := r.2 * 2 ^ 24 - q.2
        dx * dx + dy * dy
    else 0).sum

/-- Smallest and second smallest cost: (candidate, its cost, second cost); the first of equal costs. -/
def bestTwo : List (Nat × Rat) → Nat × Rat × Option Rat
  | [] => (0, 0, none)
  | (k, v) :: t =>
    t.foldl (fun b p =>
      if p.2 < b.2.1 then (p.1, p.2, some b.2.1)
      else match b.2.2 with
        | none => (b.1, b.2.1, some p.2)
        | some w => (b.1, b.2.1, some (min w p.2))) (k, v, none)

/-- The set with every omitted term zero (R186). -/
def SclSet.dropOmitted (c : SclSet) (pp : Nat) : SclSet :=
  let z (v : Vector Int 16) : Vector Int 16 := Vector.ofFn fun i => if (i.val + 1) % pp = 0 then v[i] else 0
  { c with a := z c.a, b := z c.b }

/-- The outcome of an alignment block (R186). -/
inductive AlignEnd | accepted | tried | failed
  deriving DecidableEq, Repr

/-- The end of an alignment block (R186): an accepted candidate, counted from the frame measured in, which a
PCH_SECT_SET write may have moved (Table 8.5); or the fourth failure, which drops the omitted terms and raises ALIGN_FAIL.
`u` is the set with this block's updates of the other terms. -/
def State.alignBlock (s : State) (n : Fin 8) (k : LrnCfg) (blk : List (List RevTick)) (u : SclSet) :
    SclSet × Nat × AlignEnd :=
  let x := s.scl[n]
  let r := bestTwo ((List.range k.pp).map fun c => (c, alignCost k x.cur blk c))
  let ok := match r.2.2 with
    | none => true
    | some w => decide (4 * r.2.1 ≤ w)
  if ok then ({ u with align := (x.cur.align + r.1) % k.pp, aligned := true }, 0, .accepted)
  else if x.lrn.tries + 1 = 4 then ({ u.dropOmitted k.pp with align := 0, aligned := true }, 0, .failed)
  else (u, x.lrn.tries + 1, .tried)

/-- The coefficient registers that a block updates (R189, R192): the front ones, and each learnable harmonic in use. -/
def blockRegs (k : LrnCfg) (cur : SclSet) (blk : List (List RevTick)) : BitVec 18 :=
  (List.finRange 16).foldl (fun w i =>
    if i.val + 1 ≤ cur.hmax ∧ (cur.aligned ∨ (i.val + 1) % k.pp = 0) ∧
        (harmResid k.pp k.blkRev (i.val + 1) blk).isSome = true then bput w (i.val + 2) true
    else w) 3

/-- LEARN_BLOCK_END (R186, R189 to R193): BLK_REV accepted revolutions end the block; its limited updates become
pending, convergence is judged but for a block that alignment has not accepted, BLK_CNT counts. An update over a firmware
write that is pending too discards the block under way (Table 8.5). -/
def execLearnBlockEnd (n : Fin 8) (s : State) : Done :=
  let x := s.scl[n]
  let k := s.lrnCfg n
  if x.lrn.blk.length < k.blkRev then .next s
  else
    let base := x.pend.getD x.cur
    let l0 := { x.lrn with blk := [], blkCnt := min 65535 (x.lrn.blkCnt + 1) }
    let f := frontStep k x.cur (frontResid x.lrn.blk) (base, l0, 0)
    let r := (List.finRange 16).foldl (harmStep k x.cur x.lrn.blk) f
    let al := if x.cur.aligned then (r.1, x.lrn.tries, .accepted) else s.alignBlock n k x.lrn.blk r.1
    let conv := if al.2.2 = .accepted then r.2.1 else { r.2.1 with convCnt := l0.convCnt, conv := l0.conv }
    let l1 := { conv with tries := al.2.1, resid := min 65535 (roundFree 28 r.2.2).toNat }
    let regs := blockRegs k x.cur x.lrn.blk
    let y := { x with
      pend := some al.1, pendSrc := 2, lrn := l1, pendLrn := x.pendLrn ||| regs, pendFw := x.pendFw &&& ~~~regs }
    let s1 := s.setScl n (if x.pendFw &&& regs = 0 then y else y.dropBlock)
    .next (if al.2.2 = .failed then s1.event .scl (4 * n.val + 1) (pchHalf n.val).copy else s1)

/-- COEF_SAT: a coefficient stands at a format limit (R192). -/
def SclSet.sat (c : SclSet) : Bool :=
  let lim (v : Int) : Bool := v == 32767 || v == -32768
  lim c.sinOfs || lim c.cosOfs || lim c.imbal || lim c.quad ||
    (List.finRange 16).any fun i => lim c.a[i] || lim c.b[i]

/-- ALL_CV: every coefficient up to HARM_MAX is converged (R193). -/
def Scl.allConv (x : Scl) : Bool :=
  ((List.range 16).all fun i => decide (x.cur.hmax < i + 1) || x.lrn.conv.getLsbD i) &&
    x.lrn.conv.getLsbD 16 && x.lrn.conv.getLsbD 17 && x.lrn.conv.getLsbD 18

/-! ## Trim runs (R196 to R200) -/

/-- A trim of the channel is asked for; it awaits its gate from now on, on its own and apart from a sweep (R196). -/
def State.trimReq (s : State) (n : Fin 8) : State :=
  let x := s.scl[n]
  if x.trimAsk then s
  else s.setScl n { x with trimAsk := true, trimFrom := if x.trimSweep then x.trimFrom else s.clk.cyc }

/-- A run that the sweep asked for is under way on channel `m`. -/
def State.sweepRun (s : State) (m : Fin 8) : Bool := s.trimBusy m && !(s.scl[m]).trimOwn

/-- TRIM_REQ (R196). -/
def execTrimReq (n : Fin 8) (s : State) : Done :=
  finish (s.inst (pchHalf n.val) (sclAddr n 0) (.ok, s.trimReq n))

/-- The channels of a half, in order. -/
def chansOf (h : Half) : List (Fin 8) := (List.finRange 8).filter fun n => pchHalf n.val == h

/-- The other channels assigned to a drive of channel `n` are not in a trim run and their latest tick was used
(R197). -/
def State.partnerFree (s : State) (n : Fin 8) : Bool :=
  (List.finRange 8).all fun m =>
    m == n || !((s.names 0 n.val && s.names 0 m.val) || (s.names 1 n.val && s.names 1 m.val)) ||
      (!s.trimBusy m && s.pch[m].lp.used)

/-- The first tick after a run starting with the next sample lies within 1/16 period of a carrier peak (R197): 129 ticks
after the latest one. -/
def State.peakAfter (s : State) (n : Fin 8) : Bool :=
  let p := (s.exc[s.drv n]).phaseAt (s.pch[n].lp.coastAt + 25800)
  s.baseband n || decide (|wrapHalf (2 * p - 1 / 2)| ≤ 1 / 8)

/-- The gate of a trim run (R197). -/
def State.trimGate (s : State) (n : Fin 8) : Bool :=
  let x := s.pch[n]
  match x.st with
  | .off | .lost => true
  | _ => x.lp.used && !s.tickSettle n && decide (|x.lp.a| ≤ (100 * s.SCL_TRIM_CFG_TRIM_ACC : Nat)) && s.partnerFree n

/-- A run may start now: at once in OFF and LOST, else at a tick from which the first tick after the run falls near a carrier
peak (R197). -/
def State.trimPlace (s : State) (n : Fin 8) : Bool :=
  let x := s.pch[n]
  match x.st with
  | .off | .lost => true
  | _ => x.lp.coastAt == s.clk.cyc && s.peakAfter n

/-- Channel `n` of a sweep awaits its gate from now on. -/
def State.awaitGate (s : State) (n : Fin 8) : State :=
  let x := s.scl[n]
  if x.trimSweep then s
  else s.setScl n { x with trimSweep := true, trimFrom := if x.trimAsk then x.trimFrom else s.clk.cyc }

/-- The turn in the sweep of half `h` passes over every channel whose gate is not met and stops at the first whose gate is;
each of them awaits its gate from then on (R196, R197). While a run is under way the turn stays. -/
def State.sweepTurns (s : State) (h : Half) : State :=
  let sw := (s.sclH.get h).sweep
  if sw.any fun m => s.sweepRun m then s
  else
    let before := sw.takeWhile fun m => !s.trimGate m
    (sw.take (before.length + 1)).foldl State.awaitGate s

/-- TRIM_SWEEP_START (R196): TRIM_AUTO set, no sweep running, and the reading TRIM_DT or more from the baseline. -/
def execTrimSweepStart (h : Half) (s : State) : Done :=
  let x := s.sclH.get h
  match x.base with
  | none => .next s
  | some b =>
    if s.boot.released && s.halfOn h && s.SCL_TRIM_CFG_TRIM_AUTO == 1 && x.sweep.isEmpty &&
        decide (max 1 s.SCL_TRIM_CFG_TRIM_DT ≤ (x.temp.toInt - b.toInt).natAbs) then
      .next ({ s with sclH := s.sclH.set h { x with sweep := chansOf h } }.sweepTurns h)
    else .next s

/-- It is the turn of channel `n`: its own request, or its sweep has no run under way and passes over every channel
before it for want of a gate (R196). -/
def State.trimTurn (s : State) (n : Fin 8) : Bool :=
  let x := s.scl[n]
  let sw := (s.sclH.get (pchHalf n.val)).sweep
  x.trimAsk ||
    (x.trimSweep && sw.contains n && (sw.takeWhile (· != n)).all (fun m => !s.trimGate m) && !sw.any fun m => s.sweepRun m)

/-- TRIM_RUN_START (R197, R198): the 128 ticks of the run begin with the next sample. A channel passed over by the sweep is
taken again after the others. A request that waits is served before the sweep's turn and leaves the sweep as it is (R196). -/
def execTrimRunStart (n : Fin 8) (s : State) : Done :=
  let h := pchHalf n.val
  let x := s.scl[n]
  if s.boot.released && s.halfOn h && !s.trimBusy n && s.trimTurn n && s.trimGate n && s.trimPlace n then
    let sw := (s.sclH.get h).sweep
    let before := sw.takeWhile (· != n)
    let sw1 := if !x.trimAsk && sw.contains n then n :: ((sw.drop (before.length + 1)) ++ before) else sw
    let s1 : State := { s with sclH := s.sclH.upd h fun y => { y with sweep := sw1 } }
    let s2 := s1.setScl n { x with
      trimAsk := false, trimSweep := x.trimAsk && x.trimSweep, trimOwn := x.trimAsk, trimFrom := s.clk.cyc
      trimLate := false, trimEnd := some (s.clk.cyc + 25600), trimLast := s.clk.cyc + 25600
      lrn := { x.lrn with revOk := false } }
    .next (s2.cond .scl (4 * n.val + 2) h.copy false)
  else .next s

/-- A result outside 32 codes of offset or 1/256 of gain of the values in use (R200). -/
def trimBad (old new : TrimVals) : Bool :=
  let far (a b : BitVec 16) (lim : Nat) : Bool := decide (lim < (a.toInt - b.toInt).natAbs)
  far old.sinCal new.sinCal 32 || far old.cosCal new.cosCal 32 || far old.sinGain new.sinGain 256 ||
    far old.cosGain new.cosGain 256

/-- The run of channel `n` counts as done for its sweep, unless a request made it; after the last channel the reading becomes
the baseline (R196). -/
def State.sweepDone (s : State) (n : Fin 8) : State :=
  let h := pchHalf n.val
  let x := s.sclH.get h
  if !(s.scl[n]).trimOwn && x.sweep.contains n then
    let r := x.sweep.filter (· != n)
    let b := if r.isEmpty then some x.temp else x.base
    ({ s with sclH := s.sclH.set h { x with sweep := r, base := b } }).sweepTurns h
  else s

/-- TRIM_RUN_END (R198, R200): the new offsets and gains apply, or are rejected with TRIM_FAIL. -/
def execTrimRunEnd (n : Fin 8) (t : TrimVals) (s : State) : Done :=
  match (s.scl[n]).trimEnd with
  | none => .next s
  | some c =>
    let s1 := s.waitTill c
    let x := s1.scl[n]
    let bad := trimBad x.trims t
    let s2 := s1.setScl n { x with trimEnd := none, trims := if bad then x.trims else t }
    let s3 := if bad then s2.event .scl (4 * n.val + 3) (pchHalf n.val).copy else s2
    .next (s3.sweepDone n)

/-- TRIM_LATE (R197): the gate has not been met within TRIM_WAIT of the channel's turn; it keeps waiting. -/
def execTrimLate (n : Fin 8) (s : State) : Done :=
  let x := s.scl[n]
  if x.trimWait && !x.trimLate && s.halfOn (pchHalf n.val) then
    let s1 := s.waitTill (x.trimFrom + 10000 * usCyc (max 1 s.SCL_TRIM_CFG_TRIM_WAIT))
    .next ((s1.setScl n { x with trimLate := true }).cond .scl (4 * n.val + 2) (pchHalf n.val).copy true)
  else .next s

/-- SCL_TEMP_READING (R196): the first valid reading after release becomes the baseline. -/
def execSclTempReading (h : Half) (t : BitVec 16) (s : State) : Done :=
  if s.halfOn h then
    let x := s.sclH.get h
    let b := match x.base with
      | none => if s.boot.released then some t else none
      | some v => some v
    .next { s with sclH := s.sclH.set h { x with temp := t, base := b } }
  else .next s

end Sys2Proof.Machine
end

