-- ==== Sys2Proof/Machine/Exc.lean ====
section
/-! DEFINITION. The commands and events of the excitation drivers (chapter "Resolver excitation"). -/

namespace Sys2Proof.Machine

/-- The address of offset `off` of driver `n`. -/
def excAddr (n : Fin 4) (off : Nat) : Nat := 0x50100 + n.val * 0x40 + off

/-- Values written while the bridge is OFF or TRIPPED act at once; the carrier phase moves with PHASE_OFS (R109). -/
def State.excAtOnce (s : State) (n : Fin 4) : State :=
  let x := s.exc[n]
  match x.st with
  | .off | .tripped =>
    let y := s.applyExc n (x.rebase s.clk.cyc)
    let ph := wrap01 (y.car.ph + ((y.phase : Rat) - (x.phase : Rat)) / 65536)
    s.setExc n { y with car := { y.car with ph := ph } }
  | _ => s

/-- The channels that select driver `n` (R27). -/
def State.chansOn (s : State) (n : Fin 4) : List (Fin 8) :=
  (List.finRange 8).filter fun c => !s.baseband c && s.drv c == n

/-- The bridge trips (R120): from RAMP_UP, RUN or RAMP_DOWN to TRIPPED, at high impedance; its channels declare channel
loss. In OFF it stays OFF. The accumulator runs on (R104), through a slew too; values pending act at once (DESIGN CHOICE,
assumption 53). -/
def State.tripExc (s : State) (n : Fin 4) : State :=
  let x := s.exc[n]
  match x.st with
  | .rampUp | .run | .rampDown =>
    let y := { x with
      st := .tripped, waitX := false, stopping := false, lvlNow := 0, settle := false, settleRem := 0, calmAt := s.clk.cyc }
    ((s.setExc n y).excAtOnce n |>.judgeClip n).judgeDrvAll
  | _ => s

/-- EN of EXC_n_CTRL written (R110, R111): a start from OFF; the end of a running bridge at the next zero crossing; EN
set during RAMP_DOWN acts when OFF is reached. EN set again before that crossing takes the stop back (DESIGN CHOICE,
assumption 53). -/
def State.excSetEn (s : State) (n : Fin 4) (en : Bool) : State :=
  let a := excAddr n 0
  let was := (s.reg a).bit 0
  let s1 := s.setReg a (bput (s.reg a) 0 en)
  let x := s1.exc[n]
  if !s1.boot.released then s1
  else if en then
    (match x.st with
    | .off => if was then s1 else (s1.startExc n).judgeDrvAll
    | .run | .rampUp => s1.setExc n { x with stopping := false }
    | _ => s1)
  else match x.st with
    | .run | .rampUp => s1.setExc n { x with stopping := true }
    | _ => s1

/-- RESTART (R120): acts only in TRIPPED with no trip cause live; with EN set the bridge starts, else it goes OFF. -/
def State.excRestart (s : State) (n : Fin 4) : State :=
  if s.exc[n].st = .tripped ∧ s.tripLive n = false then
    let s1 := s.setExc n { s.exc[n] with st := .off }
    (if s.EXC_CTRL_EN n = 1 then s1.startExc n else s1).judgeDrvAll
  else s

/-- A register of the driver stored, acting at once while the bridge is OFF or TRIPPED (R106, R109). -/
def State.excStore (s : State) (n : Fin 4) (off : Nat) (v : Word) : State := (s.setReg (excAddr n off) v).excAtOnce n

/-- A write of EXC_n_FREQ (R106): RANGE outside 2,000 to 40,000. -/
def State.writeExcFreq (s : State) (n : Fin 4) (v : Word) : Status × State :=
  let f := v.fld 0 16
  if f < 2000 ∨ 40000 < f then s.only .range else (.ok, s.excStore n 4 v)

/-- A write of EXC_n_CTRL (R106, R110, R111, R120). -/
def State.writeExcCtrl (s : State) (n : Fin 4) (v : Word) : State :=
  let a := excAddr n 0
  let keep := (v &&& ~~~(0x5 : Word)) ||| (s.reg a &&& 1)
  let s1 := (s.excStore n 0 keep).excSetEn n (v.bit 0)
  if v.bit 2 then s1.excRestart n else s1

/-- EXC_ENABLE (R110, R111). -/
def execExcEnable (n : Fin 4) (s : State) : Done :=
  finish (s.inst (excHalf n.val) (excAddr n 0) (.ok, s.excSetEn n true))

/-- EXC_DISABLE (R111). -/
def execExcDisable (n : Fin 4) (s : State) : Done :=
  finish (s.inst (excHalf n.val) (excAddr n 0) (.ok, s.excSetEn n false))

/-- EXC_RESTART (R120). -/
def execExcRestart (n : Fin 4) (s : State) : Done :=
  finish (s.inst (excHalf n.val) (excAddr n 0) (.ok, s.excRestart n))

/-- EXC_FREQ_WRITE (R106). -/
def execExcFreqWrite (n : Fin 4) (v : Word) (s : State) : Done :=
  finish (s.inst (excHalf n.val) (excAddr n 4) (s.writeExcFreq n v))

/-- EXC_PHASE_WRITE (R106, R107). -/
def execExcPhaseWrite (n : Fin 4) (v : Word) (s : State) : Done :=
  finish (s.inst (excHalf n.val) (excAddr n 8) (.ok, s.excStore n 8 v))

/-- EXC_AMP_WRITE (R106). -/
def execExcAmpWrite (n : Fin 4) (v : Word) (s : State) : Done :=
  finish (s.inst (excHalf n.val) (excAddr n 0xC) (.ok, s.excStore n 0xC v))

/-- EXC_MODE_WRITE (R106). -/
def execExcModeWrite (n : Fin 4) (closed : Bool) (s : State) : Done :=
  let a := excAddr n 0
  finish (s.inst (excHalf n.val) a (.ok, s.excStore n 0 (bput (s.reg a) 1 closed)))

/-! ## The zero crossing -/

/-- Regulation holds (R116). -/
def State.regHold (s : State) (n : Fin 4) : Bool :=
  let c : Fin 8 := Fin.ofNat 8 (s.EXC_CTRL_REG_SRC n.val)
  let t := s.pch[c].pub.tag
  !s.pchOn c || s.baseband c || s.drv c != n || tagAcq t || tagCoast t || t.getLsbD 3 || !tagValid t ||
    s.exc[n].st != .run

/-- REG_HOLD of EXC_n_STAT: regulation, which closed loop alone has, is held (R115, R116; DEDUCED, assumption 52). -/
def State.regHeld (s : State) (n : Fin 4) : Bool := s.exc[n].closed && s.regHold n

/-- AMP_MEAS of driver `n`: M_AVG of the REG_SRC channel at the crossing (R115, R141); full scale and above read 4,095
(DESIGN CHOICE, assumption 53). -/
def State.ampMeasNow (s : State) (n : Fin 4) : Nat :=
  min 4095 (roundFree 29 s.pch[Fin.ofNat 8 (s.EXC_CTRL_REG_SRC n.val)].fe.mAvg).toNat

/-- Highest and lowest closed-loop level (EXC_n_LIMIT). -/
def State.lvlMax (s : State) (n : Fin 4) : Nat := min 2400 (s.EXC_LIMIT_LVL_MAX n.val)
def State.lvlMin (s : State) (n : Fin 4) : Nat := s.EXC_LIMIT_LVL_MIN n.val

/-- Measurements and monitors of the period just ended (R115, R118, Table 5.3). LVL_NOW is judged for REG_SAT as the level
requested, in closed loop and RUN only, where regulation is (DESIGN CHOICE, assumption 53). -/
def State.excMeasure (s : State) (n : Fin 4) (m : ExcMeas) : State :=
  let x := s.exc[n]
  let amp := s.ampMeasNow n
  let running := x.st == .run
  let opn := running && decide (100 ≤ x.lvlNow) && decide (m.iFund.toNat < 10 * s.EXC_IMON_CFG_OPEN_THR n.val)
  let imb := x.running && decide (10 * s.EXC_IMON_CFG_IMB_THR n.val < m.iSum.toNat)
  let hi := running && x.closed && x.lvlNow == s.lvlMax n && decide (16 * amp < 15 * max 1 x.tgt)
  let lo := running && x.closed && x.lvlNow == s.lvlMin n && decide (17 * max 1 x.tgt < 16 * amp)
  let y := { x with
    iFund := m.iFund, iPeak := m.iPeak, ampMeas := amp
    openRun := if opn then x.openRun + 1 else 0
    imbRun := if imb then x.imbRun + 1 else 0
    satHi := if hi then x.satHi + 1 else 0
    satLo := if lo then x.satLo + 1 else 0 }
  let s1 := s.setExc n y
  let s2 := if opn then s1 else s1.cond .exc (6 * n.val + 1) (excHalf n.val).copy false
  if hi || lo then s2 else s2.cond .exc (6 * n.val + 3) (excHalf n.val).copy false

/-- The level at the crossing (R110, R111, R115): ramps, and the regulation of closed loop. -/
def State.excLevel (s : State) (n : Fin 4) : State :=
  let x := s.exc[n]
  let p := s.rampPer n
  match x.st with
  | .rampUp =>
    if x.waitX then s.setExc n { x with waitX := false, rampCnt := 0, lvlNow := 0 }
    else
      let k := min p (x.rampCnt + 1)
      s.setExc n { x with rampCnt := k, lvlNow := min 2400 x.lvl * k / p }
  | .rampDown =>
    let k := min p (x.rampCnt + 1)
    s.setExc n { x with rampCnt := k, lvlNow := x.rampLvl * (p - k) / p }
  | .run =>
    if x.closed && !s.regHold n then
      let l := regulate x.lvlNow (max 1 x.tgt : Nat) x.ampMeas (s.lvlMin n : Nat) (s.lvlMax n : Nat)
      s.setExc n { x with lvlNow := l.toNat }
    else s
  | _ => s

/-- The ceiling of a channel after an excitation change (R158, Table 7.5): the step falls to a ceiling that is lower, and
follows the ceiling during acquisition and with ADAPT_EN clear. -/
def State.ceilMove (s : State) (c : Fin 8) : State :=
  let x := s.pch[c]
  let k := s.bwCeil c
  if k < x.lp.idx then s.setPch c { x with lp := { x.lp with idx := k, ceil := k, upCnt := 0, dnCnt := 0, hold := 0 } }
  else s.setPch c { x with lp := { x.lp with idx := if s.atCeil c then k else x.lp.idx, ceil := k } }

/-- The slew is over: it has covered its turns (R107). -/
def Carrier.slewDone (x : Carrier) : Carrier :=
  { x with slew := match x.slew with
    | some (dl, left) => if left = 0 then none else some (dl, left)
    | none => none }

/-- Pending values take effect together at the crossing (R106 to R108): SETTLE starts afresh, a change of PHASE_OFS
becomes a slew over the period that follows; while a slew runs, a PHASE_OFS written stays pending. Half a turn is taken
as −0.5 (DESIGN CHOICE, assumption 53). Without a change the SETTLE count goes down. -/
def State.excTake (s : State) (n : Fin 4) : State :=
  let x := s.exc[n]
  let y0 := s.applyExc n x
  let y := if x.car.slew.isSome then { y0 with phase := x.phase } else y0
  if y ≠ x then
    let dl := wrapHalf (((y.phase : Rat) - (x.phase : Rat)) / 65536)
    let lvl := if x.st = .run then
        (if y.closed then (if x.closed then x.lvlNow else min 2400 y.lvl) else min 2400 y.lvl)
      else x.lvlNow
    let car := if dl = 0 then y.car else { y.car with slew := some (dl, 1 + dl) }
    let z := { y with car := car, settle := true, settleRem := s.settlePer n, lvlNow := lvl }
    (s.chansOn n).foldl State.ceilMove (s.setExc n z)
  else s.setExc n { x with settleRem := x.settleRem - 1 }

/-- EN cleared starts RAMP_DOWN at the crossing (R111). -/
def State.excStop (s : State) (n : Fin 4) : State :=
  let x := s.exc[n]
  if x.stopping && (x.st == .run || x.st == .rampUp) then
    s.setExc n { x with st := .rampDown, stopping := false, waitX := false, rampCnt := 0, rampLvl := x.lvlNow }
  else s

/-- CARRIER_ZERO_CROSSING: the crossing of driver `n` (R105 to R118, R137). The accumulators run while their half is
powered, from release on (R104, R105). The period just ended is measured and judged first, then the level moves as the
applied values say, then EN and the pending values act (DESIGN CHOICE, assumption 53). -/
def execCarrierZeroCrossing (n : Fin 4) (m : ExcMeas) (s : State) : Done :=
  if !s.boot.released || !s.halfOn (excHalf n.val) || s.exc[n].car.freq == 0 then .next s
  else
    let s1 := s.waitTill s.exc[n].nextX
    let x := s1.exc[n]
    let c := s1.clk.cyc
    let y := x.rebase c
    let s2 := s1.setExc n { y with car := y.car.slewDone }
    let s3 := (s2.chansOn n).foldl State.phaseAdapt s2
    let s4 := (((s3.excMeasure n m).excLevel n).excStop n)
    let s5 := if s4.exc[n].running then s4.excTake n else s4
    .next (s5.judgeClip n)

/-- EXC_SETTLE_END (R108): SETTLE_PER periods have passed since the latest change took effect. -/
def execExcSettleEnd (n : Fin 4) (s : State) : Done :=
  let x := s.exc[n]
  if x.settle && x.settleRem == 0 then .next (s.setExc n { x with settle := false, calmAt := s.clk.cyc })
  else .next s

/-- EXC_RAMP_END (R110, R111): RUN after RAMP_UP; OFF after RAMP_DOWN, and a start if EN has been set meanwhile. -/
def execExcRampEnd (n : Fin 4) (s : State) : Done :=
  let x := s.exc[n]
  if x.rampCnt < s.rampPer n ∨ x.waitX then .next s
  else match x.st with
    | .rampUp => .next (s.setExc n { x with st := .run, lvlNow := min 2400 x.lvl, calmAt := s.clk.cyc })
    | .rampDown =>
      let s1 := (s.setExc n { x with
        st := .off, lvlNow := 0, settle := false, settleRem := 0, calmAt := s.clk.cyc }).excAtOnce n
      .next ((if s1.EXC_CTRL_EN n = 1 then s1.startExc n else s1).judgeClip n).judgeDrvAll
    | _ => .next s

/-! ## Faults of the bridges (Table 5.3) -/

/-- A current flows: the bridge is running and not at high impedance. -/
def State.excDrives (s : State) (n : Fin 4) : Bool :=
  s.halfOn (excHalf n.val) && s.exc[n].running && !s.exc[n].waitX

/-- OC_THR in mA: 15 to 60 units of 10 mA (EXC_n_IMON_CFG). -/
def State.ocThr (s : State) (n : Fin 4) : Nat := 10 * clampNat 15 60 (s.EXC_IMON_CFG_OC_THR n.val)

/-- The latest OC_CNT switching periods were limited: a leg current passed OC_THR in each (Table 5.3). `peaks` are the
highest leg currents of the latest consecutive periods in mA, the newest first. -/
def State.ocLimited (s : State) (n : Fin 4) (peaks : List Nat) : Bool :=
  let k := max 1 (s.EXC_IMON_CFG_OC_CNT n.val)
  decide (k ≤ peaks.length) && (peaks.take k).all fun i => decide (s.ocThr n < i)

/-- OC: OC_CNT consecutive limited switching periods (Table 5.3). -/
def execOc (e : LegPeaks) (s : State) : Done :=
  if s.excDrives e.n && s.ocLimited e.n e.peaks then
    .next ((s.event .exc (6 * e.n.val) (excHalf e.n.val).copy).tripExc e.n)
  else .next s

/-- OPEN: fundamental current below OPEN_THR for 4 consecutive periods in RUN (Table 5.3). -/
def execOpenLoad (n : Fin 4) (s : State) : Done :=
  if s.excDrives n && decide (4 ≤ s.exc[n].openRun) then
    .next (s.cond .exc (6 * n.val + 1) (excHalf n.val).copy true)
  else .next s

/-- IMBAL: fundamental of I_P + I_N above IMB_THR for 2 consecutive periods (Table 5.3). -/
def execImbal (n : Fin 4) (s : State) : Done :=
  if s.excDrives n && decide (2 ≤ s.exc[n].imbRun) then
    .next ((s.event .exc (6 * n.val + 2) (excHalf n.val).copy).tripExc n)
  else .next s

/-- A reading of the bridge sensor, 1/16 °C. -/
def State.excTemp (s : State) (n : Fin 4) (t : BitVec 16) : State := s.setExc n { s.exc[n] with temp := t }

/-- OTS: above 170 °C (Table 5.3). -/
def execOts (n : Fin 4) (temp : BitVec 16) (s : State) : Done :=
  if s.halfOn (excHalf n.val) then
    let s1 := s.excTemp n temp
    if 170 * 16 < temp.toInt then .next ((s1.cond .exc (6 * n.val + 5) (excHalf n.val).copy true).tripExc n)
    else .next s1
  else .next s

/-- OTS_CLEAR: live until below 155 °C (Table 5.3). -/
def execOtsClear (n : Fin 4) (temp : BitVec 16) (s : State) : Done :=
  if s.halfOn (excHalf n.val) then
    let s1 := s.excTemp n temp
    if temp.toInt < 155 * 16 then .next (s1.cond .exc (6 * n.val + 5) (excHalf n.val).copy false) else .next s1
  else .next s

/-- REG_SAT: LVL_NOW has stood at its limit for 64 consecutive periods with the amplitude outside the band (R118). -/
def execRegSat (n : Fin 4) (s : State) : Done :=
  let x := s.exc[n]
  if s.excDrives n && (decide (64 ≤ x.satHi) || decide (64 ≤ x.satLo)) then
    .next (s.cond .exc (6 * n.val + 3) (excHalf n.val).copy true)
  else .next s

/-- The two bridges of a rail. -/
def railExc (r : Fin 2) : Fin 4 × Fin 4 := if r = 0 then (0, 1) else (2, 3)

/-- Both bridges of a rail trip (Table 5.1). -/
def State.tripRail (s : State) (r : Fin 2) : State := (s.tripExc (railExc r).1).tripExc (railExc r).2

/-- VEXC_n measured in mV; CLIP follows it (R102, R114). -/
def State.setVexc (s : State) (r : Fin 2) (mv : Nat) : State :=
  ({ s with vexcMv := vset s.vexcMv r mv }.judgeClip (railExc r).1).judgeClip (railExc r).2

/-- The undervoltage verdict of a rail (R103). -/
def State.setVexcOk (s : State) (r : Fin 2) (ok : Bool) : State :=
  if r = 0 then { s with rails := { s.rails with vexc0 := ok } } else { s with rails := { s.rails with vexc1 := ok } }

/-- The half of an excitation rail (R101). -/
def railHalf (r : Fin 2) : Half := if r = 0 then .h0 else .h1

/-- VUV (`high` false) or VOV of a rail, as its half detects it while it is on (R103). -/
def State.railCond (s : State) (r : Fin 2) (high v : Bool) : State :=
  let h := railHalf r
  if s.halfOn h then s.cond .exc (24 + 2 * r.val + high.toNat) h.copy v else s

/-- The verdicts on a rail, from VEXC_n as last measured, when its half comes on or internal reset ends (R103). -/
def State.vexcJudge (s : State) (r : Fin 2) : State :=
  let s1 := if s.vexcGood (railExc r).1 then s else s.railCond r false true
  if 19500 < s.vexcMv[r] then s1.railCond r true true else s1

/-- VUV: below 7.5 V for 10 µs (Table 5.1). -/
def execVuv (rail : Fin 2) (mv : BitVec 16) (s : State) : Done :=
  let s1 := s.setVexc rail mv.toNat
  if mv.toNat < 7500 then
    .next (((s1.setVexcOk rail false).railCond rail false true).tripRail rail)
  else .next s1

/-- VOV: above 19.5 V for 10 µs (Table 5.1). -/
def execVov (rail : Fin 2) (mv : BitVec 16) (s : State) : Done :=
  let s1 := s.setVexc rail mv.toNat
  if 19500 < mv.toNat then .next ((s1.railCond rail true true).tripRail rail)
  else .next s1

/-- VEXC_GOOD_AGAIN: good again above 7.8 V, overvoltage cleared below 19.0 V (Table 5.1). -/
def execVexcGoodAgain (rail : Fin 2) (mv : BitVec 16) (s : State) : Done :=
  let s1 := s.setVexc rail mv.toNat
  let s2 := if 7800 < mv.toNat then (s1.setVexcOk rail true).railCond rail false false else s1
  .next (if mv.toNat < 19000 then s2.railCond rail true false else s2)

/-! ## Release and return -/

/-- At release the four accumulators start together, and enabled bridges start (R105, R110). -/
def State.excRelease (s : State) : State :=
  (List.finRange 4).foldl (fun st n =>
    let x := st.applyExc n st.exc[n]
    let car : Carrier := { ph := wrap01 ((x.phase : Rat) / 65536), t0 := st.clk.cyc, freq := x.car.freq }
    let s1 := st.setExc n { x with car := car, old := car }
    if st.EXC_CTRL_EN n = 1 ∧ st.halfOn (excHalf n.val) = true then s1.startExc n else s1) s

end Sys2Proof.Machine
end

