-- ==== Sys2Proof/Machine/Dch.lean ====
section
/-! DEFINITION. Digital position inputs (R206 to R232): counting, index, Hall, SSI, published values. -/

namespace Sys2Proof.Machine

/-- The address of offset `off` of channel DCH_n. -/
def dchAddr (n : Fin 4) (off : Nat) : Nat := 0x70100 + n.val * 0x80 + off

/-- Channel DCH_n replaced. -/
def State.setDch (s : State) (n : Fin 4) (x : Dch) : State := { s with dch := vset s.dch n x }

/-- Source `b` (0 to 5, Table 9.9) of channel `n` as a condition, and as an event. -/
def State.dcond (s : State) (n : Fin 4) (b : Nat) (v : Bool) : State :=
  s.cond .dch (6 * n.val + b) (excHalf n.val).copy v
def State.devent (s : State) (n : Fin 4) (b : Nat) : State := s.event .dch (6 * n.val + b) (excHalf n.val).copy

/-- The channel runs: enabled, its half on (R210). -/
def State.dchOn (s : State) (n : Fin 4) : Bool := s.dch[n].on && s.halfOn (excHalf n.val)

/-! ## Starting (R210) -/

/-- LINES with 0 meaning 65,536. -/
def State.dchLines (s : State) (n : Fin 4) : Nat := if s.DCH_SCALE_LINES n.val = 0 then 65536 else s.DCH_SCALE_LINES n.val

/-- Effective SSI field widths (R224). -/
def State.stBits (s : State) (n : Fin 4) : Nat := clampNat 8 24 (s.DCH_SSI_CFG_ST_BITS n.val)
def State.mtBits (s : State) (n : Fin 4) : Nat := min 16 (s.DCH_SSI_CFG_MT_BITS n.val)
def State.statBits (s : State) (n : Fin 4) : Nat := min 4 (s.DCH_SSI_CFG_STAT_BITS n.val)

/-- CPR of MODE (Table 9.1). -/
def State.dchCpr (s : State) (n : Fin 4) : Nat :=
  match s.DCH_CFG_MODE n.val with
  | 0 => 4 * s.dchLines n
  | 1 => 6
  | _ => 2 ^ s.stBits n

/-- The sector of a Hall state, U in bit 0, V in bit 1, W in bit 2 (Table 9.2). -/
def hallSector (v : BitVec 3) : Option Nat :=
  match v.toNat with
  | 1 => some 0 | 3 => some 1 | 2 => some 2 | 6 => some 3 | 4 => some 4 | 5 => some 5
  | _ => none

/-- EN set (R210): the channel starts afresh, its counts and its speed at zero; MODE, LINES and POLE_PAIRS are taken now
(Table 9.8). -/
def State.dchStart (s : State) (n : Fin 4) : State :=
  let x := s.dch[n]
  let hall := s.DCH_CFG_MODE n.val = 1
  s.setDch n {
    on := true, mode := s.DCH_CFG_MODE n.val, cpr := s.dchCpr n, pp := clampNat 1 16 (s.DCH_CFG_POLE_PAIRS n.val)
    lvl := x.lvl, sector := (hallSector x.lvl).getD x.sector
    invSince := if hall ∧ (hallSector x.lvl).isNone then some s.clk.cyc else none
    winFrom := s.clk.cyc
    idx := { dev := x.idx.dev, capPos := x.idx.capPos, capExp := x.idx.capExp }
    ssi := { lost := x.ssi.lost, raw := x.ssi.raw, stat := x.ssi.stat, lastErr := x.ssi.lastErr, loss := x.ssi.loss
             recTill := x.ssi.recTill }
    pub := { tag := x.pub.tag, stamp := x.pub.stamp } }

/-- EN cleared (R210): the channel stops, an SSI frame is abandoned. -/
def State.dchStop (s : State) (n : Fin 4) : State :=
  let x := s.dch[n]
  let s1 := s.setDch n { x with on := false, invSince := none, ssi := { x.ssi with frame := none, due := false } }
  (s1.dcond n 0 false).dcond n 3 false

/-- EN of DCH_n_CTRL written. -/
def State.dchSetEn (s : State) (n : Fin 4) (en : Bool) : State :=
  let a := dchAddr n 0
  let was := (s.reg a).bit 0
  let s1 := s.setReg a (bput (s.reg a) 0 en)
  if en && !was then (if s1.boot.released then s1.dchStart n else s1)
  else if !en && was then s1.dchStop n
  else s1

/-- MODE written: it takes effect at once while EN is clear, else at the next setting of EN (Table 9.8). -/
def State.dchModeWritten (s : State) (n : Fin 4) : State :=
  if s.dch[n].on then s else s.setDch n { s.dch[n] with mode := s.DCH_CFG_MODE n.val }

/-! ## Counting (R211 to R213, R218) -/

/-- What a transition seen is (R211). -/
inductive Move | up | down | illegal | none
  deriving DecidableEq, Repr

/-- The reverse of a move (DIR_INV). -/
def Move.flip : Move → Move
  | .up => .down
  | .down => .up
  | m => m

/-- The quadrature position of (A, B): A leads B for up. -/
def quadPos (v : BitVec 3) : Nat :=
  match v.toNat % 4 with
  | 0 => 0 | 1 => 1 | 3 => 2 | _ => 3

/-- ABZ classification (R211). -/
def abMove (a b : BitVec 3) : Move :=
  match (quadPos b + 4 - quadPos a) % 4 with
  | 0 => .none
  | 1 => .up
  | 3 => .down
  | _ => .illegal

/-- HALL classification (R211). -/
def hallMove (a b : BitVec 3) : Move :=
  if a = b then .none
  else match hallSector a, hallSector b with
    | some i, some j => if (i + 1) % 6 = j then .up else if (j + 1) % 6 = i then .down else .illegal
    | _, _ => .illegal

/-- `c` added to the full count F = POS + CPR × TURNS (R212, R216). -/
def Dch.addF (x : Dch) (c : Int) : Dch :=
  let m : Int := (x.cpr * 65536 : Nat)
  let f := ((x.pos + x.cpr * x.turns : Nat) + c) % m
  { x with pos := f.toNat % x.cpr, turns := f.toNat / x.cpr, run := x.run + c }

/-- A correction `c` of F, recorded in SLIP_ACC (R216). -/
def Dch.correct (x : Dch) (c : Int) : Dch := { x.addF c with slip := x.slip + c }

/-- Newest counted transitions, as far back as the speed window needs: down to the first that is `win` cycles older
than the newest (R230). -/
def keepHist (t1 win : Nat) : List (Nat × Int) → List (Nat × Int)
  | [] => []
  | e :: r => if win ≤ t1 - e.1 then [e] else e :: keepHist t1 win r

/-- One counted transition (R212). -/
def Dch.step (x : Dch) (up : Bool) (cyc win : Nat) : Dch :=
  let y := x.addF (if up then 1 else -1)
  let z := if up then { y with up := (y.up + 1) % 2 ^ 32 } else { y with dn := (y.dn + 1) % 2 ^ 32 }
  let h := (cyc, z.run) :: keepHist cyc win x.hist
  { z with hist := h, idx := { z.idx with since := z.idx.since + (if up then 1 else -1) } }

/-- A transition classified and counted (R211 to R213); the time of the first of its FILT + 1 samples stamps it
(R207). -/
def Dch.move (x : Dch) (m : Move) (cyc filt win tick : Nat) : Dch :=
  let t := { x with trans := (x.trans + 1) % 2 ^ 32 }
  match m with
  | .up => t.step true (cyc - 2 * filt) win
  | .down => t.step false (cyc - 2 * filt) win
  | .illegal => { t with
      ill := (x.ill + 1) % 2 ^ 32, unc := true, uncTick := some tick, illCyc := some cyc, illWin := x.illWin + 1 }
  | .none => x

/-- IDX_MISS (R218): |F − F_idx| above CPR + IDX_TOL, once per index interval. -/
def State.judgeMiss (s : State) (n : Fin 4) : State :=
  let x := s.dch[n]
  if x.mode = 0 ∧ x.idx.ref ∧ x.idx.missed = false ∧ x.cpr + s.DCH_IDX_CFG_IDX_TOL n.val < x.idx.since.natAbs then
    (s.setDch n { x with unc := true, uncTick := some (s.clk.cyc / 200), idx := { x.idx with missed := true } }).devent n 2
  else s

/-- The filtered inputs have become `v` (R211): in ABZ mode only A and B take part, Z keeps its level. -/
def State.dchMove (s : State) (n : Fin 4) (v : BitVec 3) : State :=
  let x := s.dch[n]
  let hall := x.mode = 1
  let new : BitVec 3 := if hall then v else (v &&& 3) ||| (x.lvl &&& 4)
  if !s.dchOn n then s.setDch n { x with lvl := v }
  else if x.mode = 2 then s.setDch n { x with lvl := v }
  else
    let m0 := if hall then hallMove x.lvl new else abMove x.lvl new
    let m := if s.DCH_CFG_DIR_INV n.val = 1 then m0.flip else m0
    let y := x.move m s.clk.cyc (s.DCH_CFG_FILT n.val) (usCyc (s.DCH_RATE_SPD_WIN n.val)) (s.clk.cyc / 200)
    let inv := hall && (hallSector new).isNone
    let z := { y with
      lvl := new, sector := if hall then (hallSector new).getD y.sector else y.sector
      invSince := if inv then (match y.invSince with
        | none => some s.clk.cyc
        | some c => some c) else none }
    let s1 := (s.setDch n z).judgeMiss n
    if inv then s1 else s1.dcond n 3 false

/-- The glitch filter of one input (R206): `l` holds its last 16 samples, oldest first, as they leave the synchroniser; a
level seen on FILT + 1 consecutive samples is accepted, else the accepted level stays. -/
def filtered (filt : Nat) (was : Bool) (l : List Bool) : Bool :=
  let w := l.drop (15 - filt)
  if w.all id then true else if w.all not then false else was

/-- The filtered inputs of channel `n` after the samples `l` (R206); each has its own filter. -/
def State.dchFilter (s : State) (n : Fin 4) (l : Vector (BitVec 3) 16) : BitVec 3 :=
  let f := s.DCH_CFG_FILT n.val
  let was := s.dch[n].lvl
  (List.range 3).foldl (fun w i => bput w i (filtered f (was.getLsbD i) (l.toList.map fun v => v.getLsbD i))) was

/-- The inputs of channel `n` are taken: its half is on, and its pads are not held (R51, R52). -/
def State.dchSees (s : State) (n : Fin 4) : Bool :=
  s.halfOn (excHalf n.val) && !s.pads.heldH.get (excHalf n.val)

/-- The next sample of the digital inputs: every second TCLK edge (R206). -/
def State.dchSample (s : State) : State := s.waitTill ((s.clk.cyc + 1) / 2 * 2)

/-- DCH_TRANSITION (R206, R211): the last 16 samples of the three inputs, at 200 MHz, up to this one. -/
def execDchTransition (n : Fin 4) (samples : Vector (BitVec 3) 16) (s : State) : Done :=
  if s.dchSees n then
    let s1 := s.dchSample
    .next (s1.dchMove n (s1.dchFilter n samples))
  else .next s

/-! ## Index (R215 to R219) -/

/-- An index edge is judged (R216, Table 9.3, Table 9.8): d is formed on the count as it stands. A slip is raised as the tick
ends, since a REF_CLR later in the tick still comes first (DESIGN CHOICE, assumption 55). -/
def State.indexJudge (s : State) (n : Fin 4) : State :=
  let x := s.dch[n]
  let cpr : Int := x.cpr
  let exp := s.DCH_IDX_CFG_EXP_IDX n.val % x.cpr
  let d := wrapSigned cpr ((x.pos : Int) - exp)
  let dev := clampInt (-32767) 32767 d
  let illNow := x.illCyc == some s.clk.cyc
  let edge (c : Int) : Option DchEdge :=
    some ⟨s.clk.cyc / 200, d, c, x.unc, x.uncTick, x.ill, x.idx.capPos, x.idx.capExp⟩
  let corr (y : Dch) : Dch := y.correct (-d)
  let fresh (c : Int) (y : Dch) : Dch :=
    { y with idx := { y.idx with dev := dev, since := 0, missed := false, edge := edge c } }
  if !x.idx.ref then
    let y := fresh (-d) (corr x)
    s.setDch n { y with idx := { y.idx with ref := true } }
  else if d.natAbs ≤ s.DCH_IDX_CFG_IDX_TOL n.val then s.setDch n { fresh 0 x with unc := x.unc && illNow }
  else
    let cap (y : Dch) : Dch := { y with idx := { y.idx with capPos := x.pos, capExp := exp } }
    let y := if s.DCH_CFG_RESYNC n.val = 1 then { cap (fresh (-d) (corr x)) with unc := x.unc && illNow }
      else { cap (fresh 0 x) with unc := true }
    s.setDch n { y with uncTick := some (s.clk.cyc / 200), idx := { y.idx with slip := true } }

/-- A tick has ended: INDEX_SLIP is raised if an index edge in it found a slip and REF_CLR has not made it the reference since
(R216, Table 9.8). -/
def State.raiseSlip (s : State) (n : Fin 4) : State :=
  let x := s.dch[n]
  if x.idx.slip then (s.setDch n { x with idx := { x.idx with slip := false } }).devent n 1 else s

/-- INDEX_EDGE (R206, R215): the last 16 samples of the Z input up to this one. In HALL mode the input is W, whose changes
are transitions. -/
def execIndexEdge (n : Fin 4) (samples : Vector Bool 16) (s : State) : Done :=
  if !s.dchSees n || (s.dch[n].on && s.dch[n].mode == 1) then .next s
  else
    let s0 := s.dchSample
    let x := s0.dch[n]
    let was := x.lvl.getLsbD 2
    let z := filtered (s.DCH_CFG_FILT n.val) was samples.toList
    let s1 := s0.setDch n { x with lvl := bput x.lvl 2 z }
    let edge := (z != was) && (z != (s.DCH_CFG_Z_INV n.val == 1))
    let gate := s.DCH_CFG_Z_GATE n.val != 1 || x.lvl.toNat % 4 == s.DCH_CFG_Z_QUAD n.val
    if s.dchOn n && x.mode == 0 && edge && gate then .next (s1.indexJudge n) else .next s1

/-- REF_CLR (R218). With an index edge earlier in the same tick it applies first, so that the edge references (Table 9.8): the
correction becomes −d, the captures are as before the edge, no slip is raised, and UNCERT is as before the edge, or set by an
illegal transition or a missing index since. -/
def State.refClr (s : State) (n : Fin 4) : State :=
  let x := s.dch[n]
  match x.idx.edge with
  | none => s.setDch n { x with idx := { x.idx with ref := false } }
  | some e =>
    if e.tick = s.clk.cyc / 200 then
      let y := x.correct (-e.d - e.c)
      let later := x.ill != e.ill || x.idx.missed
      s.setDch n { y with
        unc := e.unc || later
        uncTick := if later then x.uncTick else e.uncTick
        idx := { y.idx with
          ref := true, slip := false, capPos := e.capPos, capExp := e.capExp, edge := some { e with c := -e.d } } }
    else s.setDch n { x with idx := { x.idx with ref := false } }

/-- REF_CLR. -/
def execRefClr (n : Fin 4) (s : State) : Done := finish (s.inst (excHalf n.val) (dchAddr n 0) (.ok, s.refClr n))

/-- UNC_CLR (R219): UNCERT stays set when its cause has come in the same tick. -/
def State.uncClr (s : State) (n : Fin 4) : State :=
  let x := s.dch[n]
  let t := some (s.clk.cyc / 200)
  s.setDch n { x with
    unc := x.unc && x.uncTick == t
    idx := { x.idx with edge := x.idx.edge.map fun e => { e with unc := e.unc && e.uncTick == t } } }

/-- UNC_CLR. -/
def execUncClr (n : Fin 4) (s : State) : Done := finish (s.inst (excHalf n.val) (dchAddr n 0) (.ok, s.uncClr n))

/-- ILL_RATE (R213): a window of ILL_WIN µs ends and is judged; the next begins. -/
def execIllRate (n : Fin 4) (s : State) : Done :=
  if s.dchOn n then
    let x := s.dch[n]
    let e := x.winFrom + usCyc (max 1 (s.DCH_MON_CFG_ILL_WIN n.val))
    let s1 := s.waitTill e
    .next ((s1.setDch n { x with winFrom := e, illWin := 0 }).dcond n 0
      (decide (s.DCH_MON_CFG_ILL_MAX n.val < x.illWin)))
  else .next s

/-- HALL_INV (R221): the state has stood at 000 or 111 for 1 µs. -/
def execHallInv (n : Fin 4) (s : State) : Done :=
  match s.dch[n].invSince with
  | none => .next s
  | some c => if s.dchOn n then .next ((s.waitTill (c + 400)).dcond n 3 true) else .next s

/-! ## SSI (R222 to R226) -/

/-- The channel keeps its clock pin: CLK_PIN names one, and no lower-numbered channel in SSI mode names the same (R222). -/
def State.ssiPin (s : State) (n : Fin 4) : Bool :=
  decide (s.DCH_CFG_CLK_PIN n.val < 12) &&
    (List.finRange 4).all fun m => decide (n.val ≤ m.val) || s.dch[m].mode != 2 ||
      s.DCH_CFG_CLK_PIN m.val != s.DCH_CFG_CLK_PIN n.val

/-- The start of an SSI frame (R223): dropped and counted in TRIG_LOST during a frame or its recovery time. -/
def State.ssiStart (s : State) (n : Fin 4) : State :=
  let x := s.dch[n]
  if s.dchOn n && x.mode == 2 && s.ssiPin n then
    if x.ssi.frame.isSome || x.ssi.recTill.isSome then
      s.setDch n { x with ssi := { x.ssi with lost := min 255 (x.ssi.lost + 1) } }
    else s.setDch n { x with ssi := { x.ssi with frame := some (s.clk.cyc, s.now), blind := !s.dchSees n } }
  else s

/-- SSI_TRIG (R223). -/
def execSsiTrig (n : Fin 4) (s : State) : Done := finish (s.inst (excHalf n.val) (dchAddr n 0) (.ok, s.ssiStart n))

/-- SSI_FRAME_START (R223): the TRIG_DIV-th tick has come. -/
def execSsiFrameStart (n : Fin 4) (s : State) : Done :=
  let x := s.dch[n]
  if x.ssi.due then .next ((s.setDch n { x with ssi := { x.ssi with due := false } }).ssiStart n) else .next s

/-- Check bits of CHK (R224). -/
def State.chkBits (s : State) (n : Fin 4) : Nat := match s.DCH_SSI_CFG_CHK n.val with
  | 0 => 0 | 1 => 1 | _ => 6

/-- L (R224). -/
def State.ssiLen (s : State) (n : Fin 4) : Nat := s.mtBits n + s.stBits n + s.statBits n + s.chkBits n

/-- Gray code of `w` bits decoded. -/
def grayDecode : Nat → Nat → Nat
  | 0, _ => 0
  | w + 1, v =>
    let r := grayDecode w (v / 2)
    2 * r + (r % 2 + v % 2) % 2

/-- CRC-6 with x^6 + x + 1, initial value 0, over the `w` low bits of `v`, most significant first (R225). -/
def crc6 (v : Nat) : Nat → Nat → Nat
  | 0, c => c
  | w + 1, c =>
    let b := (v / 2 ^ w) % 2
    let top := (c / 32 + b) % 2
    crc6 v w (((c * 2) % 64) ^^^ (if top = 1 then 3 else 0))

/-- Parity of the `w` low bits. -/
def parityOf (v : Nat) : Nat → Nat
  | 0 => 0
  | w + 1 => ((v / 2 ^ w) % 2 + parityOf v w) % 2

/-- The check bits match (R225). -/
def ssiCheck (chk body check w : Nat) : Bool :=
  match chk with
  | 0 => true
  | 1 => parityOf body w == check % 2
  | _ => crc6 body w 0 == check

/-- The fields of a frame (R225): multi-turn, single-turn, status, and whether the check bits match. -/
def State.ssiFields (s : State) (n : Fin 4) (raw : Nat) : Nat × Nat × Nat × Bool :=
  let k := s.chkBits n
  let body := raw / 2 ^ k
  let stat := body % 2 ^ s.statBits n
  let st0 := body / 2 ^ s.statBits n % 2 ^ s.stBits n
  let mt0 := body / 2 ^ (s.statBits n + s.stBits n) % 2 ^ s.mtBits n
  let gray := s.DCH_SSI_CFG_GRAY n.val = 1
  (if gray then grayDecode (s.mtBits n) mt0 else mt0, if gray then grayDecode (s.stBits n) st0 else st0, stat,
    ssiCheck (s.DCH_SSI_CFG_CHK n.val) body (raw % 2 ^ k) (s.mtBits n + s.stBits n + s.statBits n))

/-- LAST_ERR of a frame: the first failed check of Table 9.5, 0 for none. -/
def State.ssiErr (s : State) (n : Fin 4) (ready endBit chkOk : Bool) (st : Nat) : Nat :=
  if !ready then 1
  else if endBit then 2
  else if !chkOk then 3
  else match s.dch[n].ssi.acc with
    | [] => 0
    | a :: _ =>
      let j := s.DCH_SSI_JUMP_JUMP_MAX n.val
      if j ≠ 0 ∧ j < (wrapSigned (2 ^ s.stBits n : Nat) ((st : Int) - a.1)).natAbs then 4 else 0

/-- Cycles from t0 to the last rise of the clock: (L + 1.5) × P, P = 2 × CLK_HALF cycles (R224). -/
def State.ssiCycles (s : State) (n : Fin 4) : Nat :=
  (2 * s.ssiLen n + 3) * clampNat 20 2000 (s.DCH_SSI_TIM_CLK_HALF n.val)

/-- Cycles from t0 until the frame is complete: its last clock edge has come, and its end bit has been sampled
(L + 1) × P + DLY × 5 ns after t0 (R224, Table 9.6). -/
def State.ssiDone (s : State) (n : Fin 4) : Nat :=
  max (s.ssiCycles n) ((2 * s.ssiLen n + 2) * clampNat 20 2000 (s.DCH_SSI_TIM_CLK_HALF n.val) + 2 * s.DCH_SSI_TIM_DLY n.val)

/-- The level of the SSI clock of channel `n` now (R222, R224): idle high; in a frame it falls at t0, changes every half
period and stays high from t0 + (L + 1.5) × P on. -/
def State.ssiClock (s : State) (n : Fin 4) : Bool :=
  match s.dch[n].ssi.frame with
  | none => true
  | some (c, _) =>
    let half := clampNat 20 2000 (s.DCH_SSI_TIM_CLK_HALF n.val)
    decide (s.ssiCycles n ≤ s.clk.cyc - c) || (s.clk.cyc - c) / half % 2 == 1

/-- The channel whose clock is assigned to pad `pin` (AEV_0–7 as 0–7, ENC_0_Z–ENC_3_Z as 8–11): the lowest-numbered channel in
SSI mode that names it (R222); no pad is assigned before release (R38, Table 2.4). -/
def State.clockOf (s : State) (pin : Nat) : Option (Fin 4) :=
  if s.boot.released then (List.finRange 4).find? fun m => s.dch[m].mode == 2 && s.DCH_CFG_CLK_PIN m.val == pin
  else none

/-- The level that a clock drives on pad `pin`, if one is assigned to it: high while the half of its channel is off (R222). -/
def State.clockPad (s : State) (pin : Nat) : Option Bool :=
  (s.clockOf pin).map fun n => !s.halfOn (excHalf n.val) || s.ssiClock n

/-- The level of pad AEV_n, and of pad ENC_n_Z: held, driven by an SSI clock, or by its scheduler or generator (R51, R222). -/
def State.aevPad (s : State) (n : Fin 8) : Bool :=
  if s.pads.aevHeld.getLsbD n.val then s.pads.aev.getLsbD n.val
  else (s.clockPad n.val).getD (s.pads.aev.getLsbD n.val)
def State.encZPad (s : State) (n : Fin 4) : Bool :=
  if s.pads.encZHeld.getLsbD n.val then s.pads.encZ.getLsbD n.val
  else (s.clockPad (8 + n.val)).getD (s.pads.encZ.getLsbD n.val)

/-- What the channel takes of a frame's data (ready level, bits, end bit): free values where the data pad was held as the frame
began, since its receiver was disconnected (R51, R52, DESIGN CHOICE, assumption 64). -/
def State.ssiTaken (s : State) (n : Fin 4) (ready : Bool) (bits : BitVec 32) (endBit : Bool) : Bool × Nat × Bool :=
  if s.dch[n].ssi.blind then
    let v := Config.freeBits 74 s.clk.cyc
    (v % 2 == 1, v / 4 % 2 ^ 32, v / 2 % 2 == 1)
  else (ready, bits.toNat, endBit)

/-- SSI_FRAME_END (R224 to R226): the frame is complete; it is accepted or rejected, and the recovery time runs from the last
edge of its clock. -/
def execSsiFrameEnd (n : Fin 4) (ready : Bool) (bits : BitVec 32) (endBit : Bool) (s : State) : Done :=
  match s.dch[n].ssi.frame with
  | none => .next s
  | some (c, t0) =>
    let s1 := s.waitTill (c + s.ssiDone n)
    let x := s1.dch[n]
    let got := s1.ssiTaken n ready bits endBit
    let raw := got.2.1 % 2 ^ s1.ssiLen n
    let f := s1.ssiFields n raw
    let err := s1.ssiErr n got.1 got.2.2 f.2.2.2 f.2.1
    let till := c + s.ssiCycles n + usCyc (max 1 (s1.DCH_SSI_TIM_REC_US n.val))
    let y := { x.ssi with frame := none, recTill := some till, raw := BitVec.ofNat 32 raw, lastErr := err }
    if err = 0 then
      let z := { y with
        acc := ((f.2.1, c, t0) :: x.ssi.acc).take 2, accAt := s1.clk.cyc, stat := f.2.2.1, errRun := 0, runs := 0
        loss := false }
      .next ((s1.setDch n { x with pos := f.2.1, turns := f.1, ssi := z }).dcond n 5 false)
    else
      let lim := max 1 (s1.DCH_SSI_CFG_ERR_MAX n.val)
      let z := { y with
        errRun := min 15 (x.ssi.errRun + 1), runs := x.ssi.runs + 1, errCnt := min 65535 (x.ssi.errCnt + 1)
        loss := x.ssi.loss || decide (lim ≤ x.ssi.runs + 1) }
      let s2 := (s1.setDch n { x with ssi := z }).devent n 4
      .next (if z.loss then s2.dcond n 5 true else s2)

/-- SSI_RECOVERY_END (R223, R224). -/
def execSsiRecoveryEnd (n : Fin 4) (s : State) : Done :=
  match s.dch[n].ssi.recTill with
  | none => .next s
  | some t =>
    let s1 := s.waitTill t
    let x := s1.dch[n]
    .next (s1.setDch n { x with ssi := { x.ssi with recTill := none } })

/-! ## Published values (R227 to R231) -/

/-- DCH_n's half holds authority for the drive named by DRIVE (R231). -/
def State.dchAuth (s : State) (n : Fin 4) : Bool :=
  match s.DCH_CFG_DRIVE n.val with
  | 1 => s.holds 0 (excHalf n.val)
  | 2 => s.holds 1 (excHalf n.val)
  | _ => false

/-- The tag (R231, Table 9.7); `have'` says that an accepted SSI frame is published. -/
def State.dchTag (s : State) (n : Fin 4) (have' : Bool) : BitVec 8 :=
  let x := s.dch[n]
  let a := s.dchAuth n
  match x.mode with
  | 0 => tagByte a x.unc false (!x.idx.ref) false x.idx.ref
  | 1 => tagByte a x.unc false false false (hallSector x.lvl).isSome
  | _ => tagByte a (x.unc || x.ssi.loss) false (!have') false (have' && !x.ssi.loss)

/-- CPR of the channel: in SSI mode by ST_BITS as it stands, else as taken at the setting of EN (Table 9.1, Table 9.8). -/
def State.cprNow (s : State) (n : Fin 4) : Nat := if s.dch[n].mode = 2 then 2 ^ s.stBits n else s.dch[n].cpr

/-- The angle in turns (R220, R229). With DIR_INV set in HALL mode Table 9.2 is read in the opposite sense, so that a positive
speed means a rising angle (R12; DESIGN CHOICE, assumption 55). -/
def State.dchAngle (s : State) (n : Fin 4) : Rat :=
  let x := s.dch[n]
  if x.mode = 1 then
    let sector : Nat := if s.DCH_CFG_DIR_INV n.val = 1 then 5 - x.sector else x.sector
    (s.DCH_SCALE_HALL_OFS n.val : Rat) / 65536 + ((sector : Rat) + 1 / 2) / 6
  else ((x.pp * x.pos : Nat) : Rat) / (s.cprNow n : Nat)

/-- The speed in e-turn/s (R230), its times in TCLK cycles (R378). -/
def State.dchSpeed (s : State) (n : Fin 4) : Rat :=
  let x := s.dch[n]
  let tmo := 1000 * usCyc (max 1 (s.DCH_MON_CFG_SPD_TMO n.val))
  if x.mode = 2 then
    match x.ssi.acc with
    | a :: b :: _ =>
      let dt := ((a.2.1 - b.2.1 : Nat) : Rat) / 400000000
      if tmo < s.clk.cyc - a.2.1 ∨ dt = 0 then 0
      else (x.pp : Rat) * (wrapSigned (s.cprNow n : Nat) ((a.1 : Int) - b.1) : Rat) / ((s.cprNow n : Nat) * dt)
    | _ => 0
  else
    match x.hist with
    | [] => 0
    | h :: t =>
      match t.find? fun e => decide (usCyc (s.DCH_RATE_SPD_WIN n.val) ≤ h.1 - e.1) with
      | none => 0
      | some e =>
        let dt := ((h.1 - e.1 : Nat) : Rat) / 400000000
        let g : Nat := if x.mode = 0 then x.pp else 1
        if tmo < s.clk.cyc - h.1 ∨ dt = 0 then 0 else (g : Rat) * ((h.2 - e.2 : Int) : Rat) / ((x.cpr : Nat) * dt)

/-- The tick of a digital channel (R223, R227): a slip found in the tick before is raised, and the set is published; in SSI mode only a frame checked 100 ns before
the sample instant counts, and until one does the set stays. Every TRIG_DIV-th tick since EN was set an SSI frame is due
(DESIGN CHOICE, assumption 55). -/
def State.dchTick (s0 : State) (n : Fin 4) : State :=
  let s := s0.raiseSlip n
  if !s.dchOn n then s
  else
    let x := s.dch[n]
    let div := s.DCH_RATE_TRIG_DIV n.val
    let k := x.ssi.ticks + 1
    let ssi := { x.ssi with
      ticks := if k ≥ div then 0 else k, due := x.ssi.due || (x.mode == 2 && div != 0 && decide (div ≤ k)) }
    let young := decide (s.clk.cyc < x.ssi.accAt + 40)
    if x.mode = 2 ∧ (x.ssi.acc.isEmpty ∨ young) then
      s.setDch n { x with ssi := ssi, pub := { x.pub with tag := s.dchTag n (decide (2 ≤ x.ssi.acc.length)) } }
    else
      let stamp := if x.mode = 2 then (x.ssi.acc.map fun a => a.2.2).headD 0 else s.now
      let p : DchSet := {
        ang := wrapInt 24 (roundFree 30 (wrap01 (s.dchAngle n) * 2 ^ 24)), tag := s.dchTag n true
        spd := clampInt (-(2 ^ 31)) (2 ^ 31 - 1) (roundFree 31 (s.dchSpeed n * 65536))
        pos := x.pos, turns := x.turns, up := x.up, dn := x.dn, ill := x.ill, trans := x.trans, slip := x.slip
        stamp := stamp }
      s.setDch n { x with ssi := ssi, pub := p }

/-- The words DCH_n_ANGLE to DCH_n_STAMP_HI of one set (Table 9.10). -/
def DchSet.words (p : DchSet) : List Word :=
  [angWord p.ang p.tag, BitVec.ofInt 32 p.spd, BitVec.ofNat 32 p.pos, BitVec.ofNat 32 p.turns, BitVec.ofNat 32 p.up,
    BitVec.ofNat 32 p.dn, BitVec.ofNat 32 p.ill, BitVec.ofNat 32 p.trans, BitVec.ofInt 32 p.slip, p.stamp.setWidth 32,
    (p.stamp >>> 32).setWidth 32]

/-- Words captured for the registers from address `a` upwards. -/
def State.captureFrom (s : State) (a : Nat) : List Word → State
  | [] => s
  | w :: ws => (s.capture a w).captureFrom (a + 4) ws

/-- DCH_ANGLE_READ (R228). -/
def execDchAngleRead (n : Fin 4) (s : State) : Done :=
  finish (s.instRead (excHalf n.val) (dchAddr n 0x24) (.ok, s.captureFrom (dchAddr n 0x24) s.dch[n].pub.words))

/-- DCH_ENABLE (R210). -/
def execDchEnable (n : Fin 4) (s : State) : Done :=
  finish (s.inst (excHalf n.val) (dchAddr n 0) (.ok, s.dchSetEn n true))

/-- DCH_DISABLE (R210). -/
def execDchDisable (n : Fin 4) (s : State) : Done :=
  finish (s.inst (excHalf n.val) (dchAddr n 0) (.ok, s.dchSetEn n false))

/-- A write of DCH_n_CTRL: EN, and the actions REF_CLR, UNC_CLR and SSI_TRIG. -/
def State.writeDchCtrl (s : State) (n : Fin 4) (v : Word) : State :=
  let a := dchAddr n 0
  let s1 := s.setReg a ((v &&& ~~~(0xF : Word)) ||| (s.reg a &&& 1))
  let s2 := s1.dchSetEn n (v.bit 0)
  let s3 := if v.bit 2 then s2.refClr n else s2
  let s4 := if v.bit 1 then s3.uncClr n else s3
  if v.bit 3 then s4.ssiStart n else s4

/-- At release the channels that the image enables start (R210). -/
def State.dchRelease (s : State) : State :=
  (List.finRange 4).foldl (fun st n =>
    if st.DCH_CTRL_EN n.val = 1 ∧ st.halfOn (excHalf n.val) = true then st.dchStart n else st) s

end Sys2Proof.Machine
end

