-- ==== Sys2Proof/Machine/Enc.lean ====
section
/-! DEFINITION. Encoder emulation: pins, presets, steps, and the authority latch (R264 to R276). -/

namespace Sys2Proof.Machine

/-! ## Pins (R264, R265) -/

/-- OUT_POS (R264). -/
def Enc.outPos (x : Enc) : Nat := (((x.p : Int) + x.emit) % (x.cpr : Nat)).toNat

/-- A and B of Table 11.1, exchanged with DIR_INV (R264). -/
def Enc.abOf (x : Enc) (pos : Nat) : Bool × Bool :=
  let a := decide (pos % 4 = 1 ∨ pos % 4 = 2)
  let b := decide (pos % 4 = 2 ∨ pos % 4 = 3)
  if x.cfg.bit 1 then (b, a) else (a, b)

/-- Z (R265). -/
def Enc.zOf (x : Enc) (pos : Nat) : Bool :=
  let zp := x.idx.fld 0 18 % x.cpr
  !x.cfg.bit 2 && decide ((pos + x.cpr - zp) % x.cpr < clampNat 1 4 (x.cfg.fld 4 3))

/-- The column of Table 11.1 that levels A and B stand in. -/
def Enc.column (x : Enc) (a b : Bool) : Nat :=
  match (if x.cfg.bit 1 then (b, a) else (a, b)) with
  | (false, false) => 0 | (true, false) => 1 | (true, true) => 2 | (false, true) => 3

/-- ENC_n_Z is assigned as an SSI clock (R222, R265). -/
def State.zClaimed (s : State) (n : Fin 4) : Bool := (s.clockOf (8 + n.val)).isSome

/-- From release on the pads follow the levels driven, unless held (R51, R86). -/
def State.encPads (s : State) (n : Fin 4) : State :=
  let x := s.enc[n]
  let p := s.pads
  let pa := if p.encHeld.getLsbD n.val then p else { p with
    encA := bput p.encA n.val x.a, encB := bput p.encB n.val x.b }
  let pz := if pa.encZHeld.getLsbD n.val then pa else { pa with encZ := bput pa.encZ n.val x.z }
  if s.boot.released then { s with pads := pz } else s

/-! ## Preset (R266) -/

/-- The count v equal to `col` modulo 4 and between q − 2 and q + 1 (R266). -/
def presetCount (q : Int) (col : Nat) : Int := q - 2 + ((col : Int) - (q - 2)) % 4

/-- The configuration written comes into force (R266, R267). -/
def State.encTake (s : State) (n : Fin 4) : Enc :=
  let l := s.encHalf n
  { s.enc[n] with
    cfg := s.regH l (encAddr n 4), lines := s.regH l (encAddr n 8), idx := s.regH l (encAddr n 0xC) }

/-- The preset of output `n` (R266): the configuration written comes into force, the ledger restarts, the other copy is
aligned. The active copy is that of the holder, or the last one while no half holds the drive; a copy without a source
keeps its count (assumption 56). -/
def State.presetDo (s : State) (n : Fin 4) : State :=
  let x0 := s.encTake n
  let h := (s.holderHalf x0.drive).getD x0.act
  let raw (k : Half) : Int := ((s.encX n x0 k).map fun y => y.floor).getD (x0.q.get k)
  let q := raw h
  let x := (x0.place h q q (s.encValid x0.drive h)).place h.other (raw h.other) (nearTurn x0.cpr (raw h.other) q)
    (s.encValid x0.drive h.other)
  let a := s.pads.encA.getLsbD n.val
  let b := s.pads.encB.getLsbD n.val
  let v := presetCount q (x.column a b)
  let y := { x with
    act := h, late := none, done := true
    p := (v % (x.cpr : Nat)).toNat, target := q - v, emit := 0, jump := 0, up := 0, dn := 0
    a := a, b := b, z := s.pads.encZ.getLsbD n.val }
  ((s.setEnc n y).tallyEvent n 1 0).judgeTally n

/-- A handover of drive `d` runs, or one asked for waits to be judged (R248, R249). -/
def State.handing (s : State) (d : Drive) : Bool := s.xd[d].busy || !s.xd[d].req.isEmpty

/-- PRESET written (R266): nothing while EN is clear; during a handover the preset waits for its end (Table 11.4). -/
def State.encPreset (s : State) (n : Fin 4) : State :=
  if !s.encEn n then s
  else if s.handing (s.encDrive n) then s.setEnc n { s.enc[n] with late := some (s.encDrive n) }
  else (s.encFollow n).presetDo n

/-- The presets that wait for the end of a handover of drive `d`, once it has ended (Table 11.4); one whose output is to serve the
other drive by then waits for that drive's handover too. -/
def State.presetLate (s : State) (d : Drive) : State :=
  (List.finRange 4).foldl (fun st n =>
    if (st.enc[n]).late = some d ∧ st.handing d = false then
      (if st.handing (st.encDrive n) then st.setEnc n { st.enc[n] with late := some (st.encDrive n) } else st.presetDo n)
    else st) s

/-- The word at offset `off` (4 CFG, 8 LINES, 0xC IDX) of output `n` has been written: it takes effect at once while EN is clear,
else at the next preset (R267). An output that serves another drive goes on with the copy of that drive's holder (R269). -/
def State.encConfig (s : State) (n : Fin 4) (off : Nat) : State :=
  let x := s.enc[n]
  let w := s.regH (s.encHalf n) (encAddr n off)
  let y : Enc := match off with
    | 4 => { x with cfg := w }
    | 8 => { x with lines := w }
    | 0xC => { x with idx := w }
    | _ => x
  let z : Enc := if x.drive == y.drive then y else { y with act := (s.holderHalf y.drive).getD y.act }
  if s.encEn n then s
  else s.setEnc n (if x.drive == z.drive && x.cpr == z.cpr then z else { z with valid := ⟨false, false⟩ })

/-- A register of a duplicated block written with `v` in each copy whose half is on (R17, R359). -/
def State.setDup (s : State) (a : Nat) (v : Word) : State :=
  let s1 := if s.halfOn .h0 then s.setReg (copyKey .h0 a) v else s
  if s.halfOn .h1 then s1.setReg (copyKey .h1 a) v else s1

/-- EN of ENC_n_CTRL in both copies written (R266, R267). -/
def State.encSetEn (s0 : State) (n : Fin 4) (en : Bool) : State :=
  let s := s0.encFollow n
  let a := encAddr n 0
  let w := s.regH (s.encHalf n) a
  let s1 := s.setDup a (bput w 0 en)
  if en && !w.bit 0 then s1.setEnc n { s1.enc[n] with armed := true, done := false }
  else if !en && w.bit 0 then s1.setEnc n { s1.enc[n] with armed := false, late := none }
  else s1

/-- A register access to a block whose two copies lie in the halves: ACC_OFF while both are off (R359). -/
def State.dup (s : State) (addr : Nat) (r : Status × State) : Status × State :=
  if s.halfOn .h0 || s.halfOn .h1 then r else (.accOff, s.fabReport 0 .host addr true)

/-- The same for a read (R359). -/
def State.dupRead (s : State) (addr : Nat) (r : Status × State) : Status × State :=
  if s.halfOn .h0 || s.halfOn .h1 then r else (.accOff, s.fabReport 0 .host addr false)

/-- ENC_ENABLE (R266). -/
def execEncEnable (n : Fin 4) (s : State) : Done := finish (s.dup (encAddr n 0) (.ok, s.encSetEn n true))

/-- ENC_DISABLE (R267). -/
def execEncDisable (n : Fin 4) (s : State) : Done := finish (s.dup (encAddr n 0) (.ok, s.encSetEn n false))

/-- PRESET (R266). -/
def execPreset (n : Fin 4) (s : State) : Done := finish (s.dup (encAddr n 0) (.ok, s.encPreset n))

/-- ENC_FIRST_PRESET (R266): the first tick, come into use now, after EN was set at which the active source's tag has VALID
set and ACQ clear. A preset written that waits for the end of a handover goes on waiting (Table 11.4). -/
def execEncFirstPreset (n : Fin 4) (s : State) : Done :=
  if s.presetDue n && s.gen.at' == s.clk.cyc then
    let s1 := (s.setEnc n { s.enc[n] with armed := false }).presetDo n
    .next (s1.setEnc n { s1.enc[n] with late := (s.enc[n]).late })
  else .next s

/-! ## Stepping (R261) -/

/-- The EDGE_GAP in force, at least 10 cycles (R261). -/
def Enc.gap (x : Enc) : Nat := max 10 (x.cfg.fld 8 10)

/-- One count step driven (R261, R264, R265). -/
def State.encStep (s : State) (n : Fin 4) : State :=
  let x := s.enc[n]
  let up := decide (0 < x.backlog)
  let y := { x with
    emit := wrap48 (x.emit + (if up then 1 else -1)), last := s.clk.cyc
    up := if up then (x.up + 1) % 2 ^ 32 else x.up, dn := if up then x.dn else (x.dn + 1) % 2 ^ 32 }
  let ab := y.abOf y.outPos
  ((s.setEnc n { y with a := ab.1, b := ab.2, z := y.zOf y.outPos }).encPads n).judgeTally n

/-- A count step may be driven now (R261, R267, R271). -/
def State.encMayStep (s : State) (n : Fin 4) : Bool :=
  let x := s.enc[n]
  s.encLed n && x.backlog != 0 && decide (x.last + x.gap ≤ s.clk.cyc) &&
    s.holderHalf x.drive == some x.act

/-- ENC_COUNT_STEP (R261): after `dt` cycles, with BACKLOG non-zero and EDGE_GAP expired, one step is driven. -/
def execEncCountStep (n : Fin 4) (dt : Nat) (s : State) : Done :=
  let s1 := (s.wait dt).encFollow n
  .next (if s1.encMayStep n then s1.encStep n else s1)

/-- The words of Table 11.7 in register order. -/
def Enc.words (x : Enc) (now : BitVec 64) : List Word :=
  [BitVec.ofInt 32 x.target, BitVec.ofInt 32 x.emit, BitVec.ofInt 32 x.backlogShown, BitVec.ofInt 32 x.jump,
    BitVec.ofNat 32 x.up, BitVec.ofNat 32 x.dn, now.setWidth 32, (now >>> 32).setWidth 32]

/-- A read of ENC_n_TARGET captures the ledger (R276). -/
def State.encCapture (s : State) (n : Fin 4) : State :=
  let s1 := s.encFollow n
  s1.captureFrom (encAddr n 0x18) (s1.enc[n].words s1.now)

/-- ENC_TARGET_READ (R276). -/
def execEncTargetRead (n : Fin 4) (s : State) : Done := finish (s.dupRead (encAddr n 0x18) (.ok, s.encCapture n))

/-! ## The authority latch (R269 to R271) -/

/-- The latch of drive `d` names half `h` as single holder: each output of the drive continues from that half's copy,
the difference entering TARGET and JUMP_ACC (R270, R271). Called with the outputs brought up to the instant. -/
def State.encLatch (s : State) (d : Drive) (h : Half) : State :=
  (List.finRange 4).foldl (fun st n =>
    let x := st.enc[n]
    let j := x.q.get h - x.q.get x.act
    if x.drive != d then st
    else if st.encLed n then ((st.setEnc n ({ x with act := h }.addJump j)).tallyEvent n 2 j).judgeTally n
    else st.setEnc n { x with act := h }) s

/-- PEER_DIFF (R269). -/
def Enc.peerDiff (x : Enc) : Int := clampInt (-32767) 32767 (x.q.get x.act.other - x.q.get x.act)

/-- A write of ENC_n_CTRL. -/
def State.writeEncCtrl (s : State) (n : Fin 4) (v : Word) : State :=
  let a := encAddr n 0
  let w := (v &&& ~~~(0x3 : Word)) ||| (s.regH (s.encHalf n) a &&& 1)
  let s2 := (s.setDup a w).encSetEn n (v.bit 0)
  if v.bit 1 then s2.encPreset n else s2

end Sys2Proof.Machine
end

