-- ==== Sys2Proof/Machine/Aev.lean ====
section
/-! DEFINITION. Angle-event scheduler (R277 to R291). What an internal trigger does at its target is in
Machine/Tick.lean. -/

namespace Sys2Proof.Machine

/-- Slot `i` replaced. -/
def State.setSlot (s : State) (i : Fin 256) (x : AevSlot) : State := { s with aev := { s.aev with slot := vset s.aev.slot i x } }

/-- Fields of the committed words (R281, R284, R288). -/
def AevSlot.en (x : AevSlot) : Bool := x.ang.bit 0
def AevSlot.drv (x : AevSlot) : Drive := Fin.ofNat 2 (x.ang.fld 1 1)
def AevSlot.angle (x : AevSlot) : Nat := x.ang.fld 8 24
def AevSlot.action (x : AevSlot) : Nat := let a := x.act.fld 28 4; if 9 ≤ a then 0 else a
def AevSlot.target (x : AevSlot) : Nat := x.act.fld 16 8
def AevSlot.ofsNs (x : AevSlot) : Int := max (-20000) (signedOf 16 (x.par.fld 0 16))
def AevSlot.width (x : AevSlot) : Nat := max 1 (x.par.fld 16 16)

/-- The action is on a pin. -/
def AevSlot.isPin (x : AevSlot) : Bool := decide (1 ≤ x.action ∧ x.action ≤ 4)

/-- DIR admits a step up, or down; 3 acts as 0 (R281). -/
def AevSlot.admits (x : AevSlot) (up : Bool) : Bool :=
  match x.ang.fld 4 2 with
  | 1 => up
  | 2 => !up
  | _ => true

/-- Pin AEV_n is assigned as an SSI clock (R222). -/
def State.aevClaimed (s : State) (n : Fin 8) : Bool := (s.clockOf n.val).isSome

/-- EN of AEV_CTRL in the copy of half `h`. -/
def State.aevEn (s : State) (h : Half) : Bool := s.boot.released && s.AEV_CTRL_EN h == 1

/-- Drive `d` is frozen (R286): not yet locked since release, or its active source's tag lacks VALID. While no half holds the
drive it has no active source, and stays as it was (assumption 57). -/
def State.frozen (s : State) (d : Drive) : Bool := !s.aev.live[d]

/-- The evaluation instant of a slot now in the copy of half `h`, in ns (R280). -/
def State.evalAt (s : State) (x : AevSlot) (h : Half) : Rat :=
  let lead : Int := if x.isPin ∧ x.target < 8 then signedOf 16 (s.AEV_LEAD_LEAD_NS h x.target) else 0
  s.cycNs + lead - x.ofsNs

/-- u − a of a slot by the copy of half `h` (R278). -/
def State.slotV (s : State) (x : AevSlot) (h : Half) : Option Rat :=
  (s.uAt x.drv h (s.evalAt x h)).map fun u => u - (x.angle : Rat) / 2 ^ 24

/-- HYST in turns, as the copy of half `h` holds it (R278). -/
def State.aevHyst (s : State) (h : Half) : Rat := (min 0x400000 (s.AEV_HYST_HYST h) : Nat) / 2 ^ 24

/-- u − a of a slot as it presets: by the holder's copy, or by the first copy with a source while no half holds the drive. -/
def State.presetV (s : State) (x : AevSlot) : Option Rat :=
  match s.holderHalf x.drv with
  | some h => s.slotV x h
  | none => (s.slotV x .h0).orElse fun _ => s.slotV x .h1

/-- A slot presets: c becomes floor(u − a) (R279). -/
def State.presetSlot (s : State) (i : Fin 256) : State :=
  let x := s.aev.slot[i]
  match s.presetV x with
  | none => s
  | some v => s.setSlot i { x with c := v.floor, hold := false }

/-! ## Pins (R284, R285, R290) -/

/-- One operation applied to a level and the end of a pulse: a new level ends a pulse, a pulse that runs restarts
(Table 12.2). -/
def OutOp.act (active : Bool) (st : Bool × Option Nat) : OutOp → Bool × Option Nat
  | .level l => (l, none)
  | .toggle => (!st.1, none)
  | .pulse t => (active, some t)

/-- An operation put in its place among those of the cycle: after every one whose place is not higher (Table 12.2). -/
def putOp (place : Nat) (op : OutOp) : List (Nat × OutOp) → List (Nat × OutOp)
  | [] => [(place, op)]
  | x :: t => if x.1 ≤ place then x :: putOp place op t else (place, op) :: x :: t

/-- The cycle of an output that is told something at cycle `t`. -/
def AevOut.cycleAt (o : AevOut) (t : Nat) : AevCyc :=
  if o.now.cyc = t ∧ o.now.ops.isEmpty = false then o.now else ⟨t, o.lvl, o.pulse, o.edges, o.edgeAt, []⟩

/-- An output after operation `op` in place `place` of cycle `t`: the operations of the cycle apply in order, the last level
wins, and the pin makes at most one edge (Table 12.2), which counts unless the pin is an SSI clock (`claimed`). -/
def AevOut.told (o : AevOut) (active claimed : Bool) (t place : Nat) (op : OutOp) : AevOut :=
  let c := o.cycleAt t
  let ops := putOp place op c.ops
  let r := ops.foldl (fun st x => x.2.act active st) (c.lvl, c.pulse)
  let edge := r.1 != c.lvl && !claimed
  { o with
    lvl := r.1, pulse := r.2, edges := if edge then (c.edges + 1) % 65536 else c.edges
    edgeAt := if edge then some t else c.edgeAt, mis := if o.mis == some r.1 then none else o.mis
    now := { c with ops := ops } }

/-- The active level of output `n`. -/
def State.outActive (s : State) (n : Fin 8) : Bool := !s.outPol n

/-- Operation `op` on output `n` in place `place` of this cycle: the pad follows unless held, and a read-back mismatch that the
new level removes ends. -/
def State.driveOut (s : State) (n : Fin 8) (place : Nat) (op : OutOp) : State :=
  let o := s.aev.out[n]
  let o1 := o.told (s.outActive n) (s.aevClaimed n) s.clk.cyc place op
  let pad := if s.pads.aevHeld.getLsbD n.val || !s.boot.released then s.pads.aev
    else bput s.pads.aev n.val o1.lvl
  let s1 : State := { s with
    aev := { s.aev with out := vset s.aev.out n o1 }, pads := { s.pads with aev := pad } }
  if o.mis.isSome && o1.mis.isNone then s1.cond .aev n.val .shared false else s1

/-- The operation of a pin action (R284). -/
def State.pinOp (s : State) (n : Fin 8) (action width : Nat) : OutOp :=
  match action with
  | 1 => .level (s.outActive n)
  | 2 => .level (!s.outActive n)
  | 3 => .toggle
  | _ => .pulse (s.clk.cyc + width)

/-- The action of firing slot `i` (R284, R285, R289): a pin action acts only on an output of the slot's drive that is no SSI
clock; an internal trigger sets out for its target, one of each kind per cycle. -/
def State.slotAct (s : State) (i : Fin 256) : State :=
  let x := s.aev.slot[i]
  if x.action = 0 then s
  else if x.isPin then
    let n : Fin 8 := Fin.ofNat 8 x.target
    if x.target < 8 ∧ s.outDrive n = x.drv ∧ s.aevClaimed n = false
    then s.driveOut n (i.val + 1) (s.pinOp n x.action x.width)
    else s
  else
    let dup := s.aev.trig.any fun t => t.action == x.action && t.target == x.target && t.cyc == s.clk.cyc
    if dup then s
    else { s with aev := { s.aev with trig := s.aev.trig ++ [⟨i, x.action, x.target, s.clk.cyc, s.now⟩] } }

/-- A step of slot `i` (R278, R281, R283): c moves, a late step is counted, and the slot fires if DIR admits the step. -/
def State.slotStep (s : State) (i : Fin 256) (up late : Bool) : State :=
  let x := s.aev.slot[i]
  let fire := x.admits up
  let y := { x with
    c := if up then x.c + 1 else x.c - 1
    late := if late then min 255 (x.late + 1) else x.late
    fire := if fire then (x.fire + 1) % 65536 else x.fire }
  let s1 := s.setSlot i y
  let s2 : State := { s1 with aev := { s1.aev with
    lateTotal := if late then min 65535 (s1.aev.lateTotal + 1) else s1.aev.lateTotal } }
  if fire then s2.slotAct i else s2

/-- The rule of R278 for slot `i` in this cycle, by the copy of the holder; a step in the first cycle after a prediction
switch is late (R283). -/
def State.slotRule (s : State) (i : Fin 256) : State :=
  let x := s.aev.slot[i]
  if !x.en || s.frozen x.drv then s
  else match s.holderHalf x.drv with
    | none => s
    | some h => match if s.aevEn h then s.slotV x h else none with
      | none => s
      | some v =>
        let late := s.clk.cyc == s.gen.at'
        if x.hold then
          (if v.floor = x.c then s.setSlot i { x with hold := false } else s)
        else if (x.c : Rat) + 1 ≤ v then s.slotStep i true late
        else if v < (x.c : Rat) - s.aevHyst h then s.slotStep i false late
        else s

/-- AEV_SLOT_STEP (R278): after `dt` cycles the slot is evaluated, and steps if the angle has crossed its level. -/
def execAevSlotStep (i : Fin 256) (dt : Nat) (s : State) : Done := .next ((s.wait dt).slotRule i)

/-- AEV_PULSE_END (R284): WIDTH cycles after a PIN_PULSE the output returns to its idle level; also while the drive is
frozen or the scheduler disabled (R286, Table 12.2). While no half holds the output's drive the pad keeps its level (R49),
and the pulse goes on (assumption 57). -/
def execAevPulseEnd (n : Fin 8) (s : State) : Done :=
  match (s.aev.out[n]).pulse with
  | none => .next s
  | some t =>
    let s1 := s.waitTill t
    .next (if (s1.holderHalf (s1.outDrive n)).isSome then s1.driveOut n 0 (.level (!s1.outActive n)) else s1)

/-! ## The prediction switch (R277, R286, R288) -/

/-- The commit of a slot: a change of EV_ANGLE, DRV or EN presets it (R279, R288). -/
def State.commitSlot (s : State) (i : Fin 256) : State :=
  let x := s.aev.slot[i]
  match x.commit with
  | none => s
  | some (a, act, par) =>
    let y := { x with ang := a, act := act.getD x.act, par := par.getD x.par, commit := none }
    let s1 := s.setSlot i y
    if y.angle ≠ x.angle ∨ y.drv ≠ x.drv ∨ y.en ≠ x.en then s1.presetSlot i else s1

/-- Every slot of drive `d` presets (R279). -/
def State.presetDrive (s : State) (d : Drive) : State :=
  (List.finRange 256).foldl (fun st i => if (st.aev.slot[i]).drv = d then st.presetSlot i else st) s

/-- Freezing of drive `d` judged on the set in use (R279, R286): the first lock needs VALID with ACQ clear; leaving the
frozen state presets the drive's slots. -/
def State.judgeFreeze (s : State) (d : Drive) : State :=
  let was := s.aev.live[d]
  let ok := match s.activeSrc d with
    | none => was
    | some c => tagValid (s.genTag c) && (s.aev.first[d] || !tagAcq (s.genTag c))
  let s1 : State := { s with aev := { s.aev with
    live := vset s.aev.live d ok, first := vset s.aev.first d (s.aev.first[d] || ok) } }
  if ok && !was then s1.presetDrive d else s1

/-- PREDICTION_SWITCH (R260, R277, R288): the newest tick whose sample instant lies 1,250 ns back comes into use;
committed slot changes take effect; freezing is judged; encoder emulation follows. -/
def execPredictionSwitch (s : State) : Done :=
  match s.gen.wait with
  | [] => .next s
  | (c, _) :: _ =>
    let s1 := (s.waitTill (c + 500)).encFollowAll
    match dueTick s1.clk.cyc s1.gen.wait with
    | none => .next s1
    | some (p, rest) =>
      let s2 := s1.takeGen p rest
      let s3 := (List.finRange 256).foldl State.commitSlot s2
      .next ((s3.judgeFreeze 0).judgeFreeze 1).encFollowAll

/-! ## Registers of the scheduler -/

/-- Addresses of the common registers, of output `n` and of slot `i`. -/
def aevAddr (off : Nat) : Nat := 0x90000 + off
def aevOutAddr (n : Fin 8) (off : Nat) : Nat := 0x90100 + n.val * 0x10 + off
def slotAddr (i : Fin 256) (off : Nat) : Nat := 0x91000 + i.val * 0x10 + off

/-- A write of AEV_SLOT_s_ACT or AEV_SLOT_s_PAR is held as pending (R288). -/
def State.stageSlot (s0 : State) (i : Fin 256) (par : Bool) (v : Word) : State :=
  let s := s0.eccPut .aev (slotAddr i (if par then 8 else 4))
  let x := s.aev.slot[i]
  s.setSlot i (if par then { x with pPar := some v } else { x with pAct := some (v &&& 0xF0FF0000) })

/-- The words of a slot that ANG word `v` commits (R288): itself and the pending ones; a word that an earlier ANG write
has committed stays among them unless a later one replaces it. -/
def AevSlot.commits (x : AevSlot) (v : Word) : Word × Option Word × Option Word :=
  match x.commit with
  | none => (v, x.pAct, x.pPar)
  | some (_, act, par) => (v, x.pAct.orElse fun _ => act, x.pPar.orElse fun _ => par)

/-- A write of AEV_SLOT_s_ANG commits the slot for the next prediction switch (R288). -/
def State.angSlot (s0 : State) (i : Fin 256) (v : Word) : State :=
  let s := s0.eccPut .aev (slotAddr i 0)
  let x := s.aev.slot[i]
  s.setSlot i { x with pAct := none, pPar := none, commit := some (x.commits (v &&& 0xFFFFFF33)) }

/-- AEV_SLOT_STAGE_WRITE (R288). -/
def execAevSlotStageWrite (i : Fin 256) (par : Bool) (v : Word) (s : State) : Done :=
  finish (s.dup (slotAddr i (if par then 8 else 4)) (.ok, s.stageSlot i par v))

/-- AEV_SLOT_ANG_WRITE (R288). -/
def execAevSlotAngWrite (i : Fin 256) (v : Word) (s : State) : Done :=
  finish (s.dup (slotAddr i 0) (.ok, s.angSlot i v))

/-- SET and CLR of AEV_n_FORCE: the level at once, any pulse ends; CLR wins. The write drives nothing while no half holds the
output's drive (R49), or while the pin is an SSI clock (R222, assumption 57). -/
def State.aevForce (s : State) (n : Fin 8) (set clr : Bool) : State :=
  if (s.holderHalf (s.outDrive n)).isNone || s.aevClaimed n then s
  else if clr then s.driveOut n 0 (.level (!s.outActive n))
  else if set then s.driveOut n 0 (.level (s.outActive n))
  else s

/-- AEV_FORCE_SET. -/
def execAevForceSet (n : Fin 8) (s : State) : Done := finish (s.dup (aevOutAddr n 0xC) (.ok, s.aevForce n true false))

/-- AEV_FORCE_CLR. -/
def execAevForceClr (n : Fin 8) (s : State) : Done := finish (s.dup (aevOutAddr n 0xC) (.ok, s.aevForce n false true))

/-- EN of AEV_CTRL written (Table 12.2): setting it presets every slot, in the copy that governs the slot's drive. -/
def State.aevSetEn (s : State) (en : Bool) : State :=
  let a := aevAddr 0x40
  let s1 := s.setDup a (bput (s.regH s.lead a) 0 en)
  let off (d : Drive) : Bool := !(s.regH (s.copyOf d) a).bit 0
  if en then (List.finRange 256).foldl (fun st i => if off (st.aev.slot[i]).drv then st.presetSlot i else st) s1 else s1

/-- AEV_ENABLE (Table 12.2). -/
def execAevEnable (s : State) : Done := finish (s.dup (aevAddr 0x40) (.ok, s.aevSetEn true))

/-- AEV_DISABLE (Table 12.2). -/
def execAevDisable (s : State) : Done := finish (s.dup (aevAddr 0x40) (.ok, s.aevSetEn false))

/-- CNT_CLR (AEV_CTRL). -/
def State.aevCntClr (s : State) : State :=
  { s with aev := { s.aev with slot := s.aev.slot.map fun x => { x with fire := 0, late := 0, drop := 0 } } }

/-- AEV_CNT_CLR. -/
def execAevCntClr (s : State) : Done := finish (s.dup (aevAddr 0x40) (.ok, s.aevCntClr))

/-- A write of AEV_CTRL. -/
def State.writeAevCtrl (s : State) (v : Word) : State :=
  let a := aevAddr 0x40
  let put (st : State) (h : Half) : State :=
    if st.halfOn h then st.setReg (copyKey h a) ((v &&& ~~~(0x3 : Word)) ||| (st.regH h a &&& 1)) else st
  let s1 := (put (put s .h0) .h1).aevSetEn (v.bit 0)
  if v.bit 1 then s1.aevCntClr else s1

/-- Output `n` lies in the 40 ns that follow its latest edge (R290). -/
def State.nearEdge (s : State) (n : Fin 8) : Bool :=
  match (s.aev.out[n]).edgeAt with
  | none => false
  | some t => decide (s.clk.cyc ≤ t + 16)

/-- PIN_MIS (R290): the level read back from the pad has differed from the level driven for more than 40 ns, or no longer
does; not evaluated in the 40 ns after an edge, nor while the pin is an SSI clock. -/
def execPinMis (n : Fin 8) (readBack : Bool) (s : State) : Done :=
  if s.aevClaimed n || !s.boot.released then .next s
  else
    let o := s.aev.out[n]
    let bad := readBack != o.lvl && !s.nearEdge n
    let o1 := { o with mis := if bad then some readBack else none }
    .next ({ s with aev := { s.aev with out := vset s.aev.out n o1 } }.cond .aev n.val .shared bad)

/-! ## The authority latch (R287) -/

/-- DIR of the channel of the copy in half `h` (R169): forward motion. -/
def State.copyDir (s : State) (d : Drive) (h : Half) : Bool :=
  match s.copyChan d h with
  | none => false
  | some c => s.pch[c].lp.dir

/-- One slot when half `h` becomes the holder (R287). -/
def State.slotLatch (s : State) (h : Half) (i : Fin 256) : State :=
  let x := s.aev.slot[i]
  if !x.en || !s.aevEn h || s.frozen x.drv then s
  else match s.slotV x h with
    | none => s
    | some v =>
      let c' := v.floor
      if c' = x.c then s
      else if decide (x.c < c') = s.copyDir x.drv h then s.slotStep i (decide (x.c < c')) true
      else s.setSlot i { x with hold := true }

/-- The latch of drive `d` moves to half `h`: its slots go on from the shared state (R287), unless the drive was frozen or its
new active source lacks VALID (R286). -/
def State.aevLatch (s : State) (d : Drive) (h : Half) : State :=
  let valid := match s.activeSrc d with
    | none => false
    | some c => tagValid (s.genTag c)
  if s.aev.live[d] && valid then
    (List.finRange 256).foldl (fun st i => if (st.aev.slot[i]).drv = d then st.slotLatch h i else st) s
  else s.judgeFreeze d

/-- At release each pin takes its idle level (AEV_n_CFG POL). -/
def State.aevRelease (s : State) : State :=
  (List.finRange 8).foldl (fun st n =>
    let o := { st.aev.out[n] with lvl := !st.outActive n, pulse := none, mis := none, edgeAt := none, now := {} }
    let pad := if st.pads.aevHeld.getLsbD n.val then st.pads.aev else bput st.pads.aev n.val o.lvl
    { st with aev := { st.aev with out := vset st.aev.out n o }, pads := { st.pads with aev := pad } }) s

end Sys2Proof.Machine
end

