-- ==== Sys2Proof/Machine/AuxMeas.lean ====
section
/-! DEFINITION. Auxiliary measurement (chapter "Auxiliary sensor measurement", R318 to R340): slots, visits, results,
sensor faults and limits, and the ratiometric outputs. -/

namespace Sys2Proof.Machine

/-! ## Slots (R318 to R320) -/

/-- Address of a register of slot `k`. -/
def auxAddr (k : Fin 16) (off : Nat) : Nat := 0xB0100 + k.val * 0x40 + off

/-- The registers of slot `k` as they stand. -/
def State.auxSet (s : State) (k : Fin 16) : AuxSet where
  pins := s.reg (auxAddr k 0)
  cfg := s.reg (auxAddr k 4)
  rref := s.reg (auxAddr k 8)
  lead := s.reg (auxAddr k 0xC)
  r0 := s.reg (auxAddr k 0x10)
  limHi := s.reg (auxAddr k 0x14)
  limLo := s.reg (auxAddr k 0x18)
  short := s.reg (auxAddr k 0x1C)

/-- Fields of the settings (AUX_k_PINS, AUX_k_CFG). LEAD_MODE 3 acts as 0. -/
def AuxSet.ty (x : AuxSet) : Nat := x.cfg.fld 0 2
def AuxSet.alt (x : AuxSet) : Bool := x.cfg.bit 2
def AuxSet.auto (x : AuxSet) : Bool := x.cfg.bit 3
def AuxSet.gain (x : AuxSet) : Nat := x.cfg.fld 4 3
def AuxSet.conv (x : AuxSet) : Fin 2 := Fin.ofNat 2 (x.cfg.fld 7 1)
def AuxSet.log (x : AuxSet) : Bool := x.cfg.bit 11
def AuxSet.leadMode (x : AuxSet) : Nat := let m := x.cfg.fld 16 2; if m = 3 then 0 else m
def AuxSet.lsb (x : AuxSet) : Nat := x.cfg.fld 18 2

/-- Settle time in TCLK cycles: SETTLE × 10 µs (R321). -/
def AuxSet.settle (x : AuxSet) : Nat := usCyc (10 * x.cfg.fld 20 8)

/-- T_conv in TCLK cycles (Table 14.2). -/
def AuxSet.tconv (x : AuxSet) : Nat :=
  match x.cfg.fld 12 4 with
  | 0 => usCyc 500 | 1 => usCyc 1000 | 2 => usCyc 2000 | 3 => usCyc 5000 | 4 => usCyc 10000
  | 5 => usCyc 16667 | 6 => usCyc 20000 | 7 => usCyc 50000 | _ => usCyc 100000

/-- The pin of role `r` (0 INP, 1 INN, 2 REFP, 3 REFN, 4 IEXA, 5 IEXB), none for 16 or more (R318). -/
def AuxSet.pin (x : AuxSet) (r : Nat) : Option Nat :=
  let v := x.pins.fld (5 * r) 5
  if v < 16 then some v else none

/-- Every pin the slot names. -/
def AuxSet.named (x : AuxSet) : List Nat := (List.range 6).filterMap x.pin

/-- The pins the slot names as IEXA or IEXB. -/
def AuxSet.iexPins (x : AuxSet) : List Nat := [4, 5].filterMap x.pin

/-- The pins of a list as a mask. -/
def pinMask (l : List Nat) : BitVec 16 := l.foldl (fun m i => bput m i true) 0

/-- Two roles that may share a pin (R319). -/
def mayShare (r q : Nat) : Bool := (r, q) == (1, 2) || (r, q) == (1, 3) || (r, q) == (0, 4) || (r, q) == (1, 5)

/-- The rules of R319. -/
def AuxSet.obeys (x : AuxSet) : Bool :=
  let has (r : Nat) := (x.pin r).isSome
  has 0 && (if x.ty = 0 then !has 2 && !has 3 else has 2 && has 3) && (decide (x.ty < 2) || has 4) &&
    (!x.alt || has 5) && (decide (x.leadMode ≠ 1) || decide (2 ≤ x.ty)) &&
    (List.range 6).all fun r => (List.range 6).all fun q =>
      decide (q ≤ r) || !has r || x.pin r != x.pin q || mayShare r q

/-- Slot `k` is enabled (R318). -/
def State.auxEn (s : State) (k : Fin 16) : Bool := s.AUX_CTRL_SLOT_EN.testBit k.val

/-- A current pin of `x` is named by `y` (R320). -/
def AuxSet.collides (x y : AuxSet) : Bool := x.iexPins.any fun p => y.named.contains p

/-- The settings in force for slot `k`: those its visit under way began with, else its registers (Table 14.5). -/
def State.auxForce (s : State) (k : Fin 16) : AuxSet :=
  let at' (c : Fin 2) : Option AuxVisit := s.aux.conv[c].visit.filter fun v => v.slot == k
  match at' 0, at' 1 with
  | some v, _ | none, some v => v.set
  | none, none => s.auxSet k

/-- R320 broken by the enabled slot `k` and a slot of lower number on the other converter: that slot has a current pin which
`k` names, or is enabled and names a current pin of `k`. -/
def State.auxClash (s : State) (k : Fin 16) : Bool :=
  (List.finRange 16).any fun j =>
    decide (j.val < k.val) && (s.auxForce j).conv != (s.auxForce k).conv &&
      ((s.auxForce j).collides (s.auxForce k) || (s.auxEn j && (s.auxForce k).collides (s.auxForce j)))

/-- The half of a converter or of AUX_n. -/
def convHalf (c : Fin 2) : Half := Half.byNum c.val
def auxPinHalf (n : Nat) : Half := if n < 8 then .h0 else .h1

/-- A half can measure: it is on and has its analogue supply (R50, R57). -/
def State.auxUp (s : State) (h : Half) : Bool := s.halfOn h && s.vddaGood h

/-- OFF of a slot (Table 14.3). -/
def State.auxOff (s : State) (x : AuxSet) : Bool :=
  !s.auxUp (convHalf x.conv) || x.named.any fun p => !s.auxUp (auxPinHalf p)

/-- The causes of slot `k` that hold as conditions: OFF, CAL, CFG (Table 14.3); judged for enabled slots. -/
def State.auxCond (s : State) (k : Fin 16) : BitVec 8 :=
  let x := s.auxForce k
  if !s.auxEn k then 0
  else (if s.auxOff x then 0x20 else 0) ||| (if s.aux.calf.getLsbD x.conv.val then 0x40 else 0) |||
    (if !x.obeys || s.auxClash k then 0x80 else 0)

/-- The causes live for slot `k` (R330). -/
def State.auxCause (s : State) (k : Fin 16) : BitVec 8 := s.aux.slot[k].cause ||| s.auxCond k

/-! ## Updates -/

/-- Slot `k` replaced. -/
def State.setAux (s : State) (k : Fin 16) (x : AuxSlot) : State :=
  { s with aux := { s.aux with slot := vset s.aux.slot k x } }

/-- Converter `c` replaced. -/
def State.setConv (s : State) (c : Fin 2) (x : AuxConv) : State :=
  { s with aux := { s.aux with conv := vset s.aux.conv c x } }

/-! ## Ratiometric outputs (R336, R337) -/

/-- The code of ROUT_n computed as R336 says from sources 0 to 4, clamped; none while R337 calls for FAIL_CODE. -/
def State.routCode (s : State) (n : Fin 2) : Option Nat :=
  let g := signedOf 16 (s.AUX_ROUT_SCALE_GAIN n.val)
  let o := signedOf 16 (s.AUX_ROUT_SCALE_OFS n.val)
  let sh (x : Int) : Int := (x * g) / 2 ^ s.AUX_ROUT_CFG_SHIFT n.val
  let clamp (x : Int) : Nat := (clampInt 0 4095 x).toNat
  let d : Drive := Fin.ofNat 2 (s.AUX_ROUT_CFG_DRIVE n.val)
  let chan : Option Pub := match s.activeSrc d with
    | none => none
    | some c => let p := s.pch[c].pub; if tagValid p.tag && !tagCoast p.tag then some p else none
  match s.AUX_ROUT_CFG_SRC n.val with
  | 1 =>
    let y := s.aux.slot[Fin.ofNat 16 (s.AUX_ROUT_CFG_SLOT n.val)]
    if y.tag.getLsbD 0 then some (clamp (o + sh y.p)) else none
  | 2 => chan.map fun p => (((p.ang / 4096 : Nat) + o) % 4096).toNat
  | 3 => chan.map fun p => (((p.mang / 4096 : Nat) + o) % 4096).toNat
  | 4 => chan.map fun p => clamp (o + sh (p.spd / 65536))
  | _ => some (s.AUX_ROUT_CODE_FW_CODE n.val)

/-- The code of ROUT_n brought up to date (R337); at high impedance it drives none. -/
def State.routEval (s : State) (n : Fin 2) : State :=
  let r : Rout := if s.routOn n then
      (match s.routCode n with
        | some c => ⟨c, false⟩
        | none => ⟨s.AUX_ROUT_CFG_FAIL_CODE n.val, true⟩)
    else {}
  { s with aux := { s.aux with rout := vset s.aux.rout n r } }

/-- Both outputs brought up to date. -/
def State.routAll (s : State) : State := (s.routEval 0).routEval 1

/-! ## Visits (R321) -/

/-- Slot `k` can be visited by converter `c`, which is not calibrating after a return (R427). -/
def State.auxRunnable (s : State) (c : Fin 2) (k : Fin 16) : Bool :=
  s.auxEn k && (s.auxForce k).conv == c && s.auxCond k == 0 && !s.pwr.calBusy.get (convHalf c)

/-- The slot that converter `c` visits next: ascending, then from the lowest again (R321). -/
def State.auxNext (s : State) (c : Fin 2) : Option (Fin 16) :=
  let l := (List.finRange 16).filter (s.auxRunnable c)
  match l.find? fun k => decide (s.aux.conv[c].next ≤ k.val) with
  | some k => some k
  | none => l.head?

/-- A visit of slot `k` begins at cycle `t` (R321, R326): the lead conversion on the first visit and on every LEAD_DIV-th,
GAIN taken afresh when the slot first runs or GAIN was written. -/
def State.beginVisit (s : State) (c : Fin 2) (k : Fin 16) (t : Nat) : State :=
  let x := s.auxSet k
  let y := s.aux.slot[k]
  let n := if y.started then y.visits else 0
  let lead := decide (x.leadMode = 1) && decide (n % max 1 (x.lead.fld 16 4) = 0)
  let g (old : Nat) := if x.auto then (if y.fresh then x.gain else old) else x.gain
  let z := { y with
    started := true, visits := n + 1, fresh := false
    gS := if y.fresh then x.gain else y.gS, upS := if y.fresh then 0 else y.upS
    gL := if y.fresh then x.gain else y.gL, upL := if y.fresh then 0 else y.upL }
  let v : AuxVisit :=
    { slot := k, set := x, gS := g y.gS, gL := g y.gL, lead := lead, convs := [], settling := true
      till := t + x.settle, t0 := 0, stamp := none, ended := none }
  (s.setAux k z).setConv c { cur := k.val, next := k.val + 1, visit := some v }

/-- A converter without a visit begins the next one at cycle `t`, if a slot can run (R321). -/
def State.kickConv (s : State) (c : Fin 2) (t : Nat) : State :=
  if !s.inRun || s.aux.conv[c].visit.isSome then s
  else match s.auxNext c with
    | none => s
    | some k => s.beginVisit c k t

/-- Visits of slots that no longer run are abandoned, without a result (R331, Table 14.5). -/
def State.dropVisit (s : State) (c : Fin 2) : State :=
  match s.aux.conv[c].visit with
  | none => s
  | some v => if s.inRun && s.auxRunnable c v.slot then s else s.setConv c { s.aux.conv[c] with visit := none }

/-- Slot `k` judged on its condition causes (R331): FAULT set and VALID clear, no visits, SENS_k live. -/
def State.judgeSlot (s : State) (k : Fin 16) : State :=
  let y := s.aux.slot[k]
  let s1 := if s.auxCond k = 0 then s
    else s.setAux k { y with tag := (y.tag ||| 2) &&& 0xFE, started := false }
  s1.cond .aux k.val .shared (s1.auxCause k != 0)

/-- Visits abandoned, every slot judged, and visits begun as the slots allow (R321, R331); the ratiometric outputs follow. -/
def State.auxJudge (s : State) : State :=
  let s1 := (s.dropVisit 0).dropVisit 1
  let s2 := (List.finRange 16).foldl State.judgeSlot s1
  ((s2.kickConv 0 s2.clk.cyc).kickConv 1 s2.clk.cyc).routAll

/-- Entry into LOOKOUT or a loss of the block: visits are abandoned and restart from the lowest slot (Table 14.5). -/
def State.auxStop (s : State) : State :=
  let f (x : AuxConv) : AuxConv := { x with next := 0, visit := none }
  { s with aux := { s.aux with
    conv := s.aux.conv.map f, slot := s.aux.slot.map fun y => { y with started := false } } }

/-- Signal conversions of a visit, and all its conversions (R321). -/
def AuxVisit.nSig (v : AuxVisit) : Nat := if v.set.alt then 2 else 1
def AuxVisit.nConv (v : AuxVisit) : Nat := if v.lead then 2 * v.nSig else v.nSig

/-- The cycle of the midpoint of the signal conversions of a visit (R379), in halves: its first one starts at `t0`. -/
def AuxVisit.mid2 (v : AuxVisit) : Nat := 2 * v.t0 + v.nSig * v.set.tconv + (v.nSig - 1) * v.set.settle

/-- The stamp of the visit of converter `c` is taken once the midpoint of its signal conversions has passed (R379): TIME at that
instant, by the relation between TIME and cycles in force since (R378). -/
def State.auxStamp (s : State) (c : Fin 2) : State :=
  match s.aux.conv[c].visit with
  | none => s
  | some v =>
    if v.stamp.isSome || (v.settling && v.convs == []) || decide (2 * s.clk.cyc < v.mid2) then s
    else
      let back : Int := ((2 * s.clk.cyc - v.mid2 : Nat) : Int)
      let t := wrapInt 96 ((s.clk.time : Int) - back * timeStepOf s.clk.rate / 2)
      s.setConv c { s.aux.conv[c] with visit := some { v with stamp := some t } }

/-- AUX_SETTLE_END (R321): the conversion starts. -/
def execAuxSettleEnd (c : Fin 2) (s : State) : Done :=
  match s.aux.conv[c].visit with
  | none => .next s
  | some v =>
    if !v.settling || v.ended.isSome then .next s
    else
      let s1 := s.waitTill v.till
      let v1 := { v with
        settling := false, till := v.till + v.set.tconv
        t0 := if v.convs = [] then v.till else v.t0 }
      .next (s1.setConv c { s1.aux.conv[c] with visit := some v1 })

/-- AUX_CONVERSION_DONE (R321, R323): the conversion is kept; the crosspoint switches and settles for the next one, or the
current source goes off. -/
def execAuxConversionDone (c : Fin 2) (m : Conv) (s : State) : Done :=
  match s.aux.conv[c].visit with
  | none => .next s
  | some v =>
    if v.settling || v.ended.isSome then .next s
    else
      let s1 := (s.waitTill v.till).auxStamp c
      let w := (s1.aux.conv[c].visit).getD v
      let l := m :: v.convs
      let last := decide (v.nConv ≤ l.length)
      let v1 := { v with
        convs := l, settling := !last, till := v.till + v.set.settle
        stamp := w.stamp
        ended := if last then some v.till else none }
      let pins := pinMask v.set.named
      let a1 : Aux := { s1.aux with cmwOut := (s1.aux.cmwOut &&& ~~~pins) ||| (m.outNow &&& pins) }
      let s2 : State := { s1 with aux := a1 }
      .next (s2.setConv c { s2.aux.conv[c] with visit := some v1 })

/-! ## Results (R323 to R329) -/

/-- A conversion as a signed voltage in nV (VOLT) or a ratio to the reference `ref`; none while the reference is zero. -/
def convQuantity (m : Conv) (ref : Int) (ty : Nat) : Option Rat :=
  if ty = 0 then some (m.vIn : Rat)
  else if ref = 0 then none
  else some ((m.vIn : Rat) / (ref : Rat))

/-- The quantity of one kind of conversions, oldest first (R325). With two polarities the reference reverses with the current,
and each conversion is a ratio to the size of its reference, as the chapter's worked example has it (DEDUCED, assumption 38). -/
def quantityOf (ty : Nat) : List Conv → Option Rat
  | [a] => convQuantity a a.vRef ty
  | [a, b] => match convQuantity a |a.vRef| ty, convQuantity b |b.vRef| ty with
    | some x, some y => some ((x - y) / 2)
    | _, _ => none
  | _ => none

/-- The resistance of R328 at `t` 1/16 °C, for R0 in mΩ. -/
def ptRes (r0 : Rat) (t : Rat) : Rat :=
  let T := t / 16
  let a : Rat := 39083 / 10 ^ 7
  let b : Rat := -5775 / 10 ^ 10
  let c : Rat := -4183 / 10 ^ 15
  r0 * (1 + a * T + b * T * T + (if T < 0 then c * (T - 100) * T * T * T else 0))

/-- The greatest `t` in `lo` to `lo + 2^n` − 1 whose lower edge (t − 1/2)/16 °C the resistance `r` reaches; `lo` if none. -/
def ptSearch (r0 r : Rat) (lo : Int) : Nat → Int
  | 0 => lo
  | n + 1 =>
    let mid := lo + 2 ^ n
    if ptRes r0 ((mid : Rat) - 1 / 2) ≤ r then ptSearch r0 r mid n else ptSearch r0 r lo n

/-- T of R328 in 1/16 °C: the nearest code to the exact solution, saturated outside −200 to +850 °C; an open value where
R0 is zero and the relation has no solution. -/
def ptTemp (r0 r : Rat) (free : Nat) : Int :=
  if r0 = 0 then clampInt (-3200) 13600 (signedOf 16 free)
  else clampInt (-3200) 13600 (ptSearch r0 r (-3201) 15)

/-- A measured value in a 24-bit signed field, saturated (R328). -/
def sat24 (x : Int) : Int := clampInt (-(2 ^ 23 - 1)) (2 ^ 23 - 1) x

/-- What a visit has measured: VALUE, TEMP, P, R_lead in mΩ. -/
structure AuxRes where
  value : Int
  temp : Int
  p : Int
  rLead : Rat

/-- The result of a visit (R325, R328, R329); `old` is the R_lead of the latest visit that measured it, `n` the open value
drawn where a reference of zero leaves a quotient without a value. -/
def AuxVisit.result (v : AuxVisit) (old : Rat) (n : Nat) : AuxRes :=
  let x := v.set
  let all := v.convs.reverse
  let rref : Rat := (x.rref.fld 0 24 * 10 : Nat)
  let lead : Rat := match x.leadMode with
    | 1 => if v.lead then
        (match quantityOf x.ty (all.drop v.nSig) with
          | some q => rref * q
          | none => (Config.freeBits 50 n : Nat))
      else old
    | 2 => (x.lead.fld 0 16 : Nat)
    | _ => 0
  match quantityOf x.ty (all.take v.nSig) with
  | none =>
    let val := signedOf 24 (Config.freeBits 51 n)
    let t := clampInt (-3200) 13600 (signedOf 16 (Config.freeBits 52 n))
    { value := sat24 val, temp := if x.ty = 3 then t else 0, p := if x.ty = 3 then t else sat24 val, rLead := lead }
  | some q =>
    let r : Rat := rref * q - lead
    let exact : Rat := match x.ty with
      | 0 => q / (if x.lsb = 0 then 500 else 50)
      | 1 => q * 2 ^ 23
      | _ => r / 10 ^ x.lsb
    let val := sat24 (roundFree 32 exact)
    let t := ptTemp (x.r0.fld 0 16 * 100 : Nat) r (Config.freeBits 53 n)
    { value := val, temp := if x.ty = 3 then t else 0, p := if x.ty = 3 then t else val, rLead := lead }

/-- R_lead in 1 mΩ as AUX_k_LEADR shows it; the spec states no value outside the field's range, so that one is open. -/
def leadCode (r : Rat) (n : Nat) : Nat :=
  let x := roundFree 33 r
  if 0 ≤ x ∧ x < 2 ^ 24 then x.toNat else Config.freeBits 54 n % 2 ^ 24

/-- The reference of a conversion for the range rule: 2.500 V for VOLT (R326). -/
def convRef (m : Conv) (ty : Nat) : Int := if ty = 0 then 2500000000 else |m.vRef|

/-- A conversion at gain index `g` is clipped: its modulator reaches full scale, V_ref / 2^g (R326). -/
def convClipped (m : Conv) (ty g : Nat) : Bool := m.clipped || decide (convRef m ty ≤ 2 ^ g * |m.vIn|)

/-- A conversion of the visit was clipped (R327). -/
def AuxVisit.clipped (v : AuxVisit) : Bool :=
  let all := v.convs.reverse
  (all.take v.nSig).any (fun m => convClipped m v.set.ty v.gS) || (all.drop v.nSig).any fun m => convClipped m v.set.ty v.gL

/-- The range rule of R326 for one kind of conversions: the new gain index, the run and its least target. -/
def rangeStep (ty g up mn upCnt : Nat) (l : List Conv) : Nat × Nat × Nat :=
  let fits (k : Nat) := l.all fun m => decide (8 * 2 ^ k * |m.vIn| ≤ 3 * convRef m ty)
  let target := ((List.range 8).reverse.find? fits).getD 0
  let high := l.any fun m => decide (15 * convRef m ty < 16 * 2 ^ g * |m.vIn|)
  if l.any fun m => convClipped m ty g then (0, 0, mn)
  else if high then (target, 0, mn)
  else if g < target then
    let mn1 := if up = 0 then target else min mn target
    if upCnt ≤ up + 1 then (mn1, 0, mn1) else (g, up + 1, mn1)
  else (g, 0, mn)

/-- The causes a visit shows (Table 14.3). -/
def AuxVisit.causes (v : AuxVisit) (r : AuxRes) : BitVec 8 :=
  let x := v.set
  let win := pinMask ([0, 1, 2, 3].filterMap x.pin)
  (if v.convs.any Conv.atCompliance then 1 else 0) |||
  (if v.convs.any fun m => m.outside &&& win != 0 then 2 else 0) |||
  (if 2 ≤ x.ty ∧ r.value < (x.short.fld 0 24 : Nat) then 4 else 0) |||
  (if x.leadMode = 1 ∧ ((x.lead.fld 20 12 * 10 : Nat) : Rat) < r.rLead then 8 else 0) |||
  (if x.ty ≠ 0 ∧ v.convs.any fun m => decide (|m.vRef| < 100000000 ∨ 3000000000 < |m.vRef|) then 0x10 else 0)

/-- P beyond LIM_HI or LIM_LO (R332). -/
def AuxSet.beyond (x : AuxSet) (p : Int) : Bool :=
  decide (signedOf 24 (x.limHi.fld 0 24) < p) || decide (p < signedOf 24 (x.limLo.fld 0 24))

/-- The slot after the result of visit `v`, with `live` the causes live at the result (R326 to R332). -/
def AuxSlot.publish (y : AuxSlot) (v : AuxVisit) (r : AuxRes) (vis live : BitVec 8) (upCnt n : Nat) : AuxSlot :=
  let x := v.set
  let ovr := v.clipped
  let valid := !ovr && live == 0
  let lim := x.beyond r.p
  let rchg := y.had && decide (v.gS ≠ y.tag.toNat / 32)
  let tag := v.gS * 32 + (if rchg then 16 else 0) + (if ovr then 8 else 0) + (if lim then 4 else 0) +
    (if live ≠ 0 then 2 else 0) + (if valid then 1 else 0)
  let all := v.convs.reverse
  let upd := x.auto && !y.fresh
  let gs := if upd then rangeStep x.ty v.gS y.upS y.minS upCnt (all.take v.nSig) else (y.gS, y.upS, y.minS)
  let gl := if upd ∧ v.lead then rangeStep x.ty v.gL y.upL y.minL upCnt (all.drop v.nSig) else (y.gL, y.upL, y.minL)
  { y with
    value := r.value, tag := BitVec.ofNat 8 tag, temp := r.temp, p := r.p, leadR := leadCode r.rLead n
    time := BitVec.ofNat 64 (v.stamp.getD 0 / 2 ^ 32), resCnt := (y.resCnt + 1) % 65536, cause := vis
    gS := gs.1, upS := gs.2.1, minS := gs.2.2, gL := gl.1, upL := gl.2.1, minL := gl.2.2
    rLead := if x.leadMode = 1 then r.rLead else y.rLead, had := true
    limRun := if valid then (if lim then y.limRun + 1 else 0) else y.limRun }

/-- Payload of the record of slot `k` (Table 14.4). -/
def AuxSlot.bytes (y : AuxSlot) (k : Fin 16) (live : BitVec 8) : List Byte :=
  leBytes 1 k.val ++ [y.tag, live, 0] ++ leBytes 4 (wrapInt 32 y.value) ++ leBytes 2 (wrapInt 16 y.temp) ++
    leBytes 2 0 ++ leBytes 4 y.leadR ++ leBytes 8 y.time.toNat

/-- A visit's result published (R323, R327 to R334), with the codes of ROUT_n that follow the slot. -/
def State.auxPublish (s : State) (v : AuxVisit) : State :=
  let k := v.slot
  let y := s.aux.slot[k]
  let r := v.result y.rLead s.free
  let vis := v.causes r
  let live := vis ||| s.auxCond k
  let y1 := y.publish v r vis live (max 1 s.AUX_AUTO_CFG_UP_CNT) s.free
  let s1 := (s.setAux k y1).draw.cond .aux k.val .shared (live != 0)
  let s2 := if y1.tag.getLsbD 0 && !v.set.beyond r.p then s1.cond .aux (16 + k.val) .shared false else s1
  let s3 := if v.set.log then s2.offer (Fin.ofNat 64 (24 + k.val / 2)) 5 (y1.bytes k live) else s2
  s3.routAll

/-- AUX_VISIT_END (R323): the result is published, and the next visit has begun at the end of the last conversion. What was
written to the slot meanwhile is judged now (Table 14.5). -/
def execAuxVisitEnd (c : Fin 2) (s : State) : Done :=
  match s.aux.conv[c].visit with
  | none => .next s
  | some v =>
    match v.ended with
    | none => .next s
    | some t =>
      let s1 := s.auxPublish v
      let s2 := (s1.setConv c { s1.aux.conv[c] with visit := none }).judgeSlot v.slot
      .next (((s2.kickConv c t).kickConv (1 - c) s2.clk.cyc).routAll)

/-- LIM (R332): P has been beyond a limit on LIM_CNT consecutive VALID results. -/
def execLim (k : Fin 16) (s : State) : Done :=
  if max 1 (s.AUX_LIM_LO_LIM_CNT k.val) ≤ s.aux.slot[k].limRun then .next (s.cond .aux (16 + k.val) .shared true)
  else .next s

/-- AUX_SLOT_BLOCKED (R331): slot `k` judged on OFF, CAL and CFG; its visits stop and its tag shows FAULT. -/
def execAuxSlotBlocked (k : Fin 16) (s : State) : Done :=
  let s2 := ((s.dropVisit 0).dropVisit 1).judgeSlot k
  .next ((s2.kickConv 0 s2.clk.cyc).kickConv 1 s2.clk.cyc).routAll

/-! ## Registers -/

/-- A write of SLOT_EN (R318, R331, Table 14.5): clearing a bit clears VALID at once and abandons the visit. -/
def State.writeSlotEn (s : State) (v : Word) : State :=
  let s1 := s.setReg 0xB0040 (v &&& 0xFFFF)
  let slots := Vector.ofFn fun k : Fin 16 =>
    let y := s1.aux.slot[k]
    if s.auxEn k && !v.bit k.val then { y with tag := y.tag &&& 0xFE, started := false } else y
  ({ s1 with aux := { s1.aux with slot := slots } }).auxJudge

/-- SLOT_EN_WRITE (R331). -/
def execSlotEnWrite (v : Word) (s : State) : Done := finish (.ok, s.writeSlotEn v)

/-- AUX_k_RES, and the four registers a read of it captures (R333). -/
def AuxSlot.resWord (y : AuxSlot) : Word := Word.put 8 24 (wrapInt 24 y.value) ||| Word.put 0 8 y.tag.toNat
def AuxSlot.words (y : AuxSlot) : List Word :=
  [Word.put 0 16 (wrapInt 16 y.temp), Word.put 0 24 y.leadR, y.time.extractLsb' 0 32, y.time.extractLsb' 32 32]

/-- A read of AUX_k_RES captures the rest of the result (R333). -/
def State.auxCapture (s : State) (k : Fin 16) : State := s.captureFrom (auxAddr k 0x24) (s.aux.slot[k]).words

/-- The half whose register a slot's is: that of its converter. -/
def State.auxHalf (s : State) (k : Fin 16) : Half := convHalf (s.auxSet k).conv

/-- AUX_RES_READ (R333). -/
def execAuxResRead (k : Fin 16) (s : State) : Done :=
  finish (s.instRead (s.auxHalf k) (auxAddr k 0x20) (.ok, s.auxCapture k))

/-- A write of a settings register of slot `k` (R326, Table 14.5): AUX_k_CFG sets GIDX to GAIN again; every write lets
R319 and R320 be judged, on the settings in force. -/
def State.auxCfgWritten (s : State) (k : Fin 16) (isCfg : Bool) : State :=
  let s1 := if isCfg then s.setAux k { s.aux.slot[k] with fresh := true } else s
  s1.auxJudge

/-- A write of AUX_ROUT_n_CODE: FW_CODE, and the output with it (R337). -/
def State.writeFwCode (s : State) (n : Fin 2) (v : Word) : State :=
  (s.setReg (0xB0088 + n.val * 0x10) (v &&& 0xFFF)).routEval n

/-- FW_CODE_WRITE (R337). -/
def execFwCodeWrite (n : Fin 2) (v : Word) (s : State) : Done :=
  finish (s.inst (Half.byNum n.val) (0xB0088 + n.val * 0x10) (.ok, s.writeFwCode n v))

/-- The current that IEX sets, in µA (R324). -/
def AuxSet.iex (x : AuxSet) : Nat :=
  match x.cfg.fld 8 3 with
  | 0 => 10 | 1 => 20 | 2 => 50 | 3 => 100 | 4 => 200 | 5 => 500 | 6 => 1000 | _ => 2000

/-- The current source of converter `c` now (R321, R324): the pin it leaves, the pin switched to AGND, and µA; the
negative-polarity conversions reverse the two. -/
def State.auxSource (s : State) (c : Fin 2) : Option (Nat × Option Nat × Nat) :=
  match s.aux.conv[c].visit with
  | none => none
  | some v =>
    let neg := v.set.alt && v.convs.length % v.nSig == 1
    match v.ended, v.set.pin 4 with
    | none, some a =>
      match neg, v.set.pin 5 with
      | true, some b => some (b, some a, v.set.iex)
      | _, b => some (a, b, v.set.iex)
    | _, _ => none

/-- Pins that source or sink excitation now (IEX_ON of AUX_PIN_STAT, R321). -/
def State.iexOn (s : State) : BitVec 16 :=
  (List.finRange 2).foldl (fun m c =>
    match s.auxSource c with
    | none => m
    | some (a, b, _) => m ||| pinMask (a :: b.toList)) 0

end Sys2Proof.Machine
end

