-- ==== Sys2Proof/Machine/Authority.lean ====
section
/-! DEFINITION. Cross-monitoring and the authority latch (chapter "Cross-monitoring and drive authority", R234 to R257). -/

namespace Sys2Proof.Machine

/-- The drive of XMON replaced. -/
def State.setX (s : State) (d : Drive) (x : XDrive) : State := { s with xd := vset s.xd d x }

/-- `f` for each half that is on, H0 first. -/
def State.perHalf (s : State) (f : State → Half → State) : State :=
  let s1 := if s.halfOn .h0 then f s .h0 else s
  if s1.halfOn .h1 then f s1 .h1 else s1

/-- Address of a register of drive `d`. -/
def xmonAddr (d : Drive) (off : Nat) : Nat := 0xC0100 + d.val * 0x40 + off

/-! ## Assignment (R234, R236) -/

/-- SRC_A and SRC_B of drive `d` as the copy of half `h` holds them. -/
def State.srcA (s : State) (h : Half) (d : Drive) : Fin 8 := Fin.ofNat 8 (s.XMON_CFG_SRC_A h d.val)
def State.srcB (s : State) (h : Half) (d : Drive) : Fin 8 := Fin.ofNat 8 (s.XMON_CFG_SRC_B h d.val)

/-- CFG_MIS_d as the copy of half `h` sees it (R236). -/
def State.cfgMis (s : State) (h : Half) (d : Drive) : Bool :=
  s.srcA h d == s.srcB h d || s.polePairs (s.srcA h d) != s.polePairs (s.srcB h d)

/-- CFG_MIS_d judged: at release, and at each write of XMON_n_CFG or of PCH_TRK_CFG (R236). -/
def State.judgeCfgMis (s : State) (d : Drive) : State :=
  s.perHalf fun st h => st.cond .xmon (16 + d.val) h.copy (st.cfgMis h d)

/-! ## Comparison (R237 to R242) -/

/-- A tag admits comparison (R238): VALID set, ACQ and COAST clear. -/
def comparable (t : BitVec 8) : Bool := tagValid t && !tagAcq t && !tagCoast t

/-- DIV_TICKS; 0 acts as 1. -/
def State.divTicks (s : State) (h : Half) (d : Drive) : Nat := max 1 (s.XMON_CFG_DIV_TICKS h d.val)

/-- |Δω| over the speed window (R239), speeds in 2^-16 e-turn/s. -/
def State.overSpeed (s : State) (h : Half) (d : Drive) (wa wb : Int) : Bool :=
  let win : Rat := (s.XMON_SPD_WIN_SPD_ABS h d.val : Nat) / 16 +
    (s.XMON_SPD_WIN_SPD_REL h d.val : Nat) * ((wa.natAbs + wb.natAbs : Nat) : Rat) / 65536 / 2048
  decide (win < ((wa - wb).natAbs : Rat) / 65536)

/-- The digital reference of drive `d` (R241): the lowest-numbered digital channel that names it, with REF_EN set. -/
def State.refChan (s : State) (h : Half) (d : Drive) : Option (Fin 4) :=
  if s.XMON_CFG_REF_EN h d.val = 1 then (List.finRange 4).find? fun n => s.DCH_CFG_DRIVE n.val == d.val + 1
  else none

/-- A speed agrees with the reference's (R241). -/
def State.agrees (s : State) (h : Half) (d : Drive) (w ref : Int) : Bool :=
  let win : Rat := (s.XMON_DREF_WIN_DREF_ABS h d.val : Nat) / 16 +
    (s.XMON_DREF_WIN_DREF_REL h d.val : Nat) * (ref.natAbs : Rat) / 65536 / 1024
  decide (((w - ref).natAbs : Rat) / 65536 ≤ win)

/-- DREF's count of the copy of half `h` after a compared tick (R242). -/
def State.drefCount (s : State) (h : Half) (d : Drive) (c : XCopy) : Nat :=
  match s.refChan h d, s.activeSrc d with
  | some r, some a =>
    let p := s.dch[r].pub
    if !tagValid p.tag then c.drefCnt
    else if s.agrees h d (s.pch[a].pub).spd p.spd then 0 else c.drefCnt + 1
  | none, _ => 0
  | _, none => c.drefCnt

/-- CFG_MIS_d is live (R236). -/
def State.cfgMisLive (s : State) (d : Drive) : Bool := (s.fltLive .xmon).getLsbD (16 + d.val)

/-- The tags of both channels of the copy of half `h` admit comparison (R238). -/
def State.xready (s : State) (h : Half) (d : Drive) : Bool :=
  comparable (s.pch[s.srcA h d].pub).tag && comparable (s.pch[s.srcB h d].pub).tag

/-- The copy of half `h` compares this tick (R236 to R238). -/
def State.xcompares (s : State) (h : Half) (d : Drive) : Bool :=
  s.halfOn h && s.XMON_CFG_CMP_EN h d.val == 1 && !s.cfgMisLive d && s.xready h d

/-- The copy of half `h` after a tick that it compares (R237, R239, R240), on its own channels, offset and windows. -/
def State.xcount (s : State) (h : Half) (d : Drive) (c : XCopy) : XCopy :=
  let pa := s.pch[s.srcA h d].pub
  let pb := s.pch[s.srcB h d].pub
  let dth := wrapSigned (2 ^ 24) ((pa.ang : Int) - pb.ang - s.angOfs h d)
  let ang := decide ((s.XMON_ANG_WIN_ANG_WIN h d.val : Nat) < dth.natAbs)
  let spd := s.overSpeed h d pa.spd pb.spd
  { adiff := dth, sdiff := pa.spd - pb.spd, peak := max c.peak dth.natAbs, overA := ang, overS := spd
    angCnt := if ang then c.angCnt + 1 else 0, spdCnt := if spd then c.spdCnt + 1 else 0
    drefCnt := s.drefCount h d c, skip := false }

/-- One tick in the copy of half `h` (R237, R238); DREF_d ends with the disagreement (R242). -/
def State.xcompare (s : State) (h : Half) (d : Drive) : State :=
  let x := s.xd[d]
  let c := x.copies.get h
  if !s.halfOn h then s
  else if !s.xcompares h d then s.setX d { x with copies := x.copies.set h { c with skip := !s.xready h d } }
  else
    let c1 := s.xcount h d c
    let s1 := s.setX d { x with copies := x.copies.set h c1 }
    if c1.drefCnt = 0 then s1.cond .xmon (8 * d.val + 4) h.copy false else s1

/-- The consecutive compared ticks on which the verdicts of the two copies differ (R243). -/
def XDrive.exchange (x : XDrive) : XDrive :=
  let a := x.copies.h0
  let b := x.copies.h1
  { x with misCnt := if a.overA != b.overA || a.overS != b.overS then x.misCnt + 1 else 0 }

/-- A capture of ANG_OFS takes one tick (R244). -/
def XDrive.take (x : XDrive) (raw : Int) : XDrive :=
  if x.capBusy && decide (x.capCnt < 1024) then { x with capCnt := x.capCnt + 1, capSum := x.capSum + raw } else x

/-- One tick of the cross-monitor for drive `d` (R237, R238, R243, R244), on the sets just published. -/
def State.xmonTick (s : State) (d : Drive) : State :=
  let h := s.lead
  let raw := wrapSigned (2 ^ 24) (((s.pch[s.srcA h d].pub).ang : Int) - (s.pch[s.srcB h d].pub).ang)
  let s1 := if s.xready h d then s.setX d (s.xd[d].take raw) else s
  let s2 := (s1.xcompare .h0 d).xcompare .h1 d
  if s1.xcompares .h0 d && s1.xcompares .h1 d then s2.setX d s2.xd[d].exchange else s2

/-- A divergence of drive `d` declared: a capture in progress is abandoned (R244). -/
def State.dropCapture (s : State) (d : Drive) : State :=
  s.setX d { s.xd[d] with capBusy := false, capCnt := 0, capSum := 0 }

/-- ANG_DIV (R240, R241): the copy of half `h` has counted DIV_TICKS ticks over the angle window; BLAME 3. -/
def execAngDiv (d : Drive) (h : Half) (s : State) : Done :=
  let x := s.xd[d]
  let c := x.copies.get h
  if s.halfOn h && decide (s.divTicks h d ≤ c.angCnt) then
    let s1 := (s.setX d { x with
      copies := x.copies.set h { c with angCnt := 0 }, blame := 3, angAt := some s.clk.cyc }).dropCapture d
    .next (s1.event .xmon (8 * d.val) h.copy)
  else .next s

/-- The channel blamed for a speed divergence (R241): `some true` SRC_A, `some false` SRC_B, none not resolved. -/
def State.arbitrate (s : State) (h : Half) (d : Drive) : Option Bool :=
  match s.refChan h d with
  | none => none
  | some r =>
    let p := s.dch[r].pub
    if tagValid p.tag && !tagUncert p.tag && !(s.fltLive .xmon).getLsbD (8 * d.val + 4) then
      let a := s.agrees h d (s.pch[s.srcA h d].pub).spd p.spd
      let b := s.agrees h d (s.pch[s.srcB h d].pub).spd p.spd
      match a, b with
      | true, false => some false
      | false, true => some true
      | _, _ => none
    else none

/-- The source bit of a speed divergence: ACT_BAD for a blamed active source (or any while there is none), MON_BAD for the
other channel, SPD_DIV unresolved (R241). -/
def State.spdSource (s : State) (h : Half) (d : Drive) (blamed : Option Bool) : Nat :=
  match blamed with
  | none => 1
  | some a =>
    let n := if a then s.srcA h d else s.srcB h d
    match s.judgedSrc d with
    | none => 2
    | some m => if m = n then 2 else 3

/-- SPD_DIV (R240, R241): the copy of half `h` has counted DIV_TICKS ticks over the speed window; the divergence is
arbitrated. A divergence in angle declared in the same tick prevails in BLAME (Table 10.2). -/
def execSpdDiv (d : Drive) (h : Half) (s : State) : Done :=
  let x := s.xd[d]
  let c := x.copies.get h
  if s.halfOn h && decide (s.divTicks h d ≤ c.spdCnt) then
    let b := s.arbitrate h d
    let blame : Nat := match b with
      | some true => 1
      | some false => 2
      | none => 3
    let s1 := (s.setX d { x with
      copies := x.copies.set h { c with spdCnt := 0 }
      blame := if x.angAt = some s.clk.cyc then 3 else blame }).dropCapture d
    .next (s1.event .xmon (8 * d.val + s.spdSource h d b) h.copy)
  else .next s

/-- DREF (R242): both channels inside the speed window, and the reference has disagreed with the active source on DIV_TICKS
consecutive compared ticks. -/
def execDref (d : Drive) (h : Half) (s : State) : Done :=
  let c := s.xd[d].copies.get h
  if s.halfOn h && s.XMON_CFG_REF_EN h d.val == 1 && !c.overS && decide (s.divTicks h d ≤ c.drefCnt) then
    .next (s.cond .xmon (8 * d.val + 4) h.copy true)
  else .next s

/-- COPY_MIS (R243): the verdicts of the two copies have differed on two consecutive compared ticks; the second of them is the
first of a next pair. -/
def execCopyMis (d : Drive) (s : State) : Done :=
  if 2 ≤ s.xd[d].misCnt then
    .next ((s.setX d { s.xd[d] with misCnt := 1 }).event .xmon (8 * d.val + 5) .shared)
  else .next s

/-- OFS_CAP (R244): a capture starts; during one the write is ignored. -/
def State.ofsCap (s : State) (d : Drive) : State :=
  let x := s.xd[d]
  if x.capBusy then s else s.setX d { x with capBusy := true, capCnt := 0, capSum := 0 }

/-- OFS_CAP. -/
def execOfsCap (d : Drive) (s : State) : Done := finish (s.dup (xmonAddr d 0x14) (.ok, s.ofsCap d))

/-- OFS_CAP_DONE (R244): after 1,024 ticks ANG_OFS takes the mean, rounded half up. -/
def execOfsCapDone (d : Drive) (s : State) : Done :=
  let x := s.xd[d]
  if x.capBusy && decide (1024 ≤ x.capCnt) then
    let m := (2 * x.capSum + 1024) / 2048
    let s0 := s.encFollowAll
    let s1 := (s0.setDup (xmonAddr d 0x10) (Word.put 0 24 (wrapInt 24 m))).reframeAll s0
    .next (s1.setX d { s1.xd[d] with capBusy := false, capCnt := 0, capSum := 0 })
  else .next s

/-- A write of XMON_n_CTRL. -/
def State.writeXmonCtrl (s : State) (d : Drive) (v : Word) : State :=
  let c := s.xd[d].copies
  let s1 := if v.bit 1 then s.setX d { s.xd[d] with copies := ⟨{ c.h0 with peak := 0 }, { c.h1 with peak := 0 }⟩ } else s
  if v.bit 0 then s1.ofsCap d else s1

/-! ## Eligibility and health (R248, R253) -/

/-- The second condition of R248: half `h` is on, its channel for the drive LOCKED, its latest tick used and VALID. -/
def State.chanReady (s : State) (d : Drive) (h : Half) : Bool :=
  s.halfOn h && match s.ownChan d h with
    | some n => (s.pch[n]).lp.locked && (s.pch[n]).lp.used && tagValid (s.pch[n]).pub.tag
    | none => !s.hoEn d

/-- AUTH_CONFLICT_d is live (R247), by a conflict or by FLT_FORCE (R362). -/
def State.confLive (s : State) (d : Drive) : Bool := s.xd[d].conflict || (s.fltLive .xmon).getLsbD (8 * d.val + 6)

/-- HO_BUSY_d (Table 10.1): set 50 ns after the declaration, or the end of the frame, when the request reaches the other half;
at once for a takeover on loss of the claim (R251) and for a command that ends a conflict (R254). -/
def State.hoBusy (s : State) (d : Drive) : Bool :=
  let x := s.xd[d]
  (x.busy && (x.takeCause == 2 || s.confLive d || decide (x.takeAt + 20 ≤ s.clk.cyc))) ||
    x.req.any fun r => decide (r.at' + 20 ≤ s.clk.cyc)

/-- Half `h` is eligible for drive `d` (R248). -/
def State.eligible (s : State) (d : Drive) (h : Half) : Bool :=
  s.hoEn d && !s.confLive d && s.chanReady d h && !s.halfFaulty h false

/-- Hx_OK_d (R253). -/
def State.healthOk (s : State) (d : Drive) (h : Half) : Bool := s.chanReady d h && !s.halfFaulty h true

/-! ## The latch (R245 to R252) -/

/-- Since when HOLDER_d has named no single half, kept up to date (R247). -/
def State.watchHolder (s : State) (d : Drive) : State :=
  let x := s.xd[d]
  match s.holderHalf d, x.noHolderSince with
  | some _, _ => s.setX d { x with noHolderSince := none }
  | none, none => s.setX d { x with noHolderSince := some s.clk.cyc }
  | none, some _ => s

/-- A source of half `h` with a handover reaction that is live and affects drive `d` (R248). -/
def State.ownSource (s : State) (d : Drive) (h : Half) : Option (Page × Nat) :=
  Page.all.findSome? fun p =>
    ((List.range 32).find? fun b =>
      (s.fltLive p).getLsbD b && s.scope p b == some h && s.reaction p b == 1 && s.affects p b d).map fun b => (p, b)

/-- A UE_n of a channel page of half `h` is live, its reaction is handover, and it affects drive `d` (R349, R363). -/
def State.ownUe (s : State) (d : Drive) (h : Half) : Option Page :=
  (List.finRange 8).findSome? fun k =>
    let p : Page := .pch k
    if pchHalf k.val = h ∧ (s.hdr p).ueLive ≠ 0 ∧ s.chkReact p = 1 ∧ s.chanDrive k.val d = true then some p else none

/-- A new holder's own sources, live by now, take their reactions (Table 10.2). -/
def State.ownReact (s : State) (d : Drive) (h : Half) : State :=
  match s.ownSource d h, s.ownUe d h with
  | some (p, b), _ => s.reactHo d h p b
  | none, some p => s.reactHo d h p 0
  | none, none => s

/-- The AUTH bits of the channels named for drive `d` follow the latch (R168, R252). -/
def State.retagDrive (s : State) (d : Drive) : State :=
  (List.finRange 8).foldl (fun st n => if st.names d n.val then st.retag n else st) s

/-- The latch of drive `d` moves to half `h` (R249, R252, R254): pads, encoder count and slots continue from its copies,
AUTH follows in the tags of this tick, a conflict ends, the ratiometric outputs follow; then the new holder's own sources
react, and a preset that waited takes effect (Table 11.4). -/
def State.moveLatch (s0 : State) (d : Drive) (h : Half) (cause : Nat) : State :=
  let s := s0.encFollowAll
  let x := s.xd[d]
  let cl : Two Bool := (Two.mk false false).set h true
  let s1 := s.setX d { x with
    claim := cl, conflict := false, noHolderSince := none, busy := false, taking := none, orphan := none
    wasHeld := if x.claim.get h.other then some h.other else if x.claim.get h then some h else none, movedAt := s.clk.cyc
    hoCause := cause, hoCnt := min 65535 (x.hoCnt + 1), hoTime := s.now }
  let s2 := (s1.cond .xmon (8 * d.val + 6) .h0 false).cond .xmon (8 * d.val + 6) .h1 false
  let s3 := ((s2.encLatch d h).aevLatch d h).encFollowAll
  (((s3.retagDrive d).voteAll.routAll).ownReact d h).presetLate d

/-- A handover of drive `d` to half `h` begins at cycle `t` (Table 10.1). -/
def State.beginTake (s : State) (d : Drive) (h : Half) (cause t : Nat) : State :=
  let x := s.xd[d]
  s.setX d { x with busy := true, taking := some h, takeCause := cause, takeAt := t, req := [] }

/-- HANDOVER_REQUEST (R248 to R250): 150 ns after the declaration the other half judges the request; refused, HO_REFUSED_d is
raised, once more for a request of the other half at the same instant (Table 10.2), and the drive goes to safe state. -/
def execHandoverRequest (d : Drive) (s : State) : Done :=
  match s.xd[d].req with
  | [] => .next s
  | r :: rest =>
    let s1 := s.waitTill (r.at' + 60)
    let dst := r.frm.other
    let mate := s1.xd[d].mate == some r.at'
    if s1.eligible d dst && !mate && rest.all (fun q => q.frm == r.frm) then .next (s1.beginTake d dst 1 r.at')
    else
      let s2 := s1.setX d { s1.xd[d] with req := [] }
      let s3 := s2.event .xmon (8 * d.val + 7) .shared
      let s4 := if mate then s3.event .xmon (8 * d.val + 7) .shared else s3
      .next ((s4.setSslAt d r.at').presetLate d)

/-- HANDOVER_DONE (Table 10.1): 402.5 ns after its start the handover's taker is the single holder. -/
def handoverDone (d : Drive) (s : State) : Done :=
  match s.xd[d].taking with
  | none => .next s
  | some h =>
    let s1 := s.waitTill (s.xd[d].takeAt + 161)
    .next (s1.moveLatch d h s1.xd[d].takeCause)

/-- The half that could take over on a loss of the holder's claim (R251): the other half of the holder, or of the half whose
claim went with its domain. -/
def State.heir (s : State) (d : Drive) : Option Half :=
  match s.holderHalf d with
  | some h => some h.other
  | none => (s.xd[d]).orphan.map Half.other

/-- HOLDER_CLAIM_LOST (R251): the holder's claim stops being valid without a request; the other half takes authority if it is
eligible, and the hold-off window opens. -/
def holderClaimLost (d : Drive) (s : State) : Done :=
  match s.heir d with
  | none => .next s
  | some h =>
    if !s.boot.released || s.xd[d].busy || s.xd[d].conflict then .next s
    else
      let x := s.xd[d]
      let s1 := (s.setX d { x with claim := ⟨false, false⟩, orphan := none, req := [] }).watchHolder d |>.retagDrive d
      if s1.eligible d h then
        let s2 := s1.beginTake d h 2 s1.clk.cyc
        .next (s2.setX d { s2.xd[d] with holdHo := s2.xd[d].holdHo.opened s2.clk.cyc (s2.clk.cyc + 2400) }).voteAll
      else .next (s1.presetLate d).voteAll

/-- AUTH_CONFLICT (R247): HOLDER_d has named no single half for more than 2.0 µs: both halves assert the safe state, withdraw
their claims and release requests, and each sets its SEEN bit. -/
def authConflict (d : Drive) (s : State) : Done :=
  match s.xd[d].noHolderSince with
  | none => .next s
  | some t =>
    if !s.boot.released || s.xd[d].conflict || (s.holderHalf d).isSome then .next s
    else
      let s1 := s.waitTill (t + usCyc 2 + 1)
      let x := s1.xd[d]
      let seen : Two Bool := ⟨x.seen.h0 || s1.halfOn .h0, x.seen.h1 || s1.halfOn .h1⟩
      let s2 := s1.setX d { x with
        claim := ⟨false, false⟩, conflict := true, seen := seen, busy := false, taking := none, req := [], orphan := none }
      let s3 := (s2.retagDrive d).setSsl d
      .next ((s3.perHalf fun st h => st.cond .xmon (8 * d.val + 6) h.copy true).presetLate d)

/-- A write of XMON_AUTH_CMD for drive `d` with the key (R254). A second one before HO_BUSY_d sets is merged with the first
(Table 10.2). -/
def State.authCmd (s : State) (d : Drive) (dst : Half) : Status × State :=
  let both := s.healthOk d .h0 && s.healthOk d .h1
  let take := (s.beginTake d dst 3 s.clk.cyc)
  let go : Status × State :=
    (.ok, take.setX d { take.xd[d] with holdHo := take.xd[d].holdHo.opened s.clk.cyc (s.clk.cyc + 2000) })
  if !s.boot.released || s.hoBusy d then s.only .denied
  else if (s.holds d dst && !s.confLive d) || s.xd[d].busy then s.only .ok
  else if s.confLive d then
    (if both && (s.hoEn d || (s.ownChan d dst).isSome) then go else s.only .denied)
  else if s.healthOk d dst && s.hoEn d then go
  else s.only .denied

/-- A write of XMON_AUTH_CMD (R254). -/
def State.writeAuthCmd (s : State) (v : Word) : Status × State :=
  if v.fld 16 16 = 0xA017 then s.authCmd (Fin.ofNat 2 (v.fld 0 1)) (Half.byNum (v.fld 8 1)) else s.only .range

/-- AUTH_CMD (R254). -/
def execAuthCmd (d : Drive) (dst : Half) (s : State) : Done := finish (s.dup 0xC0044 (s.authCmd d dst))

/-- At release each drive's authority goes to the half AUTH_INIT names, or with handover disabled to the half that holds both
channels (R86, R235); a half that is off claims nothing (R245). Its copies serve the drive's encoder outputs (R269), and CFG_MIS is
evaluated (R236). -/
def State.authRelease (s : State) (d : Drive) : State :=
  let h := if s.hoEn d then s.boot.authInit[d] else pchHalf (s.srcA s.lead d).val
  let s1 := s.setX d { s.xd[d] with
    claim := (Two.mk false false).set h (s.halfOn h), noHolderSince := none, orphan := none }
  let s2 : State := { s1 with enc := s1.enc.map fun x => if x.drive = d then { x with act := h } else x }
  (s2.watchHolder d).judgeCfgMis d

/-- The claim of half `h` for drive `d` ends with its domain (R245, R251). -/
def State.dropClaim (s : State) (h : Half) (d : Drive) : State :=
  let x := s.xd[d]
  ((s.setX d { x with
    claim := x.claim.set h false, orphan := if x.claim.get h then some h else x.orphan }).watchHolder d).retagDrive d

/-- The domain of half `h` goes off: its claims end (R245). -/
def State.dropClaims (s : State) (h : Half) : State := (s.dropClaim h 0).dropClaim h 1

end Sys2Proof.Machine
end

