-- ==== Sys2Proof/Machine/Clocks.lean ====
section
/-! DEFINITION. Clock monitors, core regulators and the adaptive voltage loop, and the RTC oscillator (R60 to R70). -/

namespace Sys2Proof.Machine

/-- The monitors run: internal reset has ended and CORE is on (R67). -/
def State.monitoring (s : State) : Bool := s.coreOn && s.boot.phase != .reset

/-- The clock monitor of half `h` runs (R18, R67). -/
def State.clkMon (s : State) (h : Half) : Bool := s.monitoring && s.halfOn h

/-- REF_LOSS (R67, R68): no reference edge for 200 ns; live until reset. Both PLLs count as unlocked from then on; their
detectors report it by TPLL_UNLOCK and SPLL_UNLOCK, which come no later than 1.2 µs after it (assumption 59). -/
def execRefLoss (h : Half) (s : State) : Done :=
  if s.clkMon h then
    .next ({ s with sys := { s.sys with xtalOk := false, tpllLock := false, spllLock := false } }.cond .sys h.num h.copy
      true)
  else .next s

/-- REF_FREQ (R67): live while the reference edges of a 10 µs RC window lie outside 230–270. -/
def execRefFreq (h : Half) (edges : Nat) (s : State) : Done :=
  if s.clkMon h then .next (s.cond .sys (2 + h.num) h.copy (decide (edges < 230 ∨ 270 < edges))) else .next s

/-- TCLK_FREQ (R67): live while the TCLK cycles of a 1 µs RC window lie outside 368–432. -/
def execTclkFreq (h : Half) (cycles : Nat) (s : State) : Done :=
  if s.clkMon h then .next (s.cond .sys (4 + h.num) h.copy (decide (cycles < 368 ∨ 432 < cycles))) else .next s

/-- TPLL_UNLOCK (R67, R68): live until reset; the PLL does not relock on its own. -/
def execTpllUnlock (s : State) : Done :=
  if s.monitoring then .next ({ s with sys := { s.sys with tpllLock := false } }.cond .sys 6 .shared true)
  else .next s

/-- SPLL_UNLOCK (R67, R68). -/
def execSpllUnlock (s : State) : Done :=
  if s.monitoring then .next ({ s with sys := { s.sys with spllLock := false } }.cond .sys 7 .shared true)
  else .next s

/-- RC_FAIL (R67): live while the half's RC oscillator disagrees with both the reference and TCLK in one window. -/
def execRcFail (h : Half) (refAgrees tclkAgrees : Bool) (s : State) : Done :=
  if s.clkMon h then
    .next ({ s with sys := { s.sys with rcOk := s.sys.rcOk.set h refAgrees } }.cond .sys (8 + h.num) h.copy
      (!refAgrees && !tclkAgrees))
  else .next s

/-- The number of a regulator domain in Table 15.3 and in SYS_AVS_STAT. -/
def VDom.num : VDom → Fin 5
  | .h0 => 0 | .h1 => 1 | .core => 2 | .mem => 3 | .net => 4

/-- The copy that reports for a regulator domain: the half itself for H0 and H1, else shared (Table 3.4). -/
def VDom.copy : VDom → Copy
  | .h0 => .h0 | .h1 => .h1 | _ => .shared

/-- The domain of regulator `x` is on. -/
def State.vdomOn (s : State) : VDom → Bool
  | .h0 => s.halfOn .h0
  | .h1 => s.halfOn .h1
  | .core => s.coreOn
  | .mem => s.coreOn
  | .net => s.netOn

/-- Nominal set-point code of CORE at an operating point: 0.650 V + 0.005 V × code (Table 3.2). -/
def oppCode (v : BitVec 2) : Nat := match v with
  | 0 => 50 | 1 => 38 | 2 => 26 | 3 => 14

/-- Nominal set-point code of regulator `x` (Table 3.2). -/
def State.vNominal (s : State) : VDom → Nat
  | .core => oppCode s.pwr.oppNow
  | _ => 50

/-- The sequence towards operating point `v` moves up: the voltage first, then the divider (R433). -/
def State.dvfsUp (s : State) (v : BitVec 2) : Bool := decide (v.toNat < s.pwr.dvfsFrom.toNat)

/-- The first and the last cycle of the ramp of the sequence towards `v` (R433, Table 19.5): it begins 100 ns after the write, or
after the 200 ns in which the divider switches, and runs at 10 mV/µs, from the set-point at which the loop is frozen. -/
def State.rampAt (s : State) (v : BitVec 2) : Nat := s.pwr.dvfsAt + if s.dvfsUp v then 40 else 80
def State.rampEnd (s : State) (v : BitVec 2) : Nat :=
  let c := s.sys.avsCode[VDom.num .core]
  s.rampAt v + 200 * (max c (oppCode v) - min c (oppCode v))

/-- The first cycle at which the sequence towards `v` can end (R433, Table 19.5): with its ramp, or moving up 2 µs and the pause of
200 ns later. -/
def State.dvfsEnd (s : State) (v : BitVec 2) : Nat := s.rampEnd v + if s.dvfsUp v then usCyc 2 + 80 else 0

/-- The set-point of regulator `x` in µV: CORE's moves by 25 µV in a cycle while its ramp runs (R433). -/
def State.vSetUv (s : State) (x : VDom) : Nat :=
  let at' (c : Nat) : Nat := 650000 + 5000 * c
  let now := at' s.sys.avsCode[VDom.num x]
  if !s.vdomOn x then at' 0
  else match x, s.pwr.dvfs with
    | .core, some v =>
      let moved := 25 * (s.clk.cyc - s.rampAt v)
      if now ≤ at' (oppCode v) then min (at' (oppCode v)) (now + moved) else max (at' (oppCode v)) (now - moved)
    | _, _ => now

/-- The set-point code in force, the step below in a ramp: 0 for a domain that is off, as SYS_AVS_STAT shows it. -/
def State.vCode (s : State) (x : VDom) : Nat := (s.vSetUv x - 650000) / 5000

/-- REG_UV (R67): live while the output lies below 92 % of the set-point. -/
def execRegUv (x : VDom) (outUv : Nat) (s : State) : Done :=
  if s.monitoring && s.vdomOn x then
    .next (s.cond .sys (12 + 4 * (VDom.num x).val) (VDom.copy x) (decide (100 * outUv < 92 * s.vSetUv x)))
  else .next s

/-- REG_OV (R67): live while the output lies above 108 % of the set-point. -/
def execRegOv (x : VDom) (outUv : Nat) (s : State) : Done :=
  if s.monitoring && s.vdomOn x then
    .next (s.cond .sys (13 + 4 * (VDom.num x).val) (VDom.copy x) (decide (108 * s.vSetUv x < 100 * outUv)))
  else .next s

/-- CPM_FAIL (R67): live while a critical-path replica fails to meet timing. -/
def execCpmFail (x : VDom) (meets : Bool) (s : State) : Done :=
  if s.monitoring && s.vdomOn x then
    .next (s.cond .sys (14 + 4 * (VDom.num x).val) (VDom.copy x) (!meets))
  else .next s

/-- SYS_AVS_CFG as the loop uses it: what is written during a DVFS sequence waits for its end (R62). -/
def State.avsWord (s : State) : Word := s.sys.avsHeld.getD (s.reg 0x58)

/-- AVS_EN in force (R63). -/
def State.avsOn (s : State) : Bool := s.avsWord.bit 0

/-- The lowest and the highest set-point code of regulator `x` that the loop may set (R61). -/
def State.avsLo (s : State) (x : VDom) : Nat := s.vNominal x - min 12 (s.avsWord.fld 8 4)
def State.avsHi (s : State) (x : VDom) : Nat := s.vNominal x + min 6 (s.avsWord.fld 16 4)

/-- The set-point code of regulator `x`, with the run of evaluations above the upper threshold. -/
def State.setCode (s : State) (x : VDom) (code high : Nat) : State :=
  { s with sys := { s.sys with
    avsCode := vset s.sys.avsCode (VDom.num x) code, avsHigh := vset s.sys.avsHigh (VDom.num x) high } }

/-- Regulator `x` at its nominal set-point, no evaluation counted. A domain that returns soft-starts to it: the spec names no
other (DESIGN CHOICE, assumption 59). -/
def State.toNominal (s : State) (x : VDom) : State := s.setCode x (s.vNominal x) 0

/-- The loop does not act on regulator `x`: its domain is off, or CORE's during a DVFS sequence (R62). -/
def State.avsFrozen (s : State) (x : VDom) : Bool := !s.vdomOn x || (decide (x = .core) && s.pwr.dvfs.isSome)

/-- One evaluation of one domain between the codes `lo` and `hi` (R61): the new code, the run of evaluations above the upper
threshold, and whether a step above the ceiling is needed. -/
def avsStep (lo hi code high : Nat) (m : Margin) : Nat × Nat × Bool :=
  match m with
  | .low => (clampNat lo hi (code + 1), 0, decide (hi ≤ code))
  | .mid => (clampNat lo hi code, 0, false)
  | .high =>
    if high + 1 = 16 then (clampNat lo hi (code - 1), 0, false) else (clampNat lo hi code, high + 1, false)

/-- One evaluation of domain `x` (R61 to R63): the nominal set-point with AVS_EN clear. -/
def State.avsDomain (s : State) (x : VDom) (m : Margin) : State :=
  let i := VDom.num x
  let ceil (st : State) (v : Bool) : State := st.cond .sys (15 + 4 * i.val) (VDom.copy x) v
  if s.avsFrozen x then s
  else if !s.avsOn then ceil (s.toNominal x) false
  else
    let r := avsStep (s.avsLo x) (s.avsHi x) s.sys.avsCode[i] s.sys.avsHigh[i] m
    ceil (s.setCode x r.1 r.2.1) r.2.2

/-- A change of SYS_AVS_CFG acts on regulator `x` at once: nominal with AVS_EN clear, else within the limits (R61, R63). -/
def State.avsLimit (s : State) (x : VDom) : State :=
  let i := VDom.num x
  if s.avsFrozen x then s
  else if !s.avsOn then (s.toNominal x).cond .sys (15 + 4 * i.val) (VDom.copy x) false
  else s.setCode x (clampNat (s.avsLo x) (s.avsHi x) s.sys.avsCode[i]) s.sys.avsHigh[i]

/-- A change of SYS_AVS_CFG acts on every regulator. -/
def State.avsApply (s : State) : State :=
  ((((s.avsLimit .h0).avsLimit .h1).avsLimit .core).avsLimit .mem).avsLimit .net

/-- A write of SYS_AVS_CFG, `old` the word before it: it acts at once, or when the loop resumes after the DVFS sequence that
runs (R62). -/
def State.avsCfgWritten (s : State) (old : Word) : State :=
  if s.pwr.dvfs.isSome then { s with sys := { s.sys with avsHeld := some (s.sys.avsHeld.getD old) } } else s.avsApply

/-- A DVFS sequence has ended: CORE's loop resumes at the nominal set-point of the operating point, and a SYS_AVS_CFG written
meanwhile takes effect (R62). -/
def State.avsResume (s : State) : State :=
  let s1 := s.toNominal .core
  if s1.sys.avsHeld.isNone then s1 else State.avsApply { s1 with sys := { s1.sys with avsHeld := none } }

/-- AVS_EVAL (R61): the evaluation of every domain, every 10 µs from the end of internal reset on. -/
def execAvsEval (m : Margins) (s : State) : Done :=
  if s.monitoring then
    let t := (max s.clk.cyc s.sys.avsNext + 3999) / 4000 * 4000
    let s0 := s.waitTill t
    let s1 : State := { s0 with sys := { s0.sys with avsNext := t + 1 } }
    .next (((((s1.avsDomain .h0 m.h0).avsDomain .h1 m.h1).avsDomain .core m.core).avsDomain .mem m.mem).avsDomain
      .net m.net)
  else .next s

/-- RTC_XTAL is reported while CORE runs; a boot or wake reports what stands (R70). -/
def State.rtcJudge (s : State) : State := if s.monitoring then s.cond .pwr 0 .shared s.sys.rtcLprc else s

/-- RTC_XTAL (R70): the RTC runs from the low-power RC oscillator, and RTC_XTAL is reported. -/
def execRtcXtal (s : State) : Done :=
  if s.rails.vaon then .next (State.rtcJudge { s with sys := { s.sys with rtcXtalOk := false, rtcLprc := true } })
  else .next s

/-- RTC_XTAL_RESTORE (R70): after 1,024 good periods the RTC returns to the crystal at the next RTC tick. -/
def execRtcXtalRestore (s : State) : Done :=
  if s.rails.vaon ∧ s.sys.rtcLprc then
    let s1 := s.wait (s.cyclesFor (rtcUnit - s.clk.rtc % rtcUnit))
    .next (State.rtcJudge { s1 with sys := { s1.sys with rtcXtalOk := true, rtcLprc := false } })
  else .next s

end Sys2Proof.Machine
end

