-- ==== Sys2Proof/Machine/Cruise.lean ====
section
/-! DEFINITION. Cruise, the in-service test (R366 to R375): rounds, runs, yields, abandonment. -/

namespace Sys2Proof.Machine

/-- The lane of an item: 0 and 1 the halves, 2 shared (Table 16.1, R368). -/
def laneOf (i : Fin 15) : Fin 3 := if i.val < 10 then (if i.val % 2 = 0 then 0 else 1) else 2

/-- The half whose item a lane runs. -/
def laneHalf : Fin 3 → Option Half
  | 0 => some .h0
  | 1 => some .h1
  | 2 => none

/-- The item's half is on; a shared item has none. -/
def State.itemHalfOn (s : State) (i : Fin 15) : Bool :=
  match laneHalf (laneOf i) with
  | some h => s.halfOn h
  | none => true

/-- Cruise may run (R366). -/
def State.cruiseOn (s : State) : Bool :=
  s.boot.released && s.coreOn && s.CRZ_CTRL_EN == 1 &&
    (s.pwr.st == .run || (s.pwr.st == .doze && s.CRZ_SCHED_DOZE_RUN == 1))

/-- Item `i` is enabled (ITEM_EN). -/
def State.itemEn (s : State) (i : Fin 15) : Bool := s.CRZ_ITEM_EN_ITEM_EN.testBit i.val

/-- Item 10 is suspended while any INV_n of MEM is non-zero (R370). -/
def State.memSuspended (s : State) : Bool := (List.range 9).any fun n => s.chkInv .mem n != 0

/-- No item runs. -/
def Crz.idle (c : Crz) : Bool := c.act.toList.all Option.isNone

/-- STARVED (R373): an enabled item, its half on, has completed no run in the last STARVE rounds. -/
def State.starved (s : State) : Bool :=
  (List.finRange 15).any fun i =>
    s.itemEn i && s.itemHalfOn i && decide (max 1 s.CRZ_SCHED_STARVE ≤ s.crz.missed[i])

/-- STARVED judged. -/
def State.judgeStarved (s : State) : State := s.cond .crz 3 .shared s.starved

/-! ## The active time of a run (Table 16.1, R370, R371) -/

/-- Vectors of an item: its terminal count (Table 16.1). -/
def vectorsOf (i : Fin 15) : Nat :=
  match i.val with
  | 0 | 1 => 4096
  | 2 | 3 => 8192
  | 4 | 5 => 2048
  | 6 | 7 => 65536
  | 8 | 9 => 1024
  | 10 => 65536
  | 14 => 2048
  | _ => 4096

/-- Cycles of the item's own clock that one vector takes: the active time of Table 16.1 over the vectors. -/
def vectorCycles (i : Fin 15) : Nat :=
  match i.val with
  | 0 | 1 | 4 | 5 => 200
  | 2 | 3 => 20
  | 10 => 160
  | _ => 1

/-- What one segment takes, in eighths of a core cycle at OPP_0. -/
def segUnits : Nat := 1280

/-- The nominal active time of an item, in eighths of a cycle of its full clock. -/
def nominalRun (i : Fin 15) : Nat := 8 * vectorsOf i * vectorCycles i

/-- What a TCLK cycle adds to the active time of an item at operating point `opp`: items 0 to 5, 8 and 9 are clocked by TCLK, the
others by the core clock of 400, 300, 200 or 50 MHz (Table 16.1, R24). -/
def clockRate (i : Fin 15) (opp : Nat) : Nat :=
  if i.val < 6 ∨ i.val = 8 ∨ i.val = 9 then 8
  else match opp with
    | 0 => 8
    | 1 => 6
    | 2 => 4
    | _ => 1

/-- The same for the run of item `i` now: none of item 10 while it is suspended (R370). -/
def State.runRate (s : State) (i : Fin 15) : Nat :=
  if i.val = 10 ∧ s.memSuspended = true then 0 else clockRate i s.pwr.oppNow.toNat

/-- The segment under test once the march of the banks `m` has completed `k` more from segment `seg` on, in ascending order; 65,536
at its end. -/
def marchOn (m : BitVec 8) (seg k : Nat) : Nat :=
  ((List.range 8).foldl (fun (a : Nat × Nat × Bool) b =>
    let top := (b + 1) * 8192
    let lo := max a.1 (b * 8192)
    if a.2.2 || decide (top ≤ a.1) then a
    else if !m.getLsbD b then (top, a.2.1, false)
    else if a.2.1 < top - lo then (lo + a.2.1, 0, true)
    else (top, a.2.1 - (top - lo), false)) (seg, k, false)).1

/-- Segments of the banks `m` in `lo` to `hi` − 1. -/
def marchLeft (m : BitVec 8) (lo hi : Nat) : Nat :=
  ((List.range 8).map fun b => if m.getLsbD b then min hi ((b + 1) * 8192) - max lo (b * 8192) else 0).sum

/-- The active time of every run brought up to this cycle, before the rate or the banks change. -/
def State.crzMark (s : State) : State :=
  let c := s.crz
  let gain (l : Fin 3) : Nat := match c.act[l] with
    | some i => s.runRate i * (s.clk.cyc - c.actAt[l])
    | none => 0
  let n := c.part + gain 2
  let mem := c.act[(2 : Fin 3)] == some 10
  { s with crz := { c with
    actAt := Vector.ofFn fun l => max s.clk.cyc c.actAt[l]
    ran := Vector.ofFn fun l => c.ran[l] + gain l
    seg := if mem then marchOn c.banks c.seg (n / segUnits) else c.seg
    part := if mem then n % segUnits else c.part } }

/-! ## Rounds (R368, R373) -/

/-- The items of `l` that their half keeps from running count as passed over. -/
def State.passOver (s : State) (l : List (Fin 15)) : State :=
  { s with crz := { s.crz with
    passed := (l.filter fun i => !s.itemHalfOn i).foldl (fun m i => bput m i.val true) s.crz.passed } }

/-- The items of lane `l` that `p` names leave the round, passed over where their half is off (R368). -/
def State.leaveRound (s : State) (l : Fin 3) (p : Fin 15 → Bool) : State :=
  let out (i : Fin 15) : Bool := laneOf i == l && p i
  let s1 := s.passOver (s.crz.todo.filter out)
  { s1 with crz := { s1.crz with todo := s1.crz.todo.filter fun i => !out i } }

/-- One lane takes its next item, if it is free (R368): items of a half that is off, or disabled, are passed over. -/
def State.fillLane (s : State) (l : Fin 3) : State :=
  if s.crz.act[l].isSome then s
  else match s.crz.todo.find? fun i => laneOf i == l && s.itemEn i && s.itemHalfOn i with
    | none => s.leaveRound l fun _ => true
    | some i =>
      let s1 := s.leaveRound l fun j => decide (j.val ≤ i.val)
      { s1 with crz := { s1.crz with
        act := vset s1.crz.act l (some i), actAt := vset s1.crz.actAt l s1.clk.cyc, ran := vset s1.crz.ran l 0
        seg := if i.val = 10 then 0 else s1.crz.seg, part := if i.val = 10 then 0 else s1.crz.part } }

/-- The items of a new round (R368): the count moves on; an enabled item that the round before has not completed has missed it,
unless its half was the reason (R373). -/
def State.roundItems (s : State) : State :=
  let c := s.crz
  let miss (i : Fin 15) : Nat :=
    if c.rounds = 0 ∨ c.done.getLsbD i.val ∨ !s.itemEn i ∨ c.passed.getLsbD i.val then c.missed[i] else c.missed[i] + 1
  { s with crz := { c with
    rounds := c.rounds + 1, inRound := true, again := false, due := false, roundAt := s.clk.cyc, done := 0, passed := 0
    missed := Vector.ofFn miss
    todo := (List.finRange 15).filter s.itemEn } }

/-- The three lanes filled. -/
def State.fillThree (s : State) : State := ((s.fillLane 0).fillLane 1).fillLane 2

/-- The three lanes filled; a round whose items are all done ends, and one that waits for its runs, or for the whole round,
begins (R368, Table 16.2). -/
def State.fillLanes (s : State) : State :=
  let s1 : State := if s.crz.again then
      (let t := s.passOver s.crz.todo; { t with crz := { t.crz with todo := [] } }) else s
  let s2 := s1.fillThree
  if s2.crz.idle && s2.crz.todo == [] then
    let ended : State := if s2.crz.inRound
      then { s2 with crz := { s2.crz with inRound := false, roundTime := s2.now } } else s2
    if (s2.crz.again || s2.crz.due) && s2.cruiseOn then ended.roundItems.judgeStarved.fillThree else ended
  else s2

/-- A round begins (R368, R374, Table 16.2): at once, or after the runs in progress. -/
def State.startRound (s : State) : State :=
  if !s.cruiseOn then s
  else { s with crz := { s.crz with again := true } }.fillLanes

/-- CRUISE_ROUND_START (R368): PERIOD_MS after the start of the previous round; a round that is still in progress is completed first
(DEDUCED, assumption 39). -/
def cruiseRoundStart (s0 : State) : Done :=
  let s := s0.waitTill (s0.crz.roundAt + 1000 * usCyc (max 1 s0.CRZ_SCHED_PERIOD_MS))
  .next (if s.cruiseOn then { s with crz := { s.crz with due := true } }.fillLanes else s)

/-- RESTART_RND (R368, Table 16.2). -/
def restartRnd (s : State) : Done := finish (.ok, s.startRound)

/-! ## The end of a run (R371) -/

/-- The result of a run (R371, Table 4.7); item 10 stops at the first segment that does not match. -/
def runResult (i : Fin 15) (terminal sigOk : Bool) : Nat :=
  if i.val = 10 ∧ !sigOk then 4
  else if terminal then (if sigOk then 2 else 4)
  else 5

/-- What CRZ_FAIL_INFO shows of a run with result `r` (R371): the segment under test of item 10; of another item the pattern count,
which is terminal at FAIL_SIGNATURE. -/
def runDetail (i : Fin 15) (r : Nat) (detail : BitVec 24) : Nat :=
  if r = 4 ∧ i.val ≠ 10 then vectorsOf i else detail.toNat

/-- A run of item `i` can stop at `detail` with result `r`: at a count below the terminal one, and item 10 in a bank that it tests
(R370, R371). -/
def State.stopsAt (s : State) (i : Fin 15) (r : Nat) (detail : BitVec 24) : Bool :=
  r == 2 || (r == 4 && i.val != 10) ||
    (decide (detail.toNat < vectorsOf i) && (i.val != 10 || s.crz.banks.getLsbD (detail.toNat / 8192)))

/-- The first cycle at which the run of item `i` in progress, marked up to now, can end with result `r` at `detail` (R371):
FAIL_INCOMPLETE, which is code 5, once its active time exceeds twice the nominal one; another result once its patterns have been
run, of item 10 those of the segments of the banks it tests. -/
def State.runDue (s : State) (i : Fin 15) (r : Nat) (detail : BitVec 24) : Nat :=
  let c := s.crz
  let l := laneOf i
  let left : Nat :=
    if r = 5 then 2 * nominalRun i + 1 - c.ran[l]
    else if i.val = 10 then
      marchLeft c.banks c.seg (if r = 2 then 65536 else detail.toNat + 1) * segUnits - c.part
    else nominalRun i - c.ran[l]
  c.actAt[l] + (left + s.runRate i - 1) / s.runRate i

/-- CRUISE_RUN_END (R371): the result of the run in progress is latched, and the lane goes on with its next item. -/
def cruiseRunEnd (i : Fin 15) (terminal sigOk : Bool) (detail : BitVec 24) (s0 : State) : Done :=
  let l := laneOf i
  let r := runResult i terminal sigOk
  if s0.crz.act[l] != some i || s0.runRate i == 0 || !s0.stopsAt i r detail then .next s0
  else
    let m := s0.crzMark
    let s := m.waitTill (m.runDue i r detail)
    let c := s.crz
    let roles := if r = 2 ∧ i.val = 12 then c.roles ^^^ 1 else if r = 2 ∧ i.val = 13 then c.roles ^^^ 2 else c.roles
    let c1 := { c with
      act := vset c.act l none, lastEnd := vset c.lastEnd l (some (i, s.clk.cyc))
      res := vset c.res i r, done := bput c.done i.val true, missed := vset c.missed i 0, roles := roles }
    let s1 : State := { s with crz := c1 }
    let s2 := if r = 2 then s1
      else
        let info := Word.put 28 4 i.val ||| Word.put 24 3 r ||| Word.put 0 24 (runDetail i r detail)
        (State.flash { s1 with crz := { c1 with failCnt := min 65535 (c1.failCnt + 1), failInfo := info } } .crz l.val).report
          .crz l.val .shared .cruise
    .next s2.judgeStarved.fillLanes

/-! ## Yields and abandonment (R369, R372) -/

/-- An item that yields: 6, 7 and 10 to 14 (R369). -/
def yields (i : Fin 15) : Bool := i.val == 6 || i.val == 7 || decide (10 ≤ i.val)

/-- The resource under test of item `i` is asked for and handed back after `n` ns (R369): the yield counts, and the run is not
active meanwhile; a segment that yields is marched again from its first operation (R370). A request in the cycle in which the run
ended yields after it (Table 16.2). Nothing yields while item 10 is suspended. -/
def State.crzYield (s : State) (i : Fin 15) (n : Nat) : State :=
  let l := laneOf i
  let runs := s.crz.act[l] == some i && s.runRate i != 0
  if !yields i || !(runs || s.crz.lastEnd[l] == some (i, s.clk.cyc)) then s
  else
    let m := if runs then s.crzMark else s
    { m with crz := { m.crz with
      actAt := if runs then vset m.crz.actAt l (m.crz.actAt[l] + (2 * n + 4) / 5) else m.crz.actAt
      part := if runs && i.val == 10 then 0 else m.crz.part
      yieldCnt := (m.crz.yieldCnt + 1) % 65536, yieldMax := max m.crz.yieldMax n } }

/-- CRUISE_YIELD (R369): the resource is handed back after `ns`, at most 1,000. -/
def execCruiseYield (i : Fin 15) (ns : Nat) (s : State) : Done := .next (s.crzYield i (min 1000 ns))

/-- A store to the FRAM has item 11 yield (Table 16.2), for a time of at most 1,000 ns that is open. -/
def State.storeYield (s : State) : State := (s.crzYield 11 (Config.freeBits 73 s.free % 1001)).draw

/-- Runs of the items that `p` names are abandoned, with their results unchanged (R372); the half may be the reason. -/
def State.abandonRuns (s : State) (p : Fin 15 → Bool) : State :=
  let hit (l : Fin 3) : Bool := match s.crz.act[l] with
    | some i => p i
    | none => false
  let lanes := (List.finRange 3).filter hit
  let act1 : Vector (Option (Fin 15)) 3 := Vector.ofFn fun (l : Fin 3) => bif hit l then none else s.crz.act[l]
  let s1 := s.passOver (lanes.filterMap fun l => s.crz.act[l])
  { s1 with crz := { s1.crz with
    act := act1
    abandon := min 65535 (s.crz.abandon + lanes.length) } }

/-- Runs abandoned that may not go on: item disabled, half off, Cruise not running (R372). -/
def State.cruiseJudge (s : State) : State :=
  let on := s.cruiseOn
  let s1 := s.abandonRuns fun i => !on || !s.itemEn i || !s.itemHalfOn i
  if on then s1.judgeStarved.fillLanes
  else ({ s1 with crz := { s1.crz with todo := [], again := false, due := false, inRound := false } }).judgeStarved

/-- A write of CRZ_CTRL (R368, R372). -/
def State.writeCrzCtrl (s : State) (v : Word) : State :=
  let s1 := (s.setReg 0xD0040 (v &&& 1)).cruiseJudge
  if v.bit 1 then s1.startRound else s1

/-- While a run of item 10 is in progress, the bank of the segment under test (R370, R374). -/
def State.cruiseVote (s : State) : Option Nat :=
  let p := s.crzMark.crz.seg
  if s.crz.act[(2 : Fin 3)] = some 10 ∧ p < 65536 then some (p / 8192) else none

end Sys2Proof.Machine
end

