-- ==== Sys2Proof/Machine/Faults.lean ====
section
/-! DEFINITION. The fault header of a page as firmware writes it, the ends of its windows, parity errors, ALIVE, and a
target that does not answer (chapter "Fault detection and reaction"). -/

namespace Sys2Proof.Machine

/-- A register access of the host to page `p`: ACC_OFF while the page's domain is off, and on the HL8640-QB in the NET
range (R359). -/
def State.page (s : State) (p : Page) (off : Nat) (wr : Bool) (r : Status × State) : Status × State :=
  if s.pageOn p then r else (.accOff, s.fabReport 0 .host (p.base + off) wr)

/-! ## ALIVE (R361) -/

/-- The pad of ALIVE shows its level, unless pad hold keeps it (R448). -/
def State.alivePad (s : State) : State :=
  if s.pads.heldCore then s else { s with alive := { s.alive with pad := s.alive.level } }

/-- ALIVE_EDGE: the next edge of ALIVE; none while DEV_SAFE is set, before release, or once CORE has gone off. -/
def execAliveEdge (s : State) : Done :=
  if !s.alive.running || s.devSafe then .next s
  else
    let s1 := s.waitTill s.alive.next
    .next { s1 with alive := { s1.alive with
      level := !s1.alive.level, next := s1.alive.next + s1.aliveHalf } }.alivePad

/-! ## Windows -/

/-- REACT_BUSY_END (R346): the reaction's window has passed. -/
def execReactBusyEnd (p : Page) (s : State) : Done := .next (s.waitTill (s.hdr p).busyUntil)

/-- The earliest end of a hold-off window over a detector of page `p` that is open now. -/
def State.nextHoldEnd (s : State) (p : Page) : Option Nat :=
  (List.range 32).foldl (fun best b =>
    let t := s.holdEnd p b
    if s.clk.cyc < t then
      match best with
      | none => some t
      | some u => some (min t u)
    else best) none

/-- The conditions of page `p` that still hold and are no longer held off are detected (R357). -/
def State.detectHeld (s : State) (p : Page) : State :=
  [Copy.shared, .h0, .h1].foldl (fun st c =>
    (List.range 32).foldl (fun u b =>
      let f := u.hdr p
      if (f.rawOf c).getLsbD b && !(f.liveOf c).getLsbD b && !u.heldOff p b then u.cond p b c true else u) st) s

/-- HOLDOFF_END (R357). -/
def execHoldoffEnd (p : Page) (s : State) : Done :=
  match s.nextHoldEnd p with
  | none => .next (s.detectHeld p)
  | some t => .next ((s.waitTill t).detectHeld p)

/-! ## Writes of header registers -/

/-- BLZ_CLR in the cycle of a report (R346, Table 15.8): the clear applies first, so the first of the cycle's reports in the
order of R344 is the new Blaze and the others of the cycle count; its record, which it may not have written yet, shows
it. Its reaction is interrupt only, since any other would refuse the clear. -/
def State.blazeAnew (s : State) (p : Page) : State :=
  let x := (s.hdr p).now
  let s1 := s.updHdr p fun f => { f with
    full := true, cnt := x.n - 1, cntSat := false, bAddr := x.addr, bSrc := x.src, bTime := s.now, bCode := x.code
    now := { x with was := false } }
  let rec' : List Byte := leBytes 4 (x.code ||| Word.flag 31 true).toNat
  let wrote := (s.que.q[faultQueue p]).staged.any fun y =>
    y.src == 4 && y.cyc == s.clk.cyc && y.payload.take 3 == rec'.take 3
  let num := x.code.fld 0 8
  if !x.was then s1
  else if wrote then s1.markRecord p x.code true
  else if num < 32 ∧ (s.fltMask p).getLsbD num = true then s1
  else
    s1.offer (faultQueue p) 4 (rec' ++ leBytes 4 (s1.fltLive p).toNat ++ leBytes 4 (s1.hdr p).sticky.toNat ++
      leBytes 2 (x.n - 1) ++ leBytes 1 0 ++ leBytes 1 ((if x.src.fld 0 4 = 6 then 2 else 0) + (if 32 ≤ num then 4 else 0)) ++
      leBytes 4 x.addr.toNat ++ leBytes 4 x.src.toNat ++ leBytes 8 s.now.toNat)

/-- BLZ_CLR (R346): the Blaze is emptied and FLT_CNT cleared, or refused while REACT_BUSY is set; a report of the same cycle
becomes the new Blaze. -/
def State.blzClr (s : State) (p : Page) : Status × State :=
  let x := (s.hdr p).now
  if s.reactBusy p then s.only .denied
  else if x.n ≠ 0 ∧ x.cyc = s.clk.cyc then (.ok, s.blazeAnew p)
  else (.ok, s.updHdr p fun f => { f with full := false, cnt := 0, cntSat := false })

/-- BLZ_CLR (R346). -/
def execBlzClr (p : Page) (s : State) : Done := finish (s.page p 0x3C true (s.blzClr p))

/-- FLT_FORCE written (R362, Table 15.8): each bit newly set over a source that is not live is a detection. Bits without a
source are reserved (R7; Tables 5.4, 6.9, 7.6, 9.9, 10.4, 11.6, 12.3 and 13.9; DEDUCED for the other pages, assumption 50). A
forced trip source of EXC takes the report and the reaction that R362 names, and not the bridge's local action of Table 5.3
(DESIGN CHOICE, assumption 68). -/
def State.writeForce (s : State) (p : Page) (v : Word) : State :=
  let live := s.fltLive p
  let s1 := s.setReg (p.base + 0x10) (v &&& srcMask p)
  (List.range 32).foldl (fun st b =>
    if (st.fltForce p).getLsbD b && !live.getLsbD b then st.report p b .shared .force else st) s1

/-- FLT_FORCE_WRITE (R362). -/
def execFltForceWrite (p : Page) (v : Word) (s : State) : Done := finish (s.page p 0x10 true (.ok, s.writeForce p v))

/-- FLT_STICKY written (R9, R347): a bit clears only if its live bit is clear; clearing LOSS re-arms the channel
(R146). -/
def State.writeSticky (s : State) (p : Page) (v : Word) : State :=
  let keep := ~~~(v &&& ~~~(s.fltLive p))
  let plain (m : Word) : State := s.updHdr p fun f => { f with sticky := f.sticky &&& m }
  let s1 := match p with
    | .pch n =>
      let t := plain (bput keep 5 true)
      if v.bit 5 then t.clearLoss n else t
    | _ => plain keep
  s1.aliveWatch s

/-- STICKY_CLEAR (R9, R347). -/
def execStickyClear (p : Page) (v : Word) (s : State) : Done := finish (s.page p 0x08 true (.ok, s.writeSticky p v))

/-- CHK_INV written (R364): two bits for each checker of the page. Those of MEM suspend item 10 of Cruise, or let it go on (R370). -/
def State.writeInv (s0 : State) (p : Page) (v : Word) : State :=
  let s := if p = .mem then s0.crzMark else s0
  s.setReg (p.base + 0x34) (v &&& BitVec.ofNat 32 (4 ^ p.nChk - 1))

/-- CHK_INV_WRITE (R364). -/
def execChkInvWrite (p : Page) (v : Word) (s : State) : Done := finish (s.page p 0x34 true (.ok, s.writeInv p v))

/-- FLT_CHK written (R9): CE_n clears at 1, UE_n only when it is not live. -/
def State.writeChk (s : State) (p : Page) (v : Word) : State :=
  let s1 := s.updHdr p fun f => { f with
    ce := f.ce &&& ~~~(BitVec.ofNat 16 (v.fld 0 16))
    ue := f.ue &&& ~~~(BitVec.ofNat 16 (v.fld 16 16) &&& ~~~f.ueLive) }
  s1.aliveWatch s

/-- The reaction code stored for a write of `r` to source `b` (R350). -/
def reactStored (p : Page) (b r : Nat) : Nat :=
  if (srcMask p).getLsbD b then max (reactFloor p b) (if srcShared p b ∧ r = 1 then 2 else r) else 0

/-- FLT_REACT_LO or, with `lo` 16, FLT_REACT_HI written (R350). -/
def State.writeReact (s : State) (p : Page) (lo : Nat) (v : Word) : State :=
  let w := reactWord (fun b => reactStored p b (v.fld (2 * (b - lo)) 2)) lo
  (s.setReg (p.base + (if lo = 0 then 0x14 else 0x18)) w).aliveWatch s

/-- CHK_REACT written (R350). -/
def State.writeChkReact (s : State) (p : Page) (r : Nat) : State :=
  (s.setReg (p.base + 0x3C) (Word.put 24 2 (if p.shared ∧ r = 1 then 2 else r))).aliveWatch s

/-- FLT_STAT written (Table 15.1): CHK_REACT while the lock lets it, HOLDOFF_SEEN, and BLZ_CLR, whose refusal is the status
of the write (R460). -/
def State.writeStat (s : State) (p : Page) (v : Word) (unlocked : Bool) : Status × State :=
  let s1 := if unlocked then s.writeChkReact p (v.fld 24 2) else s
  let s2 := if v.bit 9 then s1.updHdr p fun f => { f with holdSeen := false } else s1
  if v.bit 31 then s2.blzClr p else (.ok, s2)

/-- A write of the header register at offset `off` of page `p` (Table 15.1); the read-only ones complete with OK (R9). -/
def State.writeHdr (s : State) (p : Page) (off : Nat) (v : Word) (unlocked : Bool) : Status × State :=
  match off with
  | 0x08 => (.ok, s.writeSticky p v)
  | 0x0C => (.ok, s.setReg (p.base + 0x0C) (v &&& srcMask p))
  | 0x10 => (.ok, s.writeForce p v)
  | 0x14 => if unlocked then (.ok, s.writeReact p 0 v) else s.only .denied
  | 0x18 => if unlocked then (.ok, s.writeReact p 16 v) else s.only .denied
  | 0x34 => (.ok, s.writeInv p v)
  | 0x38 => (.ok, s.writeChk p v)
  | 0x3C => s.writeStat p v unlocked
  | _ => s.only .ok

/-- BLK_ID (R342). -/
def blkId (p : Page) : Word := Word.put 24 4 p.nChk ||| Word.put 16 8 p.blk ||| Word.put 8 8 p.inst ||| 1

/-- A read of the header register at offset `off` of page `p` (Table 15.1). -/
def State.readHdr (s : State) (p : Page) (off : Nat) : Word :=
  let f := s.hdr p
  match off with
  | 0x00 => blkId p
  | 0x04 => s.fltLive p
  | 0x08 => f.sticky
  | 0x1C => f.bAddr
  | 0x20 => f.bSrc
  | 0x24 => BitVec.ofNat 32 f.bTime.toNat
  | 0x28 => BitVec.ofNat 32 (f.bTime.toNat / 2 ^ 32)
  | 0x2C => f.bCode ||| Word.flag 31 f.full
  | 0x30 => Word.put 0 16 f.cnt ||| Word.flag 16 f.cntSat
  | 0x38 => Word.put 0 16 f.ce.toNat ||| Word.put 16 16 f.ue.toNat
  | 0x3C => (s.reg (p.base + 0x3C) &&& 0x03000000) ||| Word.put 16 5 f.holdSrc ||| Word.flag 9 f.holdSeen |||
      Word.flag 8 (s.holdAct p) ||| Word.flag 0 (s.reactBusy p)
  | o => s.reg (p.base + o)

/-! ## Checkers, and a target that does not answer -/

/-- Checker 0 of page `p` has found a stored register word whose check bits are wrong: UE_0 is live while it stands (R363). -/
def State.parityFound (s : State) (p : Page) : State :=
  if s.powered p && !(s.hdr p).ueLive.getLsbD 0 then
    (s.updHdr p fun f => { f with ueLive := bput f.ueLive 0 true }).checkerErr p 0 true
  else s

/-- PARITY_ERROR (R363, R364): checker 0 of page `p` finds a stored register word whose check bits are wrong. -/
def execParityError (p : Page) (s : State) : Done := .next (if s.badPar.any (inPage p) then s.parityFound p else s)

/-- TGT_TMO (R360): an internal target that does not answer within 64 core-clock cycles is abandoned; the access completes with
DENIED and, a read, with zero. -/
def execTgtTmo (m : Master) (addr : Word) (isWrite : Bool) (s : State) : Done :=
  finish (.denied, s.fabReport 2 m addr.toNat isWrite)

end Sys2Proof.Machine
end

