-- ==== Sys2Proof/Machine/Sram.lean ====
section
/-! DEFINITION. The SRAM and its SECDED checkers (R363, R364, R402, R459). Offsets count from 0x1000_0000. -/

namespace Sys2Proof.Machine

/-- The bank of an SRAM offset (R459). -/
def bankOf (off : Nat) : Fin 8 := Fin.ofNat 8 (off / 0x100000)

/-- How a word written now to bank `b` stores its check bits: 0 correct, 1 one bit inverted, 2 two (R364). -/
def State.memInv (s : State) (b : Fin 8) : Nat := s.chkInv .mem (1 + b.val)

/-- The check-bit damage of the 64-bit words from `w0` to `w0 + 8n` − 8 noted afresh (Table 1.5). -/
def markWords (bad : List (Nat × Nat)) (inv : Nat) (w0 : Nat) : Nat → List (Nat × Nat)
  | 0 => bad
  | n + 1 => markWords (Store.set 0 bad w0 inv) inv (w0 + 8) n

/-- The bytes `bs` stored from offset `off` upwards, from any master, with check bits as CHK_INV says (R364). -/
def State.sramPut (s : State) (off : Nat) (bs : List Byte) : State :=
  let w0 := off / 8 * 8
  let n := (off + bs.length + 7) / 8 - off / 8
  { s with
    sram := Memory.writeBytes sramDefault s.sram off bs
    badEcc := markWords s.badEcc (s.memInv (bankOf off)) w0 n }

/-- The word at offset `off` (R402). -/
def State.sramWord (s : State) (off : Nat) : Word := Memory.readWord sramDefault s.sram off

/-- The check-bit damage of the 64-bit word that holds offset `off` (Table 1.5): 0 none, 1 correctable, 2 not. -/
def State.eccOf (s : State) (off : Nat) : Nat := Store.get 0 s.badEcc (off / 8 * 8)

/-- A read of the word at `off` (R360, R363): a correctable error is corrected and reported as CE_n; an uncorrectable
one reads zero with DENIED and is reported as UE_n. -/
def State.sramRead (s : State) (off : Nat) : Status × Word × State :=
  match s.eccOf off with
  | 0 => (.ok, s.sramWord off, s)
  | 1 => (.ok, s.sramWord off, s.checkerErr .mem (1 + (bankOf off).val) false)
  | _ => (.denied, 0, s.checkerErr .mem (1 + (bankOf off).val) true)

/-- The bytes of a ring of `size` bytes at `base`, `n` of them from ring offset `p`, wrapping (R406). -/
def ringBytes (m : List Host.Cell) (base size p : Nat) : Nat → List Byte
  | 0 => []
  | n + 1 => Memory.read sramDefault m (base + p % size) :: ringBytes m base size (p + 1) n

/-- Record bytes stored in a ring word by word, wrapping (R406). -/
def State.ringPut (s : State) (base size p : Nat) : List Byte → State
  | a :: b :: c :: d :: t => (s.sramPut (base + p % size) [a, b, c, d]).ringPut base size (p + 4) t
  | _ => s

end Sys2Proof.Machine
end

