-- ==== Sys2Proof/Machine/Queues.lean ====
section
/-! DEFINITION. The queues of the Landing (chapter "Host interface and the Landing", R405 to R421): the Yarder,
delivery, flush, stall and age. -/

namespace Sys2Proof.Machine

/-- Queue `i` replaced. -/
def State.setQ (s : State) (i : Fin 64) (q : Queue) : State := { s with que := { s.que with q := vset s.que.q i q } }

/-- RING_CFG follows the rings: live while any queue has RING_BAD live (R405). -/
def State.ringCfg (s : State) : State :=
  s.cond .que 1 .shared ((List.finRange 64).any fun i => s.ringBad i)

/-- Port `p` is enabled (PORT_EN, in force from release, R86). -/
def State.portEn (s : State) (p : Fin 2) : Bool := s.boot.released && s.netOn && s.NET_CTRL_PORT_EN.testBit p.val

/-- Port `p` is enabled and has link. -/
def State.portUp (s : State) (p : Fin 2) : Bool := s.portEn p && s.net.port[p].link

/-- Stream `k` drains its queue (R389): enabled, no lower stream on the queue, a port with link. -/
def State.streamDrains (s : State) (k : Fin 8) : Bool :=
  let q := s.NET_STR_CFG_QUEUE k.val
  s.boot.released && s.netOn && s.NET_CTRL_STR_EN.testBit k.val &&
    !((List.range k.val).any fun j => s.NET_CTRL_STR_EN.testBit j && s.NET_STR_CFG_QUEUE j == q) &&
    (List.finRange 2).any fun p => (s.NET_STR_CFG_PORTS k.val).testBit p.val && s.portUp p

/-- NET_OWN: an enabled stream drains the queue (R389, R412); a stream without a port that has link drains nothing, and the
queue is the host's. -/
def State.netOwn (s : State) (i : Fin 64) : Bool :=
  (List.finRange 8).any fun k => s.streamDrains k && s.NET_STR_CFG_QUEUE k.val == i.val

/-- A descriptor of queue `i` is written: its check bits are stored as INV_1 says (R364). -/
def State.descWrite (s : State) (i : Fin 64) : State :=
  s.setQ i { s.que.q[i] with badEcc := s.chkInv .que 1 }

/-- A descriptor of queue `i` is read (R363, R410): an uncorrectable error is reported and halts the queue. -/
def State.descRead (s : State) (i : Fin 64) : State :=
  match (s.que.q[i]).badEcc with
  | 0 => s
  | 1 => s.checkerErr .que 1 false
  | _ =>
    let s1 := s.checkerErr .que 1 true
    s1.setQ i { s1.que.q[i] with halted := true }

/-- The bytes of a record: frame (Table 18.4), payload, padding. -/
def recBytes (i : Fin 64) (x : Staged) (gap : Bool) : List Byte :=
  leBytes 8 x.seq ++ leBytes 2 (recLen x.payload) ++ leBytes 1 i.val ++ leBytes 1 (if gap then 1 else 0) ++
    leBytes 1 x.src ++ leBytes 3 0 ++ pad8 x.payload

/-- A staged record written into its ring (R406, R409, R410). GAP is set when the record with SEQ − 1 was not
written, or was discarded by a flush (Table 18.4, R411). Where the bank of the Landing is not on, the write completes with ACC_OFF,
reported in FAB (R359); the record is then dropped (DESIGN CHOICE, assumption 69). -/
def State.ringWrite (s : State) (i : Fin 64) (x : Staged) (rest : List Staged) : State :=
  let q := s.que.q[i]
  if !s.bankOn 0 then
    (s.setQ i { q.dropOne with staged := rest, same := [] }).fabReport 0 .yarder (0x10000000 + q.base + q.wptr) true
  else
  let len := recLen x.payload
  let gap := q.gap || decide (x.seq ≠ q.nextSeq)
  let s1 := s.ringPut q.base q.size q.wptr (recBytes i x gap)
  (s1.setQ i { q with
    staged := rest, same := [], ring := q.ring ++ [⟨len, s.clk.cyc⟩], wptr := (q.wptr + len) % q.size
    credit := q.credit - len / 8, gap := false, nextSeq := x.seq + 1 }).descWrite i

/-- What the Yarder can do with the head of the staging of queue `i` (R409, R410): write it, drop it, or nothing. -/
inductive YardAct | write | drop | hold
  deriving DecidableEq, Repr

/-- The fate of the head of queue `i`'s staging now (R409). -/
def State.yardAct (s : State) (i : Fin 64) (x : Staged) : YardAct :=
  let q := s.que.q[i]
  if q.halted then .hold
  else if decide (recLen x.payload / 8 ≤ q.credit) then .write
  else if s.QUE_CFG_POLICY i.val = 1 then .drop
  else .hold

/-- Record `x` of queue `i` is served before `y` of queue `j`: older first, and Q_16–Q_23 first among records staged
in the same cycle (R416). -/
def yardBefore (i : Fin 64) (x : Staged) (j : Fin 64) (y : Staged) : Bool :=
  let fq (k : Fin 64) := decide (16 ≤ k.val ∧ k.val ≤ 23)
  if x.cyc ≠ y.cyc then decide (x.cyc < y.cyc)
  else if fq i ≠ fq j then fq i
  else decide (x.order < y.order)

/-- The staged record the Yarder serves next (R416), among those it can write or drop. -/
def State.yardNext (s : State) : Option (Fin 64 × Staged) :=
  (List.finRange 64).foldl (fun best i =>
    match (s.que.q[i]).staged with
    | [] => best
    | x :: _ =>
      if s.yardAct i x = .hold then best
      else match best with
        | none => some (i, x)
        | some (j, y) => if yardBefore i x j y then some (i, x) else best) none

/-- A record has been in staging for more than STALL_US (R417). -/
def State.isStale (s : State) (x : Staged) : Bool :=
  decide (usCyc (max 1 s.QUE_GLB_CFG_STALL_US) < s.clk.cyc - x.cyc)

/-- The queue of the oldest staged record, and that record (R417). -/
def State.oldestStaged (s : State) : Option (Fin 64 × Staged) :=
  (List.finRange 64).foldl (fun best i =>
    match (s.que.q[i]).staged with
    | [] => best
    | x :: _ => match best with
        | none => some (i, x)
        | some (j, y) => if yardBefore i x j y then some (i, x) else best) none

/-- YARD_STALL judged (R417): live while the oldest staged record is stale; STALL_Q names its queue. -/
def State.judgeStall (s : State) : State :=
  match s.oldestStaged with
  | some (i, x) =>
    if s.isStale x then
      { s with que := { s.que with stalled := true, stallQ := i.val } }.cond .que 2 .shared true
    else { s with que := { s.que with stalled := false } }.cond .que 2 .shared false
  | none => { s with que := { s.que with stalled := false } }.cond .que 2 .shared false

/-- A flush of queue `i` (R405, R410, R411): every record in the ring and in staging is discarded and counted, every
credit returns, the stall is judged again, new BASE and SIZE take effect, and HALTED clears if the ring is then valid. -/
def State.flush (s : State) (i : Fin 64) : State :=
  let q := s.que.q[i]
  let n := q.held
  let base := s.QUE_BASE_BASE i.val
  let size := s.QUE_SIZE_SIZE i.val
  let q1 := { q with
    base := base, size := size, credit := size / 8, ring := [], staged := [], same := [], rptr := 0, wptr := 0
    drop := (q.drop + n) % 2 ^ 32
    dropEv := q.dropEv || decide (n ≠ 0)
    gap := q.gap || decide (n ≠ 0) }
  let s1 := s.setQ i q1
  let s2 := if s1.ringValid i then s1.setQ i { q1 with halted := false } else s1
  ((s2.ringCfg.descWrite i).settle i).judgeStall

/-- The credit relation of queue `q` holds (R410). -/
def Queue.creditOk (q : Queue) : Bool := q.credit + q.used == q.size / 8

/-- One service of the Yarder on the head of the staging of queue `i` (R409, R410). -/
def State.yardServe (s : State) (i : Fin 64) : State :=
  let s0 := s.descRead i
  let q := s0.que.q[i]
  if q.halted then s0
  else if !q.creditOk then
    (s0.setQ i { q with halted := true }).event .que 0 .shared
  else
    let s1 := match q.staged with
      | [] => s0
      | x :: rest => match s0.yardAct i x with
        | .write => s0.ringWrite i x rest
        | .drop => s0.setQ i { q.dropOne with staged := rest, same := [] }
        | .hold => s0
    (s1.settle i).judgeStall

/-- YARDER_WRITE (R409, R416): the Yarder serves the oldest staged record it can write, or drops it. While CORE is
off it does nothing. -/
def execYarderWrite (s : State) : Done :=
  if !s.coreOn then .next s
  else match s.yardNext with
  | none => .next s
  | some (i, _) => .next (s.yardServe i)

/-- FLUSH (R411): a write of 1 to FLUSH of queue `q`. -/
def execFlush (q : Fin 64) (s : State) : Done := finish (.ok, s.flush q)

/-- YARD_STALL (R417): a record has stayed in staging for more than STALL_US. -/
def execYardStall (s : State) : Done :=
  match s.oldestStaged with
  | none => .next s
  | some (_, x) => .next (s.waitTill (x.cyc + usCyc (max 1 s.QUE_GLB_CFG_STALL_US) + 1)).judgeStall

/-- QUEUE_AGE (R420): the oldest record of queue `q` reaches AGE_US. -/
def execQueueAge (q : Fin 64) (s : State) : Done :=
  let age := s.QUE_CTRL_AGE_US q.val
  match (s.que.q[q]).ring with
  | [] => .next s
  | r :: _ => if age = 0 then .next s else .next ((s.waitTill (r.cyc + usCyc age)).settle q)

/-- The `k` oldest records of queue `i` delivered: counted, their credits returned (R410). -/
def State.deliver (s : State) (i : Fin 64) (k : Nat) : State :=
  let q := s.que.q[i]
  let bytes := ((q.ring.take k).map fun r => r.len).sum
  let s1 := s.setQ i { q with
    ring := q.ring.drop k, rptr := (q.rptr + bytes) % q.size, credit := q.credit + bytes / 8
    deliv := (q.deliv + k) % 2 ^ 32 }
  (s1.descWrite i).settle i

/-- K records delivered from queue `i`, or refused (R410, R414). -/
def State.qack (s0 : State) (i : Fin 64) (k : Nat) : Status × State :=
  let s := s0.descRead i
  let q := s.que.q[i]
  if k = 0 ∧ ¬ q.halted then (.ok, s)
  else if q.halted then (.denied, s)
  else if s.netOwn i then (.denied, s)
  else if q.ring.length < k then (.range, s)
  else (.ok, s.deliver i k)

/-- Words of four ring bytes each, the byte at the lowest address in bits [7:0], as a READ of the ring would give them
(R402, assumption 22). -/
def packWords : List Byte → List Word
  | a :: b :: c :: d :: t => BitVec.ofNat 32 (leNat [a, b, c, d]) :: packWords t
  | _ => []

/-- The number of bytes of the leading whole records that fit in `room` bytes. -/
def fitBytes (room : Nat) : List RingRec → Nat
  | [] => 0
  | r :: t => if r.len ≤ room then r.len + fitBytes (room - r.len) t else 0

/-- A QREAD of `n` words (R413): whole records from the oldest on, zero filled; RANGE with the oldest record's frame
when it does not fit, ACC_OFF where the bank of the Landing is not on (R359). It changes nothing but what the reads may report. -/
def State.qread (s0 : State) (i : Fin 64) (n : Nat) : Status × List Word × State :=
  let s := s0.descRead i
  let q := s.que.q[i]
  let out (b : List Byte) : List Word := (packWords b ++ List.replicate n 0).take n
  if q.halted then (.denied, List.replicate n 0, s)
  else match q.ring with
    | [] => (.ok, List.replicate n 0, s)
    | r :: _ =>
      if !s.bankOn 0 then (.accOff, List.replicate n 0, s.fabReport 0 .host (0x10000000 + q.base + q.rptr) false)
      else if 4 * n < r.len then (.range, out (ringBytes s.sram q.base q.size q.rptr 16), s)
      else (.ok, out (ringBytes s.sram q.base q.size q.rptr (fitBytes (4 * n) q.ring)), s)

/-- A QPUSH of the payload `ws` to queue `i` (R415). -/
def State.qpush (s : State) (i : Fin 64) (ws : List Word) : Status × State :=
  let q := s.que.q[i]
  let pay := (ws.map fun w => leBytes 4 w.toNat).flatten
  if s.QUE_CFG_PROD_FW i.val ≠ 1 then (.denied, s)
  else if q.limit < recLen pay then (.range, s)
  else if 2 ≤ q.staged.length then (.denied, s)
  else (.ok, s.offer i 13 pay)

/-- At release every new BASE and SIZE takes effect, and each queue that changes by it is flushed (R405). -/
def State.ringsAtRelease (s : State) : State :=
  let f (i : Fin 64) : Queue := { s.que.q[i] with base := s.QUE_BASE_BASE i.val, size := s.QUE_SIZE_SIZE i.val }
  let s1 : State := { s with que := { s.que with q := Vector.ofFn f } }
  ((List.finRange 64).foldl (fun st i => if f i = s.que.q[i] then st else st.flush i) s1).ringCfg

end Sys2Proof.Machine
end

