-- ==== Sys2Proof/Machine/TimeBase.lean ====
section
/-! DEFINITION. The time base (R377 to R382, R391, R395): servo, steps and slews, TIME_SET, SYNC_LOSS, time records. -/

namespace Sys2Proof.Machine

/-- 500 ppm in 2^-40: the largest whole number within the limit (R377). -/
def rateMax : Int := 549755813

/-- DISC_EN acts: on the HL8640-QA, with its bit set (R380). -/
def State.discOn (s : State) : Bool := !s.qb && s.TIME_CFG_DISC_EN == 1

/-- RATE_ADJ outside a slew: the servo's, zero in FREE (R380, R381). -/
def State.servoRate (s : State) : Int := if s.tim.st = .free then 0 else s.tim.rate

/-- The stamps that have passed are taken before the relation between TIME and cycles changes (R378, R379). -/
def State.stampAll (s : State) : State := (s.auxStamp 0).auxStamp 1

/-- RATE_ADJ set to `r`. -/
def State.setRate (s0 : State) (r : Int) : State := let s := s0.stampAll; { s with clk := { s.clk with rate := r } }

/-- RATE_ADJ taken from the servo unless a slew holds it. -/
def State.applyRate (s : State) : State := if s.tim.slewTill.isSome then s else s.setRate s.servoRate

/-- A slew ends (R381). -/
def State.endSlew (s : State) : State := State.applyRate { s with tim := { s.tim with slewTill := none } }

/-- TCLK cycles that absorb `e` ns at −500 ppm (R381). -/
def slewCycles (e : Nat) : Nat :=
  let loss := (5 * 2 ^ 31 - timeStepOf (-rateMax)).toNat
  (e * 2 ^ 32 + loss - 1) / loss

/-- The slave port of a time record, 0xFF if none (Table 17.5). -/
def slaveByte (p : Option (Fin 2)) : Nat := match p with
  | some n => n.val
  | none => 0xFF

/-- A signed value saturated to `n` bits. -/
def satInt (n : Nat) (x : Int) : Int := clampInt (-(2 ^ (n - 1))) (2 ^ (n - 1) - 1) x

/-! ## The best-master choice (R384); priority vectors and their order are those of IEEE 802.1AS (PRESUMED, assumption 7) -/

/-- The unicast address (NET_MAC_HI, NET_MAC_LO). -/
def State.macAddr (s : State) : Nat := s.NET_MAC_HI_MAC_HI * 2 ^ 32 + s.NET_MAC_LO_MAC_LO

/-- clockIdentity: the unicast address with 0xFFFE in its middle. -/
def State.clockId (s : State) : Nat := (s.macAddr / 2 ^ 24 * 2 ^ 16 + 0xFFFE) * 2 ^ 24 + s.macAddr % 2 ^ 24

/-- A priority vector as a number, so that the better one is the smaller: priority1, clockClass, clockAccuracy, variance,
priority2, grandmaster identity, then stepsRemoved and the sender's identity and port. -/
def priorityVector (prio1 cls acc var prio2 gm tail : Nat) : Nat :=
  ((((((prio1 * 2 ^ 8 + cls) * 2 ^ 8 + acc) * 2 ^ 16 + var) * 2 ^ 8 + prio2) * 2 ^ 64) + gm) * 2 ^ 96 + tail

/-- The device's own vector: clockClass 248 and clockAccuracy 0xFE (R384), the standard's default variance. -/
def State.ownVector (s : State) : Nat :=
  priorityVector s.NET_PTP_CFG_PRIO1 248 0xFE 0x436A s.NET_PTP_CFG_PRIO2 s.clockId (s.clockId * 2 ^ 16)

/-- The vector that the latest Announce of port `p` carried, unless it has timed out or names the device itself. -/
def State.annVector (s : State) (p : Fin 2) : Option Nat :=
  match s.net.port[p].annRx with
  | none => none
  | some (v, t) => if s.clk.cyc < t ∧ v / 2 ^ 96 % 2 ^ 64 ≠ s.clockId then some v else none

/-- The vector of port `p` as the device would pass it on: one step further. -/
def State.pathVector (s : State) (p : Fin 2) : Option Nat := (s.annVector p).map fun v => v + 2 ^ 80

/-- The vector of the grandmaster: the best of the device's own and those received. -/
def State.gmVector (s : State) : Nat :=
  let least (a : Nat) (b : Option Nat) : Nat := min a (b.getD a)
  least (least s.ownVector (s.pathVector 0)) (s.pathVector 1)

/-- The role that the BMCA gives port `p`: slave towards the grandmaster, the lower port where both lead to it; master where the
device's vector is better than the one received, or none is; else passive. -/
def State.bmcaRole (s : State) (p : Fin 2) : Nat :=
  let best := some s.gmVector
  match s.annVector p with
  | none => 2
  | some v =>
    if s.pathVector p = best ∧ (p = 0 ∨ s.pathVector 0 ≠ best) then 1
    else if s.gmVector / 2 ^ 80 * 2 ^ 80 + s.clockId * 2 ^ 16 + p.val + 1 < v then 2
    else 3

/-- The role in force of port `p` (R384): none before release, without NET or with the port disabled; ROLE with EXT_CFG set;
with EXT_CFG clear what the BMCA of IEEE 802.1AS gives. If both would be slave, SG_1 is passive. -/
def State.portRole (s : State) (p : Fin 2) : Nat :=
  let raw (n : Nat) : Nat :=
    if !(s.boot.released && s.netOn && s.NET_CTRL_PORT_EN.testBit n) then 0
    else if s.NET_PTP_CFG_EXT_CFG = 1 then (if n = 0 then s.NET_PTP_CFG_ROLE_0 else s.NET_PTP_CFG_ROLE_1)
    else s.bmcaRole (Fin.ofNat 2 n)
  if p = 1 ∧ raw 0 = 1 ∧ raw 1 = 1 then 3 else raw p.val

/-- The slave port, if there is one. -/
def State.slavePort (s : State) : Option (Fin 2) :=
  if s.portRole 0 = 1 then some 0 else if s.portRole 1 = 1 then some 1 else none

/-- A time record to Q_48 (R391, Tables 17.4 and 17.5); none on the HL8640-QB. -/
def State.timeRecord (s : State) (code : Nat) (step : Int) : State :=
  if s.qb then s
  else s.offer 48 8 (leBytes 1 code ++ leBytes 1 (slaveByte s.slavePort) ++ leBytes 2 0 ++
    leBytes 4 (wrapInt 32 (satInt 32 s.tim.offset)) ++ leBytes 8 (wrapInt 64 step) ++ leBytes 8 s.tim.gm.toNat ++
    leBytes 8 s.now.toNat)

/-- A step of `e` ns (R381): TIME moves at once, or a backward step with NO_BACK set becomes a slew. A slew in progress
ends first. -/
def State.timeStep (s0 : State) (e : Int) : State :=
  let s := s0.endSlew
  if s.TIME_CFG_NO_BACK = 1 ∧ e < 0 then
    let s1 := s.setRate (-rateMax)
    { s1 with tim := { s1.tim with slewTill := some (s.clk.cyc + slewCycles e.natAbs) } }
  else
    let s1 : State := { s.stampAll with
      clk := { s.clk with time := wrapInt 96 ((s.clk.time : Int) + e * 2 ^ 32) }
      tim := { s.tim with step := e, stepCnt := min 65535 (s.tim.stepCnt + 1), mr := !s.tim.mr } }
    (s1.event .time 1 .shared).timeRecord 3 e

/-- e shifted and divided as the listing of R380 writes it, truncating; an interval of zero leaves the value open. -/
def servoTerm (e : Int) (interval k n : Nat) : Int :=
  if interval = 0 then signedOf 64 (Config.freeBits 71 n)
  else (e * 2 ^ 40).tdiv ((interval * 2 ^ k : Nat) : Int)

/-- The servo's update for a pair that does not step (R380). -/
def State.servoUpdate (s : State) (off : Int) (interval : Nat) : State :=
  let t := s.tim
  let e := -off
  let lock : Nat := s.TIME_THR_LOCK_NS
  let freq := clampInt (-rateMax) rateMax (t.freq + servoTerm e interval s.TIME_CFG_KI s.free)
  let rate := clampInt (-rateMax) rateMax (freq + servoTerm e interval s.TIME_CFG_KP s.free)
  let good := if off.natAbs < lock then t.good + 1 else 0
  let st1 : TimeSt := if t.st = .acq ∧ 8 ≤ good then .locked else t.st
  let st2 : TimeSt := if st1 = .locked ∧ 4 * lock < off.natAbs then .acq else st1
  let s1 := State.applyRate { s with tim := { t with freq := freq, rate := rate, good := good, st := st2 } }
  let s2 := if st1 = .locked ∧ t.st ≠ .locked then s1.timeRecord 1 0 else s1
  if st2 = .acq ∧ st1 = .locked then s2.timeRecord 5 0 else s2

/-- A change of the grandmaster from one that was used (R395): GM_CHANGE, a record, and mr toggles. -/
def State.takeGm (s : State) (id : BitVec 64) : State :=
  let changed := s.tim.gmUsed && s.tim.gm != id
  let s1 : State := { s with tim := { s.tim with
    gm := id, gmUsed := true, mr := if changed then !s.tim.mr else s.tim.mr } }
  if changed then (s1.event .time 2 .shared).timeRecord 4 0 else s1

/-- SYNC_PAIR (R380): a valid pair on the port in slave state updates the servo or steps TIME; on another port, or without
DISC_EN, it does nothing (Table 17.8). The receipt is that of the message time-stamp point at the balls: RX_LAT before
the instant NET has stamped (R379). -/
def execSyncPair (i : SyncInfo) (s : State) : Done :=
  if !(s.discOn && s.boot.released && s.slavePort == some i.port) then .next s
  else
    let off := i.rxTime - (s.NET_PORT_LAT_RX_LAT i.port.val : Nat) - (i.origin + i.correction + (s.net.port[i.port].pdly : Nat))
    let s1 : State := { s with tim := { s.tim with offset := off, lastPair := s.clk.cyc } }
    let s2 := (s1.cond .time 0 .shared false).takeGm i.gmId
    let thr : Nat := 1000 * max 1 s.TIME_THR_STEP_THR
    if s2.tim.st = .free ∨ s2.tim.st = .holdover ∨ thr < off.natAbs then
      let s3 : State := { s2 with tim := { s2.tim with st := .acq, good := 0 } }
      let s4 := s3.timeStep (-off)
      .next (if s2.tim.st = .locked then (s4.timeRecord 5 0).draw else s4.draw)
    else .next (s2.servoUpdate off i.interval).draw

/-- TIME_SLEW_END (R381): the backward step has been absorbed, and RATE_ADJ returns. -/
def execTimeSlewEnd (s : State) : Done :=
  match s.tim.slewTill with
  | none => .next s
  | some t => .next (s.waitTill t).endSlew

/-- SYNC_LOSS (R380, R395): SYNC_TMO ms without a valid pair. -/
def execSyncLoss (s : State) : Done :=
  if !(s.discOn && s.boot.released) then .next s
  else
    let s1 := s.waitTill (s.tim.lastPair + 1000 * usCyc (max 1 s.TIME_TMO_SYNC_TMO))
    let hold := s1.tim.st == .acq || s1.tim.st == .locked
    let s2 : State := if hold then
        (State.applyRate { s1 with tim := { s1.tim with st := .holdover, rate := s1.tim.freq } }).timeRecord 2 0
      else s1
    .next (s2.cond .time 0 .shared true)

/-- A write of TIME_SET_HI (R382): TIME takes the value held, as a step; refused while the servo has TIME. -/
def State.timeSet (s : State) (hi : Word) : Status × State :=
  if s.discOn then s.only .denied
  else
    let s1 := s.setReg 0xE0074 hi
    let v : Int := hi.toNat * 2 ^ 32 + s1.TIME_SET_LO_SET
    (.ok, s1.timeStep (v - (s1.now.toNat : Int)))

/-- TIME_SET (R382). -/
def execTimeSet (hi : Word) (s : State) : Done := finish (s.timeSet hi)

/-- TIME_CFG written (R380, R395): without DISC_EN the state is FREE, RATE_ADJ is zero and SYNC_LOSS ends. -/
def State.timeCfgWritten (s : State) : State :=
  if s.discOn then s
  else (State.applyRate { s with tim := { s.tim with st := .free, good := 0, rate := 0 } }).cond .time 0 .shared false

/-- TIME_TMO written (R395): SYNC_LOSS ends where SYNC_TMO ms have not passed under the new value. -/
def State.timeTmoWritten (s : State) : State :=
  if s.clk.cyc < s.tim.lastPair + 1000 * usCyc (max 1 s.TIME_TMO_SYNC_TMO) then s.cond .time 0 .shared false else s

end Sys2Proof.Machine
end

