-- ==== Sys2Proof/Machine/Network.lean ====
section
/-! DEFINITION. The vehicle network (R383 to R391, R395): ports and links, gPTP messages and relay, forwarding, the
traffic classes, streams and control frames. The layouts of gPTP messages and the shaper's credits are those of
IEEE 802.1AS and 802.1Qav, to which the spec refers (assumption 7). -/

namespace Sys2Proof.Machine

/-! ## Ports -/

/-- Port `p` replaced. -/
def State.setPort (s : State) (p : Fin 2) (x : Port) : State :=
  { s with net := { s.net with port := vset s.net.port p x } }

/-- asCapable (R384). -/
def State.asCapable (s : State) (p : Fin 2) : Bool :=
  let x := s.net.port[p]
  s.portUp p && x.pdlyOk && decide (x.pdly ≤ s.NET_PTP_THR_PDLY_THR)

/-- The other port. -/
def otherPort (p : Fin 2) : Fin 2 := if p = 0 then 1 else 0

/-- LINK_DOWN_n judged (R395). -/
def State.judgeLink (s : State) (p : Fin 2) : State :=
  s.cond .net p.val .shared (s.portEn p && !s.net.port[p].link)

/-! ## Transmission (R388) -/

/-- TCLK cycles on the wire of a frame of `len` bytes: preamble and gap included, at 1,000 Mb/s. -/
def wireCycles (len : Nat) : Nat := ((len + 20) * 16 + 4) / 5

/-- The idleSlope of class A (0) or B (1) in bits per TCLK cycle. -/
def State.idleSlope (s : State) (p : Fin 2) (c : Nat) : Rat :=
  ((if c = 0 then s.NET_PORT_CBS_IDLE_A p.val else s.NET_PORT_CBS_IDLE_B p.val) * 100000 : Nat) / 400000000

/-- The credit of a class after `k` cycles (802.1Qav): falling at sendSlope while the class transmits; rising at idleSlope
while its frames wait or it is negative, and never above zero without a frame waiting. -/
def creditAfter (c slope : Rat) (k : Nat) (sending waiting : Bool) : Rat :=
  if sending then c + (slope - 5 / 2) * k
  else if waiting then c + slope * k
  else min 0 (c + slope * k)

/-- The credits of port `p` brought up to the present cycle. -/
def State.credits (s : State) (p : Fin 2) : State :=
  let x := s.net.port[p]
  let k := s.clk.cyc - x.credAt
  let sends (c : Fin 4) : Bool := match x.cur with
    | some (f, _) => f.cls == c
    | none => false
  s.setPort p { x with
    credA := creditAfter x.credA (s.idleSlope p 0) k (sends 1) (x.q[(1 : Fin 4)] != [])
    credB := creditAfter x.credB (s.idleSlope p 1) k (sends 2) (x.q[(2 : Fin 4)] != [])
    credAt := s.clk.cyc }

/-- The class that port `p` serves next: the highest with a frame waiting, class A or B with credit (R388). -/
def Port.pick (x : Port) : Option (Fin 4) :=
  if x.q[(0 : Fin 4)] ≠ [] then some 0
  else if x.q[(1 : Fin 4)] ≠ [] ∧ 0 ≤ x.credA then some 1
  else if x.q[(2 : Fin 4)] ≠ [] ∧ 0 ≤ x.credB then some 2
  else if x.q[(3 : Fin 4)] ≠ [] then some 3
  else none

/-- A gPTP message as a frame: least frame size, highest class, untagged. -/
def gptpFrame (m : NetMsg) : TxFrame := { msg := m, cls := 0, bytes := [], len := 64, ecc := 0 }

/-- The message time-stamp point at the balls of a frame that leaves port `p` now, as a TIME value (R379): TX_LAT later. -/
def State.egressStamp (s : State) (p : Fin 2) : Int := (s.now.toNat : Int) + (s.NET_PORT_LAT_TX_LAT p.val : Nat)

/-- The same of a frame that NET stamps on arrival at port `p` now: RX_LAT before. -/
def State.receiptStamp (s : State) (p : Fin 2) : Int := (s.now.toNat : Int) - (s.NET_PORT_LAT_RX_LAT p.val : Nat)

/-- The follow-up of a gPTP event message that leaves with stamp `t` (R379): that of the device's own Sync, or of a
Pdelay_Resp. -/
def followsUp (m : NetMsg) (t : Int) : List NetMsg :=
  match m with
  | .sync => [.ownFollowUp t]
  | .pdelayResp _ => [.pdelayRespFollowUp t]
  | _ => []

/-- A free port begins the next frame (R388); reading it from the frame buffer may find a check-bit error (R363). A gPTP event
message takes its egress time stamp as it starts: a relayed Sync keeps it (R385), the others send it on (R379). -/
def State.txKick (s0 : State) (p : Fin 2) : State :=
  let s := s0.credits p
  let x := s.net.port[p]
  if !s.portUp p || x.cur.isSome then s
  else match x.pick with
    | none => s
    | some c => match x.q[c] with
      | [] => s
      | f :: rest =>
        let stamp : Rat := s.clk.cyc + (s.NET_PORT_LAT_TX_LAT p.val : Nat) * 2 / 5
        let more := (followsUp f.msg (s.egressStamp p)).map fun m => { gptpFrame m with ecc := s.chkInv .net 1 }
        let rel := if f.msg = .relayed then x.relay.map fun r =>
            { r with egress := if r.egress.isSome then r.egress else some stamp } else x.relay
        let s1 := if f.ecc = 0 then s else s.checkerErr .net 1 (f.ecc == 2)
        s1.setPort p { x with
          q := vset x.q c (rest ++ more), cur := some (f, s.clk.cyc + wireCycles f.len), relay := rel }

/-- A frame enters its class at port `p`; the frame buffer stores its check bits as INV_1 says (R364). -/
def State.enqueue (s0 : State) (p : Fin 2) (f : TxFrame) : State :=
  let s := s0.credits p
  let x := s.net.port[p]
  (s.setPort p { x with q := vset x.q f.cls (x.q[f.cls] ++ [{ f with ecc := s.chkInv .net 1 }]) }).txKick p

/-- The cycle at which a waiting shaped class of an idle port has credit again, if one is short of it. -/
def State.creditAt (s : State) (p : Fin 2) : Option Nat :=
  let x := s.net.port[p]
  let at' (c : Rat) (sl : Rat) (w : Bool) : Option Nat :=
    if w && decide (c < 0) && decide (0 < sl) then some (x.credAt + (-c / sl).ceil.toNat) else none
  match at' x.credA (s.idleSlope p 0) (x.q[(1 : Fin 4)] != []), at' x.credB (s.idleSlope p 1) (x.q[(2 : Fin 4)] != []) with
  | some a, some b => some (min a b)
  | some a, none => some a
  | none, b => b

/-- FRAME_TRANSMIT_DONE (R388): the frame in transmission ends and is counted, and the next one begins; at an idle port a
shaped frame begins when its class has credit. -/
def execFrameTransmitDone (p : Fin 2) (s : State) : Done :=
  match s.net.port[p].cur with
  | some (_, t) =>
    let s1 := (s.waitTill t).credits p
    let x := s1.net.port[p]
    .next ((s1.setPort p { x with cur := none, txf := (x.txf + 1) % 2 ^ 32 }).txKick p)
  | none =>
    match s.creditAt p with
    | some t => .next ((s.waitTill t).txKick p)
    | none => .next (s.txKick p)

/-! ## gPTP (R384, R385) -/

/-- The interval of 2^n s in TCLK cycles. -/
def secCycles (n : Int) : Nat := if 0 ≤ n then 400000000 * 2 ^ n.toNat else 400000000 / 2 ^ n.natAbs

/-- The interval of a signed 4-bit field (R384). -/
def logCycles (f : Nat) : Nat := secCycles (signedOf 4 f)

/-- With EXT_CFG clear and a slave port, the device passes on the grandmaster's priorities. -/
def State.passesOn (s : State) : Bool := s.NET_PTP_CFG_EXT_CFG == 0 && s.slavePort.isSome

/-- The Announce of the device (R384): its own clockClass 248, clockAccuracy 0xFE and priorities, or the grandmaster's. -/
def State.announceFrame (s : State) : TxFrame :=
  let g := s.gmVector
  if s.passesOn then gptpFrame (.announce (g / 2 ^ 192 % 256) (g / 2 ^ 184 % 256) (g / 2 ^ 200 % 256) (g / 2 ^ 160 % 256))
  else gptpFrame (.announce 248 0xFE s.NET_PTP_CFG_PRIO1 s.NET_PTP_CFG_PRIO2)

/-- A master port of a grandmaster-capable device, or of one that passes a grandmaster on, announces (R384), 1 s after its last
Announce: the interval of IEEE 802.1AS (PRESUMED, assumption 7). -/
def State.announce (s : State) (p : Fin 2) : State :=
  let due := match s.net.port[p].annAt with
    | some t => decide (t + 400000000 ≤ s.clk.cyc)
    | none => true
  if (decide (s.NET_PTP_CFG_PRIO1 < 255) || s.passesOn) && due then
    (s.setPort p { s.net.port[p] with annAt := some s.clk.cyc }).enqueue p s.announceFrame
  else s

/-- SYNC_SEND (R384): 2^LOG_SYNC s after its last one, a master port sends a two-step Sync, which its Follow_Up with the egress
time stamp follows as it leaves (R379); an Announce that is due goes first. -/
def execSyncSend (p : Fin 2) (s : State) : Done :=
  if !(s.portUp p && s.portRole p == 2) then .next s
  else
    let s1 := match s.net.port[p].syncAt with
      | some t => s.waitTill (t + logCycles s.NET_PTP_CFG_LOG_SYNC)
      | none => s
    let s2 := (s1.announce p).setPort p { (s1.announce p).net.port[p] with syncAt := some s1.clk.cyc }
    .next (s2.enqueue p (gptpFrame .sync))

/-- PDELAY_REQ_SEND (R384): 2^LOG_PDLY s after its last one, a port sends a Pdelay_Req; one that has not been answered by
then has not succeeded. -/
def execPdelayReqSend (p : Fin 2) (s : State) : Done :=
  if !s.portUp p then .next s
  else
    let s1 := match s.net.port[p].pdlyAt with
      | some t => s.waitTill (t + logCycles s.NET_PTP_CFG_LOG_PDLY)
      | none => s
    let x := s1.net.port[p]
    let s2 := s1.setPort p { x with
      pdlyAt := some s1.clk.cyc, pdlyOk := x.pdlyOk && !x.pdlyWait, pdlyWait := true }
    .next (s2.enqueue p (gptpFrame .pdelayReq))

/-- The device is itself grandmaster: capable (PRIO1 below 255) and without a slave port (R384). -/
def State.isGm (s : State) : Bool := decide (s.NET_PTP_CFG_PRIO1 < 255) && s.slavePort.isNone

/-- SYNC_RELAY (R385): a Sync received on the slave port, with the TIME of its receipt and its correctionField in 2^-16 ns, is sent
on every master port that is asCapable; not while SYNC_LOSS is live. The residence counts in cycles (R378) from the message
time-stamp point at the balls, RX_LAT before the instant stamped (R379). -/
def execSyncRelay (p : Fin 2) (rx correction : Int) (s : State) : Done :=
  let o := otherPort p
  if s.slavePort == some p && s.portRole o == 2 && s.asCapable o && (!(s.fltLive .time).getLsbD 0 || s.isGm) then
    let since := s.cyclesOf (wrapSigned (2 ^ 96) ((s.clk.time : Int) - rx * 2 ^ 32))
    let r : Relay := ⟨s.clk.cyc - since - (s.NET_PORT_LAT_RX_LAT p.val : Nat) * 2 / 5, correction, s.net.port[p].pdly, none⟩
    .next ((s.setPort o { s.net.port[o] with relay := some r }).enqueue o (gptpFrame .relayed))
  else .next s

/-- The outgoing correctionField (R385): the incoming one plus the upstream delay plus the residence time, both converted
by rateRatio and rounded to the nearest 2^-16 ns, ties open. -/
def relayCorrection (r : Relay) (egress rate : Rat) : Int :=
  r.corr + roundNear 39 (((r.delay : Nat) + (egress - r.rx) * 5 / 2) * rate * 65536)

/-- FOLLOW_UP_RELAY (R385): for each relayed Sync that has left, its Follow_Up is sent. -/
def execFollowUpRelay (rate : Rat) (s : State) : Done :=
  let f (st : State) (p : Fin 2) : State :=
    match st.net.port[p].relay with
    | some r => match r.egress with
      | some e => (st.setPort p { st.net.port[p] with relay := none }).enqueue p
          (gptpFrame (.followUp (relayCorrection r e rate)))
      | none => st
    | none => st
  .next (f (f s 0) 1)

/-! ## Reception and forwarding (R386, R387, R391) -/

/-- A number of big-endian bytes. -/
def beNat (l : List Byte) : Nat := leNat l.reverse

/-- Destination address, tag, EtherType and PCP of a frame without FCS. -/
def dstOf (b : List Byte) : Nat := beNat (b.take 6)
def isTagged (b : List Byte) : Bool := beNat ((b.drop 12).take 2) == 0x8100
def payloadOf (b : List Byte) : List Byte := b.drop (if isTagged b then 18 else 14)
def etherType (b : List Byte) : Nat := beNat ((b.drop (if isTagged b then 16 else 12)).take 2)
def pcpOf (b : List Byte) : Option Nat := if isTagged b then some (beNat ((b.drop 14).take 1) / 32) else none

/-- IP and ARP frames, which are forwarded and never received (Table 17.2). -/
def isIp (b : List Byte) : Bool := etherType b == 0x0800 || etherType b == 0x0806 || etherType b == 0x86DD

/-- R386: the destination is the device's, and a gPTP frame has the gPTP EtherType. -/
def State.accepts (s : State) (b : List Byte) : Bool :=
  (dstOf b == s.macAddr && !isIp b) || (dstOf b == 0x0180C200000E && etherType b == 0x88F7)

/-- Frames the subset discards (Table 17.2): longer than 1,522 bytes with FCS, shorter than a header, pause frames. -/
def discards (b : List Byte) : Bool :=
  decide (1522 < b.length + 4) || decide (b.length < 14) || etherType b == 0x8808

/-- RXF or RXDROP counted. -/
def State.countRx (s : State) (p : Fin 2) (drop : Bool) : State :=
  let x := s.net.port[p]
  s.setPort p (if drop then { x with rxdrop := (x.rxdrop + 1) % 2 ^ 32 } else { x with rxf := (x.rxf + 1) % 2 ^ 32 })

/-- messageType, domainNumber and twoStepFlag of a gPTP message, and bytes `o` to `o + n` − 1 of it (IEEE 802.1AS; PRESUMED,
assumption 7). -/
def gptpField (m : List Byte) (o n : Nat) : Nat := beNat ((m.drop o).take n)
def gptpType (m : List Byte) : Nat := gptpField m 0 1 % 16
def gptpDomain (m : List Byte) : Nat := gptpField m 4 1
def gptpTwoStep (m : List Byte) : Bool := (gptpField m 6 1).testBit 1

/-- A gPTP message the subset discards (Table 17.2): of another domain than 0, or a one-step Sync. -/
def gptpDiscards (m : List Byte) : Bool := gptpDomain m != 0 || (gptpType m == 0 && !gptpTwoStep m)

/-- An Announce (type 11) received on port `p`: its priority vector holds for three of its intervals (IEEE 802.1AS; PRESUMED,
assumption 7); one that has gone 255 steps or came from the device itself is not used. -/
def State.announceRx (s : State) (p : Fin 2) (m : List Byte) : State :=
  if gptpType m ≠ 11 ∨ 255 ≤ gptpField m 61 2 ∨ gptpField m 20 8 = s.clockId then s
  else
    let v := gptpField m 47 16 * 2 ^ 80 + gptpField m 20 10
    s.setPort p { s.net.port[p] with annRx := some (v, s.clk.cyc + 3 * secCycles (signedOf 8 (gptpField m 33 1))) }

/-- A gPTP frame received: an Announce is taken into account by the BMCA (R384), a Pdelay_Req (type 2) is answered with its
receipt, and a frame that completes a Pdelay exchange gives the meanLinkDelay `delay` as NET has measured it, from which the mean of
TX_LAT and RX_LAT goes off (R379). -/
def State.gptpRx (s : State) (p : Fin 2) (b : List Byte) (delay : Option Nat) : State :=
  let s1 := (State.announceRx { s with net := { s.net with gptp := s.net.gptp + 1 } } p (payloadOf b))
  let lat : Rat := ((s.NET_PORT_LAT_TX_LAT p.val + s.NET_PORT_LAT_RX_LAT p.val : Nat) : Rat) / 2
  let s2 := match delay with
    | some d => s1.setPort p { s1.net.port[p] with
        pdly := (roundFree 53 ((d : Rat) - lat)).toNat % 2 ^ 32, pdlyOk := true, pdlyWait := false }
    | none => s1
  if gptpType (payloadOf b) = 2 then s2.enqueue p (gptpFrame (.pdelayResp (s.receiptStamp p))) else s2

/-- FRAME_RECEIVE (R383, R386, R391): a frame addressed to the device is counted; a gPTP frame goes to the time-aware functions,
a control frame to Q_49 + n, dropped if it exceeds the record limit. -/
def execFrameReceive (p : Fin 2) (b : List Byte) (delay : Option Nat) (s : State) : Done :=
  if !s.portUp p then .next s
  else if discards b then .next (s.countRx p true)
  else if !s.accepts b then .next s
  else if etherType b = 0x88F7 then
    .next (if gptpDiscards (payloadOf b) then s.countRx p true else (s.countRx p false).gptpRx p b delay)
  else if s.NET_CTL_ETYPE_CTL_EN = 1 ∧ etherType b = s.NET_CTL_ETYPE_CTL_ETYPE ∧ dstOf b = s.macAddr then
    let q : Fin 64 := if p = 0 then 49 else 50
    if (s.que.q[q]).limit < recLen b then .next (s.countRx p true)
    else .next ((s.countRx p false).offer q 9 b)
  else .next (s.countRx p false)

/-- FRAME_FORWARD (R387, R388): a frame that R386 does not accept goes to the other port, in the class its tag names. -/
def execFrameForward (p : Fin 2) (b : List Byte) (fcsOk : Bool) (s : State) : Done :=
  let o := otherPort p
  let fwd := if p = 0 then s.NET_CTRL_FWD_01 == 1 else s.NET_CTRL_FWD_10 == 1
  if !s.portUp p || s.accepts b then .next s
  else if !fcsOk || discards b || !fwd || !s.portUp o then .next (s.countRx p true)
  else
    let c : Fin 4 := match pcpOf b with
      | some v => if v = s.NET_PORT_CLASS_PCP_A o.val then 1 else if v = s.NET_PORT_CLASS_PCP_B o.val then 2 else 3
      | none => 3
    .next ((s.countRx p false).enqueue o ⟨.forward, c, b, max 64 (b.length + 4), 0, 0, false⟩)

/-! ## Links (R389, R390, R395) -/

/-- One lost frame of stream `k` (LOST_CNT). -/
def State.loseFrame (s : State) (k : Fin 8) : State :=
  { s with net := { s.net with str := vupd s.net.str k fun x => { x with lost := min 255 (x.lost + 1) } } }

/-- The stream of a stream frame. -/
def TxFrame.streams (f : TxFrame) : List (Fin 8) := match f.msg with
  | .stream k => [k]
  | _ => []

/-- The stream frames of port `x` that no port can send any more when its link goes down: the one in transmission, and those
waiting of which the other port has no copy that it can send or has sent (R390, Table 17.8). -/
def Port.lostFrames (x : Port) : List (Fin 8) :=
  let cur := match x.cur with
    | some (f, _) => f.streams
    | none => []
  cur ++ (x.q.toList.flatten.filter fun f => !f.also).flatMap TxFrame.streams

/-- The copies at this port of the frames `l`, which waited at the other one, are the only ones left. -/
def Port.forsaken (x : Port) (l : List TxFrame) : Port :=
  let f (g : TxFrame) : TxFrame := if l.any fun e => e.msg == g.msg && e.fid == g.fid then { g with also := false } else g
  { x with q := x.q.map fun w => w.map f }

/-- Port `p` without link: its frames are gone. -/
def State.dropLink (s0 : State) (p : Fin 2) : State :=
  let x := s0.net.port[p]
  let lost := x.lostFrames
  let o := otherPort p
  let s := s0.setPort o ((s0.net.port[o]).forsaken (x.q.toList.flatten.filter fun f => f.streams != []))
  let s1 := s.setPort p { x with
    link := false, pdlyOk := false, pdlyWait := false, syncAt := none, pdlyAt := none, annAt := none, annRx := none
    q := Vector.replicate 4 [], cur := none, credA := 0, credB := 0, credAt := s.clk.cyc, relay := none }
  (lost.foldl State.loseFrame s1).judgeLink p

/-- LINK_DOWN (R395). -/
def execLinkDown (p : Fin 2) (s : State) : Done := .next (s.dropLink p)

/-- Port `p` is one that listen mode keeps enabled while the device sleeps (R443). -/
def State.portListens (s : State) (p : Fin 2) : Bool :=
  s.netOn && s.NET_CTRL_PORT_EN.testBit p.val && (s.pwr.st == .lookout || s.pwr.st == .waking)

/-- LINK_UP (R389, R395): an enabled port with a unicast address gains link. -/
def execLinkUp (p : Fin 2) (s : State) : Done :=
  let x := s.net.port[p]
  if (s.portEn p || s.portListens p) && s.macAddr != 0 then
    .next ((s.setPort p { x with link := true, credAt := if x.link then x.credAt else s.clk.cyc }).judgeLink p)
  else .next s

/-- PORT_EN judged: a port no longer enabled has no link (R395). -/
def State.judgePorts (s : State) : State :=
  let f (st : State) (p : Fin 2) : State := if st.portEn p then st.judgeLink p else st.dropLink p
  f (f s 0) 1

/-- NET_CTRL written: it is judged from release on. A record of the image that a wake applies leaves the links and the frames of
listen mode till then (R86, R443). -/
def State.netCtrlWritten (s : State) : State := if s.boot.released then s.judgePorts else s

/-! ## Streams (R389, R390) -/

/-- MAX_BYTES and MAX_LAT_US in force. -/
def State.maxBytes (s : State) (k : Fin 8) : Nat := min 1476 (s.NET_STR_TIM_MAX_BYTES k.val)
def State.maxLat (s : State) (k : Fin 8) : Nat := usCyc (max 1 (s.NET_STR_TIM_MAX_LAT_US k.val))

/-- Records that follow in a frame that already holds `sum` bytes of ACF messages. -/
def moreRecords (limit sum : Nat) : List RingRec → Nat
  | [] => 0
  | r :: t => if sum + 8 + r.len ≤ limit then moreRecords limit (sum + 8 + r.len) t + 1 else 0

/-- Records of the next frame: as many as fit in MAX_BYTES, at least one (R390). -/
def frameRecords (limit : Nat) : List RingRec → Nat
  | [] => 0
  | r :: t => moreRecords limit (8 + r.len) t + 1

/-- The ACF messages of the records with the lengths `l`, whose bytes are `b` (Table 17.3). -/
def acfMessages (q : Nat) : List Nat → List Byte → List Byte
  | [], _ => []
  | n :: t, b =>
    let r := b.take n
    let seq := leNat (r.take 4)
    beBytes 2 (5 * 512 + (n + 8) / 4) ++ beBytes 6 (q * 2 ^ 40 + seq * 2 ^ 8) ++ r ++ acfMessages q t (b.drop n)

/-- A stream frame for port `p` (Table 17.3). -/
def State.streamBytes (s : State) (k : Fin 8) (p : Fin 2) (acf : List Byte) : List Byte :=
  let n := k.val
  let pcp := if s.NET_STR_CFG_CLASS n = 0 then s.NET_PORT_CLASS_PCP_A p.val else s.NET_PORT_CLASS_PCP_B p.val
  let ts := wrapInt 32 ((s.now.toNat : Int) + signedOf 32 (s.NET_STR_PRES_PRES_OFS n))
  beBytes 2 (s.NET_STR_DST_HI_DST n) ++ beBytes 4 (s.NET_STR_DST_LO_DST n) ++ beBytes 6 s.macAddr ++
    beBytes 2 0x8100 ++ beBytes 2 (pcp * 8192 + s.NET_STR_CFG_VID n) ++ beBytes 2 0x22F0 ++ beBytes 1 5 ++
    beBytes 1 (if s.tim.mr then 0x89 else 0x81) ++ beBytes 1 (s.net.str[k]).seq ++
    beBytes 1 (if s.tim.st = .locked then 0 else 1) ++ beBytes 4 (s.NET_STR_SID_HI_SID n) ++
    beBytes 4 (s.NET_STR_SID_LO_SID n) ++ beBytes 4 ts ++ beBytes 4 0 ++ beBytes 2 acf.length ++ beBytes 2 0 ++ acf

/-- A frame of stream `k` is built from the oldest `c` records (R389, R390). Where the bank of the Landing is not on, NET's reads
complete with ACC_OFF and zeros (R359). -/
def State.buildFrame (s : State) (k : Fin 8) (i : Fin 64) (c : Nat) (oldest : Nat) : State :=
  let q := s.que.q[i]
  let lens := (q.ring.take c).map fun r => r.len
  let bytes := if s.bankOn 0 then ringBytes s.sram q.base q.size q.rptr lens.sum else List.replicate lens.sum 0
  let s0 := if s.bankOn 0 then s else s.fabReport 0 .net (0x10000000 + q.base + q.rptr) false
  let acf := acfMessages i.val lens bytes
  let cls : Fin 4 := if s0.NET_STR_CFG_CLASS k.val = 0 then 1 else 2
  let s1 := if 2 * s0.maxLat k < s0.clk.cyc - oldest then s0.event .net 2 .shared else s0
  let takes (p : Fin 2) : Bool := (s0.NET_STR_CFG_PORTS k.val).testBit p.val && s0.portUp p
  let s2 := (List.finRange 2).foldl (fun st p =>
    if takes p then
      let b := s1.streamBytes k p acf
      st.enqueue p ⟨.stream k, cls, b, max 64 (b.length + 4), 0, (s0.net.str[k]).frames, takes 0 && takes 1⟩
    else st) s1
  let s3 : State := { s2 with net := { s2.net with
    str := vupd s2.net.str k fun x => { x with frames := (x.frames + 1) % 65536, seq := (x.seq + 1) % 256 } } }
  s3.deliver i c

/-- STREAM_FRAME_BUILD (R390): a frame is built when the next record would exceed MAX_BYTES, else when the oldest record has
waited MAX_LAT_US. A halted queue gives none. -/
def execStreamFrameBuild (k : Fin 8) (s : State) : Done :=
  let i : Fin 64 := Fin.ofNat 64 (s.NET_STR_CFG_QUEUE k.val)
  if !s.streamDrains k then .next s
  else
    let s0 := s.descRead i
    let q := s0.que.q[i]
    if q.halted then .next s0
    else match q.ring with
      | [] => .next s0
      | r :: _ =>
        let c := frameRecords (s.maxBytes k) q.ring
        if c < q.ring.length then .next (s0.buildFrame k i c r.cyc)
        else .next ((s0.waitTill (r.cyc + s.maxLat k)).buildFrame k i c r.cyc)

/-- The credits of both ports brought up to the present cycle, before a slope changes. -/
def State.creditsAll (s : State) : State := (s.credits 0).credits 1

/-- NET_PORT_n_CBS (R388): RANGE for more than 750 Mb/s of both classes together. -/
def cbsOk (v : Word) : Bool := decide (v.fld 16 16 + v.fld 0 16 ≤ 7500)

/-- NET without supply: ports, streams and frames are gone (R427). -/
def State.netOff (s : State) : State := { s with net := {} }

end Sys2Proof.Machine
end

