-- ==== Sys2Proof/Machine/Unlock.lean ====
section
/-! DEFINITION. The lock of the registers (R460 to R463): the unlock sequence of SYS_UNLOCK, relocking, timers. -/

namespace Sys2Proof.Machine

/-- The block numbers a BLOCK value names (R461); none for a value that names no block. -/
def unlockMask (blk : Nat) : Option (BitVec 18) :=
  if blk = 0xFF then some (BitVec.allOnes 18)
  else if blk < 18 then some (BitVec.ofNat 18 (2 ^ blk))
  else none

/-- The first write of the unlock sequence, with UNLK_KEY 0x7A5C (R461). -/
def State.unlockFirst (s : State) (blk : Byte) : Status × State :=
  match unlockMask blk.toNat with
  | none => s.only .range
  | some _ => (.ok, { s with unlock := { s.unlock with first := some (blk, s.clk.cyc) } })

/-- The unlock sequence is complete: the first write names the same block and ended at most 10 µs ago, REL_0 and
REL_1 are clear, and the device has released (R461). -/
def State.unlockReady (s : State) (blk : Byte) : Bool :=
  s.boot.released && !s.safe[(0 : Fin 2)].rel && !s.safe[(1 : Fin 2)].rel &&
    match s.unlock.first with
    | some (b, t) => b == blk && decide (s.clk.cyc ≤ t + usCyc 10)
    | none => false

/-- The second write, with UNLK_KEY 0x85A3 (R461): it unlocks the named blocks for UNLK_MS ms (R462), or completes
with DENIED; either way the first write is spent (DESIGN CHOICE, assumption 63, where the BLOCK values differ). -/
def State.unlockSecond (s : State) (blk : Byte) : Status × State :=
  match unlockMask blk.toNat with
  | none => s.only .range
  | some m =>
    let u := { s.unlock with first := none }
    if s.unlockReady blk then
      let till := s.clk.cyc + 1000 * usCyc (max 1 s.SYS_UNLOCK_CFG_UNLK_MS)
      (.ok, { s with unlock := { u with
        blocks := u.blocks ||| m
        expiry := Vector.ofFn fun i => if m.getLsbD i.val then till else u.expiry[i]
        seen := true } })
    else (.denied, { s with unlock := u })

/-- Block `b` is unlocked: UNLK_MS have not passed; a write in the cycle in which it relocks is refused (R462, Table 21.4). -/
def State.isOpen (s : State) (b : Nat) : Bool :=
  s.unlock.blocks.getLsbD b && decide (s.clk.cyc < s.unlock.expiry[Fin.ofNat 18 b])

/-- UNLOCKED of SYS_UNLOCK_STAT. -/
def State.openBlocks (s : State) : BitVec 18 := (List.range 18).foldl (fun m b => bput m b (s.isOpen b)) 0

/-- RELOCK: the named blocks lock at once (R462). -/
def State.relock (s : State) (blk : Byte) : Status × State :=
  match unlockMask blk.toNat with
  | none => s.only .range
  | some m => (.ok, { s with unlock := { s.unlock with blocks := s.unlock.blocks &&& ~~~m } })

/-- Every block locks (R462). -/
def State.relockAll (s : State) : State := { s with unlock := { s.unlock with blocks := 0 } }

/-- A write of SYS_UNLOCK (R461, R462). -/
def State.writeUnlock (s : State) (v : Word) : Status × State :=
  let blk := BitVec.ofNat 8 (v.fld 0 8)
  if v.bit 8 then s.relock blk
  else if v.fld 16 16 = 0x7A5C then s.unlockFirst blk
  else if v.fld 16 16 = 0x85A3 then s.unlockSecond blk
  else (.range, { s with unlock := { s.unlock with first := none } })

/-- UNLOCK_FIRST (R461). -/
def execUnlockFirst (blk : Byte) (s : State) : Done := finish (s.unlockFirst blk)

/-- UNLOCK_SECOND (R461). -/
def execUnlockSecond (blk : Byte) (s : State) : Done := finish (s.unlockSecond blk)

/-- RELOCK (R462). -/
def execRelock (blk : Byte) (s : State) : Done := finish (s.relock blk)

/-- UNLOCK_TIMEOUT (R462): UNLK_MS after the second write the block locks again. -/
def execUnlockTimeout (b : Fin 18) (s : State) : Done :=
  if s.unlock.blocks.getLsbD b.val then
    let s1 := s.waitTill s.unlock.expiry[b]
    .next { s1 with unlock := { s1.unlock with blocks := bput s1.unlock.blocks b.val false } }
  else .next s

/-- UNLOCK_FIRST_EXPIRY (R461): 10 µs after a first write without its second, the sequence is abandoned. -/
def execUnlockFirstExpiry (s : State) : Done :=
  match s.unlock.first with
  | none => .next s
  | some (_, t) =>
    let s1 := s.waitTill (t + usCyc 10 + 1)
    .next { s1 with unlock := { s1.unlock with first := none } }

end Sys2Proof.Machine
end

