-- ==== Sys2Proof/Machine/SafeState.lean ====
section
/-! DEFINITION. Safe state of the drives (R303 to R309, R45): release, gap, DIS latches, the hold of a safe-state
pin, and HI_n, LO_n and STUCK_n raising them. -/

namespace Sys2Proof.Machine

/-- The three conditions of a release request (R307). -/
def State.mayRelease (s : State) (d : Drive) : Bool :=
  (s.holderHalf d).isSome && !s.blocksRelease d && !s.sdm.dis.h0 && !s.sdm.dis.h1

/-- A release request for drive `d` (R307, R308, R462): accepted, it clears SSL_d and sets REL_d in both halves,
relocks every block, and starts REL_GAP if the holder is in ASC form; a gap that runs goes on (R308). -/
def State.relCmd (s : State) (d : Drive) : Status × State :=
  match s.holderHalf d with
  | none => s.only .denied
  | some h =>
    if s.mayRelease d then
      let sd := s.safe[d]
      let fresh := sd.ssl.get h
      let gap := if sd.form.get h && fresh
        then some (s.clk.cyc + usCyc (max 1 (s.SDM_GLB_CFG_REL_GAP h))) else sd.gapUntil
      let sd1 := { sd with
        ssl := ⟨false, false⟩, rel := true, gapUntil := gap, relAt := if fresh then s.clk.cyc else sd.relAt }
      let s1 := { s with safe := vset s.safe d sd1 }
      (.ok, s1.relockAll.voteAll)
    else s.only .denied

/-- A write of SDM_REL_CMD (R307). -/
def State.writeRelCmd (s : State) (v : Word) : Status × State :=
  if v.fld 16 16 = 0x5AFE then s.relCmd (Fin.ofNat 2 (v.fld 0 1)) else s.only .range

/-- REL_CMD (R307): a write of key 0x5AFE for drive `d`. -/
def execRelCmd (d : Drive) (s : State) : Done := finish (s.relCmd d)

/-- REL_GAP_END (R308): REL_GAP µs after SAFE_ASC_d, SAFE_INH_d is released; the drive's safe state ends here (R311). -/
def execRelGapEnd (d : Drive) (s : State) : Done :=
  match s.safe[d].gapUntil with
  | none => .next s
  | some t =>
    let s1 := s.waitTill t
    .next { s1 with safe := vupd s1.safe d fun x => { x with gapUntil := none, relAt := s1.clk.cyc } }.voteAll

/-- DIS_KEY 0xD15C (R309): both DIS latches set, DIS_REQ asserted, both drives in safe state. -/
def State.disSet (s : State) : Status × State :=
  (.ok, ({ s with sdm := { s.sdm with dis := ⟨true, true⟩ } }.setSsl 0).setSsl 1)

/-- DIS_KEY 0xD15D (R309): both latches clear, unless a whole-device source stands while DIS_ON_DEV is set. -/
def State.disClear (s : State) : Status × State :=
  if s.SDM_GLB_CFG_DIS_ON_DEV s.lead = 1 ∧ s.devSafe then s.only .denied
  else (.ok, { s with sdm := { s.sdm with dis := ⟨false, false⟩ } }.voteAll)

/-- A write of SDM_DIS_CMD (R309). -/
def State.writeDisCmd (s : State) (v : Word) : Status × State :=
  if v.fld 0 16 = 0xD15C then s.disSet
  else if v.fld 0 16 = 0xD15D then s.disClear
  else s.only .range

/-- DIS_SET (R309). -/
def execDisSet (s : State) : Done := finish s.disSet

/-- DIS_CLEAR (R309). -/
def execDisClear (s : State) : Done := finish s.disClear

/-- The hold time of the voter, 2.0 to 3.0 µs in TCLK cycles: a free value in that range (R45). -/
def holdCycles (n : Nat) : Nat := 800 + Config.freeBits 1 n % 401

/-- A pin whose hold time has run out takes its default, not sinking (R45). -/
def VPin.expire (p : VPin) : VPin := { p with sink := false }

/-- The pin named by `p`. -/
def State.vpin (s : State) : SafePin → VPin
  | .inh d => s.pads.inh[d]
  | .asc d => s.pads.asc[d]
  | .dis => s.pads.dis

/-- The pin named by `p` replaced. -/
def State.setVpin (s : State) (p : SafePin) (x : VPin) : State :=
  match p with
  | .inh d => { s with pads := { s.pads with inh := vset s.pads.inh d x } }
  | .asc d => { s with pads := { s.pads with asc := vset s.pads.asc d x } }
  | .dis => { s with pads := { s.pads with dis := x } }

/-- SAFE_PIN_HOLD_EXPIRY (R45): beyond the hold time the pin takes its default state. -/
def execSafePinHoldExpiry (p : SafePin) (s : State) : Done :=
  match (s.vpin p).holdUntil with
  | none => .next s
  | some t =>
    let s1 := (s.waitTill (t + holdCycles s.free)).draw
    .next (s1.setVpin p (s1.vpin p).expire)

/-- A source of the fast path or bitstream check of input `n` as the copy of half `h` sees it; `k` is 0 for HI_n,
1 for LO_n, 2 for STUCK_n (R298, R300). A half that is off neither samples nor judges. -/
def State.raiseSdm (s : State) (n : Fin 8) (k : Nat) (h : Half) : State :=
  if s.halfOn h then s.cond .sdm (3 * n.val + k) h.copy true else s

/-- Input `n` is filtered by the copy of half `h`: enabled with a role other than NONE (R294). -/
def State.sdmFiltered (s : State) (h : Half) (n : Fin 8) : Bool :=
  s.SDM_CFG_EN h n.val == 1 && s.SDM_CFG_ROLE h n.val != 0

/-- The input of phase `p` of drive `d`: the lowest-numbered enabled one (R294). PHASE 3 acts as 0. -/
def State.phaseIn (s : State) (h : Half) (d : Drive) (p : Nat) : Option (Fin 8) :=
  (List.finRange 8).find? fun n =>
    s.SDM_CFG_EN h n.val == 1 && s.SDM_CFG_ROLE h n.val == 1 && s.SDM_CFG_DRIVE h n.val == d.val &&
      s.SDM_CFG_PHASE h n.val % 3 == p

/-- Input `n` is used by the copy of half `h`: filtered, and no duplicate of a phase (R294). -/
def State.sdmJudged (s : State) (h : Half) (n : Fin 8) : Bool :=
  s.sdmFiltered h n && (s.SDM_CFG_ROLE h n.val != 1 ||
    s.phaseIn h (Fin.ofNat 2 (s.SDM_CFG_DRIVE h n.val)) (s.SDM_CFG_PHASE h n.val % 3) == some n)

/-- OC_CNT, 1 to 4 (R299). -/
def State.ocCnt (s : State) (h : Half) (n : Fin 8) : Nat := clampNat 1 4 (s.SDM_CFG_OC_CNT h n.val)

/-- SDCLK_k runs: enabled, its half on, its pad not held, the device released (R51, R292). -/
def State.sdclkRuns (s : State) (k : Nat) : Bool :=
  s.boot.released && s.halfOn (Half.byNum k) && !s.pads.heldH.get (Half.byNum k) &&
    (if k = 0 then s.SDM_GLB_CFG_SDCLK_0_EN .h0 == 1 else s.SDM_GLB_CFG_SDCLK_1_EN .h1 == 1)

/-- The level of pad SDCLK_k (R51, R292): held; else low, or high for the first half of each period of the clock that runs. -/
def State.sdclkPad (s : State) (k : Nat) : Bool :=
  if s.pads.heldH.get (Half.byNum k) then s.pads.sdclk.get (Half.byNum k)
  else s.sdclkRuns k && decide (s.clk.cyc % 20 < 10)

/-- HI (R298): D has exceeded HI_THR on OC_CNT consecutive bits. -/
def execHi (n : Fin 8) (h : Half) (s : State) : Done :=
  let x := (s.sdm.inp.get h)[n]
  if s.sdmJudged h n && decide (31 ≤ x.cnt) && decide (s.ocCnt h n ≤ x.hiRun) then .next (s.raiseSdm n 0 h)
  else .next s

/-- LO (R298): D has been below LO_THR on OC_CNT consecutive bits. -/
def execLo (n : Fin 8) (h : Half) (s : State) : Done :=
  let x := (s.sdm.inp.get h)[n]
  if s.sdmJudged h n && decide (31 ≤ x.cnt) && decide (s.ocCnt h n ≤ x.loRun) then .next (s.raiseSdm n 1 h)
  else .next s

/-- STUCK (R300): one level for 32 consecutive bits, or the clock named by CLK_SRC is not running; judged from
release on (R292). -/
def execStuck (n : Fin 8) (h : Half) (s : State) : Done :=
  let x := (s.sdm.inp.get h)[n]
  if s.boot.released && s.sdmJudged h n &&
      (decide (32 ≤ x.sameRun) || !s.sdclkRuns (s.SDM_CFG_CLK_SRC h n.val))
  then .next (s.raiseSdm n 2 h)
  else .next s

end Sys2Proof.Machine
end

