-- ==== Sys2Proof/Machine/Sdm.lean ====
section
/-! DEFINITION. Current sensing and the torque monitor (R292 to R302, R310 to R314): filters, comparators, latches,
records. HI, LO, STUCK and the safe-state commands are in Machine/SafeState.lean. -/

namespace Sys2Proof.Machine

/-! ## Filters (R295, R296) -/

/-- Weight `k` of the fast path: the 31 triangular weights of a sinc2 with OSR 16, sum 256. -/
def fastW (k : Nat) : Int := if k < 31 then (min (k + 1) (31 - k) : Nat) else 0

/-- m(m − 1)/2. -/
def tri (m : Nat) : Int := (m * (m - 1) / 2 : Nat)

/-- Weight `k` of the data path: the 190 weights of a sinc3 with OSR 64, sum 64³. -/
def dataW (k : Nat) : Int := tri (k + 2) - 3 * tri (k - 62) + 3 * tri (k - 126)

/-- The weighted sum of bits, newest first: a 1 counts +1, a 0 −1 (R295). -/
def bitSum (w : Nat → Int) : Nat → List Bool → Int
  | _, [] => 0
  | k, b :: t => (if b then w k else -w k) + bitSum w (k + 1) t

/-- 32,768 × `num` / `den` rounded to nearest, half up, and saturated to 32,767 (R295). -/
def density (num : Int) (den : Nat) : Int := min 32767 ((65536 * num + den) / (2 * den))

/-- D of the fast path, and of the data path, over the bits of an input (R295, Table 13.2). -/
def fastD (bits : List Bool) : Int := density (bitSum fastW 0 (bits.take 31)) 256
def dataD (bits : List Bool) : Int := density (bitSum dataW 0 (bits.take 190)) 262144

/-- The scaled value I of a density (R296). -/
def State.scaleI (s : State) (h : Half) (n : Fin 8) (d : Int) : Int :=
  let o := signedOf 16 (s.SDM_SCALE_OFS h n.val)
  clampInt (-32768) 32767 (freeDiv 34 ((d - o) * (s.SDM_SCALE_GAIN h n.val : Nat)) 16384)

/-- Copy `h` of input `n` replaced. -/
def State.setIn (s : State) (h : Half) (n : Fin 8) (x : SdmIn) : State :=
  { s with sdm := { s.sdm with inp := s.sdm.inp.upd h fun v => vset v n x } }

/-- Copy `h` of input `n`. -/
def State.inAt (s : State) (h : Half) (n : Fin 8) : SdmIn := (s.sdm.inp.get h)[n]

/-- An input after one bit (R295, R298, R300): `hi` and `lo` are the thresholds. -/
def SdmIn.shift (x : SdmIn) (b : Bool) (hi lo : Int) : SdmIn :=
  let l := (b :: x.bits).take 190
  let c := min 190 (x.cnt + 1)
  let f := fastD l
  { x with
    bits := l, cnt := c, fast := f, lastBit := b
    hiRun := if c < 31 then 0 else if hi < f then x.hiRun + 1 else 0
    loRun := if c < 31 then 0 else if f < lo then x.loRun + 1 else 0
    sameRun := if x.cnt ≠ 0 ∧ b = x.lastBit then x.sameRun + 1 else 1 }

/-- One bit into copy `h` of input `n` (R293, R298, R300): sources whose condition has ended stop being live; PEAK follows
the copy that reads show. -/
def State.sdmBit (s : State) (h : Half) (n : Fin 8) (b : Bool) : State :=
  let old := s.inAt h n
  let x := old.shift b (signedOf 16 (s.SDM_THR_HI_THR h n.val)) (signedOf 16 (s.SDM_THR_LO_THR h n.val))
  let s1 := s.setIn h n x
  let s2 := if x.hiRun = 0 then s1.cond .sdm (3 * n.val) h.copy false else s1
  let s3 := if x.loRun = 0 then s2.cond .sdm (3 * n.val + 1) h.copy false else s2
  let s4 := if old.cnt ≠ 0 ∧ b ≠ old.lastBit then s3.cond .sdm (3 * n.val + 2) h.copy false else s3
  if h = s.lead then
    let p := max (s4.sdm.peak[n]) x.fast.natAbs
    { s4 with sdm := { s4.sdm with peak := vset s4.sdm.peak n p } }
  else s4

/-- Copy `h` samples input `n` on clock `k`, through a receiver that is connected (R48, R52). -/
def State.sdmTakes (s : State) (k : Fin 2) (h : Half) (n : Fin 8) : Bool :=
  s.halfOn h && s.sdmFiltered h n && s.SDM_CFG_CLK_SRC h n.val == k.val && !s.pads.sdiOff.get h

/-- SMP_DLY of input `n` in TCLK cycles (R293). -/
def State.smpDly (s : State) (h : Half) (n : Fin 8) : Nat := min 19 (s.SDM_CFG_SMP_DLY h n.val)

/-- Input `n` takes triggers: a half is on and the input used (R285, R294). -/
def State.canSample (s : State) (n : Fin 8) : Bool := s.halfOn s.lead && s.sdmJudged s.lead n

/-- Input `n` can latch: it takes triggers and its data path is full (R297). -/
def State.canLatch (s : State) (n : Fin 8) : Bool := s.canSample n && decide (190 ≤ (s.inAt s.lead n).cnt)

/-- Input `n` of a trigger has neither latched nor dropped it. -/
def SdmPend.lacks (p : SdmPend) (n : Fin 8) : Bool :=
  p.mask.getLsbD n.val && !p.lost.getLsbD n.val && !p.got.any fun g => g.1 == n

/-- What waits at input `n` latches I at the sample edge of cycle `e`: every trigger that has arrived by then and has no value of
the input yet; a data path that is not full drops it at that edge (R297). -/
def State.latchIn (s : State) (n : Fin 8) (e : Nat) : State :=
  let h := s.lead
  let v := s.scaleI h n (dataD (s.inAt h n).bits)
  let f (p : SdmPend) : SdmPend :=
    if p.lacks n && decide (p.cyc ≤ e) then
      if s.canLatch n then { p with got := p.got ++ [(n, v)] } else { p with lost := bput p.lost n.val true }
    else p
  { s with sdm := { s.sdm with pendLatch := s.sdm.pendLatch.map f } }

/-- Copy `h` takes the sample of input `n` if its edge is `dl` cycles after the strobe of cycle `t`; the copy that reads show
serves the latches. -/
def State.takeSample (s : State) (k : Fin 2) (h : Half) (t dl : Nat) (n : Fin 8) (b : Bool) : State :=
  if s.sdmTakes k h n && s.smpDly h n == dl then
    let s1 := s.sdmBit h n b
    if h = s.lead then s1.latchIn n (t + dl) else s1
  else s

/-- The sample edges `dl` cycles after the strobe of clock `k` at cycle `t` (R293). -/
def State.sampleAt (s : State) (k : Fin 2) (bits : Byte) (t dl : Nat) : State :=
  let due (h : Half) := (List.finRange 8).any fun n => s.sdmTakes k h n && s.smpDly h n == dl
  if due .h0 || due .h1 then
    (List.finRange 8).foldl (fun st n =>
      (st.takeSample k .h0 t dl n (bits.getLsbD n.val)).takeSample k .h1 t dl n (bits.getLsbD n.val)) (s.waitTill (t + dl))
  else s

/-- A bitstream clock that runs now and did not in `old` strobes from this cycle on (R292). -/
def State.sdclkFrom (s old : State) : State :=
  let nxt (k : Fin 2) : Nat := if s.sdclkRuns k.val && !old.sdclkRuns k.val then s.clk.cyc else s.sdm.next[k]
  { s with sdm := { s.sdm with next := Vector.ofFn nxt } }

/-- SDM_BIT_SAMPLE (R292, R293): at the latest strobe of SDCLK_k, or at the next one once it has been taken, each half samples
its inputs on that clock, each input SMP_DLY after the strobe. -/
def execSdmBitSample (k : Fin 2) (bits : Byte) (s : State) : Done :=
  if !s.sdclkRuns k.val then .next s
  else
    let t := (max (s.clk.cyc - 19) s.sdm.next[k] + 19) / 20 * 20
    let s0 := s.waitTill t
    let s1 : State := { s0 with sdm := { s0.sdm with next := vset s0.sdm.next k (t + 1) } }
    .next ((List.range 20).foldl (fun st dl => st.sampleAt k bits t dl) s1)

/-! ## Torque monitor (R302, R310, R311) -/

/-- The latest I of an input of copy `h`; 0 without one. -/
def State.phaseI (s : State) (h : Half) (n : Option (Fin 8)) : Int :=
  match n with
  | none => 0
  | some i => (s.inAt h i).decI

/-- STUCK_n is live. -/
def State.stuckLive (s : State) (n : Fin 8) : Bool := (s.fltLive .sdm).getLsbD (3 * n.val + 2)

/-- The reference of R310, and whether it is valid (R311). -/
def State.torqueRef (s : State) (h : Half) (d : Drive) : Rat × Bool :=
  if s.SDM_TQ_CFG_REF_SRC h d.val = 0 then
    ((signedOf 32 (s.SDM_TQ_CMD_TQ_CMD h d.val) : Rat), !(s.fltLive .sdm).getLsbD (26 + d.val))
  else
    let y := s.aux.slot[Fin.ofNat 16 (s.SDM_TQ_CFG_TQ_AUX h d.val)]
    ((y.p : Rat) * (signedOf 32 (s.SDM_TQ_AUXG_AUX_GAIN h d.val) : Rat) / 65536, y.tag.getLsbD 0)

/-- HOLD_WHY (R311): bit 0 disabled, 1 current, 2 angle, 3 safe state or settle, 4 reference. The drive's safe state is asserted
until a gap has ended (R308). -/
def State.holdWhy (s : State) (h : Half) (d : Drive) : BitVec 5 :=
  let ph := (List.range 3).map (s.phaseIn h d)
  let inBad (n : Fin 8) := s.stuckLive n || decide ((s.inAt h n).outs < 3)
  let cur := (s.phaseIn h d 0).isNone || (s.phaseIn h d 1).isNone || (ph.filterMap id).any inBad
  let ang := match s.ownChan d h with
    | none => true
    | some c => let t := (s.publishedAt c s.clk.cyc).tag; !tagValid t || tagAcq t || tagCoast t
  let sd := s.safe[d]
  let safe := sd.ssl.h0 || sd.ssl.h1 || sd.gapUntil.isSome ||
    decide (s.clk.cyc < sd.relAt + usCyc (s.SDM_TQ_TIME_SETTLE_US h d.val))
  bput (bput (bput (bput (bput 0 0 (s.SDM_TQ_CFG_EN h d.val != 1)) 1 cur) 2 ang) 3 safe) 4 (!(s.torqueRef h d).2)

/-- The estimate of one output: id, iq and the torque t (R310), at th turns. -/
def torqueOf (ia ib ic kt kr th : Rat) : Rat × Rat × Rat :=
  let al := (2 * ia - ib - ic) / 3
  let be := (ib - ic) / sqrtT 3
  let id := al * cosT th + be * sinT th
  let iq := -al * sinT th + be * cosT th
  (id, iq, kt * iq / 4096 + kr * id * iq / 16777216)

/-- A rounded result in an `w`-bit signed field; outside the field's range the spec states no value, so it is open. -/
def fitFree (point w n : Nat) (x : Rat) : Int :=
  let v := roundFree point x
  if -(2 ^ (w - 1) : Int) ≤ v ∧ v < 2 ^ (w - 1) then v else signedOf w (Config.freeBits point n)

/-- The inputs of the three phases of drive `d` that are enabled. -/
def State.phaseIns (s : State) (h : Half) (d : Drive) : List (Fin 8) := (List.range 3).filterMap (s.phaseIn h d)

/-- The phase sum of drive `d` is evaluated: three phases, none of them with STUCK_n live (R302). -/
def State.phsumJudged (s : State) (h : Half) (d : Drive) : Bool :=
  (s.phaseIns h d).length == 3 && !(s.phaseIns h d).any s.stuckLive

/-- One evaluation of the torque monitor of drive `d` in copy `h` (R302, R310, R311). The count of the copy that does not
hold the drive returns to zero by itself; the holder's stays for TQ_DEV. -/
def State.tqEval (s : State) (h : Half) (d : Drive) : TqCopy :=
  let x := (s.sdm.tq.get h)[d]
  let pa := s.phaseIn h d 0
  let pb := s.phaseIn h d 1
  let pc := s.phaseIn h d 2
  let ia := s.phaseI h pa
  let ib := s.phaseI h pb
  let ic := if pc.isSome then s.phaseI h pc else -ia - ib
  let th : Rat := (match s.ownChan d h with
    | none => 0
    | some c =>
      let p := s.publishedAt c s.clk.cyc
      (p.predict (((s.clk.cyc : Rat) - (p.cyc : Rat)) * 5 / 2 - 4725)).1) / 2 ^ 24 -
    (s.SDM_TQ_ROT_ROT_OFS h d.val : Nat) / 2 ^ 24
  let r := torqueOf ia ib ic (signedOf 16 (s.SDM_TQ_K_KT h d.val)) (signedOf 16 (s.SDM_TQ_K_KR h d.val)) (wrap01 th)
  let ref := (s.torqueRef h d).1
  let why := s.holdWhy h d
  let k : Rat := 2 ^ s.SDM_TQ_CFG_TQ_FILT h d.val
  let est := if why ≠ 0 then r.2.2 else x.est + (r.2.2 - x.est) / k
  let refF := if why ≠ 0 then ref else x.refF + (ref - x.refF) / k
  let lim : Rat := (s.SDM_TQ_WIN_WIN_ABS h d.val : Nat) + (s.SDM_TQ_WIN_WIN_REL h d.val : Nat) * |refF| / 1024
  let cnt := if why ≠ 0 then 0 else if lim < |est - refF| then x.devCnt + 1 else 0
  let full := decide (max 1 (s.SDM_TQ_CHK_TQ_CNT h d.val) ≤ cnt)
  let beyond := s.phsumJudged h d && decide ((s.SDM_TQ_CHK_SUM_TOL h d.val : Nat) < (ia + ib + ic).natAbs)
  { x with
    id := fitFree 35 16 s.free r.1, iq := fitFree 36 16 s.free r.2.1, est := est, refF := refF
    devCnt := if full && !s.holds d h then 0 else cnt
    holdWhy := why, sumRun := if beyond then x.sumRun + 1 else 0, evals := x.evals + 1 }

/-- Payload of a torque record (TYPE 2, Table 13.6). -/
def State.torqueBytes (s : State) (h : Half) (d : Drive) (x : TqCopy) : List Byte :=
  [2] ++ leBytes 1 d.val ++ leBytes 1 x.holdWhy.toNat ++ leBytes 1 h.num ++ leBytes 2 (wrapInt 16 x.id) ++
    leBytes 2 (wrapInt 16 x.iq) ++ leBytes 4 (wrapInt 32 (fitFree 37 32 s.free x.est)) ++
    leBytes 4 (wrapInt 32 (fitFree 38 32 s.free x.refF)) ++ leBytes 8 s.now.toNat

/-- One evaluation with its record and the end of PHSUM (R302, R313): PHSUM_d stays live while STUCK_n keeps the sum from being
evaluated (assumption 58). -/
def State.tqStep (s : State) (h : Half) (d : Drive) : State :=
  if !s.halfOn h then s
  else
    let x := s.tqEval h d
    let s1 : State := { s with sdm := { s.sdm with tq := s.sdm.tq.upd h fun v => vset v d x } }
    let ends := x.sumRun == 0 && (s.phsumJudged h d || (s.phaseIns h d).length != 3)
    let s2 := if ends then s1.cond .sdm (28 + d.val) h.copy false else s1
    let div := s.SDM_TQ_CFG_LOG_DIV h d.val
    if s.holds d h && decide (div ≠ 0) && decide (x.evals % div = 0) then
      s2.offer (Fin.ofNat 64 (35 + d.val)) 6 (s2.torqueBytes h d x)
    else s2

/-- The decimated output of copy `h` of input `n` (R295). -/
def State.decimate (s : State) (h : Half) (n : Fin 8) : State :=
  if s.halfOn h && s.sdmFiltered h n then
    let x := s.inAt h n
    let d := dataD x.bits
    s.setIn h n { x with decD := d, decI := s.scaleI h n d, outs := x.outs + 1 }
  else s

/-- The copies' outputs compared, for the inputs that both filter; suspended while a half is off (R301). -/
def State.filtCompare (s : State) : State :=
  let both := s.halfOn .h0 && s.halfOn .h1
  let f (n : Fin 8) : Nat :=
    if both && s.sdmFiltered .h0 n && s.sdmFiltered .h1 n && (s.inAt .h0 n).decD != (s.inAt .h1 n).decD
    then s.sdm.mis[n] + 1 else 0
  { s with sdm := { s.sdm with mis := Vector.ofFn f } }

/-- SDM_DECIMATED_OUTPUT (R295, R310): at the next strobe of the common grid, every 64 strobes since the end of internal
reset, every input of both halves has its output, and the torque monitors run. -/
def execSdmDecimatedOutput (s : State) : Done :=
  if !s.boot.released then .next s
  else
    let t := (max s.clk.cyc s.sdm.decNext + 1279) / 1280 * 1280
    let s0 := s.waitTill t
    let s1 : State := { s0 with sdm := { s0.sdm with decNext := t + 1 } }
    let s2 := (List.finRange 8).foldl (fun st n => (st.decimate .h0 n).decimate .h1 n) s1
    .next ((((s2.filtCompare.tqStep .h0 0).tqStep .h0 1).tqStep .h1 0).tqStep .h1 1).draw

/-- FILT_MIS (R301): the copies' outputs of an input have differed on two consecutive outputs; the second of them is the first
of a next pair. -/
def execFiltMis (s : State) : Done :=
  if s.sdm.mis.toList.any fun n => decide (2 ≤ n) then
    .next ({ s with sdm := { s.sdm with mis := s.sdm.mis.map fun n => min 1 n } }.event .sdm 30 .shared)
  else .next s

/-- PHSUM (R302): |S| has exceeded SUM_TOL on SUM_CNT consecutive outputs of copy `h`. -/
def execPhsum (d : Drive) (h : Half) (s : State) : Done :=
  let x := (s.sdm.tq.get h)[d]
  if s.halfOn h && decide (max 1 (s.SDM_TQ_CHK_SUM_CNT h d.val) ≤ x.sumRun) then
    .next (s.cond .sdm (28 + d.val) h.copy true)
  else .next s

/-- TQ_DEV (R310): the holder's copy has counted TQ_CNT deviations; the source is raised and the count starts again. -/
def execTqDev (d : Drive) (s : State) : Done :=
  match s.holderHalf d with
  | none => .next s
  | some h =>
    let x := (s.sdm.tq.get h)[d]
    if max 1 (s.SDM_TQ_CHK_TQ_CNT h d.val) ≤ x.devCnt then
      let s1 : State := { s with sdm := { s.sdm with tq := s.sdm.tq.upd h fun v => vset v d { x with devCnt := 0 } } }
      .next (s1.event .sdm (24 + d.val) h.copy)
    else .next s

/-! ## Torque command (R312) -/

/-- Address of a torque register of drive `d`, and of a register of input `n`. -/
def tqAddr (d : Drive) (off : Nat) : Nat := 0xA0200 + d.val * 0x40 + off
def sdmAddr (n : Fin 8) (off : Nat) : Nat := 0xA0100 + n.val * 0x20 + off

/-- TQ_STALE_d in the copies of both halves. -/
def State.staleCond (s : State) (d : Drive) (v : Bool) : State :=
  let s1 := if s.halfOn .h0 then s.cond .sdm (26 + d.val) .h0 v else s
  if s.halfOn .h1 then s1.cond .sdm (26 + d.val) .h1 v else s1

/-- The timer of R312 starts again. -/
def State.restartTq (s : State) (d : Drive) : State :=
  { s with sdm := { s.sdm with tqTimer := vset s.sdm.tqTimer d s.clk.cyc } }

/-- TQ_STALE (R312): CMD_TMO µs without a write of the command, with EN set and REF_SRC 0. -/
def execTqStale (d : Drive) (s : State) : Done :=
  let h := s.lead
  if s.boot.released && s.SDM_TQ_CFG_EN h d.val == 1 && s.SDM_TQ_CFG_REF_SRC h d.val == 0 then
    .next ((s.waitTill (s.sdm.tqTimer[d] + usCyc (max 1 (s.SDM_TQ_TIME_CMD_TMO h d.val)))).staleCond d true)
  else .next s

/-- A write of SDM_TQ_d_CMD (R312). -/
def State.writeTqCmd (s : State) (d : Drive) (v : Word) : State :=
  ((s.setDup (tqAddr d 0x1C) v).restartTq d).staleCond d false

/-- TQ_CMD_WRITE (R312). -/
def execTqCmdWrite (d : Drive) (v : Word) (s : State) : Done :=
  finish (s.dup (tqAddr d 0x1C) (.ok, s.writeTqCmd d v))

/-- PEAK of every input cleared (SDM_CTRL). -/
def State.sdmPeakClr (s : State) : State := { s with sdm := { s.sdm with peak := Vector.replicate 8 0 } }

/-- SDM_PEAK_CLR. -/
def execSdmPeakClr (s : State) : Done := finish (s.dup 0xA0058 (.ok, s.sdmPeakClr))

/-- HI_n, LO_n and STUCK_n of copy `h` end. -/
def State.sdmQuiet (s : State) (h : Half) (n : Fin 8) : State :=
  (List.range 3).foldl (fun st k => st.cond .sdm (3 * n.val + k) h.copy false) s

/-- SDM_n_CFG written, from `old`: an input that EN newly enables starts with empty filters (R292, R311); the sources of an
input that is judged no longer end (R294; DESIGN CHOICE, assumption 58: no bit of it comes to end them). -/
def State.sdmCfgWritten (s : State) (n : Fin 8) (old : Word) : State :=
  let f (st : State) (h : Half) : State :=
    let st1 := if (st.regH h (sdmAddr n 0)).bit 0 && !old.bit 0 then st.setIn h n {} else st
    if st1.sdmJudged h n then st1 else st1.sdmQuiet h n
  f (f s .h0) .h1

/-- SDM_TQ_d_CFG written: the timer of R312 starts at the write of EN. -/
def State.tqCfgWritten (s : State) (d : Drive) (old : Word) : State :=
  if (s.regH s.lead (tqAddr d 0)).bit 0 && !old.bit 0 then s.restartTq d else s

/-! ## Latches (R297, R313, R314) -/

/-- An SDM_TRIG with the inputs of `mask` arrives at SDM from slot `i` at cycle `c` (R297): triggers of one instant are
joined. -/
def State.sdmTrig (s : State) (i : Fin 256) (mask : BitVec 8) (c : Nat) (t : BitVec 64) : State :=
  let l := s.sdm.pendLatch
  let l1 := match l.getLast? with
    | some p => if p.cyc = c then l.dropLast ++ [{ p with mask := p.mask ||| mask, src := p.src ++ [(i, mask)] }]
        else l ++ [⟨t, c, mask, [(i, mask)], [], 0⟩]
    | none => [⟨t, c, mask, [(i, mask)], [], 0⟩]
  if mask = 0 then s else { s with sdm := { s.sdm with pendLatch := l1 } }

/-- DROP_CNT of slot `i` counts one dropped trigger (R285). -/
def State.dropTrig (s : State) (i : Fin 256) : State :=
  s.setSlot i { s.aev.slot[i] with drop := min 63 (s.aev.slot[i].drop + 1) }

/-- Payload of a latch record (TYPE 1, Table 13.6). -/
def latchBytes (drv : Nat) (t : BitVec 64) (g : List (Fin 8 × Int)) : List Byte :=
  let vals := (g.map fun x => leBytes 2 (wrapInt 16 x.2)).flatten
  [1] ++ leBytes 1 drv ++ leBytes 1 (g.foldl (fun m x => m + 2 ^ x.1.val) 0) ++ leBytes 1 0 ++
    (vals ++ List.replicate 8 0).take 8 ++ leBytes 4 0 ++ leBytes 8 t.toNat

/-- The records of one queue for the latched values `l`, four a record, in ascending order (R314). -/
def State.latchRecords (s : State) (q : Fin 64) (drv : Nat) (t : BitVec 64) (l : List (Fin 8 × Int)) : State :=
  if l = [] then s
  else
    let s1 := s.offer q 6 (latchBytes drv t (l.take 4))
    if l.drop 4 = [] then s1 else s1.offer q 6 (latchBytes drv t (l.drop 4))

/-- Input `n` of a trigger waits for its sample edge: its clock runs and it takes triggers. -/
def State.latchWaits (s : State) (p : SdmPend) (n : Fin 8) : Bool :=
  p.lacks n && s.canSample n && s.sdclkRuns (s.SDM_CFG_CLK_SRC s.lead n.val)

/-- Input `n` of a trigger has no sample edge while its clock stands; it waits for the clock (assumption 58). -/
def State.latchStands (s : State) (p : SdmPend) (n : Fin 8) : Bool :=
  p.lacks n && s.canSample n && !s.sdclkRuns (s.SDM_CFG_CLK_SRC s.lead n.val)

/-- The trigger to input `n` is dropped: at its sample edge, or because the input takes none (R285, R297). -/
def State.latchDrops (s : State) (p : SdmPend) (n : Fin 8) : Bool :=
  p.mask.getLsbD n.val && (p.lost.getLsbD n.val || (p.lacks n && !s.canSample n))

/-- Every input of the trigger has latched, is dropped or has no clock, and at least one has latched or is dropped. -/
def State.latchReady (s : State) (p : SdmPend) : Bool :=
  (List.finRange 8).all (fun n => !s.latchWaits p n) &&
    (List.finRange 8).any fun n => p.mask.getLsbD n.val && !s.latchStands p n

/-- What is left of a trigger once its latched inputs have been recorded: the inputs without a clock. -/
def State.latchRest (s : State) (p : SdmPend) : Option SdmPend :=
  let m := (List.finRange 8).foldl (fun w n => bput w n.val (s.latchStands p n)) (0 : BitVec 8)
  if m = 0 then none else some { p with mask := m, got := [], lost := 0 }

/-- The latched values shown in SDM_n_LATCH, each with the TIME of the event edge (R297). -/
def State.latchShow (s : State) (p : SdmPend) : State :=
  p.got.foldl (fun st g => { st with sdm := { st.sdm with
    latch := vset st.sdm.latch g.1 g.2, latTime := vset st.sdm.latTime g.1 p.time } }) s

/-- The oldest trigger that is complete, and those beside it with what is left of it. -/
def State.latchTake (s : State) : List SdmPend → Option (SdmPend × List SdmPend)
  | [] => none
  | p :: t =>
    if s.latchReady p then some (p, (s.latchRest p).toList ++ t)
    else (s.latchTake t).map fun r => (r.1, p :: r.2)

/-- SDM_LATCH (R297, R313): the oldest trigger all of whose inputs have had their sample edge: their values show in
SDM_n_LATCH and are recorded, in ascending order; a trigger that an input has dropped is counted. -/
def execSdmLatch (s : State) : Done :=
  match s.latchTake s.sdm.pendLatch with
  | none => .next s
  | some (p, rest) =>
    let s1 : State := { s with sdm := { s.sdm with pendLatch := rest } }
    let l := (List.finRange 8).filterMap fun n => p.got.find? fun g => g.1 == n
    let lost (m : BitVec 8) := (List.finRange 8).any fun n => m.getLsbD n.val && s.latchDrops p n
    let s2 := s1.latchShow p
    let s3 := p.src.foldl (fun st x => if lost x.2 then st.dropTrig x.1 else st) s2
    let role (n : Fin 8) := s.SDM_CFG_ROLE s.lead n.val
    let ph (d : Nat) := l.filter fun g => role g.1 == 1 && s.SDM_CFG_DRIVE s.lead g.1.val == d
    let oth := l.filter fun g => role g.1 != 1
    .next (((s3.latchRecords 32 0 p.time (ph 0)).latchRecords 33 1 p.time (ph 1)).latchRecords 34 0xFF p.time oth)

end Sys2Proof.Machine
end

