-- ==== Sys2Proof/Machine/Recorder.lean ====
section
/-! DEFINITION. The flight recorder (R392, R393). -/

namespace Sys2Proof.Machine

/-- Recorder `n` replaced. -/
def State.setFrec (s : State) (n : Fin 8) (f : Frec) : State := { s with frec := vset s.frec n f }

/-- Address of a register of recorder `n`. -/
def frecAddr (n : Fin 8) (off : Nat) : Nat := 0xE0100 + n.val * 0x20 + off

/-- ARM is admissible for recorder `n` (R392). -/
def State.frecRangeOk (s : State) (n : Fin 8) : Bool :=
  let b := s.FREC_BASE_BASE n.val
  b % 32 == 0 && decide (0x80000 ≤ b) && decide (b + 32 * max 1 (s.FREC_LEN_ENTRIES n.val) ≤ 0x800000)

/-- ARM (R392, R393): the ring restarts in ARMED with the configuration as it stands, from any state. -/
def State.frecArm (s : State) (n : Fin 8) : Status × State :=
  if s.frecRangeOk n then
    (.ok, s.setFrec n { s.frec[n] with
      st := .armed, cfg := s.reg (frecAddr n 0), base := s.FREC_BASE_BASE n.val
      len := max 1 (s.FREC_LEN_ENTRIES n.val), src := s.reg (frecAddr n 0xC)
      ticks := 0, due := none, next := 0, total := 0, last := none, post := 0, pend := 0 })
  else s.only .range

/-- DISARM (R393). -/
def State.frecDisarm (s : State) (n : Fin 8) : State :=
  s.setFrec n { s.frec[n] with st := .off, due := none, pend := 0 }

/-- The trigger that waits at an armed recorder is taken (R393): POST, with TRIG_TIME, CAUSE and the index of the last entry
written; without one that index is open. -/
def State.frecTake (s : State) (n : Fin 8) : State :=
  let f := s.frec[n]
  let idx := f.last.getD (Config.freeBits 61 s.free % 2 ^ 32)
  (s.setFrec n { f with st := .post, cause := f.pend, time := f.pendTime, pend := 0, post := 0, trigIdx := idx }).draw

/-- TRIG (R393): a firmware trigger, ignored unless the recorder is armed or has just been triggered. -/
def State.frecTrig (s : State) (n : Fin 8) : State :=
  let f := s.frec[n]
  let s1 := s.setFrec n (f.offer 2 s.now s.clk.cyc)
  if f.st = .armed then s1.frecTake n else s1

/-- A write of FREC_n_CTRL: TRIG, then ARM, then DISARM, where several come in one word (DESIGN CHOICE, assumption 63: the spec
gives no order); a refused ARM refuses the whole word. -/
def State.writeFrecCtrl (s : State) (n : Fin 8) (v : Word) : Status × State :=
  if v.bit 0 && !s.frecRangeOk n then s.only .range
  else
    let s1 := if v.bit 2 then s.frecTrig n else s
    let r := if v.bit 0 then s1.frecArm n else (.ok, s1)
    if v.bit 1 then (r.1, r.2.frecDisarm n) else r

/-- ARM. -/
def armRec (n : Fin 8) (s : State) : Done := finish (s.frecArm n)

/-- DISARM. -/
def disarmRec (n : Fin 8) (s : State) : Done := finish (.ok, s.frecDisarm n)

/-- TRIG. -/
def execTrig (n : Fin 8) (s : State) : Done := finish (.ok, s.frecTrig n)

/-- The bit of CAUSE of a trigger (Table 17.7). -/
def TrigCause.bit : TrigCause → Nat
  | .aev => 0
  | .fault => 1
  | .firmware => 2

/-- FREC_TRIGGER (R393): a trigger of the given source that has reached an armed recorder moves it to POST. -/
def execFrecTrigger (n : Fin 8) (c : TrigCause) (s : State) : Done :=
  let f := s.frec[n]
  if f.st == .armed && f.pend.getLsbD (TrigCause.bit c) then .next (s.frecTake n) else .next s

/-- An entry of a recorder with SRC `src` (Table 17.6). -/
def State.frecBytes (s : State) (src : Word) : List Byte :=
  let p := s.pch[Fin.ofNat 8 (src.fld 0 3)].pub
  let ins := ((List.finRange 8).filter fun n => src.bit (8 + n.val)).take 4
  let vals := (ins.map fun n => leBytes 2 (wrapInt 16 (s.inAt s.lead n).decI)).flatten
  let hold (d : Drive) : Nat := match s.holder d with
    | .none => 0 | .h0 => 1 | .h1 => 2 | .both => 3
  let ssl (d : Drive) : Nat := if s.safe[d].ssl.h0 || s.safe[d].ssl.h1 then 1 else 0
  leBytes 8 s.now.toNat ++ leBytes 4 (angWord p.ang p.tag).toNat ++ leBytes 4 (wrapInt 32 p.spd) ++
    (vals ++ List.replicate 8 0).take 8 ++
    leBytes 4 (hold 0 + 4 * hold 1 + 16 * ssl 0 + 32 * ssl 1 + 64 * (if s.devSafe then 1 else 0)) ++ leBytes 4 p.turns

/-- The place of an entry passes, written or not (R392). -/
def Frec.advance (f : Frec) (written : Bool) : Frec :=
  { f with
    next := (f.next + 1) % f.len, total := f.total + 1, due := none
    last := if written then some f.next else f.last
    drop := if written then f.drop else min 65535 (f.drop + 1)
    post := if f.st = .post then f.post + 1 else f.post }

/-- A recorder takes entries: ARMED, or POST with entries left (R392, R393). -/
def Frec.takes (f : Frec) : Bool := f.st == .armed || (f.st == .post && decide (f.post < f.cfg.fld 16 16))

/-- One tick for recorder `n` (R392): every DIV ticks an entry falls due; one not written by then is dropped. -/
def State.frecTick (s : State) (n : Fin 8) : State :=
  let f := s.frec[n]
  if !f.takes then s
  else if f.ticks + 1 < max 1 (f.cfg.fld 8 8) then s.setFrec n { f with ticks := f.ticks + 1 }
  else
    let f1 := if f.due.isSome then f.advance false else f
    s.setFrec n { f1 with ticks := 0, due := if f1.takes then some (s.frecBytes f.src) else none }

/-- FREC_ENTRY (R392): the Yarder writes the entry that is due into the ring, or it is dropped; dropped also where the bank
is not on, which the Yarder's write meets with ACC_OFF (R359). -/
def execFrecEntry (n : Fin 8) (written : Bool) (s : State) : Done :=
  let f := s.frec[n]
  match f.due with
  | none => .next s
  | some b =>
    let off := f.base + 32 * f.next
    let ok := written && s.bankOn (bankOf off)
    let s1 := if ok then s.sramPut off b else if written then s.fabReport 0 .yarder (0x10000000 + off) true else s
    .next (s1.setFrec n ((s1.frec[n]).advance ok))

/-- Payload of the record of a frozen recorder (Table 17.7). -/
def Frec.bytes (f : Frec) (n : Fin 8) : List Byte :=
  leBytes 1 n.val ++ leBytes 1 f.cause.toNat ++ leBytes 2 0 ++ leBytes 4 (if f.total ≤ f.len then 0 else f.next) ++
    leBytes 4 (min f.total f.len) ++ leBytes 4 f.trigIdx ++ leBytes 4 f.base ++ leBytes 4 0 ++ leBytes 8 f.time.toNat

/-- FREC_FREEZE (R393): after POST entries the recorder freezes, and its record is written. -/
def execFrecFreeze (n : Fin 8) (s : State) : Done :=
  let f := s.frec[n]
  if f.st == .post && decide (f.cfg.fld 16 16 ≤ f.post) then
    let f1 := { f with st := .frozen, due := none }
    .next ((s.setFrec n f1).offer (Fin.ofNat 64 (40 + n.val)) 7 (f1.bytes n))
  else .next s

/-- The banks a recorder that is not OFF votes for (R392). -/
def Frec.votes (f : Frec) : BitVec 8 :=
  if f.st = .off then 0
  else (List.range 8).foldl (fun m b =>
    bput m b (decide (f.base < (b + 1) * 0x100000 ∧ b * 0x100000 < f.base + 32 * f.len))) 0

end Sys2Proof.Machine
end

