-- ==== Sys2Proof/Machine/Tick.lean ====
section
/-! DEFINITION. The angle tick (R25, Table 1.3): every channel, the cross-monitor, snapshots (R418), recorders and the
ratiometric outputs; and the arrival of internal triggers at their targets (R284, R285). -/

namespace Sys2Proof.Machine

/-! ## Snapshots (R418) -/

/-- The five words of a published set that a snapshot carries (Table 18.7). -/
def Pub.snapWords (p : Pub) : List Word :=
  [angWord p.ang p.tag, BitVec.ofInt 32 p.spd, BitVec.ofInt 32 p.acc, angWord p.mang p.tag, BitVec.ofNat 32 p.turns]

/-- Words as little-endian bytes. -/
def wordBytes (l : List Word) : List Byte := (l.map fun w => leBytes 4 w.toNat).flatten

/-- Payload of a PCH snapshot (Table 18.7). -/
def Pub.snapBytes (p : Pub) (n : Fin 8) (cause : Nat) (trig : BitVec 64) : List Byte :=
  leBytes 1 n.val ++ leBytes 1 cause ++ leBytes 2 0 ++ wordBytes p.snapWords ++ leBytes 8 p.time.toNat ++
    leBytes 8 trig.toNat

/-- Payload of a DCH snapshot (Table 18.8). -/
def DchSet.snapBytes (p : DchSet) (n : Fin 4) (trig : BitVec 64) : List Byte :=
  leBytes 1 n.val ++ leBytes 1 1 ++ leBytes 2 0 ++ wordBytes (p.words.take 9) ++ leBytes 8 p.stamp.toNat ++
    leBytes 8 trig.toNat

/-- Snapshot source `m` is due on tick `k` after release (R418). -/
def State.snapDue (s : State) (m k : Nat) : Bool :=
  let d := s.QUE_SNAP_CFG_DIV m
  decide (d ≠ 0) && decide (k % d = 0)

/-- The queue of snapshot source `m`. -/
def State.snapQueue (s : State) (m : Nat) : Fin 64 := Fin.ofNat 64 (s.QUE_SNAP_CFG_QUEUE m)

/-- The periodic snapshots of tick `k` (R418). -/
def State.snapAll (s : State) (k : Nat) : State :=
  let s1 := (List.finRange 8).foldl (fun st n =>
    if st.halfOn (pchHalf n.val) && st.snapDue n.val k then
      st.offer (st.snapQueue n.val) 1 ((st.pch[n].pub).snapBytes n 1 st.now)
    else st) s
  (List.finRange 4).foldl (fun st n =>
    if st.halfOn (excHalf n.val) && st.snapDue (8 + n.val) k then
      st.offer (st.snapQueue (8 + n.val)) 2 ((st.dch[n].pub).snapBytes n st.now)
    else st) s1

/-! ## The tick -/

/-- ANGLE_TICK (R25, R131, R165): at the next tick of the 200-cycle grid every channel takes its samples and publishes, and
everything that follows the published sets is done: comparison, snapshots, recorders, forms, ratiometric outputs. -/
def execAngleTick (inp : Vector TickSamples 8) (s : State) : Done :=
  if !s.inRun then .next s
  else
    let t := (max s.clk.cyc s.gen.next + 199) / 200 * 200
    let k := s.gen.ticks + 1
    let s0 := s.waitTill t
    let s1 : State := { s0 with gen := { s0.gen with ticks := k, next := t + 1 } }
    let s2 := (List.finRange 8).foldl (fun st n => st.chanTick n inp[n]) s1
    let s3 := (List.finRange 4).foldl State.dchTick s2
    let pubs : Vector Pub 8 := Vector.ofFn fun n => s3.pch[n].pub
    let s4 : State := { s3 with gen := { s3.gen with wait := s3.gen.wait ++ [(t, pubs)] } }
    let s5 := (s4.xmonTick 0).xmonTick 1
    let s6 := (List.finRange 8).foldl State.frecTick ((s5.sweepTurns .h0).sweepTurns .h1 |>.snapAll k)
    .next s6.reform.routAll

/-! ## Internal triggers (R284, R285) -/

/-- SDM_TRIG reaches its inputs; with both halves off, or before release, it is dropped. -/
def State.trigSdm (s : State) (x : AevTrig) : State :=
  if s.boot.released && (s.halfOn .h0 || s.halfOn .h1) then s.sdmTrig x.slot (BitVec.ofNat 8 x.target) (x.cyc + 2) x.time
  else s.dropTrig x.slot

/-- SNAP (R418): a snapshot of the channel named, with the newest set published at the event edge. -/
def State.trigSnap (s : State) (x : AevTrig) : State :=
  if h : x.target < 8 then
    let n : Fin 8 := ⟨x.target, h⟩
    if s.pchOn n && s.halfOn (pchHalf n.val) then
      s.offer (s.snapQueue n.val) 1 ((s.publishedAt n x.cyc).snapBytes n 2 x.time)
    else s.dropTrig x.slot
  else s.dropTrig x.slot

/-- FREC (R393): a recorder with AEV_TRIG set takes the trigger. -/
def State.trigFrec (s : State) (x : AevTrig) : State :=
  if h : x.target < 8 then
    let n : Fin 8 := ⟨x.target, h⟩
    let f := s.frec[n]
    if f.st != .off && f.cfg.bit 0 then s.setFrec n (f.offer 0 x.time s.clk.cyc) else s.dropTrig x.slot
  else s.dropTrig x.slot

/-- SSI_START (R223): the digital channel named starts a frame. -/
def State.trigSsi (s : State) (x : AevTrig) : State :=
  if h : x.target < 4 then
    let n : Fin 4 := ⟨x.target, h⟩
    if s.dchOn n && s.dch[n].mode == 2 && s.halfOn (excHalf n.val) then s.ssiStart n else s.dropTrig x.slot
  else s.dropTrig x.slot

/-- INTERNAL_TRIGGER (R284, R285): 2 TCLK cycles after its event edge the oldest trigger reaches its target. -/
def execInternalTrigger (s : State) : Done :=
  match s.aev.trig with
  | [] => .next s
  | x :: rest =>
    let s0 := s.waitTill (x.cyc + 2)
    let s1 : State := { s0 with aev := { s0.aev with trig := rest } }
    .next (match x.action with
      | 5 => s1.trigSdm x
      | 6 => s1.trigSnap x
      | 7 => s1.trigFrec x
      | _ => s1.trigSsi x)

end Sys2Proof.Machine
end

