-- ==== Sys2Proof/Machine/Reset.lean ====
section
/-! DEFINITION. Domains that lose their state, the resets of Table 3.5 and the supplies (R17, R51, R56 to R59, R71 to
R76). -/

namespace Sys2Proof.Machine

/-! ## Which domain a register belongs to (Table 1.1) -/

/-- The domain of a register: CORE or AON, one half, the two copies of a duplicated block, either half (what a page whose
instances lie in both halves has in common), NET. -/
inductive Owner | core | half (h : Half) | dup | either | net
  deriving DecidableEq, Repr

/-- The owner of the register at offset `off` of page `p` (R17, Table 1.1); an auxiliary slot belongs to the half of its
converter. What the instances of a page in both halves have in common is lost with the second half (DEDUCED, assumption
49). -/
def State.owner (s : State) (p : Page) (off : Nat) : Owner :=
  let at' (lo w : Nat) : Nat := (off - lo) / w
  match p with
  | .pch n => .half (pchHalf n.val)
  | .exc => if 0x100 ≤ off then .half (excHalf (at' 0x100 0x40)) else .either
  | .scl => if 0x100 ≤ off then .half (pchHalf (at' 0x100 0x80)) else .either
  | .dch => if 0x100 ≤ off then .half (excHalf (at' 0x100 0x80)) else .either
  | .enc | .aev | .sdm | .xmon => if 0x40 ≤ off then .dup else .either
  | .aux =>
    if 0x100 ≤ off then .half (s.auxHalf (Fin.ofNat 16 (at' 0x100 0x40)))
    else if 0x80 ≤ off then .half (Half.byNum (at' 0x80 0x10)) else .either
  | .net => .net
  | _ => .core

/-- The register at `a` is one of an auxiliary slot of half `h`: it keeps its value while the half is off, when the slot has the
cause OFF by it, and is back at reset as the half returns (Table 14.5). -/
def State.slotReg (s : State) (h : Half) (a : Nat) : Bool :=
  match pageOf a with
  | some .aux => let off := pageOff .aux a; decide (0x100 ≤ off) && s.owner .aux off == .half h
  | _ => false

/-- The stored word under `key` is lost with half `h` as it goes off; `alone` says that the other half is off. -/
def State.keyOf (s : State) (h : Half) (alone : Bool) (key : Nat) : Bool :=
  let a := key % 0x100000000
  match pageOf a with
  | none => false
  | some p => if s.slotReg h a then false else match s.owner p (pageOff p a) with
    | .half g => g == h
    | .dup => alone || copyKey h a == key
    | .either => alone
    | _ => false

/-- What the captures and the checked words of the register at `a` hold is lost with half `h`: both copies have it in common,
where there are two. -/
def State.sharedOf (s : State) (h : Half) (alone : Bool) (a : Nat) : Bool :=
  match pageOf a with
  | none => false
  | some p => match s.owner p (pageOff p a) with
    | .half g => g == h
    | .dup | .either => alone
    | _ => false

/-- The stored word under `key` belongs to NET. -/
def netKey (key : Nat) : Bool := decide (pageOf (key % 0x100000000) = some .net)

/-- UE_0 of a page is no longer live once none of its stored words is wrong (R363). -/
def State.parityGone (s : State) : State :=
  { s with flt := Page.all.foldl (fun v p =>
      if s.badPar.any (inPage p) then v else vupd v p.idx fun f => { f with ueLive := bput f.ueLive 0 false }) s.flt }

/-- The register words that satisfy `p` back at their reset values with their check bits; captures and checked words go where
`q` says. -/
def State.dropRegs (s : State) (p q : Nat → Bool) : State :=
  State.parityGone { s with
    cfg := s.cfg.filter fun e => !p e.1
    capt := s.capt.filter fun e => !q e.1
    badPar := s.badPar.filter fun k => !p k
    badEcc := s.badEcc.filter fun e => decide (e.1 < 0x100000000) || !q (e.1 - 0x100000000) }

/-! ## A domain that goes off -/

/-- The conditions that the copy in half `h` sees end with it; REF_LOSS stays live until a reset, and VDDA_UV follows its
rail. -/
def FaultHdr.copyOff (f : FaultHdr) (h : Half) (keep : Word) : FaultHdr :=
  match h with
  | .h0 => { f with rawH0 := f.rawH0 &&& keep, liveH0 := f.liveH0 &&& keep }
  | .h1 => { f with rawH1 := f.rawH1 &&& keep, liveH1 := f.liveH1 &&& keep }

/-- The fault headers when half `h` loses its state: pages whose instances lie in both halves go back to reset with the
second one, and an AUTH_CONFLICT that stands stays live while a half is on (R17, R247). -/
def State.fltOff (s : State) (h : Half) : Vector FaultHdr 25 :=
  let alone := !s.halfOn h.other
  Page.all.foldl (fun v p =>
    match p with
    | .pch n => if pchHalf n.val = h then vset v p.idx {} else v
    | .sys => vupd v p.idx fun f => f.copyOff h 0x00000C03
    | .exc | .scl | .dch | .enc | .aev | .sdm | .aux | .xmon =>
      if alone then vset v p.idx {} else vupd v p.idx fun f => f.copyOff h (if p = .xmon then 0x4040 else 0)
    | _ => vupd v p.idx fun f => f.copyOff h 0) s.flt

/-- The blocks of half `h` back at reset, the half being off (R17, R427): its channels, bridges, estimator, and its copies
of the duplicated blocks, whose shared results go with the second copy. Encoder emulation keeps the count of the copy that
is lost, from which the other copy's takes over (R270). The words of the AEV slots (ANG, ACT, PAR, counters) are one table for both
copies: it stays as it is while one half is off and after its return (R17 does not say; DESIGN CHOICE, assumption 68). A converter
that failed its calibration at boot counts as failed until the next reset (R148, R330). -/
def State.coldHalf (s : State) (h : Half) : State :=
  let alone := !s.halfOn h.other
  let mine (n : Nat) : Bool := pchHalf n == h
  let mine2 (n : Nat) : Bool := excHalf n == h
  let sd := s.sdm
  let sdm1 : Sdm := { sd with
    inp := sd.inp.set h (Vector.replicate 8 {}), tq := sd.tq.set h (Vector.replicate 2 {})
    mis := Vector.replicate 8 0 }
  let encHalf (x : Enc) : Enc := { x with valid := x.valid.set h false }
  let slots : Vector AuxSlot 16 := Vector.ofFn fun k => bif s.auxHalf k == h then {} else s.aux.slot[k]
  let c : Fin 2 := Fin.ofNat 2 h.num
  let pins : BitVec 16 := if h = .h0 then 0xFF00 else 0x00FF
  let cold (x : Two Follow) : Two Follow := x.set h {}
  let sets (v : Vector Pub 8) : Vector Pub 8 := Vector.ofFn fun n => bif mine n.val then {} else v[n]
  let gen : Gen := { s.gen with
    cur := sets s.gen.cur
    wait := s.gen.wait.map fun e => (e.1, sets e.2)
    frm := s.gen.frm.map cold }
  let aux : Aux := { s.aux with
    slot := slots, conv := vset s.aux.conv c {}
    cmwOut := s.aux.cmwOut &&& pins, rout := vset s.aux.rout c {} }
  let copies (x : XDrive) : XDrive := { x with
    copies := x.copies.set h {}, seen := x.seen.set h false, misCnt := 0 }
  let s1 : State := { s with
    flt := s.fltOff h
    pch := Vector.ofFn fun n => bif mine n.val then { calf := s.pch[n].calf } else s.pch[n]
    exc := Vector.ofFn fun n => bif mine2 n.val then {} else s.exc[n]
    scl := Vector.ofFn fun n => bif mine n.val then {} else s.scl[n]
    sclH := s.sclH.set h {}
    dch := Vector.ofFn fun n => bif mine2 n.val then {} else s.dch[n]
    gen := gen
    enc := Vector.ofFn fun n => bif alone then Enc.reset n else encHalf s.enc[n]
    aev := if alone then {} else s.aev
    sdm := if alone then { next := sd.next, decNext := sd.decNext, dis := sd.dis } else sdm1
    xd := s.xd.map copies
    aux := if alone then { aux with conv := Vector.replicate 2 {}, cmwOut := 0, rout := Vector.replicate 2 {} } else aux }
  s1.dropRegs (s.keyOf h alone) (s.sharedOf h alone)

/-- With both halves off nothing of XMON is left (R17). -/
def State.xmonOff (s : State) : State :=
  if s.halfOn .h0 || s.halfOn .h1 then s else { s with xd := Vector.replicate 2 {} }

/-- Pad `pin` (AEV_n as 0–7, ENC_n_Z as 8–11) is the SSI clock of a digital channel of half `h` (R222). -/
def State.clockedBy (s : State) (h : Half) (pin : Nat) : Bool :=
  match s.clockOf pin with
  | none => false
  | some n => excHalf n.val == h

/-- The clock pads of `z` and `v` held high, as the other half drives them; with `all`, every ENC and AEV pad held at the level
it has now (R51, R222). -/
def State.holdPads (s : State) (all : Bool) (z : BitVec 4) (v : BitVec 8) : State :=
  let p := s.pads
  if all then
    { s with pads := { p with
      encHeld := 0xF, encZHeld := 0xF, aevHeld := 0xFF
      encZ := (List.finRange 4).foldl (fun m n => bput m n.val (s.encZPad n)) p.encZ
      aev := (List.finRange 8).foldl (fun m n => bput m n.val (s.aevPad n)) p.aev } }
  else
    { s with pads := { p with
      encZHeld := p.encZHeld ||| z, aevHeld := p.aevHeld ||| v, encZ := p.encZ ||| z, aev := p.aev ||| v } }

/-- Pad hold of half `h` engages (R51, Table 2.7): its own pads, the pads its channels clock, and every ENC and AEV pad
once both halves are off. -/
def State.holdHalf (s : State) (h : Half) : State :=
  let z := (List.range 4).foldl (fun m n => bput m n (s.clockedBy h (8 + n))) (0 : BitVec 4)
  let v := (List.range 8).foldl (fun m n => bput m n (s.clockedBy h n)) (0 : BitVec 8)
  let s1 := s.holdPads (!s.halfOn h.other) z v
  { s1 with pads := { s1.pads with
    heldH := s1.pads.heldH.set h true
    sdiOff := s1.pads.sdiOff.set h true
    sdclk := s1.pads.sdclk.set h (s.sdclkPad h.num) } }

/-- Half `h` goes off (R51, R245, R427); encoder emulation counts up to this instant. -/
def State.halfDown (s0 : State) (h : Half) : State :=
  let s := s0.encFollowAll.holdHalf h
  let s1 : State := { s with pwr := { s.pwr with
    half := s.pwr.half.set h .off, calBusy := s.pwr.calBusy.set h false
    padOpen := s.pwr.padOpen.set h false } }
  let s2 := ((s1.coldHalf h).dropClaims h).xmonOff
  ((s2.judgeDrvAll.auxJudge.cruiseJudge.routAll).reform).aliveWatch s0

/-- The conditions of NET's regulator end with its domain (R67). -/
def FaultHdr.netOff (f : FaultHdr) : FaultHdr :=
  { f with rawSh := f.rawSh &&& 0x0FFFFFFF, liveSh := f.liveSh &&& 0x0FFFFFFF }

/-- NET goes off: its registers and frames are lost (R427). -/
def State.netDown (s : State) : State :=
  let s1 := s.netOff.dropRegs netKey netKey
  State.aliveWatch { s1 with
    pwr := { s1.pwr with net := .off, padOpenNet := false }
    pads := { s1.pads with heldNet := true }
    flt := vset (vupd s1.flt Page.sys.idx FaultHdr.netOff) Page.net.idx {} } s

/-- Bank `b` goes off: its contents are lost. -/
def State.bankDown (s : State) (b : Fin 8) : State :=
  let lo := b.val * 0x100000
  { s with
    pwr := { s.pwr with bank := vset s.pwr.bank b .off, bankInit := bput s.pwr.bankInit b.val false }
    sram := Memory.clear s.sram lo (lo + 0x100000)
    badEcc := s.badEcc.filter fun e => decide (e.1 < lo ∨ lo + 0x100000 ≤ e.1) }

/-! ## Resets -/

/-- The words of AON that a reset other than power-on keeps: the alarm (R76, Table 19.10). -/
def alarmKey (k : Nat) : Bool := decide (k = 0x10088 ∨ k = 0x1008C)

/-- What PWR keeps through a reset other than power-on: alarm, wake record, replay latch (R76, Table 19.10). -/
def Pwr.kept (p : Pwr) : Pwr :=
  { wakeCnt := p.wakeCnt, coreTmo := p.coreTmo, memTmo := p.memTmo, wakeFail := p.wakeFail, wakeFrom := p.wakeFrom
    first := p.first, src := p.src, wakeRtc := p.wakeRtc, alarm := p.alarm, alarmEn := p.alarmEn, alarmAt := p.alarmAt
    netLost := p.netLost, netBuf := p.netBuf, hostClks := p.hostClks, hostMore := p.hostMore
    hostLatched := p.hostLatched, replay := p.replay }

/-- `n` bytes whose values are open, for the draw `free`. -/
def openBytes (point free n : Nat) : List Byte :=
  (List.range n).map fun i => BitVec.ofNat 8 (Config.freeBits point (free * 2 ^ 20 + i))

/-- FRAM address of slot A, or B. -/
def slotBase (b : Bool) : Nat := if b then 0x3F000 else 0x3E000

/-- What a reset leaves in the FRAM, and the slots that are torn (R74, R90, R100). It stops a store at a point that is open:
before the first byte; among the body, whose bytes are open under the old header; among the header, whose bytes are open over the
new body; or after the last byte. In between the target slot is invalid. It stops FRAM programming with MAGIC zero and the rest
of the image open (DESIGN CHOICE, assumption 60). -/
def State.framCut (s : State) : List Host.Cell × BitVec 2 :=
  let put (a : Nat) (l : List Byte) : List Host.Cell := Memory.writeBytes framDefault s.fram a l
  if s.boot.phase = .framProg then
    (put 0 (List.replicate 4 0 ++ openBytes 64 s.free (0x3C + s.boot.bodyLen)), s.boot.torn)
  else match s.boot.store with
    | none => (s.fram, s.boot.torn)
    | some x =>
      match Config.freeBits 63 s.free % 4 with
      | 0 => (s.fram, s.boot.torn)
      | 1 => (put (slotBase x.toB + 32) (openBytes 65 s.free 4064), bput s.boot.torn x.toB.toNat true)
      | 2 => (put (slotBase x.toB) (openBytes 65 s.free 32 ++ x.bytes.drop 32), bput s.boot.torn x.toB.toNat true)
      | _ => (put (slotBase x.toB) x.bytes, bput s.boot.torn x.toB.toNat false)

/-- Every safe-state pin in its default state, not sinking, with no hold time running (R45, Table 2.6). -/
def State.pinsDefault (s : State) : State :=
  { s with pads := { s.pads with inh := Vector.replicate 2 {}, asc := Vector.replicate 2 {}, dis := {} } }

/-- The safe-state pins at a reset: their default state at once (R45), but asserted in boundary-scan mode (R46), for which the
voter needs VIO (R44). -/
def State.scanPins (s : State) : State := if s.sys.scan && s.rails.vio then s.pinsDefault.voteAll else s.pinsDefault

/-- A reset by cause bit `c` of SYS_RST_CAUSE (R71, R74, R76): everything at its reset value but what Table 3.7 keeps;
internal reset is in progress, and causes that arrive during it join its one count. Without VAON every reset is a power-on
reset. -/
def State.deviceReset (s : State) (c : Nat) : State :=
  let por := c == 0 || !s.rails.vaon
  let cut := s.framCut
  let now : BitVec 5 := if s.boot.phase = .reset then s.sys.causesNow else 0
  let sys0 : Sys := if por then { resetLow := s.sys.resetLow } else
    { cause := bput s.sys.cause c true, causesNow := bput now c true, rstCnt := s.sys.rstCnt
      resetLow := s.sys.resetLow, scan := s.sys.scan, rtcXtalOk := s.sys.rtcXtalOk, rtcLprc := s.sys.rtcLprc }
  State.scanPins { ({} : State) with
    pending := s.pending
    qb := s.qb
    free := s.free + 1
    cfg := if por then [] else s.cfg.filter fun e => alarmKey e.1
    fram := cut.1
    boot := { torn := cut.2 }
    clk := { cyc := s.clk.cyc, rtc := if por then 0 else s.clk.rtc }
    rails := s.rails
    vexcMv := s.vexcMv
    sys := sys0
    pwr := if por then {} else s.pwr.kept
    tap := if por = false ∧ (c = 1 ∨ c = 2) then s.tap else {} }

/-- A rail counts as good, or not. -/
def Rails.set (r : Rails) (x : Rail) (ok : Bool) : Rails :=
  match x with
  | .vaon => { r with vaon := ok }
  | .vio => { r with vio := ok }
  | .vpre => { r with vpre := ok }
  | .vdda0 => { r with vdda0 := ok }
  | .vdda1 => { r with vdda1 := ok }

/-- VDDA_n of half `h` follows its rail (R57): VDDA_UV of the half, channel loss of its channels, the auxiliary slots. The
cause ends with its condition in a channel that is OFF too (R145). -/
def State.vddaJudge (s : State) (h : Half) : State :=
  let bad := !s.vddaGood h
  let s1 := s.cond .sys (10 + h.num) h.copy bad
  let s2 := (chansOf h).foldl (fun st n =>
    if bad then (if st.pchOn n then st.declareLoss n 5 else st) else st.causeEnds n 5) s1
  s2.auxJudge.routAll

/-- SUPPLY_GOOD (R56); with VIO the voter asserts the pins of boundary-scan mode again (R44, R46). -/
def execSupplyGood (r : Rail) (s : State) : Done :=
  let s1 : State := { s with rails := s.rails.set r true }
  match r with
  | .vdda0 => .next (s1.vddaJudge .h0)
  | .vdda1 => .next (s1.vddaJudge .h1)
  | .vio => .next (if s.sys.scan then s1.scanPins else s1)
  | _ => .next s1

/-- SUPPLY_LOST (R56, Table 3.1): a reset, or VDDA_UV of a half; a Lookout cycle keeps that VDDA_0 was lost in it (R439). -/
def execSupplyLost (r : Rail) (s : State) : Done :=
  let s1 : State := { s with
    rails := s.rails.set r false, pwr := { s.pwr with lkLost := s.pwr.lkLost || (s.pwr.lkRun && r == .vdda0) } }
  match r with
  | .vaon => .next (s1.deviceReset 0)
  | .vio => .next (s1.deviceReset 3)
  | .vpre => .next (s1.deviceReset 4)
  | .vdda0 => .next (s1.vddaJudge .h0)
  | .vdda1 => .next (s1.vddaJudge .h1)

/-- PIN_RESET (R72): the filter accepts a low pulse while RESET_N is still low. -/
def execPinReset (s : State) : Done :=
  let s1 := s.deviceReset 1
  .next { s1 with sys := { s1.sys with resetLow := true } }

/-- A write of SYS_SWRST (R73): key 0xB007 starts a software reset 2 µs after the end of the frame; a second one leaves the
reset that is owed where it is. -/
def State.writeSwrst (s : State) (v : Word) : Status × State :=
  if v.fld 0 16 = 0xB007 then
    (.ok, { s with sys := { s.sys with swrstAt := some (s.sys.swrstAt.getD (s.clk.cyc + usCyc 2)) } })
  else s.only .range

/-- SWRST_KEY (R73). -/
def execSwrstKey (s : State) : Done := finish (s.writeSwrst 0xB007)

/-- SOFTWARE_RESET (R73). -/
def execSoftwareReset (s : State) : Done :=
  match s.sys.swrstAt with
  | none => .next s
  | some t => .next ((s.waitTill t).deviceReset 2)

/-- RESET_N_RISING_EDGE (R55): TEST_EN selects boundary-scan mode, in which every safe-state pin is asserted (R46); with TEST_EN
low the mode ends and every pin is in its default state, the reset being still under way (R43, R45). -/
def execResetNRisingEdge (testEn : Bool) (s : State) : Done :=
  if s.sys.resetLow then
    .next { s with sys := { s.sys with resetLow := false, scan := testEn } }.scanPins
  else .next s

/-- What the supply monitors and the RTC oscillator see is reported as CORE's monitors start (R57, R67, R70). -/
def State.startMonitors (s : State) : State :=
  ((s.cond .sys 10 .h0 (!s.rails.vdda0)).cond .sys 11 .h1 (!s.rails.vdda1)).rtcJudge

/-- INTERNAL_RESET_END (R74, R75): with VAON, VIO and VPRE good and RESET_N high; RST_CNT counts, TCLK strobes count from
here, the monitors start, and boot begins. VUV and VOV are judged on VEXC_n as last measured (R103). -/
def execInternalResetEnd (s : State) : Done :=
  if s.boot.phase = .reset ∧ s.pwr.st = .run ∧ s.rails.vaon ∧ s.rails.vio ∧ s.rails.vpre ∧ ¬ s.sys.resetLow then
    let n := if (s.sys.causesNow &&& 0x1E) ≠ 0 then min 255 (s.sys.rstCnt + 1) else s.sys.rstCnt
    let s1 : State := { s with
      sys := { s.sys with rstCnt := n, causesNow := 0 }
      clk := { cyc := 0, rtc := s.clk.rtc }
      boot := { s.boot with phase := .header } }
    .next ((s1.startMonitors.vexcJudge 0).vexcJudge 1).scanPins
  else .next s

end Sys2Proof.Machine
end

