-- ==== Sys2Proof/Machine/Power.lean ====
section
/-! DEFINITION. Power domains, votes, states, operating points, Lookout and wake (R425 to R451). -/

namespace Sys2Proof.Machine

/-! ## Votes (Table 19.1) -/

/-- PWR_VOTE_HOST (R425). -/
def State.voteHost (s : State) : Word := s.reg 0x1004C

/-- PWR_VOTE_NET: NET while a port or a stream is enabled. -/
def State.voteNet (s : State) : Word :=
  Word.flag 2 (s.netOn && (s.NET_CTRL_PORT_EN != 0 || s.NET_CTRL_STR_EN != 0))

/-- PWR_VOTE_HALF: each half's own domain while it holds authority for a drive (R19); in the cycle in which a handover has both
halves claim, the vote is still that of the half which hands over (Table 10.1). -/
def State.voteHalf (s : State) : Word :=
  let f (h : Half) : Bool := s.halfOn h && ((s.xd[(0 : Fin 2)]).claim.get h || (s.xd[(1 : Fin 2)]).claim.get h)
  Word.flag 0 (f .h0) ||| Word.flag 1 (f .h1)

/-- PWR_VOTE_YARD: bank 0 while any queue is enabled (R32). -/
def State.voteYard (s : State) : Word := Word.flag 8 ((List.range 64).any s.queEn)

/-- PWR_VOTE_FREC: the banks spanned by each ring that is not OFF (R392). -/
def State.voteFrec (s : State) : Word :=
  (List.finRange 8).foldl (fun w n => w ||| Word.put 8 8 (s.frec[n].votes).toNat) 0

/-- The votes of every client but Cruise. -/
def State.voteOthers (s : State) : Word :=
  s.voteHost ||| s.voteNet ||| s.voteHalf ||| s.voteYard ||| s.voteFrec

/-- The votes that hold their value while CORE is off, beside the host's (R426). -/
def State.votesOfCore (s : State) : Word := s.voteNet ||| s.voteHalf ||| s.voteYard ||| s.voteFrec

/-- Cruise may test bank `b`: it is on, and another client votes for it, so that Cruise never powers a bank (R370). -/
def State.testable (s : State) (b : Fin 8) : Bool := s.bankOn b && s.voteOthers.bit (8 + b.val)

/-- PWR_VOTE_CRZ: the bank of the segment under test (R374). -/
def State.voteCrz (s : State) : Word :=
  match s.cruiseVote with
  | none => 0
  | some k => Word.flag (8 + k) (s.testable (Fin.ofNat 8 k))

/-- The banks that item 10 marches through brought up to date: what it has marched so far counts under those before (R370). -/
def State.crzBanks (s : State) : State :=
  let m : BitVec 8 := (List.finRange 8).foldl (fun w b => bput w b.val (s.testable b)) 0
  if m = s.crz.banks then s else let t := s.crzMark; { t with crz := { t.crz with banks := m } }

/-- Every vote. -/
def State.votes (s : State) : Word := s.voteOthers ||| s.voteCrz

/-! ## Status and records -/

/-- The code of a device state (Table 19.2). -/
def PState.code : PState → Nat
  | .run => 0 | .doze => 1 | .lookout => 2 | .off => 3 | .entering => 4 | .waking => 5

/-- The pads of the domains are held: H0, H1, NET, CORE (HELD of PWR_DOM_STAT). -/
def State.heldBits (s : State) : Nat :=
  let p := s.pads
  p.heldH.h0.toNat + 2 * p.heldH.h1.toNat + 4 * p.heldNet.toNat + 8 * p.heldCore.toNat

/-- A Lookout cycle is under way: H0 and the clock section of CORE are powered for it (R428, R436). Their registers are not: no
register of EXC, PCH or AUX changes, and CORE takes no access. -/
def State.lookoutOn (s : State) : Bool := s.pwr.st == .lookout && s.pwr.lkRun

/-- PWR_DOM_STAT. -/
def State.domStat (s : State) : Word :=
  let banks := (List.finRange 8).foldl (fun w b => w ||| Word.flag (8 + b.val) s.pwr.bank[b].isOn) 0
  Word.flag 0 (s.halfOn .h0 || s.lookoutOn) ||| Word.flag 1 (s.halfOn .h1) ||| Word.flag 2 s.netOn ||| Word.flag 3 s.coreOn |||
    banks ||| Word.put 16 4 s.heldBits ||| Word.flag 24 s.pwr.calBusy.h0 ||| Word.flag 25 s.pwr.calBusy.h1 |||
    Word.put 28 3 s.pwr.domFail.toNat

/-- PWR_LK_AVAL. -/
def State.lkAvalWord (s : State) : Word := Word.flag 31 s.pwr.lkAvalid ||| Word.put 0 24 s.pwr.lkAval.toNat

/-- A power record of code `c`, from state `frm`, goes to Q_57 (R449, Table 19.8). -/
def State.powerRec (s : State) (c frm : Nat) : State :=
  let wake := c == 1
  let lk := wake && frm == 2
  let put (b : Bool) (n v : Nat) : List Byte := leBytes n (if b then v else 0)
  s.offer 57 11 (leBytes 1 c ++ leBytes 1 s.pwr.st.code ++ leBytes 1 s.pwr.oppNow.toNat ++ leBytes 1 frm ++
    put wake 1 s.pwr.src.toNat ++ put wake 1 s.pwr.first ++ leBytes 2 s.domStat.toNat ++
    put lk 4 (wrapInt 32 s.pwr.lkAcc) ++ put lk 4 s.lkAvalWord.toNat ++
    put (wake && s.pwr.hostLatched) 8 s.pwr.replay.toNat ++ leBytes 8 s.now.toNat)

/-- A record of an event that leaves the device state as it is. -/
def State.powerNote (s : State) (c : Nat) : State := s.powerRec c s.pwr.st.code

/-! ## Domains follow the votes (R426, R427) -/

/-- What a change of votes does to a domain: nothing, off, or a return. -/
inductive Turn | stay | down | rise
  deriving DecidableEq, Repr

/-- A domain judged against its votes; one whose return has failed waits until its votes have been withdrawn (R451). -/
def turnOf (st : DomSt) (want stuck : Bool) : Turn :=
  match st with
  | .off => if want && !stuck then .rise else .stay
  | _ => if want then .stay else .down

/-- The stuck mark `i` ends with the votes. -/
def State.unstick (s : State) (i : Nat) (want : Bool) : State :=
  if want then s else { s with pwr := { s.pwr with stuck := bput s.pwr.stuck i false } }

/-- Half `h` judged. -/
def State.turnHalf (s : State) (h : Half) : State :=
  let want := s.votes.bit h.num
  match turnOf (s.pwr.half.get h) want (s.pwr.stuck.getLsbD h.num) with
  | .stay => s.unstick h.num want
  | .down =>
    if s.halfOn h then (s.halfDown h).powerNote 6
    else { s with pwr := { s.pwr with half := s.pwr.half.set h .off } }
  | .rise => { s with pwr := { s.pwr with half := s.pwr.half.set h (.rising s.clk.cyc) } }

/-- NET judged; absent on the HL8640-QB. -/
def State.turnNet (s : State) : State :=
  let want := s.votes.bit 2
  if s.qb then s else
  match turnOf s.pwr.net want (s.pwr.stuck.getLsbD 2) with
  | .stay => s.unstick 2 want
  | .down =>
    if s.netOn then s.netDown.powerNote 6 else { s with pwr := { s.pwr with net := .off } }
  | .rise => { s with pwr := { s.pwr with net := .rising s.clk.cyc } }

/-- Bank `b` judged. -/
def State.turnBank (s : State) (b : Fin 8) : State :=
  let want := s.votes.bit (8 + b.val)
  match turnOf s.pwr.bank[b] want (s.pwr.stuck.getLsbD (3 + b.val)) with
  | .stay => s.unstick (3 + b.val) want
  | .down =>
    if s.pwr.bank[b].isOn then (s.bankDown b).powerNote 6
    else { s with pwr := { s.pwr with bank := vset s.pwr.bank b .off } }
  | .rise => { s with pwr := { s.pwr with bank := vset s.pwr.bank b (.rising s.clk.cyc) } }

/-- In RUN and DOZE every domain follows its votes (R426), and item 10 of Cruise the banks. -/
def State.domains (s : State) : State :=
  if s.pwr.st = .run ∨ s.pwr.st = .doze then
    ((List.finRange 8).foldl State.turnBank (((s.crzBanks.turnHalf .h0).turnHalf .h1).turnNet)).crzBanks
  else s

/-- A meaning followed by the domains' answer to the votes it has changed. -/
def thenDomains (o : Done) : Done :=
  match o with
  | .next s => .next s.domains
  | x => x

/-- PWR_VOTE_HOST written (R426); on the HL8640-QB the NET bit is stored only (R2). -/
def State.writeVotes (s : State) (v : Word) : State := (s.setReg 0x1004C (v &&& 0xFF07)).domains

/-! ## Returns (R427, R451) -/

/-- The cycle at which a returning domain's regulator has soft-started (R427). -/
def riseEnd (since : Nat) : Nat := since + usCyc 200

/-- The device is in RUN or DOZE. -/
def State.inRunDoze (s : State) : Bool := s.pwr.st == .run || s.pwr.st == .doze

/-- The safe-state latches of a half that returns (R305): the other half's values, or the reset state when both return. -/
def State.latchesReturn (s : State) (h : Half) : State :=
  if s.halfOn h.other then s
  else { s with
    safe := s.safe.map fun x => { x with ssl := ⟨true, true⟩, rel := false, gapUntil := none }
    sdm := { s.sdm with dis := ⟨false, false⟩ } }

/-- The regulator of half `h`. -/
def halfVdom : Half → VDom
  | .h0 => .h0
  | .h1 => .h1

/-- The auxiliary slots of half `h` and their registers at reset (R427): they kept their values while the half was off. -/
def State.slotsReturn (s : State) (h : Half) : State :=
  let slots : Vector AuxSlot 16 := Vector.ofFn fun k => bif s.auxHalf k == h then {} else s.aux.slot[k]
  let p (k : Nat) : Bool := s.slotReg h (k % 0x100000000)
  State.dropRegs { s with aux := { s.aux with slot := slots } } p p

/-- Half `h` is on again: registers at reset, carriers at phase zero from this edge on, calibration begins and takes 6.5 ms (R427,
R481). Its regulator stands at the nominal set-point; VUV and VOV of its rail are judged on VEXC_n as last measured (R103). -/
def State.halfUp (s0 : State) (h : Half) : State :=
  let s := ((s0.latchesReturn h).slotsReturn h).toNominal (halfVdom h)
  let car : Carrier := { t0 := s.clk.cyc }
  let zero (n : Fin 4) : Exc := if excHalf n.val = h then { s.exc[n] with car := car, old := car } else s.exc[n]
  let s1 : State := { s with
    exc := Vector.ofFn zero
    sys := { s.sys with rcOk := s.sys.rcOk.set h true }
    sdm := { s.sdm with next := vset s.sdm.next (Fin.ofNat 2 h.num) s.clk.cyc }
    pwr := { s.pwr with
      half := s.pwr.half.set h .on, calBusy := s.pwr.calBusy.set h true, calAt := s.pwr.calAt.set h (s.clk.cyc + usCyc 6500)
      padOpen := s.pwr.padOpen.set h (s.inRunDoze && s.boot.released)
      domFail := bput s.pwr.domFail h.num false } }
  let s2 := (((((s1.vexcJudge 0).vexcJudge 1).watchHolder 0).watchHolder 1).judgeDrvAll.auxJudge.cruiseJudge).reform
  if s2.inRunDoze then s2.powerNote 5 else s2

/-- NET is on again. -/
def State.netUp (s0 : State) : State :=
  let s := s0.toNominal .net
  let s1 : State := { s with pwr := { s.pwr with
    net := .on, padOpenNet := s.inRunDoze && s.boot.released, domFail := bput s.pwr.domFail 2 false } }
  if s1.inRunDoze then s1.powerNote 5 else s1

/-- The cycle from which the initialisation of a bank that comes on now runs: at once, or in a wake bank by bank (Table 19.7). -/
def State.initFrom (s : State) : Nat :=
  if s.pwr.st = .waking then
    (List.finRange 8).foldl (fun t b => if s.pwr.bank[b].isOn && !s.pwr.bankInit.getLsbD b.val then max t s.pwr.bankAt[b] else t)
      s.clk.cyc
  else s.clk.cyc

/-- Bank `b` is on again; it becomes accessible once initialised, which takes 0.5 ms. -/
def State.bankUp (s : State) (b : Fin 8) : State :=
  let s1 : State := { s with pwr := { s.pwr with
    bank := vset s.pwr.bank b .on, bankAt := vset s.pwr.bankAt b (s.initFrom + usCyc 500)
    bankFail := bput s.pwr.bankFail b.val false } }
  if s1.inRunDoze then s1.powerNote 5 else s1

/-- DOMAIN_ON (R427): a returning domain's regulator has soft-started and isolation lifts. -/
def execDomainOn (x : Dom) (s : State) : Done :=
  match x with
  | .h0 => match s.pwr.half.h0 with
    | .rising t => .next ((s.waitTill (riseEnd t)).halfUp .h0)
    | _ => .next s
  | .h1 => match s.pwr.half.h1 with
    | .rising t => .next ((s.waitTill (riseEnd t)).halfUp .h1)
    | _ => .next s
  | .net => match s.pwr.net with
    | .rising t => .next (s.waitTill (riseEnd t)).netUp
    | _ => .next s
  | .core => match s.pwr.core with
    | .rising t =>
      let s1 := s.waitTill (riseEnd t)
      .next { s1 with pwr := { s1.pwr with core := .on } }
    | _ => .next s
  | .bank b => match s.pwr.bank[b] with
    | .rising t => .next ((s.waitTill (riseEnd t)).bankUp b)
    | _ => .next s

/-- MEM_BANK_INIT_DONE (R427): after its 0.5 ms the returned bank holds zeros with valid check bits and becomes accessible, also
to Cruise. -/
def execMemBankInitDone (b : Fin 8) (s0 : State) : Done :=
  if s0.pwr.bank[b].isOn && !s0.pwr.bankInit.getLsbD b.val then
    let s := s0.waitTill s0.pwr.bankAt[b]
    .next (State.crzBanks { s with pwr := { s.pwr with bankInit := bput s.pwr.bankInit b.val true } })
  else .next s0

/-- The trims that a converter calibration of channel `n` has measured, unless it failed (R95, R427). -/
def State.latchTrims (s : State) (n : Fin 8) (bad : Bool) (t : TrimVals) : State :=
  if bad then s else { s with scl := vset s.scl n { s.scl[n] with trims := t } }

/-- The results of the converter calibration of channel `n` at boot (R95, R148): its trims, or CAL of the channel. -/
def State.latchCal (s : State) (n : Fin 8) (bad : Bool) (t : TrimVals) : State :=
  (s.setPch n { s.pch[n] with calf := bad }).latchTrims n bad t

/-- HALF_CAL_DONE (R427): after its 6.5 ms CAL_BUSY clears, and the channels and slots enabled meanwhile start. A failure raises no
CAL, the cause of a calibration that failed at boot (R148, R330): the trims of a failed channel stay at reset, and what `auxFail` says
of the auxiliary converter shows nowhere (DEDUCED, assumption 38). -/
def execHalfCalDone (h : Half) (pchFail : BitVec 4) (_auxFail : Bool) (trims : Vector TrimVals 4) (s0 : State) : Done :=
  if !s0.pwr.calBusy.get h then .next s0
  else
    let s := s0.waitTill (s0.pwr.calAt.get h)
    let k (i : Fin 4) : Fin 8 := Fin.ofNat 8 (4 * h.num + i.val)
    let s1 := (List.finRange 4).foldl (fun st i => st.latchTrims (k i) (pchFail.getLsbD i.val) trims[i]) s
    let s2 : State := { s1 with pwr := { s1.pwr with calBusy := s1.pwr.calBusy.set h false } }
    let s3 := (List.finRange 4).foldl (fun st i =>
      if st.PCH_CTRL_EN (k i).val = 1 then st.enableChan (k i) else st) s2
    .next s3.auxJudge

/-! ## Wake events (R440, R441, R444) -/

/-- The bit of a wake source in SRC (Table 19.6), enabled in PWR_WAKE_CFG. -/
def State.wakeEnabled (s : State) (b : Nat) : Bool :=
  match b with
  | 0 => s.PWR_WAKE_CFG_ALARM_WAKE_EN == 1
  | 1 => s.PWR_WAKE_CFG_LK_MOVE_EN == 1
  | 2 => s.PWR_WAKE_CFG_LK_AUX_EN == 1
  | 3 => s.PWR_WAKE_CFG_LK_FWAKE == 1
  | 4 => s.PWR_WAKE_CFG_WAKE_IN_EN == 1
  | 5 => s.PWR_WAKE_CFG_HOST_WAKE_EN == 1
  | 6 => !s.qb && s.PWR_WAKE_CFG_NET_WAKE_EN == 1
  | _ => false

/-- The wake source is allowed in OFF (Table 19.6). -/
def allowedOff (b : Nat) : Bool := b == 0 || b == 4 || b == 5

/-- The RTC tick in progress, counted without wrapping. -/
def State.rtcTick (s : State) : Nat := s.clk.rtc / rtcUnit

/-- The cycle of the next RTC tick. -/
def State.nextTick (s : State) : Nat := s.clk.cyc + s.cyclesFor (rtcUnit - s.clk.rtc % rtcUnit)

/-- The device wakes: the wake is recorded, and CORE's regulator rises at the next RTC tick (R444, R445). -/
def State.startWake (s : State) (src : BitVec 7) (first : Nat) : State :=
  { s with
    exc := vset s.exc 0 {}
    pwr := { s.pwr with
      st := .waking, wakeFrom := s.pwr.st.code, src := src, first := first, srcEnt := 0
      wakeCnt := min 65535 (s.pwr.wakeCnt + 1), wakeRtc := s.rtcNow, wakeRestarts := 0, tmoNow := false
      core := .rising s.nextTick, wakeAt := s.clk.cyc, lkRun := false } }

/-- The earliest source, `first` so far, once source `b` has been seen as well; of one RTC tick it is the lower bit (R444). -/
def State.earliest (s : State) (first b : Nat) : Nat := if s.rtcTick = s.pwr.firstTick then min b first else first

/-- The wake by source `b`, the first one seen. -/
def State.wakeBy (s : State) (b : Nat) : State :=
  State.startWake { s with pwr := { s.pwr with firstTick := s.rtcTick } } (bput 0 b true) b

/-- A wake source of bit `b` acts now (R441, R444, Table 19.9): it wakes the device, is noted during ENTERING, or is added
during WAKING. A device that a failed wake has left in OFF stays there till a reset (R446). -/
def State.wakeEvent (s : State) (b : Nat) : State :=
  let p := s.pwr
  let m : BitVec 7 := bput 0 b true
  match p.st with
  | .lookout => s.wakeBy b
  | .off => if allowedOff b && !p.offHeld then s.wakeBy b else s
  | .entering =>
    if p.entTgt = .off ∧ allowedOff b = false then s
    else if p.srcEnt = 0 then { s with pwr := { p with srcEnt := m, firstEnt := b, firstTick := s.rtcTick } }
    else { s with pwr := { p with srcEnt := p.srcEnt ||| m, firstEnt := s.earliest p.firstEnt b } }
  | .waking => { s with pwr := { p with src := p.src ||| m, first := s.earliest p.first b } }
  | _ => s

/-- The wake source of bit `b`, if it is enabled (R440). -/
def State.wakeIf (s : State) (b : Nat) : State := if s.wakeEnabled b then s.wakeEvent b else s

/-- WAKE_IN (R440): the level that WAKE_POL makes the active one has stood for three RTC ticks; the event is that instant
(assumption 69). -/
def execWakeIn (s : State) : Done := .next (s.wakeIf 4)

/-- The RTC tick, counted without wrapping, at which the 48-bit count next equals `a`. -/
def State.tickOf (s : State) (a : BitVec 48) : Nat := s.rtcTick + (a - s.rtcNow).toNat

/-- ALARM (R440): the RTC count equals ALARM while ALARM_EN is set; a record in RUN and DOZE, else a wake. -/
def execAlarm (s : State) : Done :=
  if !s.pwr.alarmEn then .next s
  else
    let s1 := s.wait (s.cyclesFor (s.pwr.alarmAt * rtcUnit - s.clk.rtc))
    let s2 : State := { s1 with pwr := { s1.pwr with alarmEn := false, alarmEv := true } }
    .next (if s2.inRunDoze then s2.powerNote 7 else s2.wakeIf 0)

/-- PWR_ALARM_HI written: both words are committed (Table 19.10). -/
def State.writeAlarmHi (s : State) (v : Word) : State :=
  let s1 := s.setReg 0x1008C (v &&& 0x8000FFFF)
  let a := BitVec.ofNat 48 (v.fld 0 16 * 2 ^ 32 + s1.PWR_ALARM_LO_ALARM)
  { s1 with pwr := { s1.pwr with alarm := a, alarmEn := v.bit 31, alarmAt := s.tickOf a } }

/-- ALARM_HI_WRITE (R440). -/
def execAlarmHiWrite (v : Word) (s : State) : Done := finish (.ok, s.writeAlarmHi v)

/-! ## State requests (R429 to R431) -/

/-- LK_CH as a channel. -/
def State.lkCh (s : State) : Fin 8 := Fin.ofNat 8 s.PWR_LK_CFG_LK_CH

/-- LK_SLOT as a slot. -/
def State.lkSlot (s : State) : Fin 16 := Fin.ofNat 16 s.PWR_LK_EXC_LK_SLOT

/-- The wake source of bit `b` counts as enabled for an entry into `t` (R430, R440). -/
def State.wakeCounts (s : State) (t : PState) (b : Nat) : Bool :=
  s.wakeEnabled b && (b != 0 || s.pwr.alarmEn) && (b != 2 || s.PWR_LK_CFG_LK_AUX_DIV != 0) &&
    (t == .lookout || allowedOff b)

/-- The set-up of Lookout is one it can run (R430). -/
def State.lookoutOk (s : State) : Bool :=
  let c := s.lkCh
  let k := s.lkSlot
  let x := s.auxSet k
  s.PCH_CFG_EXC_SEL c.val == 0 && s.PCH_CFG_DEMOD_MODE c.val == 0 &&
    (s.PWR_LK_CFG_LK_AUX_DIV == 0 ||
      (x.conv == 0 && x.named.all (fun n => decide (n < 8)) && !(s.auxCause k).getLsbD 7))

/-- The entry conditions of R430 for `t`, LOOKOUT or OFF. -/
def State.mayEnter (s : State) (t : PState) : Bool :=
  !s.safe[(0 : Fin 2)].rel && !s.safe[(1 : Fin 2)].rel && (List.range 7).any (s.wakeCounts t) &&
    (t != .lookout || s.lookoutOk)

/-- Entry begins (R432): Cruise abandons its runs (R372), and the latch of the last wake is emptied (R442). -/
def State.enter (s : State) (t : PState) : State :=
  State.cruiseJudge { s with pwr := { s.pwr with
    st := .entering, before := s.pwr.st, entTgt := t, srcEnt := 0, hostLatched := false, hostClks := 0, hostMore := 0
    replay := 0, netLost := 0, netBuf := [] } }

/-- TARGET as a state. -/
def reqState (t : Fin 4) : PState := if t = 0 then .run else if t = 1 then .doze else if t = 2 then .lookout else .off

/-- A request for the state `t` starts now (R429, R430); Cruise stops or resumes with it (R366, R372). -/
def State.startReq (s : State) (t : Fin 4) : Status × State :=
  match reqState t with
  | .run =>
    let s1 : State := { s with pwr := { s.pwr with st := .run } }
    (.ok, if s.pwr.st = .doze then (s1.startRound.powerRec 3 1).domains else s)
  | .doze => (.ok, if s.pwr.st = .run then
      (({ s with pwr := { s.pwr with st := .doze } }.cruiseJudge).powerRec 2 0).domains else s)
  | u => if s.mayEnter u then (.ok, s.enter u) else s.only .denied

/-- A request by PWR_STATE_REQ (R430, R431): pending while an entry or a DVFS sequence is in progress, in place of one that already
is; before release, in a wake too, PWR is not ready (R97, R98, Table 19.9). -/
def State.stateReq (s : State) (t : Fin 4) : Status × State :=
  if s.pwr.st = .entering ∨ (s.inRun = true ∧ s.pwr.dvfs.isSome) then
    (.ok, { s with pwr := { s.pwr with pend := some t } })
  else if !s.inRun then s.only .notReady
  else s.startReq t

/-- A write of PWR_STATE_REQ (R430). -/
def State.writeStateReq (s : State) (v : Word) : Status × State :=
  if v.fld 16 16 = 0x1D1E then s.stateReq (Fin.ofNat 4 (v.fld 0 2)) else s.only .range

/-- REQ_RUN (R430). -/
def execReqRun (s : State) : Done := finish (s.stateReq 0)

/-- REQ_DOZE (R430). -/
def execReqDoze (s : State) : Done := finish (s.stateReq 1)

/-- REQ_LOOKOUT (R430). -/
def execReqLookout (s : State) : Done := finish (s.stateReq 2)

/-- REQ_OFF (R430). -/
def execReqOff (s : State) : Done := finish (s.stateReq 3)

/-! ## Entry (R432, R435) -/

/-- NET stays on in listen mode (R443). -/
def State.listens (s : State) : Bool := s.netOn && s.wakeEnabled 6

/-- The device is in listen mode, or on its way into or out of it. -/
def State.listening (s : State) : Bool :=
  s.listens && (s.pwr.st == .lookout || (s.pwr.st == .entering && s.pwr.entTgt == .lookout) ||
    (s.pwr.st == .waking && s.pwr.wakeFrom == 2))

/-- The Lookout set (Table 19.4). -/
def State.lookoutSet (s : State) : LkSet :=
  let c := s.lkCh
  let x := s.auxSet s.lkSlot
  let t := (s.scl[c]).trims
  { freq := s.reg 0x50104, phase := s.reg 0x50108, pchCfg := s.reg (pchAddr c 0x44)
    phEst := roundFree 36 (wrapHalf (s.pch[c]).ph.d * 65536)
    trimOfs := t.cosCal ++ t.sinCal, trimGain := t.cosGain ++ t.sinGain
    aux := ⟨#[x.pins, x.cfg, x.lead, x.rref, x.r0, x.short], rfl⟩ }

/-- The words of PWR that lie in AON (Table 19.10). -/
def aonKey (k : Nat) : Bool := decide (k = 0x10048 ∨ k = 0x1004C ∨ (0x10070 ≤ k ∧ k ≤ 0x100C0))

/-- The level of each IRQ pad (R420, Table 2.4): driven from release on, held with CORE's pads. -/
def State.irqPads (s : State) : BitVec 8 :=
  if s.pads.heldCore then s.pads.irq
  else (List.range 8).foldl (fun m n => bput m n (s.boot.released && s.irqLine n)) 0

/-- A FRAM access runs: the image or the slots are read, a store or a programming writes (Table 4.1, R90, R100). The bodies are
read once the first phase of BIST has ended. -/
def State.framBusy (s : State) : Bool :=
  s.boot.store.isSome || s.boot.phase == .framProg || s.boot.phase == .header ||
    (s.boot.phase == .bist && decide (1 ≤ s.boot.bistPhase) && !s.boot.bodyRead)

/-- FRAM_CS_N: high except during an access (Table 2.4), held with CORE's pads. After a wake CORE's pads are held until
PAD_RELEASE, yet the wake apply reads the FRAM and the host's frames act: the model lets both act meanwhile, while the pad shows
its held level and the other inputs of CORE count as held (DESIGN CHOICE, assumption 64). -/
def State.framCsPad (s : State) : Bool := if s.pads.heldCore then s.pads.framCs else !s.framBusy

/-- FRAM_CLK and FRAM_MOSI: low except during an access, in which the bits of the transfer move them (Table 2.4); held with
CORE's pads. -/
def State.framClkPad (s : State) : Bool := s.pads.heldCore && s.pads.framClk
def State.framMosiPad (s : State) : Bool := s.pads.heldCore && s.pads.framMosi

/-- TDO: driven while shifting, else at high impedance (Table 2.4); held with CORE's pads. -/
def State.tdoPad (s : State) : Option Bool := if s.pads.heldCore then s.pads.tdo else s.tap.tdo

/-- The pads as CORE, H0 and H1 go off: every output held (Table 2.7). -/
def State.allHeld (s0 : State) (net : Bool) : Pads :=
  let s := s0.holdPads true 0 0
  { s.pads with
    heldH := ⟨true, true⟩, heldNet := s.pads.heldNet || !net, heldCore := true
    sdclk := ⟨s0.sdclkPad 0, s0.sdclkPad 1⟩, framCs := s0.framCsPad, framClk := s0.framClkPad
    framMosi := s0.framMosiPad, tdo := s0.tdoPad
    sdiOff := ⟨true, true⟩, irq := s0.irqPads }

/-- The SYS header while CORE is off: REF_LOSS, TPLL_UNLOCK and SPLL_UNLOCK stay live until a reset (R68). -/
def FaultHdr.clocksOnly (f : FaultHdr) : FaultHdr :=
  { rawSh := f.rawSh &&& 0xC0, rawH0 := f.rawH0 &&& 1, rawH1 := f.rawH1 &&& 2
    liveSh := f.liveSh &&& 0xC0, liveH0 := f.liveH0 &&& 1, liveH1 := f.liveH1 &&& 2 }

/-- SYS while CORE is off: the reset record, the RTC oscillator, and lost clocks (R68, R70, R76). A software reset that is still
owed as CORE goes off, or as another reset comes, is dropped, and SOFTWARE_RESET then does nothing (R73 names no outcome; DESIGN
CHOICE, assumption 65). -/
def Sys.asleep (y : Sys) : Sys :=
  { cause := y.cause, causesNow := y.causesNow, rstCnt := y.rstCnt, resetLow := y.resetLow, scan := y.scan
    xtalOk := y.xtalOk, tpllLock := y.tpllLock, spllLock := y.spllLock
    rtcXtalOk := y.rtcXtalOk, rtcLprc := y.rtcLprc }

/-- What is left when CORE, H0, H1 and the banks are off (R428): AON with `p`, the pads, the FRAM, the levels of the rails,
the MEM repair (R432), lost clocks (R68), the converters that have failed their calibration (R148, R330), and NET while it listens. -/
def State.aonOnly (s : State) (p : Pwr) (listen : Bool) : State :=
  { ({} : State) with
    pending := s.pending, qb := s.qb, free := s.free, fram := s.fram, clk := s.clk, rails := s.rails
    vexcMv := s.vexcMv
    cfg := s.cfg.filter fun e => aonKey e.1 || (listen && netKey e.1)
    sys := s.sys.asleep
    flt := vset (Vector.replicate 25 {}) Page.sys.idx (s.hdr .sys).clocksOnly
    alive := { s.alive with running := false }
    pads := s.pads
    boot := { repCols := s.boot.repCols, repRows := s.boot.repRows, torn := s.boot.torn }
    pwr := p
    pch := s.pch.map fun x => { calf := x.calf }, aux := { calf := s.aux.calf }
    net := if listen then s.net else {} }

/-- Entry is complete (R432): H0, H1, NET (unless it listens), the banks and CORE are off, and what AON holds is left. -/
def State.coreDown (s : State) : State :=
  let t := s.pwr.entTgt
  let listen := t == .lookout && s.listens
  let p := s.pwr
  let p1 : Pwr := { p with
    st := t, pend := none, half := ⟨.off, .off⟩, net := if listen then .on else .off, core := .off
    bank := Vector.replicate 8 .off, bankInit := 0, calBusy := ⟨false, false⟩, padOpen := ⟨false, false⟩
    padOpenNet := false, stuck := 0, keptVotes := s.votesOfCore, oppNow := 0, dvfs := none, oppPend := none
    offTime := s.clk.time, offRtc := s.clk.rtc, lkSet := s.lookoutSet, lkRun := false, lkCyc := 0
    lkNext := (s.clk.rtc + rtcUnit - 1) / rtcUnit * rtcUnit, lkFcnt := 0, lkAcc := 0, lkPrevE := 0, lkLead := 0, lkLost := false }
  { s.aonOnly p1 listen with pads := s.allHeld listen }.voteAll

/-- The state after an entry meets the wake sources seen meanwhile, and a pending request (R431, R441). -/
def State.afterEntry (s : State) (pend : Option (Fin 4)) : State :=
  let p := s.pwr
  let awake := pend == some 0 || pend == some 1
  if p.srcEnt ≠ 0 then
    (if awake then s.startWake (bput p.srcEnt 5 true) (s.earliest p.firstEnt 5) else s.startWake p.srcEnt p.firstEnt)
  else if awake then s.wakeBy 5
  else if pend = some 3 ∧ p.st = .lookout then { s.netDown with pwr := { s.netDown.pwr with st := .off } }
  else s

/-- ENTRY_COMPLETE (R432): once any calibration store has completed (R91). -/
def execEntryComplete (s : State) : Done :=
  if s.pwr.st = .entering ∧ s.boot.store = none then .next (s.coreDown.afterEntry s.pwr.pend)
  else .next s

/-! ## Operating points (R433, R434) -/

/-- A sequence towards operating point `v` starts (R433); moving down, the divider switches first, within 200 ns of which the model
shows the end at once (DESIGN CHOICE, assumption 69). What a Cruise run has done so far counts at the clock before. -/
def State.startDvfs (s0 : State) (v : BitVec 2) : State :=
  let s := s0.crzMark
  { s with pwr := { s.pwr with
    dvfs := some v, dvfsFrom := s.pwr.oppNow, dvfsAt := s.clk.cyc
    oppNow := if s.pwr.oppNow.toNat < v.toNat then v else s.pwr.oppNow } }

/-- The transition has ended: a pending operating point other than the present one starts, else a pending state
request (R431). -/
def State.afterDvfs (s : State) : State :=
  let s1 : State := { s with pwr := { s.pwr with oppPend := none } }
  match s.pwr.oppPend.filter (fun v => v != s.pwr.oppNow) with
  | some v => s1.startDvfs v
  | none =>
    match s1.pwr.pend with
    | some t =>
      let s2 : State := { s1 with pwr := { s1.pwr with pend := none } }
      if reqState t = s2.pwr.st then s2 else (s2.startReq t).2
    | none => s1

/-- OPP_TGT written (R431, R433). -/
def State.writeOpp (s : State) (v : BitVec 2) : State :=
  let s1 := s.setReg 0x10048 (Word.put 0 2 v.toNat)
  if s1.pwr.dvfs.isSome then { s1 with pwr := { s1.pwr with oppPend := some v } }
  else if v = s1.pwr.oppNow then s1
  else s1.startDvfs v

/-- OPP_TGT_WRITE (R433). -/
def execOppTgtWrite (v : BitVec 2) (s : State) : Done := finish (.ok, s.writeOpp v)

/-- DVFS_DONE (R433): the ramp and the divider switch are over, OPP_NOW is the target, and a record of code 4 is written. -/
def execDvfsDone (s0 : State) : Done :=
  match s0.pwr.dvfs with
  | none => .next s0
  | some v =>
    let s := (s0.waitTill (s0.dvfsEnd v)).crzMark
    let s1 : State := { s with pwr := { s.pwr with oppNow := v, dvfs := none } }
    .next ((s1.avsResume.powerNote 4).afterDvfs)

/-- DVFS_TMO (R434): 5 µs after the ramp should have ended the sequence stops, and the core clock stays at the lower of the two
frequencies. -/
def execDvfsTmo (s0 : State) : Done :=
  match s0.pwr.dvfs with
  | none => .next s0
  | some v =>
    let s := (s0.waitTill (s0.rampEnd v + usCyc 5)).crzMark
    let low := if s.pwr.dvfsFrom.toNat < v.toNat then v else s.pwr.dvfsFrom
    let s1 : State := { s with pwr := { s.pwr with oppNow := low, dvfs := none } }
    .next ((s1.avsResume.event .pwr 1 .shared).afterDvfs)

/-- VOTE_WRITE (R426). -/
def execVoteWrite (v : Word) (s : State) : Done := finish (.ok, s.writeVotes v)

/-! ## Return that fails (R451) -/

/-- DOM_TMO reported. -/
def State.domTmoEvent (s : State) : State := s.event .pwr 2 .shared

/-- A DOM_TMO of CORE or of a bank during a wake restarts the wake once; a second one leaves the device in OFF (R446). -/
def State.wakeRetry (s : State) : State :=
  let listen := s.listening
  let p1 : Pwr := { s.pwr with
    tmoNow := true, half := ⟨.off, .off⟩, bank := Vector.replicate 8 .off, bankInit := 0, stuck := 0
    calBusy := ⟨false, false⟩, net := if listen then .on else .off }
  if s.pwr.wakeRestarts = 0 then
    s.aonOnly { p1 with wakeRestarts := 1, core := .rising s.nextTick, wakeAt := s.clk.cyc } listen
  else s.aonOnly { p1 with st := .off, wakeFail := true, offHeld := true, core := .off, net := .off } false

/-- DOM_TMO (R451): 500 µs after a return began, the domain is switched off again and the failure recorded; a wake in which it
happens does not complete without one. -/
def execDomTmo (x : Dom) (s : State) : Done :=
  let mark (st : State) (i : Nat) : State :=
    { st with pwr := { st.pwr with stuck := bput st.pwr.stuck i true, tmoNow := st.pwr.tmoNow || st.pwr.st == .waking } }
  match x with
  | .h0 => match s.pwr.half.h0 with
    | .rising t =>
      let s1 := s.waitTill (t + usCyc 500)
      .next (mark { s1 with pwr := { s1.pwr with
        half := s1.pwr.half.set .h0 .off, domFail := bput s1.pwr.domFail 0 true } } 0).domTmoEvent
    | _ => .next s
  | .h1 => match s.pwr.half.h1 with
    | .rising t =>
      let s1 := s.waitTill (t + usCyc 500)
      .next (mark { s1 with pwr := { s1.pwr with
        half := s1.pwr.half.set .h1 .off, domFail := bput s1.pwr.domFail 1 true } } 1).domTmoEvent
    | _ => .next s
  | .net => match s.pwr.net with
    | .rising t =>
      let s1 := s.waitTill (t + usCyc 500)
      .next (mark { s1 with pwr := { s1.pwr with net := .off, domFail := bput s1.pwr.domFail 2 true } } 2).domTmoEvent
    | _ => .next s
  | .core => match s.pwr.core with
    | .rising t =>
      let s1 := s.waitTill (t + usCyc 500)
      .next ({ s1 with pwr := { s1.pwr with coreTmo := true } }.wakeRetry)
    | _ => .next s
  | .bank b => match s.pwr.bank[b] with
    | .rising t =>
      let s1 := s.waitTill (t + usCyc 500)
      let wk := s1.pwr.st == .waking
      let s2 := (mark { s1 with pwr := { s1.pwr with
        bank := vset s1.pwr.bank b .off, bankFail := bput s1.pwr.bankFail b.val true
        memTmo := s1.pwr.memTmo || wk } } (3 + b.val)).domTmoEvent
      .next (if wk then s2.wakeRetry else s2)
    | _ => .next s

/-! ## Pads after a return (R52, R53) -/

/-- The half that releases the ENC or AEV pad of drive `d`: the single holder, if its bit is written. -/
def State.padHolder (s : State) (d : Drive) (m : Two Bool) : Bool :=
  match s.holderHalf d with
  | none => false
  | some h => m.get h

/-- The half of the digital channel that clocks pad `pin` (AEV_0–7 as 0–7, ENC_0_Z–ENC_3_Z as 8–11), if one does. -/
def State.claimHalf (s : State) (pin : Nat) : Option Half := (s.clockOf pin).map fun n => excHalf n.val

/-- The pads of encoder output `n` released. -/
def State.releaseEnc (s : State) (m : Two Bool) (n : Fin 4) : State :=
  let own := s.padHolder s.enc[n].drive m
  let z := match s.claimHalf (8 + n.val) with
    | none => own
    | some h => m.get h
  let p := s.pads
  ({ s with pads := { p with
    encHeld := if own then bput p.encHeld n.val false else p.encHeld
    encZHeld := if z then bput p.encZHeld n.val false else p.encZHeld } }).encPads n

/-- The pad of output AEV_n released. -/
def State.releaseAev (s : State) (m : Two Bool) (n : Fin 8) : State :=
  let go := match s.claimHalf n.val with
    | none => s.padHolder (s.outDrive n) m
    | some h => m.get h
  let p := s.pads
  let held := if go then bput p.aevHeld n.val false else p.aevHeld
  { s with pads := { p with
    aevHeld := held, aev := if held.getLsbD n.val then p.aev else bput p.aev n.val (s.aev.out[n]).lvl } }

/-- A write of PAD_RELEASE (R52): a bit acts for a domain that is on. -/
def State.padRelease (s : State) (v : Word) : State :=
  let m : Two Bool := ⟨v.bit 0 && s.halfOn .h0, v.bit 1 && s.halfOn .h1⟩
  let net := v.bit 2 && s.netOn
  let core := v.bit 3 && s.coreOn
  let p := s.pads
  let off (h : Half) : Bool := p.heldH.get h && !m.get h
  let s1 : State := { s with
    pads := { p with
      heldH := ⟨off .h0, off .h1⟩
      sdiOff := ⟨p.sdiOff.h0 && !m.h0, p.sdiOff.h1 && !m.h1⟩
      heldNet := p.heldNet && !net, heldCore := p.heldCore && !core }
    pwr := { s.pwr with
      padOpen := ⟨s.pwr.padOpen.h0 && !m.h0, s.pwr.padOpen.h1 && !m.h1⟩
      padOpenNet := s.pwr.padOpenNet && !net } }
  let s2 := (List.finRange 4).foldl (fun st n => st.releaseEnc m n) s1
  let s3 := (List.finRange 8).foldl (fun st n => st.releaseAev m n) s2
  s3.alivePad.sdclkFrom s

/-- PAD_RELEASE (R52). -/
def execPadRelease (v : Word) (s : State) : Done := finish (.ok, s.padRelease v)

/-! ## Lookout (R436 to R439) -/

/-- A millisecond in units of the RTC counter. -/
def msRtc : Nat := 1280000000

/-- LK_NPER, at least 4. -/
def State.lkPer (s : State) : Nat := max 4 s.PWR_LK_CFG_LK_NPER

/-- EXC_0 in a Lookout cycle that is ready at cycle `t` (R113, R436): STATE LOOKOUT, open loop at LK_LVL, the copied FREQ_HZ
and PHASE_OFS. Its phase counts from the zero crossing that starts the ramp, the first from `t` on. -/
def State.lkExc (s : State) (t : Nat) : Exc :=
  let p := s.pwr.lkSet.phase.fld 0 16
  let car : Carrier := { ph := if p = 0 then 0 else (p : Rat) / 65536 - 1, t0 := t, freq := s.pwr.lkSet.freq.fld 0 16 }
  { ({} : Exc) with st := .lookout, phase := p, lvl := s.PWR_LK_EXC_LK_LVL, car := car, old := car }

/-- The level requested of EXC_0 at this instant of a Lookout cycle, in 10 mV units (R113, R436): 2 periods up, LK_NPER
measured, 2 down; the limit of R102 holds throughout. -/
def State.lkLvl (s : State) : Nat :=
  let x := s.exc[(0 : Fin 4)]
  let t := x.phaseAt s.clk.cyc
  let n : Rat := (s.lkPer : Nat)
  let l : Rat := (x.lvl : Nat)
  if x.st ≠ .lookout ∨ t < 0 ∨ n + 4 ≤ t then 0
  else min (s.lvlLimit 0)
    (if t < 2 then (roundFree 50 (l * t / 2)).toNat
    else if t < n + 2 then x.lvl
    else (roundFree 51 (l * (n + 4 - t) / 2)).toNat)

/-- LOOKOUT_CYCLE_START (R436): every LK_PER_MS ms from the RTC tick at which entry completed; EXC_0 runs from the first zero
crossing at or after 300 µs. -/
def execLookoutCycleStart (s : State) : Done :=
  if s.pwr.st = .lookout ∧ s.pwr.lkRun = false then
    let s1 := s.wait (s.cyclesFor (s.pwr.lkNext - s.clk.rtc))
    .next { s1 with
      exc := vset s1.exc 0 (s1.lkExc (s1.clk.cyc + usCyc 300))
      pwr := { s1.pwr with lkRun := true, lkLost := false, lkNext := s1.pwr.lkNext + max 1 s1.PWR_LK_CFG_LK_PER_MS * msRtc } }
  else .next s

/-- The cycle under way measures the slot (R436). -/
def State.lkMeasures (s : State) : Bool :=
  s.PWR_LK_CFG_LK_AUX_DIV != 0 && (s.pwr.lkCyc + 1) % s.PWR_LK_CFG_LK_AUX_DIV == 0

/-- The slot's settings as copied (Table 19.4). -/
def LkSet.slot (l : LkSet) : AuxSet :=
  { pins := l.aux[0], cfg := l.aux[1], rref := l.aux[3], lead := l.aux[2], r0 := l.aux[4], limHi := 0, limLo := 0, short := l.aux[5] }

/-- The slot's visit in the cycle under way with the conversions `l`, oldest first (R321, R335): at GAIN, as a slot that first runs;
the lead conversions come with the first visit since entry and with every LEAD_DIV-th. -/
def State.lkMeasure (s : State) (l : List Conv) : AuxVisit :=
  let x := s.pwr.lkSet.slot
  let k := (s.pwr.lkCyc + 1) / s.PWR_LK_CFG_LK_AUX_DIV - 1
  { slot := s.lkSlot, set := x, gS := x.gain, gL := x.gain, lead := x.leadMode == 1 && k % max 1 (x.lead.fld 16 4) == 0
    convs := l.reverse, settling := false, till := 0, t0 := 0, stamp := none, ended := none }

/-- TCLK cycles of that visit: each conversion with its settle. -/
def State.lkVisit (s : State) : Nat :=
  let v := s.lkMeasure []
  v.nConv * (v.set.settle + v.set.tconv)

/-- The cycle at which the Lookout cycle under way ends (R436): 20 µs after the later of the ramp-down and the visit. -/
def State.lkEnd (s : State) : Nat :=
  let x := s.exc[(0 : Fin 4)].car
  let ramp := x.t0 + (x.cycles ((s.lkPer : Nat) + 4 - x.ph)).ceil.toNat
  let visit := if s.lkMeasures then x.t0 + s.lkVisit else 0
  max ramp visit + usCyc 20

/-! ### Motion (R437) -/

/-- The first cycle of the first measured period: that of the first sample. -/
def State.lkStart (s : State) : Nat :=
  let x := s.exc[(0 : Fin 4)].car
  x.t0 + (x.cycles (2 - x.ph)).ceil.toNat

/-- The front end after each of the samples `l`, with the copied RANGE, CMW_MARGIN and offsets (R126 to R130, R437); the copied gains
act in the converters, whose codes these are. -/
def LkSet.fronts (k : LkSet) (f : Front) : List Sample → List Front
  | [] => []
  | x :: t =>
    let peak := peakOf (k.pchCfg.fld 0 2)
    let g := f.sample peak (windowHalf peak (k.pchCfg.fld 12 4)) (k.trimOfs.sfld 0 16, k.trimOfs.sfld 16 16) false x
    g :: k.fronts g t

/-- The sums of measured period `j` (R133, R437): its valid samples, every 100 ns from the start of the first period on, demodulated
with the copied lag. -/
def State.lkSums (s : State) (m : LookoutMeas) (j : Nat) : TickSum :=
  let fs := s.pwr.lkSet.fronts {} m.samples
  let one (t : TickSum) (e : Nat × Front) : TickSum :=
    let phi := s.exc[(0 : Fin 4)].phaseAt (s.lkStart + 40 * e.1)
    let lag := phi - (s.pwr.lkSet.phEst : Rat) / 65536
    if phi.floor = (j : Int) + 2 ∧ e.2.invRun = 0 then t.add e.2.rawSin e.2.rawCos (sinT lag) (cosT lag) 0 else t
  ((List.range fs.length).zip fs).foldl one ⟨0, 0, 0, 0, 0, 0, true, 0⟩

/-- The pair of measured period `j`, zero without energy. -/
def State.lkPair (s : State) (m : LookoutMeas) (j : Nat) : Rat × Rat :=
  let t := s.lkSums m j
  if t.e = 0 then (0, 0) else (t.si / t.e, t.ci / t.e)

/-- The angle of measured period `j` in 2^-16 e-turn, within ±0.5 e-turn (R437). -/
def State.lkAngle (s : State) (m : LookoutMeas) (j : Nat) : Int :=
  wrapSigned 65536 (roundFree 37 (atanT (s.lkPair m j).1 (s.lkPair m j).2 * 65536))

/-- Its amplitude, 4,096 for the range peak (R141, R439). -/
def State.lkAmp (s : State) (m : LookoutMeas) (j : Nat) : Rat :=
  let p := s.lkPair m j
  sqrtT (p.1 * p.1 + p.2 * p.2) * 4096 / 26214

/-! ### What a cycle has seen (R437 to R439) -/

/-- What the end of a cycle judges: θ_s, θ_e, the slot's result with its validity, and the fault conditions. -/
structure LkRes where
  ts : Int
  te : Int
  aux : AuxRes
  valid : Bool
  fault : Bool

/-- The cycle under way judged (R437 to R439): three consecutive invalid samples, a period below LK_AMIN, a trip source of EXC_0, a
slot result without VALID (R327, R330), or VDDA_0 lost. -/
def State.lkJudge (s : State) (m : LookoutMeas) : LkRes :=
  let v := s.lkMeasure m.convs
  let r := v.result s.pwr.lkLead s.free
  let dead := !s.rails.vdda0 || s.pwr.lkLost
  let valid := !v.clipped && v.causes r == 0 && !s.aux.calf.getLsbD 0 && !dead
  let wild := (s.pwr.lkSet.fronts {} m.samples).any fun f => decide (3 ≤ f.invRun)
  let weak := (List.range s.lkPer).any fun j => decide (s.lkAmp m j < (s.PWR_LK_AMIN_LK_AMIN : Nat))
  { ts := s.lkAngle m 0, te := s.lkAngle m (s.lkPer - 1), aux := r, valid := valid
    fault := wild || weak || m.excTrip || (s.lkMeasures && !valid) || dead }

/-- LK_MOVE trips (R437): |Δ| beyond its limit in any cycle; |ACC| beyond its own in one that has updated it, but for the first. -/
def State.lkMove (s : State) (delta acc : Int) (sums : Bool) : Bool :=
  decide ((s.PWR_LK_WIN_LK_DWIN : Int) < |delta|) || (sums && decide ((s.PWR_LK_WIN_LK_WIN * 16 : Nat) < |acc|))

/-- LK_AUX trips (R438). -/
def State.lkAux (s : State) (r : LkRes) : Bool :=
  s.lkMeasures && r.valid &&
    (decide (signedOf 24 s.PWR_LK_AHI_LK_AHI < r.aux.p) || decide (r.aux.p < signedOf 24 s.PWR_LK_ALO_LK_ALO))

/-- LOOKOUT_CYCLE_END (R437 to R439): the displacement and the slot result are judged, and EXC_0 is off again. -/
def execLookoutCycleEnd (m : LookoutMeas) (s0 : State) : Done :=
  if s0.pwr.st = .lookout ∧ s0.pwr.lkRun = true then
    let u := s0.waitTill s0.lkEnd
    let r := u.lkJudge m
    let s : State := State.draw { u with exc := vset u.exc 0 {} }
    let p := s.pwr
    let first := p.lkFcnt == p.lkCyc
    let delta := wrapSigned 65536 (r.te - r.ts)
    let acc := if r.fault then p.lkAcc
      else if first then delta else p.lkAcc + wrapSigned 65536 (r.ts - p.lkPrevE) + delta
    let moved := s.lkMove delta acc (!r.fault && !first)
    let aux := u.lkAux r
    let woken := r.fault && s.wakeEnabled 3
    let p1 : Pwr := { p with
      lkRun := false, lkCyc := p.lkCyc + 1, lkAcc := acc, lkPrevE := if r.fault then p.lkPrevE else r.te
      lkFcnt := if r.fault && !woken then p.lkFcnt + 1 else p.lkFcnt
      lkLead := if u.lkMeasures && p.lkSet.slot.leadMode == 1 then r.aux.rLead else p.lkLead
      lkAval := if u.lkMeasures then BitVec.ofInt 24 r.aux.p else p.lkAval
      lkAvalid := if u.lkMeasures then r.valid else p.lkAvalid }
    let s1 : State := { s with pwr := p1 }
    let s2 := if moved then s1.wakeIf 1 else s1
    let s3 := if aux then s2.wakeIf 2 else s2
    .next (if r.fault then s3.wakeIf 3 else s3)
  else .next s0

/-! ## Network frames in listen mode (R443) -/

/-- A frame counts for listen mode: accepted under R386, not a gPTP frame, on an enabled port with link. -/
def State.listenTakes (s : State) (p : Fin 2) (b : List Byte) : Bool :=
  s.NET_CTRL_PORT_EN.testBit p.val && s.net.port[p].link && s.accepts b && etherType b != 0x88F7 && !discards b

/-- NET_WAKE (R441, R443): the frame is buffered, or counted in NET_LOST beyond 16, and the first one wakes the device. -/
def execNetWake (p : Fin 2) (bytes : List Byte) (s : State) : Done :=
  if s.listening && s.listenTakes p bytes then
    let q := s.pwr
    let s1 : State := if q.netBuf.length < 16
      then { s with pwr := { q with netBuf := q.netBuf ++ [(p, bytes)] } }
      else { s with pwr := { q with netLost := min 255 (q.netLost + 1) } }
    .next (s1.wakeIf 6)
  else .next s

/-! ## CORE returns (R445) -/

/-- The time from the wake to CORE ready, in µs (R445): 331 from LOOKOUT; from OFF 631 to 2,131, a free value. -/
def State.wakeUs (s : State) : Nat := if s.pwr.wakeFrom = 2 then 331 else 631 + Config.freeBits 66 s.pwr.wakeCnt % 1501

/-- WAKE_CORE_READY (R445): CORE's registers are at reset, its monitors start, TCLK strobes count from here, the domains
voted for when CORE went off follow at the delays of Table 19.7, and wake apply begins. -/
def execWakeCoreReady (s0 : State) : Done :=
  if s0.pwr.st = .waking ∧ s0.pwr.core ≠ .off ∧ s0.boot.phase = .reset then
    let s := s0.waitTill (s0.pwr.wakeAt + usCyc s0.wakeUs)
    let v := s.voteHost ||| s.pwr.keptVotes
    let rise (want : Bool) (us : Nat) : DomSt := if want then .rising (usCyc us) else .off
    let exp (x : VPin) : VPin := if x.holdUntil.isSome then { x with sink := false } else x
    let s1 : State := { s with
      clk := { s.clk with cyc := 0 }
      pads := { s.pads with
        inh := s.pads.inh.map exp, asc := s.pads.asc.map exp, dis := exp s.pads.dis }
      boot := { s.boot with phase := .header, kind := .wake }
      pwr := { s.pwr with
        core := .on
        half := ⟨rise (v.bit 0) 200, rise (v.bit 1) 400⟩
        net := if s.pwr.net.isOn then .on else if s.qb then .off else rise (v.bit 2) 600
        bank := Vector.ofFn fun b => rise (v.bit (8 + b.val)) 0 } }
    .next s1.startMonitors
  else .next s0

end Sys2Proof.Machine
end

