-- ==== Sys2Proof/Machine/Votes.lean ====
section
/-! DEFINITION. The commands of other chapters that change a domain's votes: their effect, and then the domains' answer
(R426, Table 19.1). -/

namespace Sys2Proof.Machine

/-- HANDOVER_DONE: the handover (Table 10.1), and the halves' votes that move with the authority (R19, R426). -/
def execHandoverDone (d : Drive) (s : State) : Done := thenDomains (handoverDone d s)

/-- HOLDER_CLAIM_LOST (R251). -/
def execHolderClaimLost (d : Drive) (s : State) : Done := thenDomains (holderClaimLost d s)

/-- AUTH_CONFLICT (R247). -/
def execAuthConflict (d : Drive) (s : State) : Done := thenDomains (authConflict d s)

/-- CRUISE_ROUND_START (R368), with the vote for the bank under test (R374). -/
def execCruiseRoundStart (s : State) : Done := thenDomains (cruiseRoundStart s)

/-- RESTART_RND (R368). -/
def execRestartRnd (s : State) : Done := thenDomains (restartRnd s)

/-- CRUISE_RUN_END (R371). -/
def execCruiseRunEnd (i : Fin 15) (terminal sigOk : Bool) (detail : BitVec 24) (s : State) : Done :=
  thenDomains (cruiseRunEnd i terminal sigOk detail s)

/-- ARM (R392): the ring's banks are voted for. -/
def execArm (n : Fin 8) (s : State) : Done := thenDomains (armRec n s)

/-- DISARM (R393): the votes for the ring's banks end. -/
def execDisarm (n : Fin 8) (s : State) : Done := thenDomains (disarmRec n s)

end Sys2Proof.Machine
end

