-- ==== Sys2Proof/Machine/BootCore.lean ====
section
/-! DEFINITION. Boot up to the records of the image: header and body checks, calibration slots, power-up self-test, the
unconfigured hold, downloads, and stores of the calibration (R77 to R94, R98 to R100, R201 to R203). -/

namespace Sys2Proof.Machine

/-! ## CRC-32 (R81) -/

/-- One bit of the reflected CRC-32. -/
def crc32Bit (c : Nat) : Nat := if c % 2 = 1 then (c / 2) ^^^ 0xEDB88320 else c / 2

/-- `n` bits. -/
def crc32Bits : Nat → Nat → Nat
  | 0, c => c
  | n + 1, c => crc32Bits n (crc32Bit c)

/-- CRC-32 of R81 over `l`. -/
def crc32 (l : List Byte) : Nat :=
  (l.foldl (fun c (b : Byte) => crc32Bits 8 (c ^^^ b.toNat)) 0xFFFFFFFF) ^^^ 0xFFFFFFFF

/-- The `n` bytes at offset `o` as a number (R81). -/
def fieldAt (l : List Byte) (o n : Nat) : Nat := leNat ((l.drop o).take n)

/-! ## Image (R80 to R84) -/

/-- Place of the staging window in the SRAM (R98, R459). -/
def stageBase : Nat := 0x700000

/-- The HOLD_CAUSE of a header, 0 if it passes (R82, R83). -/
def headerCause (qb : Bool) (h : List Byte) : Nat :=
  let needs := fieldAt h 0x0E 2
  let len := fieldAt h 0x08 4
  if fieldAt h 0 4 ≠ 0x4D494C48 then 1
  else if fieldAt h 0x3C 4 ≠ crc32 (h.take 0x3C) then 2
  else if fieldAt h 4 2 ≠ 1 ∨ fieldAt h 6 2 ≠ 0x40 ∨ 2 < fieldAt h 0x14 1 ∨ 1 < fieldAt h 0x15 1 ∨
      fieldAt h 0x16 38 ≠ 0 ∨ 2 ≤ needs then 3
  else if fieldAt h 0x0C 2 ≠ 0x8640 ∨ (qb ∧ needs = 1) then 4
  else if len % 4 ≠ 0 ∨ len < 8 ∨ 253888 < len then 5
  else 0

/-- The body check (R84): the last 8 bytes are an END record with LEN 4, and its CRC is right. FLAGS of END are not judged:
the check names TYPE, LEN and the CRC (DESIGN CHOICE, assumption 61). -/
def bodyOk (b : List Byte) : Bool :=
  let e := b.drop (b.length - 8)
  decide (8 ≤ b.length) && fieldAt e 0 1 == 0x0F && fieldAt e 2 2 == 4 &&
    fieldAt e 4 4 == crc32 (b.take (b.length - 4))

/-- The result of the header checks is kept; a header that passes gives IMG_ID, BODY_LEN and CAL_USE. -/
def State.takeHeader (s : State) (h : List Byte) : State :=
  let c := headerCause s.qb h
  let b := s.boot
  if c = 0 then
    { s with boot := { b with
      imgCause := 0, imgId := BitVec.ofNat 32 (fieldAt h 0x10 4), bodyLen := fieldAt h 8 4
      calUse := fieldAt h 0x15 1 } }
  else { s with boot := { b with imgCause := c, bodyLen := 0 } }

/-- `n` bytes of the FRAM from address `a`. -/
def State.framBytes (s : State) (a n : Nat) : List Byte := Memory.readBytes framDefault s.fram a n

/-- `n` bytes of the staging window from offset `a`. -/
def State.stageBytes (s : State) (a n : Nat) : List Byte := Memory.readBytes sramDefault s.sram (stageBase + a) n

/-! ## Calibration slots (R88, R89) -/

/-- A slot image of 4,096 bytes is valid (R89). -/
def slotOk (l : List Byte) : Bool :=
  fieldAt l 0 4 == 0x53434C48 && fieldAt l 4 2 == 1 && fieldAt l 6 2 == 0x0FE0 &&
    fieldAt l 0x1C 4 == crc32 (l.take 0x1C ++ (l.drop 0x20).take 4064)

/-- Slot B is newer than slot A by their generations (R89). -/
def newerB (genA genB : Nat) : Bool :=
  let d := (genB + 2 ^ 32 - genA) % 2 ^ 32
  decide (1 ≤ d ∧ d ≤ 2 ^ 31 - 1)

/-- The slots as read at boot: validity and generations. -/
def State.readSlots (s : State) : State :=
  let a := s.framBytes (slotBase false) 4096
  let b := s.framBytes (slotBase true) 4096
  { s with boot := { s.boot with
    aValid := slotOk a && !s.boot.torn.getLsbD 0, bValid := slotOk b && !s.boot.torn.getLsbD 1, genA := fieldAt a 8 4, genB := fieldAt b 8 4 } }

/-- The slot that R89 loads: 0 neutral, 1 A, 2 B. -/
def State.slotChoice (s : State) : Nat :=
  let b := s.boot
  if b.calUse = 1 then 0
  else match b.aValid, b.bValid with
    | true, true => if newerB b.genA b.genB then 2 else 1
    | true, false => 1
    | false, true => 2
    | false, false => 0

/-! ## Unconfigured hold (R98) -/

/-- Every pad but the safe-state pins in its state from reset to release (Table 2.4). -/
def Pads.unheld (p : Pads) : Pads := { ({} : Pads) with inh := p.inh, asc := p.asc, dis := p.dis }

/-- The hold is entered with cause `c`; after a failed wake held pads go to their reset-to-release state (R446). -/
def State.enterHold (s : State) (c : Nat) : State :=
  { s with
    boot := { s.boot with phase := .hold, inHold := true, holdCause := c }
    pads := s.pads.unheld
    alive := {} }

/-! ## Power-up self-test (R92 to R94) -/

/-- The two banks of self-test phase `k` + 1 (Table 4.6). -/
def bistBanks (k : Nat) : Fin 8 × Fin 8 := (Fin.ofNat 8 (6 - 2 * k), Fin.ofNat 8 (7 - 2 * k))

/-- Half of the logic engine of phase `k` + 1: H0 in phase 2, H1 in phase 3. -/
def bistHalf (k : Nat) : Option Half := if k = 1 then some .h0 else if k = 2 then some .h1 else none

/-- The engines of phase `k` + 1 run; faults of Table 3.4 live now count (R93). -/
def State.startBist (s : State) (k : Nat) : State :=
  let b := s.boot
  let e (i : Fin 6) : Vector Nat 6 := vset b.bistEng i 1
  let bk := bistBanks k
  let b1 : Boot :=
    if k = 4 then { b with bistEng := vset (e 4) 5 1 }
    else { b with
      bistEng := if k = 3 ∧ s.qb then vset b.bistEng 3 7 else e (Fin.ofNat 6 k)
      bistMem := vset (vset b.bistMem bk.1 1) bk.2 1 }
  { s with boot := { b1 with phase := .bist, bistPhase := k, bistTaint := s.fltLive .sys } }

/-- A fault whose scope covers the domain of an engine of half `h`, or of no half, was live during the phase (R93). -/
def State.tainted (s : State) (h : Option Half) : Bool :=
  (List.range 32).any fun b =>
    s.boot.bistTaint.getLsbD b && (s.scope .sys b == none || (h.isSome && s.scope .sys b == h))

/-- The result of a logic or analogue engine (R93). -/
def engineRes (r : BistRun) (tainted : Bool) : Nat :=
  if tainted then 5 else if r.sigOk then (if r.terminal then 2 else 5) else 4

/-- The columns that fail in two or more rows (R94). -/
def badCols (c : List (Nat × Nat)) : List Nat :=
  ((c.map Prod.snd).dedup).filter fun k => decide (2 ≤ ((c.filter fun e => e.2 == k).map Prod.fst).dedup.length)

/-- The columns that take the spares: every bad one up to two; which two of more, the spec leaves open. -/
def spareCols (c : List (Nat × Nat)) (free : Nat) : List Nat :=
  let b := badCols c
  if b.length ≤ 2 then b
  else
    let i := Config.freeBits 80 free % b.length
    let rest := b.eraseIdx i
    [b.getD i 0, rest.getD (Config.freeBits 81 free % rest.length) 0]

/-- The repair of a bank (R94): spare columns, rows still failing. -/
def repair (c : List (Nat × Nat)) (free : Nat) : Nat × Nat :=
  let cols := spareCols c free
  (cols.length, (((c.filter fun e => !cols.contains e.2).map Prod.fst).dedup).length)

/-- The result of an SRAM engine with the repair of its bank (R93, R94). -/
def memRes (r : BistRun) (tainted : Bool) (rep : Nat × Nat) : Nat :=
  if tainted then 5
  else if 4 < rep.2 ∨ ¬ r.secondOk then 6
  else if ¬ r.sigOk then 4
  else if ¬ r.terminal then 5
  else if rep = (0, 0) then 2 else 3

/-- Bank `b` has been tested; the repair is held until the next reset. -/
def State.bankTested (s : State) (b : Fin 8) (r : BistRun) : State :=
  let rep := repair r.cells s.free
  let q := s.boot
  { s.draw with boot := { q with
    bistMem := vset q.bistMem b (memRes r (s.tainted none) rep)
    repCols := vset q.repCols b rep.1, repRows := vset q.repRows b (min 4 rep.2) } }

/-- The results of a phase are latched. -/
def State.bistLatch (s : State) (k : Nat) (lo hi logic : BistRun) : State :=
  if k = 4 then
    { s with boot := { s.boot with
      bistEng := vset (vset s.boot.bistEng 4 (engineRes lo (s.tainted (some .h0)))) 5
        (engineRes hi (s.tainted (some .h1))) } }
  else
    let bk := bistBanks k
    let s1 := (s.bankTested bk.1 lo).bankTested bk.2 hi
    if k = 3 ∧ s.qb then s1
    else { s1 with boot := { s1.boot with
      bistEng := vset s1.boot.bistEng (Fin.ofNat 6 k) (engineRes logic (s.tainted (bistHalf k))) } }

/-- BIST_PHASE_END (R92). In the fifth phase `bankLo` and `bankHi` are the analogue engines of H0 and H1. -/
def execBistPhaseEnd (bankLo bankHi logic : BistRun) (s : State) : Done :=
  let k := s.boot.bistPhase
  if s.boot.phase = .bist ∧ k < 5 then
    let s1 := s.bistLatch k bankLo bankHi logic
    .next (if k = 4 then { s1 with boot := { s1.boot with bistPhase := 5 } } else s1.startBist (k + 1))
  else .next s

/-- Every engine result is PASS, PASS_REPAIRED or ABSENT (R95). -/
def Boot.bistPass (b : Boot) : Bool :=
  (b.bistEng.toList ++ b.bistMem.toList).all fun r => r == 2 || r == 3 || r == 7

/-! ## Header and body (R77, R83, R84) -/

/-- HEADER_READ_DONE (R77, R83): the header checks are complete; BIST begins, but not in a wake (R446). -/
def execHeaderReadDone (s : State) : Done :=
  if s.boot.phase = .header ∧ s.boot.hdrRead = false then
    let s1 := s.takeHeader (s.framBytes 0 64)
    let s2 : State := { s1 with boot := { s1.boot with hdrRead := true } }
    .next (if s.boot.kind = .wake then s2 else s2.startBist 0)
  else .next s

/-- The body's check is kept unless an earlier one has failed. -/
def State.judgeBody (s : State) (b : List Byte) : State :=
  if s.boot.imgCause = 0 ∧ bodyOk b = false then { s with boot := { s.boot with imgCause := 6 } } else s

/-! ## The walk over the records (R84, R85, R87) -/

/-- The words that the end of a failed apply returns to reset: all but AON's and BOOT's (R87). -/
def undoneKey (k : Nat) : Bool :=
  let a := k % 0x100000000
  !aonKey a && !decide (pageOf a = some .boot)

/-- What the writes of a failed apply have set going goes back to reset with their registers; what the blocks observe by
themselves (results, levels, temperatures, trims) stays (R87). -/
def State.undoBlocks (s : State) : State :=
  let pch (x : Pch) : Pch := { x with tn := { x.tn with pendSect := none, predLo := 0, predT := 0 } }
  let exc (x : Exc) : Exc := { ({} : Exc) with temp := x.temp }
  let scl (x : Scl) : Scl := { ({} : Scl) with trims := x.trims }
  let dch (x : Dch) : Dch := { ({} : Dch) with lvl := x.lvl }
  let seen (x : XDrive) : XDrive := { x with seen := ⟨false, false⟩, capBusy := false, capCnt := 0, capSum := 0 }
  let que (x : Queue) : Queue := { x with dropEv := false }
  let aux : Aux := { ({} : Aux) with calf := s.aux.calf, cmwOut := s.aux.cmwOut }
  let sdm : Sdm := { s.sdm with tqTimer := ⟨#[0, 0], rfl⟩, dis := ⟨false, false⟩ }
  let sys : Sys := { s.sys with avsHeld := none }
  { s with
    pch := s.pch.map pch, exc := s.exc.map exc, scl := s.scl.map scl, dch := s.dch.map dch
    enc := Vector.ofFn Enc.reset, aev := {}, aux := aux, sdm := sdm, xd := s.xd.map seen
    frec := Vector.replicate 8 {}, sys := sys, que := { s.que with q := s.que.q.map que }, unlock := {} }

/-- FLT_LIVE keeps the bits that FLT_FORCE has set, though FLT_FORCE goes back to reset (R87). -/
def State.keepForced (s : State) : State :=
  { s with flt := Page.all.foldl (fun v p =>
      vupd v p.idx fun f => { f with liveSh := f.liveSh ||| s.fltForce p }) s.flt }

/-- Apply ends on the record at `walk`: fields back at reset, its offset noted, and the hold with cause `c`, 7 RECORD or 8
APPLY (R87). R87 names register fields alone: words of SRAM that SRAM_LOAD or SRAM_FILL of the failed image wrote stay as
written, also past the release of a later download (DESIGN CHOICE, assumption 65). -/
def State.failApply (s : State) (c : Nat) : State :=
  let s1 := (s.keepForced.dropRegs undoneKey undoneKey).undoBlocks
  let s2 : State := { s1 with boot := { s1.boot with errOfs := 0x40 + s.boot.walk } }
  ((s2.judgeDrvAll.auxJudge.reform).ringCfg.settleAll).enterHold c

/-- The head of a record (R84). -/
structure RecHead where
  type : Nat
  flags : Nat
  len : Nat

/-- The head at `walk`. -/
def State.recHead (s : State) : RecHead :=
  let l := s.stageBytes (0x40 + s.boot.walk) 4
  ⟨fieldAt l 0 1, fieldAt l 1 1, fieldAt l 2 2⟩

/-- The place of END's head in the body. -/
def Boot.endAt (b : Boot) : Nat := b.bodyLen - 8

/-- No record can be found after this one: LEN is no multiple of 4, or the payload runs past the head of END (R85). -/
def State.recFatal (s : State) (r : RecHead) : Bool :=
  r.len % 4 != 0 || decide (s.boot.endAt < s.boot.walk + 4 + r.len)

/-- The walk moves past the record. -/
def State.pastRec (s : State) (r : RecHead) : State :=
  { s with boot := { s.boot with walk := s.boot.walk + 4 + r.len } }

/-- The record fails with cause `c`; `s` is the state before it, `bad` the state its failure has left: skipped whole and
counted if OPTIONAL, else the end of apply (R85). -/
def State.recFails (s bad : State) (r : RecHead) (c : Nat) : State :=
  if r.flags % 2 = 1 ∧ s.recFatal r = false then
    State.pastRec { s with boot := { s.boot with skipCnt := min 65535 (s.boot.skipCnt + 1) } } r
  else bad.failApply c

/-- Records whose TYPE is none of Table 4.4, or 0x0F before the head of END, are met and judged at once (R85). -/
def State.settleWalk (s : State) : Nat → State
  | 0 => s
  | n + 1 =>
    let r := s.recHead
    if s.boot.phase ≠ .apply ∨ s.boot.endAt ≤ s.boot.walk ∨ (1 ≤ r.type ∧ r.type ≤ 6) then s
    else (s.recFails s r 7).settleWalk n

/-- Apply begins at the start of the body; authority is H0's until a record says otherwise (R30, R86). -/
def State.beginApply (s : State) : State :=
  let s1 : State := { s with boot := { s.boot with
    phase := .apply, walk := 0, authInit := ⟨#[.h0, .h0], rfl⟩ } }
  s1.settleWalk s1.boot.bodyLen

/-- What boot has read lies in the staging region at its FRAM addresses: the header with the body, unless the header failed,
and both slots (Table 4.1, R83; DEDUCED, assumption 61). -/
def State.staged (s : State) (body : List Byte) : List Host.Cell :=
  let put (m : List Host.Cell) (a : Nat) (l : List Byte) : List Host.Cell := Memory.writeBytes sramDefault m (stageBase + a) l
  let slot (b : Bool) : List Byte := s.framBytes (slotBase b) 4096
  put (put (put s.sram 0 (s.framBytes 0 64 ++ body)) (slotBase false) (slot false)) (slotBase true) (slot true)

/-- BODY_READ_DONE (R77, R84): header, body and slots lie in the staging region, slot and body CRCs are known. A wake goes on
to apply, or to the hold. -/
def execBodyReadDone (s : State) : Done :=
  let b := s.boot
  let wake := b.kind == .wake
  if b.hdrRead ∧ b.bodyRead = false ∧
      ((b.phase = .bist ∧ 1 ≤ b.bistPhase) ∨ (wake = true ∧ b.phase = .header)) then
    let body := s.framBytes 0x40 b.bodyLen
    let s1 := (State.readSlots { s with sram := s.staged body }).judgeBody body
    let s2 : State := { s1 with boot := { s1.boot with bodyRead := true } }
    .next (if wake then (if s2.boot.imgCause = 0 then s2.beginApply else s2.enterHold s2.boot.imgCause) else s2)
  else .next s

/-- SRAM_INIT_DONE (R77, R95, R96): the SRAM outside the staging region reads zero; apply begins, or the hold is entered. -/
def execSramInitDone (s : State) : Done :=
  let b := s.boot
  if b.phase = .bist ∧ b.bistPhase = 5 ∧ b.bodyRead then
    let clean := Memory.clear (Memory.clear s.sram 0 stageBase) (stageBase + 0x40000) 0x800000
    let s1 : State := { s with
      sram := clean, badEcc := s.badEcc.filter fun e => decide (0x800000 ≤ e.1)
      boot := { b with sramInit := true } }
    .next (if b.bistPass = false then s1.enterHold 9
      else if b.imgCause ≠ 0 then s1.enterHold b.imgCause else s1.beginApply)
  else .next s

/-! ## Download (R99, R100) -/

/-- DL_KEY with `prog` set when the FRAM is to be programmed (R99): header and body of the staged image are checked. -/
def State.dlKey (s : State) (prog : Bool) : Status × State :=
  if s.boot.phase ≠ .hold ∨ s.boot.holdCause = 9 ∨ s.boot.holdCause = 11 then s.only .denied
  else
    let s1 := s.takeHeader (s.stageBytes 0 64)
    let s2 := s1.judgeBody (s1.stageBytes 0x40 s1.boot.bodyLen)
    let s3 : State := { s2 with boot := { s2.boot with kind := .download, dlProgram := prog } }
    (.ok,
      if s3.boot.imgCause ≠ 0 then s3.enterHold s3.boot.imgCause
      else if prog then { s3 with boot := { s3.boot with phase := .framProg } }
      else s3.beginApply)

/-- A write of BOOT_DL_CMD (R99). -/
def State.writeDlCmd (s : State) (v : Word) : Status × State :=
  if v.fld 0 16 = 0xD10A then s.dlKey false
  else if v.fld 0 16 = 0xD10B then s.dlKey true
  else s.only .range

/-- DL_KEY_APPLY (R99). -/
def execDlKeyApply (s : State) : Done := finish (s.writeDlCmd 0xD10A)

/-- DL_KEY_PROGRAM (R99). -/
def execDlKeyProgram (s : State) : Done := finish (s.writeDlCmd 0xD10B)

/-- FRAM_PROG_DONE (R100): the image is in the FRAM and apply begins, or the read-back differs; what the FRAM then holds is
open. -/
def execFramProgDone (ok : Bool) (s : State) : Done :=
  if s.boot.phase = .framProg then
    let n := 0x40 + s.boot.bodyLen
    if ok then
      .next (State.beginApply { s with fram := Memory.writeBytes framDefault s.fram 0 (s.stageBytes 0 n) })
    else
      .next ((State.draw { s with
        fram := Memory.writeBytes framDefault s.fram 0 (openBytes 82 s.free n) }).enterHold 10)
  else .next s

/-! ## Stores (R90, R91, R201, R203) -/

/-- SCL_n_CONV (R193); ALL_CV covers the coefficients up to HARM_MAX. -/
def State.sclConvWord (s : State) (n : Fin 8) : Word :=
  let x := s.scl[n]
  let all := (List.range 19).all fun i => x.lrn.conv.getLsbD i || (decide (i < 16) && decide (x.cur.hmax ≤ i))
  Word.put 0 19 x.lrn.conv.toNat ||| Word.flag 31 all

/-- The record of a channel in a slot body (Table 8.4); a channel whose half is off holds no set. -/
def State.slotRecord (s : State) (n : Fin 8) : List Byte :=
  if !s.halfOn (pchHalf n.val) then List.replicate 128 0
  else
    let c := (s.scl[n]).cur
    let h (x : Int) : List Byte := leBytes 2 (wrapInt 16 x)
    leBytes 2 1 ++ leBytes 1 (s.polePairs n) ++ leBytes 1 c.hmax ++ leBytes 4 (s.sclConvWord n).toNat ++
      h c.sinOfs ++ h c.cosOfs ++ h c.imbal ++ h c.quad ++
      ((List.finRange 16).flatMap fun i => h c.a[i] ++ h c.b[i]) ++ List.replicate 48 0

/-- The image of a slot of generation `gen` (Table 4.5, R201). -/
def State.slotImage (s : State) (gen : Nat) : List Byte :=
  let body := (List.finRange 8).flatMap s.slotRecord ++ List.replicate 3040 0
  let head := leBytes 4 0x53434C48 ++ leBytes 2 1 ++ leBytes 2 0x0FE0 ++ leBytes 4 gen ++
    leBytes 4 s.boot.imgId.toNat ++ leBytes 8 s.now.toNat ++ leBytes 4 0
  head ++ leBytes 4 (crc32 (head ++ body)) ++ body

/-- The target of a store, and its generation (R90). -/
def Boot.storeTarget (b : Boot) : Bool × Nat :=
  match b.aValid, b.bValid with
  | true, false => (true, (b.genA + 1) % 2 ^ 32)
  | false, true => (false, (b.genB + 1) % 2 ^ 32)
  | false, false => (false, 1)
  | true, true =>
    if newerB b.genA b.genB then (false, (b.genB + 1) % 2 ^ 32) else (true, (b.genA + 1) % 2 ^ 32)

/-- A store begins (R90, R91), for which item 11 of Cruise yields (Table 16.2): DENIED before release or while one runs; NOT_READY during ENTERING (Table 19.9). -/
def State.storeKey (s : State) : Status × State :=
  if s.pwr.st = .entering then s.only .notReady
  else if !s.boot.released || s.boot.store.isSome then s.only .denied
  else
    let t := s.boot.storeTarget
    (.ok, State.storeYield { s with boot := { s.boot with store := some ⟨t.1, t.2, s.slotImage t.2⟩ } })

/-- A write of BOOT_CAL_CMD (R91). -/
def State.writeCalCmd (s : State) (v : Word) : Status × State :=
  if v.fld 0 16 = 0x5707 then s.storeKey else s.only .range

/-- STORE_KEY (R91). -/
def execStoreKey (s : State) : Done := finish (s.writeCalCmd 0x5707)

/-- A boot record of code 2 or 3 goes to Q_56 (R419). -/
def State.storeRecord (s : State) (code : Nat) (x : Store90) : State :=
  s.offer 56 10 (leBytes 1 code ++ leBytes 1 0 ++ leBytes 1 (if x.toB then 2 else 1) ++ leBytes 1 0 ++
    leBytes 4 s.boot.imgId.toNat ++ leBytes 4 x.gen ++ List.replicate 28 0 ++ leBytes 8 s.now.toNat)

/-- The target slot's validity and generation as known from now on. -/
def Boot.setSlot (b : Boot) (toB valid : Bool) (gen : Nat) : Boot :=
  let t := bput b.torn toB.toNat false
  if toB then { b with torn := t, bValid := valid, genB := gen } else { b with torn := t, aValid := valid, genA := gen }

/-- CAL_STORE_DONE (R90): the store has succeeded; or the write-enable latch did not set and the slot is as before; or the
read-back failed, and what the slot holds is open. -/
def execCalStoreDone (latchSet readOk : Bool) (s : State) : Done :=
  match s.boot.store with
  | none => .next s
  | some x =>
    let b : Boot := { s.boot with store := none }
    let put (l : List Byte) : List Host.Cell := Memory.writeBytes framDefault s.fram (slotBase x.toB) l
    if !latchSet then
      .next ((State.event { s with boot := { b with storeErr := true } } .boot 0 .shared).storeRecord 3 x)
    else if readOk then
      let b1 := b.setSlot x.toB true x.gen
      .next (State.storeRecord { s with
        fram := put x.bytes
        boot := { b1 with storeDone := true, inForce := if x.toB then 2 else 1 } } 2 x)
    else
      let b1 := b.setSlot x.toB false x.gen
      .next ((State.event (State.draw { s with
        fram := put (openBytes 83 s.free 4096), boot := { b1 with storeErr := true } }) .boot 1 .shared).storeRecord 3 x)

end Sys2Proof.Machine
end

