-- ==== Sys2Proof/Machine/Operands.lean ====
section
/-! DEFINITION. Registers as they read: every ro, w1c and rs field of every register beside its stored fields (R7, R8,
R9, R464), what a read captures, and which access codes a register has. -/

namespace Sys2Proof.Machine

/-! ## Fields as words -/

/-- A signed number in an `n`-bit field at `lo`. -/
def putI (lo n : Nat) (x : Int) : Word := Word.put lo n (wrapInt n x)

/-- A signed number saturated into an `n`-bit field. -/
def satI (n : Nat) (x : Int) : Int := clampInt (-(2 ^ (n - 1))) (2 ^ (n - 1) - 1) x

/-- Low and high word of a 64-bit value. -/
def lo32 (x : BitVec 64) : Word := x.setWidth 32
def hi32 (x : BitVec 64) : Word := (x >>> 32).setWidth 32

/-- `w` if `b`, else zero. -/
def wIf (b : Bool) (w : Word) : Word := if b then w else 0

/-- The words of a list joined. -/
def orAll (l : List Word) : Word := l.foldl (fun a b => a ||| b) 0

/-- One flag for each index of a list, bit `lo + i`. -/
def flags (lo n : Nat) (f : Nat → Bool) : Word := orAll ((List.range n).map fun i => Word.flag (lo + i) (f i))

/-- HOLDER_n: 0 none, 1 H0, 2 H1, 3 both. -/
def Holder.code : Holder → Nat
  | .none => 0 | .h0 => 1 | .h1 => 2 | .both => 3

/-- DRV_HALF: the half that drives a drive's pins, its single holder; 0 for none (R28, R49). -/
def State.drvHalf (s : State) (d : Drive) : Nat :=
  match s.holderHalf d with
  | none => 0
  | some .h0 => 1
  | some .h1 => 2

/-! ## SYS, PWR, BOOT -/

/-- The first write of the unlock sequence waits (R461). -/
def State.firstOk (s : State) : Bool := match s.unlock.first with
  | none => false
  | some (_, t) => decide (s.clk.cyc ≤ t + usCyc 10)

/-- BLK_STICKY of SYS_FLT_SUM. -/
def State.blkSticky (s : State) (p : Page) : Bool := (s.hdr p).sticky != 0 || (s.hdr p).ce != 0 || (s.hdr p).ue != 0

/-- Registers of SYS. -/
def State.readSys (s : State) (off : Nat) : Word :=
  let y := s.sys
  match off with
  | 0x40 => Word.put 8 8 y.rstCnt ||| Word.put 0 5 y.cause.toNat
  | 0x48 => Word.put 8 2 s.pwr.oppNow.toNat ||| Word.flag 6 (y.rcOk.h1 && s.halfOn .h1) |||
      Word.flag 5 (y.rcOk.h0 && s.halfOn .h0) ||| Word.flag 4 y.rtcLprc ||| Word.flag 3 y.rtcXtalOk |||
      Word.flag 2 y.spllLock ||| Word.flag 1 y.tpllLock ||| Word.flag 0 y.xtalOk
  | 0x50 =>
    let r := s.rails
    Word.flag 5 r.vexc1 ||| Word.flag 4 r.vexc0 ||| Word.flag 3 r.vdda1 ||| Word.flag 2 r.vdda0 |||
      Word.flag 1 r.vpre ||| Word.flag 0 r.vio
  | 0x54 => Word.put 24 6 (s.vCode .net) ||| Word.put 18 6 (s.vCode .mem) ||| Word.put 12 6 (s.vCode .core) |||
      Word.put 6 6 (s.vCode .h1) ||| Word.put 0 6 (s.vCode .h0)
  | 0x60 => Word.flag 1 (s.alive.running && s.devSafe) ||| Word.flag 0 s.alive.pad
  | 0x64 => Word.flag 24 s.devSafe ||| flags 0 18 fun b => Page.all.any fun p => p.blk == b && s.blkSticky p
  | 0x6C => Word.flag 31 s.unlock.seen ||| Word.flag 30 s.firstOk ||| Word.put 0 18 s.openBlocks.toNat
  | _ => 0

/-- PWR_WAKE_REC. -/
def State.wakeRec (s : State) : Word :=
  let p := s.pwr
  Word.put 16 16 p.wakeCnt ||| Word.flag 15 p.coreTmo ||| Word.flag 14 p.wakeFail ||| Word.put 11 3 p.wakeFrom |||
    Word.put 8 3 p.first ||| Word.flag 7 p.memTmo ||| Word.put 0 7 p.src.toNat

/-- Registers of PWR. -/
def State.readPwr (s : State) (off : Nat) : Word :=
  let p := s.pwr
  let pend : Fin 4 := p.pend.getD 0
  match off with
  | 0x40 => Word.flag 7 p.pend.isSome ||| Word.put 4 2 pend.val ||| Word.put 0 3 p.st.code
  | 0x48 => Word.put 12 2 (p.oppPend.getD 0).toNat ||| Word.flag 9 p.oppPend.isSome ||| Word.flag 8 p.dvfs.isSome |||
      Word.put 4 2 p.oppNow.toNat
  | 0x50 => s.voteNet
  | 0x54 => s.voteHalf
  | 0x58 => s.voteYard
  | 0x5C => s.voteCrz
  | 0x60 => s.voteFrec
  | 0x64 => s.domStat
  | 0x6C => Word.put 0 8 p.bankFail.toNat
  | 0x74 => s.wakeRec
  | 0x78 => Word.put 0 32 p.wakeRtc.toNat
  | 0x7C => Word.put 0 16 (p.wakeRtc.toNat / 2 ^ 32)
  | 0x80 => Word.put 0 32 s.rtcNow.toNat
  | 0x84 => s.captured 0x10084
  | 0x90 => Word.flag 0 p.alarmEv
  | 0x94 => Word.put 24 8 p.netLost ||| Word.put 16 8 p.netBuf.length ||| Word.put 8 8 p.hostClks |||
      Word.put 1 7 p.hostMore ||| Word.flag 0 p.hostLatched
  | 0x98 => lo32 p.replay
  | 0x9C => hi32 p.replay
  | 0xB8 => Word.put 16 16 (satNat 16 p.lkCyc) ||| Word.put 0 16 (satNat 16 p.lkFcnt)
  | 0xBC => BitVec.ofInt 32 p.lkAcc
  | 0xC0 => s.lkAvalWord
  | _ => 0

/-- PHASE (Table 4.8). -/
def Phase.code : Phase → Nat
  | .reset => 0 | .header => 1 | .bist => 2 | .apply => 3 | .convCal => 4 | .released => 5 | .hold => 6 | .dlCheck => 7
  | .framProg => 8

/-- The values of a list in 3-bit fields, the first in [2:0]. -/
def pack3 (l : List Nat) : Word :=
  ((List.range l.length).zip l).foldl (fun w e => w ||| Word.put (3 * e.1) 3 e.2) 0

/-- The repair bytes of four banks from bank `b`. -/
def Boot.repairWord (x : Boot) (b : Nat) : Word :=
  (List.range 4).foldl (fun w i =>
    let k : Fin 8 := Fin.ofNat 8 (b + i)
    w ||| Word.put (8 * i + 3) 2 x.repCols[k] ||| Word.put (8 * i) 3 x.repRows[k]) 0

/-- Registers of BOOT. -/
def State.readBoot (s : State) (off : Nat) : Word :=
  let b := s.boot
  match off with
  | 0x40 => Word.flag 18 b.imgDl ||| Word.put 16 2 b.slotUsed ||| Word.put 8 4 b.holdCause ||| Word.put 0 4 b.phase.code
  | 0x44 => pack3 b.bistEng.toList
  | 0x48 => pack3 b.bistMem.toList
  | 0x4C => b.repairWord 0
  | 0x50 => b.repairWord 4
  | 0x54 => b.imgId
  | 0x58 => Word.put 0 18 b.errOfs
  | 0x5C => Word.put 0 16 b.skipCnt
  | 0x60 => Word.put 0 32 b.relUs
  | 0x64 => Word.flag 6 b.storeErr ||| Word.flag 5 b.storeDone ||| Word.flag 4 b.store.isSome |||
      Word.put 2 2 b.inForce ||| Word.flag 1 b.bValid ||| Word.flag 0 b.aValid
  | 0x68 => Word.put 0 32 b.genA
  | 0x6C => Word.put 0 32 b.genB
  | _ => 0

/-! ## Excitation and position channels -/

/-- STATE of EXC_n_STAT. -/
def ExcSt.code : ExcSt → Nat
  | .off => 0 | .rampUp => 1 | .run => 2 | .rampDown => 3 | .tripped => 4 | .lookout => 5

/-- The hotter of two bridges. -/
def hotter (x y : BitVec 16) : BitVec 16 := if x.toInt < y.toInt then y else x

/-- Registers of EXC; instance `i` of a bridge register. -/
def State.readExc (s : State) (off i : Nat) : Word :=
  let n : Fin 4 := Fin.ofNat 4 i
  let x := s.exc[n]
  match off with
  | 0x40 => Word.put 16 16 s.vexcMv[(1 : Fin 2)] ||| Word.put 0 16 s.vexcMv[(0 : Fin 2)]
  | 0x44 =>
    let t (a b : Fin 4) : Nat := (hotter (s.exc[a]).temp (s.exc[b]).temp).toNat
    wIf (s.halfOn .h1) (Word.put 16 16 (t 2 3)) ||| wIf (s.halfOn .h0) (Word.put 0 16 (t 0 1))
  | 0x118 => Word.put 24 3 x.st.code ||| Word.flag 23 x.car.slew.isSome ||| Word.flag 22 x.clip |||
      Word.flag 21 (s.regHeld n) ||| Word.flag 20 (s.excPend n) ||| Word.put 15 5 x.settleRem |||
      Word.put 0 12 (s.lvlShown n)
  | 0x11C => Word.put 16 16 x.iPeak.toNat ||| Word.put 0 16 x.iFund.toNat
  | 0x120 => Word.put 0 12 x.ampMeas
  | _ => 0

/-- CH_STATE (Table 6.6). -/
def ChSt.code : ChSt → Nat
  | .off => 0 | .phaseAcq => 1 | .track => 2 | .lost => 3

/-- A corrected code of the pair in PCH_DEMOD: 16,384 for the range peak. -/
def demCode (point : Nat) (x : Rat) : Int := satI 16 (roundFree point (x * 16384 / 26214))

/-- PCH_TRK_STAT. The spec states no rounding of the present coast into COAST_US: whole microseconds, the rest dropped (DESIGN
CHOICE, assumption 67). -/
def State.trkStat (s : State) (n : Fin 8) : Word :=
  let x := s.pch[n]
  Word.put 16 16 (satNat 16 (x.lp.coastCyc / 400)) ||| Word.put 11 5 x.tn.sector ||| Word.flag 9 x.tn.sectRef |||
    Word.flag 8 x.lp.dir ||| Word.flag 7 x.lp.locked ||| Word.put 4 3 x.lp.ceil ||| Word.put 0 3 x.lp.idx

/-- Registers of PCH_n; the captured set reads as captured (R165), at reset with ACQ in its tag bytes. -/
def State.readPch (s : State) (n : Fin 8) (off : Nat) : Word :=
  let x := s.pch[n]
  let f := x.fe
  match off with
  | 0x54 => Word.flag 31 x.ph.lock ||| Word.flag 30 x.ph.held |||
      putI 0 16 (roundFree 40 (wrap01 x.ph.d * 65536))
  | 0x58 => Word.put 16 7 f.winTicks ||| Word.flag 8 f.clip ||| Word.put 4 4 f.cmw.toNat ||| Word.flag 3 f.susp |||
      Word.flag 2 x.calf ||| Word.put 0 2 x.st.code
  | 0x5C => Word.put 0 16 x.cause.toNat
  | 0x60 => Word.put 16 16 f.clipCnt ||| Word.put 0 16 f.invCnt
  | 0x64 => putI 16 16 (satI 16 f.rawCos) ||| putI 0 16 (satI 16 f.rawSin)
  | 0x68 => putI 16 16 (demCode 41 f.cos) ||| putI 0 16 (demCode 42 f.sin)
  | 0x6C => Word.put 16 13 (satNat 13 (roundFree 43 f.mAvg).toNat) |||
      Word.put 0 13 (satNat 13 (roundFree 44 f.mTick).toNat)
  | 0x70 => Word.put 0 16 (satNat 16 (roundFree 45 f.age).toNat)
  | 0x12C | 0x13C => s.captured (pchAddr n off) ^^^ 4
  | 0x120 | 0x124 | 0x128 | 0x130 | 0x134 | 0x138 => s.captured (pchAddr n off)
  | 0x140 => putI 0 32 (roundFree 46 (x.lp.e * 2 ^ 24))
  | 0x144 => s.trkStat n
  | 0x148 => Word.put 0 24 x.lp.peak
  | 0x150 => Word.flag 31 x.tn.clamped
  | 0x158 => x.tn.predLo
  | 0x15C => hi32 x.tn.predT
  | 0x160 => x.tn.predAng
  | 0x164 => x.tn.predSpd
  | _ => 0

/-! ## Scaler and digital channels -/

/-- A block of channel `n` is collecting: LEARN and APPLY are set and the channel is locked. -/
def State.learnAct (s : State) (n : Fin 8) : Bool :=
  s.SCL_CTRL_LEARN n.val == 1 && (s.scl[n]).cur.apply && s.pch[n].st == .track && s.pch[n].lp.locked

/-- The coefficient register at offset `off` of a Scaler channel, if it is one. -/
def coefOf (off : Nat) : Option (Fin 18) :=
  if off = 0x10C then some 0
  else if off = 0x110 then some 1
  else if 0x120 ≤ off ∧ off ≤ 0x15C then some (Fin.ofNat 18 (2 + (off - 0x120) / 4))
  else none

/-- Registers of SCL. -/
def State.readScl (s : State) (off i : Nat) : Word :=
  let n : Fin 8 := Fin.ofNat 8 i
  let x := s.scl[n]
  let h0 := s.sclH.h0
  let h1 := s.sclH.h1
  match off with
  | 0x40 => wIf (s.halfOn .h1) (Word.put 16 16 h1.temp.toNat) ||| wIf (s.halfOn .h0) (Word.put 0 16 h0.temp.toNat)
  | 0x44 => Word.put 16 16 (h1.base.getD 0).toNat ||| Word.put 0 16 (h0.base.getD 0).toNat
  | 0x104 => Word.put 16 16 x.lrn.blkCnt ||| Word.put 12 4 x.cur.align ||| Word.flag 11 x.cur.aligned |||
      Word.flag 10 (s.learnAct n) ||| Word.flag 9 x.pend.isSome ||| Word.flag 8 x.cur.sat |||
      Word.flag 7 x.trimEnd.isSome ||| Word.flag 6 x.trimWait ||| Word.put 0 2 x.src
  | 0x108 => s.sclConvWord n
  | 0x114 => Word.put 16 16 x.trims.cosCal.toNat ||| Word.put 0 16 x.trims.sinCal.toNat
  | 0x118 => Word.put 16 16 x.trims.cosGain.toNat ||| Word.put 0 16 x.trims.sinGain.toNat
  | 0x11C => Word.put 0 16 x.lrn.resid
  | o => match coefOf o with
    | some r => x.cur.getReg r
    | none => 0

/-- Registers of DCH. -/
def State.readDch (s : State) (off i : Nat) : Word :=
  let n : Fin 4 := Fin.ofNat 4 i
  let x := s.dch[n]
  let y := x.ssi
  match off with
  | 0x150 => putI 16 16 (satI 16 x.idx.dev) ||| Word.put 8 8 y.lost ||| Word.put 3 3 x.lvl.toNat |||
      Word.flag 2 (y.frame.isSome || y.recTill.isSome) ||| Word.flag 1 x.unc ||| Word.flag 0 x.idx.ref
  | 0x154 => Word.put 0 18 x.idx.capPos
  | 0x158 => Word.put 0 18 x.idx.capExp
  | 0x15C => y.raw
  | 0x160 => Word.put 16 16 y.errCnt ||| Word.put 8 3 y.lastErr ||| Word.put 4 4 y.errRun ||| Word.put 0 4 y.stat
  | o => if 0x124 ≤ o ∧ o ≤ 0x14C then s.captured (dchAddr n (o - 0x100)) else 0

/-! ## XMON, encoder emulation, angle-event scheduler -/

/-- Registers of XMON. -/
def State.readXmon (s : State) (off i : Nat) : Word :=
  let d : Drive := Fin.ofNat 2 i
  let x := s.xd[d]
  let y := x.copies.get s.lead
  let auth (e : Drive) : Word :=
    let y := s.xd[e]
    let b := 8 * e.val
    Word.flag (b + 7) (y.seen.h1 && s.halfOn .h1) ||| Word.flag (b + 6) (y.seen.h0 && s.halfOn .h0) |||
      Word.flag (b + 5) (s.hoBusy e) ||| Word.flag (b + 4) (s.confLive e) |||
      Word.flag (b + 3) (s.claims e .h1) ||| Word.flag (b + 2) (s.claims e .h0) ||| Word.put b 2 (s.holder e).code
  match off with
  | 0x40 => auth 0 ||| auth 1
  | 0x48 => Word.flag 3 (s.healthOk 1 .h1) ||| Word.flag 2 (s.healthOk 1 .h0) ||| Word.flag 1 (s.healthOk 0 .h1) |||
      Word.flag 0 (s.healthOk 0 .h0)
  | 0x118 => putI 0 32 y.adiff
  | 0x11C => putI 0 32 y.sdiff
  | 0x120 => Word.put 0 24 y.peak
  | 0x124 => Word.put 16 16 x.hoCnt ||| Word.put 8 4 x.hoCause ||| Word.flag 7 x.capBusy ||| Word.flag 6 y.skip |||
      Word.put 4 2 x.blame ||| Word.flag 3 (s.hoEn d)
  | 0x128 => lo32 x.hoTime
  | 0x12C => hi32 x.hoTime
  | _ => 0

/-- Registers of ENC. -/
def State.readEnc (s : State) (off i : Nat) : Word :=
  let n : Fin 4 := Fin.ofNat 4 i
  let x := s.enc[n]
  match off with
  | 0x138 => Word.flag 20 ((s.clockPad (8 + n.val)).getD x.z) ||| Word.flag 19 x.b ||| Word.flag 18 x.a ||| Word.put 0 18 x.outPos
  | 0x13C => putI 16 16 x.peerDiff ||| Word.flag 5 (s.zClaimed n) ||| Word.flag 4 x.bklSat ||| Word.flag 3 (s.encFrozen n) |||
      Word.flag 2 x.done ||| Word.put 0 2 (s.drvHalf x.drive)
  | o => if 0x118 ≤ o ∧ o ≤ 0x134 then s.captured (encAddr n (o - 0x100)) else 0

/-- XDRV of a slot (R285). -/
def State.slotXdrv (s : State) (x : AevSlot) : Bool :=
  x.isPin && decide (x.target < 8) && s.outDrive (Fin.ofNat 8 x.target) != x.drv

/-- AEV_n_OUT; the pad is read back through its receiver (R290). -/
def State.aevOutWord (s : State) (n : Fin 8) : Word :=
  let o := s.aev.out[n]
  Word.put 16 16 o.edges ||| Word.flag 3 (o.mis.getD (s.aevPad n)) ||| Word.flag 2 (s.aevClaimed n) |||
    Word.flag 1 o.pulse.isSome ||| Word.flag 0 ((s.clockPad n.val).getD o.lvl)

/-- Registers of AEV; the slot words read as committed (R288). -/
def State.readAev (s : State) (off i : Nat) : Word :=
  let x := s.aev.slot[Fin.ofNat 256 i]
  match off with
  | 0x48 => Word.put 16 16 (satNat 16 s.aev.lateTotal) ||| Word.flag 5 (s.frozen 1) ||| Word.flag 4 (s.frozen 0) |||
      Word.put 2 2 (s.drvHalf 1) ||| Word.put 0 2 (s.drvHalf 0)
  | 0x104 => s.aevOutWord (Fin.ofNat 8 i)
  | 0x1000 => x.ang
  | 0x1004 => x.act
  | 0x1008 => x.par
  | 0x100C => Word.put 16 16 x.fire ||| Word.put 8 8 x.late ||| Word.put 2 6 x.drop ||| Word.flag 1 (s.slotXdrv x) |||
      Word.flag 0 (x.pAct.isSome || x.pPar.isSome || x.commit.isSome)
  | _ => 0

/-! ## SDM, AUX, Cruise -/

/-- SDM_SAFE_STAT of one drive; the fields of a half that is off read zero (R359). -/
def State.safeByte (s : State) (d : Drive) : Nat :=
  let x := s.safe[d]
  let b (i : Nat) (v : Bool) : Nat := if v then 2 ^ i else 0
  b 7 (s.pads.asc[d]).sink + b 6 (!(s.pads.inh[d]).sink) + b 5 (s.gapOn d) + b 4 (x.form.h1 && s.halfOn .h1) +
    b 3 (x.form.h0 && s.halfOn .h0) + b 2 (x.ssl.h1 && s.halfOn .h1) + b 1 (x.ssl.h0 && s.halfOn .h0) + b 0 x.rel

/-- Registers of SDM, from the copy that reads show; those of the torque monitor from the holder's copy (Table 13.12). -/
def State.readSdm (s : State) (off i : Nat) : Word :=
  let n : Fin 8 := Fin.ofNat 8 i
  let x := s.inAt s.lead n
  let d : Drive := Fin.ofNat 2 i
  let t := (s.sdm.tq.get (s.copyOf d))[d]
  match off with
  | 0x54 => Word.flag 18 s.pads.dis.sink ||| Word.flag 17 (s.sdm.dis.h1 && s.halfOn .h1) |||
      Word.flag 16 (s.sdm.dis.h0 && s.halfOn .h0) ||| Word.put 8 8 (s.safeByte 1) ||| Word.put 0 8 (s.safeByte 0)
  | 0x10C => putI 16 16 x.decI ||| putI 0 16 x.fast
  | 0x110 => putI 0 16 s.sdm.latch[n]
  | 0x114 => lo32 s.sdm.latTime[n]
  | 0x118 => hi32 s.sdm.latTime[n]
  | 0x11C => Word.put 0 16 s.sdm.peak[n]
  | 0x220 => putI 16 16 t.iq ||| putI 0 16 t.id
  | 0x224 => putI 0 32 (roundFree 47 t.est)
  | 0x228 => putI 0 32 (roundFree 48 t.refF)
  | 0x22C => Word.put 24 5 t.holdWhy.toNat ||| Word.put 8 8 t.devCnt ||| Word.flag 0 (t.holdWhy == 0)
  | _ => 0

/-- AUX_CONV_STAT of converter `c`, seven bits. -/
def State.convStat (s : State) (c : Fin 2) : Nat :=
  let x := s.aux.conv[c]
  let b (i : Nat) (v : Bool) : Nat := if v then 2 ^ i else 0
  b 6 (!s.halfOn (convHalf c)) + b 5 (s.aux.calf.getLsbD c.val) + b 4 x.visit.isSome + x.cur

/-- ILIM of ROUT_n (R337): whether an output that drives stands in its short-circuit limit depends on its load, which no
command reports; the bit is free while the output drives (DESIGN CHOICE, assumption 38). -/
def State.routLimited (s : State) (n : Fin 2) : Bool := s.routOn n && Config.freeBits 72 (2 * s.clk.cyc + n.val) % 2 == 1

/-- Registers of AUX. -/
def State.readAux (s : State) (off i : Nat) : Word :=
  let k : Fin 16 := Fin.ofNat 16 i
  match off with
  | 0x44 => Word.put 8 7 (s.convStat 1) ||| Word.put 0 7 (s.convStat 0)
  | 0x48 => Word.put 16 16 s.iexOn.toNat ||| Word.put 0 16 s.aux.cmwOut.toNat
  | 0x8C =>
    let r := s.aux.rout[Fin.ofNat 2 i]
    Word.flag 17 (s.routLimited (Fin.ofNat 2 i)) ||| Word.flag 16 r.invalid ||| Word.put 0 12 r.code
  | 0x120 => (s.aux.slot[k]).resWord
  | 0x134 => Word.put 16 16 (s.aux.slot[k]).resCnt ||| Word.put 0 8 (s.auxCause k).toNat
  | o => if 0x124 ≤ o ∧ o ≤ 0x130 then s.captured (auxAddr k (o - 0x100)) else 0

/-- The results of the items as they read: 1, RUNNING, for an item whose run is in progress (R371). -/
def Crz.shown (c : Crz) : List Nat :=
  (List.finRange 15).map fun i => if c.act[laneOf i] = some i then 1 else c.res[i]

/-- Registers of CRZ. -/
def State.readCrz (s : State) (off : Nat) : Word :=
  let c := s.crz
  let act (l : Fin 3) : Nat := match c.act[l] with
    | none => 15
    | some i => i.val
  match off with
  | 0x4C => Word.put 16 16 c.rounds ||| Word.put 8 4 (act 2) ||| Word.put 4 4 (act 1) ||| Word.put 0 4 (act 0)
  | 0x50 => pack3 (c.shown.take 8)
  | 0x54 => pack3 (c.shown.drop 8)
  | 0x58 => Word.put 16 16 (satNat 16 c.yieldMax) ||| Word.put 0 16 c.yieldCnt
  | 0x5C => Word.put 16 16 c.failCnt ||| Word.put 0 16 c.abandon
  | 0x60 => c.failInfo
  | 0x64 => lo32 c.roundTime
  | 0x68 => hi32 c.roundTime
  | _ => 0

/-! ## TIME with the recorder, NET, QUE -/

/-- STATE of TIME_STAT. -/
def TimeSt.code : TimeSt → Nat
  | .free => 0 | .acq => 1 | .locked => 2 | .holdover => 3

/-- STATE of FREC_n_STAT. -/
def FrecSt.code : FrecSt → Nat
  | .off => 0 | .armed => 1 | .post => 2 | .frozen => 3

/-- Registers of TIME and of the flight recorder. -/
def State.readTime (s : State) (off i : Nat) : Word :=
  let t := s.tim
  let f := s.frec[Fin.ofNat 8 i]
  match off with
  | 0x40 => lo32 s.now
  | 0x44 => s.captured 0xE0044
  | 0x54 => putI 0 32 s.clk.rate
  | 0x58 => putI 0 32 (satI 32 t.offset)
  | 0x5C => Word.put 16 16 (satNat 16 t.stepCnt) ||| Word.put 0 2 t.st.code
  | 0x60 => lo32 (BitVec.ofInt 64 t.step)
  | 0x64 => hi32 (BitVec.ofInt 64 t.step)
  | 0x68 => lo32 t.gm
  | 0x6C => hi32 t.gm
  | 0x114 => Word.put 16 16 (satNat 16 f.drop) ||| Word.put 4 3 f.cause.toNat ||| Word.put 0 2 f.st.code
  | 0x118 => lo32 f.time
  | 0x11C => hi32 f.time
  | _ => 0

/-- Registers of NET. -/
def State.readNet (s : State) (off i : Nat) : Word :=
  let p : Fin 2 := Fin.ofNat 2 i
  let x := s.net.port[p]
  let k := s.net.str[Fin.ofNat 8 i]
  match off with
  | 0x10C => Word.put 2 2 (s.portRole p) ||| Word.flag 1 (s.asCapable p) ||| Word.flag 0 x.link
  | 0x110 => Word.put 0 32 (satNat 32 x.pdly)
  | 0x114 => Word.put 0 32 x.txf
  | 0x118 => Word.put 0 32 x.rxf
  | 0x11C => Word.put 0 32 x.rxdrop
  | 0x21C => Word.put 16 16 k.frames ||| Word.put 8 8 k.seq ||| Word.put 0 8 (satNat 8 k.lost)
  | _ => 0

/-- Registers of QUE; the set of R424 reads as captured. -/
def State.readQue (s : State) (off i : Nat) : Word :=
  let n : Fin 64 := Fin.ofNat 64 i
  let q := s.que.q[n]
  match off with
  | 0x44 => Word.put 0 8 s.irqPads.toNat
  | 0x48 => flags 0 32 fun b => s.queInt (Fin.ofNat 64 b)
  | 0x4C => flags 0 32 fun b => s.queInt (Fin.ofNat 64 (32 + b))
  | 0x50 => Word.put 16 16 s.que.crcErrs ||| Word.put 0 16 s.que.frameErrs
  | 0x54 => Word.flag 6 s.que.stalled ||| Word.put 0 6 s.que.stallQ
  | 0x110 => Word.put 0 17 q.credit
  | 0x114 => Word.put 24 2 q.staged.length ||| Word.put 0 17 q.used
  | 0x118 => Word.put 0 16 (satNat 16 q.ring.length)
  | 0x11C => Word.put 0 19 q.rptr
  | 0x120 => Word.put 0 19 q.wptr
  | 0x124 => Word.put 0 32 q.nseq
  | 0x128 | 0x12C | 0x130 | 0x134 => s.captured (0x100000 + off + 0x40 * i)
  | 0x13C => Word.flag 4 (s.netOwn n) ||| Word.flag 3 (s.ringBad n) ||| Word.flag 2 q.halted ||| Word.flag 1 q.dropEv |||
      Word.flag 0 (s.quePend n)
  | _ => 0

/-! ## One register -/

/-- The fields of a register that are not stored in the register file. -/
def State.readLive (s : State) (p : Page) (off i : Nat) : Word :=
  match p with
  | .sys => s.readSys off
  | .pwr => s.readPwr off
  | .boot => s.readBoot off
  | .fab | .mem => 0
  | .pch n => s.readPch n off
  | .exc => s.readExc off i
  | .scl => s.readScl off i
  | .dch => s.readDch off i
  | .enc => s.readEnc off i
  | .aev => s.readAev off i
  | .sdm => s.readSdm off i
  | .aux => s.readAux off i
  | .xmon => s.readXmon off i
  | .crz => s.readCrz off
  | .time => s.readTime off i
  | .net => s.readNet off i
  | .que => s.readQue off i

/-- The value is kept by the block and not in the register file: coefficients, slot words, prediction instants. -/
def inBlock (p : Page) (off : Nat) : Bool :=
  match p with
  | .pch _ => off == 0x158 || off == 0x15C
  | .scl => (coefOf off).isSome
  | .aev => decide (0x1000 ≤ off)
  | _ => false

/-- The stored fields of the register at `a` as reads show them: of a duplicated block, the copy of R17 that leads; ALARM_EN
as the alarm leaves it. -/
def State.storedWord (s : State) (p : Page) (r : RegRow) (off a : Nat) : Word :=
  if inBlock p r.off then 0
  else
    let w := match s.owner p off with
      | .dup => s.regH s.lead a
      | _ => s.reg a
    let v := w &&& (r.rw ||| r.lk)
    if p = .pwr ∧ r.off = 0x8C then (v &&& 0x7FFFFFFF) ||| Word.flag 31 s.pwr.alarmEn else v

/-- The register at `a`, which is instance `i` of row `r` at offset `off` of page `p`; wo fields and reserved bits read zero
(R7, R9). -/
def State.regWord (s : State) (p : Page) (r : RegRow) (i off a : Nat) : Word :=
  s.readLive p r.off i ||| s.storedWord p r off a

/-! ## What a read does besides (R8, R165, R228, R276, R333, R424) -/

/-- The capture of R424. -/
def State.queCapture (s0 : State) (i : Nat) : State :=
  let n : Fin 64 := Fin.ofNat 64 i
  let s := s0.descRead n
  let q := s.que.q[n]
  s.captureFrom (0x100128 + 0x40 * i)
    [BitVec.ofNat 32 (q.nseq / 2 ^ 32), BitVec.ofNat 32 q.deliv, BitVec.ofNat 32 q.drop, BitVec.ofNat 32 q.held]

/-- A read of the register captures, or forms a prediction; its value is then read. -/
def State.readSide (s : State) (p : Page) (off i : Nat) : State :=
  match p with
  | .pwr => if off = 0x80 then s.capture 0x10084 (Word.put 0 16 (s.rtcNow.toNat / 2 ^ 32)) else s
  | .time => if off = 0x40 then s.capture 0xE0044 (hi32 s.now) else s
  | .pch n => if off = 0x120 then s.pchCapture n else if off = 0x160 then s.predRead n else s
  | .dch =>
    let n : Fin 4 := Fin.ofNat 4 i
    if off = 0x124 then s.captureFrom (dchAddr n 0x24) s.dch[n].pub.words else s
  | .enc => if off = 0x118 then s.encCapture (Fin.ofNat 4 i) else if off = 0x138 ∨ off = 0x13C then s.encFollow (Fin.ofNat 4 i)
      else s
  | .aux => if off = 0x120 then s.auxCapture (Fin.ofNat 16 i) else s
  | .que => if off = 0x124 then s.queCapture i
      else if 0x110 ≤ off ∧ off ≤ 0x120 then s.descRead (Fin.ofNat 64 i) else s
  | _ => s

/-- A read of a register whose row is known, its domain being on: a word of an ECC-checked store may be corrected, or read zero with
DENIED; so does a word of a queue descriptor that cannot be corrected (R360, R363). -/
def State.regRead (s0 : State) (p : Page) (r : RegRow) (i off a : Nat) : Status × Word × State :=
  let s := s0.readSide p r.off i
  let v := s.regWord p r i off a
  match p with
  | .scl => if (coefOf r.off).isSome then s.eccGet .scl a v else (.ok, v, s)
  | .aev => if 0x1000 ≤ r.off ∧ r.off ≤ 0x1008 then s.eccGet .aev a v else (.ok, v, s)
  | .que => if 0x110 ≤ r.off ∧ r.off ≤ 0x124 ∧ 2 ≤ (s0.que.q[Fin.ofNat 64 i]).badEcc then (.denied, 0, s) else (.ok, v, s)
  | _ => (.ok, v, s)

end Sys2Proof.Machine
end

