-- ==== Sys2Proof/Machine/Writes.lean ====
section
/-! DEFINITION. Writes of registers by address: decoding, domains that are off, the lock, the access codes, and what each
register's write does (R7, R9, R359, R360, R460). -/

namespace Sys2Proof.Machine

/-! ## The lock (R460) -/

/-- The block's locked registers are writable: not released, or unlocked (R460). -/
def State.blkOpen (s : State) (p : Page) : Bool := !s.boot.released || s.isOpen p.blk

/-- The register's domain has returned and awaits its PAD_RELEASE (R460); of a duplicated block, the copy of half `h`. -/
def State.ownerOpen (s : State) (o : Owner) (h : Half) : Bool :=
  match o with
  | .core => false
  | .half g => s.pwr.padOpen.get g
  | .dup => s.pwr.padOpen.get h
  | .either =>
    let shut (g : Half) : Bool := s.halfOn g && !s.pwr.padOpen.get g
    (s.halfOn .h0 || s.halfOn .h1) && !shut .h0 && !shut .h1
  | .net => s.pwr.padOpenNet

/-- The bits of the register that a write stores, in the copy of half `h` where there are two. -/
def State.storeMask (s : State) (p : Page) (r : RegRow) (o : Owner) (h : Half) : Word :=
  if s.blkOpen p || s.ownerOpen o h then r.rw ||| r.lk else r.rw

/-- Every writable field is rw-lk. -/
def RegRow.allLocked (r : RegRow) : Bool := r.lk != 0 && r.rw == 0 && r.w1c == 0 && r.wo == 0 && r.rs == 0

/-- A register has a field that is not ro. -/
def RegRow.writable (r : RegRow) : Bool := r.lk != 0 || r.rw != 0 || r.w1c != 0 || r.wo != 0 || r.rs != 0

/-- The locked register refuses the write (R9, R460). -/
def State.refuses (s : State) (p : Page) (r : RegRow) (o : Owner) : Bool :=
  r.allLocked && !(s.blkOpen p || match o with
    | .dup => (s.halfOn .h0 && s.ownerOpen o .h0) || (s.halfOn .h1 && s.ownerOpen o .h1)
    | _ => s.ownerOpen o .h0)

/-! ## Storing -/

/-- `v` in the bits of `mask`, the rest as in `old`. -/
def mergeBits (old v mask : Word) : Word := (old &&& ~~~mask) ||| (v &&& mask)

/-- The stored fields of one copy written. -/
def State.storeCopy (s : State) (p : Page) (r : RegRow) (o : Owner) (h : Half) (a : Nat) (v : Word) : State :=
  if s.halfOn h then
    s.setReg (copyKey h a) (mergeBits (s.regH h a) v (s.storeMask p r o h))
  else s

/-- The stored fields of the register at `a` written; both copies of a duplicated register that are on (R21). -/
def State.store (s : State) (p : Page) (r : RegRow) (o : Owner) (a : Nat) (v : Word) : State :=
  if r.rw ||| r.lk = 0 then s
  else match o with
    | .dup => (s.storeCopy p r o .h0 a v).storeCopy p r o .h1 a v
    | _ => s.setReg a (mergeBits (s.reg a) v (s.storeMask p r o .h0))

/-- What a register's own operation receives: the stored fields as the write leaves them, with the wo fields written. -/
def State.wordWritten (s : State) (p : Page) (r : RegRow) (o : Owner) (a : Nat) (v : Word) : Word :=
  let old := match o with
    | .dup => s.regH s.lead a
    | _ => s.reg a
  (mergeBits old v (s.storeMask p r o s.lead) &&& (r.rw ||| r.lk)) ||| (v &&& r.wo)

/-- A write on its way: page, row, instance, owner, address, value. -/
structure Access where
  p : Page
  r : RegRow
  i : Nat
  o : Owner
  a : Nat
  v : Word

/-- The plain write. -/
def State.plain (s : State) (x : Access) : State := s.store x.p x.r x.o x.a x.v

/-! ## Each page -/

/-- Writes of SYS. -/
def State.writeSys (s : State) (x : Access) : Status × State :=
  match x.r.off with
  | 0x40 => (.ok, { s with sys := { s.sys with cause := s.sys.cause &&& ~~~(BitVec.ofNat 5 (x.v.fld 0 5)) } })
  | 0x44 => s.writeSwrst x.v
  | 0x58 => (.ok, (s.plain x).avsCfgWritten (s.reg x.a))
  | 0x68 => s.writeUnlock x.v
  | 0x6C => (.ok, if x.v.bit 31 then { s with unlock := { s.unlock with seen := false } } else s)
  | _ => (.ok, s.plain x)

/-- Writes of PWR. -/
def State.writePwr (s : State) (x : Access) : Status × State :=
  match x.r.off with
  | 0x44 => s.writeStateReq x.v
  | 0x48 => (.ok, s.writeOpp (BitVec.ofNat 2 (x.v.fld 0 2)))
  | 0x4C => (.ok, s.writeVotes x.v)
  | 0x68 => (.ok, s.padRelease x.v)
  | 0x8C => (.ok, s.writeAlarmHi x.v)
  | 0x90 => (.ok, if x.v.bit 0 then { s with pwr := { s.pwr with alarmEv := false } } else s)
  | _ => (.ok, s.plain x)

/-- Writes of BOOT. -/
def State.writeBoot (s : State) (x : Access) : Status × State :=
  let b := s.boot
  match x.r.off with
  | 0x64 => (.ok, { s with boot := { b with
      storeErr := b.storeErr && !x.v.bit 6, storeDone := b.storeDone && !x.v.bit 5 } })
  | 0x70 => s.writeCalCmd x.v
  | 0x74 => s.writeDlCmd x.v
  | _ => s.only .ok

/-- CFG_MIS of both drives judged (R236). -/
def State.judgeMis (s : State) : State := (s.judgeCfgMis 0).judgeCfgMis 1

/-- Writes of PCH_n. -/
def State.writePch (s : State) (n : Fin 8) (x : Access) : Status × State :=
  match x.r.off with
  | 0x40 =>
    let s1 := s.pchSetEn n (x.v.bit 0)
    (.ok, if x.v.bit 1 then s1.pchCntClr n else s1)
  | 0x11C => s.writeSect n x.v
  | 0x14C => (.ok, if x.v.bit 0 then s.pchPeakClr n else s)
  | 0x158 => (.ok, s.writePredLo n x.v)
  | 0x15C => (.ok, s.writePredHi n x.v)
  | _ => (.ok, ((s.plain x).judgeDrv n).judgeMis)

/-- Writes of EXC. -/
def State.writeExc (s : State) (x : Access) : Status × State :=
  let n : Fin 4 := Fin.ofNat 4 x.i
  let w := s.wordWritten x.p x.r x.o x.a x.v
  match x.r.off with
  | 0x100 => (.ok, s.writeExcCtrl n w)
  | 0x104 => s.writeExcFreq n w
  | 0x108 => (.ok, s.excStore n 8 w)
  | 0x10C => (.ok, s.excStore n 0xC w)
  | _ => (.ok, s.plain x)

/-- SCL_n_CTRL: RANGE where ALIGN_WR comes with an ALIGN_VAL at or above POLE_PAIRS; then the stored fields, NEUTRAL,
TRIM_REQ and ALIGN_WR. -/
def State.writeSclCtrl (s : State) (n : Fin 8) (w : Word) : Status × State :=
  if s.alignRange n w then s.only .range
  else
    let s1 := s.sclCtrl n w
    let s2 := if w.bit 2 then s1.sclNeutral n else s1
    let s3 := if w.bit 3 then s2.trimReq n else s2
    if w.bit 4 then s3.sclAlign n (w.fld 8 4) else (.ok, s3)

/-- Writes of SCL. -/
def State.writeScl (s : State) (x : Access) : Status × State :=
  let n : Fin 8 := Fin.ofNat 8 x.i
  match x.r.off, coefOf x.r.off with
  | 0x100, _ => s.writeSclCtrl n (s.wordWritten x.p x.r x.o x.a x.v)
  | _, some c => (.ok, s.sclCoef n c x.v)
  | _, none => (.ok, s.plain x)

/-- Writes of DCH: MODE 3, CHK 3 and a length L above 32 complete with RANGE (Table 9.1, R224). -/
def State.writeDch (s : State) (x : Access) : Status × State :=
  let n : Fin 4 := Fin.ofNat 4 x.i
  let s1 := s.plain x
  match x.r.off with
  | 0x100 => (.ok, s.writeDchCtrl n (s.wordWritten x.p x.r x.o x.a x.v))
  | 0x104 => if s1.DCH_CFG_MODE n.val = 3 then s.only .range else (.ok, s1.dchModeWritten n)
  | 0x118 =>
    if s1.DCH_SSI_CFG_CHK n.val = 3 ∨ 32 < s1.ssiLen n then s.only .range else (.ok, s1)
  | _ => (.ok, s1)

/-- Writes of ENC; the output is brought up to the instant first, and BKL_WARN is judged at once (R263). -/
def State.writeEnc (s : State) (x : Access) : Status × State :=
  let n : Fin 4 := Fin.ofNat 4 x.i
  match x.r.off with
  | 0x100 => (.ok, (s.writeEncCtrl n (s.wordWritten x.p x.r x.o x.a x.v)).encPads n)
  | o => (.ok, ((((s.encFollow n).plain x).encConfig n (o - 0x100)).judgeTally n).encPads n)

/-- Writes of AEV. -/
def State.writeAev (s : State) (x : Access) : Status × State :=
  let i : Fin 256 := Fin.ofNat 256 x.i
  let v := x.v &&& x.r.rw
  match x.r.off with
  | 0x40 => (.ok, s.writeAevCtrl (s.wordWritten x.p x.r x.o x.a x.v))
  | 0x10C => (.ok, s.aevForce (Fin.ofNat 8 x.i) (x.v.bit 0) (x.v.bit 1))
  | 0x1000 => (.ok, s.angSlot i v)
  | 0x1004 => (.ok, s.stageSlot i false v)
  | 0x1008 => (.ok, s.stageSlot i true v)
  | _ => (.ok, s.plain x)

/-- Writes of SDM; the halves' forms follow (R304). -/
def State.writeSdm (s : State) (x : Access) : Status × State :=
  let old := s.regH s.lead x.a
  let n : Fin 8 := Fin.ofNat 8 x.i
  let d : Drive := Fin.ofNat 2 x.i
  match x.r.off with
  | 0x40 => (.ok, ((s.plain x).sdclkFrom s).reform)
  | 0x4C => s.writeRelCmd x.v
  | 0x50 => s.writeDisCmd x.v
  | 0x58 => (.ok, if x.v.bit 0 then s.sdmPeakClr else s)
  | 0x100 => (.ok, (s.plain x).sdmCfgWritten n old)
  | 0x200 => (.ok, (s.plain x).tqCfgWritten d old)
  | 0x21C => (.ok, s.writeTqCmd d x.v)
  | _ => (.ok, (s.plain x).reform)

/-- Writes of AUX. -/
def State.writeAux (s : State) (x : Access) : Status × State :=
  match x.r.off with
  | 0x40 => (.ok, s.writeSlotEn x.v)
  | 0x80 | 0x84 => (.ok, (s.plain x).routAll)
  | 0x88 => (.ok, s.writeFwCode (Fin.ofNat 2 x.i) x.v)
  | 0x4C => (.ok, (s.plain x).auxJudge)
  | o => (.ok, if 0x100 ≤ o then (s.plain x).auxCfgWritten (Fin.ofNat 16 x.i) (o == 0x104) else s.plain x)

/-- SEEN bits of XMON_AUTH_STAT cleared by writing 1, in the copies of the halves that are on. -/
def State.seenClr (s : State) (v : Word) : State :=
  { s with xd := Vector.ofFn fun d =>
    let x := s.xd[d]
    let clr (h : Half) : Bool := s.halfOn h && v.bit (8 * d.val + 6 + h.num)
    { x with seen := ⟨x.seen.h0 && !clr .h0, x.seen.h1 && !clr .h1⟩ } }

/-- Writes of XMON; the outputs are brought up to the instant first, and the drives whose active source moves freeze or not
by the new one. -/
def State.writeXmon (s : State) (x : Access) : Status × State :=
  match x.r.off with
  | 0x40 => (.ok, s.seenClr x.v)
  | 0x44 => s.writeAuthCmd x.v
  | 0x114 => (.ok, s.writeXmonCtrl (Fin.ofNat 2 x.i) x.v)
  | _ =>
    let s1 := s.encFollowAll
    (.ok, ((((s1.plain x).reframeAll s1).judgeMis.judgeFreeze 0).judgeFreeze 1).reform)

/-- Writes of CRZ; the vote for a bank may change (R374). -/
def State.writeCrz (s : State) (x : Access) : Status × State :=
  match x.r.off with
  | 0x40 => (.ok, (s.writeCrzCtrl x.v).domains)
  | _ => (.ok, ((s.plain x).cruiseJudge).domains)

/-- Writes of TIME and of the flight recorder. -/
def State.writeTime (s : State) (x : Access) : Status × State :=
  match x.r.off with
  | 0x48 => (.ok, (s.plain x).timeCfgWritten)
  | 0x50 => (.ok, (s.plain x).timeTmoWritten)
  | 0x74 => s.timeSet x.v
  | 0x110 =>
    let r := s.writeFrecCtrl (Fin.ofNat 8 x.i) x.v
    (r.1, r.2.domains)
  | _ => (.ok, s.plain x)

/-- Writes of NET. -/
def State.writeNet (s : State) (x : Access) : Status × State :=
  match x.r.off with
  | 0x40 => (.ok, ((s.plain x).netCtrlWritten).domains)
  | 0x108 => if cbsOk (s.wordWritten x.p x.r x.o x.a x.v) then (.ok, s.creditsAll.plain x) else s.only .range
  | _ => (.ok, s.plain x)

/-- Writes of QUE; every interrupt is judged again, and the votes follow the enabled queues. -/
def State.writeQue (s : State) (x : Access) : Status × State :=
  let i : Fin 64 := Fin.ofNat 64 x.i
  match x.r.off with
  | 0x10C =>
    let s1 := s.plain x
    (.ok, if x.v.bit 0 then s1.flush i else s1.settle i)
  | 0x13C =>
    (.ok, if x.v.bit 1 then (s.setQ i { s.que.q[i] with dropEv := false }).settle i else s)
  | 0x40 => (.ok, ((s.plain x).judgeStall.settleAll).domains)
  | _ => (.ok, ((s.plain x).ringCfg.settleAll).domains)

/-- The write of a register whose row is known, its domain being on and the lock letting it. -/
def State.regStore (s : State) (x : Access) : Status × State :=
  match x.p with
  | .sys => s.writeSys x
  | .pwr => s.writePwr x
  | .boot => s.writeBoot x
  | .fab | .mem => s.only .ok
  | .pch n => s.writePch n x
  | .exc => s.writeExc x
  | .scl => s.writeScl x
  | .dch => s.writeDch x
  | .enc => s.writeEnc x
  | .aev => s.writeAev x
  | .sdm => s.writeSdm x
  | .aux => s.writeAux x
  | .xmon => s.writeXmon x
  | .crz => s.writeCrz x
  | .time => s.writeTime x
  | .net => s.writeNet x
  | .que => s.writeQue x

/-! ## Register accesses by address -/

/-- The instance's domain is on; of a duplicated block, one copy (R359). -/
def State.ownerOn (s : State) (o : Owner) : Bool :=
  match o with
  | .core => true
  | .half h => s.halfOn h
  | .dup | .either => s.halfOn .h0 || s.halfOn .h1
  | .net => s.netOn

/-- Offset `off` of page `p` holds a register: a header register, or a row. -/
def lookup (p : Page) (off : Nat) : Option (Option (RegRow × Nat)) :=
  if off < 0x40 then some none else (findReg p.blk (off + p.inst * 0x1000)).map some

/-- A register write of master `m` at byte address `a` (R9, R359, R360, R460). -/
def State.regWrite (s : State) (m : Master) (a : Nat) (v : Word) : Status × State :=
  match pageOf a with
  | none => (.range, s.fabReport 1 m a true)
  | some p =>
    let off := pageOff p a
    let o := s.owner p off
    if !s.pageOn p then (.accOff, s.fabReport 0 m a true)
    else match lookup p off with
      | none => (.range, s.fabReport 1 m a true)
      | some none => s.writeHdr p off v (s.blkOpen p || s.ownerOpen o .h0)
      | some (some (r, i)) =>
        if !s.ownerOn o then (.accOff, s.fabReport 0 m a true)
        else if s.refuses p r o then s.only .denied
        else s.regStore ⟨p, r, i, o, a, v⟩

/-- The outcome `r` of a read of the register at offset `off` of page `p`: a stored word whose parity is wrong reads zero with
DENIED, and UE_0 is reported unless it is live already (R360, R363). -/
def State.parityRead (s : State) (p : Page) (off : Nat) (r : Status × Word × State) : Status × Word × State :=
  let a := p.base + off
  let key := match s.owner p off with
    | .dup => copyKey s.lead a
    | _ => a
  if s.badPar.contains key then (.denied, 0, r.2.2.parityFound p) else r

/-- A register read of master `m` at byte address `a` (R7, R359, R360). -/
def State.regReadAt (s : State) (m : Master) (a : Nat) : Status × Word × State :=
  match pageOf a with
  | none => (.range, 0, s.fabReport 1 m a false)
  | some p =>
    let off := pageOff p a
    let o := s.owner p off
    if !s.pageOn p then (.accOff, 0, s.fabReport 0 m a false)
    else match lookup p off with
      | none => (.range, 0, s.fabReport 1 m a false)
      | some none => s.parityRead p off (.ok, s.readHdr p off, s)
      | some (some (r, i)) =>
        if !s.ownerOn o then (.accOff, 0, s.fabReport 0 m a false) else s.parityRead p off (s.regRead p r i off a)

/-! ## The SRAM window (R98, R359, R402, R459) -/

/-- SRAM offset of a host address, if it lies in the window. -/
def sramOff (a : Nat) : Option Nat := if 0x10000000 ≤ a ∧ a < 0x10800000 then some (a - 0x10000000) else none

/-- The offset lies in the staging window (Table 21.2). -/
def inStage (off : Nat) : Bool := decide (stageBase ≤ off ∧ off < stageBase + 0x40000)

/-- The word is accessible: its bank is on, or the hold opens the staging window (R98). -/
def State.sramOpen (s : State) (off : Nat) : Bool := s.bankOn (bankOf off) || (s.boot.inHold && inStage off)

/-- A download is being processed (R98). -/
def State.dlBusy (s : State) : Bool := s.boot.inHold && s.boot.phase != .hold

/-- A write of one word of SRAM by the host: DENIED in the Landing (R402), and in the staging window while a download is
being processed (R98). -/
def State.sramWrite (s : State) (off : Nat) (v : Word) : Status × State :=
  if !s.sramOpen off then (.accOff, s.fabReport 0 .host (0x10000000 + off) true)
  else if off < 0x80000 ∨ (s.dlBusy = true ∧ inStage off = true) then s.only .denied
  else (.ok, s.sramPut off (leBytes 4 v.toNat))

/-- A write of one word by the host. -/
def State.hostWrite (s : State) (a : Nat) (v : Word) : Status × State :=
  match sramOff a with
  | some off => s.sramWrite off v
  | none => s.regWrite .host a v

/-- A read of one word by the host. -/
def State.hostRead (s : State) (a : Nat) : Status × Word × State :=
  match sramOff a with
  | some off =>
    if s.sramOpen off then s.sramRead off else (.accOff, 0, s.fabReport 0 .host a false)
  | none => s.regReadAt .host a

/-- REGISTER_WRITE (R9): a host write of one word; an address that is no multiple of 4 completes with RANGE and has no effect
(R400). -/
def execRegisterWrite (addr v : Word) (s : State) : Done :=
  finish (if addr.toNat % 4 ≠ 0 then s.only .range else s.hostWrite addr.toNat v)

end Sys2Proof.Machine
end

