-- ==== Sys2Proof/Machine/BootApply.lean ====
section
/-! DEFINITION. Boot from the records of the image to release: each record type, the load of the Scaler, converter
calibration, and release, also after a wake (R84 to R87, R95, R96, R202, R442 to R448). -/

namespace Sys2Proof.Machine

/-! ## One write of a record (R85) -/

/-- No record may write the register at `a`: unmapped or reserved, every field ro, SYS_SWRST, BOOT, PAD_RELEASE (R85). -/
def barred (a : Nat) : Bool :=
  match pageOf a with
  | none => true
  | some p =>
    let off := pageOff p a
    a % 4 != 0 || p == .boot || a == 0x44 || a == 0x10068 ||
    match lookup p off with
    | none => true
    | some none => off == 0 || off == 4 || decide (0x1C ≤ off ∧ off ≤ 0x30)
    | some (some (r, _)) => !r.writable

/-- A register write of a record: whether it completes with OK. -/
def State.bootWrite (s : State) (a : Nat) (v : Word) : Bool × State :=
  if barred a then (false, s)
  else
    let r := s.regWrite .boot a v
    (r.1 == .ok, r.2)

/-- The target of `n` words from `off` lies in 0x08_0000 to 0x6F_FFFF (R85); a record without data has no target and does
not fail (DESIGN CHOICE, assumption 61). -/
def loadable (off n : Nat) : Bool := n == 0 || decide (0x80000 ≤ off ∧ off + 4 * n ≤ 0x700000)

/-- A write of one word of SRAM by a record, whose bank may be off. -/
def State.bootPut (s : State) (off : Nat) (v : Word) : Bool × State :=
  if s.bankOn (bankOf off) then (true, s.sramPut off (leBytes 4 v.toNat))
  else (false, s.fabReport 0 .boot (0x10000000 + off) true)

/-- The words of a payload. -/
def wordsOf : List Byte → List Word
  | a :: b :: c :: d :: t => BitVec.ofNat 32 (leNat [a, b, c, d]) :: wordsOf t
  | _ => []

/-- Writes in order, up to the first that fails. -/
def State.writePairs (s : State) : List Word → Bool × State
  | a :: v :: t =>
    let r := s.bootWrite a.toNat v
    if r.1 then r.2.writePairs t else r
  | _ => (true, s)

/-- Masked writes in order, up to the first that fails. -/
def State.writeMasks (s : State) : List Word → Bool × State
  | a :: m :: v :: t =>
    let old := (s.regReadAt .boot a.toNat).2.1
    let r := s.bootWrite a.toNat (mergeBits old v m)
    if r.1 then r.2.writeMasks t else r
  | _ => (true, s)

/-- Writes at rising addresses, up to the first that fails. -/
def State.writeSeq (s : State) (a : Nat) : List Word → Bool × State
  | v :: t =>
    let r := s.bootWrite a v
    if r.1 then r.2.writeSeq (a + 4) t else r
  | _ => (true, s)

/-- Words of SRAM at rising offsets, up to the first that fails. -/
def State.loadSram (s : State) (off : Nat) : List Word → Bool × State
  | v :: t =>
    let r := s.bootPut off v
    if r.1 then r.2.loadSram (off + 4) t else r
  | _ => (true, s)

/-- `n` words of SRAM set to `v`, up to the first that fails. -/
def State.fillSram (s : State) (off : Nat) (v : Word) : Nat → Bool × State
  | 0 => (true, s)
  | n + 1 =>
    let r := s.bootPut off v
    if r.1 then r.2.fillSram (off + 4) v n else r

/-! ## One record (R84, R85) -/

/-- The bytes of the payload of the record at `walk`. -/
def State.payload (s : State) (r : RecHead) : List Byte := s.stageBytes (0x44 + s.boot.walk) r.len

/-- The record at `walk`, of type `t`, is processed: malformed if its head is or `wellFormed` says no; else its writes are
made, and the walk goes on. -/
def State.processRec (s : State) (t : Nat) (wellFormed : RecHead → List Byte → Bool)
    (apply : List Byte → State → Bool × State) : State :=
  let r := s.recHead
  if s.boot.phase ≠ .apply ∨ s.boot.endAt ≤ s.boot.walk ∨ r.type ≠ t then s
  else
    let pl := s.payload r
    let s1 :=
      if s.recFatal r = true ∨ 2 ≤ r.flags ∨ wellFormed r pl = false then s.recFails s r 7
      else
        let w := apply pl s
        if w.1 then w.2.pastRec r else s.recFails w.2 r 8
    s1.settleWalk s1.boot.bodyLen

/-- REG_WRITE_RECORD (Table 4.4). -/
def execRegWriteRecord (s : State) : Done :=
  .next (s.processRec 1 (fun r _ => r.len % 8 == 0) fun pl st => st.writePairs (wordsOf pl))

/-- REG_MASK_RECORD (Table 4.4). -/
def execRegMaskRecord (s : State) : Done :=
  .next (s.processRec 2 (fun r _ => r.len % 12 == 0) fun pl st => st.writeMasks (wordsOf pl))

/-- REG_SEQ_RECORD (Table 4.4). -/
def execRegSeqRecord (s : State) : Done :=
  .next (s.processRec 3 (fun r _ => decide (8 ≤ r.len)) fun pl st =>
    st.writeSeq (fieldAt pl 0 4) (wordsOf (pl.drop 4)))

/-- SRAM_LOAD_RECORD (Table 4.4). -/
def execSramLoadRecord (s : State) : Done :=
  .next (s.processRec 4 (fun r pl => decide (4 ≤ r.len) && fieldAt pl 0 4 % 4 == 0) fun pl st =>
    let w := wordsOf (pl.drop 4)
    if loadable (fieldAt pl 0 4) w.length then st.loadSram (fieldAt pl 0 4) w else (false, st))

/-- SRAM_FILL_RECORD (Table 4.4). -/
def execSramFillRecord (s : State) : Done :=
  .next (s.processRec 5 (fun r pl => r.len == 12 && fieldAt pl 0 4 % 4 == 0 && fieldAt pl 4 4 % 4 == 0) fun pl st =>
    let n := fieldAt pl 4 4 / 4
    if loadable (fieldAt pl 0 4) n then st.fillSram (fieldAt pl 0 4) (BitVec.ofNat 32 (fieldAt pl 8 4)) n
    else (false, st))

/-- AUTH_INIT_RECORD (Table 4.4, R86). -/
def execAuthInitRecord (s : State) : Done :=
  .next (s.processRec 6
    (fun r pl => r.len == 4 && decide (fieldAt pl 0 1 ≤ 1 ∧ fieldAt pl 1 1 ≤ 1) && fieldAt pl 2 2 == 0) fun pl st =>
    (true, { st with boot := { st.boot with
      authInit := ⟨#[Half.byNum (fieldAt pl 0 1), Half.byNum (fieldAt pl 1 1)], rfl⟩ } }))

/-! ## The Scaler's slot (R89, R195, R202) -/

/-- A signed 16-bit field of a slot record. -/
def s16At (l : List Byte) (o : Nat) : Int := signedOf 16 (fieldAt l o 2)

/-- The coefficients of a channel's slot record (Table 8.4), with HARM_MAX and APPLY of the channel. -/
def recordSet (l : List Byte) (hmax : Nat) (apply : Bool) : SclSet :=
  { sinOfs := s16At l 8, cosOfs := s16At l 0xA, imbal := s16At l 0xC, quad := s16At l 0xE
    a := Vector.ofFn fun i => s16At l (0x10 + 4 * i.val)
    b := Vector.ofFn fun i => s16At l (0x12 + 4 * i.val)
    hmax := hmax, apply := apply, align := 0, aligned := false }

/-- Channel `n` takes its record from slot `choice`, or starts neutral (R89, R202); its coefficient words are written (R364). -/
def State.loadChan (s : State) (choice : Nat) (n : Fin 8) : State :=
  if !s.halfOn (pchHalf n.val) then s
  else
    let l := s.framBytes (slotBase (choice == 2) + 0x20 + 128 * n.val) 128
    let apply := decide (s.SCL_CTRL_APPLY n.val = 1)
    let hmax := clampNat 1 16 (s.SCL_CTRL_HARM_MAX n.val)
    let held := choice != 0 && fieldAt l 0 2 % 2 == 1
    let fits := fieldAt l 2 1 == s.polePairs n
    let c0 : SclSet := if held && fits then recordSet l hmax apply else { ({} : SclSet) with hmax := hmax, apply := apply }
    let c := c0.judgeAlign (s.polePairs n) s.SCL_LRN_LIM_CONV_TOL true
    let x : Scl := { s.scl[n] with
      cur := c, pend := none, pendNeutral := false, src := if held && fits then 1 else 0, pendSrc := 0, lrn := {} }
    let s0 : State := { s with scl := vset s.scl n x }
    let s1 := (List.finRange 18).foldl (fun st r => st.eccPut .scl (coefAddr n r)) s0
    if held && !fits then s1.event .scl (4 * n.val) (pchHalf n.val).copy else s1

/-- END_RECORD (R77, R84, R89): the walk has arrived at the head of END; the Scaler is loaded and converter calibration
begins. -/
def execEndRecord (s : State) : Done :=
  if s.boot.phase = .apply ∧ s.boot.walk = s.boot.endAt then
    let choice := s.slotChoice
    let s1 := (List.finRange 8).foldl (fun st n => st.loadChan choice n) s
    .next { s1 with boot := { s1.boot with
      phase := .convCal, slotUsed := choice, inForce := choice, imgDl := s1.boot.kind == .download } }
  else .next s

/-! ## Release (R96, R352, R446 to R448) -/

/-- The reactions of the sources and checkers that are live or sticky at release (R352). -/
def State.takeStanding (s : State) : State :=
  Page.all.foldl (fun st p =>
    let s1 := (List.range 32).foldl (fun t b =>
      if s.standing p b then t.react p b (t.reaction p b) (t.affects p b) else t) st
    if s.standingUe p then
      let r := s1.chkReact p
      let aff (d : Drive) := match p with
        | .pch k => s1.chanDrive k.val d
        | _ => true
      s1.react p 0 (if r = 1 ∧ p.shared then 2 else r) aff
    else s1) s

/-- The boot record of release (Table 18.9). -/
def State.releaseRecord (s : State) : State :=
  let b := s.boot
  let w (off : Nat) : List Byte := leBytes 4 (s.readBoot off).toNat
  s.offer 56 10 (leBytes 1 1 ++ leBytes 1 b.imgDl.toNat ++ leBytes 1 b.slotUsed ++ leBytes 1 0 ++
    leBytes 4 b.imgId.toNat ++ w 0x44 ++ w 0x48 ++ w 0x4C ++ w 0x50 ++ w 0x5C ++ w 0x60 ++
    leBytes 4 (s.readSys 0x40).toNat ++ leBytes 4 0 ++ leBytes 8 s.now.toNat)

/-- TIME after a wake (R447): its value when CORE went off plus the RTC ticks since, rounded to the nanosecond. -/
def State.wakeTime (s : State) : Nat :=
  let ticks := s.clk.rtc / rtcUnit - s.pwr.offRtc / rtcUnit
  let ns := (roundNear 49 ((s.pwr.offTime : Rat) / 2 ^ 32 + (ticks : Rat) * 30517578125 / 1000000)).toNat
  (ns % 2 ^ 64) * 2 ^ 32

/-- The device is in RUN again after a wake, before anything else of its release. -/
def State.wakeOver (s : State) : State :=
  { s with
    clk := { s.clk with time := s.wakeTime, rate := 0 }
    tim := { s.tim with st := .free }
    pwr := { s.pwr with
      st := .run, coreTmo := s.pwr.coreTmo && s.pwr.tmoNow, memTmo := s.pwr.memTmo && s.pwr.tmoNow } }

/-- The frames of the listen buffer, as though they had just been received (R443). -/
def State.replayNet (s : State) (l : List (Fin 2 × List Byte)) : State :=
  l.foldl (fun st f => match execFrameReceive f.1 f.2 none st with
    | .next t => t
    | _ => st) s

/-- What a wake release adds: its record, the replay of the network frames, and OPP_TGT or a pending request taking effect
(R431, R433, R443, R446). -/
def State.wakeReleased (s : State) : State :=
  let s1 := (s.powerRec 1 s.pwr.wakeFrom).replayNet s.pwr.netBuf
  let v : BitVec 2 := BitVec.ofNat 2 ((s1.reg 0x10048).fld 0 2)
  if s1.pwr.dvfs.isSome then s1 else if v ≠ s1.pwr.oppNow then s1.startDvfs v else s1.afterDvfs

/-- The blocks start: bridges, channels, digital inputs, encoder and event outputs (R96). -/
def State.startBlocks (s : State) : State :=
  let s1 := (List.finRange 8).foldl (fun st n =>
    if st.PCH_CTRL_EN n.val = 1 ∧ st.halfOn (pchHalf n.val) = true ∧ st.pwr.calBusy.get (pchHalf n.val) = false
    then st.startChan n false else st) s.excRelease.judgeDrvAll
  let s2 := (List.finRange 4).foldl (fun st n => st.encPads n) s1.dchRelease.aevRelease
  s2.auxJudge.routAll

/-- Release (R96): everything that happens in the one TCLK cycle. -/
def State.release (s0 : State) : State :=
  let wake := s0.pwr.st == .waking
  let s := if wake then s0.wakeOver else s0
  let s1 : State := { s with
    boot := { s.boot with
      phase := .released, released := true, inHold := false, holdCause := 0, relUs := min 0xFFFFFFFF (s.clk.cyc / 400) }
    unlock := { s.unlock with blocks := 0, first := none } }
  let s2 := ((s1.authRelease 0).authRelease 1).reform
  let s3 : State := (State.alivePad { s2 with
    alive := { s2.alive with running := true, level := !s2.devSafe, next := s2.clk.cyc + s2.aliveHalf } })
  let s4 := s3.startBlocks.ringsAtRelease
  let s5 : State := { s4 with tim := { s4.tim with lastPair := s4.clk.cyc } }
  let s6 := s5.judgePorts.takeStanding
  let s7 := s6.releaseRecord.startRound
  (((if wake then s7.wakeReleased else s7).voteAll).sdclkFrom s0).domains

/-- CONV_CAL_DONE (R77, R95, R96): the results of converter calibration are taken, the staging region reads zero, and the
device releases; not so in boundary-scan mode (R55). -/
def execConvCalDone (pchFail : BitVec 8) (auxFail : BitVec 2) (trims : Vector TrimVals 8) (s : State) : Done :=
  if s.boot.phase = .convCal ∧ s.sys.scan = false then
    let on (h : Half) : Bool := s.halfOn h
    let s1 := (List.finRange 8).foldl (fun st n =>
      if on (pchHalf n.val) then st.latchCal n (pchFail.getLsbD n.val) trims[n] else st) s
    let busy (h : Half) : Bool := s1.pwr.calBusy.get h && !on h
    let auxCal : BitVec 2 := bput (bput s1.aux.calf 0 (if on .h0 then auxFail.getLsbD 0 else s1.aux.calf.getLsbD 0)) 1
      (if on .h1 then auxFail.getLsbD 1 else s1.aux.calf.getLsbD 1)
    let s2 : State := { s1 with
      aux := { s1.aux with calf := auxCal }
      pwr := { s1.pwr with calBusy := ⟨busy .h0, busy .h1⟩ }
      sram := Memory.clear s1.sram stageBase (stageBase + 0x40000) }
    .next s2.release
  else .next s

end Sys2Proof.Machine
end

