-- ==== Sys2Proof/Machine/Host.lean ====
section
/-! DEFINITION. Frames of the quad-SPI target: request and response, their CRC, bursts, queue commands, and the frames that
arrive while the device is asleep (R97, R98, R396 to R404, R413 to R415, R432, R442). -/

namespace Sys2Proof.Machine

/-! ## CRC and bytes (R397, R398) -/

/-- One bit of the CRC of a frame. -/
def crc8Bit (c : Nat) : Nat := if 128 ≤ c then (c * 2 % 256) ^^^ 0x2F else c * 2

/-- `n` bits. -/
def crc8Bits : Nat → Nat → Nat
  | 0, c => c
  | n + 1, c => crc8Bits n (crc8Bit c)

/-- CRC of R398 over `l`. -/
def crc8 (l : List Byte) : Byte :=
  BitVec.ofNat 8 ((l.foldl (fun c (b : Byte) => crc8Bits 8 (c ^^^ b.toNat)) 0xFF) ^^^ 0xFF)

/-- A word, most significant byte first. -/
def wordBe (w : Word) : List Byte := beBytes 4 w.toNat

/-- CMD, ADDR, LEN and data of a request (R397). -/
def reqBytes (cmd : Nat) (addr : Word) (len : BitVec 16) (data : List Word) : List Byte :=
  beBytes 1 cmd ++ wordBe addr ++ beBytes 2 len.toNat ++ data.flatMap wordBe

/-- The status code of a response (R400). -/
def statusCode : Status → Nat
  | .ok => 0 | .crcBad => 1 | .accOff => 2 | .notReady => 3 | .denied => 4 | .range => 5

/-- A response with its CRC_RSP. -/
def mkResp (st : Status) (idx : Nat) (data : List Word) : Resp :=
  ⟨st, idx, data, crc8 (beBytes 1 (statusCode st) ++ beBytes 1 idx ++ data.flatMap wordBe)⟩

/-! ## Answers -/

/-- What a command makes of a request that has passed the first rules: status, ERR_IDX, data, state. -/
structure Answer where
  st : Status
  idx : Nat
  data : List Word
  post : State

/-- The response driven. -/
def Answer.done (a : Answer) : Done := finish (a.st, { a.post with resp := some (mkResp a.st a.idx a.data) })

/-- A response decided by the first three rules, without data (R400); of READ and WRITE its ERR_IDX is open. -/
def State.turnAway (s : State) (queue : Bool) (st : Status) : Answer :=
  if queue then ⟨st, 0xFF, [], s⟩ else ⟨st, Config.freeBits 86 s.free % 256, [], s.draw⟩

/-! ## Frames while the device sleeps (R432, R442) -/

/-- Frames are latched and have no effect: ENTERING, LOOKOUT and OFF. -/
def State.asleep (s : State) : Bool := s.pwr.st == .entering || s.pwr.st == .lookout || s.pwr.st == .off

/-- The host latch takes the first frame, and counts the others (R442). -/
def State.latchFrame (s : State) (clks : Nat) (bits : BitVec 64) : State :=
  let p := s.pwr
  if p.hostLatched then { s with pwr := { p with hostMore := min 127 (p.hostMore + 1) } }
  else { s with pwr := { p with hostLatched := true, hostClks := min 255 clks, replay := bits } }

/-- What the target makes of a frame in ENTERING: of the bytes before CRC_REQ and CRC_REQ itself, and whether the command is one of
the queues; or a frame that ends before its CRC_REQ; or one of which the levels alone are known. -/
inductive Heard | request (ok queue : Bool) | short | levels
  deriving DecidableEq, Repr

/-- CRC_BAD counted and reported (R398, R400). -/
def State.crcFault (s : State) : State :=
  State.event { s with que := { s.que with crcErrs := min 65535 (s.que.crcErrs + 1) } } .que 3 .shared

/-- QSPI_FRAME counted and reported (R401). -/
def State.frameFault (s : State) : State :=
  State.event { s with que := { s.que with frameErrs := min 65535 (s.que.frameErrs + 1) } } .que 4 .shared

/-- A frame of `clks` clock edges and levels `bits` of QSPI_IO_0 while the device sleeps: latched, and a wake source. While CORE is
on it is judged as any frame, and answered with NOT_READY (R400, R401, R432); a frame known by its levels alone is taken as a sound
READ or WRITE. -/
def State.hostAsleep (s : State) (clks : Nat) (bits : BitVec 64) (x : Heard) : State :=
  let s1 : State := { (s.latchFrame clks bits).wakeIf 5 with resp := none }
  let answer (a : Answer) : State := { a.post with resp := some (mkResp a.st a.idx a.data) }
  if !s.coreOn then s1
  else match x with
    | .short => s1.frameFault
    | .request false queue => answer (s1.crcFault.turnAway queue .crcBad)
    | .request true queue => answer (s1.turnAway queue .notReady)
    | .levels => answer (s1.turnAway false .notReady)

/-- A frame begins while the device wakes: HOST is added to the sources of the wake (Table 19.9). -/
def State.hostWaking (s : State) : State := if s.pwr.st = .waking then s.wakeIf 5 else s

/-- HOST_WAKE (R432, R442, R450): a frame begins during ENTERING, LOOKOUT, OFF or WAKING. -/
def execHostWake (clks : Nat) (bits : BitVec 64) (s : State) : Done :=
  .next (if s.asleep then s.hostAsleep clks bits .levels else s.hostWaking)

/-- The levels of QSPI_IO_0 over the request `l`: the lowest bit of each nibble. -/
def io0Levels (l : List Byte) : List Bool := l.flatMap fun b => [b.getLsbD 4, b.getLsbD 0]

/-- A frame of bytes `l`, CRC_REQ included, while the device sleeps. How many clocks follow, and the levels on them, are the host's
and are left open. -/
def State.asleepRequest (s : State) (l : List Byte) (x : Heard) : State :=
  let lv := io0Levels l
  let n := lv.length + Config.freeBits 84 s.free
  let open' : BitVec 64 := BitVec.ofNat 64 (Config.freeBits 85 s.free)
  let bits := (List.range 64).foldl (fun (m : BitVec 64) i =>
    bput m (63 - i) (if i < n then lv.getD i (open'.getLsbD i) else false)) 0
  s.draw.hostAsleep n bits x

/-! ## Judging a request (R400) -/

/-- The device takes frames: CORE is on and internal reset has ended (R404, Table 2.4). -/
def State.hears (s : State) : Bool := s.coreOn && s.boot.phase != .reset

/-- A frame of request `l` with `crc` as CRC_REQ (R400): the first rules, then the command's own. -/
def State.frame (s0 : State) (l : List Byte) (crc : Byte) (queue : Bool) (k : State → Answer) : Done :=
  let s : State := { s0.hostWaking with resp := none }
  if s.asleep then .next (s.asleepRequest (l ++ [crc]) (.request (crc8 l == crc) queue))
  else if !s.hears then .next s
  else if s.sys.scan then (s.turnAway queue .notReady).done
  else if crc8 l ≠ crc then (s.crcFault.turnAway queue .crcBad).done
  else if !s.boot.released && (!s.boot.inHold || queue) then (s.turnAway queue .notReady).done
  else (k s).done

/-- QSPI_FRAME (R401): the frame has no effect and gets no response. -/
def execQspiFrame (s0 : State) : Done :=
  let s : State := { s0.hostWaking with resp := none }
  if s.asleep then .next (s.asleepRequest [] .short)
  else if !s.hears then .next s
  else .next s.frameFault

/-- A frame whose data phase carries `data`: with fewer words than LEN says it ends early (R401); of more, the first byte
after the data stands in place of CRC_REQ. -/
def State.dataFrame (s : State) (cmd : Nat) (addr : Word) (len : BitVec 16) (data : List Word) (crc : Byte) (queue : Bool)
    (k : List Word → State → Answer) : Done :=
  let n := len.toNat + 1
  let d := data.take n
  match data.drop n with
  | [] => if data.length < n then execQspiFrame s else s.frame (reqBytes cmd addr len d) crc queue (k d)
  | x :: _ => s.frame (reqBytes cmd addr len d) (BitVec.ofNat 8 (x.toNat / 2 ^ 24)) queue (k d)

/-! ## Words (R98, R400) -/

/-- The hold leaves the word at `a` accessible: SYS, BOOT, FAB, the staging window (R98). -/
def holdOpen (a : Nat) : Bool :=
  match sramOff a with
  | some off => inStage off
  | none => match pageOf a with
    | some .sys | some .boot | some .fab => true
    | _ => false

/-- The word at `a` is answered with NOT_READY in the hold (R98). -/
def State.shut (s : State) (a : Nat) : Bool := !s.boot.released && !holdOpen a

/-- `n` words read from `a` upwards, the first being word `i` of the burst (R400). -/
def State.burstRead (s : State) (a i : Nat) : Nat → Answer
  | 0 => ⟨.ok, 0xFF, [], s⟩
  | n + 1 =>
    let r := if s.shut a then (Status.notReady, (0 : Word), s) else s.hostRead a
    if r.1 = .ok then
      let x := r.2.2.burstRead (a + 4) (i + 1) n
      { x with data := r.2.1 :: x.data }
    else ⟨r.1, i, r.2.1 :: List.replicate n 0, r.2.2⟩

/-- Words written from `a` upwards, the first being word `i` of the burst (R400). -/
def State.burstWrite (s : State) (a i : Nat) : List Word → Answer
  | [] => ⟨.ok, 0xFF, [], s⟩
  | v :: t =>
    let r := if s.shut a then s.only .notReady else s.hostWrite a v
    if r.1 = .ok then r.2.burstWrite (a + 4) (i + 1) t else ⟨r.1, i, [], r.2⟩

/-! ## The commands (Table 18.1) -/

/-- READ, CMD 0x10, and a frame whose CMD is none of Table 18.1, which has no data phase either (R400): NOT_READY in the hold,
where it is neither READ nor WRITE, else RANGE. -/
def execRead (cmd : Byte) (addr : Word) (len : BitVec 16) (crc : Byte) (s : State) : Done :=
  s.frame (reqBytes cmd.toNat addr len []) crc false fun st =>
    if cmd ≠ 0x10 then st.turnAway false (if st.boot.released then .range else .notReady)
    else if 64 ≤ len.toNat ∨ addr.toNat % 4 ≠ 0 then st.turnAway false .range
    else st.burstRead addr.toNat 0 (len.toNat + 1)

/-- WRITE (R400). -/
def execWrite (addr : Word) (len : BitVec 16) (data : List Word) (crc : Byte) (s : State) : Done :=
  s.dataFrame 0x20 addr len data crc false fun d st =>
    if 64 ≤ len.toNat ∨ addr.toNat % 4 ≠ 0 then st.turnAway false .range
    else st.burstWrite addr.toNat 0 d

/-- QREAD (R413). -/
def execQread (addr : Word) (len : BitVec 16) (crc : Byte) (s : State) : Done :=
  s.frame (reqBytes 0x30 addr len []) crc true fun st =>
    if len.toNat < 3 ∨ 512 ≤ len.toNat ∨ 64 ≤ addr.toNat then st.turnAway true .range
    else
      let r := st.qread (Fin.ofNat 64 addr.toNat) (len.toNat + 1)
      ⟨r.1, 0xFF, r.2.1, r.2.2⟩

/-- QACK (R414). -/
def execQack (addr : Word) (len : BitVec 16) (data : List Word) (crc : Byte) (s : State) : Done :=
  s.dataFrame 0x31 addr len data crc true fun d st =>
    let w := d.headD 0
    if len.toNat ≠ 0 ∨ 64 ≤ addr.toNat ∨ w.fld 16 16 ≠ 0 then st.turnAway true .range
    else
      let r := st.qack (Fin.ofNat 64 addr.toNat) (w.fld 0 16)
      ⟨r.1, 0xFF, [], r.2⟩

/-- QPUSH (R415). -/
def execQpush (addr : Word) (len : BitVec 16) (data : List Word) (crc : Byte) (s : State) : Done :=
  s.dataFrame 0x40 addr len data crc true fun d st =>
    if 64 ≤ len.toNat ∨ 64 ≤ addr.toNat then st.turnAway true .range
    else
      let r := st.qpush (Fin.ofNat 64 addr.toNat) d
      ⟨r.1, 0xFF, [], r.2⟩

end Sys2Proof.Machine
end

