-- ==== Sys2Proof/Machine/Tap.lean ====
section
/-! DEFINITION. The TAP (R55): the controller of IEEE 1149.1, the bypass and identification registers, and in boundary-scan
mode the chain of cells (assumption 6). -/

namespace Sys2Proof.Machine

/-- The next state of the controller (IEEE 1149.1). -/
def tapNext (st : TapSt) (tms : Bool) : TapSt :=
  match st, tms with
  | .reset, false => .idle
  | .reset, true => .reset
  | .idle, false => .idle
  | .idle, true => .selDr
  | .selDr, false => .capDr
  | .selDr, true => .selIr
  | .capDr, false => .shDr
  | .capDr, true => .ex1Dr
  | .shDr, false => .shDr
  | .shDr, true => .ex1Dr
  | .ex1Dr, false => .pauDr
  | .ex1Dr, true => .updDr
  | .pauDr, false => .pauDr
  | .pauDr, true => .ex2Dr
  | .ex2Dr, false => .shDr
  | .ex2Dr, true => .updDr
  | .updDr, false => .idle
  | .updDr, true => .selDr
  | .selIr, false => .capIr
  | .selIr, true => .reset
  | .capIr, false => .shIr
  | .capIr, true => .ex1Ir
  | .shIr, false => .shIr
  | .shIr, true => .ex1Ir
  | .ex1Ir, false => .pauIr
  | .ex1Ir, true => .updIr
  | .pauIr, false => .pauIr
  | .pauIr, true => .ex2Ir
  | .ex2Ir, false => .shIr
  | .ex2Ir, true => .updIr
  | .updIr, false => .idle
  | .updIr, true => .selDr

/-- `n` bits of `v`, the lowest first. -/
def bitsOf (v n : Nat) : List Bool := (List.range n).map fun i => v.testBit i

/-- The number of a list of bits, the lowest first. -/
def bitsNat (l : List Bool) : Nat := l.foldr (fun b v => b.toNat + 2 * v) 0

/-- The data register in reach: 0 bypass, 1 identification, 2 the chain, which boundary-scan mode alone reaches (R55). -/
def State.tapReg (s : State) : Nat :=
  if s.tap.idSel then 1
  else match Config.tapSelect s.tap.ir with
    | 0 => 0
    | 1 => 1
    | _ => if s.sys.scan then 2 else 0

/-- What the data register captures; the levels that the cells see are open. -/
def State.tapCapture (s : State) : List Bool :=
  match s.tapReg with
  | 0 => [false]
  | 1 => bitsOf Config.idcode.toNat 32
  | _ => bitsOf (Config.freeBits 87 s.free) Config.bsrLen

/-- A shift stage takes `tdi` at its far end. -/
def shiftIn (l : List Bool) (tdi : Bool) : List Bool := l.drop 1 ++ [tdi]

/-- The rising edge of TCK: what the present state captures or shifts, and the next state. -/
def State.tapRise (s : State) (tms tdi : Bool) : State :=
  let t := s.tap
  let nx := tapNext t.st tms
  match t.st with
  | .capDr => { s.draw with tap := { t with drSh := s.tapCapture, st := nx } }
  | .shDr => { s with tap := { t with drSh := shiftIn t.drSh tdi, st := nx } }
  | .capIr => { s.draw with tap := { t with
      irSh := true :: false :: bitsOf (Config.freeBits 88 s.free) Config.irMore, st := nx } }
  | .shIr => { s with tap := { t with irSh := shiftIn t.irSh tdi, st := nx } }
  | _ => { s with tap := { t with st := nx } }

/-- The falling edge: an update takes effect, and TDO carries the next bit while shifting. -/
def State.tapFall (s : State) : State :=
  let t := s.tap
  match t.st with
  | .reset => { s with tap := { t with idSel := true, tdo := none } }
  | .updIr => { s with tap := { t with ir := bitsNat t.irSh, idSel := false, tdo := none } }
  | .updDr => { s with tap := { t with bsr := if s.tapReg = 2 then t.drSh else t.bsr, tdo := none } }
  | .shDr => { s with tap := { t with tdo := t.drSh.head? } }
  | .shIr => { s with tap := { t with tdo := t.irSh.head? } }
  | _ => { s with tap := { t with tdo := none } }

/-- TAP_TCK_EDGE (R55): one period of TCK with the levels of TMS and TDI at its rising edge; none while CORE is off, or while
its pads are held, when the TAP sees the levels that pad hold keeps (R51, R52). -/
def execTapTckEdge (tms tdi : Bool) (s : State) : Done :=
  .next (if s.coreOn && !s.pads.heldCore then (s.tapRise tms tdi).tapFall else s)

end Sys2Proof.Machine
end

