-- ==== Sys2Proof/Machine/Dispatch.lean ====
section
/-! DEFINITION. The effect of each command: one direct call of its meaning. -/

namespace Sys2Proof.Machine

/-- The effect of a command on everything but the queue. -/
def exec (i : Instr) (s : State) : Host.Outcome State Fault Refusal :=
  match i with
  | .supplyGood r => Sys2Proof.Machine.execSupplyGood r s
  | .supplyLost r => Sys2Proof.Machine.execSupplyLost r s
  | .pinReset => Sys2Proof.Machine.execPinReset s
  | .swrstKey => Sys2Proof.Machine.execSwrstKey s
  | .softwareReset => Sys2Proof.Machine.execSoftwareReset s
  | .internalResetEnd => Sys2Proof.Machine.execInternalResetEnd s
  | .vuv rail mv => Sys2Proof.Machine.execVuv rail mv s
  | .vov rail mv => Sys2Proof.Machine.execVov rail mv s
  | .refLoss mon => Sys2Proof.Machine.execRefLoss mon s
  | .refFreq mon edges => Sys2Proof.Machine.execRefFreq mon edges s
  | .tclkFreq mon cycles => Sys2Proof.Machine.execTclkFreq mon cycles s
  | .tpllUnlock => Sys2Proof.Machine.execTpllUnlock s
  | .spllUnlock => Sys2Proof.Machine.execSpllUnlock s
  | .rcFail mon refAgrees tclkAgrees => Sys2Proof.Machine.execRcFail mon refAgrees tclkAgrees s
  | .regUv x outUv => Sys2Proof.Machine.execRegUv x outUv s
  | .regOv x outUv => Sys2Proof.Machine.execRegOv x outUv s
  | .cpmFail x meets => Sys2Proof.Machine.execCpmFail x meets s
  | .avsEval m => Sys2Proof.Machine.execAvsEval m s
  | .rtcXtal => Sys2Proof.Machine.execRtcXtal s
  | .rtcXtalRestore => Sys2Proof.Machine.execRtcXtalRestore s
  | .headerReadDone => Sys2Proof.Machine.execHeaderReadDone s
  | .bistPhaseEnd bankLo bankHi logic => Sys2Proof.Machine.execBistPhaseEnd bankLo bankHi logic s
  | .bodyReadDone => Sys2Proof.Machine.execBodyReadDone s
  | .sramInitDone => Sys2Proof.Machine.execSramInitDone s
  | .regWriteRecord => Sys2Proof.Machine.execRegWriteRecord s
  | .regMaskRecord => Sys2Proof.Machine.execRegMaskRecord s
  | .regSeqRecord => Sys2Proof.Machine.execRegSeqRecord s
  | .sramLoadRecord => Sys2Proof.Machine.execSramLoadRecord s
  | .sramFillRecord => Sys2Proof.Machine.execSramFillRecord s
  | .authInitRecord => Sys2Proof.Machine.execAuthInitRecord s
  | .endRecord => Sys2Proof.Machine.execEndRecord s
  | .convCalDone pchFail auxFail trims => Sys2Proof.Machine.execConvCalDone pchFail auxFail trims s
  | .storeKey => Sys2Proof.Machine.execStoreKey s
  | .calStoreDone latchSet readOk => Sys2Proof.Machine.execCalStoreDone latchSet readOk s
  | .dlKeyApply => Sys2Proof.Machine.execDlKeyApply s
  | .dlKeyProgram => Sys2Proof.Machine.execDlKeyProgram s
  | .framProgDone matches' => Sys2Proof.Machine.execFramProgDone matches' s
  | .excEnable n => Sys2Proof.Machine.execExcEnable n s
  | .excDisable n => Sys2Proof.Machine.execExcDisable n s
  | .excRestart n => Sys2Proof.Machine.execExcRestart n s
  | .excFreqWrite n v => Sys2Proof.Machine.execExcFreqWrite n v s
  | .excPhaseWrite n v => Sys2Proof.Machine.execExcPhaseWrite n v s
  | .excAmpWrite n v => Sys2Proof.Machine.execExcAmpWrite n v s
  | .excModeWrite n closed => Sys2Proof.Machine.execExcModeWrite n closed s
  | .carrierZeroCrossing n m => Sys2Proof.Machine.execCarrierZeroCrossing n m s
  | .excSettleEnd n => Sys2Proof.Machine.execExcSettleEnd n s
  | .excRampEnd n => Sys2Proof.Machine.execExcRampEnd n s
  | .oc e => Sys2Proof.Machine.execOc e s
  | .openLoad n => Sys2Proof.Machine.execOpenLoad n s
  | .imbal n => Sys2Proof.Machine.execImbal n s
  | .ots n temp => Sys2Proof.Machine.execOts n temp s
  | .regSat n => Sys2Proof.Machine.execRegSat n s
  | .pchEnable n => Sys2Proof.Machine.execPchEnable n s
  | .pchDisable n => Sys2Proof.Machine.execPchDisable n s
  | .pchCntClr n => Sys2Proof.Machine.execPchCntClr n s
  | .lossRearm n => Sys2Proof.Machine.execLossRearm n s
  | .angleTick inp => Sys2Proof.Machine.execAngleTick inp s
  | .cmwLoss n => Sys2Proof.Machine.execCmwLoss n s
  | .phaseAcqDone n => Sys2Proof.Machine.execPhaseAcqDone n s
  | .phLock n => Sys2Proof.Machine.execPhLock n s
  | .lockDeclared n => Sys2Proof.Machine.execLockDeclared n s
  | .bwStepUp n => Sys2Proof.Machine.execBwStepUp n s
  | .bwStepDown n => Sys2Proof.Machine.execBwStepDown n s
  | .coastLong n => Sys2Proof.Machine.execCoastLong n s
  | .lol n => Sys2Proof.Machine.execLol n s
  | .ovspd n => Sys2Proof.Machine.execOvspd n s
  | .acqTo n => Sys2Proof.Machine.execAcqTo n s
  | .pchSectSet n v => Sys2Proof.Machine.execPchSectSet n v s
  | .pchAngleRead n => Sys2Proof.Machine.execPchAngleRead n s
  | .pchPredAngRead n => Sys2Proof.Machine.execPchPredAngRead n s
  | .pchPredTimeHiWrite n v => Sys2Proof.Machine.execPchPredTimeHiWrite n v s
  | .pchPeakClr n => Sys2Proof.Machine.execPchPeakClr n s
  | .revolutionEnd n => Sys2Proof.Machine.execRevolutionEnd n s
  | .learnBlockEnd n => Sys2Proof.Machine.execLearnBlockEnd n s
  | .sclPendingApply n => Sys2Proof.Machine.execSclPendingApply n s
  | .sclCoefWrite n reg v => Sys2Proof.Machine.execSclCoefWrite n reg v s
  | .sclApplyWrite n v => Sys2Proof.Machine.execSclApplyWrite n v s
  | .neutral n => Sys2Proof.Machine.execNeutral n s
  | .alignWr n v => Sys2Proof.Machine.execAlignWr n v s
  | .trimReq n => Sys2Proof.Machine.execTrimReq n s
  | .trimSweepStart h => Sys2Proof.Machine.execTrimSweepStart h s
  | .trimRunStart n => Sys2Proof.Machine.execTrimRunStart n s
  | .trimRunEnd n t => Sys2Proof.Machine.execTrimRunEnd n t s
  | .trimLate n => Sys2Proof.Machine.execTrimLate n s
  | .dchEnable n => Sys2Proof.Machine.execDchEnable n s
  | .dchDisable n => Sys2Proof.Machine.execDchDisable n s
  | .dchTransition n samples => Sys2Proof.Machine.execDchTransition n samples s
  | .indexEdge n samples => Sys2Proof.Machine.execIndexEdge n samples s
  | .illRate n => Sys2Proof.Machine.execIllRate n s
  | .hallInv n => Sys2Proof.Machine.execHallInv n s
  | .refClr n => Sys2Proof.Machine.execRefClr n s
  | .uncClr n => Sys2Proof.Machine.execUncClr n s
  | .ssiTrig n => Sys2Proof.Machine.execSsiTrig n s
  | .ssiFrameStart n => Sys2Proof.Machine.execSsiFrameStart n s
  | .ssiFrameEnd n ready bits endBit => Sys2Proof.Machine.execSsiFrameEnd n ready bits endBit s
  | .ssiRecoveryEnd n => Sys2Proof.Machine.execSsiRecoveryEnd n s
  | .dchAngleRead n => Sys2Proof.Machine.execDchAngleRead n s
  | .angDiv d copy => Sys2Proof.Machine.execAngDiv d copy s
  | .spdDiv d copy => Sys2Proof.Machine.execSpdDiv d copy s
  | .dref d copy => Sys2Proof.Machine.execDref d copy s
  | .copyMis d => Sys2Proof.Machine.execCopyMis d s
  | .ofsCap d => Sys2Proof.Machine.execOfsCap d s
  | .ofsCapDone d => Sys2Proof.Machine.execOfsCapDone d s
  | .authConflict d => Sys2Proof.Machine.execAuthConflict d s
  | .handoverRequest d => Sys2Proof.Machine.execHandoverRequest d s
  | .handoverDone d => Sys2Proof.Machine.execHandoverDone d s
  | .holderClaimLost d => Sys2Proof.Machine.execHolderClaimLost d s
  | .authCmd d target => Sys2Proof.Machine.execAuthCmd d target s
  | .encEnable n => Sys2Proof.Machine.execEncEnable n s
  | .encDisable n => Sys2Proof.Machine.execEncDisable n s
  | .preset n => Sys2Proof.Machine.execPreset n s
  | .encFirstPreset n => Sys2Proof.Machine.execEncFirstPreset n s
  | .encCountStep n dt => Sys2Proof.Machine.execEncCountStep n dt s
  | .encTargetRead n => Sys2Proof.Machine.execEncTargetRead n s
  | .aevSlotStep k dt => Sys2Proof.Machine.execAevSlotStep k dt s
  | .aevPulseEnd n => Sys2Proof.Machine.execAevPulseEnd n s
  | .predictionSwitch => Sys2Proof.Machine.execPredictionSwitch s
  | .aevSlotStageWrite k par v => Sys2Proof.Machine.execAevSlotStageWrite k par v s
  | .aevSlotAngWrite k v => Sys2Proof.Machine.execAevSlotAngWrite k v s
  | .aevForceSet n => Sys2Proof.Machine.execAevForceSet n s
  | .aevForceClr n => Sys2Proof.Machine.execAevForceClr n s
  | .aevEnable => Sys2Proof.Machine.execAevEnable s
  | .aevDisable => Sys2Proof.Machine.execAevDisable s
  | .aevCntClr => Sys2Proof.Machine.execAevCntClr s
  | .pinMis n readBack => Sys2Proof.Machine.execPinMis n readBack s
  | .internalTrigger => Sys2Proof.Machine.execInternalTrigger s
  | .sdmLatch => Sys2Proof.Machine.execSdmLatch s
  | .sdmDecimatedOutput => Sys2Proof.Machine.execSdmDecimatedOutput s
  | .hi n copy => Sys2Proof.Machine.execHi n copy s
  | .lo n copy => Sys2Proof.Machine.execLo n copy s
  | .stuck n copy => Sys2Proof.Machine.execStuck n copy s
  | .filtMis => Sys2Proof.Machine.execFiltMis s
  | .phsum d copy => Sys2Proof.Machine.execPhsum d copy s
  | .tqDev d => Sys2Proof.Machine.execTqDev d s
  | .tqStale d => Sys2Proof.Machine.execTqStale d s
  | .tqCmdWrite d v => Sys2Proof.Machine.execTqCmdWrite d v s
  | .relCmd d => Sys2Proof.Machine.execRelCmd d s
  | .relGapEnd d => Sys2Proof.Machine.execRelGapEnd d s
  | .disSet => Sys2Proof.Machine.execDisSet s
  | .disClear => Sys2Proof.Machine.execDisClear s
  | .sdmPeakClr => Sys2Proof.Machine.execSdmPeakClr s
  | .auxSettleEnd c => Sys2Proof.Machine.execAuxSettleEnd c s
  | .auxConversionDone c m => Sys2Proof.Machine.execAuxConversionDone c m s
  | .auxVisitEnd c => Sys2Proof.Machine.execAuxVisitEnd c s
  | .lim k => Sys2Proof.Machine.execLim k s
  | .auxSlotBlocked k => Sys2Proof.Machine.execAuxSlotBlocked k s
  | .slotEnWrite v => Sys2Proof.Machine.execSlotEnWrite v s
  | .auxResRead k => Sys2Proof.Machine.execAuxResRead k s
  | .fwCodeWrite n v => Sys2Proof.Machine.execFwCodeWrite n v s
  | .blzClr p => Sys2Proof.Machine.execBlzClr p s
  | .reactBusyEnd p => Sys2Proof.Machine.execReactBusyEnd p s
  | .holdoffEnd p => Sys2Proof.Machine.execHoldoffEnd p s
  | .fltForceWrite p v => Sys2Proof.Machine.execFltForceWrite p v s
  | .stickyClear p v => Sys2Proof.Machine.execStickyClear p v s
  | .chkInvWrite p v => Sys2Proof.Machine.execChkInvWrite p v s
  | .parityError p => Sys2Proof.Machine.execParityError p s
  | .aliveEdge => Sys2Proof.Machine.execAliveEdge s
  | .tgtTmo m addr isWrite => Sys2Proof.Machine.execTgtTmo m addr isWrite s
  | .cruiseRoundStart => Sys2Proof.Machine.execCruiseRoundStart s
  | .restartRnd => Sys2Proof.Machine.execRestartRnd s
  | .cruiseRunEnd item terminal sigOk detail => Sys2Proof.Machine.execCruiseRunEnd item terminal sigOk detail s
  | .cruiseYield item ns => Sys2Proof.Machine.execCruiseYield item ns s
  | .syncPair x => Sys2Proof.Machine.execSyncPair x s
  | .timeSlewEnd => Sys2Proof.Machine.execTimeSlewEnd s
  | .syncLoss => Sys2Proof.Machine.execSyncLoss s
  | .timeSet hi => Sys2Proof.Machine.execTimeSet hi s
  | .syncRelay p rx correction => Sys2Proof.Machine.execSyncRelay p rx correction s
  | .followUpRelay rateRatio => Sys2Proof.Machine.execFollowUpRelay rateRatio s
  | .syncSend p => Sys2Proof.Machine.execSyncSend p s
  | .pdelayReqSend p => Sys2Proof.Machine.execPdelayReqSend p s
  | .frameReceive p bytes delay => Sys2Proof.Machine.execFrameReceive p bytes delay s
  | .frameForward p bytes fcsOk => Sys2Proof.Machine.execFrameForward p bytes fcsOk s
  | .linkDown p => Sys2Proof.Machine.execLinkDown p s
  | .linkUp p => Sys2Proof.Machine.execLinkUp p s
  | .streamFrameBuild k => Sys2Proof.Machine.execStreamFrameBuild k s
  | .frecEntry n written => Sys2Proof.Machine.execFrecEntry n written s
  | .frecTrigger n cause => Sys2Proof.Machine.execFrecTrigger n cause s
  | .frecFreeze n => Sys2Proof.Machine.execFrecFreeze n s
  | .arm n => Sys2Proof.Machine.execArm n s
  | .disarm n => Sys2Proof.Machine.execDisarm n s
  | .trig n => Sys2Proof.Machine.execTrig n s
  | .read cmd addr len crc => Sys2Proof.Machine.execRead cmd addr len crc s
  | .write addr len data crc => Sys2Proof.Machine.execWrite addr len data crc s
  | .qread addr len crc => Sys2Proof.Machine.execQread addr len crc s
  | .qack addr len data crc => Sys2Proof.Machine.execQack addr len data crc s
  | .qpush addr len data crc => Sys2Proof.Machine.execQpush addr len data crc s
  | .qspiFrame => Sys2Proof.Machine.execQspiFrame s
  | .registerWrite addr v => Sys2Proof.Machine.execRegisterWrite addr v s
  | .yarderWrite => Sys2Proof.Machine.execYarderWrite s
  | .flush q => Sys2Proof.Machine.execFlush q s
  | .yardStall => Sys2Proof.Machine.execYardStall s
  | .queueAge q => Sys2Proof.Machine.execQueueAge q s
  | .reqRun => Sys2Proof.Machine.execReqRun s
  | .reqDoze => Sys2Proof.Machine.execReqDoze s
  | .reqLookout => Sys2Proof.Machine.execReqLookout s
  | .reqOff => Sys2Proof.Machine.execReqOff s
  | .entryComplete => Sys2Proof.Machine.execEntryComplete s
  | .oppTgtWrite v => Sys2Proof.Machine.execOppTgtWrite v s
  | .dvfsDone => Sys2Proof.Machine.execDvfsDone s
  | .dvfsTmo => Sys2Proof.Machine.execDvfsTmo s
  | .voteWrite v => Sys2Proof.Machine.execVoteWrite v s
  | .domainOn x => Sys2Proof.Machine.execDomainOn x s
  | .memBankInitDone b => Sys2Proof.Machine.execMemBankInitDone b s
  | .halfCalDone h pchFail auxFail trims => Sys2Proof.Machine.execHalfCalDone h pchFail auxFail trims s
  | .domTmo x => Sys2Proof.Machine.execDomTmo x s
  | .padRelease v => Sys2Proof.Machine.execPadRelease v s
  | .lookoutCycleStart => Sys2Proof.Machine.execLookoutCycleStart s
  | .lookoutCycleEnd m => Sys2Proof.Machine.execLookoutCycleEnd m s
  | .alarm => Sys2Proof.Machine.execAlarm s
  | .alarmHiWrite v => Sys2Proof.Machine.execAlarmHiWrite v s
  | .wakeIn => Sys2Proof.Machine.execWakeIn s
  | .hostWake clks bits => Sys2Proof.Machine.execHostWake clks bits s
  | .netWake p bytes => Sys2Proof.Machine.execNetWake p bytes s
  | .wakeCoreReady => Sys2Proof.Machine.execWakeCoreReady s
  | .unlockFirst blk => Sys2Proof.Machine.execUnlockFirst blk s
  | .unlockSecond blk => Sys2Proof.Machine.execUnlockSecond blk s
  | .relock blk => Sys2Proof.Machine.execRelock blk s
  | .unlockTimeout blk => Sys2Proof.Machine.execUnlockTimeout blk s
  | .sdmBitSample clk bits => Sys2Proof.Machine.execSdmBitSample clk bits s
  | .safePinHoldExpiry p => Sys2Proof.Machine.execSafePinHoldExpiry p s
  | .resetNRisingEdge testEn => Sys2Proof.Machine.execResetNRisingEdge testEn s
  | .tapTckEdge tms tdi => Sys2Proof.Machine.execTapTckEdge tms tdi s
  | .frameTransmitDone p => Sys2Proof.Machine.execFrameTransmitDone p s
  | .sclTempReading h t => Sys2Proof.Machine.execSclTempReading h t s
  | .vexcGoodAgain rail mv => Sys2Proof.Machine.execVexcGoodAgain rail mv s
  | .otsClear n temp => Sys2Proof.Machine.execOtsClear n temp s
  | .unlockFirstExpiry => Sys2Proof.Machine.execUnlockFirstExpiry s

end Sys2Proof.Machine
end

