-- ==== Sys2Proof/Safety.lean ====
section
/-! DEFINITION. What the statements speak of: the relation of a queue's counts, the canonical form of the
memories, and what a fault report and its reaction can touch. -/

namespace Sys2Proof

/-! ## Kinds of command -/

/-- Commands that can change the FRAM: the ends of a calibration store and of a programming, and a reset that cuts one short
(R74, R90, R100). -/
def Instr.writesFram (b : Machine.Boot) : Instr → Bool
  | .calStoreDone _ _ => true
  | .framProgDone _ => true
  | .pinReset | .softwareReset | .supplyLost _ => b.store.isSome || decide (b.phase = .framProg)
  | _ => false

/-- Commands that carry the verdict of a supply monitor. -/
def Instr.movesRails : Instr → Bool
  | .supplyGood _ => true
  | .supplyLost _ => true
  | .vuv _ _ => true
  | .vexcGoodAgain _ _ => true
  | _ => false

/-- The request bytes and the CRC_REQ of a frame command whose data phase is as long as LEN says (R397). -/
def Instr.request : Instr → Option (List Byte × Byte)
  | .read m a n c => some (Machine.reqBytes m.toNat a n [], c)
  | .write a n d c => if d.length = n.toNat + 1 then some (Machine.reqBytes 0x20 a n d, c) else none
  | .qread a n c => some (Machine.reqBytes 0x30 a n [], c)
  | .qack a n d c => if d.length = n.toNat + 1 then some (Machine.reqBytes 0x31 a n d, c) else none
  | .qpush a n d c => if d.length = n.toNat + 1 then some (Machine.reqBytes 0x40 a n d, c) else none
  | _ => none

namespace Machine

/-! ## Queues -/

/-- DELIV + HELD + DROP = NSEQ modulo 2^32 (R411). -/
def Queue.balanced (q : Queue) : Prop := (q.deliv + q.held + q.drop) % 2 ^ 32 = q.nseq % 2 ^ 32

/-- Every queue keeps the relation of R411. -/
def State.queuesBalanced (s : State) : Prop := ∀ i : Fin 64, (s.que.q[i]).balanced

/-! ## Memories -/

/-- The FRAM is in canonical form. -/
def State.framCanonical (s : State) : Prop := Memory.wf framDefault s.fram = true

/-- The SRAM is in canonical form. -/
def State.sramCanonical (s : State) : Prop := Memory.wf sramDefault s.sram = true

/-! ## What a fault report touches -/

/-- A queue without what an offer of a record changes: NSEQ, the producers of the cycle, staging, DROP and its interrupt (R408,
R409, R411, R420). -/
def Queue.quiet (q : Queue) : Queue :=
  { q with nseq := 0, drop := 0, staged := [], dropEv := false, intWas := false, sameAt := 0, same := [] }

/-- A drive without what a handover request, from either half, and a hold-off window change (R248, R255, R355). -/
def XDrive.quiet (x : XDrive) : XDrive := { x with req := [], holdHo := {}, holdSsl := {}, mate := none }

/-- A recorder without the trigger that waits and the causes that a trigger joins (R393, Table 17.8). -/
def Frec.quiet (f : Frec) : Frec := { f with pend := 0, pendTime := 0, pendCyc := 0, cause := 0 }

/-- The state without what a fault, its report and its reaction can change: the fault headers, the offers to queues and
their sequence, a trigger waiting at a recorder, the safe state with its pins and DIS_REQ, requests for a handover, hold-off
windows, and the sources noted during BIST. Two states with equal `quiet` differ in nothing else. -/
def State.quiet (s : State) : State :=
  { s with
    flt := Vector.replicate 25 {}
    que := { s.que with q := s.que.q.map Queue.quiet, offers := 0 }
    frec := s.frec.map Frec.quiet
    safe := Vector.replicate 2 {}
    xd := s.xd.map XDrive.quiet
    pads := { s.pads with inh := Vector.replicate 2 {}, asc := Vector.replicate 2 {}, dis := {} }
    sdm := { s.sdm with dis := ⟨false, false⟩ }
    boot := { s.boot with bistTaint := 0 } }

/-! ## Running a command -/

/-- Command `c` runs in `s`, and its next state satisfies `P`. -/
def Completes (c : Instr) (s : State) (P : State → Prop) : Prop := ∃ t, exec c s = .next t ∧ P t

/-- Command `c` runs in `s`; what it leaves before the domains answer to the votes (R426) satisfies `P`. -/
def CompletesVoting (c : Instr) (s : State) (P : State → Prop) : Prop := ∃ u : State, exec c s = .next u.domains ∧ P u

/-- The live bit `b` that copy `c` of page `p` holds (R347). -/
def State.liveBit (s : State) (p : Page) (c : Copy) (b : Nat) : Bool := ((s.hdr p).liveOf c).getLsbD b

/-- The sticky bit `b` of page `p` (R347). -/
def State.stickyBit (s : State) (p : Page) (b : Nat) : Bool := (s.hdr p).sticky.getLsbD b

/-- A fault of source `b` of page `p` detected now is reported: its page has power, and no hold-off window covers it (R343,
R356). -/
def State.reports (s : State) (p : Page) (b : Nat) : Bool := s.powered p && !s.heldOff p b

/-- The state without what a channel loss changes, besides what a report can change: the position channels, the tags on their
way to the generators, the ledgers of the encoder outputs, which freeze with their source (R268), the drives that freeze in
the scheduler (R286), and the hold-off windows of the drives. -/
def State.apart (s : State) : State :=
  { s.quiet with
    pch := Vector.replicate 8 {}, xd := Vector.replicate 2 {}, gen := {}, enc := Vector.replicate 4 {}
    aev := { s.quiet.aev with live := Vector.replicate 2 false } }

/-- Frames of message `m` at a port: waiting in a class, or in transmission (R388). -/
def Port.count (x : Port) (m : NetMsg) : Nat :=
  ((x.q.toList.flatten).filter fun f => decide (f.msg = m)).length +
    (match x.cur with
      | some (f, _) => if f.msg = m then 1 else 0
      | none => 0)

/-- The device answers frames: in RUN or DOZE, out of internal reset, not in boundary scan, released (R400, R404). -/
def State.answers (s : State) : Prop :=
  (s.pwr.st = .run ∨ s.pwr.st = .doze) ∧ s.hears = true ∧ s.sys.scan = false ∧ s.boot.released = true

/-- The state with response `st`, `idx`, `data` driven. -/
def State.respond (s : State) (st : Status) (idx : Nat) (data : List Word) : State :=
  { s with wst := st, resp := some (mkResp st idx data) }

/-- The state after host writes of the words from `a` upwards that all complete with OK, the device staying
released; none if one does not. -/
def State.hostWrites (s : State) (a : Nat) : List Word → Option State
  | [] => some s
  | v :: d => if s.boot.released then
      match s.hostWrite a v with
        | (.ok, t) => t.hostWrites (a + 4) d
        | _ => none
    else none

/-- The words that `n` host reads from `a` upwards give, and the state after them, if all complete with OK. -/
def State.hostReads (s : State) (a : Nat) : Nat → Option (List Word × State)
  | 0 => some ([], s)
  | n + 1 => if s.boot.released then
      match s.hostRead a with
        | (.ok, w, t) => (t.hostReads (a + 4) n).map fun r => (w :: r.1, r.2)
        | _ => none
    else none

/-- The pads in boundary-scan mode: every safe-state pin asserted, the others as after a reset (R46). -/
def scannedPads : Pads :=
  { inh := Vector.replicate 2 ⟨false, none⟩, asc := Vector.replicate 2 ⟨true, none⟩, dis := ⟨true, none⟩ }

/-- `t` is `s` restarted by a reset (R74 to R76): all is at its reset value but the environment, what the reset leaves in the
FRAM and of its slots (R90, R100), the safe-state pins in boundary-scan mode with VIO (R44, R46), the words that AON keeps, and what the
statement says of the other fields named here. -/
def Restarted (s t : State) : Prop :=
  t = { State.reset with
    pending := s.pending, qb := s.qb, free := s.free + 1, cfg := t.cfg, fram := s.framCut.1
    boot := { torn := s.framCut.2 }, clk := t.clk, rails := t.rails, vexcMv := s.vexcMv, sys := t.sys, pwr := t.pwr
    tap := t.tap, pads := if t.sys.scan && t.rails.vio then scannedPads else {} }

/-- What SYS keeps through a reset other than power-on: the causes with bit `c`, RST_CNT, and what no reset moves (Table 3.7,
R70, R76). -/
def Sys.kept (x : Sys) (c : Nat) (low : Bool) (now : BitVec 5) : Sys :=
  { cause := bput x.cause c true, causesNow := bput now c true, rstCnt := x.rstCnt, resetLow := low, scan := x.scan
    rtcXtalOk := x.rtcXtalOk, rtcLprc := x.rtcLprc }

/-- The causes that a reset now joins: those of the internal reset in progress (R74). -/
def State.joins (s : State) : BitVec 5 := if s.boot.phase = .reset then s.sys.causesNow else 0

end Machine
end Sys2Proof
end

