-- ==== Sys2Proof/Certificates/Slice0/Obligations.lean ====
section
/-! DEFINITION. The statements for the provers, family by family. `Completes c s P` says that command `c` runs in `s` and that
its next state satisfies `P`; `t.quiet = u.quiet` says that `t` and `u` differ in nothing but what a fault report and its
reaction change. -/

open Sys2Proof Sys2Proof.Machine

/-! ## The machine as a whole -/

/-- A step takes the command at the front of the queue and runs it on the state with the rest of the queue. -/
def Obligations.StepRunsFrontCommand : Prop :=
  ∀ (s : State) (c : Instr) (rest : List Instr), s.pending = c :: rest → step s = exec c { s with pending := rest }

/-- With no command waiting one TCLK cycle passes and nothing else happens: TIME, which has a fraction of 32 bits, advances by 2.5
× (1 + RATE_ADJ × 2^-40) ns, rounded to one of its two neighbours (R377, assumption 19), while CORE is on; the RTC by its share of
a tick from the crystal, by some share within 15 % of 32 kHz from the RC oscillator, not at all without VAON (R69, R70). That an
empty queue lets a cycle pass is the model's choice (assumption 2). -/
def Obligations.IdleStepPassesOneCycle : Prop :=
  ∀ s : State, s.pending = [] → ∃ t, step s = .next t ∧ t = { s with clk := t.clk } ∧
    t.clk.cyc = s.clk.cyc + 1 ∧ t.clk.rate = s.clk.rate ∧ (s.rails.vaon = true → s.sys.rtcLprc = false → t.clk.rtc = s.clk.rtc + 3200) ∧
    (s.rails.vaon = true → s.sys.rtcLprc = true → s.clk.rtc + 2657 ≤ t.clk.rtc ∧ t.clk.rtc ≤ s.clk.rtc + 3593) ∧
    (s.rails.vaon = false → t.clk.rtc = s.clk.rtc) ∧
    (s.pwr.core ≠ .off → ∃ r : Int, 5 * s.clk.rate < 512 * (r + 1) ∧ 512 * (r - 1) < 5 * s.clk.rate ∧
      (t.clk.time : Int) = ((s.clk.time : Int) + 5 * 2 ^ 31 + r) % 2 ^ 96) ∧
    (s.pwr.core = .off → t.clk.time = s.clk.time)

/-- What a power-on reset leaves, as far as the spec gives it (R71, R74, Table 3.7, Table 18.2). -/
def Parts.PowerOnResetLeaves : Prop :=
  State.reset.boot.phase = .reset ∧ State.reset.boot.released = false ∧
  State.reset.sys.cause = 1 ∧ State.reset.sys.rstCnt = 0 ∧ State.reset.clk.time = 0 ∧
  State.reset.unlock.blocks = 0 ∧ State.reset.alive.running = false ∧ State.reset.pending = [] ∧ State.reset.cfg = [] ∧
  (∀ d : Drive, (State.reset.safe[d]).ssl = ⟨true, true⟩) ∧
  (∀ n : Fin 8, (State.reset.pch[n]).st = .off) ∧ (∀ n : Fin 4, (State.reset.exc[n]).st = .off) ∧
  (∀ i : Fin 64, (State.reset.que.q[i]).nseq = 0 ∧ (State.reset.que.q[i]).deliv = 0 ∧ (State.reset.que.q[i]).drop = 0 ∧
    (State.reset.que.q[i]).held = 0) ∧
  (∀ n : Fin 4, State.reset.EXC_FREQ_FREQ_HZ n.val = 10000) ∧ State.reset.readHdr .sys 0x08 = 0

/-- Whatever the state, every command ends in a next state: none stops, and none refuses. That a row which names an event of the
device changes nothing in a state in which the event cannot come about, and does not refuse, is the model's choice
(assumption 15). -/
def Obligations.CommandsNeverStop : Prop := ∀ (c : Instr) (s : State), ∃ t, exec c s = .next t

/-- No command changes the commands that wait or the ordering code; only the end of a calibration store and of a programming,
and a reset that cuts one short, change the FRAM (R74, R90, R98, R100); only the supply monitors change which rails count as
good (R56, R103). -/
def Obligations.CommandsLeaveAlone : Prop :=
  ∀ (c : Instr) (s t : State), exec c s = .next t →
    t.pending = s.pending ∧ t.qb = s.qb ∧ (c.writesFram s.boot = false → t.fram = s.fram) ∧
      (c.movesRails = false → t.rails = s.rails)

/-- DELIV + HELD + DROP = NSEQ modulo 2^32 in every queue, before a step and after it (R411, R452). -/
def Obligations.StepKeepsQueueRelation : Prop :=
  ∀ s t : State, s.queuesBalanced → step s = .next t → t.queuesBalanced

/-- Every step keeps the FRAM in canonical form. -/
def Obligations.StepKeepsFramCanonical : Prop :=
  ∀ s t : State, s.framCanonical → step s = .next t → t.framCanonical

/-- Every step keeps the SRAM in canonical form. -/
def Obligations.StepKeepsSramCanonical : Prop :=
  ∀ s t : State, s.sramCanonical → step s = .next t → t.sramCanonical

/-- The state after a power-on reset meets these invariants, with every ring's credits in place (R408, R410, R411). -/
def Parts.ResetMeetsInvariants : Prop :=
  State.reset.queuesBalanced ∧ State.reset.framCanonical ∧ State.reset.sramCanonical ∧
  ∀ i : Fin 64, (State.reset.que.q[i]).creditOk = true

/-- The state after a power-on reset: what the spec gives for it, and the invariants. -/
def Obligations.ResetStateHolds : Prop :=
  Parts.PowerOnResetLeaves ∧ Parts.ResetMeetsInvariants

/-! ## Resets, supplies, clocks -/

/-- RESET_N low, the loss of VIO or VPRE, and a software reset restart the device (R56, R71 to R76): the cause bit sets beside the
earlier ones; the alarm, the wake record and the RTC outlive them. The loss of VAON is a power-on reset, and so is every reset
that comes without VAON: its cause stands alone, and nothing of AON is kept. That the TAP controller outlives pin and software
resets, that AON keeps exactly what Table 19.10 lists, and that boundary-scan mode outlives a reset are the model's choices
(assumptions 33, 65). -/
def Parts.ResetsRestart : Prop :=
  ∀ s : State,
    let kept (c : Nat) (low : Bool) (t : State) : Prop := Restarted s t ∧ t.sys = s.sys.kept c low s.joins ∧ t.pwr = s.pwr.kept ∧
      t.cfg = s.cfg.filter (fun e => alarmKey e.1)
    let fresh (low : Bool) (t : State) : Prop := Restarted s t ∧ t.sys = { resetLow := low } ∧ t.pwr = {} ∧ t.tap = {} ∧
      t.cfg = [] ∧ t.clk.rtc = 0 ∧ t.clk.time = 0
    (s.rails.vaon = true →
      Completes .pinReset s (fun t => kept 1 true t ∧ t.rails = s.rails ∧ t.tap = s.tap ∧
        t.clk = { cyc := s.clk.cyc, rtc := s.clk.rtc }) ∧
      Completes (.supplyLost .vio) s (fun t => kept 3 s.sys.resetLow t ∧ t.rails = { s.rails with vio := false } ∧ t.tap = {} ∧
        t.clk = { cyc := s.clk.cyc, rtc := s.clk.rtc }) ∧
      Completes (.supplyLost .vpre) s (fun t => kept 4 s.sys.resetLow t ∧ t.rails = { s.rails with vpre := false } ∧
        t.tap = {} ∧ t.clk = { cyc := s.clk.cyc, rtc := s.clk.rtc }) ∧
      ∀ c, s.sys.swrstAt = some c → Completes .softwareReset s (fun t => kept 2 s.sys.resetLow t ∧ t.rails = s.rails ∧
        t.tap = s.tap ∧ t.clk = { cyc := max c s.clk.cyc, rtc := s.clk.rtc + s.rtcRate * (c - s.clk.cyc) })) ∧
    Completes (.supplyLost .vaon) s (fun t => fresh s.sys.resetLow t ∧ t.rails = { s.rails with vaon := false }) ∧
    (s.rails.vaon = false →
      Completes .pinReset s (fun t => fresh true t ∧ t.rails = s.rails) ∧
      Completes (.supplyLost .vio) s (fun t => fresh s.sys.resetLow t ∧ t.rails = { s.rails with vio := false }) ∧
      Completes (.supplyLost .vpre) s (fun t => fresh s.sys.resetLow t ∧ t.rails = { s.rails with vpre := false }))

/-- What a reset leaves in the FRAM (R74, R90, R100): all of it while nothing is being written; a programming that is cut short
has no image magic left and has touched nothing beyond the image; a store that is cut short has touched its target slot alone.
Where a reset cuts a write, and what the bytes under way are then, is the model's choice (assumption 60). -/
def Parts.ResetsCutWrites : Prop :=
  ∀ s : State,
    ∀ c ∈ [Instr.pinReset, .supplyLost .vaon, .supplyLost .vio, .supplyLost .vpre],
      Completes c s (fun t =>
        (s.boot.phase ≠ .framProg → s.boot.store = none → t.fram = s.fram ∧ t.boot.torn = s.boot.torn) ∧
        (s.boot.phase = .framProg →
          (s.framCanonical → ∀ a, a < 4 → Memory.read framDefault t.fram a = 0) ∧
          ∀ a, 0x40 + s.boot.bodyLen ≤ a → Memory.read framDefault t.fram a = Memory.read framDefault s.fram a) ∧
        ∀ x, s.boot.phase ≠ .framProg → s.boot.store = some x → x.bytes.length ≤ 4096 →
          ∀ a, a < slotBase x.toB ∨ slotBase x.toB + 4096 ≤ a →
            Memory.read framDefault t.fram a = Memory.read framDefault s.fram a)

/-- Internal reset ends only with VAON, VIO and VPRE good and RESET_N high; boot then begins, cycles and TIME count from there,
and RST_CNT counts a reset that was no power-on (R74, R75). RESET_N rising after an accepted pulse takes TEST_EN: boundary scan
asserts every safe-state pin, for which the voter needs VIO, and keeps it so through the end of internal reset; without it each of
them takes its default state at once (R43 to R46, R55). The count of cycles from 0 and the acceptance of the pulse are the model's
choices (assumption 33). -/
def Parts.InternalResetEnds : Prop :=
  ∀ s : State,
    let asserted (t : State) : Prop :=
      ∀ d : Drive, (t.pads.inh[d]).sink = false ∧ (t.pads.asc[d]).sink = true ∧ t.pads.dis.sink = true
    let default (t : State) : Prop := ∀ d : Drive, t.pads.inh[d] = {} ∧ t.pads.asc[d] = {} ∧ t.pads.dis = {}
    (s.boot.phase = .reset → s.pwr.st = .run → s.rails.vaon = true → s.rails.vio = true → s.rails.vpre = true →
      s.sys.resetLow = false →
      Completes .internalResetEnd s (fun t => t.quiet = ({ s with
          sys := { s.sys with
            causesNow := 0
            rstCnt := if s.sys.causesNow &&& 0x1E = 0 then s.sys.rstCnt else min 255 (s.sys.rstCnt + 1) }
          clk := { cyc := 0, time := 0, rate := 0, rtc := s.clk.rtc }
          boot := { s.boot with phase := .header } } : State).quiet ∧ (s.sys.scan = true → asserted t) ∧
          (s.sys.scan = false → default t))) ∧
    (s.sys.resetLow = true ∨ s.rails.vaon = false ∨ s.rails.vio = false ∨ s.rails.vpre = false →
      exec .internalResetEnd s = .next s) ∧
    (s.sys.resetLow = true → ∀ e : Bool, Completes (.resetNRisingEdge e) s (fun t =>
      t.quiet = ({ s with sys := { s.sys with resetLow := false, scan := e } } : State).quiet ∧
      (e = true → s.rails.vio = true → asserted t) ∧ (e = false ∨ s.rails.vio = false → default t))) ∧
    (s.sys.resetLow = false → ∀ e : Bool, exec (.resetNRisingEdge e) s = .next s)

/-- The key of SYS_SWRST completes with OK and arms a reset 2 µs later; a second one leaves the reset that is owed where it is
(R73). Without a key there is no software reset. -/
def Parts.SoftwareResetKey : Prop :=
  ∀ s : State,
    (s.sys.swrstAt = none →
      exec .swrstKey s = .next { s with sys := { s.sys with swrstAt := some (s.clk.cyc + 800) }, wst := .ok } ∧
      exec .softwareReset s = .next s) ∧
    (s.sys.swrstAt ≠ none → exec .swrstKey s = .next { s with wst := .ok })

/-- Resets (R56, R71 to R76): what each cause restarts, the software reset, what becomes of a write under way, and the end of
internal reset. -/
def Obligations.ResetsAndRestart : Prop :=
  Parts.ResetsRestart ∧ Parts.ResetsCutWrites ∧ Parts.SoftwareResetKey ∧ Parts.InternalResetEnds

/-- SUPPLY_GOOD (R56, R57): VAON, VIO and VPRE count as good again, with VIO the pins of boundary-scan mode are asserted again
(R44, R46); a good VDDA_n ends VDDA_UV of its half and the cause VDDA of its channels. -/
def Parts.SuppliesReturn : Prop :=
  ∀ s : State,
    exec (.supplyGood .vaon) s = .next { s with rails := { s.rails with vaon := true } } ∧
    (s.sys.scan = false → exec (.supplyGood .vio) s = .next { s with rails := { s.rails with vio := true } }) ∧
    (s.sys.scan = true → Completes (.supplyGood .vio) s (fun t =>
      t.quiet = ({ s with rails := { s.rails with vio := true } } : State).quiet ∧
      ∀ d : Drive, (t.pads.inh[d]).sink = false ∧ (t.pads.asc[d]).sink = true ∧ t.pads.dis.sink = true)) ∧
    exec (.supplyGood .vpre) s = .next { s with rails := { s.rails with vpre := true } } ∧
    ∀ h : Half, Completes (.supplyGood (if h = .h0 then .vdda0 else .vdda1)) s (fun t =>
      t.rails = (if h = .h0 then { s.rails with vdda0 := true } else { s.rails with vdda1 := true }) ∧
      t.fram = s.fram ∧ t.cfg = s.cfg ∧ t.exc = s.exc ∧
      (s.powered .sys = true → t.liveBit .sys h.copy (10 + h.num) = false) ∧
      ∀ n : Fin 8, (pchHalf n.val = h → (t.pch[n]).live.getLsbD 5 = false) ∧ (t.pch[n]).st = (s.pch[n]).st ∧
        (pchHalf n.val ≠ h → t.pch[n] = s.pch[n]))

/-- The loss of VDDA_n (R57, Table 3.1): VDDA_UV of its half is live, and every channel of the half that is not OFF declares
channel loss with the cause VDDA. -/
def Parts.AnalogueSupplyLost : Prop :=
  ∀ (s : State) (h : Half), Completes (.supplyLost (if h = .h0 then .vdda0 else .vdda1)) s (fun t =>
    t.rails = (if h = .h0 then { s.rails with vdda0 := false } else { s.rails with vdda1 := false }) ∧
    t.fram = s.fram ∧ t.cfg = s.cfg ∧ t.exc = s.exc ∧
    (s.powered .sys = true → t.liveBit .sys h.copy (10 + h.num) = true) ∧
    ∀ n : Fin 8,
      (pchHalf n.val = h → s.pchOn n = true → (t.pch[n]).live.getLsbD 5 = true ∧ (t.pch[n]).cause.getLsbD 5 = true ∧
        ((s.pch[n]).st = .track ∨ (s.pch[n]).st = .phaseAcq → (t.pch[n]).st = .lost ∧ (t.pch[n]).lp.locked = false)) ∧
      (pchHalf n.val ≠ h ∨ s.pchOn n = false → t.pch[n] = s.pch[n]))

/-- VEXC_n (R103, Tables 5.1 and 5.3): undervoltage below 7.5 V and overvoltage above 19.5 V are live in the half of the rail
and trip both its bridges; good again above 7.8 V and below 19.0 V. The latest voltage is kept (R102). -/
def Parts.RailVerdicts : Prop :=
  ∀ (s : State) (r : Fin 2) (mv : BitVec 16),
    let c := (railHalf r).copy
    let own : Fin 4 × Fin 4 := railExc r
    let judged := s.powered .exc = true ∧ s.halfOn (railHalf r) = true
    let kept (t : State) : Prop := t.vexcMv = vset s.vexcMv r mv.toNat ∧ t.fram = s.fram ∧ t.cfg = s.cfg
    let trips (t : State) : Prop := ∀ n : Fin 4,
      (n = own.1 ∨ n = own.2 → (s.exc[n]).st = .run ∨ (s.exc[n]).st = .rampUp ∨ (s.exc[n]).st = .rampDown →
        (t.exc[n]).st = .tripped ∧ (t.exc[n]).lvlNow = 0) ∧
      (n ≠ own.1 → n ≠ own.2 → t.exc[n] = s.exc[n])
    let stays (t : State) : Prop := ∀ n : Fin 4, (t.exc[n]).st = (s.exc[n]).st ∧ (t.exc[n]).lvlNow = (s.exc[n]).lvlNow
    (mv.toNat < 7500 → Completes (.vuv r mv) s (fun t => kept t ∧ trips t ∧
      t.rails = (if r = 0 then { s.rails with vexc0 := false } else { s.rails with vexc1 := false }) ∧
      (judged → t.liveBit .exc c (24 + 2 * r.val) = true))) ∧
    (7500 ≤ mv.toNat → Completes (.vuv r mv) s (fun t => kept t ∧ stays t ∧ t.rails = s.rails)) ∧
    (19500 < mv.toNat → Completes (.vov r mv) s (fun t => kept t ∧ trips t ∧ t.rails = s.rails ∧
      (judged → t.liveBit .exc c (25 + 2 * r.val) = true))) ∧
    (mv.toNat ≤ 19500 → Completes (.vov r mv) s (fun t => kept t ∧ stays t ∧ t.rails = s.rails)) ∧
    Completes (.vexcGoodAgain r mv) s (fun t => kept t ∧ stays t ∧
      t.rails = (if mv.toNat ≤ 7800 then s.rails
        else if r = 0 then { s.rails with vexc0 := true } else { s.rails with vexc1 := true }) ∧
      (judged → (7800 < mv.toNat → t.liveBit .exc c (24 + 2 * r.val) = false) ∧
        (mv.toNat < 19000 → t.liveBit .exc c (25 + 2 * r.val) = false)))

/-- The clock monitors (R67, R68): each live bit follows the windows of R67; REF_LOSS and the unlocked PLLs set theirs; nothing
else changes but the flags named. -/
def Parts.ClockMonitors : Prop :=
  ∀ (s : State) (h : Half), s.clkMon h = true →
    Completes (.refLoss h) s (fun t => t.liveBit .sys h.copy h.num = true ∧
      t.quiet = ({ s with sys := { s.sys with xtalOk := false, tpllLock := false, spllLock := false } } : State).quiet) ∧
    (∀ n, Completes (.refFreq h n) s (fun t =>
      t.liveBit .sys h.copy (2 + h.num) = decide (n < 230 ∨ 270 < n) ∧ t.quiet = s.quiet)) ∧
    (∀ n, Completes (.tclkFreq h n) s (fun t =>
      t.liveBit .sys h.copy (4 + h.num) = decide (n < 368 ∨ 432 < n) ∧ t.quiet = s.quiet)) ∧
    (∀ a b, Completes (.rcFail h a b) s (fun t =>
      t.liveBit .sys h.copy (8 + h.num) = (!a && !b) ∧
      t.quiet = ({ s with sys := { s.sys with rcOk := s.sys.rcOk.set h a } } : State).quiet)) ∧
    Completes .tpllUnlock s (fun t => t.liveBit .sys .shared 6 = true ∧
      t.quiet = ({ s with sys := { s.sys with tpllLock := false } } : State).quiet) ∧
    Completes .spllUnlock s (fun t => t.liveBit .sys .shared 7 = true ∧
      t.quiet = ({ s with sys := { s.sys with spllLock := false } } : State).quiet)

/-- The regulators (R67): below 92 %, above 108 % of the set-point, a replica that fails. -/
def Parts.RegulatorMonitors : Prop :=
  ∀ (s : State) (x : VDom), s.monitoring = true → s.vdomOn x = true →
    (∀ uv, Completes (.regUv x uv) s (fun t =>
      t.liveBit .sys (VDom.copy x) (12 + 4 * (VDom.num x).val) = decide (100 * uv < 92 * s.vSetUv x) ∧ t.quiet = s.quiet)) ∧
    (∀ uv, Completes (.regOv x uv) s (fun t =>
      t.liveBit .sys (VDom.copy x) (13 + 4 * (VDom.num x).val) = decide (108 * s.vSetUv x < 100 * uv) ∧ t.quiet = s.quiet)) ∧
    (∀ ok, Completes (.cpmFail x ok) s (fun t =>
      t.liveBit .sys (VDom.copy x) (14 + 4 * (VDom.num x).val) = !ok ∧ t.quiet = s.quiet))

/-- The source of the RTC (R70): on the loss of the crystal the low-power RC oscillator takes over at once and RTC_XTAL is live;
back on the crystal at the next RTC tick. -/
def Parts.RtcSource : Prop :=
  ∀ s : State, s.monitoring = true → s.rails.vaon = true →
    Completes .rtcXtal s (fun t => t.liveBit .pwr .shared 0 = true ∧
      t.quiet = ({ s with sys := { s.sys with rtcXtalOk := false, rtcLprc := true } } : State).quiet) ∧
    (s.sys.rtcLprc = true → Completes .rtcXtalRestore s (fun t => t.liveBit .pwr .shared 0 = false ∧
      t.quiet = ({ s with clk := t.clk, sys := { s.sys with rtcXtalOk := true, rtcLprc := false } } : State).quiet ∧
      (s.clk.rtc / rtcUnit + 1) * rtcUnit ≤ t.clk.rtc ∧ t.clk.rtc < (s.clk.rtc / rtcUnit + 1) * rtcUnit + s.rtcRate)) ∧
    (s.sys.rtcLprc = false → exec .rtcXtalRestore s = .next s)

/-- Clock and regulator monitors, and the source of the RTC (R60, R64 to R70). -/
def Obligations.ClockAndRegulatorMonitors : Prop :=
  Parts.ClockMonitors ∧ Parts.RegulatorMonitors ∧ Parts.RtcSource

/-- One evaluation of the adaptive loop, on the grid of 10 µs (R61 to R63): with AVS_EN clear every domain that is on stands at
its nominal set-point; else a margin below the lower threshold raises the set-point by one step, the 16th in a row above the
upper one lowers it by one, always within the limits; a step needed above the ceiling is live as AVS_CEIL. The loop of CORE rests
during a DVFS sequence. Nothing else changes. The place of the grid is the model's choice (assumption 59). -/
def Parts.AvsEvaluation : Prop :=
  ∀ (s : State) (m : Margins), s.monitoring = true →
    Completes (.avsEval m) s (fun t =>
      t.clk.cyc % 4000 = 0 ∧ max s.clk.cyc s.sys.avsNext ≤ t.clk.cyc ∧ t.clk.cyc < max s.clk.cyc s.sys.avsNext + 4000 ∧
      t.quiet = ({ s with
        clk := t.clk
        sys := { s.sys with
          avsCode := t.sys.avsCode, avsHigh := t.sys.avsHigh, avsNext := t.clk.cyc + 1 } } : State).quiet ∧
      ∀ (x : VDom) (g : Margin), ((x, g) = (.h0, m.h0) ∨ (x, g) = (.h1, m.h1) ∨ (x, g) = (.core, m.core) ∨
          (x, g) = (.mem, m.mem) ∨ (x, g) = (.net, m.net)) →
        let i := VDom.num x
        let nom := s.vNominal x
        let up := nom + min 6 (s.avsWord.fld 16 4)
        let dn := nom - min 12 (s.avsWord.fld 8 4)
        let code := s.sys.avsCode[i]
        let run := s.sys.avsHigh[i]
        let goes (c k : Nat) : Prop := t.sys.avsCode[i] = c ∧ t.sys.avsHigh[i] = k
        (s.vdomOn x = false ∨ (x = .core ∧ s.pwr.dvfs.isSome = true) → goes code run) ∧
        (s.vdomOn x = true → x ≠ .core ∨ s.pwr.dvfs = none →
          (s.avsWord.bit 0 = false → goes nom 0) ∧
          (s.avsWord.bit 0 = true →
            (g = .low → goes (clampNat dn up (code + 1)) 0) ∧
            (g = .mid → goes (clampNat dn up code) 0) ∧
            (g = .high → run ≠ 15 → goes (clampNat dn up code) (run + 1)) ∧
            (g = .high → run = 15 → goes (clampNat dn up (code - 1)) 0) ∧
            t.liveBit .sys (VDom.copy x) (15 + 4 * i.val) = decide (g = .low ∧ up ≤ code))))

/-- Supply monitors and the adaptive loop (R56, R57, R61 to R63, R103). -/
def Obligations.SupplyAndAdaptiveLoop : Prop :=
  Parts.SuppliesReturn ∧ Parts.AnalogueSupplyLost ∧ Parts.RailVerdicts ∧ Parts.AvsEvaluation


/-! ## Boot -/

/-- The header is read and judged (R77, R83) and the first self-test phase begins; the body is read into the staging region and
judged, the calibration slots too (R84, R89, Table 4.1); a slot that a reset has torn is not valid (R90). A wake runs no
self-test: its body leads to apply, or to the hold (R446). -/
def Parts.ImageIsRead : Prop :=
  (∀ s : State, s.boot.phase = .header → s.boot.hdrRead = false → s.boot.kind ≠ .wake →
    Completes .headerReadDone s (fun t => t = { s with boot := t.boot } ∧ t.boot.hdrRead = true ∧ t.boot.phase = .bist ∧
      t.boot.bistPhase = 0 ∧ t.boot.imgCause = headerCause s.qb (s.framBytes 0 64) ∧
      (t.boot.imgCause = 0 → t.boot.imgId.toNat = fieldAt (s.framBytes 0 64) 0x10 4 % 2 ^ 32 ∧
        t.boot.bodyLen = fieldAt (s.framBytes 0 64) 8 4 ∧ t.boot.calUse = fieldAt (s.framBytes 0 64) 0x15 1) ∧
      t.boot.bistEng[0] = 1 ∧ t.boot.bistMem[6] = 1 ∧ t.boot.bistMem[7] = 1 ∧ t.boot.released = s.boot.released)) ∧
  (∀ s : State, s.boot.hdrRead = true → s.boot.bodyRead = false → s.boot.bodyLen ≤ 253888 →
    Memory.wf sramDefault s.sram = true →
    let body := s.framBytes 0x40 s.boot.bodyLen
    let cause := if s.boot.imgCause = 0 ∧ bodyOk body = false then 6 else s.boot.imgCause
    let stagedIn (t : State) : Prop :=
      t.stageBytes 0 (64 + s.boot.bodyLen) = s.framBytes 0 64 ++ body ∧
      t.stageBytes 0x3E000 4096 = s.framBytes 0x3E000 4096 ∧ t.stageBytes 0x3F000 4096 = s.framBytes 0x3F000 4096 ∧
      ∀ a, a < 0x700000 ∨ 0x740000 ≤ a → Memory.read sramDefault t.sram a = Memory.read sramDefault s.sram a
    let judged (t : State) : Prop := t.boot.bodyRead = true ∧ t.boot.imgCause = cause ∧
      t.boot.aValid = (slotOk (s.framBytes 0x3E000 4096) && !s.boot.torn.getLsbD 0) ∧
      t.boot.bValid = (slotOk (s.framBytes 0x3F000 4096) && !s.boot.torn.getLsbD 1)
    (s.boot.phase = .bist → 1 ≤ s.boot.bistPhase → s.boot.kind ≠ .wake → Completes .bodyReadDone s (fun t =>
      t = { s with boot := t.boot, sram := t.sram } ∧ judged t ∧ stagedIn t ∧
      t.boot.phase = .bist ∧ t.boot.bistPhase = s.boot.bistPhase)) ∧
    (s.boot.phase = .header → s.boot.kind = .wake →
      (cause ≠ 0 → Completes .bodyReadDone s (fun t => judged t ∧ stagedIn t ∧
        t.boot.phase = .hold ∧ t.boot.inHold = true ∧ t.boot.holdCause = cause)) ∧
      (cause = 0 → Completes .bodyReadDone s (fun t => ∃ u : State,
        u = { s with boot := u.boot, sram := u.sram } ∧ judged u ∧ stagedIn u ∧ t = u.beginApply))))

/-- The end of a self-test phase (R92 to R94): the results of its engines are latched, the next phase begins; after the fifth
SRAM initialisation remains. -/
def Parts.SelfTestPhases : Prop :=
  ∀ (s : State) (lo hi logic : BistRun), s.boot.phase = .bist → s.boot.bistPhase < 5 →
    let k := s.boot.bistPhase
    let mem (b : Fin 8) (r : BistRun) (f : Nat) : Nat := memRes r (s.tainted none) (repair r.cells f)
    Completes (.bistPhaseEnd lo hi logic) s (fun t =>
      t = { s with boot := t.boot, free := t.free } ∧ t.boot.phase = .bist ∧ t.boot.bistPhase = k + 1 ∧
      t.boot.imgCause = s.boot.imgCause ∧ t.boot.released = s.boot.released ∧
      (k = 4 → t.boot.bistEng[4] = engineRes lo (s.tainted (some .h0)) ∧
        t.boot.bistEng[5] = engineRes hi (s.tainted (some .h1)) ∧ t.boot.bistMem = s.boot.bistMem) ∧
      (∀ j : Fin 4, j.val = k →
        t.boot.bistMem[(bistBanks k).1] = mem (bistBanks k).1 lo s.free ∧
        t.boot.bistMem[(bistBanks k).2] = mem (bistBanks k).2 hi (s.free + 1) ∧
        ((j = 3 → s.qb = false) → t.boot.bistEng[j.castLE (by omega : 4 ≤ 6)] = engineRes logic (s.tainted (bistHalf k)))))

/-- The image is read and judged, and the self-test phases end (R77 to R84, R92 to R94). -/
def Obligations.ImageReadAndTested : Prop :=
  Parts.ImageIsRead ∧ Parts.SelfTestPhases

/-- The end of SRAM initialisation (R77, R95, R96): outside the staging region the SRAM reads zero; a failed self-test, then a
failed image, leads to the unconfigured hold; else apply begins. -/
def Parts.SramInitialised : Prop :=
  ∀ s : State, s.boot.phase = .bist → s.boot.bistPhase = 5 → s.boot.bodyRead = true →
    Completes .sramInitDone s (fun t =>
      (s.boot.bistPass = false → t.boot.phase = .hold ∧ t.boot.inHold = true ∧ t.boot.holdCause = 9) ∧
      (s.boot.bistPass = true → s.boot.imgCause ≠ 0 →
        t.boot.phase = .hold ∧ t.boot.inHold = true ∧ t.boot.holdCause = s.boot.imgCause) ∧
      (s.boot.bistPass = false ∨ s.boot.imgCause ≠ 0 →
        (∀ a < 0x800000, a < 0x700000 ∨ 0x740000 ≤ a → Memory.read sramDefault t.sram a = 0) ∧
        ∀ a, 0x700000 ≤ a → a < 0x740000 → Memory.read sramDefault t.sram a = Memory.read sramDefault s.sram a) ∧
      (s.boot.bistPass = true → s.boot.imgCause = 0 →
        t = ({ s with
          sram := Memory.clear (Memory.clear s.sram 0 0x700000) 0x740000 0x800000
          badEcc := s.badEcc.filter fun e => decide (0x800000 ≤ e.1)
          boot := { s.boot with sramInit := true } } : State).beginApply))

/-- Each record type of Table 4.4 makes its writes in order; the walk then goes past it, and past records of no known type
(`settleWalk`). One whose write fails is skipped whole and counted if OPTIONAL, and ends apply with cause 8 if not; so does a
malformed one, with cause 7; one past which no other can be found always ends apply with cause 7 (R84 to R87). -/
def Obligations.RecordsApplied : Prop :=
  ∀ (s : State) (e : Nat × Instr × Bool × (Bool × State)),
    let r := s.recHead
    let pl := s.payload r
    let o := fieldAt pl 0 4
    let w := wordsOf (pl.drop 4)
    let n := fieldAt pl 4 4 / 4
    e ∈ ([(1, .regWriteRecord, r.len % 8 == 0, s.writePairs (wordsOf pl)),
      (2, .regMaskRecord, r.len % 12 == 0, s.writeMasks (wordsOf pl)),
      (3, .regSeqRecord, decide (8 ≤ r.len), s.writeSeq o w),
      (4, .sramLoadRecord, decide (4 ≤ r.len) && o % 4 == 0,
        if loadable o w.length then s.loadSram o w else (false, s)),
      (5, .sramFillRecord, r.len == 12 && o % 4 == 0 && fieldAt pl 4 4 % 4 == 0,
        if loadable o n then s.fillSram o (BitVec.ofNat 32 (fieldAt pl 8 4)) n else (false, s)),
      (6, .authInitRecord, r.len == 4 && decide (fieldAt pl 0 1 ≤ 1 ∧ fieldAt pl 1 1 ≤ 1) && fieldAt pl 2 2 == 0,
        (true, { s with boot := { s.boot with
          authInit := ⟨#[Half.byNum (fieldAt pl 0 1), Half.byNum (fieldAt pl 1 1)], rfl⟩ } }))] :
        List (Nat × Instr × Bool × (Bool × State))) →
    s.boot.phase = .apply → s.boot.walk < s.boot.endAt → r.type = e.1 →
    (s.recFatal r = false → r.flags < 2 → e.2.2.1 = true →
      (e.2.2.2.1 = true → Completes e.2.1 s (fun t => t = (e.2.2.2.2.pastRec r).settleWalk e.2.2.2.2.boot.bodyLen)) ∧
      (e.2.2.2.1 = false → r.flags = 1 → Completes e.2.1 s (fun t => t =
        (State.pastRec { s with boot := { s.boot with skipCnt := min 65535 (s.boot.skipCnt + 1) } } r).settleWalk
          s.boot.bodyLen)) ∧
      (e.2.2.2.1 = false → r.flags = 0 → Completes e.2.1 s (fun t => t = e.2.2.2.2.failApply 8 ∧
        t.boot.phase = .hold ∧ t.boot.inHold = true ∧ t.boot.holdCause = 8))) ∧
    (s.recFatal r = false → 2 ≤ r.flags ∨ e.2.2.1 = false →
      (r.flags % 2 = 1 → Completes e.2.1 s (fun t => t =
        (State.pastRec { s with boot := { s.boot with skipCnt := min 65535 (s.boot.skipCnt + 1) } } r).settleWalk
          s.boot.bodyLen)) ∧
      (r.flags % 2 = 0 → Completes e.2.1 s (fun t => t = s.failApply 7 ∧
        t.boot.phase = .hold ∧ t.boot.inHold = true ∧ t.boot.holdCause = 7))) ∧
    (s.recFatal r = true → Completes e.2.1 s (fun t => t = s.failApply 7 ∧
      t.boot.phase = .hold ∧ t.boot.inHold = true ∧ t.boot.holdCause = 7))

/-- What release does in its one TCLK cycle (R77, R86, R96, R105, R110, R147): PHASE and BOOT_REL_TIME, every rw-lk register
locked, each drive's authority at the half of AUTH_INIT or of its channels if that is on, ALIVE running with its first edge one
half period away, the bridges and channels that are enabled started, the staging region clear, the boot record at Q_56, and,
after a boot, nothing before or after it but what a fault report, a round of Cruise and the pins bring. -/
def Parts.ReleaseEffects : Prop :=
  ∀ (s : State) (p : BitVec 8) (a : BitVec 2) (v : Vector TrimVals 8),
    s.boot.phase = .convCal → s.sys.scan = false → s.pwr.st ≠ .waking →
    CompletesVoting (.convCalDone p a v) s (fun u =>
      u.boot.phase = .released ∧ u.boot.released = true ∧ u.boot.inHold = false ∧ u.boot.holdCause = 0 ∧
      u.boot.relUs = min 0xFFFFFFFF (s.clk.cyc / 400) ∧ u.unlock.blocks = 0 ∧ u.unlock.first = none ∧
      (∀ d : Drive, let h := if s.hoEn d then s.boot.authInit[d] else pchHalf (s.srcA s.lead d).val
        (u.xd[d]).claim = (Two.mk false false).set h (s.halfOn h)) ∧
      u.alive.running = true ∧ u.alive.next = s.clk.cyc + s.aliveHalf ∧
      (∀ n : Fin 4, s.EXC_CTRL_EN n.val = 1 → s.halfOn (excHalf n.val) = true →
        (u.exc[n]).st = .rampUp ∨ (u.exc[n]).st = .tripped) ∧
      (∀ n : Fin 8, s.PCH_CTRL_EN n.val = 1 → s.halfOn (pchHalf n.val) = true → (u.pch[n]).st ≠ .off) ∧
      (∀ b, 0x700000 ≤ b → b < 0x740000 → Memory.read sramDefault u.sram b = 0) ∧
      ∃ w : State, w.boot.released = true ∧ u = (w.releaseRecord.startRound.voteAll).sdclkFrom s)

/-- END (R77, R84): with the walk at its head converter calibration begins, the slot of R89 in force. CONV_CAL_DONE releases the
device (R77, R96), but not in boundary-scan mode (R55). -/
def Parts.EndAndRelease : Prop :=
  ∀ s : State,
    (s.boot.phase = .apply → s.boot.walk = s.boot.endAt → Completes .endRecord s (fun t =>
      t.boot.phase = .convCal ∧ t.boot.released = s.boot.released ∧ t.fram = s.fram ∧ t.pending = s.pending ∧
      t.boot.slotUsed = s.slotChoice ∧ t.boot.inForce = s.slotChoice)) ∧
    (s.boot.phase = .convCal → s.sys.scan = false → ∀ p a v, Completes (.convCalDone p a v) s (fun t =>
      t.boot.released = true ∧ t.fram = s.fram ∧ t.rails = s.rails ∧ t.pending = s.pending)) ∧
    (s.sys.scan = true → ∀ p a v, exec (.convCalDone p a v) s = .next s)

/-- SRAM initialisation, END and release (R89, R95, R96). -/
def Obligations.SramReadyAndRelease : Prop :=
  Parts.SramInitialised ∧ Parts.EndAndRelease ∧ Parts.ReleaseEffects

/-- The slot that boot loads (R89): none with CAL_USE 1 or with neither valid; the one that is valid; of two, B if its
generation is 1 to 2^31 − 1 ahead of A's, else A. -/
def Parts.SlotChoiceRule : Prop :=
  ∀ s : State,
    (s.boot.calUse = 1 → s.slotChoice = 0) ∧
    (s.boot.calUse ≠ 1 →
      (s.boot.aValid = false → s.boot.bValid = false → s.slotChoice = 0) ∧
      (s.boot.aValid = true → s.boot.bValid = false → s.slotChoice = 1) ∧
      (s.boot.aValid = false → s.boot.bValid = true → s.slotChoice = 2) ∧
      (s.boot.aValid = true → s.boot.bValid = true →
        s.slotChoice = if 1 ≤ (s.boot.genB + 2 ^ 32 - s.boot.genA) % 2 ^ 32 ∧
          (s.boot.genB + 2 ^ 32 - s.boot.genA) % 2 ^ 32 ≤ 2 ^ 31 - 1 then 2 else 1))

/-- A store of the calibration (R90, R91): its key arms it, or is DENIED, or NOT_READY during ENTERING (Table 19.9); at its end
the target slot holds the image taken at the key and is in force, or STORE_ERR sets, with the slot as before where the latch did
not set. Item 11 of Cruise yields for it (Table 16.2). That the image is taken at the key is the model's reading (assumption 36). -/
def Parts.CalibrationStore : Prop :=
  ∀ s : State,
    (s.pwr.st = .entering → exec .storeKey s = .next { s with wst := .notReady }) ∧
    (s.pwr.st ≠ .entering → s.boot.released = false ∨ s.boot.store.isSome = true →
      exec .storeKey s = .next { s with wst := .denied }) ∧
    (s.pwr.st ≠ .entering → s.boot.released = true → s.boot.store = none → Completes .storeKey s (fun t =>
      t = { s with
        wst := .ok, crz := t.crz, free := t.free
        boot := { s.boot with
          store := some ⟨s.boot.storeTarget.1, s.boot.storeTarget.2, s.slotImage s.boot.storeTarget.2⟩ } } ∧
      (s.crz.act[(2 : Fin 3)] = some 11 → t.crz.yieldCnt = (s.crz.yieldCnt + 1) % 65536 ∧ t.crz.act = s.crz.act))) ∧
    (∀ x, s.boot.store = some x →
      Completes (.calStoreDone true true) s (fun t =>
        t.fram = Memory.writeBytes framDefault s.fram (slotBase x.toB) x.bytes ∧
        t.boot = { (s.boot.setSlot x.toB true x.gen) with
          store := none, storeDone := true, inForce := if x.toB then 2 else 1 } ∧
        ∀ a, a < slotBase x.toB ∨ slotBase x.toB + x.bytes.length ≤ a →
          Memory.read framDefault t.fram a = Memory.read framDefault s.fram a) ∧
      (∀ r, Completes (.calStoreDone false r) s (fun t => t.fram = s.fram ∧ t.boot.store = none ∧
        t.boot.storeErr = true ∧ t.boot.aValid = s.boot.aValid ∧ t.boot.bValid = s.boot.bValid ∧
        t.boot.inForce = s.boot.inForce)) ∧
      Completes (.calStoreDone true false) s (fun t => t.boot.store = none ∧ t.boot.storeErr = true ∧
        t.boot.inForce = s.boot.inForce ∧
        ∀ a, a < slotBase x.toB ∨ slotBase x.toB + 4096 ≤ a →
          Memory.read framDefault t.fram a = Memory.read framDefault s.fram a))

/-- A download (R98 to R100): its keys are DENIED outside the hold and in a hold with cause 9 or 11; else the staged image is
judged, a failure renews the hold with its cause, a pass begins programming or apply. The end of programming stores the staged
image at FRAM address 0 and begins apply, or leads to the hold with cause 10. -/
def Parts.Downloads : Prop :=
  ∀ s : State,
    (s.boot.phase ≠ .hold ∨ s.boot.holdCause = 9 ∨ s.boot.holdCause = 11 →
      exec .dlKeyApply s = .next { s with wst := .denied } ∧ exec .dlKeyProgram s = .next { s with wst := .denied }) ∧
    (s.boot.phase = .hold → s.boot.holdCause ≠ 9 → s.boot.holdCause ≠ 11 →
      let c := headerCause s.qb (s.stageBytes 0 64)
      let ok := bodyOk (s.stageBytes 0x40 (fieldAt (s.stageBytes 0 64) 8 4))
      (c ≠ 0 → ∀ i ∈ [Instr.dlKeyApply, Instr.dlKeyProgram], Completes i s (fun t =>
        t.wst = .ok ∧ t.boot.phase = .hold ∧ t.boot.holdCause = c ∧ t.sram = s.sram ∧ t.fram = s.fram)) ∧
      (c = 0 → ok = false → ∀ i ∈ [Instr.dlKeyApply, Instr.dlKeyProgram], Completes i s (fun t =>
        t.wst = .ok ∧ t.boot.phase = .hold ∧ t.boot.holdCause = 6 ∧ t.sram = s.sram ∧ t.fram = s.fram)) ∧
      (c = 0 → ok = true →
        Completes .dlKeyProgram s (fun t => t.boot.phase = .framProg ∧
          t = { s with boot := t.boot, wst := .ok } ∧ t.boot.kind = .download ∧ t.boot.released = s.boot.released) ∧
        Completes .dlKeyApply s (fun t => ∃ u : State, u = { s with boot := u.boot } ∧ u.boot.kind = .download ∧
          u.boot.imgCause = 0 ∧ t = { u.beginApply with wst := .ok }))) ∧
    (s.boot.phase = .framProg →
      let n := 0x40 + s.boot.bodyLen
      Completes (.framProgDone true) s (fun t =>
        t = State.beginApply { s with fram := Memory.writeBytes framDefault s.fram 0 (s.stageBytes 0 n) }) ∧
      Completes (.framProgDone false) s (fun t => t.boot.phase = .hold ∧ t.boot.inHold = true ∧ t.boot.holdCause = 10 ∧
        ∀ a, n ≤ a → Memory.read framDefault t.fram a = Memory.read framDefault s.fram a))

/-- Calibration slots and stores, and downloads (R89 to R91, R98 to R100). -/
def Obligations.SlotsStoresDownloads : Prop :=
  Parts.SlotChoiceRule ∧ Parts.CalibrationStore ∧ Parts.Downloads


/-! ## Excitation -/

/-- EN set starts a bridge that is OFF, when its rail is good and no trip cause is live, and else leaves it TRIPPED; EN cleared
ends a running bridge at its next zero crossing; RESTART starts a tripped one, or puts it OFF with EN clear (R110, R111, R120).
Besides, only the channels of the bridge can change. -/
def Parts.BridgeStartStop : Prop :=
  ∀ (s : State) (n : Fin 4), s.boot.released = true → s.halfOn (excHalf n.val) = true →
    let a := excAddr n 0
    let x := s.exc[n]
    let on := s.setReg a (bput (s.reg a) 0 true)
    let off := s.setReg a (bput (s.reg a) 0 false)
    let up (u : State) : Exc :=
      { u.applyExc n x with st := .rampUp, waitX := true, stopping := false, rampCnt := 0, lvlNow := 0 }
    let trip (u : State) : Exc := { u.applyExc n x with st := .tripped, waitX := false, stopping := false, lvlNow := 0 }
    let put (u : State) (y : Exc) (t : State) : Prop :=
      t.exc[n] = y ∧ t.apart = ({ u with exc := vset s.exc n y, wst := .ok } : State).apart
    (x.st = .off → (s.reg a).bit 0 = false →
      (on.vexcGood n = true → on.tripLive n = false → Completes (.excEnable n) s (put on (up on))) ∧
      (on.vexcGood n = false ∨ on.tripLive n = true → Completes (.excEnable n) s (put on (trip on)))) ∧
    (x.st = .run ∨ x.st = .rampUp →
      exec (.excEnable n) s = .next { on with exc := vset s.exc n { x with stopping := false }, wst := .ok } ∧
      exec (.excDisable n) s = .next { off with exc := vset s.exc n { x with stopping := true }, wst := .ok }) ∧
    (x.st = .rampDown ∨ x.st = .tripped →
      exec (.excEnable n) s = .next { on with wst := .ok } ∧ exec (.excDisable n) s = .next { off with wst := .ok }) ∧
    (x.st = .tripped → s.tripLive n = false →
      (s.EXC_CTRL_EN n.val = 1 → s.vexcGood n = true → Completes (.excRestart n) s (put s (up s))) ∧
      (s.EXC_CTRL_EN n.val = 1 → s.vexcGood n = false → Completes (.excRestart n) s (put s (trip s))) ∧
      (s.EXC_CTRL_EN n.val ≠ 1 → Completes (.excRestart n) s (put s { x with st := .off }))) ∧
    (x.st ≠ .tripped ∨ s.tripLive n = true → exec (.excRestart n) s = .next { s with wst := .ok })

/-- Writes of FREQ_HZ, PHASE_OFS, the levels and MODE (R106, R109): a frequency outside 2,000 to 40,000 completes with RANGE
and changes nothing; while the bridge runs a written value waits in its register; in OFF and TRIPPED it acts at once, and the
carrier phase as it stands moves with PHASE_OFS. -/
def Parts.ExcitationSettings : Prop :=
  ∀ (s : State) (n : Fin 4) (v : Word), s.halfOn (excHalf n.val) = true →
    let x := s.exc[n]
    (v.fld 0 16 < 2000 ∨ 40000 < v.fld 0 16 → exec (.excFreqWrite n v) s = .next { s with wst := .range }) ∧
    ∀ e ∈ ([(.excFreqWrite n v, 4, v), (.excPhaseWrite n v, 8, v), (.excAmpWrite n v, 0xC, v),
        (.excModeWrite n false, 0, bput (s.reg (excAddr n 0)) 1 false),
        (.excModeWrite n true, 0, bput (s.reg (excAddr n 0)) 1 true)] : List (Instr × Nat × Word)),
      (e.2.1 = 4 → 2000 ≤ v.fld 0 16 ∧ v.fld 0 16 ≤ 40000) →
      let u := s.setReg (excAddr n e.2.1) e.2.2
      let y := u.applyExc n (x.rebase s.clk.cyc)
      (x.st ≠ .off → x.st ≠ .tripped → exec e.1 s = .next { u with wst := .ok }) ∧
      (x.st = .off ∨ x.st = .tripped → exec e.1 s = .next { u with
        wst := .ok
        exc := vset s.exc n { y with car := { y.car with
          ph := wrap01 (wrap01 (x.car.phaseAt s.clk.cyc) + ((y.phase : Rat) - (x.phase : Rat)) / 65536) } } })

/-- Bridges start and stop, and take their settings. What stopping takes back, and when pending values act at a trip, are the
model's choices (assumption 53). -/
def Obligations.BridgeSettings : Prop :=
  Parts.BridgeStartStop ∧ Parts.ExcitationSettings

/-- A zero crossing comes when the carrier phase has reached one turn (R105). The measurements of the period are taken; a bridge
told to stop begins its RAMP_DOWN (R111); a ramp moves on by one period of RAMP_PER (R110, R111); closed loop regulates (R115);
waiting values take effect together, a PHASE_OFS by a slew, and SETTLE starts afresh, else SETTLE counts down (R106 to R108). -/
def Parts.CrossingOfABridge : Prop :=
  ∀ (s : State) (n : Fin 4) (m : ExcMeas), s.boot.released = true → s.halfOn (excHalf n.val) = true → s.exc[n].freq ≠ 0 →
    let x := s.exc[n]
    let p := s.rampPer n
    Completes (.carrierZeroCrossing n m) s (fun t =>
      let y := t.exc[n]
      t.clk.cyc = max s.clk.cyc x.nextX ∧ y.car.t0 = t.clk.cyc ∧ y.old = x.car ∧
      y.car.ph = wrap01 (x.car.phaseAt t.clk.cyc) ∧ y.iFund = m.iFund ∧ y.iPeak = m.iPeak ∧
      t.cfg = s.cfg ∧ t.fram = s.fram ∧ (∀ k : Fin 4, k ≠ n → t.exc[k] = s.exc[k]) ∧
      (x.st = .off ∨ x.st = .tripped → y.st = x.st ∧ y.freq = x.freq ∧ y.phase = x.phase ∧ y.lvlNow = x.lvlNow) ∧
      (x.running = true →
        y.freq = s.EXC_FREQ_FREQ_HZ n.val ∧ y.lvl = s.EXC_AMP_DRV_LVL n.val ∧ y.tgt = s.EXC_AMP_AMP_TGT n.val ∧
        y.closed = (s.EXC_CTRL_MODE n.val == 1) ∧
        (x.car.slew = none → y.phase = s.EXC_PHASE_PHASE_OFS n.val ∧
          let dl := wrapHalf (((s.EXC_PHASE_PHASE_OFS n.val : Rat) - (x.phase : Rat)) / 65536)
          y.car.slew = if dl = 0 then none else some (dl, 1 + dl)) ∧
        (s.excPend n = true → x.car.slew = none → y.settle = true ∧ y.settleRem = s.settlePer n) ∧
        (s.excPend n = false → y.settle = x.settle ∧ y.settleRem = x.settleRem - 1)) ∧
      (x.st = .run ∨ x.st = .rampUp ∨ x.st = .rampDown →
        y.st = (if x.stopping = true ∧ x.st ≠ .rampDown then .rampDown else x.st)) ∧
      (x.st = .rampUp → x.stopping = false → x.waitX = true → y.waitX = false ∧ y.lvlNow = 0) ∧
      (x.st = .rampUp → x.stopping = false → x.waitX = false →
        y.rampCnt = min p (x.rampCnt + 1) ∧ y.lvlNow = min 2400 x.lvl * min p (x.rampCnt + 1) / p) ∧
      (x.st = .rampDown → y.rampCnt = min p (x.rampCnt + 1) ∧
        y.lvlNow = x.rampLvl * (p - min p (x.rampCnt + 1)) / p) ∧
      (x.st = .run → x.stopping = false → x.closed = false → s.EXC_CTRL_MODE n.val = 0 → x.car.slew = none →
        y.lvlNow = if s.excPend n = true then min 2400 (s.EXC_AMP_DRV_LVL n.val) else x.lvlNow) ∧
      (x.st = .run → x.stopping = false → x.closed = true → s.EXC_CTRL_MODE n.val = 1 →
        (s.regHold n = true → y.lvlNow = x.lvlNow) ∧
        (s.regHold n = false → y.lvlNow =
          (regulate x.lvlNow (max 1 x.tgt : Nat) y.ampMeas (s.lvlMin n : Nat) (s.lvlMax n : Nat)).toNat)))

/-- The phase of a carrier (R104, R107): FREQ_HZ / 400 MHz turns a cycle; through a slew by Δ the increment is scaled by 1 + Δ
until 1 + Δ turns are made, which takes one period of the carrier, and from then on the phase stands Δ ahead of what it would
have been (the reading of the rule is the model's, assumption 51). -/
def Parts.CarrierPhase : Prop :=
  ∀ (x : Carrier) (c : Nat), x.t0 ≤ c →
    let n : Rat := (c : Rat) - (x.t0 : Rat)
    let f : Rat := (x.freq : Rat) / 400000000
    (x.slew = none → x.phaseAt c = x.ph + f * n) ∧
    ∀ dl : Rat, x.slew = some (dl, 1 + dl) → -1 / 2 ≤ dl → dl ≤ 1 / 2 → 0 < x.freq →
      (f * n ≤ 1 → x.phaseAt c = x.ph + f * (1 + dl) * n) ∧ (1 ≤ f * n → x.phaseAt c = x.ph + f * n + dl)

/-- What a bridge delivers (R102, R110, R111, R114): never more than 24 V nor 1.9 × VEXC_n, in RUN what is requested where that
is allowed, in RAMP_UP nothing before its first crossing. A request above the limit is live as CLIP after the crossing. -/
def Parts.DeliveredLevel : Prop :=
  (∀ (s : State) (n : Fin 4), s.lvlShown n ≤ 2400 ∧
    (s.lvlShown n * 100 ≤ 19 * s.vexcMv[Fin.ofNat 2 (n.val / 2)]) ∧
    (s.exc[n].st = .rampUp → s.exc[n].waitX = true → s.lvlShown n = 0) ∧
    (s.exc[n].st = .run → s.exc[n].lvlNow ≤ 2400 → s.exc[n].lvlNow * 100 ≤ 19 * s.vexcMv[Fin.ofNat 2 (n.val / 2)] →
      s.lvlShown n = s.exc[n].lvlNow)) ∧
  ∀ (s : State) (n : Fin 4) (m : ExcMeas), s.boot.released = true → s.halfOn (excHalf n.val) = true → s.exc[n].freq ≠ 0 →
    s.powered .exc = true → Completes (.carrierZeroCrossing n m) s (fun t =>
      t.liveBit .exc (excHalf n.val).copy (6 * n.val + 4) = t.exc[n].clip ∧
      t.exc[n].clip = (t.exc[n].running && !t.exc[n].waitX &&
        decide (19 * s.vexcMv[Fin.ofNat 2 (n.val / 2)] < 100 * t.exc[n].lvlNow ∨ 2400 < t.exc[n].lvlNow)))

/-- Zero crossings, the carrier phase between them, and the level delivered (R102 to R118). The order within a crossing, a change
of phase of exactly half a turn, and the limits of the measures are the model's choices (assumption 53). -/
def Obligations.ZeroCrossings : Prop :=
  Parts.CrossingOfABridge ∧ Parts.CarrierPhase ∧ Parts.DeliveredLevel

/-- SETTLE ends with its count; a finished RAMP_UP is RUN at the programmed level, never above 24 V; a finished RAMP_DOWN is
OFF, or a fresh start with EN set (R102, R108, R110, R111). -/
def Parts.RampsAndSettleEnd : Prop :=
  ∀ (s : State) (n : Fin 4),
    let x := s.exc[n]
    (x.settle = true → x.settleRem = 0 → Completes (.excSettleEnd n) s (fun t =>
      t = { s with exc := vset s.exc n { x with settle := false, calmAt := s.clk.cyc } })) ∧
    (x.settle = false ∨ 0 < x.settleRem → exec (.excSettleEnd n) s = .next s) ∧
    (x.st = .rampUp → x.waitX = false → s.rampPer n ≤ x.rampCnt → Completes (.excRampEnd n) s (fun t =>
      t = { s with exc := vset s.exc n { x with st := .run, lvlNow := min 2400 x.lvl, calmAt := s.clk.cyc } })) ∧
    (x.st = .rampDown → x.waitX = false → s.rampPer n ≤ x.rampCnt →
      Completes (.excRampEnd n) s (fun t => t.exc[n].lvlNow = 0 ∧ t.exc[n].settle = false ∧ t.cfg = s.cfg ∧
        (∀ k : Fin 4, k ≠ n → t.exc[k] = s.exc[k]) ∧
        (s.EXC_CTRL_EN n.val = 0 → t.exc[n].st = .off) ∧
        (s.EXC_CTRL_EN n.val = 1 → t.exc[n].st = if s.vexcGood n = true ∧ s.tripLive n = false then .rampUp else .tripped))) ∧
    (x.rampCnt < s.rampPer n ∨ x.waitX = true → exec (.excRampEnd n) s = .next s)

/-- Faults of the bridges (Table 5.3): OC after OC_CNT limited switching periods in a row, and IMBAL, are reported and trip the
bridge (R120); OPEN and REG_SAT go live; OTS above 170 °C goes live and trips, below 155 °C it ends. -/
def Parts.BridgeFaults : Prop :=
  ∀ (s : State) (n : Fin 4), s.powered .exc = true →
    let x := s.exc[n]
    let c := (excHalf n.val).copy
    let tripped (t : State) : Prop := t.exc[n].st = .tripped ∧ t.exc[n].lvlNow = 0 ∧ t.exc[n].waitX = false ∧ t.cfg = s.cfg ∧
      ∀ k : Fin 4, k ≠ n → t.exc[k] = s.exc[k]
    let k := max 1 (s.EXC_IMON_CFG_OC_CNT n.val)
    let high (i : Nat) : Prop := 10 * clampNat 15 60 (s.EXC_IMON_CFG_OC_THR n.val) < i
    (s.excDrives n = true →
      (x.st ≠ .lookout → ∀ peaks : List Nat, k ≤ peaks.length → (∀ i ∈ peaks.take k, high i) →
        Completes (.oc ⟨n, peaks⟩) s (fun t => t.stickyBit .exc (6 * n.val) = true ∧ tripped t)) ∧
      (∀ peaks : List Nat, peaks.length < k ∨ (∃ i ∈ peaks.take k, ¬ high i) → exec (.oc ⟨n, peaks⟩) s = .next s) ∧
      (x.st ≠ .lookout → 2 ≤ x.imbRun → Completes (.imbal n) s (fun t =>
        t.stickyBit .exc (6 * n.val + 2) = true ∧ tripped t)) ∧
      (4 ≤ x.openRun → Completes (.openLoad n) s (fun t =>
        t.liveBit .exc c (6 * n.val + 1) = true ∧ t.quiet = s.quiet)) ∧
      (64 ≤ x.satHi ∨ 64 ≤ x.satLo → Completes (.regSat n) s (fun t =>
        t.liveBit .exc c (6 * n.val + 3) = true ∧ t.quiet = s.quiet)) ∧
      (x.st ≠ .lookout → ∀ temp : BitVec 16, 2720 < temp.toInt → Completes (.ots n temp) s (fun t =>
        t.exc[n].temp = temp ∧ t.liveBit .exc c (6 * n.val + 5) = true ∧ tripped t))) ∧
    (s.halfOn (excHalf n.val) = true → ∀ temp : BitVec 16,
      (temp.toInt ≤ 2720 → exec (.ots n temp) s = .next { s with exc := vset s.exc n { x with temp := temp } }) ∧
      (2480 ≤ temp.toInt → exec (.otsClear n temp) s = .next { s with exc := vset s.exc n { x with temp := temp } }) ∧
      (temp.toInt < 2480 → Completes (.otsClear n temp) s (fun t => t.liveBit .exc c (6 * n.val + 5) = false ∧
        t.quiet = ({ s with exc := vset s.exc n { x with temp := temp } } : State).quiet))) ∧
    (x.openRun < 4 → exec (.openLoad n) s = .next s) ∧ (x.imbRun < 2 → exec (.imbal n) s = .next s) ∧
    (x.satHi < 64 → x.satLo < 64 → exec (.regSat n) s = .next s)

/-- Ramps and settling end, and the faults of a bridge. -/
def Obligations.BridgeEndsAndFaults : Prop :=
  Parts.RampsAndSettleEnd ∧ Parts.BridgeFaults


/-! ## Position channels -/

/-- EN set starts a channel with its counts at zero and its lag at PH_INIT (R136, R147, R159, R172): in PHASE_ACQ or TRACK
(R144), or LOST where the calibration failed, the analogue supply is bad or the driver is unusable (R145, R148). EN cleared puts
it OFF; its published set stays but for VALID. While the half calibrates after a return EN is set alone (R427). The Scaler of the
channel apart, nothing else changes but what follows its tag. -/
def Parts.ChannelStartStop : Prop :=
  ∀ (s : State) (n : Fin 8), s.boot.released = true → s.halfOn (pchHalf n.val) = true →
    let a := pchAddr n 0x40
    let x := s.pch[n]
    let on := s.setReg a (bput (s.reg a) 0 true)
    let off := s.setReg a (bput (s.reg a) 0 false)
    (s.pwr.calBusy.get (pchHalf n.val) = false → (s.reg a).bit 0 = false → Completes (.pchEnable n) s (fun t =>
      (x.calf = false → s.vddaOk (pchHalf n.val) = true → on.drvBad n = false → t.pch[n].st = on.startState n) ∧
      (x.calf = true ∨ s.vddaOk (pchHalf n.val) = false ∨ on.drvBad n = true → t.pch[n].st = .lost) ∧
      t.pch[n].lp.locked = false ∧ t.pch[n].lp.w = 0 ∧ t.pch[n].lp.fresh = true ∧ t.pch[n].ph.d = on.phInit n ∧
      t.pch[n].tn.eTurns = 0 ∧ t.pch[n].tn.sector = 0 ∧ t.pch[n].tn.mTurns = 0 ∧ t.pch[n].pub = x.pub ∧
      (∀ k : Fin 8, k ≠ n → t.pch[k] = s.pch[k] ∧ t.scl[k] = s.scl[k]) ∧
      t.apart = ({ on with scl := t.scl, wst := .ok } : State).apart)) ∧
    ((s.reg a).bit 0 = true → Completes (.pchDisable n) s (fun t =>
      t.pch[n].st = .off ∧ t.pch[n].lp.locked = false ∧ t.pch[n].cause = x.cause ∧ t.pch[n].tn = x.tn ∧
      t.pch[n].pub = { x.pub with tag := x.pub.tag &&& 0xFE } ∧ (∀ k : Fin 8, k ≠ n → t.pch[k] = s.pch[k]) ∧
      t.apart = ({ off with wst := .ok } : State).apart)) ∧
    ((s.reg a).bit 0 = true ∨ s.pwr.calBusy.get (pchHalf n.val) = true →
      exec (.pchEnable n) s = .next { on with wst := .ok }) ∧
    ((s.reg a).bit 0 = false → exec (.pchDisable n) s = .next { off with wst := .ok })

/-- The break-detect sources of a channel (R86, R125, Table 6.1): after release on while EN is set, at 0, 20, 50 or 100 µA as BD_CUR
says; off with EN clear, and before release. -/
def Parts.BreakDetectSources : Prop :=
  ∀ (s : State) (n : Fin 8), s.halfOn (pchHalf n.val) = true →
    let ua : Nat := match s.PCH_CFG_BD_CUR n.val with
      | 0 => 0
      | 1 => 20
      | 2 => 50
      | _ => 100
    s.pwr.lkRun = false →
      Completes (.pchEnable n) s (fun t => t.PCH_CTRL_EN n.val = 1 ∧ t.breakCur n = if s.boot.released = true then ua else 0) ∧
      Completes (.pchDisable n) s (fun t => t.PCH_CTRL_EN n.val = 0 ∧ t.breakCur n = 0)

/-- The writes and reads of a channel that only move values (R165, R172 to R174): CNT_CLR, PEAK_CLR, SECT_SET with its RANGE,
PRED_TIME_HI; a read of PCH_ANGLE captures the set published last; a read of PCH_PRED_ANG forms a prediction no further than
HORIZON from its tick, without acceleration where that tick was coasted, and tags a limited one UNCERT. The write of PRED_TIME_HI
sets its parity (R363). How PRED_TIME and LEAD_NS become cycles is the model's reading (`predAhead`, assumption 54). -/
def Parts.ChannelRegisters : Prop :=
  ∀ (s : State) (n : Fin 8) (v : Word), s.halfOn (pchHalf n.val) = true →
    let x := s.pch[n]
    let put (y : Pch) : Host.Outcome State Fault Refusal := .next { s with pch := vset s.pch n y, wst := .ok }
    let p := s.publishedAt n s.clk.cyc
    let hor : Rat := (1000 * clampNat 1 1000 (s.PCH_PRED_CFG_HORIZON n.val) : Nat)
    let d : Rat := s.predAhead n + ((s.clk.cyc : Rat) - (p.cyc : Rat)) * 5 / 2
    let dt : Rat := clampRat (-hor) hor d / 10 ^ 9
    let al : Rat := if tagCoast p.tag then 0 else (p.acc : Rat) / 16
    let ang : Rat := (p.ang : Nat) + ((p.spd : Rat) / 65536 * dt + al * dt * dt / 2) * 2 ^ 24
    let out : Prop := d < -hor ∨ hor < d
    exec (.pchCntClr n) s = put { x with fe := { x.fe with invCnt := 0, clipCnt := 0 } } ∧
    exec (.pchPeakClr n) s = put { x with lp := { x.lp with peak := 0 } } ∧
    (s.polePairs n ≤ v.fld 16 5 → exec (.pchSectSet n v) s = .next { s with wst := .range }) ∧
    (v.fld 16 5 < s.polePairs n →
      exec (.pchSectSet n v) s = put { x with tn := { x.tn with pendSect := some (v.fld 16 5, v.fld 0 16) } }) ∧
    (s.chkInv (.pch n) 0 = 0 → pchAddr n 0x15C ∉ s.badPar →
      exec (.pchPredTimeHiWrite n v) s = put { x with tn := { x.tn with predT := v ++ x.tn.predLo } }) ∧
    Completes (.pchPredTimeHiWrite n v) s (fun t => t.pch[n] = { x with tn := { x.tn with predT := v ++ x.tn.predLo } } ∧
      t.quiet = ({ s with
        pch := vset s.pch n { x with tn := { x.tn with predT := v ++ x.tn.predLo } }
        badPar := t.badPar, wst := .ok } : State).quiet ∧
      (s.chkInv (.pch n) 0 ≠ 0 → pchAddr n 0x15C ∈ t.badPar) ∧ (s.chkInv (.pch n) 0 = 0 → pchAddr n 0x15C ∉ t.badPar)) ∧
    (Store.wf (fun _ => 0) s.capt = true → Completes (.pchAngleRead n) s (fun t => t = { s with capt := t.capt, wst := .ok } ∧
      t.captured (pchAddr n 0x120) = angWord p.ang p.tag ∧
      t.captured (pchAddr n 0x124) = BitVec.ofInt 32 p.spd ∧ t.captured (pchAddr n 0x128) = BitVec.ofInt 32 p.acc ∧
      t.captured (pchAddr n 0x130) = BitVec.ofNat 32 p.turns ∧
      t.captured (pchAddr n 0x134) = p.time.setWidth 32 ∧
      t.captured (pchAddr n 0x138) = (p.time >>> 32).setWidth 32)) ∧
    Completes (.pchPredAngRead n) s (fun t =>
      t = { s with wst := .ok, pch := vset s.pch n { x with tn := { x.tn with
        clamped := t.pch[n].tn.clamped, predAng := t.pch[n].tn.predAng, predSpd := t.pch[n].tn.predSpd } } } ∧
      (out → t.pch[n].tn.clamped = true ∧ t.pch[n].tn.predAng = angWord (wrapInt 24 (roundFree 26 ang)) (p.tag ||| 0x10)) ∧
      (¬ out → t.pch[n].tn.clamped = false ∧ t.pch[n].tn.predAng = angWord (wrapInt 24 (roundFree 26 ang)) p.tag))

/-- Channels start and stop; their registers. -/
def Obligations.ChannelControl : Prop :=
  Parts.ChannelStartStop ∧ Parts.BreakDetectSources ∧ Parts.ChannelRegisters

/-- The rs write of 1 to LOSS (R10, R146): without effect, and with status OK, while a loss cause is live; else the causes clear,
and a LOST channel starts again with its counts kept. -/
def Parts.LossRearm : Prop :=
  ∀ (s : State) (n : Fin 8), s.halfOn (pchHalf n.val) = true →
    let x := s.pch[n]
    let u := s.updHdr (.pch n) fun f => { f with sticky := bput f.sticky 5 false }
    ((s.fltLive (.pch n)).bit 5 = true → exec (.lossRearm n) s = .next { s with wst := .ok }) ∧
    ((s.fltLive (.pch n)).bit 5 = false → x.st ≠ .lost →
      exec (.lossRearm n) s = .next { u with pch := vset s.pch n { x with cause := 0 }, wst := .ok }) ∧
    ((s.fltLive (.pch n)).bit 5 = false → x.st = .lost → x.calf = false → s.vddaOk (pchHalf n.val) = true →
      s.drvBad n = false → Completes (.lossRearm n) s (fun t =>
        t.pch[n].st = s.startState n ∧ t.pch[n].cause = 0 ∧ t.pch[n].lp.locked = false ∧ t.pch[n].tn.sectRef = false ∧
        t.pch[n].tn.eTurns = x.tn.eTurns ∧ t.pch[n].tn.sector = x.tn.sector ∧ t.pch[n].tn.mTurns = x.tn.mTurns ∧
        (∀ k : Fin 8, k ≠ n → t.pch[k] = s.pch[k] ∧ t.scl[k] = s.scl[k]) ∧
        t.apart = ({ s with scl := t.scl, wst := .ok } : State).apart))

/-- An angle tick (R25, R131, R165): it falls on the next multiple of 200 cycles, is counted, and its sets go to the generators
500 cycles later by PREDICTION_SWITCH. In a channel that is OFF only a PCH_SECT_SET write that waits takes effect (R172); one
that has an angle publishes with the TIME of the tick. Before release nothing happens. The place of the grid is the model's
choice (assumption 18). -/
def Obligations.AngleTicks : Prop :=
  ∀ (s : State) (inp : Vector TickSamples 8),
    let c := (max s.clk.cyc s.gen.next + 199) / 200 * 200
    (s.inRun = false → exec (.angleTick inp) s = .next s) ∧
    (s.inRun = true → Completes (.angleTick inp) s (fun t =>
      t.clk.cyc = c ∧ c % 200 = 0 ∧ s.clk.cyc ≤ c ∧ t.gen.ticks = s.gen.ticks + 1 ∧ t.gen.next = c + 1 ∧
      t.gen.wait = s.gen.wait ++ [(c, Vector.ofFn fun n => t.pch[n].pub)] ∧
      (∀ n : Fin 8, s.halfOn (pchHalf n.val) = false ∨ (s.pch[n].st = .off ∧ s.pch[n].tn.pendSect = none) →
        t.pch[n] = s.pch[n]) ∧
      (∀ n : Fin 8, s.halfOn (pchHalf n.val) = true → s.pch[n].st = .off → ∀ v mt, s.pch[n].tn.pendSect = some (v, mt) →
        t.pch[n] = { s.pch[n] with tn := { s.pch[n].tn with
          sector := v, mTurns := mt, sectRef := true, pendSect := none } }) ∧
      (∀ n : Fin 8, s.pchOn n = true → s.pch[n].lp.fresh = false → t.pch[n].pub.time = t.now) ∧
      t.exc = s.exc ∧ t.cfg = s.cfg ∧ t.fram = s.fram ∧ t.pending = s.pending))

/-- The counts of a tick (R170): they move by one e-turn where the published angle passes through zero, up or down, and sector
and m-turns together count e-turns; the sector stays below POLE_PAIRS. -/
def Parts.TurnCounting : Prop :=
  ∀ (t : Turns) (pp a b : Nat), t.sector < pp → t.eTurns < 65536 → t.mTurns < 65536 → a < 2 ^ 24 → b < 2 ^ 24 →
    let u := t.count pp a b
    let d : Int := wrapSigned (2 ^ 24) ((b : Int) - a)
    let pos (x : Turns) : Nat := x.mTurns * pp + x.sector
    u.sector < pp ∧ u.eTurns < 65536 ∧ u.mTurns < 65536 ∧
    (0 ≤ d → b < a → u.turned = true ∧ u.eTurns = (t.eTurns + 1) % 65536 ∧ pos u = (pos t + 1) % (65536 * pp)) ∧
    (d < 0 → a < b → u.turned = true ∧ t.eTurns = (u.eTurns + 1) % 65536 ∧ pos t = (pos u + 1) % (65536 * pp)) ∧
    ((0 ≤ d ∧ a ≤ b) ∨ (d < 0 ∧ b ≤ a) → u = { t with turned := false })

/-- The events of acquisition and of the bandwidth rule (R138 to R140, R156, R160): PHASE_ACQ gives way to TRACK, PH_LOCK sets,
LOCKED and VALID set with the step at its ceiling, the step moves by one, and its limits apply after it. -/
def Parts.AcquisitionAndBandwidth : Prop :=
  ∀ (s : State) (n : Fin 8),
    let x := s.pch[n]
    let others (t : State) : Prop := (∀ k : Fin 8, k ≠ n → t.pch[k] = s.pch[k]) ∧ t.apart = s.apart
    (x.st = .phaseAcq → max 2 (s.PCH_PH_CFG_PH_ACQ_PER n.val) ≤ x.ph.cnt → Completes (.phaseAcqDone n) s (fun t =>
      t.pch[n] = { x with
        st := .track, ph := { x.ph with centre := x.ph.d, cnt := 0 }, pub := { x.pub with tag := t.pch[n].pub.tag } } ∧
      others t)) ∧
    (s.pchOn n = true → 4 ≤ x.ph.run → exec (.phLock n) s = .next { s with
      pch := vset s.pch n { x with ph := { x.ph with lock := true } } }) ∧
    (s.pchOn n = true → x.st = .track → x.lp.locked = false → x.lp.used = true →
      max 1 (s.PCH_TRK_LOCK_CFG_LOCK_TICKS n.val) ≤ x.lp.lockCnt → Completes (.lockDeclared n) s (fun t =>
        t.pch[n] = { x with
          lp := { x.lp with locked := true, idx := s.bwCeil n, upCnt := 0, dnCnt := 0, hold := 0, lolRun := 0, ovsRun := 0 }
          pub := { x.pub with tag := t.pch[n].pub.tag } } ∧
        tagValid t.pch[n].pub.tag = true ∧ tagAcq t.pch[n].pub.tag = false ∧ tagCoast t.pch[n].pub.tag = false ∧ others t)) ∧
    (s.adaptRuns n = true → max 1 (s.PCH_TRK_BW_TIME_UP_CNT n.val) ≤ x.lp.upCnt → x.lp.hold = 0 → x.lp.idx < s.bwCeil n →
      exec (.bwStepUp n) s = .next { s with pch := vset s.pch n { x with lp := { x.lp with
        idx := clampNat (s.bwFloor n) (s.bwCeil n) (x.lp.idx + 1)
        upCnt := 0, dnCnt := 0, hold := s.PCH_TRK_BW_TIME_UP_HOLD n.val } } }) ∧
    (s.bwCeil n ≤ x.lp.idx → exec (.bwStepUp n) s = .next s) ∧
    (s.adaptRuns n = true → x.lp.upCnt < max 1 (s.PCH_TRK_BW_TIME_UP_CNT n.val) →
      max 1 (s.PCH_TRK_BW_TIME_DWELL n.val) ≤ x.lp.dnCnt → s.bwFloor n < x.lp.idx →
      exec (.bwStepDown n) s = .next { s with pch := vset s.pch n { x with lp := { x.lp with
        idx := clampNat (s.bwFloor n) (s.bwCeil n) (x.lp.idx - 1), dnCnt := 0 } } }) ∧
    (x.lp.idx ≤ s.bwFloor n → exec (.bwStepDown n) s = .next s)

/-- The losses of Table 6.7 and Table 7.4 that are events: three invalid samples in a row (R130), a coast beyond COAST_LIM (R163),
LOL, OVSPD and the end of ACQ_TMO (R176). Each makes the channel LOST, with its cause noted and no VALID; the last three are
reported, and live with LOSS in the tick of detection (Table 7.4); nothing else changes but what a report, and the tag, can
change. -/
def Parts.ChannelLosses : Prop :=
  ∀ (s : State) (n : Fin 8), s.powered (.pch n) = true → s.pchOn n = true →
    let x := s.pch[n]
    let rest (i : Nat) (t : State) : Prop := t.pch[n].st = .lost ∧ t.pch[n].cause = bput x.cause i true ∧
      tagValid t.pch[n].pub.tag = false ∧ (∀ k : Fin 8, k ≠ n → t.pch[k] = s.pch[k]) ∧ t.apart = s.apart
    let seen (b : Nat) (t : State) : Prop := t.stickyBit (.pch n) b = true ∧ (t.fltLive (.pch n)).bit b = true ∧
      (t.fltLive (.pch n)).bit 5 = true
    (x.fe.cmwDue = true → Completes (.cmwLoss n) s (fun t => rest 0 t ∧ t.pch[n].fe.cmwDue = false)) ∧
    (s.coastTooLong n = true → Completes (.coastLong n) s (fun t => rest 8 t)) ∧
    (max 1 (s.PCH_TRK_LOL_CFG_LOL_TICKS n.val) ≤ x.lp.lolRun → x.lp.used = true → Completes (.lol n) s (fun t =>
      rest 9 t ∧ seen 17 t)) ∧
    (16 ≤ x.lp.ovsRun → x.lp.used = true → Completes (.ovspd n) s (fun t => rest 10 t ∧ seen 18 t)) ∧
    (x.st = .track → x.lp.locked = false → 2000 * max 1 (s.PCH_TRK_TIMEOUT_ACQ_TMO n.val) < x.lp.acqTicks →
      Completes (.acqTo n) s (fun t => rest 11 t ∧ seen 19 t))

/-- Loss and re-arming, acquisition and bandwidth, turn counting. -/
def Obligations.ChannelLossAndBandwidth : Prop :=
  Parts.LossRearm ∧ Parts.ChannelLosses ∧ Parts.AcquisitionAndBandwidth ∧ Parts.TurnCounting


/-! ## Scaler -/

/-- Writes of coefficients, APPLY and HARM_MAX, NEUTRAL and ALIGN_WR become pending on top of what is pending already, the applied
set standing (R184, R187, R194, Table 8.5); ALIGN_VAL at or above POLE_PAIRS completes with RANGE, with ALIGN_WR or without it
(R205); a coefficient write over a learning update of it that is pending discards the block under way (R204). -/
def Parts.ScalerWrites : Prop :=
  ∀ (s : State) (n : Fin 8) (reg : Fin 18) (v : Word) (al : BitVec 4), s.halfOn (pchHalf n.val) = true →
    let x := s.scl[n]
    let base := x.pend.getD x.cur
    let w := v &&& ~~~(0x1C : Word)
    let u := s.setReg (sclAddr n 0) w
    let y : Scl := { x with
      pend := some (base.putReg reg v), pendSrc := 3
      pendFw := bput x.pendFw reg.val true, pendLrn := bput x.pendLrn reg.val false }
    (x.pendLrn.getLsbD reg.val = false → exec (.sclCoefWrite n reg v) s = .next { s.eccPut .scl (coefAddr n reg) with
      wst := .ok, scl := vset s.scl n y }) ∧
    (x.pendLrn.getLsbD reg.val = true → exec (.sclCoefWrite n reg v) s = .next { s.eccPut .scl (coefAddr n reg) with
      wst := .ok, scl := vset s.scl n { y with lrn := x.lrn.drop } }) ∧
    (s.polePairs n ≤ v.fld 8 4 → exec (.sclApplyWrite n v) s = .next { s with wst := .range }) ∧
    (v.fld 8 4 < s.polePairs n → base.apply = w.bit 1 ∧ base.hmax = harmMax w → exec (.sclApplyWrite n v) s = .next { u with wst := .ok }) ∧
    (v.fld 8 4 < s.polePairs n → ¬(base.apply = w.bit 1 ∧ base.hmax = harmMax w) → exec (.sclApplyWrite n v) s = .next { u with
      wst := .ok
      scl := vset s.scl n { x with
        pend := some { base with apply := w.bit 1, hmax := harmMax w }
        pendSrc := if x.pend.isSome then x.pendSrc else x.src } }) ∧
    exec (.neutral n) s = .next { s with
      wst := .ok
      scl := vset s.scl n { x with
        pend := some base.toNeutral, pendSrc := 0, pendNeutral := true, pendLrn := 0, pendFw := 0 } } ∧
    (s.polePairs n ≤ al.toNat → exec (.alignWr n al) s = .next { s with wst := .range }) ∧
    (al.toNat < s.polePairs n → Completes (.alignWr n al) s (fun t => t.wst = .ok ∧
      t.scl = vset s.scl n { x with
        pend := some { base with align := al.toNat, aligned := true }
        pendSrc := if x.pend.isSome then x.pendSrc else x.src } ∧
      t = { s with cfg := t.cfg, badPar := t.badPar, scl := t.scl, wst := .ok }))

/-- Pending changes take effect together, when the channel is not locked or E_TURNS has changed in a tick that found them pending,
and spoil the revolution under way (R188, R194, R195). A revolution that has ended joins the block or is discarded whole (R188). A
block ends with BLK_REV accepted revolutions: its updates become pending and BLK_CNT counts (R192, R193). -/
def Obligations.ScalerLearning : Prop :=
  ∀ (s : State) (n : Fin 8),
    let x := s.scl[n]
    (∀ c, x.pend = some c → s.pch[n].lp.locked = false ∨ (s.pch[n].tn.turned = true ∧ x.pendSeen = true) →
      Completes (.sclPendingApply n) s (fun t => t = { s with scl := t.scl, badEcc := t.badEcc } ∧
        (∀ k : Fin 8, k ≠ n → t.scl[k] = s.scl[k]) ∧
      t.scl[n].cur = c.judgeAlign (s.polePairs n) s.SCL_LRN_LIM_CONV_TOL false ∧ t.scl[n].pend = none ∧
      t.scl[n].src = x.pendSrc ∧ t.scl[n].pendLrn = 0 ∧ t.scl[n].pendFw = 0 ∧ t.scl[n].lrn.revOk = false ∧
      (x.pendNeutral = true → t.scl[n].lrn.conv = 0 ∧ t.scl[n].lrn.blkCnt = 0) ∧
      (c.align ≠ x.cur.align → t.scl[n].lrn.blk = []))) ∧
    (x.pend = none ∨ (s.pch[n].lp.locked = true ∧ (s.pch[n].tn.turned = false ∨ x.pendSeen = false)) → exec (.sclPendingApply n) s = .next s) ∧
    (x.lrn.revEnd = true → Completes (.revolutionEnd n) s (fun t =>
      t = { s with scl := vset s.scl n { x with lrn := { x.lrn with
        revEnd := false, done := [], doneOk := false, blk := t.scl[n].lrn.blk } } } ∧
      t.scl[n].lrn.blk = x.lrn.blk ++
        (if x.lrn.doneOk = true ∧ x.lrn.done ≠ [] ∧ steadyRev x.lrn.done = true then [x.lrn.done] else []))) ∧
    (x.lrn.blk.length < max 2 s.SCL_LRN_CFG_BLK_REV → exec (.learnBlockEnd n) s = .next s) ∧
    (max 2 s.SCL_LRN_CFG_BLK_REV ≤ x.lrn.blk.length → Completes (.learnBlockEnd n) s (fun t =>
      t.scl[n].cur = x.cur ∧ t.scl[n].pend.isSome = true ∧ t.scl[n].pendSrc = 2 ∧ t.scl[n].lrn.blk = [] ∧
      t.scl[n].lrn.blkCnt = min 65535 (x.lrn.blkCnt + 1) ∧ t.scl[n].trims = x.trims ∧
      (∀ k : Fin 8, k ≠ n → t.scl[k] = s.scl[k]) ∧ t.quiet = ({ s with scl := t.scl } : State).quiet))

/-- Trim runs (R196 to R200): a request waits for its gate, apart from any sweep, of which its run takes and completes nothing,
and for a tick near a carrier peak; a reading TRIM_DT away from the baseline starts a sweep over the four channels of its half; a
run lasts 25,600 cycles (128 ticks) and is applied, or rejected with TRIM_FAIL; TRIM_LATE goes live when the gate has not been met
in time. -/
def Parts.TrimRuns : Prop :=
  ∀ (s : State) (n : Fin 8) (h : Half),
    let x := s.scl[n]
    (s.halfOn (pchHalf n.val) = true → x.trimAsk = false → exec (.trimReq n) s = .next { s with
      wst := .ok
      scl := vset s.scl n { x with trimAsk := true, trimFrom := if x.trimSweep = true then x.trimFrom else s.clk.cyc } }) ∧
    (s.halfOn (pchHalf n.val) = true → x.trimAsk = true → exec (.trimReq n) s = .next { s with wst := .ok }) ∧
    (∀ b, s.boot.released = true → s.halfOn h = true → s.SCL_TRIM_CFG_TRIM_AUTO = 1 → (s.sclH.get h).sweep = [] →
      (s.sclH.get h).base = some b → max 1 s.SCL_TRIM_CFG_TRIM_DT ≤ ((s.sclH.get h).temp.toInt - b.toInt).natAbs →
      Completes (.trimSweepStart h) s (fun t => (t.sclH.get h).sweep = chansOf h ∧ (t.sclH.get h).base = some b ∧
        t.sclH.get h.other = s.sclH.get h.other ∧ t = { s with sclH := t.sclH, scl := t.scl })) ∧
    (s.boot.released = true → s.powered .scl = true → s.halfOn (pchHalf n.val) = true → x.trimEnd = none →
      s.trimTurn n = true → s.trimGate n = true → s.trimPlace n = true → Completes (.trimRunStart n) s (fun t =>
        t.scl = vset s.scl n { x with
          trimAsk := false, trimSweep := x.trimAsk && x.trimSweep, trimOwn := x.trimAsk, trimFrom := s.clk.cyc
          trimLate := false, trimEnd := some (s.clk.cyc + 25600), trimLast := s.clk.cyc + 25600
          lrn := { x.lrn with revOk := false } } ∧ (x.trimAsk = true → t.sclH = s.sclH) ∧
        t.liveBit .scl (pchHalf n.val).copy (4 * n.val + 2) = false ∧
        t.quiet = ({ s with scl := t.scl, sclH := t.sclH } : State).quiet)) ∧
    (∀ c tv, s.powered .scl = true → x.trimEnd = some c → Completes (.trimRunEnd n tv) s (fun t =>
      t.clk.cyc = max s.clk.cyc c ∧ t.scl[n].trimEnd = none ∧ t.cfg = s.cfg ∧ t.pch = s.pch ∧
      (x.trimOwn = true → t.sclH = s.sclH) ∧
      (x.trimOwn = false → (s.sclH.get (pchHalf n.val)).sweep = [n] →
        t.sclH = s.sclH.set (pchHalf n.val) { (s.sclH.get (pchHalf n.val)) with
          sweep := [], base := some (s.sclH.get (pchHalf n.val)).temp }) ∧
      (trimBad x.trims tv = false → t.scl[n].trims = tv) ∧
      (trimBad x.trims tv = true → t.scl[n].trims = x.trims ∧ t.stickyBit .scl (4 * n.val + 3) = true))) ∧
    (x.trimWait = true → x.trimLate = false → s.powered .scl = true → s.halfOn (pchHalf n.val) = true →
      Completes (.trimLate n) s (fun t => t.liveBit .scl (pchHalf n.val).copy (4 * n.val + 2) = true ∧
        t.clk.cyc = max s.clk.cyc (x.trimFrom + 4000000 * max 1 s.SCL_TRIM_CFG_TRIM_WAIT) ∧
        t.quiet = ({ s with clk := t.clk, scl := vset s.scl n { x with trimLate := true } } : State).quiet)) ∧
    (∀ tv : BitVec 16, s.halfOn h = true → exec (.sclTempReading h tv) s = .next { s with
      sclH := s.sclH.set h { (s.sclH.get h) with
        temp := tv
        base := if (s.sclH.get h).base = none ∧ s.boot.released = true then some tv else (s.sclH.get h).base } })

/-- Writes of the Scaler, and trim runs. -/
def Obligations.ScalerWritesAndTrims : Prop :=
  Parts.ScalerWrites ∧ Parts.TrimRuns


/-! ## Digital position inputs -/

/-- EN set starts a digital channel afresh in the mode of its configuration, EN cleared stops it and abandons an SSI frame (R210);
REF_CLR and UNC_CLR (R218, R219): a REF_CLR that follows an index edge in the same tick applies first, so that the edge
references and raises no slip, while an illegal transition or a missing index after the edge stands (Table 9.8; the order of the
two within a tick is the model's reading, assumption 55). -/
def Parts.DigitalStartStop : Prop :=
  ∀ (s : State) (n : Fin 4), s.boot.released = true → s.halfOn (excHalf n.val) = true →
    let a := dchAddr n 0
    let x := s.dch[n]
    let on := s.setReg a (bput (s.reg a) 0 true)
    let off := s.setReg a (bput (s.reg a) 0 false)
    ((s.reg a).bit 0 = false → Completes (.dchEnable n) s (fun t => t = { on with dch := vset s.dch n t.dch[n], wst := .ok } ∧
      t.dch[n].on = true ∧ t.dch[n].mode = on.DCH_CFG_MODE n.val ∧ t.dch[n].pos = 0 ∧ t.dch[n].turns = 0 ∧
      t.dch[n].up = 0 ∧ t.dch[n].dn = 0 ∧ t.dch[n].ill = 0 ∧ t.dch[n].trans = 0 ∧ t.dch[n].slip = 0 ∧
      t.dch[n].unc = false ∧ t.dch[n].idx.ref = false ∧ t.dch[n].ssi.frame = none ∧ t.dch[n].hist = [] ∧
      t.dch[n].pub = { tag := x.pub.tag, stamp := x.pub.stamp })) ∧
    ((s.reg a).bit 0 = true → exec (.dchEnable n) s = .next { on with wst := .ok } ∧
      Completes (.dchDisable n) s (fun t =>
        t.dch = vset s.dch n { x with on := false, invSince := none, ssi := { x.ssi with frame := none, due := false } } ∧
        t.quiet = ({ off with dch := t.dch, wst := .ok } : State).quiet)) ∧
    ((s.reg a).bit 0 = false → exec (.dchDisable n) s = .next { off with wst := .ok }) ∧
    ((∀ e, x.idx.edge = some e → e.tick ≠ s.clk.cyc / 200) → exec (.refClr n) s = .next { s with
      wst := .ok, dch := vset s.dch n { x with idx := { x.idx with ref := false } } }) ∧
    (∀ e, x.idx.edge = some e → e.tick = s.clk.cyc / 200 → Completes (.refClr n) s (fun t =>
      let y := t.dch[n]
      t = { s with wst := .ok, dch := vset s.dch n y } ∧ y.idx.ref = true ∧ y.idx.slip = false ∧
      y.unc = (e.unc || x.ill != e.ill || x.idx.missed) ∧ y.slip = x.slip - e.d - e.c ∧
      y.idx.capPos = e.capPos ∧ y.idx.capExp = e.capExp ∧ y.up = x.up ∧ y.dn = x.dn ∧ y.trans = x.trans)) ∧
    exec (.uncClr n) s = .next { s with
      wst := .ok, dch := vset s.dch n { x with unc := x.unc && x.uncTick == some (s.clk.cyc / 200) } }

/-- The glitch filter of an input (R206): a level that its last FILT + 1 samples share is accepted, else the accepted level
stays. -/
def Parts.GlitchFilter : Prop :=
  ∀ (s : State) (n : Fin 4) (l : Vector (BitVec 3) 16) (i : Fin 3),
    let f := s.DCH_CFG_FILT n.val
    let v := (s.dchFilter n l).getLsbD i.val
    (∀ b : Bool, (∀ k : Fin 16, 15 - f ≤ k.val → (l[k]).getLsbD i.val = b) → v = b) ∧
    ((∃ k : Fin 16, 15 - f ≤ k.val ∧ (l[k]).getLsbD i.val = true) →
      (∃ k : Fin 16, 15 - f ≤ k.val ∧ (l[k]).getLsbD i.val = false) → v = (s.dch[n].lvl).getLsbD i.val)

/-- A transition counts up, down or as illegal, by DIR_INV the other way about (R211 to R213): exactly one of UP, DN and ILL moves
with TRANS, the count moves by one, an illegal one leaves the count and sets UNCERT. Samples come at every second TCLK cycle
(R206; the place of that grid is the model's choice, assumption 18); inputs that are held, or of a half that is off, are not taken
(R51, R52). -/
def Parts.TransitionsCount : Prop :=
  ∀ (s : State) (n : Fin 4) (l : Vector (BitVec 3) 16),
    let x := s.dch[n]
    let v := s.dchFilter n l
    let new := if x.mode = 1 then v else (v &&& 3) ||| (x.lvl &&& 4)
    let m0 := if x.mode = 1 then hallMove x.lvl new else abMove x.lvl new
    let m := if s.DCH_CFG_DIR_INV n.val = 1 then m0.flip else m0
    let f (y : Dch) : Nat := y.pos + y.cpr * y.turns
    (s.halfOn (excHalf n.val) = false ∨ s.pads.heldH.get (excHalf n.val) = true → exec (.dchTransition n l) s = .next s) ∧
    (s.halfOn (excHalf n.val) = true → s.pads.heldH.get (excHalf n.val) = false →
      (x.on = false ∨ x.mode = 2 → Completes (.dchTransition n l) s (fun t =>
        t = { s with clk := t.clk, dch := vset s.dch n { x with lvl := v } } ∧ t.clk.cyc = (s.clk.cyc + 1) / 2 * 2)) ∧
      (x.on = true → x.mode ≠ 2 → 0 < x.cpr → x.pos < x.cpr → x.turns < 65536 → Completes (.dchTransition n l) s (fun t =>
        let y := t.dch[n]
        t.clk.cyc = (s.clk.cyc + 1) / 2 * 2 ∧
        t.quiet = ({ s with clk := t.clk, dch := vset s.dch n y } : State).quiet ∧ y.cpr = x.cpr ∧ y.slip = x.slip ∧
        y.idx.ref = x.idx.ref ∧ y.pub = x.pub ∧ y.pos < y.cpr ∧ y.lvl = new ∧
        ((x.up + x.dn + x.ill) % 2 ^ 32 = x.trans % 2 ^ 32 → (y.up + y.dn + y.ill) % 2 ^ 32 = y.trans % 2 ^ 32) ∧
        (m = .up → y.trans = (x.trans + 1) % 2 ^ 32 ∧ y.up = (x.up + 1) % 2 ^ 32 ∧ y.dn = x.dn ∧ y.ill = x.ill ∧
          f y = (f x + 1) % (65536 * x.cpr)) ∧
        (m = .down → y.trans = (x.trans + 1) % 2 ^ 32 ∧ y.dn = (x.dn + 1) % 2 ^ 32 ∧ y.up = x.up ∧ y.ill = x.ill ∧
          f x = (f y + 1) % (65536 * x.cpr)) ∧
        (m = .illegal → y.trans = (x.trans + 1) % 2 ^ 32 ∧ y.ill = (x.ill + 1) % 2 ^ 32 ∧ y.up = x.up ∧ y.dn = x.dn ∧
          f y = f x ∧ y.unc = true) ∧
        (m = .none → y.trans = x.trans ∧ y.up = x.up ∧ y.dn = x.dn ∧ y.ill = x.ill ∧ f y = f x))))

/-- Digital inputs are filtered and their transitions counted (R206 to R213). -/
def Obligations.TransitionCounting : Prop :=
  Parts.GlitchFilter ∧ Parts.TransitionsCount

/-- The index (R206, R215 to R219): only a rise of the filtered Z (a fall with Z_INV) in the quadrant of Z_QUAD counts; the first
sets the count to EXP_IDX; a later one within IDX_TOL only confirms it, and beyond is a slip, the count corrected where RESYNC is
set; the next angle tick raises its INDEX_SLIP (R217). In HALL mode the input is W, whose changes are transitions (R211). That the
slip is raised as the tick ends, and the place of the sampling grid, are the model's choices (assumptions 18, 55). -/
def Parts.IndexEdges : Prop :=
  ∀ (s : State) (n : Fin 4) (l : Vector Bool 16), s.powered .dch = true → s.dchSees n = true →
    let x := s.dch[n]
    let z := filtered (s.DCH_CFG_FILT n.val) (x.lvl.getLsbD 2) l.toList
    let takes := x.on = true ∧ x.mode = 0 ∧ z ≠ x.lvl.getLsbD 2 ∧ z ≠ decide (s.DCH_CFG_Z_INV n.val = 1) ∧
      (s.DCH_CFG_Z_GATE n.val = 1 → x.lvl.toNat % 4 = s.DCH_CFG_Z_QUAD n.val)
    let exp := s.DCH_IDX_CFG_EXP_IDX n.val % x.cpr
    let d := wrapSigned (x.cpr : Int) ((x.pos : Int) - exp)
    (x.idx.slip = true → s.inRun = true → ∀ inp, Completes (.angleTick inp) s (fun t =>
      t.stickyBit .dch (6 * n.val + 1) = true ∧ t.dch[n].idx.slip = false)) ∧
    (x.on = true → x.mode = 1 → exec (.indexEdge n l) s = .next s) ∧
    (x.on = false ∨ x.mode ≠ 1 → ¬takes → Completes (.indexEdge n l) s (fun t => t.clk.cyc = (s.clk.cyc + 1) / 2 * 2 ∧
      t = { s with clk := t.clk, dch := vset s.dch n { x with lvl := bput x.lvl 2 z } })) ∧
    (takes → 0 < x.cpr → x.pos < x.cpr → Completes (.indexEdge n l) s (fun t =>
      let y := t.dch[n]
      t.clk.cyc = (s.clk.cyc + 1) / 2 * 2 ∧
      t.quiet = ({ s with clk := t.clk, dch := vset s.dch n y } : State).quiet ∧ y.lvl = bput x.lvl 2 z ∧ y.up = x.up ∧
      y.dn = x.dn ∧
      y.ill = x.ill ∧ y.trans = x.trans ∧ y.idx.ref = true ∧ y.idx.dev = clampInt (-32767) 32767 d ∧ y.idx.since = 0 ∧
      (x.idx.ref = false → y.pos = exp ∧ y.slip = x.slip - d ∧ y.unc = x.unc) ∧
      (x.idx.ref = true → d.natAbs ≤ s.DCH_IDX_CFG_IDX_TOL n.val → y.pos = x.pos ∧ y.turns = x.turns ∧ y.slip = x.slip) ∧
      (x.idx.ref = true → s.DCH_IDX_CFG_IDX_TOL n.val < d.natAbs → y.idx.slip = true ∧ y.idx.capPos = x.pos ∧ y.idx.capExp = exp ∧
        (s.DCH_CFG_RESYNC n.val = 1 → y.pos = exp ∧ y.slip = x.slip - d) ∧
        (s.DCH_CFG_RESYNC n.val ≠ 1 → y.pos = x.pos ∧ y.slip = x.slip ∧ y.unc = true))))

/-- The windows of ILL_RATE and HALL_INV (R213, R221), and a read of DCH_ANGLE, which captures the whole set (R228). -/
def Parts.DigitalMonitors : Prop :=
  ∀ (s : State) (n : Fin 4), s.powered .dch = true → s.halfOn (excHalf n.val) = true →
    let x := s.dch[n]
    let e := x.winFrom + 400 * max 1 (s.DCH_MON_CFG_ILL_WIN n.val)
    let c := (excHalf n.val).copy
    (x.on = true → Completes (.illRate n) s (fun t => t.clk.cyc = max s.clk.cyc e ∧
      t.liveBit .dch c (6 * n.val) = decide (s.DCH_MON_CFG_ILL_MAX n.val < x.illWin) ∧
      t.quiet = ({ s with clk := t.clk, dch := vset s.dch n { x with winFrom := e, illWin := 0 } } : State).quiet)) ∧
    (∀ k, x.on = true → x.invSince = some k → Completes (.hallInv n) s (fun t => t.clk.cyc = max s.clk.cyc (k + 400) ∧
      t.liveBit .dch c (6 * n.val + 3) = true ∧ t.quiet = ({ s with clk := t.clk } : State).quiet)) ∧
    (x.on = false → exec (.illRate n) s = .next s ∧ exec (.hallInv n) s = .next s) ∧
    (Store.wf (fun _ => 0) s.capt = true → Completes (.dchAngleRead n) s (fun t => t = { s with capt := t.capt, wst := .ok } ∧
      ∀ k, k < 11 → t.captured (dchAddr n 0x24 + 4 * k) = x.pub.words.getD k 0))

/-- Digital inputs start and stop; their index and monitors. -/
def Obligations.DigitalInputsWatched : Prop :=
  Parts.DigitalStartStop ∧ Parts.DigitalMonitors ∧ Parts.IndexEdges

/-- The SSI clock (R222, R224): idle high; it falls at the start of a frame, changes every half period, and stays high from
(L + 1.5) × P after it on: low in its even half periods, high in its odd ones, up to the 2 L + 3 that it has. -/
def Parts.SsiClock : Prop :=
  ∀ (s : State) (n : Fin 4),
    let half := clampNat 20 2000 (s.DCH_SSI_TIM_CLK_HALF n.val)
    let len := s.mtBits n + s.stBits n + s.statBits n + s.chkBits n
    (s.dch[n].ssi.frame = none → s.ssiClock n = true) ∧
    ∀ c t0, s.dch[n].ssi.frame = some (c, t0) → c ≤ s.clk.cyc →
      (∀ k, k < 2 * len + 3 → c + k * half ≤ s.clk.cyc → s.clk.cyc < c + (k + 1) * half →
        s.ssiClock n = decide (k % 2 = 1)) ∧
      (c + (2 * len + 3) * half ≤ s.clk.cyc → s.ssiClock n = true)

/-- SSI (R222 to R226): a frame starts by SSI_TRIG or when due, or is counted as lost during another and its recovery time; its
check comes when its end bit has been sampled and its clock has ended; a good frame gives the position, a bad one is reported and
counted; the recovery time ends. What a channel takes of a frame that begins while its data pad is held is free, by the model's
choice (assumption 64). -/
def Parts.SsiFramesRun : Prop :=
  ∀ (s : State) (n : Fin 4), s.powered .dch = true → s.halfOn (excHalf n.val) = true →
    let x := s.dch[n]
    let put (y : DchSsi) (w : Status) : State := { s with wst := w, dch := vset s.dch n { x with ssi := y } }
    let can := x.on = true ∧ x.mode = 2 ∧ s.ssiPin n = true
    let idle := x.ssi.frame = none ∧ x.ssi.recTill = none
    (can → idle → exec (.ssiTrig n) s = .next (put { x.ssi with frame := some (s.clk.cyc, s.now), blind := !s.dchSees n } .ok)) ∧
    (can → ¬idle → exec (.ssiTrig n) s = .next (put { x.ssi with lost := min 255 (x.ssi.lost + 1) } .ok)) ∧
    (¬can → exec (.ssiTrig n) s = .next { s with wst := .ok }) ∧
    (x.ssi.due = false → exec (.ssiFrameStart n) s = .next s) ∧
    (x.ssi.due = true → can → idle →
      exec (.ssiFrameStart n) s = .next (put { x.ssi with
        due := false, frame := some (s.clk.cyc, s.now), blind := !s.dchSees n } s.wst)) ∧
    (x.ssi.due = true → can → ¬idle → exec (.ssiFrameStart n) s =
      .next (put { x.ssi with due := false, lost := min 255 (x.ssi.lost + 1) } s.wst)) ∧
    (∀ r, x.ssi.recTill = some r → Completes (.ssiRecoveryEnd n) s (fun t => t.clk.cyc = max s.clk.cyc r ∧
      t = { s with clk := t.clk, dch := vset s.dch n { x with ssi := { x.ssi with recTill := none } } })) ∧
    (∀ c t0 ready bits endBit, x.ssi.frame = some (c, t0) →
      ∃ (rdy : Bool) (v : Nat) (last : Bool), (x.ssi.blind = false → rdy = ready ∧ v = BitVec.toNat (w := 32) bits ∧ last = endBit) ∧
      let raw := v % 2 ^ s.ssiLen n
      let f := s.ssiFields n raw
      let err := s.ssiErr n rdy last f.2.2.2 f.2.1
      let half := clampNat 20 2000 (s.DCH_SSI_TIM_CLK_HALF n.val)
      let rise := (2 * s.ssiLen n + 3) * half
      let at' := max s.clk.cyc (c + max rise ((2 * s.ssiLen n + 2) * half + 2 * s.DCH_SSI_TIM_DLY n.val))
      Completes (.ssiFrameEnd n ready bits endBit) s (fun t =>
        let y := t.dch[n]
        t.clk.cyc = at' ∧ t.quiet = ({ s with clk := t.clk, dch := vset s.dch n y } : State).quiet ∧
        y.ssi.frame = none ∧ y.ssi.recTill = some (c + rise + 400 * max 1 (s.DCH_SSI_TIM_REC_US n.val)) ∧
        y.ssi.lastErr = err ∧ y.ssi.raw.toNat = raw % 2 ^ 32 ∧
        (err = 0 → y.pos = f.2.1 ∧ y.turns = f.1 ∧ y.ssi.acc = ((f.2.1, c, t0) :: x.ssi.acc).take 2 ∧ y.ssi.errRun = 0 ∧
          y.ssi.loss = false ∧ t.liveBit .dch (excHalf n.val).copy (6 * n.val + 5) = false) ∧
        (err ≠ 0 → y.pos = x.pos ∧ y.turns = x.turns ∧ y.ssi.acc = x.ssi.acc ∧
          y.ssi.errCnt = min 65535 (x.ssi.errCnt + 1) ∧ t.stickyBit .dch (6 * n.val + 4) = true ∧
          (max 1 (s.DCH_SSI_CFG_ERR_MAX n.val) ≤ x.ssi.runs + 1 → y.ssi.loss = true))))

/-- SSI: the clock, and the frames (R222 to R226). -/
def Obligations.SsiFrames : Prop :=
  Parts.SsiClock ∧ Parts.SsiFramesRun


/-! ## Cross-monitor and authority -/

/-- Verdicts of the cross-monitor (R240 to R243): an angle divergence blames neither channel, a speed divergence the one that the
reference contradicts; each ends a capture of ANG_OFS (R244) and is reported unless held off, live in its tick of detection
(R256); DREF goes live; COPY_MIS comes after two compared ticks on which the copies' verdicts differ (assumption 30). -/
def Parts.CrossMonitorVerdicts : Prop :=
  ∀ (s : State) (d : Drive) (h : Half),
    let x := s.xd[d]
    let c := x.copies.get h
    let put (k : XCopy) (blame : Nat) (at' : Option Nat) : State := { s with xd := vset s.xd d { x with
      copies := x.copies.set h k, blame := blame, angAt := at', capBusy := false, capCnt := 0, capSum := 0 } }
    let b := s.arbitrate h d
    (s.halfOn h = true → s.divTicks h d ≤ c.angCnt → Completes (.angDiv d h) s (fun t =>
      t.quiet = (put { c with angCnt := 0 } 3 (some s.clk.cyc)).quiet ∧
      (s.reports .xmon (8 * d.val) = true → t.stickyBit .xmon (8 * d.val) = true ∧
        (t.fltLive .xmon).bit (8 * d.val) = true))) ∧
    (c.angCnt < s.divTicks h d → exec (.angDiv d h) s = .next s) ∧
    (s.halfOn h = true → s.divTicks h d ≤ c.spdCnt → Completes (.spdDiv d h) s (fun t =>
      t.quiet = (put { c with spdCnt := 0 }
        (if x.angAt = some s.clk.cyc ∨ b = none then 3 else if b = some true then 1 else 2) x.angAt).quiet ∧
      (s.reports .xmon (8 * d.val + s.spdSource h d b) = true →
        t.stickyBit .xmon (8 * d.val + s.spdSource h d b) = true))) ∧
    (c.spdCnt < s.divTicks h d → exec (.spdDiv d h) s = .next s) ∧
    (s.halfOn h = true → s.XMON_CFG_REF_EN h d.val = 1 → s.divTicks h d ≤ c.drefCnt →
      c.overS = false →
      Completes (.dref d h) s (fun t => t.quiet = s.quiet ∧
        (s.reports .xmon (8 * d.val + 4) = true → t.liveBit .xmon h.copy (8 * d.val + 4) = true))) ∧
    (2 ≤ x.misCnt → Completes (.copyMis d) s (fun t =>
      t.quiet = ({ s with xd := vset s.xd d { x with misCnt := 1 } } : State).quiet ∧
      (s.reports .xmon (8 * d.val + 5) = true → t.stickyBit .xmon (8 * d.val + 5) = true))) ∧
    (x.misCnt < 2 → exec (.copyMis d) s = .next s)

/-- A tick of the cross-monitor (R236 to R240, R243): a copy compares only where it is on, enabled, its configuration fits and both
tags admit it; it then counts the ticks in a row on which its own channels diverge in angle and in speed, and else keeps its
counts; COPY_MIS counts the compared ticks in a row on which the copies' verdicts differ. -/
def Parts.ComparedTicks : Prop :=
  ∀ (s : State) (d : Drive) (h : Half), s.halfOn h = true →
    let t := s.xmonTick d
    let c := s.xd[d].copies.get h
    let e := t.xd[d].copies.get h
    let pa := s.pch[s.srcA h d].pub
    let pb := s.pch[s.srcB h d].pub
    let dth := wrapSigned (2 ^ 24) ((pa.ang : Int) - pb.ang - s.angOfs h d)
    let ok (g : Half) : Bool := s.halfOn g && s.XMON_CFG_CMP_EN g d.val == 1 && !s.cfgMisLive d &&
      comparable (s.pch[s.srcA g d].pub).tag && comparable (s.pch[s.srcB g d].pub).tag
    (ok h = false → e.angCnt = c.angCnt ∧ e.spdCnt = c.spdCnt ∧ e.drefCnt = c.drefCnt ∧ e.adiff = c.adiff ∧
      e.sdiff = c.sdiff ∧ e.peak = c.peak) ∧
    (ok h = true → e.adiff = dth ∧ e.sdiff = pa.spd - pb.spd ∧ e.peak = max c.peak dth.natAbs ∧
      e.angCnt = (if s.XMON_ANG_WIN_ANG_WIN h d.val < dth.natAbs then c.angCnt + 1 else 0) ∧
      e.spdCnt = (if s.overSpeed h d pa.spd pb.spd = true then c.spdCnt + 1 else 0)) ∧
    (ok .h0 = true → ok .h1 = true →
      t.xd[d].misCnt = if (t.xd[d].copies.h0.overA, t.xd[d].copies.h0.overS) ≠ (t.xd[d].copies.h1.overA, t.xd[d].copies.h1.overS)
        then s.xd[d].misCnt + 1 else 0)

/-- A capture of ANG_OFS (R244): a write during one is ignored; after 1,024 ticks both copies take the mean, rounded half up; the
encoder outputs are brought up to the instant first, and their frames follow the new offset (R259). -/
def Parts.OffsetCapture : Prop :=
  ∀ (s : State) (d : Drive), (s.halfOn .h0 = true ∨ s.halfOn .h1 = true) →
    let x := s.xd[d]
    let idle (b : Bool) : XDrive := { x with capBusy := b, capCnt := 0, capSum := 0 }
    (x.capBusy = true → exec (.ofsCap d) s = .next { s with wst := .ok }) ∧
    (x.capBusy = false → exec (.ofsCap d) s = .next { s with wst := .ok, xd := vset s.xd d (idle true) }) ∧
    (x.capBusy = true → x.capCnt < 1024 → exec (.ofsCapDone d) s = .next s) ∧
    (x.capBusy = true → 1024 ≤ x.capCnt →
      let u := s.encFollowAll
      Completes (.ofsCapDone d) s (fun t =>
        t.xd = vset u.xd d { u.xd[d] with capBusy := false, capCnt := 0, capSum := 0 } ∧
        t.gen = { u.gen with frm := t.gen.frm } ∧
        t = { u.setDup (xmonAddr d 0x10) (Word.put 0 24 (wrapInt 24 ((2 * x.capSum + 1024) / 2048))) with
          xd := t.xd, gen := t.gen }))

/-- Compared ticks, verdicts of the cross-monitor, and offset capture. -/
def Obligations.CrossMonitoring : Prop :=
  Parts.ComparedTicks ∧ Parts.CrossMonitorVerdicts ∧ Parts.OffsetCapture

/-- The moves of the authority latch (R247 to R252, Table 10.1): a request is judged 60 cycles after its declaration, refused too
where both halves ask at one instant (Table 10.2), and refused it puts the drive in its safe state, with the hold-off window of
Table 15.4 counted from the declaration; 161 cycles after its start a handover makes its taker the single holder (assumption 40); a
holder whose claim is lost, or has gone with its domain, gives way to the other half if that is eligible, and the AUTH bits of the
drive's channels follow (R252). -/
def Obligations.AuthorityHandover : Prop :=
  ∀ (s : State) (d : Drive),
    let x := s.xd[d]
    (∀ r rest, x.req = r :: rest →
      let u := s.waitTill (r.at' + 60)
      let ok := u.eligible d r.frm.other = true ∧ x.mate ≠ some r.at' ∧ ∀ q ∈ rest, q.frm = r.frm
      (ok → exec (.handoverRequest d) s = .next { u with xd := vset s.xd d { x with
        busy := true, taking := some r.frm.other, takeCause := 1, takeAt := r.at', req := [] } }) ∧
      (¬ok → Completes (.handoverRequest d) s (fun t => t.clk = u.clk ∧ t.safe[d].ssl = ⟨true, true⟩ ∧
        t.safe[d].rel = false ∧ t.xd[d].busy = x.busy ∧ t.xd[d].claim = x.claim ∧
        (u.reports .xmon (8 * d.val + 7) = true → t.stickyBit .xmon (8 * d.val + 7) = true)))) ∧
    (∀ h, x.taking = some h → CompletesVoting (.handoverDone d) s (fun t => t.clk.cyc = max s.clk.cyc (x.takeAt + 161) ∧
      t.xd[d].claim = (Two.mk false false).set h true ∧ t.xd[d].conflict = false ∧ t.xd[d].busy = false ∧
      t.xd[d].taking = none ∧ t.xd[d].hoCnt = min 65535 (x.hoCnt + 1) ∧ t.xd[d].hoCause = x.takeCause ∧
      (s.halfOn h = true → t.holderHalf d = some h) ∧ t.cfg = s.cfg ∧ t.fram = s.fram)) ∧
    (∀ h, s.heir d = some h → s.boot.released = true → x.busy = false → x.conflict = false →
      let u := ((s.setX d { x with claim := ⟨false, false⟩, orphan := none, req := [] }).watchHolder d).retagDrive d
      CompletesVoting (.holderClaimLost d) s (fun t => t.xd[d].claim = ⟨false, false⟩ ∧ t.xd[d].orphan = none ∧
        t.apart = s.apart ∧ (∀ e : Drive, e ≠ d → t.xd[e].claim = s.xd[e].claim) ∧
        (∀ n : Fin 8, s.names 0 n.val = false → s.names 1 n.val = false → t.pch[n] = s.pch[n]) ∧
        (u.eligible d h = true →
          t.xd[d].busy = true ∧ t.xd[d].taking = some h ∧ t.xd[d].takeCause = 2 ∧ t.xd[d].takeAt = s.clk.cyc) ∧
        (u.eligible d h = false → t.xd[d].busy = false))) ∧
    (s.heir d = none → exec (.holderClaimLost d) s = .next s.domains)

/-- An authority conflict (R247): more than 2.0 µs without a single holder; both halves assert the safe state and withdraw. And
XMON_AUTH_CMD (R254): DENIED while HO_BUSY is set, 50 ns after the command that starts a handover (Table 10.1), and for a half that
is not fit; OK without effect for the half that holds and for a command that joins another before HO_BUSY sets (Table 10.2). -/
def Obligations.AuthorityConflictAndCommand : Prop :=
  ∀ (s : State) (d : Drive) (h : Half),
    let x := s.xd[d]
    let denied := exec (.authCmd d h) s = .next { s with wst := .denied }
    let go := Completes (.authCmd d h) s (fun t => t = { s with xd := vset s.xd d t.xd[d], wst := .ok } ∧
      t.xd[d].busy = true ∧ t.xd[d].taking = some h ∧ t.xd[d].takeCause = 3 ∧ t.xd[d].takeAt = s.clk.cyc ∧
      t.xd[d].claim = x.claim)
    let both := s.healthOk d .h0 = true ∧ s.healthOk d .h1 = true ∧ (s.hoEn d = true ∨ (s.ownChan d h).isSome = true)
    (∀ k, x.noHolderSince = some k → s.boot.released = true → x.conflict = false → s.holderHalf d = none →
      CompletesVoting (.authConflict d) s (fun t => t.clk.cyc = max s.clk.cyc (k + 801) ∧ t.xd[d].claim = ⟨false, false⟩ ∧
        t.xd[d].conflict = true ∧ t.xd[d].busy = false ∧ t.xd[d].seen = ⟨x.seen.h0 || s.halfOn .h0, x.seen.h1 || s.halfOn .h1⟩ ∧
        t.safe[d].ssl = ⟨true, true⟩ ∧ t.safe[d].rel = false ∧ t.cfg = s.cfg)) ∧
    ((s.holderHalf d).isSome = true → exec (.authConflict d) s = .next s.domains) ∧
    (s.halfOn .h0 = true ∨ s.halfOn .h1 = true →
      (s.boot.released = false ∨ s.hoBusy d = true → denied) ∧
      (s.boot.released = true → s.hoBusy d = false → x.busy = true → exec (.authCmd d h) s = .next { s with wst := .ok }) ∧
      (∀ t, exec (.authCmd d h) s = .next t → s.boot.released = true → x.busy = false → t.xd[d].busy = true →
        s.confLive d = false → t.hoBusy d = false ∧ ∀ n, 20 ≤ n → (t.wait n).hoBusy d = true) ∧
      (s.boot.released = true → s.hoBusy d = false → x.busy = false →
        (s.confLive d = false → s.holds d h = true → exec (.authCmd d h) s = .next { s with wst := .ok }) ∧
        (s.confLive d = false → s.holds d h = false → s.healthOk d h = true → s.hoEn d = true → go) ∧
        (s.confLive d = false → s.holds d h = false → s.healthOk d h = false ∨ s.hoEn d = false → denied) ∧
        (s.confLive d = true → both → go) ∧ (s.confLive d = true → ¬both → denied)))


/-! ## Encoder emulation -/

/-- EN of an output (R266, R267): set, the output waits for its first preset; cleared, it stops where it stands, its ledger and the
configuration in force unchanged: CFG, LINES and IDX written while EN was set wait for the next preset. -/
def Parts.EncoderEnable : Prop :=
  ∀ (s : State) (n : Fin 4), (s.halfOn .h0 = true ∨ s.halfOn .h1 = true) →
    let u := s.encFollow n
    let a := encAddr n 0
    let en (v : Bool) : State := u.setDup a (bput (u.regH (u.encHalf n) a) 0 v)
    ((u.regH (u.encHalf n) a).bit 0 = false → exec (.encEnable n) s = .next { en true with
      wst := .ok, enc := vset u.enc n { u.enc[n] with armed := true, done := false } } ∧
      exec (.encDisable n) s = .next { en false with wst := .ok }) ∧
    ((u.regH (u.encHalf n) a).bit 0 = true → exec (.encEnable n) s = .next { en true with wst := .ok } ∧
      exec (.encDisable n) s = .next { en false with
        wst := .ok, enc := vset u.enc n { u.enc[n] with armed := false, late := none } })

/-- A preset of an output (R266, Table 11.4): without effect while EN is clear; during a handover it waits for its end; else the
configuration written comes into force, the ledger restarts from the copy of the holder (of the last one while there is none,
assumption 56), and the count taken stands in the column that the pads show, so that no edge comes of it. The first preset comes
with the first tick in use whose tag has VALID set and ACQ clear; a PRESET that waits for a handover goes on waiting. -/
def Parts.EncoderPreset : Prop :=
  ∀ (s : State) (n : Fin 4), (s.halfOn .h0 = true ∨ s.halfOn .h1 = true) →
    let d := s.encDrive n
    let preset (h : Half) (t : State) : Prop :=
      let y := t.enc[n]
      let k := s.encHalf n
      y.done = true ∧ y.act = h ∧ y.emit = 0 ∧ y.jump = 0 ∧ y.up = 0 ∧ y.dn = 0 ∧ -1 ≤ y.target ∧ y.target ≤ 2 ∧
      y.cfg = s.regH k (encAddr n 4) ∧ y.lines = s.regH k (encAddr n 8) ∧ y.idx = s.regH k (encAddr n 0xC) ∧
      y.outPos % 4 = y.column (s.pads.encA.getLsbD n.val) (s.pads.encB.getLsbD n.val) ∧
      (∀ k : Fin 4, k ≠ n → t.enc[k] = s.enc[k]) ∧ t.pads.encA = s.pads.encA ∧ t.pads.encB = s.pads.encB ∧ t.cfg = s.cfg
    (s.encEn n = false → exec (.preset n) s = .next { s with wst := .ok }) ∧
    (s.encEn n = true → s.handing d = true → exec (.preset n) s = .next { s with
      wst := .ok, enc := vset s.enc n { s.enc[n] with late := some d } }) ∧
    (s.encEn n = true → s.handing d = false →
      Completes (.preset n) s (fun t => t.wst = .ok ∧ t.enc[n].armed = s.enc[n].armed ∧ t.enc[n].late = none ∧
        preset ((s.holderHalf d).getD s.enc[n].act) t)) ∧
    (∀ h c, s.holderHalf d = some h → s.activeSrc d = some c → s.enc[n].armed = true →
      s.boot.released = true → s.encEn n = true → tagValid (s.genTag c) = true →
      tagAcq (s.genTag c) = false → s.gen.at' = s.clk.cyc →
      Completes (.encFirstPreset n) s (fun t => t.enc[n].armed = false ∧ t.enc[n].late = s.enc[n].late ∧ preset h t)) ∧
    (s.presetDue n = false ∨ s.gen.at' ≠ s.clk.cyc → exec (.encFirstPreset n) s = .next s)

/-- A count step (R261 to R264): driven only with BACKLOG non-zero and EDGE_GAP over, by the half that holds the drive; it brings
EMIT one nearer to TARGET, both of 48 bits, and counts in UP or DN, so that EMIT = UP − DN modulo 2^32 goes on to hold; the pads A
and B follow unless held; TALLY_HI and TALLY_OVF follow BACKLOG. A read of TARGET captures the ledger (R276). -/
def Parts.EncoderSteps : Prop :=
  ∀ (s : State) (n : Fin 4) (dt : Nat),
    let u := (s.wait dt).encFollow n
    let x := u.enc[n]
    let w := (s.encFollow n).enc[n]
    (u.encMayStep n = false → exec (.encCountStep n dt) s = .next u) ∧
    (u.encMayStep n = true → Completes (.encCountStep n dt) s (fun t =>
      let y := t.enc[n]
      y.target = x.target ∧ y.last = t.clk.cyc ∧ t.clk = u.clk ∧ y.q = x.q ∧ y.jump = x.jump ∧
      y.backlog.natAbs + 1 = x.backlog.natAbs ∧
      (0 < x.backlog → y.emit = wrapSigned (2 ^ 48) (x.emit + 1) ∧ y.up = (x.up + 1) % 2 ^ 32 ∧ y.dn = x.dn) ∧
      (x.backlog < 0 → y.emit = wrapSigned (2 ^ 48) (x.emit - 1) ∧ y.dn = (x.dn + 1) % 2 ^ 32 ∧ y.up = x.up) ∧
      ((x.emit - ((x.up : Int) - x.dn)) % 2 ^ 32 = 0 → (y.emit - ((y.up : Int) - y.dn)) % 2 ^ 32 = 0) ∧
      (y.a, y.b) = y.abOf y.outPos ∧
      (s.boot.released = true → u.pads.encHeld.getLsbD n.val = false →
        t.pads.encA.getLsbD n.val = y.a ∧ t.pads.encB.getLsbD n.val = y.b) ∧
      (u.pads.encHeld.getLsbD n.val = true → t.pads.encA = u.pads.encA ∧ t.pads.encB = u.pads.encB) ∧
      (s.powered .enc = true → t.liveBit .enc .shared (2 * n.val + 1) = decide (2 ^ 20 < y.backlog.natAbs)) ∧
      (s.powered .enc = true → (s.wait dt).heldOff .enc (2 * n.val) = false → t.liveBit .enc .shared (2 * n.val) =
        decide (min (2 ^ 20) (s.ENC_WARN_BKL_WARN (s.encHalf n) n.val) < y.backlog.natAbs)) ∧
      (∀ k : Fin 4, k ≠ n → t.enc[k] = s.enc[k]) ∧ t.cfg = s.cfg)) ∧
    ((s.halfOn .h0 = true ∨ s.halfOn .h1 = true) → Store.wf (fun _ => 0) s.capt = true →
      Completes (.encTargetRead n) s (fun t =>
        t.captured (encAddr n 0x18) = BitVec.ofInt 32 w.target ∧ t.captured (encAddr n 0x1C) = BitVec.ofInt 32 w.emit ∧
        t.captured (encAddr n 0x20) = BitVec.ofInt 32 w.backlogShown ∧
        t.captured (encAddr n 0x24) = BitVec.ofInt 32 w.jump ∧ t.captured (encAddr n 0x28) = BitVec.ofNat 32 w.up ∧
        t.captured (encAddr n 0x2C) = BitVec.ofNat 32 w.dn ∧ t.enc = (s.encFollow n).enc ∧ t.cfg = s.cfg))

/-- The encoder outputs: enable, preset and steps. -/
def Obligations.EncoderOutputs : Prop :=
  Parts.EncoderEnable ∧ Parts.EncoderPreset ∧ Parts.EncoderSteps


/-! ## Angle-event scheduler -/

/-- Writes of slots are held until the next prediction switch, ANG with the words then pending (R288), reserved bits reading 0;
CNT_CLR; EN, whose setting presets every slot of a drive whose governing copy had it clear (R279, Table 12.2, assumption 68). -/
def Parts.SchedulerWrites : Prop :=
  ∀ (s : State) (i : Fin 256) (v : Word), (s.halfOn .h0 = true ∨ s.halfOn .h1 = true) →
    let x := s.aev.slot[i]
    let put (off : Nat) (y : AevSlot) : Host.Outcome State Fault Refusal := .next { s.eccPut .aev (slotAddr i off) with
      wst := .ok, aev := { s.aev with slot := vset s.aev.slot i y } }
    let w := s.regH s.lead (aevAddr 0x40)
    let en (b : Bool) : State := s.setDup (aevAddr 0x40) (bput w 0 b)
    exec (.aevSlotStageWrite i false v) s = put 4 { x with pAct := some (v &&& 0xF0FF0000) } ∧
    exec (.aevSlotStageWrite i true v) s = put 8 { x with pPar := some v } ∧
    exec (.aevSlotAngWrite i v) s = put 0 { x with
      pAct := none, pPar := none, commit := some (x.commits (v &&& 0xFFFFFF33)) } ∧
    (x.commit = none → x.commits v = (v, x.pAct, x.pPar)) ∧
    exec .aevCntClr s = .next { s with wst := .ok, aev := { s.aev with
      slot := s.aev.slot.map fun y => { y with fire := 0, late := 0, drop := 0 } } } ∧
    exec .aevDisable s = .next { en false with wst := .ok } ∧
    Completes .aevEnable s (fun t => t = { en true with wst := .ok, aev := { s.aev with slot := t.aev.slot } } ∧
      ∀ k : Fin 256, t.aev.slot[k] = if (s.regH (s.copyOf s.aev.slot[k].drv) (aevAddr 0x40)).bit 0 then s.aev.slot[k]
        else ((en true).presetSlot k).aev.slot[k])

/-- Firmware forces, the end of a pulse and the read-back of a pin (R284, R290): the level is driven, an edge counts, one at most
per cycle, the pad follows from release on unless held; without a holder of the drive (R49), or on a pin that is an SSI clock
(R222), a force drives nothing, and without a holder a pulse goes on (assumption 57). A pad that differs from its level makes
PIN_MIS live, but not within 40 ns of an edge. -/
def Parts.SchedulerPins : Prop :=
  ∀ (s : State) (n : Fin 8),
    let o := s.aev.out[n]
    let drives (lvl : Bool) (u t : State) : Prop :=
      t.aev.out[n] = o.told (s.outActive n) (s.aevClaimed n) u.clk.cyc 0 (.level lvl) ∧
      ((o.now.cyc ≠ u.clk.cyc ∨ o.now.ops = []) → t.aev.out[n].lvl = lvl ∧ t.aev.out[n].pulse = none ∧
        t.aev.out[n].edges = (if lvl = o.lvl ∨ s.aevClaimed n = true then o.edges else (o.edges + 1) % 65536)) ∧
      (∀ k : Fin 8, k ≠ n → t.aev.out[k] = s.aev.out[k]) ∧ t.aev.slot = s.aev.slot ∧
      (s.boot.released = true → s.pads.aevHeld.getLsbD n.val = false →
        t.pads.aev.getLsbD n.val = t.aev.out[n].lvl) ∧
      (s.pads.aevHeld.getLsbD n.val = true → t.pads.aev = s.pads.aev) ∧
      t.quiet = ({ u with aev := t.aev, pads := t.pads } : State).quiet
    ((s.halfOn .h0 = true ∨ s.halfOn .h1 = true) →
      ((s.holderHalf (s.outDrive n)).isSome = true → s.aevClaimed n = false →
        Completes (.aevForceSet n) s (drives (s.outActive n) { s with wst := .ok }) ∧
        Completes (.aevForceClr n) s (drives (!s.outActive n) { s with wst := .ok })) ∧
      ((s.holderHalf (s.outDrive n)).isNone = true ∨ s.aevClaimed n = true →
        exec (.aevForceSet n) s = .next { s with wst := .ok } ∧ exec (.aevForceClr n) s = .next { s with wst := .ok })) ∧
    (∀ k, o.pulse = some k → (s.holderHalf (s.outDrive n)).isSome = true →
      Completes (.aevPulseEnd n) s (fun t => t.clk.cyc = max s.clk.cyc k ∧
        drives (!s.outActive n) (s.waitTill k) t)) ∧
    (∀ k, o.pulse = some k → (s.holderHalf (s.outDrive n)).isNone = true →
      exec (.aevPulseEnd n) s = .next (s.waitTill k)) ∧
    (o.pulse = none → exec (.aevPulseEnd n) s = .next s) ∧
    (s.powered .aev = true → s.boot.released = true → s.aevClaimed n = false → ∀ b : Bool, s.heldOff .aev n.val = false →
      let near := ∃ k, o.edgeAt = some k ∧ s.clk.cyc ≤ k + 16
      Completes (.pinMis n b) s (fun t => (t.liveBit .aev .shared n.val = true ↔ b ≠ o.lvl ∧ ¬near) ∧
        ∃ m : Option Bool, (m = some b ↔ b ≠ o.lvl ∧ ¬near) ∧ (m = none ↔ b = o.lvl ∨ near) ∧
          t.quiet = ({ s with aev := { s.aev with out := vset s.aev.out n { o with mis := m } } } : State).quiet)) ∧
    (s.aevClaimed n = true → ∀ b : Bool, exec (.pinMis n b) s = .next s)

/-- Writes of the scheduler, and its pins. -/
def Obligations.SchedulerControl : Prop :=
  Parts.SchedulerWrites ∧ Parts.SchedulerPins

/-- What the action of firing slot `i` does (R284, R285, Table 12.1, Table 12.2): a pin action on an output of the slot's drive
that is no SSI clock drives the output in the slot's place, its pad following; an internal trigger sets out for its target, one of
each kind per cycle; any other action does nothing. `u` is the state of the cycle, `t` the state after. -/
def Parts.FiringActs (u t : State) (i : Fin 256) : Prop :=
  let x := u.aev.slot[i]
  let n : Fin 8 := Fin.ofNat 8 x.target
  let o := u.aev.out[n]
  let pin := 1 ≤ x.action ∧ x.action ≤ 4 ∧ x.target < 8 ∧ u.outDrive n = x.drv ∧ u.aevClaimed n = false
  let lvl := match x.action with
    | 2 => !u.outActive n
    | 3 => !o.lvl
    | _ => u.outActive n
  (pin → t.aev.trig = u.aev.trig ∧ (∀ k : Fin 8, k ≠ n → t.aev.out[k] = u.aev.out[k]) ∧
    t.aev.out[n] = o.told (u.outActive n) false u.clk.cyc (i.val + 1) (u.pinOp n x.action x.width) ∧
    ((o.now.cyc ≠ u.clk.cyc ∨ o.now.ops = []) → t.aev.out[n].lvl = lvl ∧
      t.aev.out[n].pulse = (if x.action = 4 then some (u.clk.cyc + x.width) else none) ∧
      t.aev.out[n].edges = if lvl = o.lvl then o.edges else (o.edges + 1) % 65536) ∧
    (u.boot.released = true → u.pads.aevHeld.getLsbD n.val = false → t.pads.aev.getLsbD n.val = t.aev.out[n].lvl) ∧
    (u.pads.aevHeld.getLsbD n.val = true → t.pads.aev = u.pads.aev)) ∧
  (5 ≤ x.action → t.aev.out = u.aev.out ∧ t.pads = u.pads ∧
    t.aev.trig = if u.aev.trig.any (fun g => g.action == x.action && g.target == x.target && g.cyc == u.clk.cyc) then u.aev.trig
      else u.aev.trig ++ [⟨i, x.action, x.target, u.clk.cyc, u.now⟩]) ∧
  (x.action < 5 → ¬pin → t.aev.out = u.aev.out ∧ t.aev.trig = u.aev.trig ∧ t.pads = u.pads)

/-- A slot in this cycle (R278, R281, R283 to R285): it steps up where the angle has risen past its count plus one, down where it
has fallen below its count less HYST, fires and counts the firing if DIR admits the step, and counts a late one in the cycle of a
prediction switch; between the two levels, disabled or frozen it rests; one that a latch move holds rests until the angle is back
in its count (R287). -/
def Obligations.SlotSteps : Prop :=
  ∀ (s : State) (i : Fin 256) (dt : Nat),
    let u := s.wait dt
    let x := s.aev.slot[i]
    let runs (h : Half) : Prop :=
      x.en = true ∧ s.aev.live[x.drv] = true ∧ u.holderHalf x.drv = some h ∧ u.aevEn h = true
    (¬(∃ h, runs h) → exec (.aevSlotStep i dt) s = .next u) ∧
    (∀ h, runs h → u.slotV x h = none → exec (.aevSlotStep i dt) s = .next u) ∧
    (∀ h v, runs h → u.slotV x h = some v → x.hold = true →
      exec (.aevSlotStep i dt) s = .next (if v.floor = x.c then u.setSlot i { x with hold := false } else u)) ∧
    (∀ h v, runs h → u.slotV x h = some v → x.hold = false →
      ((v < (x.c : Rat) + 1 ∧ (x.c : Rat) - u.aevHyst h ≤ v) → exec (.aevSlotStep i dt) s = .next u) ∧
      (∀ up : Bool, ((up = true ∧ (x.c : Rat) + 1 ≤ v) ∨
          (up = false ∧ v < (x.c : Rat) + 1 ∧ v < (x.c : Rat) - u.aevHyst h)) →
        Completes (.aevSlotStep i dt) s (fun t =>
          t.aev.slot[i] = { x with
            c := if up then x.c + 1 else x.c - 1
            late := if u.clk.cyc = s.gen.at' then min 255 (x.late + 1) else x.late
            fire := if x.admits up = true then (x.fire + 1) % 65536 else x.fire } ∧
          t.aev.lateTotal = (if u.clk.cyc = s.gen.at' then min 65535 (s.aev.lateTotal + 1) else s.aev.lateTotal) ∧
          (∀ k : Fin 256, k ≠ i → t.aev.slot[k] = s.aev.slot[k]) ∧ t.clk = u.clk ∧ t.cfg = s.cfg ∧
          (x.admits up = true → Parts.FiringActs u t i) ∧
          (x.admits up = false → t.aev.out = s.aev.out ∧ t.aev.trig = s.aev.trig ∧ t.pads = s.pads))))

/-- A prediction switch (R260, R277, R288): 500 cycles after its sample instant the newest due tick comes into use, and every
committed slot takes the words held for it. -/
def Parts.PredictionSwitches : Prop :=
  ∀ (s : State),
    (s.gen.wait = [] → exec .predictionSwitch s = .next s) ∧
    (∀ c q more, s.gen.wait = (c, q) :: more → Completes .predictionSwitch s (fun t =>
      t.clk.cyc = max s.clk.cyc (c + 500) ∧ dueTick t.clk.cyc s.gen.wait = some (t.gen.cur, t.gen.wait) ∧
      t.gen.at' = t.clk.cyc ∧ t.cfg = s.cfg ∧ t.pch = s.pch ∧
      ∀ i : Fin 256, t.aev.slot[i].commit = none ∧
        (∀ a act par, s.aev.slot[i].commit = some (a, act, par) → t.aev.slot[i].ang = a ∧
          t.aev.slot[i].act = act.getD s.aev.slot[i].act ∧ t.aev.slot[i].par = par.getD s.aev.slot[i].par) ∧
        t.aev.slot[i].pAct = s.aev.slot[i].pAct ∧ t.aev.slot[i].pPar = s.aev.slot[i].pPar ∧
        (s.aev.slot[i].commit = none → t.aev.slot[i].ang = s.aev.slot[i].ang ∧
          t.aev.slot[i].act = s.aev.slot[i].act ∧ t.aev.slot[i].par = s.aev.slot[i].par)))

/-- The oldest internal trigger reaches its target 2 cycles after its edge (R284, R285): an SDM trigger, a snapshot, a trigger of
a recorder that takes them, the start of an SSI frame. One whose target does not run is dropped and counted: a channel that is
disabled or whose half is off, a recorder that is off or takes no such trigger, an SSI channel that is out of service, current
sensing before release or with both halves off. -/
def Parts.InternalTriggers : Prop :=
  ∀ (s : State) (x : AevTrig) (rest : List AevTrig),
    let u := s.waitTill (x.cyc + 2)
    let w : State := { u with aev := { u.aev with trig := rest } }
    (s.aev.trig = [] → exec .internalTrigger s = .next s) ∧
    (s.aev.trig = x :: rest →
      Completes .internalTrigger s (fun t => t.clk = u.clk ∧ t.aev.trig = rest ∧ t.cfg = s.cfg ∧ t.pads.aev = s.pads.aev) ∧
      (x.action = 7 → ∀ n : Fin 8, n.val = x.target → s.frec[n].st ≠ .off → s.frec[n].cfg.bit 0 = true →
        exec .internalTrigger s = .next { w with frec := vset s.frec n (s.frec[n].offer 0 x.time u.clk.cyc) }) ∧
      (x.action = 6 → ∀ n : Fin 8, n.val = x.target → s.pchOn n = true → s.halfOn (pchHalf n.val) = true → exec .internalTrigger s =
        .next (w.offer (w.snapQueue n.val) 1 ((w.publishedAt n x.cyc).snapBytes n 2 x.time))) ∧
      (x.action = 8 → ∀ n : Fin 4, n.val = x.target → s.dchOn n = true → s.dch[n].mode = 2 → s.halfOn (excHalf n.val) = true →
        exec .internalTrigger s = .next (w.ssiStart n)) ∧
      (x.action = 5 → s.boot.released = true → (s.halfOn .h0 = true ∨ s.halfOn .h1 = true) → exec .internalTrigger s =
        .next (w.sdmTrig x.slot (BitVec.ofNat 8 x.target) (x.cyc + 2) x.time)) ∧
      ((x.action = 6 ∨ x.action = 7) ∧ 8 ≤ x.target ∨ x.action = 8 ∧ 4 ≤ x.target ∨
        (x.action = 5 ∧ (s.boot.released = false ∨ (s.halfOn .h0 = false ∧ s.halfOn .h1 = false))) ∨
        (x.action = 6 ∧ ∃ n : Fin 8, n.val = x.target ∧ (s.pchOn n = false ∨ s.halfOn (pchHalf n.val) = false)) ∨
        (x.action = 7 ∧ ∃ n : Fin 8, n.val = x.target ∧ (s.frec[n].st = .off ∨ s.frec[n].cfg.bit 0 = false)) ∨
        (x.action = 8 ∧ ∃ n : Fin 4, n.val = x.target ∧
          (s.dchOn n = false ∨ s.dch[n].mode ≠ 2 ∨ s.halfOn (excHalf n.val) = false)) →
        exec .internalTrigger s = .next (w.dropTrig x.slot)))

/-- Prediction sets switch, and internal triggers arrive. -/
def Obligations.PredictionsAndTriggers : Prop :=
  Parts.PredictionSwitches ∧ Parts.InternalTriggers


/-! ## Current sensing, torque monitor, safe state -/

/-- Bits of the current inputs (R292, R293, R295): the latest strobe of a running SDCLK_k, or the next one of its 20-cycle grid once
it has been taken, shifts one bit into every input of both halves that takes that clock; the density stays within 16 bits. A trigger
that has reached SDM by an input's own sample edge, SMP_DLY after the strobe, gets the value of the input there, or is dropped by
the input if its data path is not full (R297, assumption 45). -/
def Parts.CurrentBits : Prop :=
  (∀ bits : List Bool, -32768 ≤ fastD bits ∧ fastD bits ≤ 32767) ∧
  ∀ (s : State) (k : Fin 2) (b : Byte),
    let c := (max (s.clk.cyc - 19) s.sdm.next[k] + 19) / 20 * 20
    (s.sdclkRuns k.val = false → exec (.sdmBitSample k b) s = .next s) ∧
    (s.sdclkRuns k.val = true → Completes (.sdmBitSample k b) s (fun t =>
      max s.clk.cyc c ≤ t.clk.cyc ∧ t.clk.cyc ≤ max s.clk.cyc (c + 19) ∧ t.sdm.next[k] = c + 1 ∧
      t.quiet = ({ s with clk := t.clk, sdm := t.sdm } : State).quiet ∧
      (∀ (h : Half) (n : Fin 8), t.inAt h n = if s.sdmTakes k h n = true then
          (s.inAt h n).shift (b.getLsbD n.val) (signedOf 16 (s.SDM_THR_HI_THR h n.val)) (signedOf 16 (s.SDM_THR_LO_THR h n.val))
        else s.inAt h n) ∧
      (∀ n : Fin 8, t.sdm.peak[n] = if s.sdmTakes k s.lead n = true
        then max s.sdm.peak[n] (t.inAt s.lead n).fast.natAbs else s.sdm.peak[n]) ∧
      ∀ (j : Nat) (p : SdmPend), s.sdm.pendLatch[j]? = some p →
        let edge (n : Fin 8) : Prop := s.sdmTakes k s.lead n = true ∧ p.lacks n = true ∧ p.cyc ≤ c + s.smpDly s.lead n
        ∃ g l, t.sdm.pendLatch[j]? = some { p with got := p.got ++ g, lost := l } ∧
          (∀ (n : Fin 8) (v : Int), (n, v) ∈ g ↔ edge n ∧ t.canLatch n = true ∧
            v = s.scaleI s.lead n (dataD (t.inAt s.lead n).bits)) ∧
          ∀ n : Fin 8, l.getLsbD n.val = true ↔ p.lost.getLsbD n.val = true ∨ (edge n ∧ t.canLatch n = false)))

/-- Outputs and latches (R295 to R297, R301, R302, R311, R313): the outputs and the torque monitors run on the common grid of 1,280
cycles; outputs that differ between the copies are counted; a trigger all of whose inputs have had their sample edge shows their
values and its TIME, and counts as dropped at its slot where an input has dropped it or takes none; a copy's torque monitor holds
while the drive's safe state is asserted, until a release gap has ended (assumptions 18, 30, 45, 58). -/
def Parts.CurrentOutputs : Prop :=
  ∀ s : State,
    let e := (max s.clk.cyc s.sdm.decNext + 1279) / 1280 * 1280
    (s.boot.released = false → exec .sdmDecimatedOutput s = .next s) ∧
    (s.boot.released = true → Completes .sdmDecimatedOutput s (fun t => t.clk.cyc = e ∧ t.sdm.decNext = e + 1 ∧
      t.free = s.free + 1 ∧ t.cfg = s.cfg ∧ t.sdm.latch = s.sdm.latch ∧
      (∀ (h : Half) (n : Fin 8), t.inAt h n = if s.halfOn h = true ∧ s.sdmFiltered h n = true then
          { s.inAt h n with
            decD := dataD (s.inAt h n).bits, decI := s.scaleI h n (dataD (s.inAt h n).bits), outs := (s.inAt h n).outs + 1 }
        else s.inAt h n) ∧
      (∀ n : Fin 8, t.sdm.mis[n] = if s.halfOn .h0 = true ∧ s.halfOn .h1 = true ∧ s.sdmFiltered .h0 n = true ∧
        s.sdmFiltered .h1 n = true ∧ (t.inAt .h0 n).decD ≠ (t.inAt .h1 n).decD then s.sdm.mis[n] + 1 else 0) ∧
      ∀ (h : Half) (d : Drive), s.halfOn h = true →
        let x := (s.sdm.tq.get h)[d]
        let y := (t.sdm.tq.get h)[d]
        let sum := t.phaseI h (s.phaseIn h d 0) + t.phaseI h (s.phaseIn h d 1) + t.phaseI h (s.phaseIn h d 2)
        y.evals = x.evals + 1 ∧ y.holdWhy.getLsbD 0 = (s.SDM_TQ_CFG_EN h d.val != 1) ∧
        (y.holdWhy ≠ 0 → y.refF = (s.torqueRef h d).1 ∧ y.devCnt = 0) ∧
        (s.safe[d].ssl.h0 = true ∨ s.safe[d].ssl.h1 = true ∨ s.safe[d].gapUntil.isSome = true → y.holdWhy.getLsbD 3 = true) ∧
        y.sumRun = if s.phsumJudged h d = true ∧ s.SDM_TQ_CHK_SUM_TOL h d.val < sum.natAbs then x.sumRun + 1 else 0)) ∧
    (s.latchTake s.sdm.pendLatch = none → exec .sdmLatch s = .next s) ∧
    (∀ p rest, s.latchTake s.sdm.pendLatch = some (p, rest) → Completes .sdmLatch s (fun t =>
      t.clk = s.clk ∧ t.sdm.pendLatch = rest ∧ t.cfg = s.cfg ∧ t.sdm.inp = s.sdm.inp ∧
      (∀ (n : Fin 8) (v : Int), (n, v) ∈ p.got → (∀ w, (n, w) ∈ p.got → w = v) →
        t.sdm.latch[n] = v ∧ t.sdm.latTime[n] = p.time) ∧
      (∀ n : Fin 8, (∀ v, (n, v) ∉ p.got) → t.sdm.latch[n] = s.sdm.latch[n] ∧ t.sdm.latTime[n] = s.sdm.latTime[n]) ∧
      ∀ (i : Fin 256) (m : BitVec 8), p.src = [(i, m)] → t.aev.slot[i].drop =
        if ∃ n : Fin 8, m.getLsbD n.val = true ∧ p.mask.getLsbD n.val = true ∧
          (p.lost.getLsbD n.val = true ∨ (p.lacks n = true ∧ s.canSample n = false))
        then min 63 (s.aev.slot[i].drop + 1) else s.aev.slot[i].drop))

/-- HI, LO and STUCK of either copy (R298 to R300), FILT_MIS (R301) after two outputs of an input that differ between the copies
(assumption 30), PHSUM (R302): each is reported when its run is long enough, outside hold-off windows, and changes nothing else;
PEAK_CLR. -/
def Parts.CurrentFaults : Prop :=
  ∀ (s : State) (n : Fin 8) (d : Drive) (h : Half), s.powered .sdm = true → s.halfOn h = true →
    let x := s.inAt h n
    let live (b : Nat) (t : State) : Prop := t.liveBit .sdm h.copy b = true ∧ t.quiet = s.quiet
    (s.sdmJudged h n = true → 31 ≤ x.cnt → s.ocCnt h n ≤ x.hiRun → Completes (.hi n h) s (live (3 * n.val))) ∧
    (x.hiRun < s.ocCnt h n → exec (.hi n h) s = .next s) ∧
    (s.sdmJudged h n = true → 31 ≤ x.cnt → s.ocCnt h n ≤ x.loRun → Completes (.lo n h) s (live (3 * n.val + 1))) ∧
    (x.loRun < s.ocCnt h n → exec (.lo n h) s = .next s) ∧
    (s.boot.released = true → s.sdmJudged h n = true →
      32 ≤ x.sameRun ∨ s.sdclkRuns (s.SDM_CFG_CLK_SRC h n.val) = false → Completes (.stuck n h) s (live (3 * n.val + 2))) ∧
    ((∃ i : Fin 8, 2 ≤ s.sdm.mis[i]) → Completes .filtMis s (fun t => t.stickyBit .sdm 30 = true ∧
      t.quiet = ({ s with sdm := { s.sdm with mis := s.sdm.mis.map fun j => min 1 j } } : State).quiet)) ∧
    ((∀ i : Fin 8, s.sdm.mis[i] < 2) → exec .filtMis s = .next s) ∧
    (((s.sdm.tq.get h)[d]).sumRun < max 1 (s.SDM_TQ_CHK_SUM_CNT h d.val) → exec (.phsum d h) s = .next s) ∧
    (max 1 (s.SDM_TQ_CHK_SUM_CNT h d.val) ≤ ((s.sdm.tq.get h)[d]).sumRun → Completes (.phsum d h) s (fun t =>
      (s.heldOff .sdm (28 + d.val) = false → t.liveBit .sdm h.copy (28 + d.val) = true) ∧ t.quiet = s.quiet)) ∧
    exec .sdmPeakClr s = .next { s with wst := .ok, sdm := { s.sdm with peak := Vector.replicate 8 0 } }

/-- Current inputs and their faults. -/
def Obligations.CurrentSensing : Prop :=
  Parts.CurrentBits ∧ Parts.CurrentOutputs ∧ Parts.CurrentFaults

/-- The torque monitor's faults (R310, R312): TQ_DEV by the holder's copy, whose count starts again; TQ_STALE when the command has
not been written for CMD_TMO; a write of the command restarts that time and ends TQ_STALE. -/
def Parts.TorqueMonitor : Prop :=
  ∀ (s : State) (d : Drive) (v : Word), s.powered .sdm = true →
    let e := s.sdm.tqTimer[d] + 400 * max 1 (s.SDM_TQ_TIME_CMD_TMO s.lead d.val)
    (∀ h, s.holderHalf d = some h → max 1 (s.SDM_TQ_CHK_TQ_CNT h d.val) ≤ ((s.sdm.tq.get h)[d]).devCnt →
      Completes (.tqDev d) s (fun t => ((t.sdm.tq.get h)[d]).devCnt = 0 ∧
        t.quiet = ({ s with sdm := { s.sdm with tq := t.sdm.tq } } : State).quiet ∧
        (s.heldOff .sdm (24 + d.val) = false → t.stickyBit .sdm (24 + d.val) = true))) ∧
    (∀ h, s.holderHalf d = some h → ((s.sdm.tq.get h)[d]).devCnt < max 1 (s.SDM_TQ_CHK_TQ_CNT h d.val) →
      exec (.tqDev d) s = .next s) ∧
    (s.boot.released = true → s.SDM_TQ_CFG_EN s.lead d.val = 1 → s.SDM_TQ_CFG_REF_SRC s.lead d.val = 0 →
      Completes (.tqStale d) s (fun t => t.clk.cyc = max s.clk.cyc e ∧
        t.quiet = ({ s with clk := t.clk } : State).quiet ∧
        ((s.waitTill e).heldOff .sdm (26 + d.val) = false →
          (s.halfOn .h0 = true → t.liveBit .sdm .h0 (26 + d.val) = true) ∧
          (s.halfOn .h0 = false → s.halfOn .h1 = true → t.liveBit .sdm .h1 (26 + d.val) = true)))) ∧
    ((s.halfOn .h0 = true ∨ s.halfOn .h1 = true) → Completes (.tqCmdWrite d v) s (fun t =>
      t.quiet = ({ s.setDup (tqAddr d 0x1C) v with
        wst := .ok, sdm := { s.sdm with tqTimer := vset s.sdm.tqTimer d s.clk.cyc } } : State).quiet ∧
      ∀ h : Half, s.halfOn h = true → t.liveBit .sdm h.copy (26 + d.val) = false))

/-- A release request (R307, R308, R462) is DENIED without a single holder, with a standing source or a DIS latch; accepted, it
clears the latches, relocks every block, releases the pins, SAFE_INH after REL_GAP where the holder is in ASC form; a request
accepted while that gap runs does not shorten it; the drive's safe state ends with the gap (R311). -/
def Parts.ReleaseRequest : Prop :=
  ∀ (s : State) (d : Drive),
    (s.holderHalf d = none ∨ s.mayRelease d = false → exec (.relCmd d) s = .next { s with wst := .denied }) ∧
    (∀ h, s.holderHalf d = some h → s.mayRelease d = true →
      let gap := if s.safe[d].form.get h = true ∧ s.safe[d].ssl.get h = true
        then some (s.clk.cyc + 400 * max 1 (s.SDM_GLB_CFG_REL_GAP h)) else s.safe[d].gapUntil
      Completes (.relCmd d) s (fun t =>
        t = { s with safe := t.safe, unlock := t.unlock, pads := t.pads, wst := .ok } ∧ t.unlock.blocks = 0 ∧
        t.safe = vset s.safe d { s.safe[d] with
          ssl := ⟨false, false⟩, rel := true, gapUntil := gap
          relAt := if s.safe[d].ssl.get h = true then s.clk.cyc else s.safe[d].relAt } ∧
        (s.sys.scan = false → s.boot.released = true →
          (t.pads.asc[d]).sink = false ∧ (t.pads.inh[d]).sink = gap.isNone))) ∧
    (∀ k, s.safe[d].gapUntil = some k → Completes (.relGapEnd d) s (fun t =>
      t.clk.cyc = max s.clk.cyc k ∧ t.safe = vset s.safe d { s.safe[d] with gapUntil := none, relAt := t.clk.cyc } ∧
      t = { s with clk := t.clk, safe := t.safe, pads := t.pads } ∧
      (s.sys.scan = false → s.boot.released = true → (s.holderHalf d).isSome = true → s.safe[d].rel = true →
        s.safe[d].ssl = ⟨false, false⟩ → (t.pads.inh[d]).sink = true))) ∧
    (s.safe[d].gapUntil = none → exec (.relGapEnd d) s = .next s)

/-- The torque monitor, and release from the safe state. -/
def Obligations.TorqueAndRelease : Prop :=
  Parts.TorqueMonitor ∧ Parts.ReleaseRequest

/-- The DIS latches (R309) and the hold time of a safe-state pin (R45): set, DIS_REQ is asserted and both drives go to safe state;
they clear unless a whole-device source stands with DIS_ON_DEV set; a pin that nothing drives takes its default 2.0 to 3.0 µs
later, the moment being free (assumption 5). -/
def Obligations.DisLatchesAndPins : Prop :=
  ∀ s : State,
    Completes .disSet s (fun t => t.wst = .ok ∧ t.sdm.dis = ⟨true, true⟩ ∧ t.cfg = s.cfg ∧
      (∀ d : Drive, t.safe[d].ssl = ⟨true, true⟩ ∧ t.safe[d].rel = false ∧ t.safe[d].gapUntil = none) ∧
      (s.boot.released = true → (s.halfOn .h0 = true ∨ s.halfOn .h1 = true) → t.pads.dis.sink = true)) ∧
    (s.SDM_GLB_CFG_DIS_ON_DEV s.lead = 1 ∧ s.devSafe = true → exec .disClear s = .next { s with wst := .denied }) ∧
    (¬(s.SDM_GLB_CFG_DIS_ON_DEV s.lead = 1 ∧ s.devSafe = true) → Completes .disClear s (fun t =>
      t = { s with wst := .ok, sdm := { s.sdm with dis := ⟨false, false⟩ }, pads := t.pads } ∧
      (s.sys.scan = false → s.boot.released = true → (s.holderHalf 0).isSome = true →
        (s.holderHalf 1).isSome = true → t.pads.dis.sink = false))) ∧
    (∀ p k, (s.vpin p).holdUntil = some k → Completes (.safePinHoldExpiry p) s (fun t =>
      t.vpin p = { s.vpin p with sink := false } ∧ max s.clk.cyc (k + 800) ≤ t.clk.cyc ∧
      t.clk.cyc ≤ max s.clk.cyc (k + 1200) ∧ t.free = s.free + 1 ∧
      t = { s with clk := t.clk, free := t.free, pads := t.pads })) ∧
    (∀ p, (s.vpin p).holdUntil = none → exec (.safePinHoldExpiry p) s = .next s)


/-! ## Auxiliary measurement -/

/-- A visit (R321, R323): after the settle time its conversion starts, after T_conv the conversion is kept and the next one
settles, or the visit is over; its end publishes the result, with VALID only without overrange and without a live cause, and
SENS_k follows the causes (R326, R330, R331). During a visit the current flows from IEXA to IEXB, in the negative-polarity
conversions the other way (R321, R324). The stamp of a result is TIME at the midpoint of its signal conversions, taken once that
has passed (R379). -/
def Parts.AuxVisits : Prop :=
  ∀ (s : State) (c : Fin 2) (v : AuxVisit), s.aux.conv[c].visit = some v →
    let u := s.waitTill v.till
    let put (w : AuxVisit) (o : BitVec 16) : Host.Outcome State Fault Refusal := .next { u with aux := { s.aux with
      cmwOut := o, conv := vset s.aux.conv c { s.aux.conv[c] with visit := some w } } }
    let pins := pinMask v.set.named
    (v.settling = true → v.ended = none → exec (.auxSettleEnd c) s = put { v with
      settling := false, till := v.till + v.set.tconv, t0 := if v.convs = [] then v.till else v.t0 } s.aux.cmwOut) ∧
    (v.settling = false ∨ v.ended.isSome = true → exec (.auxSettleEnd c) s = .next s) ∧
    (∀ m : Conv, v.settling = false → v.ended = none →
      let last := decide (v.nConv ≤ v.convs.length + 1)
      exec (.auxConversionDone c m) s = put { v with
        convs := m :: v.convs, settling := !last, till := v.till + v.set.settle
        stamp := if v.stamp.isSome = true ∨ 2 * u.clk.cyc < v.mid2 then v.stamp else
          some (wrapInt 96 ((u.clk.time : Int) - ((2 * u.clk.cyc - v.mid2 : Nat) : Int) * timeStepOf u.clk.rate / 2))
        ended := if last then some v.till else none } ((s.aux.cmwOut &&& ~~~pins) ||| (m.outNow &&& pins))) ∧
    (∀ m : Conv, v.settling = true ∨ v.ended.isSome = true → exec (.auxConversionDone c m) s = .next s) ∧
    (∀ a, v.ended = none → v.set.pin 4 = some a →
      s.auxSource c = if v.set.alt = true ∧ v.convs.length % 2 = 1 ∧ (v.set.pin 5).isSome = true
        then some ((v.set.pin 5).getD 0, some a, v.set.iex) else some (a, v.set.pin 5, v.set.iex)) ∧
    (v.ended = none → exec (.auxVisitEnd c) s = .next s) ∧
    (∀ k, v.ended = some k → s.powered .aux = true → Completes (.auxVisitEnd c) s (fun t =>
      let y := s.aux.slot[v.slot]
      let r := v.result y.rLead s.free
      let live := v.causes r ||| s.auxCond v.slot
      let z := t.aux.slot[v.slot]
      z.value = r.value ∧ z.temp = r.temp ∧ z.p = r.p ∧ z.time = BitVec.ofNat 64 (v.stamp.getD 0 / 2 ^ 32) ∧
      z.resCnt = (y.resCnt + 1) % 65536 ∧ z.cause = v.causes r ∧
      z.tag.getLsbD 0 = (!v.clipped && live == 0) ∧ z.tag.getLsbD 1 = (live != 0) ∧
      t.liveBit .aux .shared v.slot.val = (live != 0) ∧ t.cfg = s.cfg ∧ t.fram = s.fram ∧ t.free = s.free + 1 ∧
      t.quiet = ({ s with aux := t.aux, free := t.free } : State).quiet))

/-- The rest of AUX: visits that may not go on are left, and a slot blocked then shows FAULT, without VALID (R331); LIM goes live
after LIM_CNT results (R332); clearing a bit of SLOT_EN clears VALID (R331); a read of AUX_k_RES captures the result (R333);
FW_CODE and its output (R337). -/
def Parts.AuxSlots : Prop :=
  ∀ (s : State) (k : Fin 16) (n : Fin 2) (v : Word), s.powered .aux = true →
    let y := s.aux.slot[k]
    let u := s.setReg 0xB0040 (v &&& 0xFFFF)
    let left (w : State) : State := (w.dropVisit 0).dropVisit 1
    Completes (.auxSlotBlocked k) s (fun t => t.quiet = ({ s with aux := t.aux } : State).quiet ∧
      t.liveBit .aux .shared k.val = ((left s).auxCause k != 0) ∧
      ((left s).auxCond k ≠ 0 → t.aux.slot[k].tag = (y.tag ||| 2) &&& 0xFE ∧ t.aux.slot[k].started = false) ∧
      ((left s).auxCond k = 0 → t.aux.slot[k].tag = y.tag)) ∧
    (max 1 (s.AUX_LIM_LO_LIM_CNT k.val) ≤ y.limRun → Completes (.lim k) s (fun t =>
      t.liveBit .aux .shared (16 + k.val) = true ∧ t.quiet = s.quiet)) ∧
    (y.limRun < max 1 (s.AUX_LIM_LO_LIM_CNT k.val) → exec (.lim k) s = .next s) ∧
    Completes (.slotEnWrite v) s (fun t => t.wst = .ok ∧ t.quiet = ({ u with aux := t.aux, wst := .ok } : State).quiet ∧
      (s.auxEn k = true → v.bit k.val = false → t.aux.slot[k].tag.getLsbD 0 = false) ∧
      (v.bit k.val = true → (left u).auxCond k = 0 → t.aux.slot[k].tag = y.tag)) ∧
    (s.halfOn (s.auxHalf k) = true → Store.wf (fun _ => 0) s.capt = true → Completes (.auxResRead k) s (fun t =>
      t = { s with capt := t.capt, wst := .ok } ∧ t.captured (auxAddr k 0x24) = Word.put 0 16 (wrapInt 16 y.temp) ∧
      t.captured (auxAddr k 0x28) = Word.put 0 24 y.leadR ∧ t.captured (auxAddr k 0x2C) = y.time.setWidth 32)) ∧
    (s.halfOn (Half.byNum n.val) = true → Completes (.fwCodeWrite n v) s (fun t =>
      t = { (s.setReg (0xB0088 + n.val * 0x10) (v &&& 0xFFF)).routEval n with wst := .ok }))

/-- Auxiliary measurement: visits and slots. -/
def Obligations.AuxMeasurement : Prop :=
  Parts.AuxVisits ∧ Parts.AuxSlots

/-! ## Faults -/

/-- Writes of the fault header (R7, R9, R10, R346, R347, R362, R364): BLZ_CLR empties the Blaze, or is DENIED while REACT_BUSY is
set; reports of the same cycle come after it, the first of them being the new Blaze; a sticky bit clears where 1 is written and its
live bit is clear, and a refusal still completes with OK; a bit newly set in FLT_FORCE over a source that is not live is a report,
bits without a source staying 0 (assumption 50); CHK_INV keeps two bits for each checker, and a write of that of MEM has the runs of
Cruise brought up to the instant, since it suspends item 10 or lets it go on (R370). -/
def Obligations.FaultHeaderWrites : Prop :=
  ∀ (s : State) (p : Page) (v : Word), s.pageOn p = true →
    let u := s.setReg (p.base + 0x10) (v &&& srcMask p)
    let x := (s.hdr p).now
    (s.reactBusy p = true → exec (.blzClr p) s = .next { s with wst := .denied }) ∧
    (s.reactBusy p = false → x.n = 0 ∨ x.cyc ≠ s.clk.cyc → exec (.blzClr p) s =
      .next { (s.updHdr p fun f => { f with full := false, cnt := 0, cntSat := false }) with wst := .ok }) ∧
    (s.reactBusy p = false → x.n ≠ 0 → x.cyc = s.clk.cyc → Completes (.blzClr p) s (fun t => t.wst = .ok ∧
      (t.hdr p).full = true ∧ (t.hdr p).cnt = x.n - 1 ∧ (t.hdr p).cntSat = false ∧ (t.hdr p).bCode = x.code ∧
      (t.hdr p).bSrc = x.src ∧ (t.hdr p).bAddr = x.addr ∧ t.quiet = ({ s with wst := .ok } : State).quiet)) ∧
    Completes (.stickyClear p v) s (fun t => t.wst = .ok ∧
      ∀ b, b < 32 → ((∃ n, p = .pch n) → b ≠ 5 ∧ v.bit 5 = false) →
        t.stickyBit p b = (s.stickyBit p b && (!v.bit b || (s.fltLive p).getLsbD b))) ∧
    Completes (.fltForceWrite p v) s (fun t => t.quiet = ({ u with wst := .ok } : State).quiet ∧
      (s.powered p = true → ∀ b, b < 32 → (u.fltForce p).getLsbD b = true → (s.fltLive p).getLsbD b = false →
        t.stickyBit p b = true)) ∧
    exec (.chkInvWrite p v) s =
      .next { (if p = .mem then s.crzMark else s).setReg (p.base + 0x34) (v &&& BitVec.ofNat 32 (4 ^ p.nChk - 1)) with
        wst := .ok }

/-- What a report does (R343 to R351, R358): the sticky bit sets; the first report becomes the Blaze, later ones leave it and
count up to 65,535; of several reports in one cycle the copy in H0, then the lower number, goes first (R344); an unmasked one,
first or newly sticky, is offered to the fault queue of its block; after release its reaction sets the safe state of the drives it
affects, of both drives, or asks the other half to take over; a source of the half that does not hold the drive asks for nothing
(Table 10.2). REACT_BUSY sets for 5 µs at a reaction, and stays as it was where the report acts as interrupt only. Code 3 acts on
both drives even where the source affects none (assumption 62). -/
def Obligations.ReportsTaken : Prop :=
  ∀ (s : State) (p : Page) (b : Nat) (c : Copy) (m : Master), b < 32 →
    let f := s.hdr p
    let t := s.report p b c m
    let g := t.hdr p
    let q := faultQueue p
    let rank (h0 : Bool) (n : Nat) : Nat := (if h0 = true then 0 else 256) + n
    let first := f.now.n = 0 ∨ f.now.cyc ≠ s.clk.cyc
    let safeNow (d : Drive) : Prop := t.safe[d].ssl = ⟨true, true⟩ ∧ t.safe[d].rel = false
    (s.powered p = false → t = s) ∧
    (s.powered p = true → t.stickyBit p b = true ∧ t.cfg = s.cfg ∧ t.clk = s.clk ∧
      (f.full = false → first → g.full = true ∧ g.bTime = s.now ∧ g.bCode &&& 0xFF = BitVec.ofNat 32 b ∧ g.cnt = f.cnt) ∧
      (f.full = true → g.cnt = max f.cnt (min 65535 (f.cnt + 1)) ∧ g.cntSat = (f.cntSat || decide (65534 ≤ f.cnt)) ∧
        (first → g.bAddr = f.bAddr ∧ g.bTime = f.bTime ∧ g.bCode = f.bCode ∧ g.bSrc = f.bSrc) ∧
        (¬first → g.bCode = if f.now.was = false ∧
            rank (c == .h0) b < rank (f.now.src.fld 16 2 == 1) (f.now.code.fld 0 8) then codeWord p b else f.bCode)) ∧
      ((s.fltMask p).getLsbD b = false → first → f.full = false ∨ f.sticky.getLsbD b = false →
        (t.que.q[q]).nseq = ((s.que.q[q]).nseq + 1) % 2 ^ 64) ∧
      ((s.fltMask p).getLsbD b = true ∨ (f.full = true ∧ f.sticky.getLsbD b = true) → first → t.que = s.que) ∧
      (s.boot.released = false ∨ s.reaction p b = 0 → t.safe = s.safe ∧ t.pads = s.pads) ∧
      (s.boot.released = true → s.reaction p b = 3 → safeNow 0 ∧ safeNow 1) ∧
      (s.boot.released = true → s.reaction p b = 2 → ∀ d : Drive, s.affects p b d = true → safeNow d) ∧
      g.busyUntil = (if s.taken p b (s.reaction p b) (s.affects p b) = 0 then f.busyUntil else max f.busyUntil (s.clk.cyc + 2000)) ∧
      (∀ h d, s.boot.released = true → s.reaction p b = 1 → s.scope p b = some h → s.affects p b d = true →
        (s.holds d h = false → t.safe[d] = s.safe[d] ∧ t.xd[d] = { s.xd[d] with mate := some s.clk.cyc }) ∧
        (s.holds d h = true → s.hoEn d = false → safeNow d) ∧
        (s.hoEn d = true → s.holds d h = true → s.xd[d].busy = false → s.xd[d].req = [] →
          t.xd[d].req = [⟨h, p, b, s.clk.cyc⟩])))

/-- The windows and checkers (R346, R357, R360, R361, R363): REACT_BUSY and hold-off windows end in time; a parity error sets UE_0
while it stands; ALIVE toggles every half period; a target that does not answer is reported and DENIED. -/
def Parts.FaultEvents : Prop :=
  ∀ (s : State) (p : Page),
    (Completes (.reactBusyEnd p) s (fun t => t = s.waitTill (s.hdr p).busyUntil ∧ t.reactBusy p = false)) ∧
    (∀ k, s.nextHoldEnd p = some k → Completes (.holdoffEnd p) s (fun t => s.clk.cyc < k ∧ t.clk.cyc = k ∧
      t.quiet = ({ s with clk := t.clk } : State).quiet)) ∧
    (s.nextHoldEnd p = none → Completes (.holdoffEnd p) s (fun t => t.quiet = s.quiet)) ∧
    (s.badPar.any (inPage p) = true → s.powered p = true → (s.hdr p).ueLive.getLsbD 0 = false →
      Completes (.parityError p) s (fun t => (t.hdr p).ue.getLsbD 0 = true ∧ (t.hdr p).ueLive.getLsbD 0 = true ∧
        t.quiet = s.quiet)) ∧
    (s.badPar.any (inPage p) = false ∨ (s.hdr p).ueLive.getLsbD 0 = true → exec (.parityError p) s = .next s) ∧
    (s.alive.running = false ∨ s.devSafe = true → exec .aliveEdge s = .next s) ∧
    (s.alive.running = true → s.devSafe = false → Completes .aliveEdge s (fun t =>
      t.clk.cyc = max s.clk.cyc s.alive.next ∧ t.alive.level = !s.alive.level ∧
      t.alive.next = s.alive.next + 400 * clampNat 5 500 s.SYS_ALIVE_CFG_HALF_US ∧
      (s.pads.heldCore = false → t.alive.pad = !s.alive.level) ∧ (s.pads.heldCore = true → t.alive.pad = s.alive.pad) ∧
      t = { s with clk := t.clk, alive := t.alive })) ∧
    (∀ m addr w, Completes (.tgtTmo m addr w) s (fun t => t.wst = .denied ∧ t.stickyBit .fab 2 = true ∧
      (t.fltLive .fab).getLsbD 2 = true ∧
      t.quiet = ({ s with wst := .denied } : State).quiet))

/-- The lock (R461, R462): both writes of the sequence in 10 µs and the named blocks are open for UNLK_MS; out of order, late, or
with a release request standing, DENIED; a block number that names none, RANGE; relocking, the end of the window and of the first
write's 10 µs. A second write for another block spends the first write too (assumption 63). -/
def Parts.UnlockSequence : Prop :=
  ∀ (s : State) (blk : Byte),
    (unlockMask blk.toNat = none → ∀ i ∈ [Instr.unlockFirst blk, .unlockSecond blk, .relock blk],
      exec i s = .next { s with wst := .range }) ∧
    (∀ m, unlockMask blk.toNat = some m →
      exec (.unlockFirst blk) s = .next { s with wst := .ok, unlock := { s.unlock with first := some (blk, s.clk.cyc) } } ∧
      exec (.relock blk) s = .next { s with wst := .ok, unlock := { s.unlock with blocks := s.unlock.blocks &&& ~~~m } } ∧
      (∀ k, s.unlock.first = some (blk, k) → s.clk.cyc ≤ k + 4000 → s.boot.released = true →
        s.safe[(0 : Fin 2)].rel = false → s.safe[(1 : Fin 2)].rel = false → Completes (.unlockSecond blk) s (fun t =>
          t.wst = .ok ∧ t.unlock.blocks = s.unlock.blocks ||| m ∧ t.unlock.first = none ∧ t.unlock.seen = true ∧
          (∀ i : Fin 18, t.unlock.expiry[i] = if m.getLsbD i.val then
            s.clk.cyc + 400000 * max 1 s.SYS_UNLOCK_CFG_UNLK_MS else s.unlock.expiry[i]) ∧
          (∀ i : Fin 18, m.getLsbD i.val = true → t.isOpen i.val = true) ∧
          t = { s with unlock := t.unlock, wst := .ok })) ∧
      (s.unlock.first = none ∨ s.safe[(0 : Fin 2)].rel = true ∨ s.safe[(1 : Fin 2)].rel = true ∨ s.boot.released = false ∨
          (∃ b k, s.unlock.first = some (b, k) ∧ (b ≠ blk ∨ k + 4000 < s.clk.cyc)) →
        exec (.unlockSecond blk) s = .next { s with wst := .denied, unlock := { s.unlock with first := none } })) ∧
    (∀ b : Fin 18, s.unlock.blocks.getLsbD b.val = true → Completes (.unlockTimeout b) s (fun t =>
      t.clk.cyc = max s.clk.cyc s.unlock.expiry[b] ∧ t.unlock.blocks = bput s.unlock.blocks b.val false ∧
      (s.waitTill s.unlock.expiry[b]).isOpen b.val = false ∧
      t = { s with clk := t.clk, unlock := t.unlock })) ∧
    (∀ b k, s.unlock.first = some (b, k) → Completes .unlockFirstExpiry s (fun t =>
      t.clk.cyc = max s.clk.cyc (k + 4001) ∧ t = { s with clk := t.clk, unlock := { s.unlock with first := none } }))

/-- Events of the fault logic, and the lock of the registers. -/
def Obligations.FaultEventsAndLock : Prop :=
  Parts.FaultEvents ∧ Parts.UnlockSequence

/-! ## Cruise -/

/-- Rounds of Cruise (R366, R368, Table 16.2): a round begins PERIOD_MS after the one before; one that is still in progress is
completed first, every item that can run among those left (assumption 39). A restart asked for has the new round follow the runs in
progress. -/
def Parts.CruiseRoundStarts : Prop :=
  ∀ s : State,
    let e := max s.clk.cyc (s.crz.roundAt + 400000 * max 1 s.CRZ_SCHED_PERIOD_MS)
    let begun (at' : Nat) (t : State) : Prop := t.crz.rounds = s.crz.rounds + 1 ∧ t.crz.roundAt = at' ∧ t.crz.inRound = true
    let rest (t : State) : Prop := t.quiet = ({ s with clk := t.clk, crz := t.crz, wst := t.wst } : State).quiet
    (s.cruiseOn = true → s.crz.idle = true → s.crz.todo = [] →
      CompletesVoting .cruiseRoundStart s (fun t => t.clk.cyc = e ∧ begun e t ∧ rest t)) ∧
    (s.cruiseOn = true → s.crz.idle = false → CompletesVoting .cruiseRoundStart s (fun t => t.clk.cyc = e ∧ rest t ∧
      t.crz.rounds = s.crz.rounds ∧ t.crz.due = true ∧ (∀ (l : Fin 3) i, s.crz.act[l] = some i → t.crz.act[l] = some i) ∧
      (s.crz.again = false → s.crz.todo.Pairwise (· < ·) → ∀ i ∈ s.crz.todo, s.itemEn i = true → s.itemHalfOn i = true →
        i ∈ t.crz.todo ∨ t.crz.act[laneOf i] = some i))) ∧
    (s.cruiseOn = false → CompletesVoting .cruiseRoundStart s (fun t => t = { s with clk := t.clk } ∧ t.clk.cyc = e)) ∧
    (s.cruiseOn = true → s.crz.idle = true →
      CompletesVoting .restartRnd s (fun t => t.wst = .ok ∧ t.clk = s.clk ∧ begun s.clk.cyc t ∧ rest t)) ∧
    (s.cruiseOn = true → s.crz.idle = false → CompletesVoting .restartRnd s (fun t => t.wst = .ok ∧ t.clk = s.clk ∧ rest t ∧
      t.crz.rounds = s.crz.rounds ∧ t.crz.again = true ∧ t.crz.act = s.crz.act ∧ t.crz.todo = [])) ∧
    (s.cruiseOn = false → exec .restartRnd s = .next ({ s with wst := .ok } : State).domains)

/-- Runs of Cruise (R369 to R373): the end of a run latches its result once its active time is over, an incomplete one once that
exceeds twice the nominal one, with the segment or the pattern count of a failure; a failure is reported and counted. A yield, of
at most 1,000 ns, is counted, and has a run that goes on wait; item 10 starts its segment again, and neither runs nor yields while
it is suspended (assumption 39). -/
def Parts.CruiseRuns : Prop :=
  ∀ (s : State) (i : Fin 15) (ok sig : Bool) (detail : BitVec 24) (ns : Nat),
    let l := laneOf i
    let r := runResult i ok sig
    let m := s.crzMark
    let n := min 1000 ns
    let runs := s.crz.act[l] = some i ∧ s.runRate i ≠ 0
    (¬runs ∨ s.stopsAt i r detail = false → exec (.cruiseRunEnd i ok sig detail) s = .next s.domains) ∧
    (runs → s.stopsAt i r detail = true → s.powered .crz = true → CompletesVoting (.cruiseRunEnd i ok sig detail) s (fun t =>
      t.crz.res[i] = r ∧ t.clk.cyc = max s.clk.cyc (m.runDue i r detail) ∧ t.crz.lastEnd[l] = some (i, t.clk.cyc) ∧
      t.quiet = ({ s with clk := t.clk, crz := t.crz } : State).quiet ∧
      (∀ j : Fin 15, j ≠ i → t.crz.res[j] = s.crz.res[j]) ∧
      t.crz.failCnt = (if r = 2 then s.crz.failCnt else min 65535 (s.crz.failCnt + 1)) ∧
      t.crz.failInfo = (if r = 2 then s.crz.failInfo else
        Word.put 28 4 i.val ||| Word.put 24 3 r ||| Word.put 0 24 (runDetail i r detail)) ∧
      (r ≠ 2 → t.stickyBit .crz l.val = true) ∧
      t.crz.roles = (if r = 2 ∧ i = 12 then s.crz.roles ^^^ 1 else if r = 2 ∧ i = 13 then s.crz.roles ^^^ 2
        else s.crz.roles))) ∧
    (yields i = false ∨ (¬runs ∧ s.crz.lastEnd[l] ≠ some (i, s.clk.cyc)) → exec (.cruiseYield i ns) s = .next s) ∧
    (yields i = true → runs → exec (.cruiseYield i ns) s = .next { m with crz := { m.crz with
      actAt := vset m.crz.actAt l (m.crz.actAt[l] + (2 * n + 4) / 5), part := if i = 10 then 0 else m.crz.part
      yieldCnt := (s.crz.yieldCnt + 1) % 65536, yieldMax := max s.crz.yieldMax n } }) ∧
    (yields i = true → ¬runs → s.crz.lastEnd[l] = some (i, s.clk.cyc) → exec (.cruiseYield i ns) s = .next { s with crz := { s.crz with
      yieldCnt := (s.crz.yieldCnt + 1) % 65536, yieldMax := max s.crz.yieldMax n } })

/-- Rounds, runs and yields of Cruise. -/
def Obligations.CruiseRounds : Prop :=
  Parts.CruiseRoundStarts ∧ Parts.CruiseRuns


/-! ## Time base -/

/-- A write to TIME_SET_HI sets TIME to the value held in TIME_SET_LO and TIME_SET_HI, and counts as a step: recorded, counted,
reported as TIME_STEP (R381, R382). On the HL8640-QA with DISC_EN set it is DENIED without effect. With NO_BACK a backward
step becomes a slew, neither counted nor recorded. -/
def Obligations.TimeSetSteps : Prop :=
  ∀ (s : State) (hi : Word),
    let u := s.setReg 0xE0074 hi
    let v : Nat := hi.toNat * 2 ^ 32 + u.TIME_SET_LO_SET
    let e : Int := (v : Int) - (s.now.toNat : Int)
    (s.qb = false → s.TIME_CFG_DISC_EN = 1 → exec (.timeSet hi) s = .next { s with wst := .denied }) ∧
    (s.qb = true ∨ s.TIME_CFG_DISC_EN ≠ 1 → Completes (.timeSet hi) s (fun t => t.wst = .ok ∧
      t.quiet = ({ u with clk := t.clk, tim := t.tim, aux := t.aux, wst := .ok } : State).quiet ∧ t.clk.cyc = s.clk.cyc ∧
      t.aux.slot = s.aux.slot ∧
      (u.TIME_CFG_NO_BACK ≠ 1 ∨ 0 ≤ e → t.now = BitVec.ofNat 64 v ∧ t.tim.step = e ∧ t.tim.slewTill = none ∧
        t.tim.stepCnt = min 65535 (s.tim.stepCnt + 1) ∧ (s.powered .time = true → t.stickyBit .time 1 = true)) ∧
      (u.TIME_CFG_NO_BACK = 1 → e < 0 → t.now = s.now ∧ t.clk.rate < 0 ∧ t.tim.step = s.tim.step ∧
        t.tim.slewTill.isSome = true ∧ t.tim.stepCnt = s.tim.stepCnt ∧ t.stickyBit .time 1 = s.stickyBit .time 1)))

/-- The slew that replaces a backward TIME_SET while NO_BACK is set (R381): at the limit of −500 ppm, the nearest rate within it
(assumption 24), until it has absorbed the whole step; the increment of a cycle is rounded into TIME's fraction (assumption 19). -/
def Parts.BackwardSets : Prop :=
  ∀ (s : State) (hi : Word),
    let v : Nat := hi.toNat * 2 ^ 32 + (s.setReg 0xE0074 hi).TIME_SET_LO_SET
    s.qb = true ∨ s.TIME_CFG_DISC_EN ≠ 1 → (s.setReg 0xE0074 hi).TIME_CFG_NO_BACK = 1 → v < s.now.toNat →
      Completes (.timeSet hi) s (fun t => t.clk.rate = -549755813 ∧
        t.tim.slewTill = some (s.clk.cyc + slewCycles (s.now.toNat - v)))

/-- The servo (R379, R380, R381, R395): a pair on the slave port forms the offset from the receipt at the balls, RX_LAT earlier,
ends SYNC_LOSS, and steps TIME by −offset in FREE, HOLDOVER or beyond STEP_THR, else updates frequency and rate, both held within
500 ppm (assumption 24), with LOCKED after 8 good pairs; other pairs do nothing. A slew ends in time; SYNC_TMO without a pair
gives HOLDOVER and SYNC_LOSS. -/
def Parts.ServoUpdates : Prop :=
  ∀ (s : State) (i : SyncInfo),
    let on := s.qb = false ∧ s.TIME_CFG_DISC_EN = 1 ∧ s.boot.released = true
    let off : Int := i.rxTime - (s.NET_PORT_LAT_RX_LAT i.port.val : Nat) - (i.origin + i.correction + ((s.net.port[i.port]).pdly : Nat))
    let steps := s.tim.st = .free ∨ s.tim.st = .holdover ∨ 1000 * max 1 s.TIME_THR_STEP_THR < off.natAbs
    let k := s.tim.lastPair + 400000 * max 1 s.TIME_TMO_SYNC_TMO
    (¬ on ∨ s.slavePort ≠ some i.port → exec (.syncPair i) s = .next s) ∧
    (on → s.slavePort = some i.port → s.powered .time = true → Completes (.syncPair i) s (fun t =>
      t.tim.offset = off ∧ t.tim.lastPair = s.clk.cyc ∧ t.tim.gm = i.gmId ∧ t.liveBit .time .shared 0 = false ∧
      t.free = s.free + 1 ∧ t.clk.cyc = s.clk.cyc ∧
      t.quiet = ({ s with clk := t.clk, tim := t.tim, aux := t.aux, free := t.free } : State).quiet ∧
      t.aux.slot = s.aux.slot ∧
      (s.tim.gmUsed = true → s.tim.gm ≠ i.gmId → t.stickyBit .time 2 = true) ∧
      (steps → t.tim.st = .acq ∧
        (s.TIME_CFG_NO_BACK ≠ 1 ∨ off ≤ 0 → t.tim.step = -off ∧ t.tim.stepCnt = min 65535 (s.tim.stepCnt + 1) ∧
          t.clk.time = wrapInt 96 ((s.clk.time : Int) - off * 2 ^ 32)) ∧
        (s.TIME_CFG_NO_BACK = 1 → 0 < off → t.clk.rate = -549755813 ∧ t.tim.stepCnt = s.tim.stepCnt)) ∧
      (¬ steps →
        let good := if off.natAbs < s.TIME_THR_LOCK_NS then s.tim.good + 1 else 0
        let st1 : TimeSt := if s.tim.st = .acq ∧ 8 ≤ good then .locked else s.tim.st
        t.clk.time = s.clk.time ∧ t.tim.stepCnt = s.tim.stepCnt ∧ t.tim.good = good ∧
        t.tim.st = (if st1 = .locked ∧ 4 * s.TIME_THR_LOCK_NS < off.natAbs then .acq else st1) ∧
        (i.interval ≠ 0 →
          t.tim.freq = clampInt (-549755813) 549755813 (s.tim.freq +
            (-off * 2 ^ 40).tdiv ((i.interval * 2 ^ s.TIME_CFG_KI : Nat) : Int)) ∧
          t.tim.rate = clampInt (-549755813) 549755813 (t.tim.freq +
            (-off * 2 ^ 40).tdiv ((i.interval * 2 ^ s.TIME_CFG_KP : Nat) : Int))) ∧
        (s.tim.slewTill = none → t.clk.rate = t.tim.rate)))) ∧
    (s.tim.slewTill = none → exec .timeSlewEnd s = .next s) ∧
    (∀ n, s.tim.slewTill = some n → Completes .timeSlewEnd s (fun t => t.clk.cyc = max s.clk.cyc n ∧
      t.clk.rate = s.servoRate ∧ t.aux.slot = s.aux.slot ∧
      t = { s with clk := t.clk, tim := { s.tim with slewTill := none }, aux := t.aux })) ∧
    (¬ on → exec .syncLoss s = .next s) ∧
    (on → s.powered .time = true → Completes .syncLoss s (fun t => t.clk.cyc = max s.clk.cyc k ∧
      t.liveBit .time .shared 0 = true ∧
      (s.tim.st = .acq ∨ s.tim.st = .locked → t.tim = { s.tim with st := .holdover, rate := s.tim.freq }) ∧
      (s.tim.st = .free ∨ s.tim.st = .holdover → t.tim = s.tim) ∧
      t.aux.slot = s.aux.slot ∧ t.quiet = ({ s with clk := t.clk, tim := t.tim, aux := t.aux } : State).quiet))

/-- The time servo, and slews. -/
def Obligations.ServoActs : Prop :=
  Parts.BackwardSets ∧ Parts.ServoUpdates

/-! ## Network -/

/-- gPTP messages (R379, R384, R385): a master port with link sends Sync every 2^LOG_SYNC s, its Follow_Up with the egress time
stamp as it leaves, and, if PRIO1 is below 255 or the device passes a grandmaster on, an Announce every second (assumption 7); a
port with link sends Pdelay_Req every 2^LOG_PDLY s; a Sync of the slave port is relayed to an asCapable master port with the cycle
of its receipt at the balls (R378, R379), and once it has left, its Follow_Up follows with the correction of R385. -/
def Obligations.GptpMessages : Prop :=
  ∀ (s : State) (p : Fin 2) (rx c : Int) (rate : Rat),
    let x := s.net.port[p]
    let o := otherPort p
    let at' (l : Option Nat) (f : Nat) : Nat := match l with
      | some n => max s.clk.cyc (n + logCycles f)
      | none => s.clk.cyc
    let u := s.waitTill (at' x.syncAt s.NET_PTP_CFG_LOG_SYNC)
    let ann : NetMsg := u.announceFrame.msg
    let due := (s.NET_PTP_CFG_PRIO1 < 255 ∨ u.passesOn = true) ∧ ∀ n, x.annAt = some n → n + 400000000 ≤ u.clk.cyc
    let frame (t : State) : Prop := t.quiet = ({ s with clk := t.clk, net := t.net } : State).quiet
    (s.portUp p = true → s.portRole p = 2 → Completes (.syncSend p) s (fun t => frame t ∧
      t.clk.cyc = at' x.syncAt s.NET_PTP_CFG_LOG_SYNC ∧ (t.net.port[p]).syncAt = some t.clk.cyc ∧
      (t.net.port[p]).count .sync = x.count .sync + 1 ∧
      (due → (t.net.port[p]).count ann = x.count ann + 1 ∧ (t.net.port[p]).annAt = some t.clk.cyc) ∧
      (¬due → (t.net.port[p]).count ann = x.count ann ∧ (x.cur = none → x.q = Vector.replicate 4 [] →
        (t.net.port[p]).count (.ownFollowUp (t.egressStamp p)) = 1)))) ∧
    (s.portUp p = false ∨ s.portRole p ≠ 2 → exec (.syncSend p) s = .next s) ∧
    (s.portUp p = true → Completes (.pdelayReqSend p) s (fun t => frame t ∧
      t.clk.cyc = at' x.pdlyAt s.NET_PTP_CFG_LOG_PDLY ∧ (t.net.port[p]).pdlyAt = some t.clk.cyc ∧
      (t.net.port[p]).pdlyWait = true ∧ (t.net.port[p]).pdlyOk = (x.pdlyOk && !x.pdlyWait) ∧
      (t.net.port[p]).count .pdelayReq = x.count .pdelayReq + 1)) ∧
    (s.portUp p = false → exec (.pdelayReqSend p) s = .next s) ∧
    (s.slavePort = some p → s.portRole o = 2 → s.asCapable o = true →
        (s.fltLive .time).getLsbD 0 = false ∨ s.isGm = true →
      Completes (.syncRelay p rx c) s (fun t => frame t ∧ t.clk = s.clk ∧ t.net.port[p] = x ∧
        (t.net.port[o]).count .relayed = (s.net.port[o]).count .relayed + 1 ∧
        ∃ e, (t.net.port[o]).relay = some ⟨s.clk.cyc - s.cyclesOf (wrapSigned (2 ^ 96) ((s.clk.time : Int) - rx * 2 ^ 32)) -
          (s.NET_PORT_LAT_RX_LAT p.val : Nat) * 2 / 5, c, x.pdly, e⟩)) ∧
    (s.slavePort ≠ some p ∨ s.portRole o ≠ 2 ∨ s.asCapable o = false ∨
        ((s.fltLive .time).getLsbD 0 = true ∧ s.isGm = false) → exec (.syncRelay p rx c) s = .next s) ∧
    Completes (.followUpRelay rate) s (fun t => frame t ∧ t.clk = s.clk ∧
      (∀ r e, x.relay = some r → r.egress = some e → (t.net.port[p]).relay = none ∧
        (t.net.port[p]).count (.followUp (relayCorrection r e rate)) =
          x.count (.followUp (relayCorrection r e rate)) + 1) ∧
      ((∀ r, x.relay = some r → r.egress = none) → t.net.port[p] = x))

/-- Reception, forwarding and transmission of frames (R383, R386, R387, R388, R391): what the device accepts is counted, answered
or put into Q_49 + n; a gPTP message of another domain than 0 and a one-step Sync are discarded, an Announce is kept for the
choice of the best master, a Pdelay_Req answered with the stamp of its receipt (assumption 7); what it does not accept is
forwarded in the class of its tag or counted in RXDROP; the end of a transmission is counted, and the next frame begins, a Sync or
Pdelay_Resp with its Follow_Up behind it. -/
def Obligations.FramesPass : Prop :=
  ∀ (s : State) (p : Fin 2) (b : List Byte) (delay : Option Nat) (ok : Bool),
    let x := s.net.port[p]
    let o := otherPort p
    let q : Fin 64 := if p = 0 then 49 else 50
    let rxf (t : State) : Prop := (t.net.port[p]).rxf = (x.rxf + 1) % 2 ^ 32 ∧ (t.net.port[p]).rxdrop = x.rxdrop
    let dropped : Host.Outcome State Fault Refusal := .next { s with net := { s.net with
      port := vset s.net.port p { x with rxdrop := (x.rxdrop + 1) % 2 ^ 32 } } }
    let frame (t : State) : Prop := t.quiet = ({ s with clk := t.clk, net := t.net } : State).quiet
    let g := payloadOf b
    let lat : Rat := ((s.NET_PORT_LAT_TX_LAT p.val + s.NET_PORT_LAT_RX_LAT p.val : Nat) : Rat) / 2
    let plain (m : NetMsg) : Prop := ∀ k, m ≠ .ownFollowUp k ∧ m ≠ .pdelayRespFollowUp k
    let fwd := if p = 0 then s.NET_CTRL_FWD_01 = 1 else s.NET_CTRL_FWD_10 = 1
    let ctl := s.NET_CTL_ETYPE_CTL_EN = 1 ∧ etherType b = s.NET_CTL_ETYPE_CTL_ETYPE ∧ dstOf b = s.macAddr
    (s.portUp p = false → exec (.frameReceive p b delay) s = .next s ∧ exec (.frameForward p b ok) s = .next s) ∧
    (s.portUp p = true → discards b = true → exec (.frameReceive p b delay) s = dropped) ∧
    (s.portUp p = true → discards b = false →
      (s.accepts b = false → exec (.frameReceive p b delay) s = .next s) ∧
      (s.accepts b = true → etherType b = 0x88F7 → gptpDiscards g = true → exec (.frameReceive p b delay) s = dropped) ∧
      (s.accepts b = true → etherType b = 0x88F7 → gptpDiscards g = false →
        Completes (.frameReceive p b delay) s (fun t => rxf t ∧ frame t ∧
          (∀ d, delay = some d → (t.net.port[p]).pdly = (roundFree 53 ((d : Rat) - lat)).toNat % 2 ^ 32 ∧
            (t.net.port[p]).pdlyOk = true) ∧
          (gptpType g = 11 → gptpField g 61 2 < 255 → gptpField g 20 8 ≠ s.clockId → (t.net.port[p]).annRx =
            some (gptpField g 47 16 * 2 ^ 80 + gptpField g 20 10, s.clk.cyc + 3 * secCycles (signedOf 8 (gptpField g 33 1)))) ∧
          (gptpType g = 2 → (t.net.port[p]).count (.pdelayResp (s.receiptStamp p)) =
            x.count (.pdelayResp (s.receiptStamp p)) + 1))) ∧
      (s.accepts b = true → etherType b ≠ 0x88F7 → ctl → (s.que.q[q]).limit < recLen b →
        exec (.frameReceive p b delay) s = dropped) ∧
      (s.accepts b = true → etherType b ≠ 0x88F7 → ctl → recLen b ≤ (s.que.q[q]).limit →
        Completes (.frameReceive p b delay) s (fun t => rxf t ∧ frame t ∧
          (t.que.q[q]).nseq = ((s.que.q[q]).nseq + 1) % 2 ^ 64 ∧
          ((s.que.q[q]).staged.length < 2 → s.queEn q.val = true → s.ringBad q = false → (s.que.q[q]).halted = false →
            ((s.que.q[q]).sameAt = s.clk.cyc → ∀ m ∈ (s.que.q[q]).same, m ≤ 9) → (∀ y ∈ (s.que.q[q]).staged, y.seq < (s.que.q[q]).nseq) →
            (t.que.q[q]).staged.map Staged.payload = (s.que.q[q]).staged.map Staged.payload ++ [b]))) ∧
      (s.accepts b = true → etherType b ≠ 0x88F7 → ¬ ctl →
        Completes (.frameReceive p b delay) s (fun t => rxf t ∧ frame t ∧ t.flt = s.flt ∧ t.que = s.que))) ∧
    (s.portUp p = true → s.accepts b = true → exec (.frameForward p b ok) s = .next s) ∧
    (s.portUp p = true → s.accepts b = false → ok = false ∨ discards b = true ∨ ¬ fwd ∨ s.portUp o = false →
      exec (.frameForward p b ok) s = dropped) ∧
    (s.portUp p = true → s.accepts b = false → ok = true → discards b = false → fwd → s.portUp o = true →
      Completes (.frameForward p b ok) s (fun t => rxf t ∧ frame t ∧
        (t.net.port[o]).count .forward = (s.net.port[o]).count .forward + 1)) ∧
    (∀ f k, x.cur = some (f, k) → Completes (.frameTransmitDone p) s (fun t => frame t ∧ t.clk.cyc = max s.clk.cyc k ∧
      (t.net.port[p]).txf = (x.txf + 1) % 2 ^ 32 ∧ t.net.port[o] = s.net.port[o] ∧
      ∀ m, plain m → (t.net.port[p]).count m + (if f.msg = m then 1 else 0) = x.count m)) ∧
    (x.cur = none → Completes (.frameTransmitDone p) s (fun t => frame t ∧ (t.net.port[p]).txf = x.txf ∧
      ∀ m, plain m → (t.net.port[p]).count m = x.count m))

/-- Links and streams (R389, R390, R395, R443): a port without link holds no frame, LINK_DOWN_n follows PORT_EN_n, frames of which
no port has a copy left that it can send are counted; link needs a port that is enabled, or listens, and a unicast address; a
stream frame takes the oldest records that fit, delivers them, and goes to every port named that is up, late ones raising
STREAM_LATE. -/
def Obligations.LinksAndStreams : Prop :=
  ∀ (s : State) (p : Fin 2) (k : Fin 8),
    let frame (t : State) : Prop := t.quiet = ({ s with net := t.net } : State).quiet
    let i : Fin 64 := Fin.ofNat 64 (s.NET_STR_CFG_QUEUE k.val)
    let q := s.que.q[i]
    (s.powered .net = true → Completes (.linkDown p) s (fun t => frame t ∧ (t.net.port[p]).link = false ∧
      (t.net.port[p]).cur = none ∧ (t.net.port[p]).q = Vector.replicate 4 [] ∧
      t.liveBit .net .shared p.val = s.portEn p ∧
      ((s.net.str[k]).lost ≤ 255 →
        (t.net.str[k]).lost = min 255 ((s.net.str[k]).lost + (s.net.port[p]).lostFrames.count k)) ∧
      t.net.port[otherPort p] = (s.net.port[otherPort p]).forsaken
        ((s.net.port[p]).q.toList.flatten.filter fun f => f.streams != []))) ∧
    (s.portEn p = true ∨ s.portListens p = true → s.macAddr ≠ 0 → s.powered .net = true → Completes (.linkUp p) s (fun t => frame t ∧
      (t.net.port[p]).link = true ∧ t.liveBit .net .shared p.val = false)) ∧
    ((s.portEn p = false ∧ s.portListens p = false) ∨ s.macAddr = 0 → exec (.linkUp p) s = .next s) ∧
    (s.streamDrains k = false → exec (.streamFrameBuild k) s = .next s) ∧
    (s.streamDrains k = true → q.badEcc = 0 → q.halted = true ∨ q.ring = [] →
      exec (.streamFrameBuild k) s = .next s) ∧
    (∀ r l, s.streamDrains k = true → q.badEcc = 0 → q.halted = false → q.ring = r :: l →
      let c := frameRecords (s.maxBytes k) q.ring
      let at' := if c < q.ring.length then s.clk.cyc else max s.clk.cyc (r.cyc + s.maxLat k)
      Completes (.streamFrameBuild k) s (fun t => t.clk.cyc = at' ∧
        t.quiet = ({ s with clk := t.clk, net := t.net, que := t.que } : State).quiet ∧
        (t.que.q[i]).ring = q.ring.drop c ∧ (t.que.q[i]).deliv = (q.deliv + c) % 2 ^ 32 ∧
        (t.net.str[k]).frames = ((s.net.str[k]).frames + 1) % 65536 ∧
        (t.net.str[k]).seq = ((s.net.str[k]).seq + 1) % 256 ∧
        ((s.NET_STR_CFG_PORTS k.val).testBit p.val = true → s.portUp p = true →
          (t.net.port[p]).count (.stream k) = (s.net.port[p]).count (.stream k) + 1) ∧
        (2 * s.maxLat k < at' - r.cyc → s.powered .net = true → t.stickyBit .net 2 = true)))

/-! ## Flight recorder -/

/-- The recorders (R392, R393): ARM restarts the ring with the configuration as it stands, or completes with RANGE; DISARM; TRIG and
a trigger that waits move an armed recorder to POST, the causes of one cycle being joined (Table 17.8); an entry due goes into the
ring at its place or is dropped, with ACC_OFF reported where its bank is off; after POST entries it freezes. -/
def Obligations.RecorderRuns : Prop :=
  ∀ (s : State) (n : Fin 8) (c : TrigCause) (w : Bool),
    let f := s.frec[n]
    let b := s.FREC_BASE_BASE n.val
    let len := max 1 (s.FREC_LEN_ENTRIES n.val)
    let legal := b % 32 = 0 ∧ 0x80000 ≤ b ∧ b + 32 * len ≤ 0x800000
    let put (g : Frec) : State := { s with frec := vset s.frec n g }
    let taken (t : State) (by' : BitVec 3) (at' : BitVec 64) : Prop := (t.frec[n]).st = .post ∧ (t.frec[n]).cause = by' ∧
      (t.frec[n]).time = at' ∧ (t.frec[n]).pend = 0 ∧ (t.frec[n]).post = 0 ∧
      (∀ e, f.last = some e → (t.frec[n]).trigIdx = e) ∧ t.free = s.free + 1 ∧
      (∀ m : Fin 8, m ≠ n → t.frec[m] = s.frec[m]) ∧ t = { s with frec := t.frec, free := t.free, wst := t.wst }
    (legal → CompletesVoting (.arm n) s (fun t => t = { put (t.frec[n]) with wst := .ok } ∧ (t.frec[n]).st = .armed ∧
      (t.frec[n]).base = b ∧ (t.frec[n]).len = len ∧ (t.frec[n]).next = 0 ∧ (t.frec[n]).total = 0 ∧
      (t.frec[n]).cfg = s.reg (0xE0100 + n.val * 0x20))) ∧
    (¬ legal → exec (.arm n) s = .next ({ s with wst := .range } : State).domains) ∧
    exec (.disarm n) s = .next ({ put { f with st := .off, due := none, pend := 0 } with wst := .ok } : State).domains ∧
    (f.st ≠ .armed → exec (.frecTrigger n c) s = .next s ∧ exec (.trig n) s = .next { (if f.st = .post ∧ f.pendCyc = s.clk.cyc then
      put { f with cause := bput f.cause 2 true } else s) with wst := .ok }) ∧
    (f.st = .armed → f.pend = 0 → Completes (.trig n) s (fun t => t.wst = .ok ∧ taken t 4 s.now)) ∧
    (f.st = .armed → f.pend ≠ 0 → Completes (.trig n) s (fun t => t.wst = .ok ∧
      taken t (if f.pendCyc = s.clk.cyc then bput f.pend 2 true else f.pend) f.pendTime)) ∧
    (f.st = .armed → f.pend.getLsbD (TrigCause.bit c) = true → Completes (.frecTrigger n c) s (fun t =>
      t.wst = s.wst ∧ taken t f.pend f.pendTime)) ∧
    (f.due = none → exec (.frecEntry n w) s = .next s) ∧
    (∀ e, f.due = some e →
      let off := f.base + 32 * f.next
      Completes (.frecEntry n w) s (fun t => (t.frec[n]).due = none ∧ (t.frec[n]).next = (f.next + 1) % f.len ∧
        (t.frec[n]).total = f.total + 1 ∧ (f.st = .post → (t.frec[n]).post = f.post + 1) ∧
        (w = false → t = put (t.frec[n]) ∧ (t.frec[n]).drop = min 65535 (f.drop + 1)) ∧
        (w = true → s.bankOn (bankOf off) = false → t.quiet = (put (t.frec[n])).quiet ∧ t.stickyBit .fab 0 = true ∧
          (t.frec[n]).drop = min 65535 (f.drop + 1)) ∧
        (w = true → s.bankOn (bankOf off) = true → (t.frec[n]).last = some f.next ∧ (t.frec[n]).drop = f.drop ∧
          (Memory.wf sramDefault s.sram = true → ∀ j, j < e.length → Memory.read sramDefault t.sram (off + j) = e.getD j 0) ∧
          (Memory.wf sramDefault s.sram = true → ∀ a, a < off ∨ off + e.length ≤ a →
            Memory.read sramDefault t.sram a = Memory.read sramDefault s.sram a) ∧
          t = { put (t.frec[n]) with sram := t.sram, badEcc := t.badEcc }))) ∧
    (f.st = .post → f.cfg.fld 16 16 ≤ f.post → Completes (.frecFreeze n) s (fun t => (t.frec[n]).st = .frozen ∧
      t = { put { f with st := .frozen, due := none } with que := t.que } ∧
      (t.que.q[Fin.ofNat 64 (40 + n.val)]).nseq = ((s.que.q[Fin.ofNat 64 (40 + n.val)]).nseq + 1) % 2 ^ 64)) ∧
    (f.st ≠ .post ∨ f.post < f.cfg.fld 16 16 → exec (.frecFreeze n) s = .next s)


/-! ## Host interface -/

/-- The frame carries a command of the queues (Table 18.1). -/
def Parts.queueFrame : Instr → Bool
  | .qread .. | .qack .. | .qpush .. => true
  | _ => false

/-- A frame that is turned away without data has the response of status `st`: ERR_IDX is 0xFF for a command of the queues, and open
for the others (R400). -/
def Parts.TurnedAway (c : Instr) (st : Status) (t : State) : Prop :=
  ∃ i, i < 256 ∧ t.resp = some (mkResp st i []) ∧ (Parts.queueFrame c = true → i = 0xFF)

/-- The first rules for a frame in RUN, DOZE and WAKING (R400, R401, R404, R450): before CORE takes frames no response; in boundary
scan, or before release out of the hold, NOT_READY; a wrong CRC_REQ gives CRC_BAD, counted and reported; a frame cut short is
reported and gets no response; none of them has any other effect, but that a frame in WAKING adds HOST to the sources. -/
def Parts.AwakeFrames : Prop :=
  ∀ (s0 : State) (c : Instr) (l : List Byte) (crc : Byte), c.request = some (l, crc) → s0.asleep = false →
    let s := s0.hostWaking
    let q0 : State := { s with resp := none }
    let turned (st : Status) (t : State) : Prop := Parts.TurnedAway c st t ∧ t = { ({ s with free := t.free, resp := t.resp } : State) with
      wst := st, flt := t.flt, que := t.que, frec := t.frec, safe := t.safe, xd := t.xd, pads := t.pads, sdm := t.sdm }
    (s.hears = false → exec c s0 = .next q0 ∧ exec .qspiFrame s0 = .next q0) ∧
    (s.hears = true → s.sys.scan = true → Completes c s0 (fun t => turned .notReady t ∧ t.que = s.que ∧ t.flt = s.flt)) ∧
    (s.hears = true → s.sys.scan = false → crc8 l ≠ crc → Completes c s0 (fun t => turned .crcBad t ∧
      t.quiet = ({ s with
        que := { s.que with crcErrs := t.que.crcErrs }, free := t.free, wst := t.wst, resp := t.resp } : State).quiet ∧
      t.que.crcErrs = min 65535 (s.que.crcErrs + 1) ∧ t.stickyBit .que 3 = true)) ∧
    (s.hears = true → s.sys.scan = false → crc8 l = crc → s.boot.released = false → s.boot.inHold = false →
      Completes c s0 (fun t => turned .notReady t ∧ t.que = s.que ∧ t.flt = s.flt)) ∧
    (s.hears = true → Completes .qspiFrame s0 (fun t => t.resp = none ∧ t.stickyBit .que 4 = true ∧
      t.que.frameErrs = min 65535 (s.que.frameErrs + 1) ∧
      t.quiet = ({ s with que := { s.que with frameErrs := t.que.frameErrs }, resp := none } : State).quiet))

/-- A frame in ENTERING (R400, R401, R432, R442): latched; while CORE is on it is judged as any other, NOT_READY where CRC_REQ is
right, CRC_BAD, counted and reported, where it is wrong, no response and QSPI_FRAME where it is cut short; else no response. -/
def Parts.EnteringFrames : Prop :=
  ∀ (s : State) (c : Instr) (l : List Byte) (crc : Byte), c.request = some (l, crc) → s.pwr.st = .entering →
    (s.coreOn = false → Completes c s (fun t => t.resp = none ∧ t.pwr.hostLatched = true) ∧
      Completes .qspiFrame s (fun t => t.resp = none ∧ t.pwr.hostLatched = true)) ∧
    (s.coreOn = true →
      (crc8 l = crc → Completes c s (fun t => Parts.TurnedAway c .notReady t ∧ t.pwr.hostLatched = true ∧ t.que = s.que ∧
        t.flt = s.flt)) ∧
      (crc8 l ≠ crc → s.boot.phase ≠ .reset → Completes c s (fun t => Parts.TurnedAway c .crcBad t ∧ t.pwr.hostLatched = true ∧
        t.que.crcErrs = min 65535 (s.que.crcErrs + 1) ∧ t.stickyBit .que 3 = true)) ∧
      (s.boot.phase ≠ .reset → Completes .qspiFrame s (fun t => t.resp = none ∧ t.pwr.hostLatched = true ∧
        t.que.frameErrs = min 65535 (s.que.frameErrs + 1) ∧ t.stickyBit .que 4 = true)))

/-- The first rules for a frame: while the device is awake or wakes, and in ENTERING. -/
def Obligations.FramesJudged : Prop :=
  Parts.AwakeFrames ∧ Parts.EnteringFrames

/-- READ and WRITE after release (R400): RANGE without data for a CMD that is not in Table 18.1, for an address that is no
multiple of 4, and for more than 64 words; else the words are accessed upwards one by one, the first that is not OK giving STATUS
and ERR_IDX, the rest read as zero. -/
def Obligations.BurstsAccess : Prop :=
  ∀ (s : State) (a : Word) (len : BitVec 16) (d : List Word) (crc : Byte), s.answers →
    let q0 : State := { s with resp := none }
    let n := len.toNat + 1
    let bad := 64 < n ∨ a.toNat % 4 ≠ 0
    let turned (t : State) : Prop := ∃ i, i < 256 ∧ t = ({ s with free := s.free + 1 } : State).respond .range i []
    (crc8 (reqBytes 0x10 a len []) = crc →
      (bad → Completes (.read 0x10 a len crc) s turned) ∧
      (∀ w u, ¬ bad → q0.hostReads a.toNat n = some (w, u) → exec (.read 0x10 a len crc) s = .next (u.respond .ok 0xFF w)) ∧
      (∀ i w u st v t, ¬ bad → i < n → q0.hostReads a.toNat i = some (w, u) →
        u.boot.released = true → u.hostRead (a.toNat + 4 * i) = (st, v, t) → st ≠ .ok →
        exec (.read 0x10 a len crc) s = .next (t.respond st i (w ++ v :: List.replicate (n - 1 - i) 0)))) ∧
    (∀ m : Byte, m ∉ [0x10, 0x20, 0x30, 0x31, 0x40] → crc8 (reqBytes m.toNat a len []) = crc →
      Completes (.read m a len crc) s turned) ∧
    (d.length = n → crc8 (reqBytes 0x20 a len d) = crc →
      (bad → Completes (.write a len d crc) s turned) ∧
      (∀ u, ¬ bad → q0.hostWrites a.toNat d = some u → exec (.write a len d crc) s = .next (u.respond .ok 0xFF [])) ∧
      (∀ d1 v d2 u st t, ¬ bad → d = d1 ++ v :: d2 → q0.hostWrites a.toNat d1 = some u →
        u.boot.released = true → u.hostWrite (a.toNat + 4 * d1.length) v = (st, t) → st ≠ .ok →
        exec (.write a len d crc) s = .next (t.respond st d1.length [])))

/-- A QACK with K no greater than RECS, of a queue that is not halted, delivers the K oldest records: DELIV, their credits, the
read pointer; RANGE when K > RECS and DENIED when NET_OWN is set, without effect; K of 0 completes with OK and does nothing
(R414). Where two of these meet, Parts.QackElse says what the model does. -/
def Obligations.QackDelivers : Prop :=
  ∀ (s : State) (i : Fin 64) (k : BitVec 16) (crc : Byte), s.answers →
    let a : Word := BitVec.ofNat 32 i.val
    let c : Instr := .qack a 0 [k.setWidth 32] crc
    let q := s.que.q[i]
    let bytes := ((q.ring.take k.toNat).map RingRec.len).sum
    crc8 (reqBytes 0x31 a 0 [k.setWidth 32]) = crc → q.badEcc = 0 → q.halted = false →
    (k = 0 → s.netOwn i = false → exec c s = .next (s.respond .ok 0xFF [])) ∧
    (k ≠ 0 → k.toNat ≤ q.ring.length → s.netOwn i = true → exec c s = .next (s.respond .denied 0xFF [])) ∧
    (q.ring.length < k.toNat → s.netOwn i = false → exec c s = .next (s.respond .range 0xFF [])) ∧
    (k ≠ 0 → k.toNat ≤ q.ring.length → s.netOwn i = false → Completes c s (fun t =>
      t = ({ s with que := t.que } : State).respond .ok 0xFF [] ∧
      (t.que.q[i]).ring = q.ring.drop k.toNat ∧ (t.que.q[i]).deliv = (q.deliv + k.toNat) % 2 ^ 32 ∧
      (t.que.q[i]).credit = q.credit + bytes / 8 ∧ (t.que.q[i]).rptr = (q.rptr + bytes) % q.size ∧
      (t.que.q[i]).staged = q.staged ∧ (t.que.q[i]).drop = q.drop ∧ (t.que.q[i]).nseq = q.nseq))

/-- A QACK where R414 leaves room: of a halted queue DENIED (R410), of one that the network owns OK for K of 0 and DENIED for K >
RECS; RANGE for a LEN, a queue or upper bits that Table 18.1 does not allow. The answers where the spec's rules meet, or name
none, are the model's choices (assumptions 22, 23, 63). -/
def Parts.QackElse : Prop :=
  ∀ (s : State) (a : Word) (len : BitVec 16) (w : Word) (crc : Byte), s.answers →
    let c : Instr := .qack a len [w] crc
    let i : Fin 64 := Fin.ofNat 64 a.toNat
    let q := s.que.q[i]
    crc8 (reqBytes 0x31 a len [w]) = crc → len = 0 →
    (64 ≤ a.toNat ∨ w.fld 16 16 ≠ 0 → exec c s = .next (s.respond .range 0xFF [])) ∧
    (a.toNat < 64 → w.fld 16 16 = 0 → q.badEcc = 0 →
      (q.halted = true → exec c s = .next (s.respond .denied 0xFF [])) ∧
      (q.halted = false → s.netOwn i = true → w = 0 → exec c s = .next (s.respond .ok 0xFF [])) ∧
      (q.halted = false → s.netOwn i = true → q.ring.length < w.fld 0 16 → exec c s = .next (s.respond .denied 0xFF [])))

/-- QREAD and QPUSH (R413, R415): whole records from the oldest on, zero filled, without other effect; RANGE with the frame of a
record that does not fit; ACC_OFF where the bank of the Landing is off (R359); a push takes a place in staging, or is refused
without a sequence number. What a refused QREAD carries, which range of LEN and of ADDR is refused, and the order of QPUSH's tests
are the model's choices (assumptions 22, 23, 63). -/
def Parts.ReadsAndPushes : Prop :=
  ∀ (s : State) (i : Fin 64) (len : BitVec 16) (d : List Word) (crc : Byte), s.answers →
    let a : Word := BitVec.ofNat 32 i.val
    let n := len.toNat + 1
    let q := s.que.q[i]
    let filled (m : Nat) : List Word := (packWords (ringBytes s.sram q.base q.size q.rptr m) ++ List.replicate n 0).take n
    let pay := (d.map fun w => leBytes 4 w.toNat).flatten
    (crc8 (reqBytes 0x30 a len []) = crc → q.badEcc = 0 →
      (n < 4 ∨ 512 < n → exec (.qread a len crc) s = .next (s.respond .range 0xFF [])) ∧
      (4 ≤ n → n ≤ 512 →
        (q.halted = true → exec (.qread a len crc) s = .next (s.respond .denied 0xFF (List.replicate n 0))) ∧
        (q.halted = false → q.ring = [] → exec (.qread a len crc) s = .next (s.respond .ok 0xFF (List.replicate n 0))) ∧
        (∀ r l, q.halted = false → q.ring = r :: l → s.bankOn 0 = false → Completes (.qread a len crc) s (fun t =>
          t.resp = some (mkResp .accOff 0xFF (List.replicate n 0)) ∧ t.stickyBit .fab 0 = true ∧
          t.quiet = ({ s with wst := t.wst, resp := t.resp } : State).quiet)) ∧
        (∀ r l, q.halted = false → q.ring = r :: l → s.bankOn 0 = true →
          (4 * n < r.len → exec (.qread a len crc) s = .next (s.respond .range 0xFF (filled 16))) ∧
          (r.len ≤ 4 * n → exec (.qread a len crc) s = .next (s.respond .ok 0xFF (filled (fitBytes (4 * n) q.ring))))))) ∧
    (d.length = n → crc8 (reqBytes 0x40 a len d) = crc →
      (64 < n → exec (.qpush a len d crc) s = .next (s.respond .range 0xFF [])) ∧
      (n ≤ 64 → s.QUE_CFG_PROD_FW i.val ≠ 1 → exec (.qpush a len d crc) s = .next (s.respond .denied 0xFF [])) ∧
      (n ≤ 64 → s.QUE_CFG_PROD_FW i.val = 1 →
        (q.limit < recLen pay → exec (.qpush a len d crc) s = .next (s.respond .range 0xFF [])) ∧
        (recLen pay ≤ q.limit → 2 ≤ q.staged.length →
          exec (.qpush a len d crc) s = .next (s.respond .denied 0xFF [])) ∧
        (recLen pay ≤ q.limit → q.staged.length < 2 → Completes (.qpush a len d crc) s (fun t =>
          t = ({ s with que := t.que } : State).respond .ok 0xFF [] ∧ (t.que.q[i]).nseq = (q.nseq + 1) % 2 ^ 64 ∧
          ((q.sameAt = s.clk.cyc → ∀ m ∈ q.same, m ≤ 13) →
            (s.queEn i.val = true → s.ringBad i = false → q.halted = false → (∀ y ∈ q.staged, y.seq < q.nseq) →
              (t.que.q[i]).staged = q.staged ++ [⟨q.nseq, 13, pay, s.clk.cyc, s.que.offers⟩]) ∧
            (s.queEn i.val = false ∨ s.ringBad i = true ∨ q.halted = true →
              (t.que.q[i]).staged = q.staged ∧ (t.que.q[i]).drop = (q.drop + 1) % 2 ^ 32))))))

/-- QREAD, QPUSH, and a QACK where R414 leaves room. -/
def Obligations.QreadAndQpush : Prop :=
  Parts.ReadsAndPushes ∧ Parts.QackElse

/-- Writes of the host that are refused, and those of SRAM (R9, R359, R360, R402, R460): no multiple of 4, RANGE; no block, RANGE
and DECODE; a domain that is off, ACC_OFF reported in FAB; a register of a block that is locked, or whose UNLK_MS have passed
(R462), DENIED; the Landing, DENIED; any other SRAM word of a bank that is on is stored, the byte at the lowest address in bits 7
to 0. -/
def Parts.WritesJudged : Prop :=
  ∀ (s : State) (a v : Word),
    let w := a.toNat
    let c : Instr := .registerWrite a v
    let frame (t : State) : Prop := t.quiet = ({ s with wst := t.wst } : State).quiet
    (w % 4 ≠ 0 → exec c s = .next { s with wst := .range }) ∧
    (w % 4 = 0 → sramOff w = none →
      (pageOf w = none → Completes c s (fun t => t.wst = .range ∧ frame t ∧ t.stickyBit .fab 1 = true)) ∧
      (∀ p, pageOf w = some p →
        (s.pageOn p = false → Completes c s (fun t => t.wst = .accOff ∧ frame t ∧ t.stickyBit .fab 0 = true)) ∧
        (s.pageOn p = true → lookup p (pageOff p w) = none →
          Completes c s (fun t => t.wst = .range ∧ frame t ∧ t.stickyBit .fab 1 = true)) ∧
        (∀ r i, s.pageOn p = true → lookup p (pageOff p w) = some (some (r, i)) →
          (s.ownerOn (s.owner p (pageOff p w)) = false →
            Completes c s (fun t => t.wst = .accOff ∧ frame t ∧ t.stickyBit .fab 0 = true)) ∧
          (s.ownerOn (s.owner p (pageOff p w)) = true → r.rw = 0 → r.w1c = 0 → r.wo = 0 → r.rs = 0 → r.lk ≠ 0 →
            s.boot.released = true → s.isOpen p.blk = false →
            s.pwr.padOpen = ⟨false, false⟩ → s.pwr.padOpenNet = false →
            exec c s = .next { s with wst := .denied })))) ∧
    (∀ off, w % 4 = 0 → sramOff w = some off →
      (s.sramOpen off = false → Completes c s (fun t => t.wst = .accOff ∧ frame t ∧ t.stickyBit .fab 0 = true)) ∧
      (s.sramOpen off = true → off < 0x80000 → exec c s = .next { s with wst := .denied }) ∧
      (s.sramOpen off = true → 0x80000 ≤ off → s.boot.inHold = false → Memory.wf sramDefault s.sram = true →
        Completes c s (fun t => t = { s with sram := t.sram, badEcc := t.badEcc, wst := .ok } ∧
          Memory.readWord sramDefault t.sram off = v ∧ Memory.read sramDefault t.sram off = v.setWidth 8 ∧
          Memory.wf sramDefault t.sram = true ∧
          ∀ b, b < off ∨ off + 4 ≤ b → Memory.read sramDefault t.sram b = Memory.read sramDefault s.sram b)))

/-- The write of the register at offset `off` of its row in page `p` has an operation of its own beside the fields it stores, which
other statements give, or stores none. -/
def Parts.ownWrite (p : Page) (off : Nat) : Bool :=
  match p with
  | .sys => [0x40, 0x44, 0x58, 0x68, 0x6C].contains off
  | .pwr => [0x44, 0x48, 0x4C, 0x68, 0x8C, 0x90].contains off
  | .boot | .fab | .mem => true
  | .pch _ => [0x40, 0x11C, 0x14C, 0x158, 0x15C].contains off
  | .exc => [0x100, 0x104, 0x108, 0x10C].contains off
  | .scl => off == 0x100 || (coefOf off).isSome
  | .dch => [0x100, 0x104, 0x118].contains off
  | .enc => off == 0x100
  | .aev => [0x40, 0x10C, 0x1000, 0x1004, 0x1008].contains off
  | .sdm => [0x4C, 0x50, 0x58, 0x21C].contains off
  | .aux => [0x40, 0x88].contains off
  | .xmon => [0x40, 0x44, 0x114].contains off
  | .crz => off == 0x40
  | .time => [0x74, 0x110].contains off
  | .net => off == 0x108
  | .que => [0x10C, 0x13C].contains off

/-- A register write that is accepted (R7, R9, R21): the fields that are rw, and those that are rw-lk while they are not locked,
take the value written, in each copy that is on where there are two; a read then gives the fields stored beside the others. Of
CRZ, QUE and NET_CTRL the domains that follow the votes come after. REGISTER_WRITE stands for a write that has passed the target's
own rules: it makes no test of readiness (assumption 16). -/
def Parts.WritesStored : Prop :=
  ∀ (s : State) (a v : Word) (p : Page) (r : RegRow) (i : Nat),
    let w := a.toNat
    let c : Instr := .registerWrite a v
    let off := pageOff p w
    let o := s.owner p off
    let votes := p = .que ∨ p = .crz ∨ (p = .net ∧ r.off = 0x40)
    let merged (h : Half) (old : Word) : Word := mergeBits old v (s.storeMask p r o h)
    let stored (u : State) : Prop :=
      (o = .dup → ∀ h, s.halfOn h = true → u.regH h w = merged h (s.regH h w)) ∧ (o ≠ .dup → u.reg w = merged .h0 (s.reg w))
    w % 4 = 0 → sramOff w = none → pageOf w = some p → s.pageOn p = true → lookup p off = some (some (r, i)) →
    s.ownerOn o = true → s.refuses p r o = false → r.rw ||| r.lk ≠ 0 → Parts.ownWrite p r.off = false →
    Store.wf (regReset s.qb) s.cfg = true →
    (votes → ∃ u : State, exec c s = .next { u.domains with wst := .ok } ∧ stored u) ∧
    (¬ votes → Completes c s (fun t => t.wst = .ok ∧ stored t ∧
      (s.chkInv p 0 = 0 → t.pageOn p = true → t.ownerOn (t.owner p off) = true → ∃ u, t.hostRead w =
        (.ok, t.readLive p r.off i |||
          (merged (if o = .dup then s.lead else .h0) (if o = .dup then s.regH s.lead w else s.reg w) &&& (r.rw ||| r.lk)), u))))

/-- Writes of the host: judged, and stored. -/
def Obligations.HostWrites : Prop :=
  Parts.WritesJudged ∧ Parts.WritesStored

/-! ## Queues -/

/-- The Yarder (R406, R409, R410): a staged record it serves goes into the ring, framed and wrapping, and takes LEN / 8 credits,
or is dropped where POLICY says so; a broken credit relation halts the queue and is reported. A record that finds the bank of the
Landing off is dropped, and ACC_OFF reported in FAB (R359; that it is dropped is the model's choice, assumption 69). -/
def Obligations.YarderServes : Prop :=
  ∀ s : State,
    (s.coreOn = false ∨ s.yardNext = none → exec .yarderWrite s = .next s) ∧
    (∀ i x, s.coreOn = true → s.yardNext = some (i, x) → (s.que.q[i]).badEcc = 0 →
      let q := s.que.q[i]
      let len := recLen x.payload
      let gap := q.gap || decide (x.seq ≠ q.nextSeq)
      (q.creditOk = false → s.powered .que = true → Completes .yarderWrite s (fun t => (t.que.q[i]).halted = true ∧
        t.stickyBit .que 0 = true ∧ (t.que.q[i]).ring = q.ring)) ∧
      (q.creditOk = true → len / 8 ≤ q.credit → s.bankOn 0 = false → Completes .yarderWrite s (fun t =>
        t.quiet = ({ s with que := t.que } : State).quiet ∧ (t.que.q[i]).ring = q.ring ∧ (t.que.q[i]).credit = q.credit ∧
        t.stickyBit .fab 0 = true ∧ (i ≠ 17 → s.QUE_GLB_CFG_MSG_Q ≠ i.val → (t.que.q[i]).staged = q.staged.tail ∧
          (t.que.q[i]).drop = (q.drop + 1) % 2 ^ 32))) ∧
      (q.creditOk = true → len / 8 ≤ q.credit → s.bankOn 0 = true → Completes .yarderWrite s (fun t =>
        t.quiet = ({ s with que := t.que, sram := t.sram, badEcc := t.badEcc } : State).quiet ∧
        (t.que.q[i]).ring = q.ring ++ [⟨len, s.clk.cyc⟩] ∧ (t.que.q[i]).credit = q.credit - len / 8 ∧
        (t.que.q[i]).wptr = (q.wptr + len) % q.size ∧ (t.que.q[i]).deliv = q.deliv ∧
        (i ≠ 17 → s.QUE_GLB_CFG_MSG_Q ≠ i.val → (t.que.q[i]).staged = q.staged.tail) ∧
        (Memory.wf sramDefault s.sram = true → q.size % 4 = 0 → q.wptr % 4 = 0 → len ≤ q.size →
          ringBytes t.sram q.base q.size q.wptr len = recBytes i x gap))) ∧
      (q.creditOk = true → q.credit < len / 8 → Completes .yarderWrite s (fun t =>
        t.quiet = ({ s with que := t.que } : State).quiet ∧ (t.que.q[i]).ring = q.ring ∧ (t.que.q[i]).credit = q.credit ∧
        (i ≠ 17 → s.QUE_GLB_CFG_MSG_Q ≠ i.val → (t.que.q[i]).staged = q.staged.tail ∧
          (t.que.q[i]).drop = (q.drop + 1) % 2 ^ 32))))

/-- FLUSH, the stall and the age (R405, R410, R411, R417, R420): a flush discards and counts every record, returns every credit and
takes the new ring; YARD_STALL goes live with STALL_Q; a record of AGE_US sets PEND. -/
def Parts.FlushStallAge : Prop :=
  ∀ (s : State) (i : Fin 64),
    let q := s.que.q[i]
    let size := s.QUE_SIZE_SIZE i.val
    Completes (.flush i) s (fun t => t.wst = .ok ∧ t.quiet = ({ s with que := t.que, wst := .ok } : State).quiet ∧
      (t.que.q[i]).base = s.QUE_BASE_BASE i.val ∧ (t.que.q[i]).size = size ∧ (t.que.q[i]).credit = size / 8 ∧
      (t.que.q[i]).ring = [] ∧ (t.que.q[i]).rptr = 0 ∧ (t.que.q[i]).wptr = 0 ∧ (t.que.q[i]).deliv = q.deliv ∧
      ((∀ j, t.ringBad j = false) → (∀ (j : Fin 64) x, (s.que.q[j]).staged.head? = some x → s.isStale x = false) →
        (t.que.q[i]).staged = [] ∧
        (t.que.q[i]).drop = (q.drop + q.held) % 2 ^ 32 ∧ (t.que.q[i]).nseq = q.nseq ∧
        (q.held ≠ 0 → (t.que.q[i]).dropEv = true ∧ (t.que.q[i]).gap = true)) ∧
      (t.que.q[i]).halted = (q.halted && !t.ringValid i)) ∧
    (s.oldestStaged = none → exec .yardStall s = .next s) ∧
    (∀ j x, s.oldestStaged = some (j, x) → s.powered .que = true → Completes .yardStall s (fun t =>
      t.clk.cyc = max s.clk.cyc (x.cyc + 400 * max 1 s.QUE_GLB_CFG_STALL_US + 1) ∧
      t.liveBit .que .shared 2 = true ∧ t.que.stallQ = j.val ∧
      t.quiet = ({ s with clk := t.clk, que := t.que } : State).quiet)) ∧
    (q.ring = [] ∨ s.QUE_CTRL_AGE_US i.val = 0 → exec (.queueAge i) s = .next s) ∧
    (∀ r l, q.ring = r :: l → s.QUE_CTRL_AGE_US i.val ≠ 0 → Completes (.queueAge i) s (fun t =>
      t.clk.cyc = max s.clk.cyc (r.cyc + 400 * s.QUE_CTRL_AGE_US i.val) ∧ t.queAged i = true ∧
      (s.queEn i.val = true → t.quePend i = true) ∧ t = { s with clk := t.clk, que := t.que }))

/-- With ROUTE 8, each time the queue's interrupt becomes active, a notice is offered to the queue named by MSG_Q; ROUTE 8 on
the MSG_Q queue itself acts as 15 (R421). -/
def Parts.NoticesOffered : Prop :=
  ∀ (s : State) (i : Fin 64),
    let m : Fin 64 := Fin.ofNat 64 s.QUE_GLB_CFG_MSG_Q
    let t := s.settle i
    (s.queInt i = true → (s.que.q[i]).intWas = false → s.QUE_CFG_ROUTE i.val = 8 → i ≠ m →
      (t.que.q[m]).nseq = ((s.que.q[m]).nseq + 1) % 2 ^ 64) ∧
    (s.queInt i = false ∨ (s.que.q[i]).intWas = true ∨ s.QUE_CFG_ROUTE i.val ≠ 8 ∨ i = m → ∀ j : Fin 64,
      (t.que.q[j]).nseq = (s.que.q[j]).nseq ∧ (t.que.q[j]).staged = (s.que.q[j]).staged) ∧
    (t.que.q[i]).intWas = s.queInt i

/-- PEND, the interrupt of a queue and the pads IRQ_n (R420): PEND while EN is set and RECS reaches THR, a THR of 0 acting as 1,
or the oldest record has reached AGE_US; the interrupt while PEND, or DROP_EV with DROP_IRQ; IRQ_n high while the interrupt of a
queue with ROUTE n is active, from release on and while the pads of CORE are not held; QUE_IRQ_STAT reads the levels of the pads. -/
def Parts.QueueInterrupts : Prop :=
  ∀ s : State,
    (∀ i : Fin 64,
      (s.quePend i = true ↔ s.queEn i.val = true ∧ (max 1 (s.QUE_CFG_THR i.val) ≤ (s.que.q[i]).ring.length ∨
        (s.QUE_CTRL_AGE_US i.val ≠ 0 ∧ ∃ r l, (s.que.q[i]).ring = r :: l ∧ 400 * s.QUE_CTRL_AGE_US i.val ≤ s.clk.cyc - r.cyc))) ∧
      (s.queInt i = true ↔ s.quePend i = true ∨ ((s.que.q[i]).dropEv = true ∧ s.QUE_CFG_DROP_IRQ i.val = 1))) ∧
    (s.pads.heldCore = false → ∀ n, n < 8 → (s.irqPads.getLsbD n = true ↔
      s.boot.released = true ∧ ∃ i : Fin 64, s.QUE_CFG_ROUTE i.val = n ∧ s.queInt i = true)) ∧
    (s.pageOn .que = true → s.badPar.contains (Page.base .que + 0x44) = false →
      s.hostRead (Page.base .que + 0x44) = (.ok, s.irqPads.setWidth 32, s))

/-- Flush, stall, age, notices and interrupts of the queues. -/
def Obligations.FlushAgeNotices : Prop :=
  Parts.FlushStallAge ∧ Parts.NoticesOffered ∧ Parts.QueueInterrupts


/-! ## Power states -/

/-- State requests (R429 to R431): held as pending during an entry and during a DVFS sequence; before release, in a wake too,
NOT_READY (R97); RUN and DOZE change at once; LOOKOUT and OFF begin their entry where R430 allows it, and are DENIED while a drive
is released, without an allowed wake source, or with a Lookout channel that cannot run. -/
def Parts.StateRequests : Prop :=
  ∀ s : State,
    let done (st : Status) : Host.Outcome State Fault Refusal := .next { s with wst := st }
    let busy := s.pwr.st = .entering ∨ (s.inRun = true ∧ s.pwr.dvfs.isSome = true)
    let held (t : Fin 4) : Host.Outcome State Fault Refusal :=
      .next { s with pwr := { s.pwr with pend := some t }, wst := .ok }
    let entry (u : PState) (o : Host.Outcome State Fault Refusal) : Prop :=
      (s.mayEnter u = true → o = .next { s.enter u with wst := .ok }) ∧ (s.mayEnter u = false → o = done .denied) ∧
      (s.safe[(0 : Fin 2)].rel = true ∨ s.safe[(1 : Fin 2)].rel = true ∨ (∀ b, b < 7 → s.wakeCounts u b = false) →
        o = done .denied)
    (busy → exec .reqRun s = held 0 ∧ exec .reqDoze s = held 1 ∧ exec .reqLookout s = held 2 ∧ exec .reqOff s = held 3) ∧
    (s.pwr.st ≠ .entering → s.inRun = false → ∀ c ∈ [Instr.reqRun, .reqDoze, .reqLookout, .reqOff], exec c s = done .notReady) ∧
    (s.inRun = true → s.pwr.dvfs = none → s.pwr.st = .run → exec .reqRun s = done .ok ∧
      Completes .reqDoze s (fun t => t.wst = .ok ∧ t.pwr.st = .doze ∧ t.clk = s.clk)) ∧
    (s.inRun = true → s.pwr.dvfs = none → s.pwr.st = .doze → exec .reqDoze s = done .ok ∧
      Completes .reqRun s (fun t => t.wst = .ok ∧ t.pwr.st = .run ∧ t.clk = s.clk)) ∧
    (s.inRun = true → s.pwr.dvfs = none → entry .lookout (exec .reqLookout s) ∧ entry .off (exec .reqOff s) ∧
      (s.PCH_CFG_EXC_SEL s.lkCh.val ≠ 0 ∨ s.PCH_CFG_DEMOD_MODE s.lkCh.val ≠ 0 →
        exec .reqLookout s = done .denied))

/-- Entry completes once no calibration store runs (R426, R428, R431, R432, R441): the halves, the banks and CORE are off with
every pad held, SRAM and registers lost; the FRAM, the alarm, the values of the votes and lost clocks (R68) are kept; a wake
source seen meanwhile, or a pending request for RUN or DOZE, which counts as HOST, wakes the device at once, CORE's regulator
rising at the next RTC tick (R445); a pending one for OFF moves LOOKOUT to OFF, with NET. At which RTC tick the first cycle of
Lookout begins is the model's reading (assumption 27). -/
def Parts.EntryCompletes : Prop :=
  ∀ s : State,
    let host := s.pwr.pend = some 0 ∨ s.pwr.pend = some 1
    (s.pwr.st ≠ .entering ∨ s.boot.store ≠ none → exec .entryComplete s = .next s) ∧
    (s.pwr.st = .entering → s.boot.store = none → Completes .entryComplete s (fun t =>
      t.sram = [] ∧ t.boot.released = false ∧ t.boot.phase = .reset ∧ t.fram = s.fram ∧ t.clk = s.clk ∧
      t.pwr.half = ⟨.off, .off⟩ ∧ t.pwr.bank = Vector.replicate 8 .off ∧ t.pwr.offTime = s.clk.time ∧
      t.pads.heldH = ⟨true, true⟩ ∧ t.pads.heldCore = true ∧ t.pads.encHeld = 0xF ∧ t.pads.aevHeld = 0xFF ∧
      t.pwr.alarm = s.pwr.alarm ∧ t.pwr.alarmEn = s.pwr.alarmEn ∧ t.pwr.lkSet = s.lookoutSet ∧ t.pwr.lkAcc = 0 ∧
      t.boot.repCols = s.boot.repCols ∧ t.boot.repRows = s.boot.repRows ∧ t.boot.torn = s.boot.torn ∧
      t.sys.xtalOk = s.sys.xtalOk ∧ t.sys.tpllLock = s.sys.tpllLock ∧ t.sys.spllLock = s.sys.spllLock ∧
      t.pwr.keptVotes = s.votesOfCore ∧ s.clk.rtc ≤ t.pwr.lkNext ∧ t.pwr.lkNext % rtcUnit = 0 ∧
      (s.pwr.srcEnt = 0 → s.pwr.pend = none → t.pwr.st = s.pwr.entTgt ∧ t.pwr.core = .off ∧
        t.pwr.wakeCnt = s.pwr.wakeCnt) ∧
      (s.pwr.srcEnt ≠ 0 ∨ host → t.pwr.st = .waking ∧ t.pwr.core = .rising t.nextTick ∧
        t.pwr.wakeFrom = s.pwr.entTgt.code ∧ t.pwr.wakeCnt = min 65535 (s.pwr.wakeCnt + 1) ∧ t.pwr.wakeRtc = s.rtcNow) ∧
      (s.pwr.srcEnt ≠ 0 → ¬ host → t.pwr.src = s.pwr.srcEnt ∧ t.pwr.first = s.pwr.firstEnt) ∧
      (s.pwr.srcEnt ≠ 0 → host → t.pwr.src = bput s.pwr.srcEnt 5 true ∧
        t.pwr.first = if s.rtcTick = s.pwr.firstTick then min 5 s.pwr.firstEnt else s.pwr.firstEnt) ∧
      (s.pwr.srcEnt = 0 → host → t.pwr.src = 0x20 ∧ t.pwr.first = 5) ∧
      (s.pwr.srcEnt = 0 → s.pwr.pend = some 3 → s.pwr.entTgt = .lookout → t.pwr.st = .off ∧ t.netOn = false)))

/-- State requests and the end of an entry. -/
def Obligations.StatesAndEntry : Prop :=
  Parts.StateRequests ∧ Parts.EntryCompletes

/-- Operating points (R431, R433, R434): a write of OPP_TGT starts a sequence, waits for the one in progress, or names the present
point; the ramp runs at 10 mV/µs, from 100 ns after the write moving up and from 200 ns after it moving down, and moving up the
divider switches 2 µs after it, in a pause of 200 ns (Table 19.5); at its end CORE's regulator stands at the nominal set-point
(R62); OPP_NOW changes at the start moving down, at the end moving up; 5 µs after the ramp a sequence times out, which leaves the
lower frequency and reports DVFS_TMO. That OPP_NOW shows a move down from the start is the model's choice (assumptions 26, 69). -/
def Parts.OperatingPoints : Prop :=
  ∀ (s : State) (v w : BitVec 2),
    let u := s.setReg 0x10048 (Word.put 0 2 v.toNat)
    let c := s.sys.avsCode[VDom.num .core]
    let up := w.toNat < s.pwr.dvfsFrom.toNat
    let ramp := s.pwr.dvfsAt + (if up then 40 else 80) + 200 * (max c (oppCode w) - min c (oppCode w))
    let ends (t : State) : Prop := t.clk.cyc = max s.clk.cyc (if up then ramp + 880 else ramp)
    (s.pwr.dvfs.isSome = true → exec (.oppTgtWrite v) s =
      .next { u with pwr := { s.pwr with oppPend := some v }, wst := .ok }) ∧
    (s.pwr.dvfs = none → v = s.pwr.oppNow → exec (.oppTgtWrite v) s = .next { u with wst := .ok }) ∧
    (s.pwr.dvfs = none → v ≠ s.pwr.oppNow → Completes (.oppTgtWrite v) s (fun t => t = { u with
      crz := t.crz
      pwr := { s.pwr with
        dvfs := some v, dvfsFrom := s.pwr.oppNow, dvfsAt := s.clk.cyc
        oppNow := if s.pwr.oppNow.toNat < v.toNat then v else s.pwr.oppNow }
      wst := .ok })) ∧
    (s.pwr.dvfs = none → exec .dvfsDone s = .next s ∧ exec .dvfsTmo s = .next s) ∧
    (s.pwr.dvfs = some w →
      (s.pwr.oppPend = none → s.pwr.pend = none → Completes .dvfsDone s (fun t => ends t ∧ t.pwr.oppNow = w ∧ t.pwr.dvfs = none ∧
        (s.sys.avsHeld = none → t.sys.avsCode[VDom.num .core] = t.vNominal .core) ∧
        (t.que.q[(57 : Fin 64)]).nseq = ((s.que.q[(57 : Fin 64)]).nseq + 1) % 2 ^ 64 ∧
        t.quiet = ({ s with
          clk := t.clk, crz := t.crz, pwr := { s.pwr with oppNow := w, dvfs := none }, sys := t.sys } : State).quiet)) ∧
      (∀ x, s.pwr.oppPend = some x → x ≠ w → Completes .dvfsDone s (fun t => ends t ∧ t.pwr.dvfs = some x ∧ t.pwr.dvfsFrom = w ∧
        t.pwr.dvfsAt = t.clk.cyc ∧ t.pwr.oppPend = none ∧ t.pwr.oppNow = if w.toNat < x.toNat then x else w)) ∧
      (s.pwr.oppPend = none → s.pwr.pend = none → Completes .dvfsTmo s (fun t => t.pwr.dvfs = none ∧
        t.clk.cyc = max s.clk.cyc (ramp + 2000) ∧
        t.pwr.oppNow.toNat = max s.pwr.dvfsFrom.toNat w.toNat ∧
        (s.powered .pwr = true → t.stickyBit .pwr 1 = true) ∧
        t.quiet = ({ s with
          clk := t.clk, crz := t.crz, pwr := { s.pwr with oppNow := t.pwr.oppNow, dvfs := none }, sys := t.sys } : State).quiet)))

/-- Domains follow the host's votes (R2, R426, R427): in RUN and DOZE a vote brings a domain that is off, and has not failed, into
its soft start; a bank without a vote goes off with its contents; a half whose host vote is withdrawn goes off unless it claims a
drive; in other states votes wait. That domains go off with the command that withdraws their last vote, and that one whose return
has failed waits for its votes to be withdrawn, is the model's reading (assumption 25). -/
def Obligations.VotesMoveDomains : Prop :=
  ∀ (s : State) (v : Word) (b : Fin 8) (h : Half),
    let u := s.setReg 0x1004C (v &&& 0xFF07)
    let awake := s.pwr.st = .run ∨ s.pwr.st = .doze
    (¬ awake → exec (.voteWrite v) s = .next { u with wst := .ok }) ∧
    (awake → Completes (.voteWrite v) s (fun t => t.wst = .ok ∧ t.clk = s.clk ∧ t.pwr.st = s.pwr.st ∧ t.fram = s.fram ∧
      t.pwr.core = s.pwr.core ∧
      (v.bit (8 + b.val) = true → s.pwr.bank[b] = .off → s.pwr.stuck.getLsbD (3 + b.val) = false →
        t.pwr.bank[b] = .rising s.clk.cyc) ∧
      (v.bit (8 + b.val) = true → s.pwr.bank[b] ≠ .off → t.pwr.bank[b] = s.pwr.bank[b]) ∧
      (v.bit h.num = true → s.pwr.half.get h = .off → s.pwr.stuck.getLsbD h.num = false →
        t.pwr.half.get h = .rising s.clk.cyc) ∧
      (v.bit h.num = true → s.pwr.half.get h ≠ .off → t.pwr.half.get h = s.pwr.half.get h) ∧
      (v.bit h.num = false → (∀ d : Drive, s.claims d h = false) → t.halfOn h = false) ∧
      (s.qb = false → v.bit 2 = true → s.pwr.net = .off → s.pwr.stuck.getLsbD 2 = false →
        t.pwr.net = .rising s.clk.cyc) ∧
      (s.qb = true → t.pwr.net = s.pwr.net) ∧
      (u.votes.bit (8 + b.val) = false → s.CRZ_CTRL_EN = 0 → t.pwr.bank[b].isOn = false ∧
        (s.pwr.bank[b].isOn = true → ∀ a, b.val * 0x100000 ≤ a → a < (b.val + 1) * 0x100000 →
          Memory.read sramDefault t.sram a = sramDefault))))

/-- Returns of domains (R427, R446, R451): 200 µs after its start a domain is on, a half with CAL_BUSY set, its slots at reset and
its regulator at 50, the nominal code (assumption 59); a bank is open once it is initialised, 0.5 ms later; calibration takes 6.5
ms and leaves the trims of the channels that have not failed (that a failure raises no CAL is the model's reading, assumption 38);
a return that takes 500 µs fails, is recorded and reported, and CORE's or a bank's during a wake restarts the wake once, then
leaves OFF with WAKE_FAIL until a reset. How a domain that has failed is tried again is the model's reading (assumption 25). -/
def Obligations.DomainsReturn : Prop :=
  ∀ (s : State) (h : Half) (b : Fin 8) (k : Nat) (pf : BitVec 4) (af : Bool) (tr : Vector TrimVals 4),
    let half : Dom := match h with
      | .h0 => .h0
      | .h1 => .h1
    let open' := (s.pwr.st = .run ∨ s.pwr.st = .doze) ∧ s.boot.released = true
    let at' (t : State) (us : Nat) : Prop := t.clk.cyc = max s.clk.cyc (k + 400 * us)
    (s.pwr.half.get h = .rising k →
      Completes (.domainOn half) s (fun t => at' t 200 ∧ t.halfOn h = true ∧ t.pwr.calBusy.get h = true ∧
        (t.pwr.padOpen.get h = true ↔ open') ∧ t.pwr.domFail.getLsbD h.num = false ∧
        (∀ a, t.reg a = if s.slotReg h (a % 0x100000000) then regReset s.qb a else s.reg a) ∧
        t.pwr.calAt.get h = t.clk.cyc + 2600000 ∧
        t.sys.avsCode[VDom.num (halfVdom h)] = 50 ∧
        t.pwr.half.get h.other = s.pwr.half.get h.other) ∧
      Completes (.domTmo half) s (fun t => at' t 500 ∧ t.pwr.half.get h = .off ∧ t.pwr.domFail.getLsbD h.num = true ∧
        t.pwr.stuck.getLsbD h.num = true ∧ (s.powered .pwr = true → t.stickyBit .pwr 2 = true) ∧
        t.quiet = ({ s with clk := t.clk, pwr := t.pwr } : State).quiet)) ∧
    (s.pwr.net = .rising k →
      Completes (.domainOn .net) s (fun t => at' t 200 ∧ t.pwr.net = .on ∧ (t.pwr.padOpenNet = true ↔ open') ∧
        t.sys.avsCode[VDom.num .net] = 50 ∧
        t.quiet = ({ s with clk := t.clk, pwr := t.pwr, sys := t.sys } : State).quiet) ∧
      Completes (.domTmo .net) s (fun t => at' t 500 ∧ t.pwr.net = .off ∧ t.pwr.domFail.getLsbD 2 = true ∧
        t.pwr.stuck.getLsbD 2 = true ∧ (s.powered .pwr = true → t.stickyBit .pwr 2 = true))) ∧
    (s.pwr.bank[b] = .rising k →
      Completes (.domainOn (.bank b)) s (fun t => at' t 200 ∧ t.pwr.bank[b] = .on ∧ t.pwr.bankInit = s.pwr.bankInit ∧
        (s.pwr.st ≠ .waking → t.pwr.bankAt[b] = t.clk.cyc + 200000) ∧
        t.quiet = ({ s with clk := t.clk, pwr := t.pwr } : State).quiet) ∧
      (s.pwr.st ≠ .waking → Completes (.domTmo (.bank b)) s (fun t => at' t 500 ∧ t.pwr.bank[b] = .off ∧
        t.pwr.bankFail.getLsbD b.val = true ∧ t.pwr.stuck.getLsbD (3 + b.val) = true ∧
        (s.powered .pwr = true → t.stickyBit .pwr 2 = true))) ∧
      (s.pwr.st = .waking → s.pwr.wakeRestarts = 0 → Completes (.domTmo (.bank b)) s (fun t => at' t 500 ∧
        t.pwr.st = .waking ∧ t.pwr.wakeRestarts = 1 ∧ t.pwr.memTmo = true ∧ t.pwr.core = .rising t.nextTick))) ∧
    (s.pwr.core = .rising k →
      Completes (.domainOn .core) s (fun t => at' t 200 ∧ t = { s with clk := t.clk, pwr := { s.pwr with core := .on } }) ∧
      (s.pwr.wakeRestarts = 0 → Completes (.domTmo .core) s (fun t => at' t 500 ∧ t.pwr.core = .rising t.nextTick ∧
        t.pwr.wakeRestarts = 1 ∧ t.pwr.st = s.pwr.st ∧ t.pwr.coreTmo = true)) ∧
      (s.pwr.wakeRestarts ≠ 0 → Completes (.domTmo .core) s (fun t => at' t 500 ∧ t.pwr.core = .off ∧ t.pwr.st = .off ∧
        t.pwr.wakeFail = true ∧ t.pwr.offHeld = true))) ∧
    (s.pwr.bank[b].isOn = true → s.pwr.bankInit.getLsbD b.val = false → Completes (.memBankInitDone b) s (fun t =>
      t.clk.cyc = max s.clk.cyc s.pwr.bankAt[b] ∧ t.bankOn b = true ∧
      t = { s with clk := t.clk, crz := t.crz, pwr := { s.pwr with bankInit := bput s.pwr.bankInit b.val true } })) ∧
    (s.pwr.bank[b].isOn = false ∨ s.pwr.bankInit.getLsbD b.val = true → exec (.memBankInitDone b) s = .next s) ∧
    (s.pwr.calBusy.get h = false → exec (.halfCalDone h pf af tr) s = .next s) ∧
    (s.pwr.calBusy.get h = true → Completes (.halfCalDone h pf af tr) s (fun t => t.pwr.calBusy.get h = false ∧
      t.aux.calf = s.aux.calf ∧ t.clk.cyc = max s.clk.cyc (s.pwr.calAt.get h) ∧ t.cfg = s.cfg ∧
      ∀ i : Fin 4, let n : Fin 8 := Fin.ofNat 8 (4 * h.num + i.val)
        (t.pch[n]).calf = (s.pch[n]).calf ∧ (t.scl[n]).trims = if pf.getLsbD i.val then (s.scl[n]).trims else tr[i]))

/-- A write of PAD_RELEASE (R52, R53): it opens the pads of the domains it names that are on, a drive's ENC and AEV pads by the
half that holds the drive, those a digital channel clocks by that channel's half; for a domain that is off it does nothing; a
bitstream clock that runs again strobes from this cycle on. -/
def Parts.PadsRelease : Prop :=
  ∀ (s : State) (v : Word), Completes (.padRelease v) s (fun t =>
    let m : Two Bool := ⟨v.bit 0 && s.halfOn .h0, v.bit 1 && s.halfOn .h1⟩
    let p := s.pads
    t.pads.heldH = ⟨p.heldH.h0 && !m.h0, p.heldH.h1 && !m.h1⟩ ∧
    t.pads.sdiOff = ⟨p.sdiOff.h0 && !m.h0, p.sdiOff.h1 && !m.h1⟩ ∧
    t.pads.heldNet = (p.heldNet && !(v.bit 2 && s.netOn)) ∧ t.pads.heldCore = (p.heldCore && !(v.bit 3 && s.coreOn)) ∧
    t.pwr.padOpen = ⟨s.pwr.padOpen.h0 && !m.h0, s.pwr.padOpen.h1 && !m.h1⟩ ∧
    t.pwr.padOpenNet = (s.pwr.padOpenNet && !(v.bit 2 && s.netOn)) ∧
    (∀ n : Fin 4, t.pads.encHeld.getLsbD n.val = (p.encHeld.getLsbD n.val &&
      !t.padHolder s.enc[n].drive m)) ∧
    (∀ n : Fin 4, t.pads.encZHeld.getLsbD n.val = (p.encZHeld.getLsbD n.val && !(match s.claimHalf (8 + n.val) with
      | none => t.padHolder s.enc[n].drive m
      | some h => m.get h))) ∧
    (∀ n : Fin 8, t.pads.aevHeld.getLsbD n.val = (p.aevHeld.getLsbD n.val && !(match s.claimHalf n.val with
      | none => t.padHolder (t.outDrive n) m
      | some h => m.get h))) ∧
    (t.pads.heldCore = false → t.alive.pad = s.alive.level) ∧
    (∀ k : Fin 2, t.sdm.next[k] =
      if t.sdclkRuns k.val = true ∧ s.sdclkRuns k.val = false then s.clk.cyc else s.sdm.next[k]) ∧
    t = { s with
      pads := t.pads, alive := { s.alive with pad := t.alive.pad }, wst := .ok
      sdm := { s.sdm with next := t.sdm.next }
      pwr := { s.pwr with padOpen := t.pwr.padOpen, padOpenNet := t.pwr.padOpenNet } })

/-- Operating points, and the release of pads. -/
def Obligations.PointsAndPads : Prop :=
  Parts.OperatingPoints ∧ Parts.PadsRelease

/-- Lookout cycles (R113, R428, R436 to R439): one begins every LK_PER_MS ms, with H0 powered and EXC_0 in open loop from 300 µs
on, 2 periods up, LK_NPER periods at LK_LVL, limited by R102, and 2 down; it ends 20 µs after the later of that and the slot's
visit; at its end Δ and, in a cycle without LK_FAULT, ACC are formed from the angles of the first and the last measured period,
and LK_MOVE, LK_AUX and LK_FAULT wake the device where they are enabled; otherwise the faults are counted. What the spec leaves to
the model in a cycle stands in assumptions 27, 59 and 69. -/
def Parts.LookoutCycles : Prop :=
  ∀ (s : State) (m : LookoutMeas),
    let p := s.pwr
    let x := s.exc[(0 : Fin 4)]
    let ph := x.phaseAt s.clk.cyc
    let n : Nat := max 4 s.PWR_LK_CFG_LK_NPER
    let u := s.waitTill s.lkEnd
    let r := u.lkJudge m
    let delta := wrapSigned 65536 (r.te - r.ts)
    let first := decide (p.lkFcnt = p.lkCyc)
    let acc := if first then delta else p.lkAcc + wrapSigned 65536 (r.ts - p.lkPrevE) + delta
    let fault := r.fault
    let moved := (decide ((s.PWR_LK_WIN_LK_DWIN : Int) < |delta|) ||
      (!fault && !first && decide (((s.PWR_LK_WIN_LK_WIN * 16 : Nat) : Int) < |acc|))) && s.wakeEnabled 1
    let aux := s.lkMeasures && r.valid && (decide (signedOf 24 s.PWR_LK_AHI_LK_AHI < r.aux.p) ||
      decide (r.aux.p < signedOf 24 s.PWR_LK_ALO_LK_ALO)) && s.wakeEnabled 2
    (p.st ≠ .lookout ∨ p.lkRun = true → exec .lookoutCycleStart s = .next s) ∧
    (p.st = .lookout → p.lkRun = false → Completes .lookoutCycleStart s (fun t => t.lookoutOn = true ∧
      (s.rails.vaon = true → p.lkNext ≤ t.clk.rtc) ∧
      t.pwr.lkNext = p.lkNext + max 1 s.PWR_LK_CFG_LK_PER_MS * 1280000000 ∧
      (t.exc[(0 : Fin 4)]).st = .lookout ∧ (t.exc[(0 : Fin 4)]).lvl = s.PWR_LK_EXC_LK_LVL ∧
      (t.exc[(0 : Fin 4)]).car.t0 = t.clk.cyc + 120000 ∧ (t.exc[(0 : Fin 4)]).car.freq = p.lkSet.freq.fld 0 16 ∧
      (∀ n : Fin 4, n ≠ 0 → t.exc[n] = s.exc[n]) ∧
      t = { s with clk := t.clk, exc := t.exc, pwr := { p with lkRun := true, lkLost := false, lkNext := t.pwr.lkNext } })) ∧
    (x.st ≠ .lookout ∨ ph < 0 ∨ (n : Rat) + 4 ≤ ph → s.lkLvl = 0) ∧
    (x.st = .lookout → 2 ≤ ph → ph < (n : Rat) + 2 → s.lkLvl = min (s.lvlLimit 0) x.lvl) ∧
    s.lkLvl ≤ s.lvlLimit 0 ∧
    (p.st ≠ .lookout ∨ p.lkRun = false → exec (.lookoutCycleEnd m) s = .next s) ∧
    (r.fault = true ↔ (∃ f ∈ p.lkSet.fronts {} m.samples, 3 ≤ f.invRun) ∨ (∃ j, j < s.lkPer ∧ u.lkAmp m j < s.PWR_LK_AMIN_LK_AMIN) ∨
      m.excTrip = true ∨ (s.lkMeasures = true ∧ r.valid = false) ∨ s.rails.vdda0 = false ∨ p.lkLost = true) ∧
    r.ts = u.lkAngle m 0 ∧ r.te = u.lkAngle m (s.lkPer - 1) ∧
    (p.st = .lookout → p.lkRun = true → Completes (.lookoutCycleEnd m) s (fun t => t.lookoutOn = false ∧
      t.pwr.lkCyc = p.lkCyc + 1 ∧ t.clk.cyc = max s.clk.cyc s.lkEnd ∧
      t = { s with clk := t.clk, free := t.free, exc := vset s.exc 0 {}, pwr := t.pwr } ∧
      (fault = true → t.pwr.lkAcc = p.lkAcc) ∧ (fault = false → t.pwr.lkAcc = acc ∧ t.pwr.lkPrevE = r.te) ∧
      (s.lkMeasures = true → t.pwr.lkAval = BitVec.ofInt 24 r.aux.p ∧ t.pwr.lkAvalid = r.valid) ∧
      (moved = true → t.pwr.st = .waking ∧ t.pwr.src.getLsbD 1 = true) ∧
      (aux = true → t.pwr.st = .waking ∧ t.pwr.src.getLsbD 2 = true) ∧
      (fault = true → s.wakeEnabled 3 = true → t.pwr.st = .waking ∧ t.pwr.src.getLsbD 3 = true ∧
        t.pwr.lkFcnt = p.lkFcnt) ∧
      (fault = true → s.wakeEnabled 3 = false → t.pwr.lkFcnt = p.lkFcnt + 1) ∧
      (moved = false → aux = false → (fault = false ∨ s.wakeEnabled 3 = false) → t.pwr.st = .lookout)))

/-- Wake sources and the return of CORE (R440 to R445): an alarm at its RTC count, WAKE_IN, a frame of the host and a frame of the
network wake a sleeping device where they are enabled and allowed, but not one that a failed wake has left in OFF (R446); a
disabled one does not; CORE's regulator rises at the next RTC tick; a source seen in ENTERING or WAKING is noted; frames are
latched or buffered; CORE is ready 331 µs after a wake from LOOKOUT, 631 to 2,131 µs after one from OFF, and starts boot, with the
voted domains to follow. -/
def Parts.WakeSources : Prop :=
  ∀ (s : State) (v : Word) (clks : Nat) (bits : BitVec 64) (p : Fin 2) (f : List Byte),
    let q := s.pwr
    let u := s.waitTill (q.wakeAt + 400 * s.wakeUs)
    let votes := s.voteHost ||| q.keptVotes
    let sleeps (b : Nat) : Prop := q.st = .lookout ∨ (q.st = .off ∧ q.offHeld = false ∧ (b = 0 ∨ b = 4 ∨ b = 5))
    let woken (b : Nat) (t : State) : Prop := t.pwr.st = .waking ∧ t.pwr.src = BitVec.ofNat 7 (2 ^ b) ∧ t.pwr.first = b ∧
      t.pwr.wakeFrom = q.st.code ∧ t.pwr.wakeCnt = min 65535 (q.wakeCnt + 1) ∧ t.pwr.wakeRtc = t.rtcNow ∧
      t.pwr.core = .rising t.nextTick ∧ t.pwr.wakeAt = t.clk.cyc
    Completes (.alarmHiWrite v) s (fun t => t.pwr.alarmEn = v.bit 31 ∧
      t.pwr.alarm = BitVec.ofNat 48 (v.fld 0 16 * 2 ^ 32 + s.PWR_ALARM_LO_ALARM) ∧
      BitVec.ofNat 48 t.pwr.alarmAt = t.pwr.alarm ∧ s.rtcTick ≤ t.pwr.alarmAt ∧ t.pwr.alarmAt < s.rtcTick + 2 ^ 48 ∧
      t = { s.setReg 0x1008C (v &&& 0x8000FFFF) with
        pwr := { q with alarm := t.pwr.alarm, alarmEn := t.pwr.alarmEn, alarmAt := t.pwr.alarmAt }, wst := .ok }) ∧
    (q.alarmEn = false → exec .alarm s = .next s) ∧
    (q.alarmEn = true → Completes .alarm s (fun t => t.pwr.alarmEn = false ∧
      t.pwr.alarmEv = true ∧
      (s.rails.vaon = true → q.alarmAt ≤ t.rtcTick ∧ (s.rtcTick ≤ q.alarmAt → t.rtcTick = q.alarmAt)) ∧
      (s.inRunDoze = true → t.pwr.st = q.st ∧ t.quiet = ({ s with clk := t.clk, pwr := t.pwr } : State).quiet) ∧
      (s.wakeEnabled 0 = true → sleeps 0 → woken 0 t) ∧ (s.wakeEnabled 0 = false → t.pwr.st = q.st))) ∧
    (s.wakeEnabled 4 = true → sleeps 4 → Completes .wakeIn s (fun t => woken 4 t ∧
      t = { s with exc := vset s.exc 0 {}, pwr := t.pwr })) ∧
    (s.wakeEnabled 4 = true → q.st = .entering → Completes .wakeIn s (fun t => t.pwr.srcEnt.getLsbD 4 = true ∧
      (q.srcEnt = 0 → t.pwr.firstEnt = 4 ∧ t.pwr.firstTick = s.rtcTick) ∧
      t = { s with pwr := t.pwr })) ∧
    (s.wakeEnabled 4 = true → q.st = .waking → Completes .wakeIn s (fun t => t.pwr.src.getLsbD 4 = true ∧
      t = { s with pwr := t.pwr })) ∧
    (s.wakeEnabled 4 = false ∨ q.st = .run ∨ q.st = .doze ∨ (q.st = .off ∧ q.offHeld = true) → exec .wakeIn s = .next s) ∧
    (q.st = .run ∨ q.st = .doze ∨ (q.st = .waking ∧ s.wakeEnabled 5 = false) → exec (.hostWake clks bits) s = .next s) ∧
    (q.st = .waking → s.wakeEnabled 5 = true → Completes (.hostWake clks bits) s (fun t => t.pwr.src.getLsbD 5 = true ∧
      t = { s with pwr := t.pwr })) ∧
    (s.asleep = true → Completes (.hostWake clks bits) s (fun t => t.pwr.hostLatched = true ∧
      (q.hostLatched = false → t.pwr.hostClks = min 255 clks ∧ t.pwr.replay = bits ∧ t.pwr.hostMore = q.hostMore) ∧
      (q.hostLatched = true → t.pwr.replay = q.replay ∧ t.pwr.hostMore = min 127 (q.hostMore + 1)) ∧
      (s.wakeEnabled 5 = true → sleeps 5 → woken 5 t) ∧ (s.wakeEnabled 5 = false → t.pwr.st = q.st) ∧
      (s.coreOn = true → ∃ i, t.resp = some (mkResp .notReady i [])) ∧ (s.coreOn = false → t.resp = none) ∧
      t = { s with pwr := t.pwr, resp := t.resp, free := t.free, exc := t.exc })) ∧
    (s.listening = false ∨ s.listenTakes p f = false → exec (.netWake p f) s = .next s) ∧
    (s.listening = true → s.listenTakes p f = true → Completes (.netWake p f) s (fun t => t = { s with pwr := t.pwr, exc := t.exc } ∧
      (q.netBuf.length < 16 → t.pwr.netBuf = q.netBuf ++ [(p, f)] ∧ t.pwr.netLost = q.netLost) ∧
      (16 ≤ q.netBuf.length → t.pwr.netBuf = q.netBuf ∧ t.pwr.netLost = min 255 (q.netLost + 1)) ∧
      (q.st = .lookout → woken 6 t))) ∧
    (q.st = .waking → q.core ≠ .off → s.boot.phase = .reset → Completes .wakeCoreReady s (fun t => t.clk.cyc = 0 ∧
      (q.wakeFrom = 2 → s.wakeUs = 331) ∧ (q.wakeFrom ≠ 2 → 631 ≤ s.wakeUs ∧ s.wakeUs ≤ 2131) ∧
      t.clk = { u.clk with cyc := 0 } ∧
      t.pwr.core = .on ∧ t.boot.phase = .header ∧ t.boot.kind = .wake ∧ t.pwr.st = .waking ∧
      (t.pwr.half.h0 = if votes.bit 0 then .rising 80000 else .off) ∧
      (t.pwr.half.h1 = if votes.bit 1 then .rising 160000 else .off) ∧
      (s.qb = false → q.net.isOn = false → t.pwr.net = if votes.bit 2 then .rising 240000 else .off) ∧
      (∀ b : Fin 8, t.pwr.bank[b] = if votes.bit (8 + b.val) then .rising 0 else .off) ∧
      t.liveBit .pwr .shared 0 = s.sys.rtcLprc ∧ t.cfg = s.cfg ∧ t.sram = s.sram)) ∧
    (q.st ≠ .waking ∨ q.core = .off ∨ s.boot.phase ≠ .reset → exec .wakeCoreReady s = .next s)

/-- Lookout cycles and wake sources. -/
def Obligations.LookoutAndWake : Prop :=
  Parts.LookoutCycles ∧ Parts.WakeSources

/-- The TAP (R55): while CORE is on and its pads are not held one period of TCK moves the controller as IEEE 1149.1 says, captures
and shifts on its rising edge, updates and drives TDO on its falling edge; five periods with TMS high reset it from any state;
without CORE it rests, and while the pads of CORE are held it sees none (R51, R52). The instructions, and what they capture, are
the model's (assumption 6). -/
def Obligations.TapMoves : Prop :=
  ∀ (s : State) (tms tdi : Bool),
    let x := s.tap
    let sh (l : List Bool) : List Bool := l.drop 1 ++ [tdi]
    (s.coreOn = false ∨ s.pads.heldCore = true → exec (.tapTckEdge tms tdi) s = .next s) ∧
    (s.coreOn = true → s.pads.heldCore = false → Completes (.tapTckEdge tms tdi) s (fun t => t.tap.st = tapNext x.st tms ∧
      t = { s with tap := t.tap, free := t.free } ∧
      (x.st = .shDr → t.tap.drSh = sh x.drSh) ∧ (x.st = .shIr → t.tap.irSh = sh x.irSh) ∧
      (x.st = .capDr → s.tapReg = 0 → t.tap.drSh = [false]) ∧
      (x.st = .capDr → s.tapReg = 1 → t.tap.drSh = bitsOf Config.idcode.toNat 32) ∧
      (x.st = .capIr → t.tap.irSh.take 2 = [true, false]) ∧
      (t.tap.st = .updIr → t.tap.ir = bitsNat t.tap.irSh ∧ t.tap.idSel = false) ∧
      (t.tap.st = .updDr → s.sys.scan = false → t.tap.bsr = x.bsr) ∧
      (t.tap.st = .shDr → t.tap.tdo = t.tap.drSh.head?) ∧ (t.tap.st = .shIr → t.tap.tdo = t.tap.irSh.head?) ∧
      (t.tap.st = .reset → t.tap.idSel = true ∧ t.tap.tdo = none))) ∧
    (∀ st, tapNext (tapNext (tapNext (tapNext (tapNext st true) true) true) true) true = .reset)
end

