-- ==== Sys2Proof/Laws/Base.lean ====
section
/-! SUPPORT. What nearly every operation leaves alone: the waiting commands, the ordering code, the FRAM, the
rails, whether the device has released, and the relation of every queue's counts (R411). -/

namespace Sys2Proof.Machine

/-- By how much the counts of a queue miss the relation of R411, modulo 2^32. -/
def Queue.miss (q : Queue) : Nat := (q.deliv + q.held + q.drop + (2 ^ 32 - q.nseq % 2 ^ 32)) % 2 ^ 32

/-- The misses of all queues. -/
def Que.led (q : Que) : Fin 64 → Nat := fun i => (q.q[i]).miss

/-- What most operations leave alone. -/
structure Base where
  pending : List Instr
  qb : Bool
  fram : List Host.Cell
  led : Fin 64 → Nat
  rails : Rails
  released : Bool

/-- That part of the state. -/
def State.base (s : State) : Base := ⟨s.pending, s.qb, s.fram, s.que.led, s.rails, s.boot.released⟩

@[simp] theorem State.base_mk (pending qb free cfg capt badPar badEcc sram fram clk rails sys alive unlock pads boot flt xd safe
    sdm que resp wst pwr exc vexcMv pch scl sclH dch gen enc aev aux crz tim net frec tap) :
    (State.mk pending qb free cfg capt badPar badEcc sram fram clk rails sys alive unlock pads boot flt xd safe sdm que resp
      wst pwr exc vexcMv pch scl sclH dch gen enc aev aux crz tim net frec tap).base =
      ⟨pending, qb, fram, que.led, rails, boot.released⟩ := id rfl

@[simp] theorem State.base_eta (s : State) : Base.mk s.pending s.qb s.fram s.que.led s.rails s.boot.released = s.base := id rfl

@[simp] theorem Que.led_counts (k : Que) (c f : Nat) : Que.led { k with crcErrs := c, frameErrs := f } = k.led := id rfl

@[simp] theorem State.base_ite (c : Prop) [Decidable c] (a b : State) :
    (if c then a else b).base = if c then a.base else b.base := apply_ite _ _ _ _

@[simp] theorem State.snd_ite {α : Type} (c : Prop) [Decidable c] (a b : α × State) :
    (if c then a else b).2 = if c then a.2 else b.2 := apply_ite _ _ _ _

/-- A fold over operations that keep the base keeps it. -/
theorem State.foldl_base {α : Type} (g : State → α → State) (h : ∀ s x, (g s x).base = s.base) (l : List α) (s : State) :
    (l.foldl g s).base = s.base := by
  induction l generalizing s with
  | nil => rfl
  | cons x t ih => simp [List.foldl_cons, ih, h]

end Sys2Proof.Machine
end

