-- ==== Sys2Proof/Laws/BaseOps.lean ====
section
/-! SUPPORT. Every operation of the model leaves the base alone, but for those named here with what they do to it. -/

namespace Sys2Proof.Machine

theorem Que.led_set (k : Que) (i : Fin 64) (q : Queue) (n : Nat) (h : q.miss = (k.q[i]).miss) :
    Que.led { k with q := vset k.q i q, offers := n } = k.led := by
  funext j
  by_cases hj : j = i
  · subst hj; simp [Que.led, vset, h]
  · simp [Que.led, vset, Ne.symm (Fin.val_ne_of_ne hj)]

/-- Counts that miss the relation by as much as before leave the base as it was. -/
theorem State.que_base (s : State) (i : Fin 64) (q : Queue) (n : Nat) (h : q.miss = (s.que.q[i]).miss) :
    State.base { s with que := { s.que with q := vset s.que.q i q, offers := n } } = s.base := by
  have := Que.led_set s.que i q n h
  simp only [State.base_mk, this, State.base_eta]

/-- The rings hold the same records. -/
def State.SameRings (s t : State) : Prop := ∀ i : Fin 64, (t.que.q[i]).ring = (s.que.q[i]).ring

theorem State.SameRings.refl (s : State) : s.SameRings s := fun _ => rfl

theorem State.SameRings.trans {s t u : State} (h : s.SameRings t) (k : t.SameRings u) : s.SameRings u :=
  fun i => (k i).trans (h i)

theorem State.SameRings.of_que {s t : State} (h : t.que = s.que) : s.SameRings t := fun i => by rw [h]

theorem State.que_rings (s : State) (i : Fin 64) (q : Queue) (n : Nat) (hr : q.ring = (s.que.q[i]).ring) :
    s.SameRings { s with que := { s.que with q := vset s.que.q i q, offers := n } } := by
  intro j
  by_cases hj : j = i
  · subst hj; simpa [vset] using hr
  · simp [vset, Ne.symm (Fin.val_ne_of_ne hj)]

theorem State.setQ_rings (s : State) (i : Fin 64) (q : Queue) (hr : q.ring = (s.que.q[i]).ring) :
    s.SameRings { s with que := { s.que with q := vset s.que.q i q } } := State.que_rings s i q s.que.offers hr

theorem State.foldl_rings {α : Type} (g : State → α → State) (h : ∀ (s : State) x, s.SameRings (g s x)) (l : List α) (s : State) :
    s.SameRings (l.foldl g s) := by
  induction l generalizing s with
  | nil => exact State.SameRings.refl s
  | cons x t ih => exact (h s x).trans (ih _)

theorem Que.led_reset : Que.led { q := Vector.ofFn fun i => { base := i.val * 8192 } } = fun _ => 0 := by
  funext j
  simp [Que.led, Queue.miss, Queue.held]

@[simp] theorem State.putReg_base (s : State) (a : Nat) (v : Word) :
    (State.putReg s a v).base = s.base := by
  unfold State.putReg
  simp

@[simp] theorem State.markParity_base (s : State) (p : Page) (a : Nat) :
    (State.markParity s p a).base = s.base := by
  unfold State.markParity
  simp

@[simp] theorem State.setReg_base (s : State) (a : Nat) (v : Word) :
    (State.setReg s a v).base = s.base := by
  unfold State.setReg
  (repeat' split) <;> simp

@[simp] theorem State.capture_base (s : State) (a : Nat) (v : Word) :
    (State.capture s a v).base = s.base := by
  unfold State.capture
  simp

@[simp] theorem State.only_base (s : State) (st : Status) :
    (State.only s st).2.base = s.base := by
  unfold State.only
  simp

@[simp] theorem State.wait_base (s : State) (k : Nat) :
    (State.wait s k).base = s.base := by
  unfold State.wait
  simp

@[simp] theorem State.waitTill_base (s : State) (t : Nat) :
    (State.waitTill s t).base = s.base := by
  unfold State.waitTill
  simp

@[simp] theorem State.draw_base (s : State) :
    (State.draw s).base = s.base := by
  unfold State.draw
  simp

@[simp] theorem State.voteAll_base (s : State) :
    (State.voteAll s).base = s.base := by
  unfold State.voteAll
  simp

@[simp] theorem State.reform_base (s : State) :
    (State.reform s).base = s.base := by
  unfold State.reform
  simp

@[simp] theorem State.setSslAt_base (s : State) (d : Drive) (t : Nat) :
    (State.setSslAt s d t).base = s.base := by
  unfold State.setSslAt
  (try dsimp only)
  (repeat' split) <;> simp

@[simp] theorem State.setSsl_base (s : State) (d : Drive) :
    (State.setSsl s d).base = s.base := by
  unfold State.setSsl
  simp

/-- An offer that drops its record keeps the counts in step: one more number, one more drop (R408, R411). -/
theorem Queue.dropOne_number_miss (q : Queue) (src t : Nat) : (q.number src t).2.dropOne.miss = q.miss := by
  simp [Queue.number, Queue.miss, Queue.dropOne, Queue.held]; omega

theorem Queue.enter_ring (q : Queue) (x : Staged) : (q.enter x).ring = q.ring := by
  unfold Queue.enter Queue.dropOne
  dsimp only
  split <;> rfl

/-- An offer that enters staging keeps the counts in step: one more number, and one more record held or dropped (R408, R411). -/
theorem Queue.enter_number_miss (q : Queue) (src t : Nat) (x : Staged) : ((q.number src t).2.enter x).miss = q.miss := by
  have hl (l : List Staged) : ((l.takeWhile fun y => decide (y.seq < x.seq)) ++
      x :: l.dropWhile fun y => decide (y.seq < x.seq)).length = l.length + 1 := by
    have := congrArg List.length (List.takeWhile_append_dropWhile (p := fun y : Staged => decide (y.seq < x.seq)) (l := l))
    simp only [List.length_append, List.length_cons] at this ⊢
    omega
  have hn : (q.number src t).2.staged.length = q.staged.length := by simp [Queue.number]
  have hm : (q.number src t).2.nseq = (q.nseq + 1) % 2 ^ 64 := rfl
  have hr : (q.number src t).2.ring = q.ring := rfl
  have hd : (q.number src t).2.drop = q.drop := rfl
  have he : (q.number src t).2.deliv = q.deliv := rfl
  unfold Queue.enter
  extract_lets l
  have h := hl (q.number src t).2.staged
  split
  · simp only [Queue.miss, Queue.held, hm, hr, hd, he, l, h, hn]
    omega
  · simp only [Queue.miss, Queue.held, Queue.dropOne, List.length_dropLast, hm, hr, hd, he, l, h, hn]
    omega

@[simp] theorem State.offerRaw_base (s : State) (i : Fin 64) (src : Nat) (payload : List Byte) :
    (State.offerRaw s i src payload).base = s.base := by
  unfold State.offerRaw
  dsimp only
  apply State.que_base
  split
  · exact Queue.dropOne_number_miss _ _ _
  · exact Queue.enter_number_miss _ _ _ _

theorem State.offerRaw_rings (s : State) (i : Fin 64) (src : Nat) (payload : List Byte) :
    s.SameRings (s.offerRaw i src payload) := by
  refine State.que_rings s i _ _ ?_
  split
  · rfl
  · exact Queue.enter_ring _ _

@[simp] theorem State.settle_base (s : State) (i : Fin 64) : (State.settle s i).base = s.base := by
  have h := State.que_base s i { s.que.q[i] with intWas := s.queInt i } s.que.offers rfl
  unfold State.settle
  dsimp only
  split
  · rw [State.offerRaw_base]; exact h
  · exact h

theorem State.settle_rings (s : State) (i : Fin 64) : s.SameRings (s.settle i) := by
  have h : s.SameRings { s with que := { s.que with q := vset s.que.q i { s.que.q[i] with intWas := s.queInt i } } } :=
    State.setQ_rings s i _ rfl
  unfold State.settle
  dsimp only
  split
  · exact h.trans (State.offerRaw_rings _ _ _ _)
  · exact h

@[simp] theorem State.settleAll_base (s : State) :
    (State.settleAll s).base = s.base := by
  unfold State.settleAll
  simp [State.foldl_base]

@[simp] theorem State.offer_base (s : State) (i : Fin 64) (src : Nat) (payload : List Byte) :
    (State.offer s i src payload).base = s.base := by
  unfold State.offer
  simp

theorem State.offer_rings (s : State) (i : Fin 64) (src : Nat) (payload : List Byte) : s.SameRings (s.offer i src payload) :=
  (State.offerRaw_rings s i src payload).trans (State.settle_rings _ i)

@[simp] theorem State.updHdr_base (s : State) (p : Page) (f : FaultHdr → FaultHdr) :
    (State.updHdr s p f).base = s.base := by
  unfold State.updHdr
  simp

@[simp] theorem State.noteHeld_base (s : State) (p : Page) (b : Nat) :
    (State.noteHeld s p b).base = s.base := by
  unfold State.noteHeld
  simp

@[simp] theorem State.askHandover_base (s : State) (d : Drive) (h : Half) (p : Page) (b : Nat) :
    (State.askHandover s d h p b).base = s.base := by
  unfold State.askHandover
  simp

@[simp] theorem State.reactHo_base (s : State) (d : Drive) (h : Half) (p : Page) (b : Nat) :
    (State.reactHo s d h p b).base = s.base := by
  unfold State.reactHo
  simp

@[simp] theorem State.reactDev_base (s : State) :
    (State.reactDev s).base = s.base := by
  unfold State.reactDev
  simp

@[simp] theorem State.react_base (s : State) (p : Page) (b : Nat) (r : Nat) (aff : Drive → Bool) :
    (State.react s p b r aff).base = s.base := by
  unfold State.react
  (repeat' split) <;> simp

theorem State.setSsl_keeps_que (s : State) (d : Drive) : (s.setSsl d).que = s.que := by
  unfold State.setSsl State.setSslAt
  dsimp only
  split <;> rfl

theorem State.reactHo_que (s : State) (d : Drive) (h : Half) (p : Page) (b : Nat) : (s.reactHo d h p b).que = s.que := by
  unfold State.reactHo
  (repeat' split)
  · unfold State.askHandover
    dsimp only
    split <;> rfl
  · exact State.setSsl_keeps_que s d
  · rfl

theorem State.react_que (s : State) (p : Page) (b : Nat) (r : Nat) (aff : Drive → Bool) : (s.react p b r aff).que = s.que := by
  have h3 : s.reactDev.que = s.que := by
    unfold State.reactDev
    dsimp only
    rw [State.setSsl_keeps_que, State.setSsl_keeps_que]
    split <;> rfl
  unfold State.react
  dsimp only
  split
  · rfl
  · split
    · (repeat' split) <;> simp only [State.setSsl_keeps_que, State.reactHo_que, h3]
    · have hu (t : State) (f : FaultHdr → FaultHdr) : (t.updHdr p f).que = t.que := rfl
      rw [hu]
      (repeat' split) <;> simp only [State.setSsl_keeps_que, State.reactHo_que, h3]

@[simp] theorem State.fltTriggers_base (s : State) (r : Nat) :
    (State.fltTriggers s r).base = s.base := by
  unfold State.fltTriggers
  simp

/-- A fault record taken back keeps the counts in step: its number and its place, held or dropped, go together (R411). -/
theorem Queue.takeBack_miss (q : Queue) (t : Nat) (c : Word) (w : Bool) : (q.takeBack t c w).miss = q.miss := by
  unfold Queue.takeBack
  extract_lets q1 hit n
  have hs (m x : Nat) (hm : 2 ^ 32 ∣ m) (h0 : 0 < m) : (stepBack m x + 1) % 2 ^ 32 = x % 2 ^ 32 := by
    unfold stepBack
    obtain ⟨k, rfl⟩ := hm
    split <;> omega
  have hn : (n + 1) % 2 ^ 32 = q.nseq % 2 ^ 32 := hs _ _ (by decide) (by decide)
  have hd := hs (2 ^ 32) q.drop (by decide) (by decide)
  cases e : List.find? hit q1.staged with
  | none =>
    simp only [Queue.miss, Queue.held, q1]
    omega
  | some y =>
    have hy : y ∈ q.staged ∧ hit y = true := ⟨List.mem_of_find?_eq_some e, List.find?_some e⟩
    have hl : (q.staged.eraseP hit).length = q.staged.length - 1 := List.length_eraseP_of_mem hy.1 hy.2
    have hp : 0 < q.staged.length := List.length_pos_of_mem hy.1
    simp only [Queue.miss, Queue.held, q1, List.length_map, hl]
    omega

theorem Queue.takeBack_ring (q : Queue) (t : Nat) (c : Word) (w : Bool) : (q.takeBack t c w).ring = q.ring := by
  have h (n d : Nat) (e : Bool) (l : List Staged) (k : List Nat) :
      Queue.ring { q with nseq := n, drop := d, dropEv := e, staged := l, same := k } = q.ring := rfl
  unfold Queue.takeBack
  extract_lets q1 hit n
  cases List.find? hit q1.staged
  · exact h n _ w q.staged _
  · exact h n q.drop q.dropEv _ _

@[simp] theorem State.markRecord_base (s : State) (p : Page) (code : Word) (full : Bool) :
    (State.markRecord s p code full).base = s.base :=
  State.que_base s (faultQueue p) _ s.que.offers (by simp [Queue.miss, Queue.held])

theorem State.yieldBlaze_rings (s : State) (p : Page) (r : Report) : s.SameRings (s.yieldBlaze p r) := by
  unfold State.yieldBlaze
  dsimp only
  (repeat' split)
  · exact State.que_rings s (faultQueue p) _ s.que.offers (Queue.takeBack_ring _ _ _ _)
  · exact State.que_rings s (faultQueue p) _ s.que.offers rfl
  · exact State.SameRings.refl s

@[simp] theorem State.yieldBlaze_base (s : State) (p : Page) (r : Report) :
    (State.yieldBlaze s p r).base = s.base := by
  unfold State.yieldBlaze
  dsimp only
  (repeat' split)
  · exact State.que_base s (faultQueue p) _ s.que.offers (Queue.takeBack_miss _ _ _ _)
  · simp
  · rfl

@[simp] theorem State.fileReport_base (s : State) (p : Page) (r : Report) : (State.fileReport s p r).base = s.base := by
  unfold State.fileReport
  simp

theorem State.fileReport_rings (s : State) (p : Page) (r : Report) : s.SameRings (s.fileReport p r) := by
  have h : s.SameRings ((s.fltTriggers r.react).yieldBlaze p r) :=
    State.SameRings.trans (State.SameRings.of_que rfl) (State.yieldBlaze_rings _ p r)
  unfold State.fileReport
  dsimp only
  split
  · exact (h.trans (State.SameRings.of_que rfl)).trans (State.offer_rings _ _ _ _)
  · exact h.trans (State.SameRings.of_que rfl)

@[simp] theorem State.report_base (s : State) (p : Page) (b : Nat) (c : Copy) (m : Master) :
    (State.report s p b c m).base = s.base := by
  unfold State.report
  simp

theorem State.report_rings (s : State) (p : Page) (b : Nat) (c : Copy) (m : Master) : s.SameRings (s.report p b c m) := by
  unfold State.report
  split
  · exact State.SameRings.refl s
  · dsimp only
    refine State.SameRings.trans ?_ (State.SameRings.of_que (State.react_que _ _ _ _ _))
    refine State.SameRings.trans ?_ (State.fileReport_rings _ _ _)
    apply State.SameRings.of_que
    split <;> rfl

@[simp] theorem State.flash_base (s : State) (p : Page) (b : Nat) :
    (State.flash s p b).base = s.base := by
  unfold State.flash
  simp

@[simp] theorem State.event_base (s : State) (p : Page) (b : Nat) (c : Copy) : (State.event s p b c).base = s.base := by
  unfold State.event
  simp

theorem State.event_rings (s : State) (p : Page) (b : Nat) (c : Copy) : s.SameRings (s.event p b c) := by
  have h : s.SameRings (s.flash p b) := State.SameRings.of_que rfl
  unfold State.event
  split
  · exact State.SameRings.refl s
  · split
    · exact State.SameRings.of_que rfl
    · exact h.trans (State.report_rings _ p b c _)

@[simp] theorem State.cond_base (s : State) (p : Page) (b : Nat) (c : Copy) (v : Bool) :
    (State.cond s p b c v).base = s.base := by
  unfold State.cond
  simp

theorem State.fabReport_rings (s : State) (b : Nat) (m : Master) (addr : Nat) (wr : Bool) :
    s.SameRings (s.fabReport b m addr wr) := by
  unfold State.fabReport
  refine State.SameRings.trans ?_ (State.SameRings.of_que (State.react_que _ _ _ _ _))
  refine State.SameRings.trans ?_ (State.fileReport_rings _ _ _)
  exact State.SameRings.of_que rfl

@[simp] theorem State.checkerErr_base (s : State) (p : Page) (n : Nat) (uncorr : Bool) :
    (State.checkerErr s p n uncorr).base = s.base := by
  unfold State.checkerErr
  simp

theorem State.checkerErr_rings (s : State) (p : Page) (n : Nat) (uncorr : Bool) : s.SameRings (s.checkerErr p n uncorr) := by
  unfold State.checkerErr
  split
  · exact State.SameRings.refl s
  · dsimp only
    refine State.SameRings.trans ?_ (State.SameRings.of_que (State.react_que _ _ _ _ _))
    refine State.SameRings.trans ?_ (State.fileReport_rings _ _ _)
    exact State.SameRings.of_que rfl

@[simp] theorem State.eccPut_base (s : State) (p : Page) (a : Nat) :
    (State.eccPut s p a).base = s.base := by
  unfold State.eccPut
  simp

@[simp] theorem State.eccGet_base (s : State) (p : Page) (a : Nat) (v : Word) :
    (State.eccGet s p a v).2.2.base = s.base := by
  unfold State.eccGet
  (repeat' split) <;> simp

@[simp] theorem State.fabReport_base (s : State) (b : Nat) (m : Master) (addr : Nat) (wr : Bool) :
    (State.fabReport s b m addr wr).base = s.base := by
  unfold State.fabReport
  simp

@[simp] theorem State.inst_base (s : State) (x : Half) (addr : Nat) (r : Status × State) (h : r.2.base = s.base) :
    (State.inst s x addr r).2.base = s.base := by
  unfold State.inst
  split <;> simp [h]

@[simp] theorem State.instRead_base (s : State) (x : Half) (addr : Nat) (r : Status × State) (h : r.2.base = s.base) :
    (State.instRead s x addr r).2.base = s.base := by
  unfold State.instRead
  split <;> simp [h]

@[simp] theorem State.setExc_base (s : State) (n : Fin 4) (x : Exc) :
    (State.setExc s n x).base = s.base := by
  unfold State.setExc
  simp

@[simp] theorem State.startExc_base (s : State) (n : Fin 4) :
    (State.startExc s n).base = s.base := by
  unfold State.startExc
  simp

@[simp] theorem State.judgeClip_base (s : State) (n : Fin 4) :
    (State.judgeClip s n).base = s.base := by
  unfold State.judgeClip
  simp

@[simp] theorem State.reframeAll_base (s old : State) :
    (State.reframeAll s old).base = s.base := by
  unfold State.reframeAll
  (try dsimp only)
  (repeat' split) <;> simp

@[simp] theorem State.takeGen_base (s : State) (p : Vector Pub 8) (rest : List (Nat × Vector Pub 8)) :
    (State.takeGen s p rest).base = s.base := by
  unfold State.takeGen
  simp

@[simp] theorem State.setEnc_base (s : State) (n : Fin 4) (x : Enc) :
    (State.setEnc s n x).base = s.base := by
  unfold State.setEnc
  simp

@[simp] theorem State.tallyEvent_base (s : State) (n : Fin 4) (code : Nat) (jump : Int) :
    (State.tallyEvent s n code jump).base = s.base := by
  unfold State.tallyEvent
  simp

@[simp] theorem State.judgeTally_base (s : State) (n : Fin 4) :
    (State.judgeTally s n).base = s.base := by
  unfold State.judgeTally
  simp

@[simp] theorem State.encFollow_base (s : State) (n : Fin 4) :
    (State.encFollow s n).base = s.base := by
  unfold State.encFollow
  simp

@[simp] theorem State.encFollowAll_base (s : State) :
    (State.encFollowAll s).base = s.base := by
  unfold State.encFollowAll
  simp [State.foldl_base]

@[simp] theorem State.setPch_base (s : State) (n : Fin 8) (x : Pch) :
    (State.setPch s n x).base = s.base := by
  unfold State.setPch
  simp

@[simp] theorem State.pcond_base (s : State) (n : Fin 8) (b : Nat) (v : Bool) :
    (State.pcond s n b v).base = s.base := by
  unfold State.pcond
  simp

@[simp] theorem State.freezeLost_base (s : State) :
    (State.freezeLost s).base = s.base := by
  unfold State.freezeLost
  simp

@[simp] theorem State.setTag_base (s0 : State) (n : Fin 8) (tag : BitVec 8) :
    (State.setTag s0 n tag).base = s0.base := by
  unfold State.setTag
  simp

@[simp] theorem State.retag_base (s : State) (n : Fin 8) :
    (State.retag s n).base = s.base := by
  unfold State.retag
  simp

@[simp] theorem State.unvalid_base (s0 : State) (n : Fin 8) :
    (State.unvalid s0 n).base = s0.base := by
  unfold State.unvalid
  simp

@[simp] theorem State.dropCratio_base (s : State) (n : Fin 8) :
    (State.dropCratio s n).base = s.base := by
  unfold State.dropCratio
  simp

@[simp] theorem State.lossWindow_base (s : State) (n : Fin 8) :
    (State.lossWindow s n).base = s.base := by
  unfold State.lossWindow
  simp

@[simp] theorem State.declareLoss_base (s0 : State) (n : Fin 8) (i : Nat) :
    (State.declareLoss s0 n i).base = s0.base := by
  unfold State.declareLoss
  simp

@[simp] theorem State.declareOnce_base (s0 : State) (n : Fin 8) (i : Nat) :
    (State.declareOnce s0 n i).base = s0.base := by
  unfold State.declareOnce
  simp

@[simp] theorem State.causeEnds_base (s : State) (n : Fin 8) (i : Nat) :
    (State.causeEnds s n i).base = s.base := by
  unfold State.causeEnds
  simp

@[simp] theorem State.judgeDrv_base (s : State) (n : Fin 8) :
    (State.judgeDrv s n).base = s.base := by
  unfold State.judgeDrv
  simp

@[simp] theorem State.judgeDrvAll_base (s : State) :
    (State.judgeDrvAll s).base = s.base := by
  unfold State.judgeDrvAll
  simp [State.foldl_base]

@[simp] theorem State.standingCauses_base (s : State) (n : Fin 8) :
    (State.standingCauses s n).base = s.base := by
  unfold State.standingCauses
  simp

@[simp] theorem State.startChan_base (s : State) (n : Fin 8) (rearm : Bool) :
    (State.startChan s n rearm).base = s.base := by
  unfold State.startChan
  simp

@[simp] theorem State.enableChan_base (s : State) (n : Fin 8) :
    (State.enableChan s n).base = s.base := by
  unfold State.enableChan
  simp

@[simp] theorem State.stopChan_base (s : State) (n : Fin 8) :
    (State.stopChan s n).base = s.base := by
  unfold State.stopChan
  simp

@[simp] theorem State.rearm_base (s : State) (n : Fin 8) :
    (State.rearm s n).base = s.base := by
  unfold State.rearm
  simp

@[simp] theorem State.sampleBits_base (s : State) (n : Fin 8) :
    (State.sampleBits s n).base = s.base := by
  unfold State.sampleBits
  simp

@[simp] theorem State.oneSample_base (s : State) (n : Fin 8) (k : Nat) (x : Sample) (t : TickSum) :
    (State.oneSample s n k x t).1.base = s.base := by
  unfold State.oneSample
  dsimp only
  (repeat' split) <;> simp

@[simp] theorem State.fiveSamples_base (s : State) (n : Fin 8) (i : TickSamples) :
    (State.fiveSamples s n i).1.base = s.base := by
  unfold State.fiveSamples
  simp

@[simp] theorem State.formPair_base (s : State) (n : Fin 8) (t0 : TickSum) :
    (State.formPair s n t0).base = s.base := by
  unfold State.formPair
  simp

@[simp] theorem State.ampVerdict_base (s : State) (n : Fin 8) (b : Nat) (i : Nat) (v : Bool) :
    (State.ampVerdict s n b i v).base = s.base := by
  unfold State.ampVerdict
  simp

@[simp] theorem State.judgeAmp_base (s : State) (n : Fin 8) :
    (State.judgeAmp s n).base = s.base := by
  unfold State.judgeAmp
  simp

@[simp] theorem State.periodTick_base (s : State) (n : Fin 8) :
    (State.periodTick s n).base = s.base := by
  unfold State.periodTick
  simp

@[simp] theorem State.phaseAdapt_base (s : State) (n : Fin 8) :
    (State.phaseAdapt s n).base = s.base := by
  unfold State.phaseAdapt
  simp

@[simp] theorem State.setScl_base (s : State) (n : Fin 8) (x : Scl) :
    (State.setScl s n x).base = s.base := by
  unfold State.setScl
  simp

@[simp] theorem State.coefPut_base (s : State) (n : Fin 8) (m : BitVec 18) :
    (State.coefPut s n m).base = s.base := by
  unfold State.coefPut
  simp [State.foldl_base]

@[simp] theorem State.sclTake_base (s : State) (n : Fin 8) :
    (State.sclTake s n).base = s.base := by
  unfold State.sclTake
  dsimp only
  (repeat' split) <;> simp

@[simp] theorem State.sclApplyDue_base (s : State) (n : Fin 8) :
    (State.sclApplyDue s n).base = s.base := by
  unfold State.sclApplyDue
  simp

@[simp] theorem State.loopTick_base (s : State) (n : Fin 8) :
    (State.loopTick s n).base = s.base := by
  unfold State.loopTick
  simp

@[simp] theorem State.judgeCratio_base (s : State) (n : Fin 8) :
    (State.judgeCratio s n).base = s.base := by
  unfold State.judgeCratio
  simp

@[simp] theorem State.endCoastLong_base (s : State) (n : Fin 8) :
    (State.endCoastLong s n).base = s.base := by
  unfold State.endCoastLong
  simp

@[simp] theorem State.respTick_base (s : State) (n : Fin 8) :
    (State.respTick s n).base = s.base := by
  unfold State.respTick
  simp

@[simp] theorem State.takeSect_base (s : State) (n : Fin 8) :
    (State.takeSect s n).base = s.base := by
  unfold State.takeSect
  dsimp only
  (repeat' split) <;> simp

@[simp] theorem State.publish_base (s : State) (n : Fin 8) (first : Bool) :
    (State.publish s n first).base = s.base := by
  unfold State.publish
  simp

@[simp] theorem State.learnTick_base (s : State) (n : Fin 8) :
    (State.learnTick s n).base = s.base := by
  unfold State.learnTick
  simp

@[simp] theorem State.chanTick_base (s : State) (n : Fin 8) (i : TickSamples) :
    (State.chanTick s n i).base = s.base := by
  have h1 (t : State) (k : Nat) (x : Sample) (u : TickSum) : (t.oneSample n k x u).1.base = t.base := by
    unfold State.oneSample
    dsimp only
    (repeat' split) <;> simp
  have h5 (t : State) : (t.fiveSamples n i).1.base = t.base := by
    unfold State.fiveSamples
    simp [h1]
  unfold State.chanTick
  dsimp only
  split
  · rfl
  · simp [h5]

@[simp] theorem State.pchSetEn_base (s : State) (n : Fin 8) (en : Bool) :
    (State.pchSetEn s n en).base = s.base := by
  unfold State.pchSetEn
  simp

@[simp] theorem State.pchCntClr_base (s : State) (n : Fin 8) :
    (State.pchCntClr s n).base = s.base := by
  unfold State.pchCntClr
  simp

@[simp] theorem State.clearLoss_base (s : State) (n : Fin 8) :
    (State.clearLoss s n).base = s.base := by
  unfold State.clearLoss
  simp

@[simp] theorem State.trackFault_base (s : State) (n : Fin 8) (b : Nat) (i : Nat) :
    (State.trackFault s n b i).base = s.base := by
  unfold State.trackFault
  simp

@[simp] theorem State.writeSect_base (s : State) (n : Fin 8) (v : Word) :
    (State.writeSect s n v).2.base = s.base := by
  unfold State.writeSect
  simp

@[simp] theorem State.pchCapture_base (s : State) (n : Fin 8) :
    (State.pchCapture s n).base = s.base := by
  unfold State.pchCapture
  simp

@[simp] theorem State.predRead_base (s : State) (n : Fin 8) :
    (State.predRead s n).base = s.base := by
  unfold State.predRead
  simp

@[simp] theorem State.writePredLo_base (s : State) (n : Fin 8) (v : Word) :
    (State.writePredLo s n v).base = s.base := by
  unfold State.writePredLo
  simp

@[simp] theorem State.writePredHi_base (s : State) (n : Fin 8) (v : Word) :
    (State.writePredHi s n v).base = s.base := by
  unfold State.writePredHi
  simp

@[simp] theorem State.pchPeakClr_base (s : State) (n : Fin 8) :
    (State.pchPeakClr s n).base = s.base := by
  unfold State.pchPeakClr
  simp

@[simp] theorem State.sclCoef_base (s0 : State) (n : Fin 8) (r : Fin 18) (v : Word) :
    (State.sclCoef s0 n r v).base = s0.base := by
  unfold State.sclCoef
  simp

@[simp] theorem State.sclCtrl_base (s : State) (n : Fin 8) (v : Word) :
    (State.sclCtrl s n v).base = s.base := by
  unfold State.sclCtrl
  simp

@[simp] theorem State.sclNeutral_base (s : State) (n : Fin 8) :
    (State.sclNeutral s n).base = s.base := by
  unfold State.sclNeutral
  simp

@[simp] theorem State.sclAlign_base (s : State) (n : Fin 8) (v : Nat) :
    (State.sclAlign s n v).2.base = s.base := by
  unfold State.sclAlign
  simp

@[simp] theorem State.trimReq_base (s : State) (n : Fin 8) :
    (State.trimReq s n).base = s.base := by
  unfold State.trimReq
  simp

@[simp] theorem State.awaitGate_base (s : State) (n : Fin 8) :
    (State.awaitGate s n).base = s.base := by
  unfold State.awaitGate
  simp

@[simp] theorem State.sweepTurns_base (s : State) (h : Half) :
    (State.sweepTurns s h).base = s.base := by
  unfold State.sweepTurns
  simp [State.foldl_base]

@[simp] theorem State.sweepDone_base (s : State) (n : Fin 8) :
    (State.sweepDone s n).base = s.base := by
  unfold State.sweepDone
  simp

@[simp] theorem State.excAtOnce_base (s : State) (n : Fin 4) :
    (State.excAtOnce s n).base = s.base := by
  unfold State.excAtOnce
  dsimp only
  (repeat' split) <;> simp

@[simp] theorem State.tripExc_base (s : State) (n : Fin 4) :
    (State.tripExc s n).base = s.base := by
  unfold State.tripExc
  dsimp only
  (repeat' split) <;> simp

@[simp] theorem State.excSetEn_base (s : State) (n : Fin 4) (en : Bool) :
    (State.excSetEn s n en).base = s.base := by
  unfold State.excSetEn
  dsimp only
  (repeat' split) <;> simp

@[simp] theorem State.excRestart_base (s : State) (n : Fin 4) :
    (State.excRestart s n).base = s.base := by
  unfold State.excRestart
  simp

@[simp] theorem State.excStore_base (s : State) (n : Fin 4) (off : Nat) (v : Word) :
    (State.excStore s n off v).base = s.base := by
  unfold State.excStore
  simp

@[simp] theorem State.writeExcFreq_base (s : State) (n : Fin 4) (v : Word) :
    (State.writeExcFreq s n v).2.base = s.base := by
  unfold State.writeExcFreq
  simp

@[simp] theorem State.writeExcCtrl_base (s : State) (n : Fin 4) (v : Word) :
    (State.writeExcCtrl s n v).base = s.base := by
  unfold State.writeExcCtrl
  simp

@[simp] theorem State.excMeasure_base (s : State) (n : Fin 4) (m : ExcMeas) :
    (State.excMeasure s n m).base = s.base := by
  unfold State.excMeasure
  simp

@[simp] theorem State.excLevel_base (s : State) (n : Fin 4) :
    (State.excLevel s n).base = s.base := by
  unfold State.excLevel
  dsimp only
  (repeat' split) <;> simp

@[simp] theorem State.ceilMove_base (s : State) (c : Fin 8) :
    (State.ceilMove s c).base = s.base := by
  unfold State.ceilMove
  simp

@[simp] theorem State.excTake_base (s : State) (n : Fin 4) :
    (State.excTake s n).base = s.base := by
  unfold State.excTake
  simp [State.foldl_base]

@[simp] theorem State.excStop_base (s : State) (n : Fin 4) :
    (State.excStop s n).base = s.base := by
  unfold State.excStop
  simp

@[simp] theorem State.excTemp_base (s : State) (n : Fin 4) (t : BitVec 16) :
    (State.excTemp s n t).base = s.base := by
  unfold State.excTemp
  simp

@[simp] theorem State.tripRail_base (s : State) (r : Fin 2) :
    (State.tripRail s r).base = s.base := by
  unfold State.tripRail
  simp

@[simp] theorem State.setVexc_base (s : State) (r : Fin 2) (mv : Nat) :
    (State.setVexc s r mv).base = s.base := by
  unfold State.setVexc
  simp

@[simp] theorem State.setVexcOk_base (s : State) (r : Fin 2) (ok : Bool) :
    (State.setVexcOk s r ok).base = { s.base with rails :=
      if r = 0 then { s.rails with vexc0 := ok } else { s.rails with vexc1 := ok } } := by
  unfold State.setVexcOk
  split <;> rfl

@[simp] theorem State.railCond_base (s : State) (r : Fin 2) (high : Bool) (v : Bool) :
    (State.railCond s r high v).base = s.base := by
  unfold State.railCond
  simp

@[simp] theorem State.vexcJudge_base (s : State) (r : Fin 2) :
    (State.vexcJudge s r).base = s.base := by
  unfold State.vexcJudge
  simp

@[simp] theorem State.excRelease_base (s : State) :
    (State.excRelease s).base = s.base := by
  unfold State.excRelease
  simp [State.foldl_base]

@[simp] theorem State.setDch_base (s : State) (n : Fin 4) (x : Dch) :
    (State.setDch s n x).base = s.base := by
  unfold State.setDch
  simp

@[simp] theorem State.dcond_base (s : State) (n : Fin 4) (b : Nat) (v : Bool) :
    (State.dcond s n b v).base = s.base := by
  unfold State.dcond
  simp

@[simp] theorem State.devent_base (s : State) (n : Fin 4) (b : Nat) :
    (State.devent s n b).base = s.base := by
  unfold State.devent
  simp

@[simp] theorem State.dchStart_base (s : State) (n : Fin 4) :
    (State.dchStart s n).base = s.base := by
  unfold State.dchStart
  simp

@[simp] theorem State.dchStop_base (s : State) (n : Fin 4) :
    (State.dchStop s n).base = s.base := by
  unfold State.dchStop
  simp

@[simp] theorem State.dchSetEn_base (s : State) (n : Fin 4) (en : Bool) :
    (State.dchSetEn s n en).base = s.base := by
  unfold State.dchSetEn
  simp

@[simp] theorem State.dchModeWritten_base (s : State) (n : Fin 4) :
    (State.dchModeWritten s n).base = s.base := by
  unfold State.dchModeWritten
  (try dsimp only)
  (repeat' split) <;> simp

@[simp] theorem State.judgeMiss_base (s : State) (n : Fin 4) :
    (State.judgeMiss s n).base = s.base := by
  unfold State.judgeMiss
  simp

@[simp] theorem State.dchMove_base (s : State) (n : Fin 4) (v : BitVec 3) :
    (State.dchMove s n v).base = s.base := by
  unfold State.dchMove
  simp

@[simp] theorem State.dchSample_base (s : State) :
    (State.dchSample s).base = s.base := by
  unfold State.dchSample
  simp

@[simp] theorem State.indexJudge_base (s : State) (n : Fin 4) :
    (State.indexJudge s n).base = s.base := by
  unfold State.indexJudge
  simp

@[simp] theorem State.raiseSlip_base (s : State) (n : Fin 4) :
    (State.raiseSlip s n).base = s.base := by
  unfold State.raiseSlip
  (try dsimp only)
  (repeat' split) <;> simp

@[simp] theorem State.refClr_base (s : State) (n : Fin 4) :
    (State.refClr s n).base = s.base := by
  unfold State.refClr
  dsimp only
  (repeat' split) <;> simp

@[simp] theorem State.uncClr_base (s : State) (n : Fin 4) :
    (State.uncClr s n).base = s.base := by
  unfold State.uncClr
  simp

@[simp] theorem State.ssiStart_base (s : State) (n : Fin 4) :
    (State.ssiStart s n).base = s.base := by
  unfold State.ssiStart
  simp

@[simp] theorem State.dchTick_base (s : State) (n : Fin 4) :
    (State.dchTick s n).base = s.base := by
  unfold State.dchTick
  simp

@[simp] theorem State.captureFrom_base (s : State) (a : Nat) (xs : List Word) :
    (State.captureFrom s a xs).base = s.base := by
  induction xs generalizing s a with
  | nil => rfl
  | cons w ws ih => simp [State.captureFrom, ih]

@[simp] theorem State.writeDchCtrl_base (s : State) (n : Fin 4) (v : Word) :
    (State.writeDchCtrl s n v).base = s.base := by
  unfold State.writeDchCtrl
  simp

@[simp] theorem State.dchRelease_base (s : State) :
    (State.dchRelease s).base = s.base := by
  unfold State.dchRelease
  simp [State.foldl_base]

@[simp] theorem State.encPads_base (s : State) (n : Fin 4) :
    (State.encPads s n).base = s.base := by
  unfold State.encPads
  simp

@[simp] theorem State.presetDo_base (s : State) (n : Fin 4) :
    (State.presetDo s n).base = s.base := by
  unfold State.presetDo
  simp

@[simp] theorem State.encPreset_base (s : State) (n : Fin 4) :
    (State.encPreset s n).base = s.base := by
  unfold State.encPreset
  simp

@[simp] theorem State.presetLate_base (s : State) (d : Drive) : (State.presetLate s d).base = s.base := by
  unfold State.presetLate
  apply State.foldl_base
  intro t n
  split <;> simp

@[simp] theorem State.encConfig_base (s : State) (n : Fin 4) (off : Nat) :
    (State.encConfig s n off).base = s.base := by
  unfold State.encConfig
  simp

@[simp] theorem State.setDup_base (s : State) (a : Nat) (v : Word) :
    (State.setDup s a v).base = s.base := by
  unfold State.setDup
  simp

@[simp] theorem State.encSetEn_base (s0 : State) (n : Fin 4) (en : Bool) :
    (State.encSetEn s0 n en).base = s0.base := by
  unfold State.encSetEn
  simp

@[simp] theorem State.dup_base (s : State) (addr : Nat) (r : Status × State) (h : r.2.base = s.base) :
    (State.dup s addr r).2.base = s.base := by
  unfold State.dup
  split <;> simp [h]

@[simp] theorem State.dupRead_base (s : State) (addr : Nat) (r : Status × State) (h : r.2.base = s.base) :
    (State.dupRead s addr r).2.base = s.base := by
  unfold State.dupRead
  split <;> simp [h]

@[simp] theorem State.encStep_base (s : State) (n : Fin 4) :
    (State.encStep s n).base = s.base := by
  unfold State.encStep
  simp

@[simp] theorem State.encCapture_base (s : State) (n : Fin 4) :
    (State.encCapture s n).base = s.base := by
  unfold State.encCapture
  simp

@[simp] theorem State.encLatch_base (s : State) (d : Drive) (h : Half) :
    (State.encLatch s d h).base = s.base := by
  unfold State.encLatch
  simp [State.foldl_base]

@[simp] theorem State.writeEncCtrl_base (s : State) (n : Fin 4) (v : Word) :
    (State.writeEncCtrl s n v).base = s.base := by
  unfold State.writeEncCtrl
  simp

@[simp] theorem State.setSlot_base (s : State) (i : Fin 256) (x : AevSlot) :
    (State.setSlot s i x).base = s.base := by
  unfold State.setSlot
  simp

@[simp] theorem State.presetSlot_base (s : State) (i : Fin 256) :
    (State.presetSlot s i).base = s.base := by
  unfold State.presetSlot
  dsimp only
  (repeat' split) <;> simp

@[simp] theorem State.driveOut_base (s : State) (n : Fin 8) (place : Nat) (op : OutOp) :
    (State.driveOut s n place op).base = s.base := by
  unfold State.driveOut
  simp

@[simp] theorem State.slotAct_base (s : State) (i : Fin 256) :
    (State.slotAct s i).base = s.base := by
  unfold State.slotAct
  simp

@[simp] theorem State.slotStep_base (s : State) (i : Fin 256) (up : Bool) (late : Bool) :
    (State.slotStep s i up late).base = s.base := by
  unfold State.slotStep
  simp

@[simp] theorem State.slotRule_base (s : State) (i : Fin 256) :
    (State.slotRule s i).base = s.base := by
  unfold State.slotRule
  dsimp only
  (repeat' split) <;> simp

@[simp] theorem State.commitSlot_base (s : State) (i : Fin 256) :
    (State.commitSlot s i).base = s.base := by
  unfold State.commitSlot
  dsimp only
  (repeat' split) <;> simp

@[simp] theorem State.presetDrive_base (s : State) (d : Drive) :
    (State.presetDrive s d).base = s.base := by
  unfold State.presetDrive
  simp [State.foldl_base]

@[simp] theorem State.judgeFreeze_base (s : State) (d : Drive) :
    (State.judgeFreeze s d).base = s.base := by
  unfold State.judgeFreeze
  simp

@[simp] theorem State.stageSlot_base (s0 : State) (i : Fin 256) (par : Bool) (v : Word) :
    (State.stageSlot s0 i par v).base = s0.base := by
  unfold State.stageSlot
  simp

@[simp] theorem State.angSlot_base (s0 : State) (i : Fin 256) (v : Word) :
    (State.angSlot s0 i v).base = s0.base := by
  unfold State.angSlot
  simp

@[simp] theorem State.aevForce_base (s : State) (n : Fin 8) (set : Bool) (clr : Bool) :
    (State.aevForce s n set clr).base = s.base := by
  unfold State.aevForce
  simp

@[simp] theorem State.aevSetEn_base (s : State) (en : Bool) :
    (State.aevSetEn s en).base = s.base := by
  unfold State.aevSetEn
  simp [State.foldl_base]

@[simp] theorem State.aevCntClr_base (s : State) :
    (State.aevCntClr s).base = s.base := by
  unfold State.aevCntClr
  simp

@[simp] theorem State.writeAevCtrl_base (s : State) (v : Word) :
    (State.writeAevCtrl s v).base = s.base := by
  unfold State.writeAevCtrl
  simp

@[simp] theorem State.slotLatch_base (s : State) (h : Half) (i : Fin 256) :
    (State.slotLatch s h i).base = s.base := by
  unfold State.slotLatch
  dsimp only
  (repeat' split) <;> simp

@[simp] theorem State.aevLatch_base (s : State) (d : Drive) (h : Half) :
    (State.aevLatch s d h).base = s.base := by
  unfold State.aevLatch
  simp [State.foldl_base]

@[simp] theorem State.aevRelease_base (s : State) :
    (State.aevRelease s).base = s.base := by
  unfold State.aevRelease
  simp [State.foldl_base]

@[simp] theorem State.setAux_base (s : State) (k : Fin 16) (x : AuxSlot) :
    (State.setAux s k x).base = s.base := by
  unfold State.setAux
  simp

@[simp] theorem State.setConv_base (s : State) (c : Fin 2) (x : AuxConv) :
    (State.setConv s c x).base = s.base := by
  unfold State.setConv
  simp

@[simp] theorem State.routEval_base (s : State) (n : Fin 2) :
    (State.routEval s n).base = s.base := by
  unfold State.routEval
  simp

@[simp] theorem State.routAll_base (s : State) :
    (State.routAll s).base = s.base := by
  unfold State.routAll
  simp

@[simp] theorem State.beginVisit_base (s : State) (c : Fin 2) (k : Fin 16) (t : Nat) :
    (State.beginVisit s c k t).base = s.base := by
  unfold State.beginVisit
  simp

@[simp] theorem State.kickConv_base (s : State) (c : Fin 2) (t : Nat) :
    (State.kickConv s c t).base = s.base := by
  unfold State.kickConv
  (repeat' split) <;> simp

@[simp] theorem State.dropVisit_base (s : State) (c : Fin 2) :
    (State.dropVisit s c).base = s.base := by
  unfold State.dropVisit
  (repeat' split) <;> simp

@[simp] theorem State.judgeSlot_base (s : State) (k : Fin 16) :
    (State.judgeSlot s k).base = s.base := by
  unfold State.judgeSlot
  simp

@[simp] theorem State.auxJudge_base (s : State) :
    (State.auxJudge s).base = s.base := by
  unfold State.auxJudge
  simp [State.foldl_base]

@[simp] theorem State.auxStop_base (s : State) :
    (State.auxStop s).base = s.base := by
  unfold State.auxStop
  simp

@[simp] theorem State.auxStamp_base (s : State) (c : Fin 2) :
    (State.auxStamp s c).base = s.base := by
  unfold State.auxStamp
  (try dsimp only)
  (repeat' split) <;> simp

@[simp] theorem State.auxPublish_base (s : State) (v : AuxVisit) :
    (State.auxPublish s v).base = s.base := by
  unfold State.auxPublish
  simp

@[simp] theorem State.writeSlotEn_base (s : State) (v : Word) :
    (State.writeSlotEn s v).base = s.base := by
  unfold State.writeSlotEn
  simp

@[simp] theorem State.auxCapture_base (s : State) (k : Fin 16) :
    (State.auxCapture s k).base = s.base := by
  unfold State.auxCapture
  simp

@[simp] theorem State.auxCfgWritten_base (s : State) (k : Fin 16) (isCfg : Bool) :
    (State.auxCfgWritten s k isCfg).base = s.base := by
  unfold State.auxCfgWritten
  simp

@[simp] theorem State.writeFwCode_base (s : State) (n : Fin 2) (v : Word) :
    (State.writeFwCode s n v).base = s.base := by
  unfold State.writeFwCode
  simp

@[simp] theorem State.setX_base (s : State) (d : Drive) (x : XDrive) :
    (State.setX s d x).base = s.base := by
  unfold State.setX
  simp

@[simp] theorem State.perHalf_base (s : State) (f : State → Half → State) (h : ∀ s x, (f s x).base = s.base) :
    (State.perHalf s f).base = s.base := by
  unfold State.perHalf
  simp only [State.base_ite, h, ite_self]

@[simp] theorem State.judgeCfgMis_base (s : State) (d : Drive) :
    (State.judgeCfgMis s d).base = s.base := by
  unfold State.judgeCfgMis
  simp

@[simp] theorem State.xcompare_base (s : State) (h : Half) (d : Drive) :
    (State.xcompare s h d).base = s.base := by
  unfold State.xcompare
  simp

@[simp] theorem State.xmonTick_base (s : State) (d : Drive) :
    (State.xmonTick s d).base = s.base := by
  unfold State.xmonTick
  simp

@[simp] theorem State.dropCapture_base (s : State) (d : Drive) :
    (State.dropCapture s d).base = s.base := by
  unfold State.dropCapture
  simp

@[simp] theorem State.ofsCap_base (s : State) (d : Drive) :
    (State.ofsCap s d).base = s.base := by
  unfold State.ofsCap
  simp

@[simp] theorem State.writeXmonCtrl_base (s : State) (d : Drive) (v : Word) :
    (State.writeXmonCtrl s d v).base = s.base := by
  unfold State.writeXmonCtrl
  simp

@[simp] theorem State.watchHolder_base (s : State) (d : Drive) :
    (State.watchHolder s d).base = s.base := by
  unfold State.watchHolder
  dsimp only
  (repeat' split) <;> simp

@[simp] theorem State.ownReact_base (s : State) (d : Drive) (h : Half) :
    (State.ownReact s d h).base = s.base := by
  unfold State.ownReact
  (repeat' split) <;> simp

@[simp] theorem State.retagDrive_base (s : State) (d : Drive) :
    (State.retagDrive s d).base = s.base := by
  unfold State.retagDrive
  apply State.foldl_base
  intro t n
  split <;> simp

@[simp] theorem State.moveLatch_base (s0 : State) (d : Drive) (h : Half) (cause : Nat) :
    (State.moveLatch s0 d h cause).base = s0.base := by
  unfold State.moveLatch
  simp [State.foldl_base]

@[simp] theorem State.beginTake_base (s : State) (d : Drive) (h : Half) (cause : Nat) (t : Nat) :
    (State.beginTake s d h cause t).base = s.base := by
  unfold State.beginTake
  simp

@[simp] theorem State.authCmd_base (s : State) (d : Drive) (dst : Half) :
    (State.authCmd s d dst).2.base = s.base := by
  unfold State.authCmd
  simp

@[simp] theorem State.writeAuthCmd_base (s : State) (v : Word) :
    (State.writeAuthCmd s v).2.base = s.base := by
  unfold State.writeAuthCmd
  simp

@[simp] theorem State.authRelease_base (s : State) (d : Drive) :
    (State.authRelease s d).base = s.base := by
  unfold State.authRelease
  simp

@[simp] theorem State.dropClaim_base (s : State) (h : Half) (d : Drive) :
    (State.dropClaim s h d).base = s.base := by
  unfold State.dropClaim
  simp

@[simp] theorem State.dropClaims_base (s : State) (h : Half) :
    (State.dropClaims s h).base = s.base := by
  unfold State.dropClaims
  simp

@[simp] theorem State.sramPut_base (s : State) (off : Nat) (bs : List Byte) :
    (State.sramPut s off bs).base = s.base := by
  unfold State.sramPut
  simp

@[simp] theorem State.sramRead_base (s : State) (off : Nat) :
    (State.sramRead s off).2.2.base = s.base := by
  unfold State.sramRead
  (repeat' split) <;> simp

@[simp] theorem State.ringPut_base (s : State) (base size p : Nat) (xs : List Byte) :
    (State.ringPut s base size p xs).base = s.base := by
  fun_induction State.ringPut s base size p xs <;> simp_all

@[simp] theorem State.ringPut_que (s : State) (base size p : Nat) (xs : List Byte) :
    (State.ringPut s base size p xs).que = s.que := by
  fun_induction State.ringPut s base size p xs <;> simp_all [State.sramPut]

theorem State.setQ_base (s : State) (i : Fin 64) (q : Queue) (h : q.miss = (s.que.q[i]).miss) :
    (State.setQ s i q).base = s.base := State.que_base s i q s.que.offers h

@[simp] theorem State.ringCfg_base (s : State) :
    (State.ringCfg s).base = s.base := by
  unfold State.ringCfg
  simp

@[simp] theorem State.descWrite_base (s : State) (i : Fin 64) : (State.descWrite s i).base = s.base :=
  State.setQ_base s i _ rfl

@[simp] theorem State.descRead_base (s : State) (i : Fin 64) : (State.descRead s i).base = s.base := by
  unfold State.descRead
  split
  · rfl
  · simp
  · dsimp only
    refine (State.setQ_base _ _ _ ?_).trans (by simp)
    rfl

theorem State.descRead_rings (s : State) (i : Fin 64) : s.SameRings (s.descRead i) := by
  unfold State.descRead
  split
  · exact State.SameRings.refl s
  · exact State.checkerErr_rings s .que 1 false
  · refine (State.checkerErr_rings s .que 1 true).trans ?_
    exact State.setQ_rings _ i _ rfl

theorem State.ringWrite_base (s : State) (i : Fin 64) (x : Staged) (rest : List Staged)
    (h : (s.que.q[i]).staged.length = rest.length + 1) : (State.ringWrite s i x rest).base = s.base := by
  unfold State.ringWrite
  dsimp only
  split
  · rw [State.fabReport_base]
    refine State.setQ_base s i _ ?_
    simp only [Queue.miss, Queue.held, Queue.dropOne, h]
    omega
  rw [State.descWrite_base, State.setQ_base, State.ringPut_base]
  rw [State.ringPut_que]
  simp only [Queue.miss, Queue.held, h, List.length_append, List.length_singleton]; omega

@[simp] theorem State.judgeStall_base (s : State) : (State.judgeStall s).base = s.base := by
  have h (b : Bool) (n : Nat) : State.base { s with que := { s.que with stalled := b, stallQ := n } } = s.base := rfl
  have h' (b : Bool) : State.base { s with que := { s.que with stalled := b } } = s.base := rfl
  unfold State.judgeStall
  split
  · dsimp only
    split <;> simp only [State.cond_base, h]
  · simp only [State.cond_base, h']

/-- A flush moves every record held to the drops (R411). -/
@[simp] theorem State.flush_base (s : State) (i : Fin 64) : (State.flush s i).base = s.base := by
  have h (q : Queue) (hn : q.nseq = (s.que.q[i]).nseq) (hd : q.deliv = (s.que.q[i]).deliv) (hr : q.ring = [])
      (hs : q.staged = []) (hp : q.drop = ((s.que.q[i]).drop + (s.que.q[i]).held) % 2 ^ 32) : q.miss = (s.que.q[i]).miss := by
    simp only [Queue.miss, Queue.held, hn, hd, hr, hs, hp, List.length_nil]
    omega
  unfold State.flush
  extract_lets q n base size q1 s1 s2
  have h1 : s1.base = s.base := State.setQ_base s i q1 (h q1 rfl rfl rfl rfl rfl)
  have hq : s1.que.q[i] = q1 := by simp [s1, State.setQ, vset]
  have h2 : s2.base = s.base := by
    simp only [s2]
    split
    · refine (State.setQ_base s1 i _ ?_).trans h1
      rw [hq]
      rfl
    · exact h1
  rw [State.judgeStall_base, State.settle_base, State.descWrite_base, State.ringCfg_base, h2]

/-- The Yarder serves the head of a queue's staging. -/
@[simp] theorem State.yardServe_base (s : State) (i : Fin 64) : (State.yardServe s i).base = s.base := by
  rw [← State.descRead_base s i]
  unfold State.yardServe
  dsimp only
  generalize s.descRead i = t
  split
  · rfl
  · split
    · rw [State.event_base]
      exact State.setQ_base t i { t.que.q[i] with halted := true } rfl
    · rw [State.judgeStall_base, State.settle_base]
      split
      · rfl
      · rename_i x rest hq
        split
        · exact State.ringWrite_base t i x rest (by rw [hq]; rfl)
        · apply State.setQ_base
          simp only [Queue.miss, Queue.held, Queue.dropOne, hq, List.length_cons]; omega
        · rfl

theorem State.deliver_base (s : State) (i : Fin 64) (k : Nat) (h : k ≤ (s.que.q[i]).ring.length) :
    (State.deliver s i k).base = s.base := by
  unfold State.deliver
  dsimp only
  rw [State.settle_base, State.descWrite_base]
  apply State.setQ_base
  simp only [Queue.miss, Queue.held, List.length_drop]; omega

@[simp] theorem State.qack_base (s : State) (i : Fin 64) (k : Nat) : (State.qack s i k).2.base = s.base := by
  unfold State.qack
  dsimp only
  (repeat' split) <;> simp
  rw [State.deliver_base]
  · simp
  · omega

@[simp] theorem State.qread_base (s0 : State) (i : Fin 64) (n : Nat) :
    (State.qread s0 i n).2.2.base = s0.base := by
  unfold State.qread
  dsimp only
  (repeat' split) <;> simp

@[simp] theorem State.qpush_base (s : State) (i : Fin 64) (ws : List Word) :
    (State.qpush s i ws).2.base = s.base := by
  unfold State.qpush
  simp

@[simp] theorem State.ringsAtRelease_base (s : State) :
    (State.ringsAtRelease s).base = s.base := by
  have hl : Que.led { s.que with q := Vector.ofFn fun i : Fin 64 =>
      { s.que.q[i] with base := s.QUE_BASE_BASE i.val, size := s.QUE_SIZE_SIZE i.val } } = s.que.led := by
    funext i
    simp [Que.led, Queue.miss, Queue.held]
  unfold State.ringsAtRelease
  extract_lets f s1
  rw [State.ringCfg_base, State.foldl_base]
  · exact congrArg (fun l => Base.mk s.pending s.qb s.fram l s.rails s.boot.released) hl
  · intro t i
    split <;> simp

@[simp] theorem State.stampAll_base (s : State) :
    (State.stampAll s).base = s.base := by
  unfold State.stampAll
  (try dsimp only)
  (repeat' split) <;> simp

@[simp] theorem State.setRate_base (s0 : State) (r : Int) :
    (State.setRate s0 r).base = s0.base := by
  unfold State.setRate
  (try dsimp only)
  (repeat' split) <;> simp

@[simp] theorem State.applyRate_base (s : State) :
    (State.applyRate s).base = s.base := by
  unfold State.applyRate
  simp

@[simp] theorem State.endSlew_base (s : State) :
    (State.endSlew s).base = s.base := by
  unfold State.endSlew
  simp

@[simp] theorem State.timeRecord_base (s : State) (code : Nat) (step : Int) :
    (State.timeRecord s code step).base = s.base := by
  unfold State.timeRecord
  simp

@[simp] theorem State.timeStep_base (s0 : State) (e : Int) :
    (State.timeStep s0 e).base = s0.base := by
  unfold State.timeStep
  simp

@[simp] theorem State.servoUpdate_base (s : State) (off : Int) (interval : Nat) :
    (State.servoUpdate s off interval).base = s.base := by
  unfold State.servoUpdate
  simp

@[simp] theorem State.takeGm_base (s : State) (id : BitVec 64) :
    (State.takeGm s id).base = s.base := by
  unfold State.takeGm
  simp

@[simp] theorem State.timeSet_base (s : State) (hi : Word) :
    (State.timeSet s hi).2.base = s.base := by
  unfold State.timeSet
  simp

@[simp] theorem State.timeCfgWritten_base (s : State) :
    (State.timeCfgWritten s).base = s.base := by
  unfold State.timeCfgWritten
  simp

@[simp] theorem State.timeTmoWritten_base (s : State) :
    (State.timeTmoWritten s).base = s.base := by
  unfold State.timeTmoWritten
  simp

@[simp] theorem State.setPort_base (s : State) (p : Fin 2) (x : Port) :
    (State.setPort s p x).base = s.base := by
  unfold State.setPort
  simp

@[simp] theorem State.judgeLink_base (s : State) (p : Fin 2) :
    (State.judgeLink s p).base = s.base := by
  unfold State.judgeLink
  simp

@[simp] theorem State.credits_base (s : State) (p : Fin 2) : (State.credits s p).base = s.base := by
  unfold State.credits
  simp

@[simp] theorem State.txKick_base (s : State) (p : Fin 2) : (State.txKick s p).base = s.base := by
  unfold State.txKick
  dsimp only
  (repeat' split) <;> simp

theorem State.txKick_rings (s : State) (p : Fin 2) : s.SameRings (s.txKick p) := by
  have h (t : State) (q : Port) : (t.setPort p q).que = t.que := rfl
  have hc : (s.credits p).que = s.que := rfl
  unfold State.txKick
  dsimp only
  split
  · exact State.SameRings.of_que hc
  · split
    · exact State.SameRings.of_que hc
    · split
      · exact State.SameRings.of_que hc
      · refine State.SameRings.trans ?_ (State.SameRings.of_que (h _ _))
        refine (State.SameRings.of_que hc).trans ?_
        split
        · exact State.SameRings.refl _
        · exact State.checkerErr_rings _ _ _ _

@[simp] theorem State.enqueue_base (s : State) (p : Fin 2) (f : TxFrame) : (State.enqueue s p f).base = s.base := by
  unfold State.enqueue
  simp

theorem State.enqueue_rings (s : State) (p : Fin 2) (f : TxFrame) : s.SameRings (s.enqueue p f) := by
  unfold State.enqueue
  refine State.SameRings.trans ?_ (State.txKick_rings _ _)
  exact State.SameRings.of_que rfl

@[simp] theorem State.announce_base (s : State) (p : Fin 2) :
    (State.announce s p).base = s.base := by
  unfold State.announce
  simp

@[simp] theorem State.countRx_base (s : State) (p : Fin 2) (drop : Bool) :
    (State.countRx s p drop).base = s.base := by
  unfold State.countRx
  simp

@[simp] theorem State.announceRx_base (s : State) (p : Fin 2) (m : List Byte) :
    (State.announceRx s p m).base = s.base := by
  unfold State.announceRx
  (try dsimp only)
  (repeat' split) <;> simp

@[simp] theorem State.gptpRx_base (s : State) (p : Fin 2) (b : List Byte) (delay : Option Nat) :
    (State.gptpRx s p b delay).base = s.base := by
  unfold State.gptpRx
  (repeat' split) <;> simp

@[simp] theorem State.loseFrame_base (s : State) (k : Fin 8) :
    (State.loseFrame s k).base = s.base := by
  unfold State.loseFrame
  simp

@[simp] theorem State.dropLink_base (s : State) (p : Fin 2) :
    (State.dropLink s p).base = s.base := by
  unfold State.dropLink
  simp [State.foldl_base]

@[simp] theorem State.judgePorts_base (s : State) :
    (State.judgePorts s).base = s.base := by
  unfold State.judgePorts
  (try dsimp only)
  (repeat' split) <;> simp

@[simp] theorem State.netCtrlWritten_base (s : State) :
    (State.netCtrlWritten s).base = s.base := by
  unfold State.netCtrlWritten
  simp

theorem State.buildFrame_base (s : State) (k : Fin 8) (i : Fin 64) (c oldest : Nat)
    (h : c ≤ (s.que.q[i]).ring.length) : (State.buildFrame s k i c oldest).base = s.base := by
  unfold State.buildFrame
  extract_lets q lens bytes s0 acf cls s1 takes s2 s3
  have hs0 : s.SameRings s0 ∧ s0.base = s.base := by
    simp only [s0]
    split
    · exact ⟨State.SameRings.refl s, rfl⟩
    · exact ⟨State.fabReport_rings _ _ _ _ _, State.fabReport_base _ _ _ _ _⟩
  have hs1 : s0.SameRings s1 ∧ s1.base = s0.base := by
    simp only [s1]
    split
    · exact ⟨State.event_rings _ _ _ _, State.event_base _ _ _ _⟩
    · exact ⟨State.SameRings.refl s0, rfl⟩
  have hs2 : s1.SameRings s2 ∧ s2.base = s1.base := by
    constructor
    · apply State.foldl_rings
      intro t p
      split
      · exact State.enqueue_rings _ _ _
      · exact State.SameRings.refl t
    · apply State.foldl_base
      intro t p
      split
      · exact State.enqueue_base _ _ _
      · rfl
  rw [State.deliver_base]
  · exact (hs2.2.trans hs1.2).trans hs0.2
  · have hr := ((hs0.1.trans hs1.1).trans hs2.1) i
    show c ≤ (s2.que.q[i]).ring.length
    rw [hr]
    exact h

@[simp] theorem State.creditsAll_base (s : State) :
    (State.creditsAll s).base = s.base := by
  unfold State.creditsAll
  simp

@[simp] theorem State.netOff_base (s : State) :
    (State.netOff s).base = s.base := by
  unfold State.netOff
  simp

@[simp] theorem State.unlockFirst_base (s : State) (blk : Byte) :
    (State.unlockFirst s blk).2.base = s.base := by
  unfold State.unlockFirst
  (repeat' split) <;> simp

@[simp] theorem State.unlockSecond_base (s : State) (blk : Byte) :
    (State.unlockSecond s blk).2.base = s.base := by
  unfold State.unlockSecond
  (repeat' split) <;> simp

@[simp] theorem State.relock_base (s : State) (blk : Byte) :
    (State.relock s blk).2.base = s.base := by
  unfold State.relock
  (repeat' split) <;> simp

@[simp] theorem State.relockAll_base (s : State) :
    (State.relockAll s).base = s.base := by
  unfold State.relockAll
  simp

@[simp] theorem State.writeUnlock_base (s : State) (v : Word) :
    (State.writeUnlock s v).2.base = s.base := by
  unfold State.writeUnlock
  simp

@[simp] theorem State.relCmd_base (s : State) (d : Drive) :
    (State.relCmd s d).2.base = s.base := by
  unfold State.relCmd
  (repeat' split) <;> simp

@[simp] theorem State.writeRelCmd_base (s : State) (v : Word) :
    (State.writeRelCmd s v).2.base = s.base := by
  unfold State.writeRelCmd
  simp

@[simp] theorem State.disSet_base (s : State) :
    (State.disSet s).2.base = s.base := by
  unfold State.disSet
  simp

@[simp] theorem State.disClear_base (s : State) :
    (State.disClear s).2.base = s.base := by
  unfold State.disClear
  simp

@[simp] theorem State.writeDisCmd_base (s : State) (v : Word) :
    (State.writeDisCmd s v).2.base = s.base := by
  unfold State.writeDisCmd
  simp

@[simp] theorem State.setVpin_base (s : State) (p : SafePin) (x : VPin) :
    (State.setVpin s p x).base = s.base := by
  unfold State.setVpin
  (repeat' split) <;> simp

@[simp] theorem State.raiseSdm_base (s : State) (n : Fin 8) (k : Nat) (h : Half) :
    (State.raiseSdm s n k h).base = s.base := by
  unfold State.raiseSdm
  simp

@[simp] theorem State.setIn_base (s : State) (h : Half) (n : Fin 8) (x : SdmIn) :
    (State.setIn s h n x).base = s.base := by
  unfold State.setIn
  simp

@[simp] theorem State.sdmBit_base (s : State) (h : Half) (n : Fin 8) (b : Bool) :
    (State.sdmBit s h n b).base = s.base := by
  unfold State.sdmBit
  simp

@[simp] theorem State.latchIn_base (s : State) (n : Fin 8) (t : Nat) : (State.latchIn s n t).base = s.base := by
  unfold State.latchIn
  simp

@[simp] theorem State.takeSample_base (s : State) (k : Fin 2) (h : Half) (t dl : Nat) (n : Fin 8) (b : Bool) :
    (State.takeSample s k h t dl n b).base = s.base := by
  unfold State.takeSample
  dsimp only
  split
  · split <;> simp
  · rfl

@[simp] theorem State.sampleAt_base (s : State) (k : Fin 2) (bits : Byte) (t dl : Nat) :
    (State.sampleAt s k bits t dl).base = s.base := by
  unfold State.sampleAt
  dsimp only
  split
  · rw [State.foldl_base]
    · simp
    · intro u n
      simp
  · rfl

@[simp] theorem State.sdclkFrom_base (s : State) (old : State) :
    (State.sdclkFrom s old).base = s.base := by
  unfold State.sdclkFrom
  simp

@[simp] theorem State.tqStep_base (s : State) (h : Half) (d : Drive) :
    (State.tqStep s h d).base = s.base := by
  unfold State.tqStep
  simp

@[simp] theorem State.decimate_base (s : State) (h : Half) (n : Fin 8) :
    (State.decimate s h n).base = s.base := by
  unfold State.decimate
  simp

@[simp] theorem State.filtCompare_base (s : State) :
    (State.filtCompare s).base = s.base := by
  unfold State.filtCompare
  simp

@[simp] theorem State.staleCond_base (s : State) (d : Drive) (v : Bool) :
    (State.staleCond s d v).base = s.base := by
  unfold State.staleCond
  simp

@[simp] theorem State.restartTq_base (s : State) (d : Drive) :
    (State.restartTq s d).base = s.base := by
  unfold State.restartTq
  simp

@[simp] theorem State.writeTqCmd_base (s : State) (d : Drive) (v : Word) :
    (State.writeTqCmd s d v).base = s.base := by
  unfold State.writeTqCmd
  simp

@[simp] theorem State.sdmPeakClr_base (s : State) :
    (State.sdmPeakClr s).base = s.base := by
  unfold State.sdmPeakClr
  simp

@[simp] theorem State.sdmQuiet_base (s : State) (h : Half) (n : Fin 8) :
    (State.sdmQuiet s h n).base = s.base := by
  unfold State.sdmQuiet
  simp [State.foldl_base]

@[simp] theorem State.sdmCfgWritten_base (s : State) (n : Fin 8) (old : Word) :
    (State.sdmCfgWritten s n old).base = s.base := by
  unfold State.sdmCfgWritten
  simp

@[simp] theorem State.tqCfgWritten_base (s : State) (d : Drive) (old : Word) :
    (State.tqCfgWritten s d old).base = s.base := by
  unfold State.tqCfgWritten
  simp

@[simp] theorem State.sdmTrig_base (s : State) (i : Fin 256) (mask : BitVec 8) (c : Nat) (t : BitVec 64) :
    (State.sdmTrig s i mask c t).base = s.base := by
  unfold State.sdmTrig
  simp

@[simp] theorem State.dropTrig_base (s : State) (i : Fin 256) :
    (State.dropTrig s i).base = s.base := by
  unfold State.dropTrig
  simp

@[simp] theorem State.latchRecords_base (s : State) (q : Fin 64) (drv : Nat) (t : BitVec 64) (l : List (Fin 8 × Int)) :
    (State.latchRecords s q drv t l).base = s.base := by
  unfold State.latchRecords
  simp

@[simp] theorem State.latchShow_base (s : State) (p : SdmPend) :
    (State.latchShow s p).base = s.base := by
  unfold State.latchShow
  simp [State.foldl_base]

@[simp] theorem State.setFrec_base (s : State) (n : Fin 8) (f : Frec) :
    (State.setFrec s n f).base = s.base := by
  unfold State.setFrec
  simp

@[simp] theorem State.frecArm_base (s : State) (n : Fin 8) :
    (State.frecArm s n).2.base = s.base := by
  unfold State.frecArm
  simp

@[simp] theorem State.frecDisarm_base (s : State) (n : Fin 8) :
    (State.frecDisarm s n).base = s.base := by
  unfold State.frecDisarm
  simp

@[simp] theorem State.frecTake_base (s : State) (n : Fin 8) :
    (State.frecTake s n).base = s.base := by
  unfold State.frecTake
  simp

@[simp] theorem State.frecTrig_base (s : State) (n : Fin 8) :
    (State.frecTrig s n).base = s.base := by
  unfold State.frecTrig
  simp

@[simp] theorem State.writeFrecCtrl_base (s : State) (n : Fin 8) (v : Word) :
    (State.writeFrecCtrl s n v).2.base = s.base := by
  unfold State.writeFrecCtrl
  simp

@[simp] theorem State.frecTick_base (s : State) (n : Fin 8) :
    (State.frecTick s n).base = s.base := by
  unfold State.frecTick
  simp

@[simp] theorem State.snapAll_base (s : State) (k : Nat) :
    (State.snapAll s k).base = s.base := by
  unfold State.snapAll
  simp [State.foldl_base]

@[simp] theorem State.trigSdm_base (s : State) (x : AevTrig) :
    (State.trigSdm s x).base = s.base := by
  unfold State.trigSdm
  simp

@[simp] theorem State.trigSnap_base (s : State) (x : AevTrig) :
    (State.trigSnap s x).base = s.base := by
  unfold State.trigSnap
  (repeat' split) <;> simp

@[simp] theorem State.trigFrec_base (s : State) (x : AevTrig) :
    (State.trigFrec s x).base = s.base := by
  unfold State.trigFrec
  (repeat' split) <;> simp

@[simp] theorem State.trigSsi_base (s : State) (x : AevTrig) :
    (State.trigSsi s x).base = s.base := by
  unfold State.trigSsi
  (repeat' split) <;> simp

@[simp] theorem State.judgeStarved_base (s : State) :
    (State.judgeStarved s).base = s.base := by
  unfold State.judgeStarved
  simp

@[simp] theorem State.crzMark_base (s : State) :
    (State.crzMark s).base = s.base := by
  unfold State.crzMark
  (try dsimp only)
  (repeat' split) <;> simp

@[simp] theorem State.passOver_base (s : State) (l : List (Fin 15)) :
    (State.passOver s l).base = s.base := by
  unfold State.passOver
  (try dsimp only)
  (repeat' split) <;> simp

@[simp] theorem State.leaveRound_base (s : State) (l : Fin 3) (p : Fin 15 → Bool) :
    (State.leaveRound s l p).base = s.base := by
  unfold State.leaveRound
  (try dsimp only)
  (repeat' split) <;> simp

@[simp] theorem State.fillLane_base (s : State) (l : Fin 3) :
    (State.fillLane s l).base = s.base := by
  unfold State.fillLane
  (repeat' split) <;> simp

@[simp] theorem State.roundItems_base (s : State) :
    (State.roundItems s).base = s.base := by
  unfold State.roundItems
  simp

@[simp] theorem State.fillThree_base (s : State) :
    (State.fillThree s).base = s.base := by
  unfold State.fillThree
  (try dsimp only)
  (repeat' split) <;> simp

@[simp] theorem State.fillLanes_base (s : State) :
    (State.fillLanes s).base = s.base := by
  unfold State.fillLanes
  simp

@[simp] theorem State.startRound_base (s : State) :
    (State.startRound s).base = s.base := by
  unfold State.startRound
  simp

@[simp] theorem State.crzYield_base (s : State) (i : Fin 15) (n : Nat) :
    (State.crzYield s i n).base = s.base := by
  unfold State.crzYield
  (try dsimp only)
  (repeat' split) <;> simp

@[simp] theorem State.storeYield_base (s : State) :
    (State.storeYield s).base = s.base := by
  unfold State.storeYield
  (try dsimp only)
  (repeat' split) <;> simp

@[simp] theorem State.abandonRuns_base (s : State) (p : Fin 15 → Bool) :
    (State.abandonRuns s p).base = s.base := by
  unfold State.abandonRuns
  simp

@[simp] theorem State.cruiseJudge_base (s : State) :
    (State.cruiseJudge s).base = s.base := by
  unfold State.cruiseJudge
  simp

@[simp] theorem State.writeCrzCtrl_base (s : State) (v : Word) :
    (State.writeCrzCtrl s v).base = s.base := by
  unfold State.writeCrzCtrl
  simp

@[simp] theorem State.page_base (s : State) (p : Page) (off : Nat) (wr : Bool) (r : Status × State) (h : r.2.base = s.base) :
    (State.page s p off wr r).2.base = s.base := by
  unfold State.page
  split <;> simp [h]

@[simp] theorem State.aliveWatch_base (s : State) (old : State) :
    (State.aliveWatch s old).base = s.base := by
  unfold State.aliveWatch
  simp

@[simp] theorem State.alivePad_base (s : State) :
    (State.alivePad s).base = s.base := by
  unfold State.alivePad
  simp

@[simp] theorem State.detectHeld_base (s : State) (p : Page) :
    (State.detectHeld s p).base = s.base := by
  unfold State.detectHeld
  simp [State.foldl_base]

@[simp] theorem State.blazeAnew_base (s : State) (p : Page) :
    (State.blazeAnew s p).base = s.base := by
  unfold State.blazeAnew
  simp

@[simp] theorem State.blzClr_base (s : State) (p : Page) :
    (State.blzClr s p).2.base = s.base := by
  unfold State.blzClr
  simp

@[simp] theorem State.writeForce_base (s : State) (p : Page) (v : Word) :
    (State.writeForce s p v).base = s.base := by
  unfold State.writeForce
  simp [State.foldl_base]

@[simp] theorem State.writeSticky_base (s : State) (p : Page) (v : Word) :
    (State.writeSticky s p v).base = s.base := by
  unfold State.writeSticky
  (repeat' split) <;> simp

@[simp] theorem State.writeInv_base (s : State) (p : Page) (v : Word) :
    (State.writeInv s p v).base = s.base := by
  unfold State.writeInv
  simp

@[simp] theorem State.writeChk_base (s : State) (p : Page) (v : Word) :
    (State.writeChk s p v).base = s.base := by
  unfold State.writeChk
  simp

@[simp] theorem State.writeReact_base (s : State) (p : Page) (lo : Nat) (v : Word) :
    (State.writeReact s p lo v).base = s.base := by
  unfold State.writeReact
  simp

@[simp] theorem State.writeChkReact_base (s : State) (p : Page) (r : Nat) :
    (State.writeChkReact s p r).base = s.base := by
  unfold State.writeChkReact
  simp

@[simp] theorem State.writeStat_base (s : State) (p : Page) (v : Word) (unlocked : Bool) :
    (State.writeStat s p v unlocked).2.base = s.base := by
  unfold State.writeStat
  simp

@[simp] theorem State.writeHdr_base (s : State) (p : Page) (off : Nat) (v : Word) (unlocked : Bool) :
    (State.writeHdr s p off v unlocked).2.base = s.base := by
  unfold State.writeHdr
  (repeat' split) <;> simp

@[simp] theorem State.parityFound_base (s : State) (p : Page) :
    (State.parityFound s p).base = s.base := by
  unfold State.parityFound
  (try dsimp only)
  (repeat' split) <;> simp

@[simp] theorem State.setCode_base (s : State) (x : VDom) (code : Nat) (high : Nat) :
    (State.setCode s x code high).base = s.base := by
  unfold State.setCode
  simp

@[simp] theorem State.toNominal_base (s : State) (x : VDom) :
    (State.toNominal s x).base = s.base := by
  unfold State.toNominal
  simp

@[simp] theorem State.avsDomain_base (s : State) (x : VDom) (m : Margin) :
    (State.avsDomain s x m).base = s.base := by
  unfold State.avsDomain
  simp

@[simp] theorem State.avsLimit_base (s : State) (x : VDom) :
    (State.avsLimit s x).base = s.base := by
  unfold State.avsLimit
  simp

@[simp] theorem State.avsApply_base (s : State) :
    (State.avsApply s).base = s.base := by
  unfold State.avsApply
  simp

@[simp] theorem State.avsCfgWritten_base (s : State) (old : Word) :
    (State.avsCfgWritten s old).base = s.base := by
  unfold State.avsCfgWritten
  simp

@[simp] theorem State.avsResume_base (s : State) :
    (State.avsResume s).base = s.base := by
  unfold State.avsResume
  simp

@[simp] theorem State.rtcJudge_base (s : State) :
    (State.rtcJudge s).base = s.base := by
  unfold State.rtcJudge
  simp

@[simp] theorem State.parityGone_base (s : State) :
    (State.parityGone s).base = s.base := by
  unfold State.parityGone
  simp

@[simp] theorem State.dropRegs_base (s : State) (p : Nat → Bool) (q : Nat → Bool) :
    (State.dropRegs s p q).base = s.base := by
  unfold State.dropRegs
  simp

@[simp] theorem State.coldHalf_base (s : State) (h : Half) :
    (State.coldHalf s h).base = s.base := by
  unfold State.coldHalf
  simp

@[simp] theorem State.xmonOff_base (s : State) :
    (State.xmonOff s).base = s.base := by
  unfold State.xmonOff
  simp

@[simp] theorem State.holdPads_base (s : State) (all : Bool) (z : BitVec 4) (v : BitVec 8) :
    (State.holdPads s all z v).base = s.base := by
  unfold State.holdPads
  simp

@[simp] theorem State.holdHalf_base (s : State) (h : Half) :
    (State.holdHalf s h).base = s.base := by
  unfold State.holdHalf
  simp

@[simp] theorem State.halfDown_base (s0 : State) (h : Half) :
    (State.halfDown s0 h).base = s0.base := by
  unfold State.halfDown
  simp

@[simp] theorem State.netDown_base (s : State) :
    (State.netDown s).base = s.base := by
  unfold State.netDown
  simp

@[simp] theorem State.bankDown_base (s : State) (b : Fin 8) :
    (State.bankDown s b).base = s.base := by
  unfold State.bankDown
  simp

@[simp] theorem State.pinsDefault_base (s : State) :
    (State.pinsDefault s).base = s.base := by
  unfold State.pinsDefault
  (try dsimp only)
  (repeat' split) <;> simp

@[simp] theorem State.scanPins_base (s : State) :
    (State.scanPins s).base = s.base := by
  unfold State.scanPins
  simp

@[simp] theorem State.deviceReset_base (s : State) (c : Nat) :
    (State.deviceReset s c).base = { s.base with fram := s.framCut.1, led := fun _ => 0, released := false } := by
  unfold State.deviceReset
  simp only [State.scanPins_base, State.base_mk, Que.led_reset]
  rfl

@[simp] theorem State.vddaJudge_base (s : State) (h : Half) :
    (State.vddaJudge s h).base = s.base := by
  unfold State.vddaJudge
  simp [State.foldl_base]

@[simp] theorem State.writeSwrst_base (s : State) (v : Word) :
    (State.writeSwrst s v).2.base = s.base := by
  unfold State.writeSwrst
  simp

@[simp] theorem State.startMonitors_base (s : State) :
    (State.startMonitors s).base = s.base := by
  unfold State.startMonitors
  simp

@[simp] theorem State.crzBanks_base (s : State) :
    (State.crzBanks s).base = s.base := by
  unfold State.crzBanks
  (try dsimp only)
  (repeat' split) <;> simp

@[simp] theorem State.powerRec_base (s : State) (c : Nat) (frm : Nat) :
    (State.powerRec s c frm).base = s.base := by
  unfold State.powerRec
  simp

@[simp] theorem State.powerNote_base (s : State) (c : Nat) :
    (State.powerNote s c).base = s.base := by
  unfold State.powerNote
  simp

@[simp] theorem State.unstick_base (s : State) (i : Nat) (want : Bool) :
    (State.unstick s i want).base = s.base := by
  unfold State.unstick
  simp

@[simp] theorem State.turnHalf_base (s : State) (h : Half) :
    (State.turnHalf s h).base = s.base := by
  unfold State.turnHalf
  dsimp only
  (repeat' split) <;> simp

@[simp] theorem State.turnNet_base (s : State) :
    (State.turnNet s).base = s.base := by
  unfold State.turnNet
  dsimp only
  (repeat' split) <;> simp

@[simp] theorem State.turnBank_base (s : State) (b : Fin 8) :
    (State.turnBank s b).base = s.base := by
  unfold State.turnBank
  dsimp only
  (repeat' split) <;> simp

@[simp] theorem State.domains_base (s : State) :
    (State.domains s).base = s.base := by
  unfold State.domains
  simp [State.foldl_base]

@[simp] theorem State.writeVotes_base (s : State) (v : Word) :
    (State.writeVotes s v).base = s.base := by
  unfold State.writeVotes
  simp

@[simp] theorem State.latchesReturn_base (s : State) (h : Half) :
    (State.latchesReturn s h).base = s.base := by
  unfold State.latchesReturn
  simp

@[simp] theorem State.slotsReturn_base (s : State) (h : Half) :
    (State.slotsReturn s h).base = s.base := by
  unfold State.slotsReturn
  simp

@[simp] theorem State.halfUp_base (s0 : State) (h : Half) :
    (State.halfUp s0 h).base = s0.base := by
  unfold State.halfUp
  simp

@[simp] theorem State.netUp_base (s : State) :
    (State.netUp s).base = s.base := by
  unfold State.netUp
  simp

@[simp] theorem State.bankUp_base (s : State) (b : Fin 8) :
    (State.bankUp s b).base = s.base := by
  unfold State.bankUp
  simp

@[simp] theorem State.latchTrims_base (s : State) (n : Fin 8) (bad : Bool) (t : TrimVals) :
    (State.latchTrims s n bad t).base = s.base := by
  unfold State.latchTrims
  (try dsimp only)
  (repeat' split) <;> simp

@[simp] theorem State.latchCal_base (s : State) (n : Fin 8) (bad : Bool) (t : TrimVals) :
    (State.latchCal s n bad t).base = s.base := by
  unfold State.latchCal
  simp

@[simp] theorem State.startWake_base (s : State) (src : BitVec 7) (first : Nat) :
    (State.startWake s src first).base = s.base := by
  unfold State.startWake
  simp

@[simp] theorem State.wakeBy_base (s : State) (b : Nat) :
    (State.wakeBy s b).base = s.base := by
  unfold State.wakeBy
  (try dsimp only)
  (repeat' split) <;> simp

@[simp] theorem State.wakeEvent_base (s : State) (b : Nat) :
    (State.wakeEvent s b).base = s.base := by
  unfold State.wakeEvent
  dsimp only
  (repeat' split) <;> simp

@[simp] theorem State.wakeIf_base (s : State) (b : Nat) :
    (State.wakeIf s b).base = s.base := by
  unfold State.wakeIf
  simp

@[simp] theorem State.writeAlarmHi_base (s : State) (v : Word) : (State.writeAlarmHi s v).base = s.base := by
  have h (t : State) (p : Pwr) : State.base { t with pwr := p } = t.base := by
    simp only [State.base_mk, State.base_eta]
  unfold State.writeAlarmHi
  rw [h, State.setReg_base]

@[simp] theorem State.enter_base (s : State) (t : PState) :
    (State.enter s t).base = s.base := by
  unfold State.enter
  simp

@[simp] theorem State.startReq_base (s : State) (t : Fin 4) :
    (State.startReq s t).2.base = s.base := by
  unfold State.startReq
  (repeat' split) <;> simp

@[simp] theorem State.stateReq_base (s : State) (t : Fin 4) :
    (State.stateReq s t).2.base = s.base := by
  unfold State.stateReq
  simp

@[simp] theorem State.writeStateReq_base (s : State) (v : Word) :
    (State.writeStateReq s v).2.base = s.base := by
  unfold State.writeStateReq
  simp

/-- With CORE off the waiting commands, the ordering code and the FRAM stay; every queue is empty. -/
@[simp] theorem State.aonOnly_base (s : State) (p : Pwr) (listen : Bool) :
    (State.aonOnly s p listen).base = { s.base with led := fun _ => 0, released := false } := by
  unfold State.aonOnly
  simp only [State.base_mk, Que.led_reset]
  rfl

@[simp] theorem State.coreDown_base (s : State) : (State.coreDown s).base = { s.base with led := fun _ => 0, released := false } := by
  unfold State.coreDown
  dsimp only
  generalize hp : State.aonOnly _ _ _ = t
  have h : t.base = { s.base with led := fun _ => 0, released := false } := by rw [← hp, State.aonOnly_base]
  simp [h]

@[simp] theorem State.afterEntry_base (s : State) (pend : Option (Fin 4)) :
    (State.afterEntry s pend).base = s.base := by
  unfold State.afterEntry
  (repeat' split) <;> simp

@[simp] theorem State.startDvfs_base (s : State) (v : BitVec 2) :
    (State.startDvfs s v).base = s.base := by
  unfold State.startDvfs
  simp

@[simp] theorem State.afterDvfs_base (s : State) :
    (State.afterDvfs s).base = s.base := by
  unfold State.afterDvfs
  dsimp only
  (repeat' split) <;> simp

@[simp] theorem State.writeOpp_base (s : State) (v : BitVec 2) :
    (State.writeOpp s v).base = s.base := by
  unfold State.writeOpp
  simp

@[simp] theorem State.domTmoEvent_base (s : State) :
    (State.domTmoEvent s).base = s.base := by
  unfold State.domTmoEvent
  simp

@[simp] theorem State.wakeRetry_base (s : State) : (State.wakeRetry s).base = { s.base with led := fun _ => 0, released := false } := by
  unfold State.wakeRetry
  split <;> exact State.aonOnly_base _ _ _

@[simp] theorem State.releaseEnc_base (s : State) (m : Two Bool) (n : Fin 4) :
    (State.releaseEnc s m n).base = s.base := by
  unfold State.releaseEnc
  simp

@[simp] theorem State.releaseAev_base (s : State) (m : Two Bool) (n : Fin 8) :
    (State.releaseAev s m n).base = s.base := by
  unfold State.releaseAev
  simp

@[simp] theorem State.padRelease_base (s : State) (v : Word) :
    (State.padRelease s v).base = s.base := by
  unfold State.padRelease
  simp [State.foldl_base]

@[simp] theorem State.takeHeader_base (s : State) (h : List Byte) :
    (State.takeHeader s h).base = s.base := by
  unfold State.takeHeader
  simp

@[simp] theorem State.readSlots_base (s : State) :
    (State.readSlots s).base = s.base := by
  unfold State.readSlots
  simp

@[simp] theorem State.enterHold_base (s : State) (c : Nat) :
    (State.enterHold s c).base = s.base := by
  unfold State.enterHold
  simp

@[simp] theorem State.startBist_base (s : State) (k : Nat) :
    (State.startBist s k).base = s.base := by
  unfold State.startBist
  simp only [State.base]
  split <;> rfl

@[simp] theorem State.bankTested_base (s : State) (b : Fin 8) (r : BistRun) :
    (State.bankTested s b r).base = s.base := by
  exact State.draw_base s

@[simp] theorem State.bistLatch_base (s : State) (k : Nat) (lo : BistRun) (hi : BistRun) (logic : BistRun) :
    (State.bistLatch s k lo hi logic).base = s.base := by
  unfold State.bistLatch
  simp

@[simp] theorem State.judgeBody_base (s : State) (b : List Byte) :
    (State.judgeBody s b).base = s.base := by
  unfold State.judgeBody
  simp

@[simp] theorem State.undoBlocks_base (s : State) : (State.undoBlocks s).base = s.base := by
  have h : (Que.led { s.que with q := s.que.q.map fun x => { x with dropEv := false } }) = s.que.led := by
    funext j
    simp [Que.led]
    rfl
  unfold State.undoBlocks
  simp only [State.base_mk, h, State.base_eta]

@[simp] theorem State.keepForced_base (s : State) :
    (State.keepForced s).base = s.base := by
  unfold State.keepForced
  simp

@[simp] theorem State.failApply_base (s : State) (c : Nat) :
    (State.failApply s c).base = s.base := by
  unfold State.failApply
  simp

@[simp] theorem State.pastRec_base (s : State) (r : RecHead) :
    (State.pastRec s r).base = s.base := by
  unfold State.pastRec
  simp

theorem State.recFails_base (s bad : State) (r : RecHead) (c : Nat) (h : bad.base = s.base) :
    (State.recFails s bad r c).base = s.base := by
  unfold State.recFails
  split
  · rw [State.pastRec_base]; rfl
  · rw [State.failApply_base, h]

@[simp] theorem State.recFails_self (s : State) (r : RecHead) (c : Nat) : (State.recFails s s r c).base = s.base :=
  State.recFails_base s s r c rfl

@[simp] theorem State.settleWalk_base (s : State) (n : Nat) : (State.settleWalk s n).base = s.base := by
  induction n generalizing s with
  | zero => rfl
  | succ n ih =>
    unfold State.settleWalk
    dsimp only
    split <;> simp [ih]

@[simp] theorem State.beginApply_base (s : State) :
    (State.beginApply s).base = s.base := by
  unfold State.beginApply
  simp

@[simp] theorem State.dlKey_base (s : State) (prog : Bool) :
    (State.dlKey s prog).2.base = s.base := by
  unfold State.dlKey
  simp

@[simp] theorem State.writeDlCmd_base (s : State) (v : Word) :
    (State.writeDlCmd s v).2.base = s.base := by
  unfold State.writeDlCmd
  simp

@[simp] theorem State.storeKey_base (s : State) :
    (State.storeKey s).2.base = s.base := by
  unfold State.storeKey
  simp

@[simp] theorem State.writeCalCmd_base (s : State) (v : Word) :
    (State.writeCalCmd s v).2.base = s.base := by
  unfold State.writeCalCmd
  simp

@[simp] theorem State.storeRecord_base (s : State) (code : Nat) (x : Store90) :
    (State.storeRecord s code x).base = s.base := by
  unfold State.storeRecord
  simp

@[simp] theorem State.queCapture_base (s0 : State) (i : Nat) :
    (State.queCapture s0 i).base = s0.base := by
  unfold State.queCapture
  simp

@[simp] theorem State.readSide_base (s : State) (p : Page) (off : Nat) (i : Nat) :
    (State.readSide s p off i).base = s.base := by
  unfold State.readSide
  (repeat' split) <;> simp

@[simp] theorem State.regRead_base (s0 : State) (p : Page) (r : RegRow) (i : Nat) (off : Nat) (a : Nat) :
    (State.regRead s0 p r i off a).2.2.base = s0.base := by
  unfold State.regRead
  (repeat' split) <;> simp

@[simp] theorem State.storeCopy_base (s : State) (p : Page) (r : RegRow) (o : Owner) (h : Half) (a : Nat) (v : Word) :
    (State.storeCopy s p r o h a v).base = s.base := by
  unfold State.storeCopy
  simp

@[simp] theorem State.store_base (s : State) (p : Page) (r : RegRow) (o : Owner) (a : Nat) (v : Word) :
    (State.store s p r o a v).base = s.base := by
  unfold State.store
  (repeat' split) <;> simp

@[simp] theorem State.plain_base (s : State) (x : Access) :
    (State.plain s x).base = s.base := by
  unfold State.plain
  simp

@[simp] theorem State.writeSys_base (s : State) (x : Access) :
    (State.writeSys s x).2.base = s.base := by
  unfold State.writeSys
  (repeat' split) <;> simp

@[simp] theorem State.writePwr_base (s : State) (x : Access) :
    (State.writePwr s x).2.base = s.base := by
  unfold State.writePwr
  (repeat' split) <;> simp

@[simp] theorem State.writeBoot_base (s : State) (x : Access) :
    (State.writeBoot s x).2.base = s.base := by
  unfold State.writeBoot
  (repeat' split) <;> simp

@[simp] theorem State.judgeMis_base (s : State) :
    (State.judgeMis s).base = s.base := by
  unfold State.judgeMis
  simp

@[simp] theorem State.writePch_base (s : State) (n : Fin 8) (x : Access) :
    (State.writePch s n x).2.base = s.base := by
  unfold State.writePch
  (repeat' split) <;> simp

@[simp] theorem State.writeExc_base (s : State) (x : Access) :
    (State.writeExc s x).2.base = s.base := by
  unfold State.writeExc
  (repeat' split) <;> simp

@[simp] theorem State.writeSclCtrl_base (s : State) (n : Fin 8) (w : Word) :
    (State.writeSclCtrl s n w).2.base = s.base := by
  unfold State.writeSclCtrl
  simp

@[simp] theorem State.writeScl_base (s : State) (x : Access) :
    (State.writeScl s x).2.base = s.base := by
  unfold State.writeScl
  (repeat' split) <;> simp

@[simp] theorem State.writeDch_base (s : State) (x : Access) :
    (State.writeDch s x).2.base = s.base := by
  unfold State.writeDch
  (repeat' split) <;> simp

@[simp] theorem State.writeEnc_base (s : State) (x : Access) :
    (State.writeEnc s x).2.base = s.base := by
  unfold State.writeEnc
  (repeat' split) <;> simp

@[simp] theorem State.writeAev_base (s : State) (x : Access) :
    (State.writeAev s x).2.base = s.base := by
  unfold State.writeAev
  (repeat' split) <;> simp

@[simp] theorem State.writeSdm_base (s : State) (x : Access) :
    (State.writeSdm s x).2.base = s.base := by
  unfold State.writeSdm
  (repeat' split) <;> simp

@[simp] theorem State.writeAux_base (s : State) (x : Access) :
    (State.writeAux s x).2.base = s.base := by
  unfold State.writeAux
  (repeat' split) <;> simp

@[simp] theorem State.seenClr_base (s : State) (v : Word) :
    (State.seenClr s v).base = s.base := by
  unfold State.seenClr
  simp

@[simp] theorem State.writeXmon_base (s : State) (x : Access) :
    (State.writeXmon s x).2.base = s.base := by
  unfold State.writeXmon
  (repeat' split) <;> simp

@[simp] theorem State.writeCrz_base (s : State) (x : Access) :
    (State.writeCrz s x).2.base = s.base := by
  unfold State.writeCrz
  (repeat' split) <;> simp

@[simp] theorem State.writeTime_base (s : State) (x : Access) :
    (State.writeTime s x).2.base = s.base := by
  unfold State.writeTime
  (repeat' split) <;> simp

@[simp] theorem State.writeNet_base (s : State) (x : Access) :
    (State.writeNet s x).2.base = s.base := by
  unfold State.writeNet
  (repeat' split) <;> simp

@[simp] theorem State.writeQue_base (s : State) (x : Access) : (State.writeQue s x).2.base = s.base := by
  have h (t : State) (i : Fin 64) : (t.setQ i { t.que.q[i] with dropEv := false }).base = t.base :=
    State.setQ_base _ _ _ rfl
  unfold State.writeQue
  dsimp only
  split
  · split <;> simp
  · dsimp only
    split
    · rw [State.settle_base, h]
    · rfl
  · simp
  · simp

@[simp] theorem State.regStore_base (s : State) (x : Access) :
    (State.regStore s x).2.base = s.base := by
  unfold State.regStore
  (repeat' split) <;> simp

@[simp] theorem State.regWrite_base (s : State) (m : Master) (a : Nat) (v : Word) :
    (State.regWrite s m a v).2.base = s.base := by
  unfold State.regWrite
  dsimp only
  (repeat' split) <;> simp

@[simp] theorem State.parityRead_base (s : State) (p : Page) (off : Nat) (r : Status × Word × State) (h : r.2.2.base = s.base) :
    (State.parityRead s p off r).2.2.base = s.base := by
  unfold State.parityRead
  extract_lets a key
  split
  · exact (State.parityFound_base _ _).trans h
  · exact h

@[simp] theorem State.regReadAt_base (s : State) (m : Master) (a : Nat) :
    (State.regReadAt s m a).2.2.base = s.base := by
  unfold State.regReadAt
  dsimp only
  (repeat' split) <;> simp

@[simp] theorem State.sramWrite_base (s : State) (off : Nat) (v : Word) :
    (State.sramWrite s off v).2.base = s.base := by
  unfold State.sramWrite
  simp

@[simp] theorem State.hostWrite_base (s : State) (a : Nat) (v : Word) :
    (State.hostWrite s a v).2.base = s.base := by
  unfold State.hostWrite
  (repeat' split) <;> simp

@[simp] theorem State.hostRead_base (s : State) (a : Nat) :
    (State.hostRead s a).2.2.base = s.base := by
  unfold State.hostRead
  (repeat' split) <;> simp

@[simp] theorem State.bootWrite_base (s : State) (a : Nat) (v : Word) :
    (State.bootWrite s a v).2.base = s.base := by
  unfold State.bootWrite
  simp

@[simp] theorem State.bootPut_base (s : State) (off : Nat) (v : Word) :
    (State.bootPut s off v).2.base = s.base := by
  unfold State.bootPut
  simp

@[simp] theorem State.writePairs_base (s : State) (xs : List Word) : (State.writePairs s xs).2.base = s.base := by
  fun_induction State.writePairs s xs <;> simp_all <;> exact State.bootWrite_base _ _ _

@[simp] theorem State.writeMasks_base (s : State) (xs : List Word) : (State.writeMasks s xs).2.base = s.base := by
  fun_induction State.writeMasks s xs <;> simp_all <;> exact State.bootWrite_base _ _ _

@[simp] theorem State.writeSeq_base (s : State) (a : Nat) (xs : List Word) : (State.writeSeq s a xs).2.base = s.base := by
  fun_induction State.writeSeq s a xs <;> simp_all <;> exact State.bootWrite_base _ _ _

@[simp] theorem State.loadSram_base (s : State) (off : Nat) (xs : List Word) : (State.loadSram s off xs).2.base = s.base := by
  fun_induction State.loadSram s off xs <;> simp_all <;> exact State.bootPut_base _ _ _

@[simp] theorem State.fillSram_base (s : State) (off : Nat) (v : Word) (n : Nat) :
    (State.fillSram s off v n).2.base = s.base := by
  induction n generalizing s off with
  | zero => rfl
  | succ n ih =>
    unfold State.fillSram
    dsimp only
    split <;> simp [ih]

@[simp] theorem State.processRec_base (s : State) (t : Nat) (wellFormed : RecHead → List Byte → Bool)
    (apply : List Byte → State → Bool × State) (h : ∀ pl s, (apply pl s).2.base = s.base) :
    (State.processRec s t wellFormed apply).base = s.base := by
  unfold State.processRec
  dsimp only
  split
  · rfl
  · rw [State.settleWalk_base]
    split
    · simp
    · split
      · rw [State.pastRec_base, h]
      · exact State.recFails_base _ _ _ _ (h _ _)

@[simp] theorem State.loadChan_base (s : State) (choice : Nat) (n : Fin 8) :
    (State.loadChan s choice n).base = s.base := by
  have h (l : List (Fin 18)) (t : State) : (l.foldl (fun st r => st.eccPut .scl (coefAddr n r)) t).base = t.base :=
    State.foldl_base _ (fun _ _ => State.eccPut_base _ _ _) l t
  unfold State.loadChan
  dsimp only
  (repeat' split) <;> simp [h]

@[simp] theorem State.takeStanding_base (s : State) :
    (State.takeStanding s).base = s.base := by
  unfold State.takeStanding
  simp [State.foldl_base]

@[simp] theorem State.releaseRecord_base (s : State) :
    (State.releaseRecord s).base = s.base := by
  unfold State.releaseRecord
  simp

@[simp] theorem State.wakeOver_base (s : State) : (State.wakeOver s).base = s.base := by
  unfold State.wakeOver
  simp only [State.base_mk, State.base_eta]

@[simp] theorem State.replayNet_base (s : State) (l : List (Fin 2 × List Byte)) :
    (State.replayNet s l).base = s.base := by
  have h (f : Fin 2 × List Byte) (t u : State) (e : execFrameReceive f.1 f.2 none t = .next u) : u.base = t.base := by
    unfold execFrameReceive at e
    dsimp only at e
    (repeat' split at e) <;> (injection e with e; subst e; simp)
  unfold State.replayNet
  apply State.foldl_base
  intro t f
  split
  · rename_i e
    exact h _ _ _ e
  · rfl

@[simp] theorem State.wakeReleased_base (s : State) :
    (State.wakeReleased s).base = s.base := by
  unfold State.wakeReleased
  simp

@[simp] theorem State.startBlocks_base (s : State) :
    (State.startBlocks s).base = s.base := by
  unfold State.startBlocks
  simp [State.foldl_base]

@[simp] theorem State.release_base (s0 : State) :
    (State.release s0).base = { s0.base with released := true } := by
  have hw : s0.wakeOver.base = s0.base := by simp
  unfold State.release
  simp
  refine ⟨?_, ?_, ?_, ?_, ?_⟩ <;> split
  · exact congrArg Base.pending hw
  · rfl
  · exact congrArg Base.qb hw
  · rfl
  · exact congrArg Base.fram hw
  · rfl
  · exact congrArg Base.led hw
  · rfl
  · exact congrArg Base.rails hw
  · rfl

@[simp] theorem State.turnAway_base (s : State) (queue : Bool) (st : Status) :
    (State.turnAway s queue st).post.base = s.base := by
  unfold State.turnAway
  split
  · rfl
  · exact State.draw_base s

@[simp] theorem State.latchFrame_base (s : State) (clks : Nat) (bits : BitVec 64) :
    (State.latchFrame s clks bits).base = s.base := by
  unfold State.latchFrame
  simp

@[simp] theorem State.crcFault_base (s : State) :
    (State.crcFault s).base = s.base := by
  unfold State.crcFault
  (try dsimp only)
  (repeat' split) <;> simp

@[simp] theorem State.frameFault_base (s : State) :
    (State.frameFault s).base = s.base := by
  unfold State.frameFault
  (try dsimp only)
  (repeat' split) <;> simp

@[simp] theorem State.hostAsleep_base (s : State) (clks : Nat) (bits : BitVec 64) (x : Heard) :
    (State.hostAsleep s clks bits x).base = s.base := by
  unfold State.hostAsleep
  dsimp only
  (repeat' split) <;> simp

@[simp] theorem State.hostWaking_base (s : State) :
    (State.hostWaking s).base = s.base := by
  unfold State.hostWaking
  (try dsimp only)
  (repeat' split) <;> simp

@[simp] theorem State.asleepRequest_base (s : State) (l : List Byte) (x : Heard) :
    (State.asleepRequest s l x).base = s.base := by
  unfold State.asleepRequest
  simp

@[simp] theorem State.burstRead_base (s : State) (a i n : Nat) : (State.burstRead s a i n).post.base = s.base := by
  induction n generalizing s a i with
  | zero => rfl
  | succ n ih =>
    have h : (if s.shut a then (Status.notReady, (0 : Word), s) else s.hostRead a).2.2.base = s.base := by
      split <;> simp
    unfold State.burstRead
    dsimp only
    generalize (if s.shut a then (Status.notReady, (0 : Word), s) else s.hostRead a) = r at h
    split <;> simp only [ih, h]

@[simp] theorem State.burstWrite_base (s : State) (a i : Nat) (xs : List Word) :
    (State.burstWrite s a i xs).post.base = s.base := by
  induction xs generalizing s a i with
  | nil => rfl
  | cons v t ih =>
    have h : (if s.shut a then s.only .notReady else s.hostWrite a v).2.base = s.base := by
      split <;> simp
    unfold State.burstWrite
    dsimp only
    generalize (if s.shut a then s.only .notReady else s.hostWrite a v) = r at h
    split <;> simp only [ih, h]

@[simp] theorem State.tapRise_base (s : State) (tms : Bool) (tdi : Bool) :
    (State.tapRise s tms tdi).base = s.base := by
  unfold State.tapRise
  dsimp only
  (repeat' split) <;> simp

@[simp] theorem State.tapFall_base (s : State) :
    (State.tapFall s).base = s.base := by
  unfold State.tapFall
  dsimp only
  (repeat' split) <;> simp

end Sys2Proof.Machine
end

