-- ==== Sys2Proof/Laws/Memory.lean ====
section
/-! SUPPORT. Sparse stores and memories: every operation keeps the canonical form, a read gives what was written last, and a
write leaves every other address alone. -/

namespace Sys2Proof.Machine

variable {α : Type} [DecidableEq α]

theorem Store.set_keys (d : α) (m : List (Nat × α)) (a : Nat) (v : α) :
    ∀ e ∈ Store.set d m a v, e.1 = a ∨ e ∈ m := by
  induction m with
  | nil => intro e he; unfold Store.set at he; split at he <;> simp_all
  | cons p t ih =>
    obtain ⟨k, w⟩ := p
    intro e he
    unfold Store.set at he
    split at he
    · rcases List.mem_cons.mp he with rfl | he
      · exact .inr (.head _)
      · exact (ih _ he).imp_right (.tail _)
    · split at he
      · split at he
        · exact .inr (.tail _ he)
        · rcases List.mem_cons.mp he with rfl | he
          · exact .inl rfl
          · exact .inr (.tail _ he)
      · split at he
        · exact .inr he
        · rcases List.mem_cons.mp he with rfl | he
          · exact .inl rfl
          · exact .inr he

theorem Store.set_wf (f : Nat → α) (m : List (Nat × α)) (a : Nat) (v : α) (h : Store.wf f m = true) :
    Store.wf f (Store.set (f a) m a v) = true := by
  induction m with
  | nil => unfold Store.set; split <;> simp_all [Store.wf]
  | cons p t ih =>
    obtain ⟨k, w⟩ := p
    simp only [Store.wf, Bool.and_eq_true, decide_eq_true_eq, List.all_eq_true] at h
    obtain ⟨⟨hv, hk⟩, ht⟩ := h
    unfold Store.set
    split
    · rename_i hka
      simp only [Store.wf, Bool.and_eq_true, decide_eq_true_eq, List.all_eq_true]
      refine ⟨⟨hv, fun e he => ?_⟩, ih ht⟩
      rcases Store.set_keys _ _ _ _ e he with rfl | h
      · exact hka
      · exact hk e h
    · split
      · rename_i hka
        subst hka
        split
        · exact ht
        · simp only [Store.wf, Bool.and_eq_true, decide_eq_true_eq, List.all_eq_true]
          exact ⟨⟨by assumption, hk⟩, ht⟩
      · rename_i h1 h2
        split
        · simp only [Store.wf, Bool.and_eq_true, decide_eq_true_eq, List.all_eq_true]
          exact ⟨⟨hv, hk⟩, ht⟩
        · simp only [Store.wf, Bool.and_eq_true, decide_eq_true_eq, List.all_eq_true, List.mem_cons, forall_eq_or_imp]
          refine ⟨⟨by assumption, by omega, fun e he => ?_⟩, ⟨hv, hk⟩, ht⟩
          have := hk e he
          omega

theorem Store.get_set_same (f : Nat → α) (m : List (Nat × α)) (a : Nat) (v : α) (h : Store.wf f m = true) :
    Store.get (f a) (Store.set (f a) m a v) a = v := by
  have none (t : List (Nat × α)) (ht : ∀ e ∈ t, a < e.1) : Store.get (f a) t a = f a := by
    induction t with
    | nil => rfl
    | cons e t ih =>
      have h1 := ht e (.head _)
      have h2 := ih fun x hx => ht x (.tail _ hx)
      unfold Store.get
      split
      · omega
      · exact h2
  induction m with
  | nil => unfold Store.set; split <;> simp_all [Store.get]
  | cons p t ih =>
    obtain ⟨k, w⟩ := p
    simp only [Store.wf, Bool.and_eq_true, decide_eq_true_eq, List.all_eq_true] at h
    obtain ⟨⟨hv, hk⟩, ht⟩ := h
    unfold Store.set
    split
    · rename_i hka
      have : ¬ k = a := by omega
      simp [Store.get, this, ih ht]
    · split
      · rename_i hka
        subst hka
        split
        · rename_i e
          rw [e]
          exact none t hk
        · simp [Store.get]
      · rename_i h1 h2
        split
        · rename_i e
          rw [e]
          refine none _ fun x hx => ?_
          rcases List.mem_cons.mp hx with rfl | hx
          · simp only; omega
          · have := hk x hx; omega
        · simp [Store.get]

theorem Store.get_set_other (d d' : α) (m : List (Nat × α)) (a b : Nat) (v : α) (h : b ≠ a) :
    Store.get d' (Store.set d m a v) b = Store.get d' m b := by
  induction m with
  | nil => unfold Store.set; split <;> simp [Store.get, h.symm]
  | cons p t ih =>
    obtain ⟨k, w⟩ := p
    unfold Store.set
    split
    · simp only [Store.get, ih]
    · split
      · rename_i hka
        subst hka
        split <;> simp [Store.get, h.symm]
      · split <;> simp [Store.get, h.symm]

@[simp] theorem Memory.write_wf (d : Byte) (m : List Host.Cell) (a : Nat) (b : Byte) (h : Memory.wf d m = true) :
    Memory.wf d (Memory.write d m a b) = true := Store.set_wf (fun _ => d) m a b h

@[simp] theorem Memory.writeBytes_wf (d : Byte) (m : List Host.Cell) (a : Nat) (l : List Byte) (h : Memory.wf d m = true) :
    Memory.wf d (Memory.writeBytes d m a l) = true := by
  induction l generalizing m a with
  | nil => exact h
  | cons b t ih => exact ih _ _ (Memory.write_wf d m a b h)

@[simp] theorem Memory.clear_wf (d : Byte) (m : List Host.Cell) (x y : Nat) (h : Memory.wf d m = true) :
    Memory.wf d (Memory.clear m x y) = true := by
  induction m with
  | nil => rfl
  | cons e t ih =>
    simp only [Memory.wf, Store.wf, Bool.and_eq_true, decide_eq_true_eq, List.all_eq_true] at h
    obtain ⟨⟨hv, hk⟩, ht⟩ := h
    have iht := ih ht
    unfold Memory.clear at iht ⊢
    rw [List.filter_cons]
    split
    · simp only [Memory.wf, Store.wf, Bool.and_eq_true, decide_eq_true_eq, List.all_eq_true]
      exact ⟨⟨hv, fun x hx => hk x (List.mem_of_mem_filter hx)⟩, iht⟩
    · exact iht

theorem Memory.read_write_same (d : Byte) (m : List Host.Cell) (a : Nat) (b : Byte) (h : Memory.wf d m = true) :
    Memory.read d (Memory.write d m a b) a = b := Store.get_set_same (fun _ => d) m a b h

theorem Memory.read_write_other (d : Byte) (m : List Host.Cell) (a c : Nat) (b : Byte) (h : c ≠ a) :
    Memory.read d (Memory.write d m a b) c = Memory.read d m c := Store.get_set_other d d m a c b h

theorem Memory.read_writeBytes_other (d : Byte) (m : List Host.Cell) (a c : Nat) (l : List Byte)
    (h : c < a ∨ a + l.length ≤ c) : Memory.read d (Memory.writeBytes d m a l) c = Memory.read d m c := by
  induction l generalizing m a with
  | nil => rfl
  | cons b t ih =>
    simp only [List.length_cons] at h
    unfold Memory.writeBytes
    rw [ih _ _ (by omega)]
    exact Memory.read_write_other d m a c b (by omega)

theorem State.reset_sram_wf : Memory.wf sramDefault State.reset.sram = true := rfl

theorem State.reset_fram_wf : Memory.wf framDefault State.reset.fram = true := rfl

end Sys2Proof.Machine
end

