-- ==== Sys2Proof/Laws/Queue.lean ====
section
/-! SUPPORT. Queues: the record the Yarder serves next is staged, a frame takes no more records than its ring holds, and the
relation of R411 in terms of `Queue.miss`. -/

namespace Sys2Proof.Machine

theorem State.yardNext_staged (s : State) (i : Fin 64) (x : Staged) (h : s.yardNext = some (i, x)) :
    (s.que.q[i]).staged ≠ [] := by
  have key (l : List (Fin 64)) (b : Option (Fin 64 × Staged))
      (hb : ∀ p, b = some p → (s.que.q[p.1]).staged ≠ []) :
      ∀ p, l.foldl (fun best i =>
        match (s.que.q[i]).staged with
        | [] => best
        | x :: _ =>
          if s.yardAct i x = .hold then best
          else match best with
            | none => some (i, x)
            | some (j, y) => if yardBefore i x j y then some (i, x) else best) b = some p →
        (s.que.q[p.1]).staged ≠ [] := by
    induction l generalizing b with
    | nil => exact hb
    | cons k t ih =>
      rw [List.foldl_cons]
      apply ih
      intro p hp
      split at hp
      · exact hb p hp
      · rename_i y l' hs
        have hk : (s.que.q[k]).staged ≠ [] := by rw [hs]; exact List.cons_ne_nil _ _
        split at hp
        · exact hb p hp
        · split at hp
          · cases hp; exact hk
          · split at hp
            · cases hp; exact hk
            · exact hb p hp
  exact key _ none (fun _ e => nomatch e) (i, x) h

theorem moreRecords_le (limit sum : Nat) (l : List RingRec) : moreRecords limit sum l ≤ l.length := by
  induction l generalizing sum with
  | nil => exact Nat.le_refl _
  | cons r t ih =>
    unfold moreRecords
    split
    · exact Nat.succ_le_succ (ih _)
    · exact Nat.zero_le _

theorem frameRecords_le (limit : Nat) (l : List RingRec) : frameRecords limit l ≤ l.length := by
  cases l with
  | nil => exact Nat.le_refl _
  | cons r t => exact Nat.succ_le_succ (moreRecords_le _ _ _)

theorem Queue.balanced_iff (q : Queue) : q.balanced ↔ q.miss = 0 := by
  unfold Queue.balanced Queue.miss
  omega

theorem State.queuesBalanced_iff (s : State) : s.queuesBalanced ↔ s.base.led = fun _ => 0 := by
  unfold State.queuesBalanced
  simp only [Queue.balanced_iff]
  exact ⟨fun h => funext h, fun h i => congrFun h i⟩

end Sys2Proof.Machine
end

