-- ==== Sys2Proof/Laws/State.lean ====
section
/-! SUPPORT. What each update of the state leaves unchanged, field by field, and what it reads as afterwards. -/

namespace Sys2Proof.Machine

theorem vset_same {α : Type} {n : Nat} (v : Vector α n) (i : Fin n) (a : α) : (vset v i a)[i] = a := by simp [vset]

theorem vset_other {α : Type} {n : Nat} (v : Vector α n) (i j : Fin n) (a : α) (h : j ≠ i) : (vset v i a)[j] = v[j] := by
  simp [vset, Ne.symm (Fin.val_ne_of_ne h)]

/-! ## putReg -/

@[simp] theorem State.putReg_pending (s : State) (a : Nat) (v : Word) : (s.putReg a v).pending = s.pending := rfl
@[simp] theorem State.putReg_qb (s : State) (a : Nat) (v : Word) : (s.putReg a v).qb = s.qb := rfl
@[simp] theorem State.putReg_free (s : State) (a : Nat) (v : Word) : (s.putReg a v).free = s.free := rfl
@[simp] theorem State.putReg_capt (s : State) (a : Nat) (v : Word) : (s.putReg a v).capt = s.capt := rfl
@[simp] theorem State.putReg_badPar (s : State) (a : Nat) (v : Word) : (s.putReg a v).badPar = s.badPar := rfl
@[simp] theorem State.putReg_badEcc (s : State) (a : Nat) (v : Word) : (s.putReg a v).badEcc = s.badEcc := rfl
@[simp] theorem State.putReg_sram (s : State) (a : Nat) (v : Word) : (s.putReg a v).sram = s.sram := rfl
@[simp] theorem State.putReg_fram (s : State) (a : Nat) (v : Word) : (s.putReg a v).fram = s.fram := rfl
@[simp] theorem State.putReg_clk (s : State) (a : Nat) (v : Word) : (s.putReg a v).clk = s.clk := rfl
@[simp] theorem State.putReg_rails (s : State) (a : Nat) (v : Word) : (s.putReg a v).rails = s.rails := rfl
@[simp] theorem State.putReg_sys (s : State) (a : Nat) (v : Word) : (s.putReg a v).sys = s.sys := rfl
@[simp] theorem State.putReg_alive (s : State) (a : Nat) (v : Word) : (s.putReg a v).alive = s.alive := rfl
@[simp] theorem State.putReg_unlock (s : State) (a : Nat) (v : Word) : (s.putReg a v).unlock = s.unlock := rfl
@[simp] theorem State.putReg_pads (s : State) (a : Nat) (v : Word) : (s.putReg a v).pads = s.pads := rfl
@[simp] theorem State.putReg_boot (s : State) (a : Nat) (v : Word) : (s.putReg a v).boot = s.boot := rfl
@[simp] theorem State.putReg_flt (s : State) (a : Nat) (v : Word) : (s.putReg a v).flt = s.flt := rfl
@[simp] theorem State.putReg_xd (s : State) (a : Nat) (v : Word) : (s.putReg a v).xd = s.xd := rfl
@[simp] theorem State.putReg_safe (s : State) (a : Nat) (v : Word) : (s.putReg a v).safe = s.safe := rfl
@[simp] theorem State.putReg_sdm (s : State) (a : Nat) (v : Word) : (s.putReg a v).sdm = s.sdm := rfl
@[simp] theorem State.putReg_que (s : State) (a : Nat) (v : Word) : (s.putReg a v).que = s.que := rfl
@[simp] theorem State.putReg_resp (s : State) (a : Nat) (v : Word) : (s.putReg a v).resp = s.resp := rfl
@[simp] theorem State.putReg_wst (s : State) (a : Nat) (v : Word) : (s.putReg a v).wst = s.wst := rfl
@[simp] theorem State.putReg_pwr (s : State) (a : Nat) (v : Word) : (s.putReg a v).pwr = s.pwr := rfl
@[simp] theorem State.putReg_exc (s : State) (a : Nat) (v : Word) : (s.putReg a v).exc = s.exc := rfl
@[simp] theorem State.putReg_vexcMv (s : State) (a : Nat) (v : Word) : (s.putReg a v).vexcMv = s.vexcMv := rfl
@[simp] theorem State.putReg_pch (s : State) (a : Nat) (v : Word) : (s.putReg a v).pch = s.pch := rfl
@[simp] theorem State.putReg_scl (s : State) (a : Nat) (v : Word) : (s.putReg a v).scl = s.scl := rfl
@[simp] theorem State.putReg_sclH (s : State) (a : Nat) (v : Word) : (s.putReg a v).sclH = s.sclH := rfl
@[simp] theorem State.putReg_dch (s : State) (a : Nat) (v : Word) : (s.putReg a v).dch = s.dch := rfl
@[simp] theorem State.putReg_gen (s : State) (a : Nat) (v : Word) : (s.putReg a v).gen = s.gen := rfl
@[simp] theorem State.putReg_enc (s : State) (a : Nat) (v : Word) : (s.putReg a v).enc = s.enc := rfl
@[simp] theorem State.putReg_aev (s : State) (a : Nat) (v : Word) : (s.putReg a v).aev = s.aev := rfl
@[simp] theorem State.putReg_aux (s : State) (a : Nat) (v : Word) : (s.putReg a v).aux = s.aux := rfl
@[simp] theorem State.putReg_crz (s : State) (a : Nat) (v : Word) : (s.putReg a v).crz = s.crz := rfl
@[simp] theorem State.putReg_tim (s : State) (a : Nat) (v : Word) : (s.putReg a v).tim = s.tim := rfl
@[simp] theorem State.putReg_net (s : State) (a : Nat) (v : Word) : (s.putReg a v).net = s.net := rfl
@[simp] theorem State.putReg_frec (s : State) (a : Nat) (v : Word) : (s.putReg a v).frec = s.frec := rfl
@[simp] theorem State.putReg_tap (s : State) (a : Nat) (v : Word) : (s.putReg a v).tap = s.tap := rfl

/-! ## setReg -/

@[simp] theorem State.setReg_pending (s : State) (a : Nat) (v : Word) : (s.setReg a v).pending = s.pending := by
  unfold State.setReg
  split
  · rfl
  · unfold State.markParity; dsimp only; (repeat' split) <;> rfl
@[simp] theorem State.setReg_qb (s : State) (a : Nat) (v : Word) : (s.setReg a v).qb = s.qb := by
  unfold State.setReg
  split
  · rfl
  · unfold State.markParity; dsimp only; (repeat' split) <;> rfl
@[simp] theorem State.setReg_free (s : State) (a : Nat) (v : Word) : (s.setReg a v).free = s.free := by
  unfold State.setReg
  split
  · rfl
  · unfold State.markParity; dsimp only; (repeat' split) <;> rfl
@[simp] theorem State.setReg_capt (s : State) (a : Nat) (v : Word) : (s.setReg a v).capt = s.capt := by
  unfold State.setReg
  split
  · rfl
  · unfold State.markParity; dsimp only; (repeat' split) <;> rfl
@[simp] theorem State.setReg_badEcc (s : State) (a : Nat) (v : Word) : (s.setReg a v).badEcc = s.badEcc := by
  unfold State.setReg
  split
  · rfl
  · unfold State.markParity; dsimp only; (repeat' split) <;> rfl
@[simp] theorem State.setReg_sram (s : State) (a : Nat) (v : Word) : (s.setReg a v).sram = s.sram := by
  unfold State.setReg
  split
  · rfl
  · unfold State.markParity; dsimp only; (repeat' split) <;> rfl
@[simp] theorem State.setReg_fram (s : State) (a : Nat) (v : Word) : (s.setReg a v).fram = s.fram := by
  unfold State.setReg
  split
  · rfl
  · unfold State.markParity; dsimp only; (repeat' split) <;> rfl
@[simp] theorem State.setReg_clk (s : State) (a : Nat) (v : Word) : (s.setReg a v).clk = s.clk := by
  unfold State.setReg
  split
  · rfl
  · unfold State.markParity; dsimp only; (repeat' split) <;> rfl
@[simp] theorem State.setReg_rails (s : State) (a : Nat) (v : Word) : (s.setReg a v).rails = s.rails := by
  unfold State.setReg
  split
  · rfl
  · unfold State.markParity; dsimp only; (repeat' split) <;> rfl
@[simp] theorem State.setReg_sys (s : State) (a : Nat) (v : Word) : (s.setReg a v).sys = s.sys := by
  unfold State.setReg
  split
  · rfl
  · unfold State.markParity; dsimp only; (repeat' split) <;> rfl
@[simp] theorem State.setReg_alive (s : State) (a : Nat) (v : Word) : (s.setReg a v).alive = s.alive := by
  unfold State.setReg
  split
  · rfl
  · unfold State.markParity; dsimp only; (repeat' split) <;> rfl
@[simp] theorem State.setReg_unlock (s : State) (a : Nat) (v : Word) : (s.setReg a v).unlock = s.unlock := by
  unfold State.setReg
  split
  · rfl
  · unfold State.markParity; dsimp only; (repeat' split) <;> rfl
@[simp] theorem State.setReg_pads (s : State) (a : Nat) (v : Word) : (s.setReg a v).pads = s.pads := by
  unfold State.setReg
  split
  · rfl
  · unfold State.markParity; dsimp only; (repeat' split) <;> rfl
@[simp] theorem State.setReg_boot (s : State) (a : Nat) (v : Word) : (s.setReg a v).boot = s.boot := by
  unfold State.setReg
  split
  · rfl
  · unfold State.markParity; dsimp only; (repeat' split) <;> rfl
@[simp] theorem State.setReg_xd (s : State) (a : Nat) (v : Word) : (s.setReg a v).xd = s.xd := by
  unfold State.setReg
  split
  · rfl
  · unfold State.markParity; dsimp only; (repeat' split) <;> rfl
@[simp] theorem State.setReg_safe (s : State) (a : Nat) (v : Word) : (s.setReg a v).safe = s.safe := by
  unfold State.setReg
  split
  · rfl
  · unfold State.markParity; dsimp only; (repeat' split) <;> rfl
@[simp] theorem State.setReg_sdm (s : State) (a : Nat) (v : Word) : (s.setReg a v).sdm = s.sdm := by
  unfold State.setReg
  split
  · rfl
  · unfold State.markParity; dsimp only; (repeat' split) <;> rfl
@[simp] theorem State.setReg_que (s : State) (a : Nat) (v : Word) : (s.setReg a v).que = s.que := by
  unfold State.setReg
  split
  · rfl
  · unfold State.markParity; dsimp only; (repeat' split) <;> rfl
@[simp] theorem State.setReg_resp (s : State) (a : Nat) (v : Word) : (s.setReg a v).resp = s.resp := by
  unfold State.setReg
  split
  · rfl
  · unfold State.markParity; dsimp only; (repeat' split) <;> rfl
@[simp] theorem State.setReg_wst (s : State) (a : Nat) (v : Word) : (s.setReg a v).wst = s.wst := by
  unfold State.setReg
  split
  · rfl
  · unfold State.markParity; dsimp only; (repeat' split) <;> rfl
@[simp] theorem State.setReg_pwr (s : State) (a : Nat) (v : Word) : (s.setReg a v).pwr = s.pwr := by
  unfold State.setReg
  split
  · rfl
  · unfold State.markParity; dsimp only; (repeat' split) <;> rfl
@[simp] theorem State.setReg_exc (s : State) (a : Nat) (v : Word) : (s.setReg a v).exc = s.exc := by
  unfold State.setReg
  split
  · rfl
  · unfold State.markParity; dsimp only; (repeat' split) <;> rfl
@[simp] theorem State.setReg_vexcMv (s : State) (a : Nat) (v : Word) : (s.setReg a v).vexcMv = s.vexcMv := by
  unfold State.setReg
  split
  · rfl
  · unfold State.markParity; dsimp only; (repeat' split) <;> rfl
@[simp] theorem State.setReg_pch (s : State) (a : Nat) (v : Word) : (s.setReg a v).pch = s.pch := by
  unfold State.setReg
  split
  · rfl
  · unfold State.markParity; dsimp only; (repeat' split) <;> rfl
@[simp] theorem State.setReg_scl (s : State) (a : Nat) (v : Word) : (s.setReg a v).scl = s.scl := by
  unfold State.setReg
  split
  · rfl
  · unfold State.markParity; dsimp only; (repeat' split) <;> rfl
@[simp] theorem State.setReg_sclH (s : State) (a : Nat) (v : Word) : (s.setReg a v).sclH = s.sclH := by
  unfold State.setReg
  split
  · rfl
  · unfold State.markParity; dsimp only; (repeat' split) <;> rfl
@[simp] theorem State.setReg_dch (s : State) (a : Nat) (v : Word) : (s.setReg a v).dch = s.dch := by
  unfold State.setReg
  split
  · rfl
  · unfold State.markParity; dsimp only; (repeat' split) <;> rfl
@[simp] theorem State.setReg_gen (s : State) (a : Nat) (v : Word) : (s.setReg a v).gen = s.gen := by
  unfold State.setReg
  split
  · rfl
  · unfold State.markParity; dsimp only; (repeat' split) <;> rfl
@[simp] theorem State.setReg_enc (s : State) (a : Nat) (v : Word) : (s.setReg a v).enc = s.enc := by
  unfold State.setReg
  split
  · rfl
  · unfold State.markParity; dsimp only; (repeat' split) <;> rfl
@[simp] theorem State.setReg_aev (s : State) (a : Nat) (v : Word) : (s.setReg a v).aev = s.aev := by
  unfold State.setReg
  split
  · rfl
  · unfold State.markParity; dsimp only; (repeat' split) <;> rfl
@[simp] theorem State.setReg_aux (s : State) (a : Nat) (v : Word) : (s.setReg a v).aux = s.aux := by
  unfold State.setReg
  split
  · rfl
  · unfold State.markParity; dsimp only; (repeat' split) <;> rfl
@[simp] theorem State.setReg_crz (s : State) (a : Nat) (v : Word) : (s.setReg a v).crz = s.crz := by
  unfold State.setReg
  split
  · rfl
  · unfold State.markParity; dsimp only; (repeat' split) <;> rfl
@[simp] theorem State.setReg_tim (s : State) (a : Nat) (v : Word) : (s.setReg a v).tim = s.tim := by
  unfold State.setReg
  split
  · rfl
  · unfold State.markParity; dsimp only; (repeat' split) <;> rfl
@[simp] theorem State.setReg_net (s : State) (a : Nat) (v : Word) : (s.setReg a v).net = s.net := by
  unfold State.setReg
  split
  · rfl
  · unfold State.markParity; dsimp only; (repeat' split) <;> rfl
@[simp] theorem State.setReg_frec (s : State) (a : Nat) (v : Word) : (s.setReg a v).frec = s.frec := by
  unfold State.setReg
  split
  · rfl
  · unfold State.markParity; dsimp only; (repeat' split) <;> rfl
@[simp] theorem State.setReg_tap (s : State) (a : Nat) (v : Word) : (s.setReg a v).tap = s.tap := by
  unfold State.setReg
  split
  · rfl
  · unfold State.markParity; dsimp only; (repeat' split) <;> rfl

/-! ## capture -/

@[simp] theorem State.capture_pending (s : State) (a : Nat) (v : Word) : (s.capture a v).pending = s.pending := rfl
@[simp] theorem State.capture_qb (s : State) (a : Nat) (v : Word) : (s.capture a v).qb = s.qb := rfl
@[simp] theorem State.capture_free (s : State) (a : Nat) (v : Word) : (s.capture a v).free = s.free := rfl
@[simp] theorem State.capture_cfg (s : State) (a : Nat) (v : Word) : (s.capture a v).cfg = s.cfg := rfl
@[simp] theorem State.capture_badPar (s : State) (a : Nat) (v : Word) : (s.capture a v).badPar = s.badPar := rfl
@[simp] theorem State.capture_badEcc (s : State) (a : Nat) (v : Word) : (s.capture a v).badEcc = s.badEcc := rfl
@[simp] theorem State.capture_sram (s : State) (a : Nat) (v : Word) : (s.capture a v).sram = s.sram := rfl
@[simp] theorem State.capture_fram (s : State) (a : Nat) (v : Word) : (s.capture a v).fram = s.fram := rfl
@[simp] theorem State.capture_clk (s : State) (a : Nat) (v : Word) : (s.capture a v).clk = s.clk := rfl
@[simp] theorem State.capture_rails (s : State) (a : Nat) (v : Word) : (s.capture a v).rails = s.rails := rfl
@[simp] theorem State.capture_sys (s : State) (a : Nat) (v : Word) : (s.capture a v).sys = s.sys := rfl
@[simp] theorem State.capture_alive (s : State) (a : Nat) (v : Word) : (s.capture a v).alive = s.alive := rfl
@[simp] theorem State.capture_unlock (s : State) (a : Nat) (v : Word) : (s.capture a v).unlock = s.unlock := rfl
@[simp] theorem State.capture_pads (s : State) (a : Nat) (v : Word) : (s.capture a v).pads = s.pads := rfl
@[simp] theorem State.capture_boot (s : State) (a : Nat) (v : Word) : (s.capture a v).boot = s.boot := rfl
@[simp] theorem State.capture_flt (s : State) (a : Nat) (v : Word) : (s.capture a v).flt = s.flt := rfl
@[simp] theorem State.capture_xd (s : State) (a : Nat) (v : Word) : (s.capture a v).xd = s.xd := rfl
@[simp] theorem State.capture_safe (s : State) (a : Nat) (v : Word) : (s.capture a v).safe = s.safe := rfl
@[simp] theorem State.capture_sdm (s : State) (a : Nat) (v : Word) : (s.capture a v).sdm = s.sdm := rfl
@[simp] theorem State.capture_que (s : State) (a : Nat) (v : Word) : (s.capture a v).que = s.que := rfl
@[simp] theorem State.capture_resp (s : State) (a : Nat) (v : Word) : (s.capture a v).resp = s.resp := rfl
@[simp] theorem State.capture_wst (s : State) (a : Nat) (v : Word) : (s.capture a v).wst = s.wst := rfl
@[simp] theorem State.capture_pwr (s : State) (a : Nat) (v : Word) : (s.capture a v).pwr = s.pwr := rfl
@[simp] theorem State.capture_exc (s : State) (a : Nat) (v : Word) : (s.capture a v).exc = s.exc := rfl
@[simp] theorem State.capture_vexcMv (s : State) (a : Nat) (v : Word) : (s.capture a v).vexcMv = s.vexcMv := rfl
@[simp] theorem State.capture_pch (s : State) (a : Nat) (v : Word) : (s.capture a v).pch = s.pch := rfl
@[simp] theorem State.capture_scl (s : State) (a : Nat) (v : Word) : (s.capture a v).scl = s.scl := rfl
@[simp] theorem State.capture_sclH (s : State) (a : Nat) (v : Word) : (s.capture a v).sclH = s.sclH := rfl
@[simp] theorem State.capture_dch (s : State) (a : Nat) (v : Word) : (s.capture a v).dch = s.dch := rfl
@[simp] theorem State.capture_gen (s : State) (a : Nat) (v : Word) : (s.capture a v).gen = s.gen := rfl
@[simp] theorem State.capture_enc (s : State) (a : Nat) (v : Word) : (s.capture a v).enc = s.enc := rfl
@[simp] theorem State.capture_aev (s : State) (a : Nat) (v : Word) : (s.capture a v).aev = s.aev := rfl
@[simp] theorem State.capture_aux (s : State) (a : Nat) (v : Word) : (s.capture a v).aux = s.aux := rfl
@[simp] theorem State.capture_crz (s : State) (a : Nat) (v : Word) : (s.capture a v).crz = s.crz := rfl
@[simp] theorem State.capture_tim (s : State) (a : Nat) (v : Word) : (s.capture a v).tim = s.tim := rfl
@[simp] theorem State.capture_net (s : State) (a : Nat) (v : Word) : (s.capture a v).net = s.net := rfl
@[simp] theorem State.capture_frec (s : State) (a : Nat) (v : Word) : (s.capture a v).frec = s.frec := rfl
@[simp] theorem State.capture_tap (s : State) (a : Nat) (v : Word) : (s.capture a v).tap = s.tap := rfl

/-! ## draw -/

@[simp] theorem State.draw_pending (s : State) : (s.draw).pending = s.pending := rfl
@[simp] theorem State.draw_qb (s : State) : (s.draw).qb = s.qb := rfl
@[simp] theorem State.draw_cfg (s : State) : (s.draw).cfg = s.cfg := rfl
@[simp] theorem State.draw_capt (s : State) : (s.draw).capt = s.capt := rfl
@[simp] theorem State.draw_badPar (s : State) : (s.draw).badPar = s.badPar := rfl
@[simp] theorem State.draw_badEcc (s : State) : (s.draw).badEcc = s.badEcc := rfl
@[simp] theorem State.draw_sram (s : State) : (s.draw).sram = s.sram := rfl
@[simp] theorem State.draw_fram (s : State) : (s.draw).fram = s.fram := rfl
@[simp] theorem State.draw_clk (s : State) : (s.draw).clk = s.clk := rfl
@[simp] theorem State.draw_rails (s : State) : (s.draw).rails = s.rails := rfl
@[simp] theorem State.draw_sys (s : State) : (s.draw).sys = s.sys := rfl
@[simp] theorem State.draw_alive (s : State) : (s.draw).alive = s.alive := rfl
@[simp] theorem State.draw_unlock (s : State) : (s.draw).unlock = s.unlock := rfl
@[simp] theorem State.draw_pads (s : State) : (s.draw).pads = s.pads := rfl
@[simp] theorem State.draw_boot (s : State) : (s.draw).boot = s.boot := rfl
@[simp] theorem State.draw_flt (s : State) : (s.draw).flt = s.flt := rfl
@[simp] theorem State.draw_xd (s : State) : (s.draw).xd = s.xd := rfl
@[simp] theorem State.draw_safe (s : State) : (s.draw).safe = s.safe := rfl
@[simp] theorem State.draw_sdm (s : State) : (s.draw).sdm = s.sdm := rfl
@[simp] theorem State.draw_que (s : State) : (s.draw).que = s.que := rfl
@[simp] theorem State.draw_resp (s : State) : (s.draw).resp = s.resp := rfl
@[simp] theorem State.draw_wst (s : State) : (s.draw).wst = s.wst := rfl
@[simp] theorem State.draw_pwr (s : State) : (s.draw).pwr = s.pwr := rfl
@[simp] theorem State.draw_exc (s : State) : (s.draw).exc = s.exc := rfl
@[simp] theorem State.draw_vexcMv (s : State) : (s.draw).vexcMv = s.vexcMv := rfl
@[simp] theorem State.draw_pch (s : State) : (s.draw).pch = s.pch := rfl
@[simp] theorem State.draw_scl (s : State) : (s.draw).scl = s.scl := rfl
@[simp] theorem State.draw_sclH (s : State) : (s.draw).sclH = s.sclH := rfl
@[simp] theorem State.draw_dch (s : State) : (s.draw).dch = s.dch := rfl
@[simp] theorem State.draw_gen (s : State) : (s.draw).gen = s.gen := rfl
@[simp] theorem State.draw_enc (s : State) : (s.draw).enc = s.enc := rfl
@[simp] theorem State.draw_aev (s : State) : (s.draw).aev = s.aev := rfl
@[simp] theorem State.draw_aux (s : State) : (s.draw).aux = s.aux := rfl
@[simp] theorem State.draw_crz (s : State) : (s.draw).crz = s.crz := rfl
@[simp] theorem State.draw_tim (s : State) : (s.draw).tim = s.tim := rfl
@[simp] theorem State.draw_net (s : State) : (s.draw).net = s.net := rfl
@[simp] theorem State.draw_frec (s : State) : (s.draw).frec = s.frec := rfl
@[simp] theorem State.draw_tap (s : State) : (s.draw).tap = s.tap := rfl

/-! ## wait -/

@[simp] theorem State.wait_pending (s : State) (k : Nat) : (s.wait k).pending = s.pending := rfl
@[simp] theorem State.wait_qb (s : State) (k : Nat) : (s.wait k).qb = s.qb := rfl
@[simp] theorem State.wait_free (s : State) (k : Nat) : (s.wait k).free = s.free := rfl
@[simp] theorem State.wait_cfg (s : State) (k : Nat) : (s.wait k).cfg = s.cfg := rfl
@[simp] theorem State.wait_capt (s : State) (k : Nat) : (s.wait k).capt = s.capt := rfl
@[simp] theorem State.wait_badPar (s : State) (k : Nat) : (s.wait k).badPar = s.badPar := rfl
@[simp] theorem State.wait_badEcc (s : State) (k : Nat) : (s.wait k).badEcc = s.badEcc := rfl
@[simp] theorem State.wait_sram (s : State) (k : Nat) : (s.wait k).sram = s.sram := rfl
@[simp] theorem State.wait_fram (s : State) (k : Nat) : (s.wait k).fram = s.fram := rfl
@[simp] theorem State.wait_rails (s : State) (k : Nat) : (s.wait k).rails = s.rails := rfl
@[simp] theorem State.wait_sys (s : State) (k : Nat) : (s.wait k).sys = s.sys := rfl
@[simp] theorem State.wait_alive (s : State) (k : Nat) : (s.wait k).alive = s.alive := rfl
@[simp] theorem State.wait_unlock (s : State) (k : Nat) : (s.wait k).unlock = s.unlock := rfl
@[simp] theorem State.wait_pads (s : State) (k : Nat) : (s.wait k).pads = s.pads := rfl
@[simp] theorem State.wait_boot (s : State) (k : Nat) : (s.wait k).boot = s.boot := rfl
@[simp] theorem State.wait_flt (s : State) (k : Nat) : (s.wait k).flt = s.flt := rfl
@[simp] theorem State.wait_xd (s : State) (k : Nat) : (s.wait k).xd = s.xd := rfl
@[simp] theorem State.wait_safe (s : State) (k : Nat) : (s.wait k).safe = s.safe := rfl
@[simp] theorem State.wait_sdm (s : State) (k : Nat) : (s.wait k).sdm = s.sdm := rfl
@[simp] theorem State.wait_que (s : State) (k : Nat) : (s.wait k).que = s.que := rfl
@[simp] theorem State.wait_resp (s : State) (k : Nat) : (s.wait k).resp = s.resp := rfl
@[simp] theorem State.wait_wst (s : State) (k : Nat) : (s.wait k).wst = s.wst := rfl
@[simp] theorem State.wait_pwr (s : State) (k : Nat) : (s.wait k).pwr = s.pwr := rfl
@[simp] theorem State.wait_exc (s : State) (k : Nat) : (s.wait k).exc = s.exc := rfl
@[simp] theorem State.wait_vexcMv (s : State) (k : Nat) : (s.wait k).vexcMv = s.vexcMv := rfl
@[simp] theorem State.wait_pch (s : State) (k : Nat) : (s.wait k).pch = s.pch := rfl
@[simp] theorem State.wait_scl (s : State) (k : Nat) : (s.wait k).scl = s.scl := rfl
@[simp] theorem State.wait_sclH (s : State) (k : Nat) : (s.wait k).sclH = s.sclH := rfl
@[simp] theorem State.wait_dch (s : State) (k : Nat) : (s.wait k).dch = s.dch := rfl
@[simp] theorem State.wait_gen (s : State) (k : Nat) : (s.wait k).gen = s.gen := rfl
@[simp] theorem State.wait_enc (s : State) (k : Nat) : (s.wait k).enc = s.enc := rfl
@[simp] theorem State.wait_aev (s : State) (k : Nat) : (s.wait k).aev = s.aev := rfl
@[simp] theorem State.wait_aux (s : State) (k : Nat) : (s.wait k).aux = s.aux := rfl
@[simp] theorem State.wait_crz (s : State) (k : Nat) : (s.wait k).crz = s.crz := rfl
@[simp] theorem State.wait_tim (s : State) (k : Nat) : (s.wait k).tim = s.tim := rfl
@[simp] theorem State.wait_net (s : State) (k : Nat) : (s.wait k).net = s.net := rfl
@[simp] theorem State.wait_frec (s : State) (k : Nat) : (s.wait k).frec = s.frec := rfl
@[simp] theorem State.wait_tap (s : State) (k : Nat) : (s.wait k).tap = s.tap := rfl

/-! ## waitTill -/

@[simp] theorem State.waitTill_pending (s : State) (k : Nat) : (s.waitTill k).pending = s.pending := rfl
@[simp] theorem State.waitTill_qb (s : State) (k : Nat) : (s.waitTill k).qb = s.qb := rfl
@[simp] theorem State.waitTill_free (s : State) (k : Nat) : (s.waitTill k).free = s.free := rfl
@[simp] theorem State.waitTill_cfg (s : State) (k : Nat) : (s.waitTill k).cfg = s.cfg := rfl
@[simp] theorem State.waitTill_capt (s : State) (k : Nat) : (s.waitTill k).capt = s.capt := rfl
@[simp] theorem State.waitTill_badPar (s : State) (k : Nat) : (s.waitTill k).badPar = s.badPar := rfl
@[simp] theorem State.waitTill_badEcc (s : State) (k : Nat) : (s.waitTill k).badEcc = s.badEcc := rfl
@[simp] theorem State.waitTill_sram (s : State) (k : Nat) : (s.waitTill k).sram = s.sram := rfl
@[simp] theorem State.waitTill_fram (s : State) (k : Nat) : (s.waitTill k).fram = s.fram := rfl
@[simp] theorem State.waitTill_rails (s : State) (k : Nat) : (s.waitTill k).rails = s.rails := rfl
@[simp] theorem State.waitTill_sys (s : State) (k : Nat) : (s.waitTill k).sys = s.sys := rfl
@[simp] theorem State.waitTill_alive (s : State) (k : Nat) : (s.waitTill k).alive = s.alive := rfl
@[simp] theorem State.waitTill_unlock (s : State) (k : Nat) : (s.waitTill k).unlock = s.unlock := rfl
@[simp] theorem State.waitTill_pads (s : State) (k : Nat) : (s.waitTill k).pads = s.pads := rfl
@[simp] theorem State.waitTill_boot (s : State) (k : Nat) : (s.waitTill k).boot = s.boot := rfl
@[simp] theorem State.waitTill_flt (s : State) (k : Nat) : (s.waitTill k).flt = s.flt := rfl
@[simp] theorem State.waitTill_xd (s : State) (k : Nat) : (s.waitTill k).xd = s.xd := rfl
@[simp] theorem State.waitTill_safe (s : State) (k : Nat) : (s.waitTill k).safe = s.safe := rfl
@[simp] theorem State.waitTill_sdm (s : State) (k : Nat) : (s.waitTill k).sdm = s.sdm := rfl
@[simp] theorem State.waitTill_que (s : State) (k : Nat) : (s.waitTill k).que = s.que := rfl
@[simp] theorem State.waitTill_resp (s : State) (k : Nat) : (s.waitTill k).resp = s.resp := rfl
@[simp] theorem State.waitTill_wst (s : State) (k : Nat) : (s.waitTill k).wst = s.wst := rfl
@[simp] theorem State.waitTill_pwr (s : State) (k : Nat) : (s.waitTill k).pwr = s.pwr := rfl
@[simp] theorem State.waitTill_exc (s : State) (k : Nat) : (s.waitTill k).exc = s.exc := rfl
@[simp] theorem State.waitTill_vexcMv (s : State) (k : Nat) : (s.waitTill k).vexcMv = s.vexcMv := rfl
@[simp] theorem State.waitTill_pch (s : State) (k : Nat) : (s.waitTill k).pch = s.pch := rfl
@[simp] theorem State.waitTill_scl (s : State) (k : Nat) : (s.waitTill k).scl = s.scl := rfl
@[simp] theorem State.waitTill_sclH (s : State) (k : Nat) : (s.waitTill k).sclH = s.sclH := rfl
@[simp] theorem State.waitTill_dch (s : State) (k : Nat) : (s.waitTill k).dch = s.dch := rfl
@[simp] theorem State.waitTill_gen (s : State) (k : Nat) : (s.waitTill k).gen = s.gen := rfl
@[simp] theorem State.waitTill_enc (s : State) (k : Nat) : (s.waitTill k).enc = s.enc := rfl
@[simp] theorem State.waitTill_aev (s : State) (k : Nat) : (s.waitTill k).aev = s.aev := rfl
@[simp] theorem State.waitTill_aux (s : State) (k : Nat) : (s.waitTill k).aux = s.aux := rfl
@[simp] theorem State.waitTill_crz (s : State) (k : Nat) : (s.waitTill k).crz = s.crz := rfl
@[simp] theorem State.waitTill_tim (s : State) (k : Nat) : (s.waitTill k).tim = s.tim := rfl
@[simp] theorem State.waitTill_net (s : State) (k : Nat) : (s.waitTill k).net = s.net := rfl
@[simp] theorem State.waitTill_frec (s : State) (k : Nat) : (s.waitTill k).frec = s.frec := rfl
@[simp] theorem State.waitTill_tap (s : State) (k : Nat) : (s.waitTill k).tap = s.tap := rfl

/-! ## updHdr -/

@[simp] theorem State.updHdr_pending (s : State) (p : Page) (f : FaultHdr → FaultHdr) : (s.updHdr p f).pending = s.pending := rfl
@[simp] theorem State.updHdr_qb (s : State) (p : Page) (f : FaultHdr → FaultHdr) : (s.updHdr p f).qb = s.qb := rfl
@[simp] theorem State.updHdr_free (s : State) (p : Page) (f : FaultHdr → FaultHdr) : (s.updHdr p f).free = s.free := rfl
@[simp] theorem State.updHdr_cfg (s : State) (p : Page) (f : FaultHdr → FaultHdr) : (s.updHdr p f).cfg = s.cfg := rfl
@[simp] theorem State.updHdr_capt (s : State) (p : Page) (f : FaultHdr → FaultHdr) : (s.updHdr p f).capt = s.capt := rfl
@[simp] theorem State.updHdr_badPar (s : State) (p : Page) (f : FaultHdr → FaultHdr) : (s.updHdr p f).badPar = s.badPar := rfl
@[simp] theorem State.updHdr_badEcc (s : State) (p : Page) (f : FaultHdr → FaultHdr) : (s.updHdr p f).badEcc = s.badEcc := rfl
@[simp] theorem State.updHdr_sram (s : State) (p : Page) (f : FaultHdr → FaultHdr) : (s.updHdr p f).sram = s.sram := rfl
@[simp] theorem State.updHdr_fram (s : State) (p : Page) (f : FaultHdr → FaultHdr) : (s.updHdr p f).fram = s.fram := rfl
@[simp] theorem State.updHdr_clk (s : State) (p : Page) (f : FaultHdr → FaultHdr) : (s.updHdr p f).clk = s.clk := rfl
@[simp] theorem State.updHdr_rails (s : State) (p : Page) (f : FaultHdr → FaultHdr) : (s.updHdr p f).rails = s.rails := rfl
@[simp] theorem State.updHdr_sys (s : State) (p : Page) (f : FaultHdr → FaultHdr) : (s.updHdr p f).sys = s.sys := rfl
@[simp] theorem State.updHdr_alive (s : State) (p : Page) (f : FaultHdr → FaultHdr) : (s.updHdr p f).alive = s.alive := rfl
@[simp] theorem State.updHdr_unlock (s : State) (p : Page) (f : FaultHdr → FaultHdr) : (s.updHdr p f).unlock = s.unlock := rfl
@[simp] theorem State.updHdr_pads (s : State) (p : Page) (f : FaultHdr → FaultHdr) : (s.updHdr p f).pads = s.pads := rfl
@[simp] theorem State.updHdr_boot (s : State) (p : Page) (f : FaultHdr → FaultHdr) : (s.updHdr p f).boot = s.boot := rfl
@[simp] theorem State.updHdr_xd (s : State) (p : Page) (f : FaultHdr → FaultHdr) : (s.updHdr p f).xd = s.xd := rfl
@[simp] theorem State.updHdr_safe (s : State) (p : Page) (f : FaultHdr → FaultHdr) : (s.updHdr p f).safe = s.safe := rfl
@[simp] theorem State.updHdr_sdm (s : State) (p : Page) (f : FaultHdr → FaultHdr) : (s.updHdr p f).sdm = s.sdm := rfl
@[simp] theorem State.updHdr_que (s : State) (p : Page) (f : FaultHdr → FaultHdr) : (s.updHdr p f).que = s.que := rfl
@[simp] theorem State.updHdr_resp (s : State) (p : Page) (f : FaultHdr → FaultHdr) : (s.updHdr p f).resp = s.resp := rfl
@[simp] theorem State.updHdr_wst (s : State) (p : Page) (f : FaultHdr → FaultHdr) : (s.updHdr p f).wst = s.wst := rfl
@[simp] theorem State.updHdr_pwr (s : State) (p : Page) (f : FaultHdr → FaultHdr) : (s.updHdr p f).pwr = s.pwr := rfl
@[simp] theorem State.updHdr_exc (s : State) (p : Page) (f : FaultHdr → FaultHdr) : (s.updHdr p f).exc = s.exc := rfl
@[simp] theorem State.updHdr_vexcMv (s : State) (p : Page) (f : FaultHdr → FaultHdr) : (s.updHdr p f).vexcMv = s.vexcMv := rfl
@[simp] theorem State.updHdr_pch (s : State) (p : Page) (f : FaultHdr → FaultHdr) : (s.updHdr p f).pch = s.pch := rfl
@[simp] theorem State.updHdr_scl (s : State) (p : Page) (f : FaultHdr → FaultHdr) : (s.updHdr p f).scl = s.scl := rfl
@[simp] theorem State.updHdr_sclH (s : State) (p : Page) (f : FaultHdr → FaultHdr) : (s.updHdr p f).sclH = s.sclH := rfl
@[simp] theorem State.updHdr_dch (s : State) (p : Page) (f : FaultHdr → FaultHdr) : (s.updHdr p f).dch = s.dch := rfl
@[simp] theorem State.updHdr_gen (s : State) (p : Page) (f : FaultHdr → FaultHdr) : (s.updHdr p f).gen = s.gen := rfl
@[simp] theorem State.updHdr_enc (s : State) (p : Page) (f : FaultHdr → FaultHdr) : (s.updHdr p f).enc = s.enc := rfl
@[simp] theorem State.updHdr_aev (s : State) (p : Page) (f : FaultHdr → FaultHdr) : (s.updHdr p f).aev = s.aev := rfl
@[simp] theorem State.updHdr_aux (s : State) (p : Page) (f : FaultHdr → FaultHdr) : (s.updHdr p f).aux = s.aux := rfl
@[simp] theorem State.updHdr_crz (s : State) (p : Page) (f : FaultHdr → FaultHdr) : (s.updHdr p f).crz = s.crz := rfl
@[simp] theorem State.updHdr_tim (s : State) (p : Page) (f : FaultHdr → FaultHdr) : (s.updHdr p f).tim = s.tim := rfl
@[simp] theorem State.updHdr_net (s : State) (p : Page) (f : FaultHdr → FaultHdr) : (s.updHdr p f).net = s.net := rfl
@[simp] theorem State.updHdr_frec (s : State) (p : Page) (f : FaultHdr → FaultHdr) : (s.updHdr p f).frec = s.frec := rfl
@[simp] theorem State.updHdr_tap (s : State) (p : Page) (f : FaultHdr → FaultHdr) : (s.updHdr p f).tap = s.tap := rfl

/-! ## voteAll -/

@[simp] theorem State.voteAll_pending (s : State) : (s.voteAll).pending = s.pending := rfl
@[simp] theorem State.voteAll_qb (s : State) : (s.voteAll).qb = s.qb := rfl
@[simp] theorem State.voteAll_free (s : State) : (s.voteAll).free = s.free := rfl
@[simp] theorem State.voteAll_cfg (s : State) : (s.voteAll).cfg = s.cfg := rfl
@[simp] theorem State.voteAll_capt (s : State) : (s.voteAll).capt = s.capt := rfl
@[simp] theorem State.voteAll_badPar (s : State) : (s.voteAll).badPar = s.badPar := rfl
@[simp] theorem State.voteAll_badEcc (s : State) : (s.voteAll).badEcc = s.badEcc := rfl
@[simp] theorem State.voteAll_sram (s : State) : (s.voteAll).sram = s.sram := rfl
@[simp] theorem State.voteAll_fram (s : State) : (s.voteAll).fram = s.fram := rfl
@[simp] theorem State.voteAll_clk (s : State) : (s.voteAll).clk = s.clk := rfl
@[simp] theorem State.voteAll_rails (s : State) : (s.voteAll).rails = s.rails := rfl
@[simp] theorem State.voteAll_sys (s : State) : (s.voteAll).sys = s.sys := rfl
@[simp] theorem State.voteAll_alive (s : State) : (s.voteAll).alive = s.alive := rfl
@[simp] theorem State.voteAll_unlock (s : State) : (s.voteAll).unlock = s.unlock := rfl
@[simp] theorem State.voteAll_boot (s : State) : (s.voteAll).boot = s.boot := rfl
@[simp] theorem State.voteAll_flt (s : State) : (s.voteAll).flt = s.flt := rfl
@[simp] theorem State.voteAll_xd (s : State) : (s.voteAll).xd = s.xd := rfl
@[simp] theorem State.voteAll_safe (s : State) : (s.voteAll).safe = s.safe := rfl
@[simp] theorem State.voteAll_sdm (s : State) : (s.voteAll).sdm = s.sdm := rfl
@[simp] theorem State.voteAll_que (s : State) : (s.voteAll).que = s.que := rfl
@[simp] theorem State.voteAll_resp (s : State) : (s.voteAll).resp = s.resp := rfl
@[simp] theorem State.voteAll_wst (s : State) : (s.voteAll).wst = s.wst := rfl
@[simp] theorem State.voteAll_pwr (s : State) : (s.voteAll).pwr = s.pwr := rfl
@[simp] theorem State.voteAll_exc (s : State) : (s.voteAll).exc = s.exc := rfl
@[simp] theorem State.voteAll_vexcMv (s : State) : (s.voteAll).vexcMv = s.vexcMv := rfl
@[simp] theorem State.voteAll_pch (s : State) : (s.voteAll).pch = s.pch := rfl
@[simp] theorem State.voteAll_scl (s : State) : (s.voteAll).scl = s.scl := rfl
@[simp] theorem State.voteAll_sclH (s : State) : (s.voteAll).sclH = s.sclH := rfl
@[simp] theorem State.voteAll_dch (s : State) : (s.voteAll).dch = s.dch := rfl
@[simp] theorem State.voteAll_gen (s : State) : (s.voteAll).gen = s.gen := rfl
@[simp] theorem State.voteAll_enc (s : State) : (s.voteAll).enc = s.enc := rfl
@[simp] theorem State.voteAll_aev (s : State) : (s.voteAll).aev = s.aev := rfl
@[simp] theorem State.voteAll_aux (s : State) : (s.voteAll).aux = s.aux := rfl
@[simp] theorem State.voteAll_crz (s : State) : (s.voteAll).crz = s.crz := rfl
@[simp] theorem State.voteAll_tim (s : State) : (s.voteAll).tim = s.tim := rfl
@[simp] theorem State.voteAll_net (s : State) : (s.voteAll).net = s.net := rfl
@[simp] theorem State.voteAll_frec (s : State) : (s.voteAll).frec = s.frec := rfl
@[simp] theorem State.voteAll_tap (s : State) : (s.voteAll).tap = s.tap := rfl

/-! ## reform -/

@[simp] theorem State.reform_pending (s : State) : (s.reform).pending = s.pending := rfl
@[simp] theorem State.reform_qb (s : State) : (s.reform).qb = s.qb := rfl
@[simp] theorem State.reform_free (s : State) : (s.reform).free = s.free := rfl
@[simp] theorem State.reform_cfg (s : State) : (s.reform).cfg = s.cfg := rfl
@[simp] theorem State.reform_capt (s : State) : (s.reform).capt = s.capt := rfl
@[simp] theorem State.reform_badPar (s : State) : (s.reform).badPar = s.badPar := rfl
@[simp] theorem State.reform_badEcc (s : State) : (s.reform).badEcc = s.badEcc := rfl
@[simp] theorem State.reform_sram (s : State) : (s.reform).sram = s.sram := rfl
@[simp] theorem State.reform_fram (s : State) : (s.reform).fram = s.fram := rfl
@[simp] theorem State.reform_clk (s : State) : (s.reform).clk = s.clk := rfl
@[simp] theorem State.reform_rails (s : State) : (s.reform).rails = s.rails := rfl
@[simp] theorem State.reform_sys (s : State) : (s.reform).sys = s.sys := rfl
@[simp] theorem State.reform_alive (s : State) : (s.reform).alive = s.alive := rfl
@[simp] theorem State.reform_unlock (s : State) : (s.reform).unlock = s.unlock := rfl
@[simp] theorem State.reform_boot (s : State) : (s.reform).boot = s.boot := rfl
@[simp] theorem State.reform_flt (s : State) : (s.reform).flt = s.flt := rfl
@[simp] theorem State.reform_xd (s : State) : (s.reform).xd = s.xd := rfl
@[simp] theorem State.reform_sdm (s : State) : (s.reform).sdm = s.sdm := rfl
@[simp] theorem State.reform_que (s : State) : (s.reform).que = s.que := rfl
@[simp] theorem State.reform_resp (s : State) : (s.reform).resp = s.resp := rfl
@[simp] theorem State.reform_wst (s : State) : (s.reform).wst = s.wst := rfl
@[simp] theorem State.reform_pwr (s : State) : (s.reform).pwr = s.pwr := rfl
@[simp] theorem State.reform_exc (s : State) : (s.reform).exc = s.exc := rfl
@[simp] theorem State.reform_vexcMv (s : State) : (s.reform).vexcMv = s.vexcMv := rfl
@[simp] theorem State.reform_pch (s : State) : (s.reform).pch = s.pch := rfl
@[simp] theorem State.reform_scl (s : State) : (s.reform).scl = s.scl := rfl
@[simp] theorem State.reform_sclH (s : State) : (s.reform).sclH = s.sclH := rfl
@[simp] theorem State.reform_dch (s : State) : (s.reform).dch = s.dch := rfl
@[simp] theorem State.reform_gen (s : State) : (s.reform).gen = s.gen := rfl
@[simp] theorem State.reform_enc (s : State) : (s.reform).enc = s.enc := rfl
@[simp] theorem State.reform_aev (s : State) : (s.reform).aev = s.aev := rfl
@[simp] theorem State.reform_aux (s : State) : (s.reform).aux = s.aux := rfl
@[simp] theorem State.reform_crz (s : State) : (s.reform).crz = s.crz := rfl
@[simp] theorem State.reform_tim (s : State) : (s.reform).tim = s.tim := rfl
@[simp] theorem State.reform_net (s : State) : (s.reform).net = s.net := rfl
@[simp] theorem State.reform_frec (s : State) : (s.reform).frec = s.frec := rfl
@[simp] theorem State.reform_tap (s : State) : (s.reform).tap = s.tap := rfl

/-! ## setSsl -/

@[simp] theorem State.setSsl_pending (s : State) (d : Drive) : (s.setSsl d).pending = s.pending := by
  unfold State.setSsl State.setSslAt; dsimp only; split <;> rfl
@[simp] theorem State.setSsl_qb (s : State) (d : Drive) : (s.setSsl d).qb = s.qb := by
  unfold State.setSsl State.setSslAt; dsimp only; split <;> rfl
@[simp] theorem State.setSsl_free (s : State) (d : Drive) : (s.setSsl d).free = s.free := by
  unfold State.setSsl State.setSslAt; dsimp only; split <;> rfl
@[simp] theorem State.setSsl_cfg (s : State) (d : Drive) : (s.setSsl d).cfg = s.cfg := by
  unfold State.setSsl State.setSslAt; dsimp only; split <;> rfl
@[simp] theorem State.setSsl_capt (s : State) (d : Drive) : (s.setSsl d).capt = s.capt := by
  unfold State.setSsl State.setSslAt; dsimp only; split <;> rfl
@[simp] theorem State.setSsl_badPar (s : State) (d : Drive) : (s.setSsl d).badPar = s.badPar := by
  unfold State.setSsl State.setSslAt; dsimp only; split <;> rfl
@[simp] theorem State.setSsl_badEcc (s : State) (d : Drive) : (s.setSsl d).badEcc = s.badEcc := by
  unfold State.setSsl State.setSslAt; dsimp only; split <;> rfl
@[simp] theorem State.setSsl_sram (s : State) (d : Drive) : (s.setSsl d).sram = s.sram := by
  unfold State.setSsl State.setSslAt; dsimp only; split <;> rfl
@[simp] theorem State.setSsl_fram (s : State) (d : Drive) : (s.setSsl d).fram = s.fram := by
  unfold State.setSsl State.setSslAt; dsimp only; split <;> rfl
@[simp] theorem State.setSsl_clk (s : State) (d : Drive) : (s.setSsl d).clk = s.clk := by
  unfold State.setSsl State.setSslAt; dsimp only; split <;> rfl
@[simp] theorem State.setSsl_rails (s : State) (d : Drive) : (s.setSsl d).rails = s.rails := by
  unfold State.setSsl State.setSslAt; dsimp only; split <;> rfl
@[simp] theorem State.setSsl_sys (s : State) (d : Drive) : (s.setSsl d).sys = s.sys := by
  unfold State.setSsl State.setSslAt; dsimp only; split <;> rfl
@[simp] theorem State.setSsl_alive (s : State) (d : Drive) : (s.setSsl d).alive = s.alive := by
  unfold State.setSsl State.setSslAt; dsimp only; split <;> rfl
@[simp] theorem State.setSsl_unlock (s : State) (d : Drive) : (s.setSsl d).unlock = s.unlock := by
  unfold State.setSsl State.setSslAt; dsimp only; split <;> rfl
@[simp] theorem State.setSsl_boot (s : State) (d : Drive) : (s.setSsl d).boot = s.boot := by
  unfold State.setSsl State.setSslAt; dsimp only; split <;> rfl
@[simp] theorem State.setSsl_flt (s : State) (d : Drive) : (s.setSsl d).flt = s.flt := by
  unfold State.setSsl State.setSslAt; dsimp only; split <;> rfl
@[simp] theorem State.setSsl_sdm (s : State) (d : Drive) : (s.setSsl d).sdm = s.sdm := by
  unfold State.setSsl State.setSslAt; dsimp only; split <;> rfl
@[simp] theorem State.setSsl_que (s : State) (d : Drive) : (s.setSsl d).que = s.que := by
  unfold State.setSsl State.setSslAt; dsimp only; split <;> rfl
@[simp] theorem State.setSsl_resp (s : State) (d : Drive) : (s.setSsl d).resp = s.resp := by
  unfold State.setSsl State.setSslAt; dsimp only; split <;> rfl
@[simp] theorem State.setSsl_wst (s : State) (d : Drive) : (s.setSsl d).wst = s.wst := by
  unfold State.setSsl State.setSslAt; dsimp only; split <;> rfl
@[simp] theorem State.setSsl_pwr (s : State) (d : Drive) : (s.setSsl d).pwr = s.pwr := by
  unfold State.setSsl State.setSslAt; dsimp only; split <;> rfl
@[simp] theorem State.setSsl_exc (s : State) (d : Drive) : (s.setSsl d).exc = s.exc := by
  unfold State.setSsl State.setSslAt; dsimp only; split <;> rfl
@[simp] theorem State.setSsl_vexcMv (s : State) (d : Drive) : (s.setSsl d).vexcMv = s.vexcMv := by
  unfold State.setSsl State.setSslAt; dsimp only; split <;> rfl
@[simp] theorem State.setSsl_pch (s : State) (d : Drive) : (s.setSsl d).pch = s.pch := by
  unfold State.setSsl State.setSslAt; dsimp only; split <;> rfl
@[simp] theorem State.setSsl_scl (s : State) (d : Drive) : (s.setSsl d).scl = s.scl := by
  unfold State.setSsl State.setSslAt; dsimp only; split <;> rfl
@[simp] theorem State.setSsl_sclH (s : State) (d : Drive) : (s.setSsl d).sclH = s.sclH := by
  unfold State.setSsl State.setSslAt; dsimp only; split <;> rfl
@[simp] theorem State.setSsl_dch (s : State) (d : Drive) : (s.setSsl d).dch = s.dch := by
  unfold State.setSsl State.setSslAt; dsimp only; split <;> rfl
@[simp] theorem State.setSsl_gen (s : State) (d : Drive) : (s.setSsl d).gen = s.gen := by
  unfold State.setSsl State.setSslAt; dsimp only; split <;> rfl
@[simp] theorem State.setSsl_enc (s : State) (d : Drive) : (s.setSsl d).enc = s.enc := by
  unfold State.setSsl State.setSslAt; dsimp only; split <;> rfl
@[simp] theorem State.setSsl_aev (s : State) (d : Drive) : (s.setSsl d).aev = s.aev := by
  unfold State.setSsl State.setSslAt; dsimp only; split <;> rfl
@[simp] theorem State.setSsl_aux (s : State) (d : Drive) : (s.setSsl d).aux = s.aux := by
  unfold State.setSsl State.setSslAt; dsimp only; split <;> rfl
@[simp] theorem State.setSsl_crz (s : State) (d : Drive) : (s.setSsl d).crz = s.crz := by
  unfold State.setSsl State.setSslAt; dsimp only; split <;> rfl
@[simp] theorem State.setSsl_tim (s : State) (d : Drive) : (s.setSsl d).tim = s.tim := by
  unfold State.setSsl State.setSslAt; dsimp only; split <;> rfl
@[simp] theorem State.setSsl_net (s : State) (d : Drive) : (s.setSsl d).net = s.net := by
  unfold State.setSsl State.setSslAt; dsimp only; split <;> rfl
@[simp] theorem State.setSsl_frec (s : State) (d : Drive) : (s.setSsl d).frec = s.frec := by
  unfold State.setSsl State.setSslAt; dsimp only; split <;> rfl
@[simp] theorem State.setSsl_tap (s : State) (d : Drive) : (s.setSsl d).tap = s.tap := by
  unfold State.setSsl State.setSslAt; dsimp only; split <;> rfl

/-! ## sramPut -/

@[simp] theorem State.sramPut_pending (s : State) (off : Nat) (l : List Byte) : (s.sramPut off l).pending = s.pending := rfl
@[simp] theorem State.sramPut_qb (s : State) (off : Nat) (l : List Byte) : (s.sramPut off l).qb = s.qb := rfl
@[simp] theorem State.sramPut_free (s : State) (off : Nat) (l : List Byte) : (s.sramPut off l).free = s.free := rfl
@[simp] theorem State.sramPut_cfg (s : State) (off : Nat) (l : List Byte) : (s.sramPut off l).cfg = s.cfg := rfl
@[simp] theorem State.sramPut_capt (s : State) (off : Nat) (l : List Byte) : (s.sramPut off l).capt = s.capt := rfl
@[simp] theorem State.sramPut_badPar (s : State) (off : Nat) (l : List Byte) : (s.sramPut off l).badPar = s.badPar := rfl
@[simp] theorem State.sramPut_fram (s : State) (off : Nat) (l : List Byte) : (s.sramPut off l).fram = s.fram := rfl
@[simp] theorem State.sramPut_clk (s : State) (off : Nat) (l : List Byte) : (s.sramPut off l).clk = s.clk := rfl
@[simp] theorem State.sramPut_rails (s : State) (off : Nat) (l : List Byte) : (s.sramPut off l).rails = s.rails := rfl
@[simp] theorem State.sramPut_sys (s : State) (off : Nat) (l : List Byte) : (s.sramPut off l).sys = s.sys := rfl
@[simp] theorem State.sramPut_alive (s : State) (off : Nat) (l : List Byte) : (s.sramPut off l).alive = s.alive := rfl
@[simp] theorem State.sramPut_unlock (s : State) (off : Nat) (l : List Byte) : (s.sramPut off l).unlock = s.unlock := rfl
@[simp] theorem State.sramPut_pads (s : State) (off : Nat) (l : List Byte) : (s.sramPut off l).pads = s.pads := rfl
@[simp] theorem State.sramPut_boot (s : State) (off : Nat) (l : List Byte) : (s.sramPut off l).boot = s.boot := rfl
@[simp] theorem State.sramPut_flt (s : State) (off : Nat) (l : List Byte) : (s.sramPut off l).flt = s.flt := rfl
@[simp] theorem State.sramPut_xd (s : State) (off : Nat) (l : List Byte) : (s.sramPut off l).xd = s.xd := rfl
@[simp] theorem State.sramPut_safe (s : State) (off : Nat) (l : List Byte) : (s.sramPut off l).safe = s.safe := rfl
@[simp] theorem State.sramPut_sdm (s : State) (off : Nat) (l : List Byte) : (s.sramPut off l).sdm = s.sdm := rfl
@[simp] theorem State.sramPut_que (s : State) (off : Nat) (l : List Byte) : (s.sramPut off l).que = s.que := rfl
@[simp] theorem State.sramPut_resp (s : State) (off : Nat) (l : List Byte) : (s.sramPut off l).resp = s.resp := rfl
@[simp] theorem State.sramPut_wst (s : State) (off : Nat) (l : List Byte) : (s.sramPut off l).wst = s.wst := rfl
@[simp] theorem State.sramPut_pwr (s : State) (off : Nat) (l : List Byte) : (s.sramPut off l).pwr = s.pwr := rfl
@[simp] theorem State.sramPut_exc (s : State) (off : Nat) (l : List Byte) : (s.sramPut off l).exc = s.exc := rfl
@[simp] theorem State.sramPut_vexcMv (s : State) (off : Nat) (l : List Byte) : (s.sramPut off l).vexcMv = s.vexcMv := rfl
@[simp] theorem State.sramPut_pch (s : State) (off : Nat) (l : List Byte) : (s.sramPut off l).pch = s.pch := rfl
@[simp] theorem State.sramPut_scl (s : State) (off : Nat) (l : List Byte) : (s.sramPut off l).scl = s.scl := rfl
@[simp] theorem State.sramPut_sclH (s : State) (off : Nat) (l : List Byte) : (s.sramPut off l).sclH = s.sclH := rfl
@[simp] theorem State.sramPut_dch (s : State) (off : Nat) (l : List Byte) : (s.sramPut off l).dch = s.dch := rfl
@[simp] theorem State.sramPut_gen (s : State) (off : Nat) (l : List Byte) : (s.sramPut off l).gen = s.gen := rfl
@[simp] theorem State.sramPut_enc (s : State) (off : Nat) (l : List Byte) : (s.sramPut off l).enc = s.enc := rfl
@[simp] theorem State.sramPut_aev (s : State) (off : Nat) (l : List Byte) : (s.sramPut off l).aev = s.aev := rfl
@[simp] theorem State.sramPut_aux (s : State) (off : Nat) (l : List Byte) : (s.sramPut off l).aux = s.aux := rfl
@[simp] theorem State.sramPut_crz (s : State) (off : Nat) (l : List Byte) : (s.sramPut off l).crz = s.crz := rfl
@[simp] theorem State.sramPut_tim (s : State) (off : Nat) (l : List Byte) : (s.sramPut off l).tim = s.tim := rfl
@[simp] theorem State.sramPut_net (s : State) (off : Nat) (l : List Byte) : (s.sramPut off l).net = s.net := rfl
@[simp] theorem State.sramPut_frec (s : State) (off : Nat) (l : List Byte) : (s.sramPut off l).frec = s.frec := rfl
@[simp] theorem State.sramPut_tap (s : State) (off : Nat) (l : List Byte) : (s.sramPut off l).tap = s.tap := rfl

/-! ## setX -/

@[simp] theorem State.setX_pending (s : State) (d : Drive) (x : XDrive) : (s.setX d x).pending = s.pending := rfl
@[simp] theorem State.setX_qb (s : State) (d : Drive) (x : XDrive) : (s.setX d x).qb = s.qb := rfl
@[simp] theorem State.setX_free (s : State) (d : Drive) (x : XDrive) : (s.setX d x).free = s.free := rfl
@[simp] theorem State.setX_cfg (s : State) (d : Drive) (x : XDrive) : (s.setX d x).cfg = s.cfg := rfl
@[simp] theorem State.setX_capt (s : State) (d : Drive) (x : XDrive) : (s.setX d x).capt = s.capt := rfl
@[simp] theorem State.setX_badPar (s : State) (d : Drive) (x : XDrive) : (s.setX d x).badPar = s.badPar := rfl
@[simp] theorem State.setX_badEcc (s : State) (d : Drive) (x : XDrive) : (s.setX d x).badEcc = s.badEcc := rfl
@[simp] theorem State.setX_sram (s : State) (d : Drive) (x : XDrive) : (s.setX d x).sram = s.sram := rfl
@[simp] theorem State.setX_fram (s : State) (d : Drive) (x : XDrive) : (s.setX d x).fram = s.fram := rfl
@[simp] theorem State.setX_clk (s : State) (d : Drive) (x : XDrive) : (s.setX d x).clk = s.clk := rfl
@[simp] theorem State.setX_rails (s : State) (d : Drive) (x : XDrive) : (s.setX d x).rails = s.rails := rfl
@[simp] theorem State.setX_sys (s : State) (d : Drive) (x : XDrive) : (s.setX d x).sys = s.sys := rfl
@[simp] theorem State.setX_alive (s : State) (d : Drive) (x : XDrive) : (s.setX d x).alive = s.alive := rfl
@[simp] theorem State.setX_unlock (s : State) (d : Drive) (x : XDrive) : (s.setX d x).unlock = s.unlock := rfl
@[simp] theorem State.setX_pads (s : State) (d : Drive) (x : XDrive) : (s.setX d x).pads = s.pads := rfl
@[simp] theorem State.setX_boot (s : State) (d : Drive) (x : XDrive) : (s.setX d x).boot = s.boot := rfl
@[simp] theorem State.setX_flt (s : State) (d : Drive) (x : XDrive) : (s.setX d x).flt = s.flt := rfl
@[simp] theorem State.setX_safe (s : State) (d : Drive) (x : XDrive) : (s.setX d x).safe = s.safe := rfl
@[simp] theorem State.setX_sdm (s : State) (d : Drive) (x : XDrive) : (s.setX d x).sdm = s.sdm := rfl
@[simp] theorem State.setX_que (s : State) (d : Drive) (x : XDrive) : (s.setX d x).que = s.que := rfl
@[simp] theorem State.setX_resp (s : State) (d : Drive) (x : XDrive) : (s.setX d x).resp = s.resp := rfl
@[simp] theorem State.setX_wst (s : State) (d : Drive) (x : XDrive) : (s.setX d x).wst = s.wst := rfl
@[simp] theorem State.setX_pwr (s : State) (d : Drive) (x : XDrive) : (s.setX d x).pwr = s.pwr := rfl
@[simp] theorem State.setX_exc (s : State) (d : Drive) (x : XDrive) : (s.setX d x).exc = s.exc := rfl
@[simp] theorem State.setX_vexcMv (s : State) (d : Drive) (x : XDrive) : (s.setX d x).vexcMv = s.vexcMv := rfl
@[simp] theorem State.setX_pch (s : State) (d : Drive) (x : XDrive) : (s.setX d x).pch = s.pch := rfl
@[simp] theorem State.setX_scl (s : State) (d : Drive) (x : XDrive) : (s.setX d x).scl = s.scl := rfl
@[simp] theorem State.setX_sclH (s : State) (d : Drive) (x : XDrive) : (s.setX d x).sclH = s.sclH := rfl
@[simp] theorem State.setX_dch (s : State) (d : Drive) (x : XDrive) : (s.setX d x).dch = s.dch := rfl
@[simp] theorem State.setX_gen (s : State) (d : Drive) (x : XDrive) : (s.setX d x).gen = s.gen := rfl
@[simp] theorem State.setX_enc (s : State) (d : Drive) (x : XDrive) : (s.setX d x).enc = s.enc := rfl
@[simp] theorem State.setX_aev (s : State) (d : Drive) (x : XDrive) : (s.setX d x).aev = s.aev := rfl
@[simp] theorem State.setX_aux (s : State) (d : Drive) (x : XDrive) : (s.setX d x).aux = s.aux := rfl
@[simp] theorem State.setX_crz (s : State) (d : Drive) (x : XDrive) : (s.setX d x).crz = s.crz := rfl
@[simp] theorem State.setX_tim (s : State) (d : Drive) (x : XDrive) : (s.setX d x).tim = s.tim := rfl
@[simp] theorem State.setX_net (s : State) (d : Drive) (x : XDrive) : (s.setX d x).net = s.net := rfl
@[simp] theorem State.setX_frec (s : State) (d : Drive) (x : XDrive) : (s.setX d x).frec = s.frec := rfl
@[simp] theorem State.setX_tap (s : State) (d : Drive) (x : XDrive) : (s.setX d x).tap = s.tap := rfl
@[simp] theorem State.setX_get (s : State) (d : Drive) (x : XDrive) : (s.setX d x).xd[d] = x := vset_same _ _ _
theorem State.setX_get_other (s : State) (d : Drive) (x : XDrive) (j : Drive) (h : j ≠ d) : (s.setX d x).xd[j] = s.xd[j] := vset_other _ _ _ _ h

/-! ## setQ -/

@[simp] theorem State.setQ_pending (s : State) (i : Fin 64) (x : Queue) : (s.setQ i x).pending = s.pending := rfl
@[simp] theorem State.setQ_qb (s : State) (i : Fin 64) (x : Queue) : (s.setQ i x).qb = s.qb := rfl
@[simp] theorem State.setQ_free (s : State) (i : Fin 64) (x : Queue) : (s.setQ i x).free = s.free := rfl
@[simp] theorem State.setQ_cfg (s : State) (i : Fin 64) (x : Queue) : (s.setQ i x).cfg = s.cfg := rfl
@[simp] theorem State.setQ_capt (s : State) (i : Fin 64) (x : Queue) : (s.setQ i x).capt = s.capt := rfl
@[simp] theorem State.setQ_badPar (s : State) (i : Fin 64) (x : Queue) : (s.setQ i x).badPar = s.badPar := rfl
@[simp] theorem State.setQ_badEcc (s : State) (i : Fin 64) (x : Queue) : (s.setQ i x).badEcc = s.badEcc := rfl
@[simp] theorem State.setQ_sram (s : State) (i : Fin 64) (x : Queue) : (s.setQ i x).sram = s.sram := rfl
@[simp] theorem State.setQ_fram (s : State) (i : Fin 64) (x : Queue) : (s.setQ i x).fram = s.fram := rfl
@[simp] theorem State.setQ_clk (s : State) (i : Fin 64) (x : Queue) : (s.setQ i x).clk = s.clk := rfl
@[simp] theorem State.setQ_rails (s : State) (i : Fin 64) (x : Queue) : (s.setQ i x).rails = s.rails := rfl
@[simp] theorem State.setQ_sys (s : State) (i : Fin 64) (x : Queue) : (s.setQ i x).sys = s.sys := rfl
@[simp] theorem State.setQ_alive (s : State) (i : Fin 64) (x : Queue) : (s.setQ i x).alive = s.alive := rfl
@[simp] theorem State.setQ_unlock (s : State) (i : Fin 64) (x : Queue) : (s.setQ i x).unlock = s.unlock := rfl
@[simp] theorem State.setQ_pads (s : State) (i : Fin 64) (x : Queue) : (s.setQ i x).pads = s.pads := rfl
@[simp] theorem State.setQ_boot (s : State) (i : Fin 64) (x : Queue) : (s.setQ i x).boot = s.boot := rfl
@[simp] theorem State.setQ_flt (s : State) (i : Fin 64) (x : Queue) : (s.setQ i x).flt = s.flt := rfl
@[simp] theorem State.setQ_xd (s : State) (i : Fin 64) (x : Queue) : (s.setQ i x).xd = s.xd := rfl
@[simp] theorem State.setQ_safe (s : State) (i : Fin 64) (x : Queue) : (s.setQ i x).safe = s.safe := rfl
@[simp] theorem State.setQ_sdm (s : State) (i : Fin 64) (x : Queue) : (s.setQ i x).sdm = s.sdm := rfl
@[simp] theorem State.setQ_resp (s : State) (i : Fin 64) (x : Queue) : (s.setQ i x).resp = s.resp := rfl
@[simp] theorem State.setQ_wst (s : State) (i : Fin 64) (x : Queue) : (s.setQ i x).wst = s.wst := rfl
@[simp] theorem State.setQ_pwr (s : State) (i : Fin 64) (x : Queue) : (s.setQ i x).pwr = s.pwr := rfl
@[simp] theorem State.setQ_exc (s : State) (i : Fin 64) (x : Queue) : (s.setQ i x).exc = s.exc := rfl
@[simp] theorem State.setQ_vexcMv (s : State) (i : Fin 64) (x : Queue) : (s.setQ i x).vexcMv = s.vexcMv := rfl
@[simp] theorem State.setQ_pch (s : State) (i : Fin 64) (x : Queue) : (s.setQ i x).pch = s.pch := rfl
@[simp] theorem State.setQ_scl (s : State) (i : Fin 64) (x : Queue) : (s.setQ i x).scl = s.scl := rfl
@[simp] theorem State.setQ_sclH (s : State) (i : Fin 64) (x : Queue) : (s.setQ i x).sclH = s.sclH := rfl
@[simp] theorem State.setQ_dch (s : State) (i : Fin 64) (x : Queue) : (s.setQ i x).dch = s.dch := rfl
@[simp] theorem State.setQ_gen (s : State) (i : Fin 64) (x : Queue) : (s.setQ i x).gen = s.gen := rfl
@[simp] theorem State.setQ_enc (s : State) (i : Fin 64) (x : Queue) : (s.setQ i x).enc = s.enc := rfl
@[simp] theorem State.setQ_aev (s : State) (i : Fin 64) (x : Queue) : (s.setQ i x).aev = s.aev := rfl
@[simp] theorem State.setQ_aux (s : State) (i : Fin 64) (x : Queue) : (s.setQ i x).aux = s.aux := rfl
@[simp] theorem State.setQ_crz (s : State) (i : Fin 64) (x : Queue) : (s.setQ i x).crz = s.crz := rfl
@[simp] theorem State.setQ_tim (s : State) (i : Fin 64) (x : Queue) : (s.setQ i x).tim = s.tim := rfl
@[simp] theorem State.setQ_net (s : State) (i : Fin 64) (x : Queue) : (s.setQ i x).net = s.net := rfl
@[simp] theorem State.setQ_frec (s : State) (i : Fin 64) (x : Queue) : (s.setQ i x).frec = s.frec := rfl
@[simp] theorem State.setQ_tap (s : State) (i : Fin 64) (x : Queue) : (s.setQ i x).tap = s.tap := rfl
@[simp] theorem State.setQ_get (s : State) (i : Fin 64) (x : Queue) : (s.setQ i x).que.q[i] = x := vset_same _ _ _
theorem State.setQ_get_other (s : State) (i : Fin 64) (x : Queue) (j : Fin 64) (h : j ≠ i) : (s.setQ i x).que.q[j] = s.que.q[j] := vset_other _ _ _ _ h

/-! ## setExc -/

@[simp] theorem State.setExc_pending (s : State) (n : Fin 4) (x : Exc) : (s.setExc n x).pending = s.pending := rfl
@[simp] theorem State.setExc_qb (s : State) (n : Fin 4) (x : Exc) : (s.setExc n x).qb = s.qb := rfl
@[simp] theorem State.setExc_free (s : State) (n : Fin 4) (x : Exc) : (s.setExc n x).free = s.free := rfl
@[simp] theorem State.setExc_cfg (s : State) (n : Fin 4) (x : Exc) : (s.setExc n x).cfg = s.cfg := rfl
@[simp] theorem State.setExc_capt (s : State) (n : Fin 4) (x : Exc) : (s.setExc n x).capt = s.capt := rfl
@[simp] theorem State.setExc_badPar (s : State) (n : Fin 4) (x : Exc) : (s.setExc n x).badPar = s.badPar := rfl
@[simp] theorem State.setExc_badEcc (s : State) (n : Fin 4) (x : Exc) : (s.setExc n x).badEcc = s.badEcc := rfl
@[simp] theorem State.setExc_sram (s : State) (n : Fin 4) (x : Exc) : (s.setExc n x).sram = s.sram := rfl
@[simp] theorem State.setExc_fram (s : State) (n : Fin 4) (x : Exc) : (s.setExc n x).fram = s.fram := rfl
@[simp] theorem State.setExc_clk (s : State) (n : Fin 4) (x : Exc) : (s.setExc n x).clk = s.clk := rfl
@[simp] theorem State.setExc_rails (s : State) (n : Fin 4) (x : Exc) : (s.setExc n x).rails = s.rails := rfl
@[simp] theorem State.setExc_sys (s : State) (n : Fin 4) (x : Exc) : (s.setExc n x).sys = s.sys := rfl
@[simp] theorem State.setExc_alive (s : State) (n : Fin 4) (x : Exc) : (s.setExc n x).alive = s.alive := rfl
@[simp] theorem State.setExc_unlock (s : State) (n : Fin 4) (x : Exc) : (s.setExc n x).unlock = s.unlock := rfl
@[simp] theorem State.setExc_pads (s : State) (n : Fin 4) (x : Exc) : (s.setExc n x).pads = s.pads := rfl
@[simp] theorem State.setExc_boot (s : State) (n : Fin 4) (x : Exc) : (s.setExc n x).boot = s.boot := rfl
@[simp] theorem State.setExc_flt (s : State) (n : Fin 4) (x : Exc) : (s.setExc n x).flt = s.flt := rfl
@[simp] theorem State.setExc_xd (s : State) (n : Fin 4) (x : Exc) : (s.setExc n x).xd = s.xd := rfl
@[simp] theorem State.setExc_safe (s : State) (n : Fin 4) (x : Exc) : (s.setExc n x).safe = s.safe := rfl
@[simp] theorem State.setExc_sdm (s : State) (n : Fin 4) (x : Exc) : (s.setExc n x).sdm = s.sdm := rfl
@[simp] theorem State.setExc_que (s : State) (n : Fin 4) (x : Exc) : (s.setExc n x).que = s.que := rfl
@[simp] theorem State.setExc_resp (s : State) (n : Fin 4) (x : Exc) : (s.setExc n x).resp = s.resp := rfl
@[simp] theorem State.setExc_wst (s : State) (n : Fin 4) (x : Exc) : (s.setExc n x).wst = s.wst := rfl
@[simp] theorem State.setExc_pwr (s : State) (n : Fin 4) (x : Exc) : (s.setExc n x).pwr = s.pwr := rfl
@[simp] theorem State.setExc_vexcMv (s : State) (n : Fin 4) (x : Exc) : (s.setExc n x).vexcMv = s.vexcMv := rfl
@[simp] theorem State.setExc_pch (s : State) (n : Fin 4) (x : Exc) : (s.setExc n x).pch = s.pch := rfl
@[simp] theorem State.setExc_scl (s : State) (n : Fin 4) (x : Exc) : (s.setExc n x).scl = s.scl := rfl
@[simp] theorem State.setExc_sclH (s : State) (n : Fin 4) (x : Exc) : (s.setExc n x).sclH = s.sclH := rfl
@[simp] theorem State.setExc_dch (s : State) (n : Fin 4) (x : Exc) : (s.setExc n x).dch = s.dch := rfl
@[simp] theorem State.setExc_gen (s : State) (n : Fin 4) (x : Exc) : (s.setExc n x).gen = s.gen := rfl
@[simp] theorem State.setExc_enc (s : State) (n : Fin 4) (x : Exc) : (s.setExc n x).enc = s.enc := rfl
@[simp] theorem State.setExc_aev (s : State) (n : Fin 4) (x : Exc) : (s.setExc n x).aev = s.aev := rfl
@[simp] theorem State.setExc_aux (s : State) (n : Fin 4) (x : Exc) : (s.setExc n x).aux = s.aux := rfl
@[simp] theorem State.setExc_crz (s : State) (n : Fin 4) (x : Exc) : (s.setExc n x).crz = s.crz := rfl
@[simp] theorem State.setExc_tim (s : State) (n : Fin 4) (x : Exc) : (s.setExc n x).tim = s.tim := rfl
@[simp] theorem State.setExc_net (s : State) (n : Fin 4) (x : Exc) : (s.setExc n x).net = s.net := rfl
@[simp] theorem State.setExc_frec (s : State) (n : Fin 4) (x : Exc) : (s.setExc n x).frec = s.frec := rfl
@[simp] theorem State.setExc_tap (s : State) (n : Fin 4) (x : Exc) : (s.setExc n x).tap = s.tap := rfl
@[simp] theorem State.setExc_get (s : State) (n : Fin 4) (x : Exc) : (s.setExc n x).exc[n] = x := vset_same _ _ _
theorem State.setExc_get_other (s : State) (n : Fin 4) (x : Exc) (j : Fin 4) (h : j ≠ n) : (s.setExc n x).exc[j] = s.exc[j] := vset_other _ _ _ _ h

/-! ## setPch -/

@[simp] theorem State.setPch_pending (s : State) (n : Fin 8) (x : Pch) : (s.setPch n x).pending = s.pending := rfl
@[simp] theorem State.setPch_qb (s : State) (n : Fin 8) (x : Pch) : (s.setPch n x).qb = s.qb := rfl
@[simp] theorem State.setPch_free (s : State) (n : Fin 8) (x : Pch) : (s.setPch n x).free = s.free := rfl
@[simp] theorem State.setPch_cfg (s : State) (n : Fin 8) (x : Pch) : (s.setPch n x).cfg = s.cfg := rfl
@[simp] theorem State.setPch_capt (s : State) (n : Fin 8) (x : Pch) : (s.setPch n x).capt = s.capt := rfl
@[simp] theorem State.setPch_badPar (s : State) (n : Fin 8) (x : Pch) : (s.setPch n x).badPar = s.badPar := rfl
@[simp] theorem State.setPch_badEcc (s : State) (n : Fin 8) (x : Pch) : (s.setPch n x).badEcc = s.badEcc := rfl
@[simp] theorem State.setPch_sram (s : State) (n : Fin 8) (x : Pch) : (s.setPch n x).sram = s.sram := rfl
@[simp] theorem State.setPch_fram (s : State) (n : Fin 8) (x : Pch) : (s.setPch n x).fram = s.fram := rfl
@[simp] theorem State.setPch_clk (s : State) (n : Fin 8) (x : Pch) : (s.setPch n x).clk = s.clk := rfl
@[simp] theorem State.setPch_rails (s : State) (n : Fin 8) (x : Pch) : (s.setPch n x).rails = s.rails := rfl
@[simp] theorem State.setPch_sys (s : State) (n : Fin 8) (x : Pch) : (s.setPch n x).sys = s.sys := rfl
@[simp] theorem State.setPch_alive (s : State) (n : Fin 8) (x : Pch) : (s.setPch n x).alive = s.alive := rfl
@[simp] theorem State.setPch_unlock (s : State) (n : Fin 8) (x : Pch) : (s.setPch n x).unlock = s.unlock := rfl
@[simp] theorem State.setPch_pads (s : State) (n : Fin 8) (x : Pch) : (s.setPch n x).pads = s.pads := rfl
@[simp] theorem State.setPch_boot (s : State) (n : Fin 8) (x : Pch) : (s.setPch n x).boot = s.boot := rfl
@[simp] theorem State.setPch_flt (s : State) (n : Fin 8) (x : Pch) : (s.setPch n x).flt = s.flt := rfl
@[simp] theorem State.setPch_xd (s : State) (n : Fin 8) (x : Pch) : (s.setPch n x).xd = s.xd := rfl
@[simp] theorem State.setPch_safe (s : State) (n : Fin 8) (x : Pch) : (s.setPch n x).safe = s.safe := rfl
@[simp] theorem State.setPch_sdm (s : State) (n : Fin 8) (x : Pch) : (s.setPch n x).sdm = s.sdm := rfl
@[simp] theorem State.setPch_que (s : State) (n : Fin 8) (x : Pch) : (s.setPch n x).que = s.que := rfl
@[simp] theorem State.setPch_resp (s : State) (n : Fin 8) (x : Pch) : (s.setPch n x).resp = s.resp := rfl
@[simp] theorem State.setPch_wst (s : State) (n : Fin 8) (x : Pch) : (s.setPch n x).wst = s.wst := rfl
@[simp] theorem State.setPch_pwr (s : State) (n : Fin 8) (x : Pch) : (s.setPch n x).pwr = s.pwr := rfl
@[simp] theorem State.setPch_exc (s : State) (n : Fin 8) (x : Pch) : (s.setPch n x).exc = s.exc := rfl
@[simp] theorem State.setPch_vexcMv (s : State) (n : Fin 8) (x : Pch) : (s.setPch n x).vexcMv = s.vexcMv := rfl
@[simp] theorem State.setPch_scl (s : State) (n : Fin 8) (x : Pch) : (s.setPch n x).scl = s.scl := rfl
@[simp] theorem State.setPch_sclH (s : State) (n : Fin 8) (x : Pch) : (s.setPch n x).sclH = s.sclH := rfl
@[simp] theorem State.setPch_dch (s : State) (n : Fin 8) (x : Pch) : (s.setPch n x).dch = s.dch := rfl
@[simp] theorem State.setPch_gen (s : State) (n : Fin 8) (x : Pch) : (s.setPch n x).gen = s.gen := rfl
@[simp] theorem State.setPch_enc (s : State) (n : Fin 8) (x : Pch) : (s.setPch n x).enc = s.enc := rfl
@[simp] theorem State.setPch_aev (s : State) (n : Fin 8) (x : Pch) : (s.setPch n x).aev = s.aev := rfl
@[simp] theorem State.setPch_aux (s : State) (n : Fin 8) (x : Pch) : (s.setPch n x).aux = s.aux := rfl
@[simp] theorem State.setPch_crz (s : State) (n : Fin 8) (x : Pch) : (s.setPch n x).crz = s.crz := rfl
@[simp] theorem State.setPch_tim (s : State) (n : Fin 8) (x : Pch) : (s.setPch n x).tim = s.tim := rfl
@[simp] theorem State.setPch_net (s : State) (n : Fin 8) (x : Pch) : (s.setPch n x).net = s.net := rfl
@[simp] theorem State.setPch_frec (s : State) (n : Fin 8) (x : Pch) : (s.setPch n x).frec = s.frec := rfl
@[simp] theorem State.setPch_tap (s : State) (n : Fin 8) (x : Pch) : (s.setPch n x).tap = s.tap := rfl
@[simp] theorem State.setPch_get (s : State) (n : Fin 8) (x : Pch) : (s.setPch n x).pch[n] = x := vset_same _ _ _
theorem State.setPch_get_other (s : State) (n : Fin 8) (x : Pch) (j : Fin 8) (h : j ≠ n) : (s.setPch n x).pch[j] = s.pch[j] := vset_other _ _ _ _ h

/-! ## setScl -/

@[simp] theorem State.setScl_pending (s : State) (n : Fin 8) (x : Scl) : (s.setScl n x).pending = s.pending := rfl
@[simp] theorem State.setScl_qb (s : State) (n : Fin 8) (x : Scl) : (s.setScl n x).qb = s.qb := rfl
@[simp] theorem State.setScl_free (s : State) (n : Fin 8) (x : Scl) : (s.setScl n x).free = s.free := rfl
@[simp] theorem State.setScl_cfg (s : State) (n : Fin 8) (x : Scl) : (s.setScl n x).cfg = s.cfg := rfl
@[simp] theorem State.setScl_capt (s : State) (n : Fin 8) (x : Scl) : (s.setScl n x).capt = s.capt := rfl
@[simp] theorem State.setScl_badPar (s : State) (n : Fin 8) (x : Scl) : (s.setScl n x).badPar = s.badPar := rfl
@[simp] theorem State.setScl_badEcc (s : State) (n : Fin 8) (x : Scl) : (s.setScl n x).badEcc = s.badEcc := rfl
@[simp] theorem State.setScl_sram (s : State) (n : Fin 8) (x : Scl) : (s.setScl n x).sram = s.sram := rfl
@[simp] theorem State.setScl_fram (s : State) (n : Fin 8) (x : Scl) : (s.setScl n x).fram = s.fram := rfl
@[simp] theorem State.setScl_clk (s : State) (n : Fin 8) (x : Scl) : (s.setScl n x).clk = s.clk := rfl
@[simp] theorem State.setScl_rails (s : State) (n : Fin 8) (x : Scl) : (s.setScl n x).rails = s.rails := rfl
@[simp] theorem State.setScl_sys (s : State) (n : Fin 8) (x : Scl) : (s.setScl n x).sys = s.sys := rfl
@[simp] theorem State.setScl_alive (s : State) (n : Fin 8) (x : Scl) : (s.setScl n x).alive = s.alive := rfl
@[simp] theorem State.setScl_unlock (s : State) (n : Fin 8) (x : Scl) : (s.setScl n x).unlock = s.unlock := rfl
@[simp] theorem State.setScl_pads (s : State) (n : Fin 8) (x : Scl) : (s.setScl n x).pads = s.pads := rfl
@[simp] theorem State.setScl_boot (s : State) (n : Fin 8) (x : Scl) : (s.setScl n x).boot = s.boot := rfl
@[simp] theorem State.setScl_flt (s : State) (n : Fin 8) (x : Scl) : (s.setScl n x).flt = s.flt := rfl
@[simp] theorem State.setScl_xd (s : State) (n : Fin 8) (x : Scl) : (s.setScl n x).xd = s.xd := rfl
@[simp] theorem State.setScl_safe (s : State) (n : Fin 8) (x : Scl) : (s.setScl n x).safe = s.safe := rfl
@[simp] theorem State.setScl_sdm (s : State) (n : Fin 8) (x : Scl) : (s.setScl n x).sdm = s.sdm := rfl
@[simp] theorem State.setScl_que (s : State) (n : Fin 8) (x : Scl) : (s.setScl n x).que = s.que := rfl
@[simp] theorem State.setScl_resp (s : State) (n : Fin 8) (x : Scl) : (s.setScl n x).resp = s.resp := rfl
@[simp] theorem State.setScl_wst (s : State) (n : Fin 8) (x : Scl) : (s.setScl n x).wst = s.wst := rfl
@[simp] theorem State.setScl_pwr (s : State) (n : Fin 8) (x : Scl) : (s.setScl n x).pwr = s.pwr := rfl
@[simp] theorem State.setScl_exc (s : State) (n : Fin 8) (x : Scl) : (s.setScl n x).exc = s.exc := rfl
@[simp] theorem State.setScl_vexcMv (s : State) (n : Fin 8) (x : Scl) : (s.setScl n x).vexcMv = s.vexcMv := rfl
@[simp] theorem State.setScl_pch (s : State) (n : Fin 8) (x : Scl) : (s.setScl n x).pch = s.pch := rfl
@[simp] theorem State.setScl_sclH (s : State) (n : Fin 8) (x : Scl) : (s.setScl n x).sclH = s.sclH := rfl
@[simp] theorem State.setScl_dch (s : State) (n : Fin 8) (x : Scl) : (s.setScl n x).dch = s.dch := rfl
@[simp] theorem State.setScl_gen (s : State) (n : Fin 8) (x : Scl) : (s.setScl n x).gen = s.gen := rfl
@[simp] theorem State.setScl_enc (s : State) (n : Fin 8) (x : Scl) : (s.setScl n x).enc = s.enc := rfl
@[simp] theorem State.setScl_aev (s : State) (n : Fin 8) (x : Scl) : (s.setScl n x).aev = s.aev := rfl
@[simp] theorem State.setScl_aux (s : State) (n : Fin 8) (x : Scl) : (s.setScl n x).aux = s.aux := rfl
@[simp] theorem State.setScl_crz (s : State) (n : Fin 8) (x : Scl) : (s.setScl n x).crz = s.crz := rfl
@[simp] theorem State.setScl_tim (s : State) (n : Fin 8) (x : Scl) : (s.setScl n x).tim = s.tim := rfl
@[simp] theorem State.setScl_net (s : State) (n : Fin 8) (x : Scl) : (s.setScl n x).net = s.net := rfl
@[simp] theorem State.setScl_frec (s : State) (n : Fin 8) (x : Scl) : (s.setScl n x).frec = s.frec := rfl
@[simp] theorem State.setScl_tap (s : State) (n : Fin 8) (x : Scl) : (s.setScl n x).tap = s.tap := rfl
@[simp] theorem State.setScl_get (s : State) (n : Fin 8) (x : Scl) : (s.setScl n x).scl[n] = x := vset_same _ _ _
theorem State.setScl_get_other (s : State) (n : Fin 8) (x : Scl) (j : Fin 8) (h : j ≠ n) : (s.setScl n x).scl[j] = s.scl[j] := vset_other _ _ _ _ h

/-! ## setDch -/

@[simp] theorem State.setDch_pending (s : State) (n : Fin 4) (x : Dch) : (s.setDch n x).pending = s.pending := rfl
@[simp] theorem State.setDch_qb (s : State) (n : Fin 4) (x : Dch) : (s.setDch n x).qb = s.qb := rfl
@[simp] theorem State.setDch_free (s : State) (n : Fin 4) (x : Dch) : (s.setDch n x).free = s.free := rfl
@[simp] theorem State.setDch_cfg (s : State) (n : Fin 4) (x : Dch) : (s.setDch n x).cfg = s.cfg := rfl
@[simp] theorem State.setDch_capt (s : State) (n : Fin 4) (x : Dch) : (s.setDch n x).capt = s.capt := rfl
@[simp] theorem State.setDch_badPar (s : State) (n : Fin 4) (x : Dch) : (s.setDch n x).badPar = s.badPar := rfl
@[simp] theorem State.setDch_badEcc (s : State) (n : Fin 4) (x : Dch) : (s.setDch n x).badEcc = s.badEcc := rfl
@[simp] theorem State.setDch_sram (s : State) (n : Fin 4) (x : Dch) : (s.setDch n x).sram = s.sram := rfl
@[simp] theorem State.setDch_fram (s : State) (n : Fin 4) (x : Dch) : (s.setDch n x).fram = s.fram := rfl
@[simp] theorem State.setDch_clk (s : State) (n : Fin 4) (x : Dch) : (s.setDch n x).clk = s.clk := rfl
@[simp] theorem State.setDch_rails (s : State) (n : Fin 4) (x : Dch) : (s.setDch n x).rails = s.rails := rfl
@[simp] theorem State.setDch_sys (s : State) (n : Fin 4) (x : Dch) : (s.setDch n x).sys = s.sys := rfl
@[simp] theorem State.setDch_alive (s : State) (n : Fin 4) (x : Dch) : (s.setDch n x).alive = s.alive := rfl
@[simp] theorem State.setDch_unlock (s : State) (n : Fin 4) (x : Dch) : (s.setDch n x).unlock = s.unlock := rfl
@[simp] theorem State.setDch_pads (s : State) (n : Fin 4) (x : Dch) : (s.setDch n x).pads = s.pads := rfl
@[simp] theorem State.setDch_boot (s : State) (n : Fin 4) (x : Dch) : (s.setDch n x).boot = s.boot := rfl
@[simp] theorem State.setDch_flt (s : State) (n : Fin 4) (x : Dch) : (s.setDch n x).flt = s.flt := rfl
@[simp] theorem State.setDch_xd (s : State) (n : Fin 4) (x : Dch) : (s.setDch n x).xd = s.xd := rfl
@[simp] theorem State.setDch_safe (s : State) (n : Fin 4) (x : Dch) : (s.setDch n x).safe = s.safe := rfl
@[simp] theorem State.setDch_sdm (s : State) (n : Fin 4) (x : Dch) : (s.setDch n x).sdm = s.sdm := rfl
@[simp] theorem State.setDch_que (s : State) (n : Fin 4) (x : Dch) : (s.setDch n x).que = s.que := rfl
@[simp] theorem State.setDch_resp (s : State) (n : Fin 4) (x : Dch) : (s.setDch n x).resp = s.resp := rfl
@[simp] theorem State.setDch_wst (s : State) (n : Fin 4) (x : Dch) : (s.setDch n x).wst = s.wst := rfl
@[simp] theorem State.setDch_pwr (s : State) (n : Fin 4) (x : Dch) : (s.setDch n x).pwr = s.pwr := rfl
@[simp] theorem State.setDch_exc (s : State) (n : Fin 4) (x : Dch) : (s.setDch n x).exc = s.exc := rfl
@[simp] theorem State.setDch_vexcMv (s : State) (n : Fin 4) (x : Dch) : (s.setDch n x).vexcMv = s.vexcMv := rfl
@[simp] theorem State.setDch_pch (s : State) (n : Fin 4) (x : Dch) : (s.setDch n x).pch = s.pch := rfl
@[simp] theorem State.setDch_scl (s : State) (n : Fin 4) (x : Dch) : (s.setDch n x).scl = s.scl := rfl
@[simp] theorem State.setDch_sclH (s : State) (n : Fin 4) (x : Dch) : (s.setDch n x).sclH = s.sclH := rfl
@[simp] theorem State.setDch_gen (s : State) (n : Fin 4) (x : Dch) : (s.setDch n x).gen = s.gen := rfl
@[simp] theorem State.setDch_enc (s : State) (n : Fin 4) (x : Dch) : (s.setDch n x).enc = s.enc := rfl
@[simp] theorem State.setDch_aev (s : State) (n : Fin 4) (x : Dch) : (s.setDch n x).aev = s.aev := rfl
@[simp] theorem State.setDch_aux (s : State) (n : Fin 4) (x : Dch) : (s.setDch n x).aux = s.aux := rfl
@[simp] theorem State.setDch_crz (s : State) (n : Fin 4) (x : Dch) : (s.setDch n x).crz = s.crz := rfl
@[simp] theorem State.setDch_tim (s : State) (n : Fin 4) (x : Dch) : (s.setDch n x).tim = s.tim := rfl
@[simp] theorem State.setDch_net (s : State) (n : Fin 4) (x : Dch) : (s.setDch n x).net = s.net := rfl
@[simp] theorem State.setDch_frec (s : State) (n : Fin 4) (x : Dch) : (s.setDch n x).frec = s.frec := rfl
@[simp] theorem State.setDch_tap (s : State) (n : Fin 4) (x : Dch) : (s.setDch n x).tap = s.tap := rfl
@[simp] theorem State.setDch_get (s : State) (n : Fin 4) (x : Dch) : (s.setDch n x).dch[n] = x := vset_same _ _ _
theorem State.setDch_get_other (s : State) (n : Fin 4) (x : Dch) (j : Fin 4) (h : j ≠ n) : (s.setDch n x).dch[j] = s.dch[j] := vset_other _ _ _ _ h

/-! ## setEnc -/

@[simp] theorem State.setEnc_pending (s : State) (n : Fin 4) (x : Enc) : (s.setEnc n x).pending = s.pending := rfl
@[simp] theorem State.setEnc_qb (s : State) (n : Fin 4) (x : Enc) : (s.setEnc n x).qb = s.qb := rfl
@[simp] theorem State.setEnc_free (s : State) (n : Fin 4) (x : Enc) : (s.setEnc n x).free = s.free := rfl
@[simp] theorem State.setEnc_cfg (s : State) (n : Fin 4) (x : Enc) : (s.setEnc n x).cfg = s.cfg := rfl
@[simp] theorem State.setEnc_capt (s : State) (n : Fin 4) (x : Enc) : (s.setEnc n x).capt = s.capt := rfl
@[simp] theorem State.setEnc_badPar (s : State) (n : Fin 4) (x : Enc) : (s.setEnc n x).badPar = s.badPar := rfl
@[simp] theorem State.setEnc_badEcc (s : State) (n : Fin 4) (x : Enc) : (s.setEnc n x).badEcc = s.badEcc := rfl
@[simp] theorem State.setEnc_sram (s : State) (n : Fin 4) (x : Enc) : (s.setEnc n x).sram = s.sram := rfl
@[simp] theorem State.setEnc_fram (s : State) (n : Fin 4) (x : Enc) : (s.setEnc n x).fram = s.fram := rfl
@[simp] theorem State.setEnc_clk (s : State) (n : Fin 4) (x : Enc) : (s.setEnc n x).clk = s.clk := rfl
@[simp] theorem State.setEnc_rails (s : State) (n : Fin 4) (x : Enc) : (s.setEnc n x).rails = s.rails := rfl
@[simp] theorem State.setEnc_sys (s : State) (n : Fin 4) (x : Enc) : (s.setEnc n x).sys = s.sys := rfl
@[simp] theorem State.setEnc_alive (s : State) (n : Fin 4) (x : Enc) : (s.setEnc n x).alive = s.alive := rfl
@[simp] theorem State.setEnc_unlock (s : State) (n : Fin 4) (x : Enc) : (s.setEnc n x).unlock = s.unlock := rfl
@[simp] theorem State.setEnc_pads (s : State) (n : Fin 4) (x : Enc) : (s.setEnc n x).pads = s.pads := rfl
@[simp] theorem State.setEnc_boot (s : State) (n : Fin 4) (x : Enc) : (s.setEnc n x).boot = s.boot := rfl
@[simp] theorem State.setEnc_flt (s : State) (n : Fin 4) (x : Enc) : (s.setEnc n x).flt = s.flt := rfl
@[simp] theorem State.setEnc_xd (s : State) (n : Fin 4) (x : Enc) : (s.setEnc n x).xd = s.xd := rfl
@[simp] theorem State.setEnc_safe (s : State) (n : Fin 4) (x : Enc) : (s.setEnc n x).safe = s.safe := rfl
@[simp] theorem State.setEnc_sdm (s : State) (n : Fin 4) (x : Enc) : (s.setEnc n x).sdm = s.sdm := rfl
@[simp] theorem State.setEnc_que (s : State) (n : Fin 4) (x : Enc) : (s.setEnc n x).que = s.que := rfl
@[simp] theorem State.setEnc_resp (s : State) (n : Fin 4) (x : Enc) : (s.setEnc n x).resp = s.resp := rfl
@[simp] theorem State.setEnc_wst (s : State) (n : Fin 4) (x : Enc) : (s.setEnc n x).wst = s.wst := rfl
@[simp] theorem State.setEnc_pwr (s : State) (n : Fin 4) (x : Enc) : (s.setEnc n x).pwr = s.pwr := rfl
@[simp] theorem State.setEnc_exc (s : State) (n : Fin 4) (x : Enc) : (s.setEnc n x).exc = s.exc := rfl
@[simp] theorem State.setEnc_vexcMv (s : State) (n : Fin 4) (x : Enc) : (s.setEnc n x).vexcMv = s.vexcMv := rfl
@[simp] theorem State.setEnc_pch (s : State) (n : Fin 4) (x : Enc) : (s.setEnc n x).pch = s.pch := rfl
@[simp] theorem State.setEnc_scl (s : State) (n : Fin 4) (x : Enc) : (s.setEnc n x).scl = s.scl := rfl
@[simp] theorem State.setEnc_sclH (s : State) (n : Fin 4) (x : Enc) : (s.setEnc n x).sclH = s.sclH := rfl
@[simp] theorem State.setEnc_dch (s : State) (n : Fin 4) (x : Enc) : (s.setEnc n x).dch = s.dch := rfl
@[simp] theorem State.setEnc_gen (s : State) (n : Fin 4) (x : Enc) : (s.setEnc n x).gen = s.gen := rfl
@[simp] theorem State.setEnc_aev (s : State) (n : Fin 4) (x : Enc) : (s.setEnc n x).aev = s.aev := rfl
@[simp] theorem State.setEnc_aux (s : State) (n : Fin 4) (x : Enc) : (s.setEnc n x).aux = s.aux := rfl
@[simp] theorem State.setEnc_crz (s : State) (n : Fin 4) (x : Enc) : (s.setEnc n x).crz = s.crz := rfl
@[simp] theorem State.setEnc_tim (s : State) (n : Fin 4) (x : Enc) : (s.setEnc n x).tim = s.tim := rfl
@[simp] theorem State.setEnc_net (s : State) (n : Fin 4) (x : Enc) : (s.setEnc n x).net = s.net := rfl
@[simp] theorem State.setEnc_frec (s : State) (n : Fin 4) (x : Enc) : (s.setEnc n x).frec = s.frec := rfl
@[simp] theorem State.setEnc_tap (s : State) (n : Fin 4) (x : Enc) : (s.setEnc n x).tap = s.tap := rfl
@[simp] theorem State.setEnc_get (s : State) (n : Fin 4) (x : Enc) : (s.setEnc n x).enc[n] = x := vset_same _ _ _
theorem State.setEnc_get_other (s : State) (n : Fin 4) (x : Enc) (j : Fin 4) (h : j ≠ n) : (s.setEnc n x).enc[j] = s.enc[j] := vset_other _ _ _ _ h

/-! ## setSlot -/

@[simp] theorem State.setSlot_pending (s : State) (n : Fin 256) (x : AevSlot) : (s.setSlot n x).pending = s.pending := rfl
@[simp] theorem State.setSlot_qb (s : State) (n : Fin 256) (x : AevSlot) : (s.setSlot n x).qb = s.qb := rfl
@[simp] theorem State.setSlot_free (s : State) (n : Fin 256) (x : AevSlot) : (s.setSlot n x).free = s.free := rfl
@[simp] theorem State.setSlot_cfg (s : State) (n : Fin 256) (x : AevSlot) : (s.setSlot n x).cfg = s.cfg := rfl
@[simp] theorem State.setSlot_capt (s : State) (n : Fin 256) (x : AevSlot) : (s.setSlot n x).capt = s.capt := rfl
@[simp] theorem State.setSlot_badPar (s : State) (n : Fin 256) (x : AevSlot) : (s.setSlot n x).badPar = s.badPar := rfl
@[simp] theorem State.setSlot_badEcc (s : State) (n : Fin 256) (x : AevSlot) : (s.setSlot n x).badEcc = s.badEcc := rfl
@[simp] theorem State.setSlot_sram (s : State) (n : Fin 256) (x : AevSlot) : (s.setSlot n x).sram = s.sram := rfl
@[simp] theorem State.setSlot_fram (s : State) (n : Fin 256) (x : AevSlot) : (s.setSlot n x).fram = s.fram := rfl
@[simp] theorem State.setSlot_clk (s : State) (n : Fin 256) (x : AevSlot) : (s.setSlot n x).clk = s.clk := rfl
@[simp] theorem State.setSlot_rails (s : State) (n : Fin 256) (x : AevSlot) : (s.setSlot n x).rails = s.rails := rfl
@[simp] theorem State.setSlot_sys (s : State) (n : Fin 256) (x : AevSlot) : (s.setSlot n x).sys = s.sys := rfl
@[simp] theorem State.setSlot_alive (s : State) (n : Fin 256) (x : AevSlot) : (s.setSlot n x).alive = s.alive := rfl
@[simp] theorem State.setSlot_unlock (s : State) (n : Fin 256) (x : AevSlot) : (s.setSlot n x).unlock = s.unlock := rfl
@[simp] theorem State.setSlot_pads (s : State) (n : Fin 256) (x : AevSlot) : (s.setSlot n x).pads = s.pads := rfl
@[simp] theorem State.setSlot_boot (s : State) (n : Fin 256) (x : AevSlot) : (s.setSlot n x).boot = s.boot := rfl
@[simp] theorem State.setSlot_flt (s : State) (n : Fin 256) (x : AevSlot) : (s.setSlot n x).flt = s.flt := rfl
@[simp] theorem State.setSlot_xd (s : State) (n : Fin 256) (x : AevSlot) : (s.setSlot n x).xd = s.xd := rfl
@[simp] theorem State.setSlot_safe (s : State) (n : Fin 256) (x : AevSlot) : (s.setSlot n x).safe = s.safe := rfl
@[simp] theorem State.setSlot_sdm (s : State) (n : Fin 256) (x : AevSlot) : (s.setSlot n x).sdm = s.sdm := rfl
@[simp] theorem State.setSlot_que (s : State) (n : Fin 256) (x : AevSlot) : (s.setSlot n x).que = s.que := rfl
@[simp] theorem State.setSlot_resp (s : State) (n : Fin 256) (x : AevSlot) : (s.setSlot n x).resp = s.resp := rfl
@[simp] theorem State.setSlot_wst (s : State) (n : Fin 256) (x : AevSlot) : (s.setSlot n x).wst = s.wst := rfl
@[simp] theorem State.setSlot_pwr (s : State) (n : Fin 256) (x : AevSlot) : (s.setSlot n x).pwr = s.pwr := rfl
@[simp] theorem State.setSlot_exc (s : State) (n : Fin 256) (x : AevSlot) : (s.setSlot n x).exc = s.exc := rfl
@[simp] theorem State.setSlot_vexcMv (s : State) (n : Fin 256) (x : AevSlot) : (s.setSlot n x).vexcMv = s.vexcMv := rfl
@[simp] theorem State.setSlot_pch (s : State) (n : Fin 256) (x : AevSlot) : (s.setSlot n x).pch = s.pch := rfl
@[simp] theorem State.setSlot_scl (s : State) (n : Fin 256) (x : AevSlot) : (s.setSlot n x).scl = s.scl := rfl
@[simp] theorem State.setSlot_sclH (s : State) (n : Fin 256) (x : AevSlot) : (s.setSlot n x).sclH = s.sclH := rfl
@[simp] theorem State.setSlot_dch (s : State) (n : Fin 256) (x : AevSlot) : (s.setSlot n x).dch = s.dch := rfl
@[simp] theorem State.setSlot_gen (s : State) (n : Fin 256) (x : AevSlot) : (s.setSlot n x).gen = s.gen := rfl
@[simp] theorem State.setSlot_enc (s : State) (n : Fin 256) (x : AevSlot) : (s.setSlot n x).enc = s.enc := rfl
@[simp] theorem State.setSlot_aux (s : State) (n : Fin 256) (x : AevSlot) : (s.setSlot n x).aux = s.aux := rfl
@[simp] theorem State.setSlot_crz (s : State) (n : Fin 256) (x : AevSlot) : (s.setSlot n x).crz = s.crz := rfl
@[simp] theorem State.setSlot_tim (s : State) (n : Fin 256) (x : AevSlot) : (s.setSlot n x).tim = s.tim := rfl
@[simp] theorem State.setSlot_net (s : State) (n : Fin 256) (x : AevSlot) : (s.setSlot n x).net = s.net := rfl
@[simp] theorem State.setSlot_frec (s : State) (n : Fin 256) (x : AevSlot) : (s.setSlot n x).frec = s.frec := rfl
@[simp] theorem State.setSlot_tap (s : State) (n : Fin 256) (x : AevSlot) : (s.setSlot n x).tap = s.tap := rfl
@[simp] theorem State.setSlot_get (s : State) (n : Fin 256) (x : AevSlot) : (s.setSlot n x).aev.slot[n] = x := vset_same _ _ _
theorem State.setSlot_get_other (s : State) (n : Fin 256) (x : AevSlot) (j : Fin 256) (h : j ≠ n) : (s.setSlot n x).aev.slot[j] = s.aev.slot[j] := vset_other _ _ _ _ h

/-! ## setAux -/

@[simp] theorem State.setAux_pending (s : State) (n : Fin 16) (x : AuxSlot) : (s.setAux n x).pending = s.pending := rfl
@[simp] theorem State.setAux_qb (s : State) (n : Fin 16) (x : AuxSlot) : (s.setAux n x).qb = s.qb := rfl
@[simp] theorem State.setAux_free (s : State) (n : Fin 16) (x : AuxSlot) : (s.setAux n x).free = s.free := rfl
@[simp] theorem State.setAux_cfg (s : State) (n : Fin 16) (x : AuxSlot) : (s.setAux n x).cfg = s.cfg := rfl
@[simp] theorem State.setAux_capt (s : State) (n : Fin 16) (x : AuxSlot) : (s.setAux n x).capt = s.capt := rfl
@[simp] theorem State.setAux_badPar (s : State) (n : Fin 16) (x : AuxSlot) : (s.setAux n x).badPar = s.badPar := rfl
@[simp] theorem State.setAux_badEcc (s : State) (n : Fin 16) (x : AuxSlot) : (s.setAux n x).badEcc = s.badEcc := rfl
@[simp] theorem State.setAux_sram (s : State) (n : Fin 16) (x : AuxSlot) : (s.setAux n x).sram = s.sram := rfl
@[simp] theorem State.setAux_fram (s : State) (n : Fin 16) (x : AuxSlot) : (s.setAux n x).fram = s.fram := rfl
@[simp] theorem State.setAux_clk (s : State) (n : Fin 16) (x : AuxSlot) : (s.setAux n x).clk = s.clk := rfl
@[simp] theorem State.setAux_rails (s : State) (n : Fin 16) (x : AuxSlot) : (s.setAux n x).rails = s.rails := rfl
@[simp] theorem State.setAux_sys (s : State) (n : Fin 16) (x : AuxSlot) : (s.setAux n x).sys = s.sys := rfl
@[simp] theorem State.setAux_alive (s : State) (n : Fin 16) (x : AuxSlot) : (s.setAux n x).alive = s.alive := rfl
@[simp] theorem State.setAux_unlock (s : State) (n : Fin 16) (x : AuxSlot) : (s.setAux n x).unlock = s.unlock := rfl
@[simp] theorem State.setAux_pads (s : State) (n : Fin 16) (x : AuxSlot) : (s.setAux n x).pads = s.pads := rfl
@[simp] theorem State.setAux_boot (s : State) (n : Fin 16) (x : AuxSlot) : (s.setAux n x).boot = s.boot := rfl
@[simp] theorem State.setAux_flt (s : State) (n : Fin 16) (x : AuxSlot) : (s.setAux n x).flt = s.flt := rfl
@[simp] theorem State.setAux_xd (s : State) (n : Fin 16) (x : AuxSlot) : (s.setAux n x).xd = s.xd := rfl
@[simp] theorem State.setAux_safe (s : State) (n : Fin 16) (x : AuxSlot) : (s.setAux n x).safe = s.safe := rfl
@[simp] theorem State.setAux_sdm (s : State) (n : Fin 16) (x : AuxSlot) : (s.setAux n x).sdm = s.sdm := rfl
@[simp] theorem State.setAux_que (s : State) (n : Fin 16) (x : AuxSlot) : (s.setAux n x).que = s.que := rfl
@[simp] theorem State.setAux_resp (s : State) (n : Fin 16) (x : AuxSlot) : (s.setAux n x).resp = s.resp := rfl
@[simp] theorem State.setAux_wst (s : State) (n : Fin 16) (x : AuxSlot) : (s.setAux n x).wst = s.wst := rfl
@[simp] theorem State.setAux_pwr (s : State) (n : Fin 16) (x : AuxSlot) : (s.setAux n x).pwr = s.pwr := rfl
@[simp] theorem State.setAux_exc (s : State) (n : Fin 16) (x : AuxSlot) : (s.setAux n x).exc = s.exc := rfl
@[simp] theorem State.setAux_vexcMv (s : State) (n : Fin 16) (x : AuxSlot) : (s.setAux n x).vexcMv = s.vexcMv := rfl
@[simp] theorem State.setAux_pch (s : State) (n : Fin 16) (x : AuxSlot) : (s.setAux n x).pch = s.pch := rfl
@[simp] theorem State.setAux_scl (s : State) (n : Fin 16) (x : AuxSlot) : (s.setAux n x).scl = s.scl := rfl
@[simp] theorem State.setAux_sclH (s : State) (n : Fin 16) (x : AuxSlot) : (s.setAux n x).sclH = s.sclH := rfl
@[simp] theorem State.setAux_dch (s : State) (n : Fin 16) (x : AuxSlot) : (s.setAux n x).dch = s.dch := rfl
@[simp] theorem State.setAux_gen (s : State) (n : Fin 16) (x : AuxSlot) : (s.setAux n x).gen = s.gen := rfl
@[simp] theorem State.setAux_enc (s : State) (n : Fin 16) (x : AuxSlot) : (s.setAux n x).enc = s.enc := rfl
@[simp] theorem State.setAux_aev (s : State) (n : Fin 16) (x : AuxSlot) : (s.setAux n x).aev = s.aev := rfl
@[simp] theorem State.setAux_crz (s : State) (n : Fin 16) (x : AuxSlot) : (s.setAux n x).crz = s.crz := rfl
@[simp] theorem State.setAux_tim (s : State) (n : Fin 16) (x : AuxSlot) : (s.setAux n x).tim = s.tim := rfl
@[simp] theorem State.setAux_net (s : State) (n : Fin 16) (x : AuxSlot) : (s.setAux n x).net = s.net := rfl
@[simp] theorem State.setAux_frec (s : State) (n : Fin 16) (x : AuxSlot) : (s.setAux n x).frec = s.frec := rfl
@[simp] theorem State.setAux_tap (s : State) (n : Fin 16) (x : AuxSlot) : (s.setAux n x).tap = s.tap := rfl
@[simp] theorem State.setAux_get (s : State) (n : Fin 16) (x : AuxSlot) : (s.setAux n x).aux.slot[n] = x := vset_same _ _ _
theorem State.setAux_get_other (s : State) (n : Fin 16) (x : AuxSlot) (j : Fin 16) (h : j ≠ n) : (s.setAux n x).aux.slot[j] = s.aux.slot[j] := vset_other _ _ _ _ h

/-! ## setConv -/

@[simp] theorem State.setConv_pending (s : State) (n : Fin 2) (x : AuxConv) : (s.setConv n x).pending = s.pending := rfl
@[simp] theorem State.setConv_qb (s : State) (n : Fin 2) (x : AuxConv) : (s.setConv n x).qb = s.qb := rfl
@[simp] theorem State.setConv_free (s : State) (n : Fin 2) (x : AuxConv) : (s.setConv n x).free = s.free := rfl
@[simp] theorem State.setConv_cfg (s : State) (n : Fin 2) (x : AuxConv) : (s.setConv n x).cfg = s.cfg := rfl
@[simp] theorem State.setConv_capt (s : State) (n : Fin 2) (x : AuxConv) : (s.setConv n x).capt = s.capt := rfl
@[simp] theorem State.setConv_badPar (s : State) (n : Fin 2) (x : AuxConv) : (s.setConv n x).badPar = s.badPar := rfl
@[simp] theorem State.setConv_badEcc (s : State) (n : Fin 2) (x : AuxConv) : (s.setConv n x).badEcc = s.badEcc := rfl
@[simp] theorem State.setConv_sram (s : State) (n : Fin 2) (x : AuxConv) : (s.setConv n x).sram = s.sram := rfl
@[simp] theorem State.setConv_fram (s : State) (n : Fin 2) (x : AuxConv) : (s.setConv n x).fram = s.fram := rfl
@[simp] theorem State.setConv_clk (s : State) (n : Fin 2) (x : AuxConv) : (s.setConv n x).clk = s.clk := rfl
@[simp] theorem State.setConv_rails (s : State) (n : Fin 2) (x : AuxConv) : (s.setConv n x).rails = s.rails := rfl
@[simp] theorem State.setConv_sys (s : State) (n : Fin 2) (x : AuxConv) : (s.setConv n x).sys = s.sys := rfl
@[simp] theorem State.setConv_alive (s : State) (n : Fin 2) (x : AuxConv) : (s.setConv n x).alive = s.alive := rfl
@[simp] theorem State.setConv_unlock (s : State) (n : Fin 2) (x : AuxConv) : (s.setConv n x).unlock = s.unlock := rfl
@[simp] theorem State.setConv_pads (s : State) (n : Fin 2) (x : AuxConv) : (s.setConv n x).pads = s.pads := rfl
@[simp] theorem State.setConv_boot (s : State) (n : Fin 2) (x : AuxConv) : (s.setConv n x).boot = s.boot := rfl
@[simp] theorem State.setConv_flt (s : State) (n : Fin 2) (x : AuxConv) : (s.setConv n x).flt = s.flt := rfl
@[simp] theorem State.setConv_xd (s : State) (n : Fin 2) (x : AuxConv) : (s.setConv n x).xd = s.xd := rfl
@[simp] theorem State.setConv_safe (s : State) (n : Fin 2) (x : AuxConv) : (s.setConv n x).safe = s.safe := rfl
@[simp] theorem State.setConv_sdm (s : State) (n : Fin 2) (x : AuxConv) : (s.setConv n x).sdm = s.sdm := rfl
@[simp] theorem State.setConv_que (s : State) (n : Fin 2) (x : AuxConv) : (s.setConv n x).que = s.que := rfl
@[simp] theorem State.setConv_resp (s : State) (n : Fin 2) (x : AuxConv) : (s.setConv n x).resp = s.resp := rfl
@[simp] theorem State.setConv_wst (s : State) (n : Fin 2) (x : AuxConv) : (s.setConv n x).wst = s.wst := rfl
@[simp] theorem State.setConv_pwr (s : State) (n : Fin 2) (x : AuxConv) : (s.setConv n x).pwr = s.pwr := rfl
@[simp] theorem State.setConv_exc (s : State) (n : Fin 2) (x : AuxConv) : (s.setConv n x).exc = s.exc := rfl
@[simp] theorem State.setConv_vexcMv (s : State) (n : Fin 2) (x : AuxConv) : (s.setConv n x).vexcMv = s.vexcMv := rfl
@[simp] theorem State.setConv_pch (s : State) (n : Fin 2) (x : AuxConv) : (s.setConv n x).pch = s.pch := rfl
@[simp] theorem State.setConv_scl (s : State) (n : Fin 2) (x : AuxConv) : (s.setConv n x).scl = s.scl := rfl
@[simp] theorem State.setConv_sclH (s : State) (n : Fin 2) (x : AuxConv) : (s.setConv n x).sclH = s.sclH := rfl
@[simp] theorem State.setConv_dch (s : State) (n : Fin 2) (x : AuxConv) : (s.setConv n x).dch = s.dch := rfl
@[simp] theorem State.setConv_gen (s : State) (n : Fin 2) (x : AuxConv) : (s.setConv n x).gen = s.gen := rfl
@[simp] theorem State.setConv_enc (s : State) (n : Fin 2) (x : AuxConv) : (s.setConv n x).enc = s.enc := rfl
@[simp] theorem State.setConv_aev (s : State) (n : Fin 2) (x : AuxConv) : (s.setConv n x).aev = s.aev := rfl
@[simp] theorem State.setConv_crz (s : State) (n : Fin 2) (x : AuxConv) : (s.setConv n x).crz = s.crz := rfl
@[simp] theorem State.setConv_tim (s : State) (n : Fin 2) (x : AuxConv) : (s.setConv n x).tim = s.tim := rfl
@[simp] theorem State.setConv_net (s : State) (n : Fin 2) (x : AuxConv) : (s.setConv n x).net = s.net := rfl
@[simp] theorem State.setConv_frec (s : State) (n : Fin 2) (x : AuxConv) : (s.setConv n x).frec = s.frec := rfl
@[simp] theorem State.setConv_tap (s : State) (n : Fin 2) (x : AuxConv) : (s.setConv n x).tap = s.tap := rfl
@[simp] theorem State.setConv_get (s : State) (n : Fin 2) (x : AuxConv) : (s.setConv n x).aux.conv[n] = x := vset_same _ _ _
theorem State.setConv_get_other (s : State) (n : Fin 2) (x : AuxConv) (j : Fin 2) (h : j ≠ n) : (s.setConv n x).aux.conv[j] = s.aux.conv[j] := vset_other _ _ _ _ h

/-! ## setPort -/

@[simp] theorem State.setPort_pending (s : State) (n : Fin 2) (x : Port) : (s.setPort n x).pending = s.pending := rfl
@[simp] theorem State.setPort_qb (s : State) (n : Fin 2) (x : Port) : (s.setPort n x).qb = s.qb := rfl
@[simp] theorem State.setPort_free (s : State) (n : Fin 2) (x : Port) : (s.setPort n x).free = s.free := rfl
@[simp] theorem State.setPort_cfg (s : State) (n : Fin 2) (x : Port) : (s.setPort n x).cfg = s.cfg := rfl
@[simp] theorem State.setPort_capt (s : State) (n : Fin 2) (x : Port) : (s.setPort n x).capt = s.capt := rfl
@[simp] theorem State.setPort_badPar (s : State) (n : Fin 2) (x : Port) : (s.setPort n x).badPar = s.badPar := rfl
@[simp] theorem State.setPort_badEcc (s : State) (n : Fin 2) (x : Port) : (s.setPort n x).badEcc = s.badEcc := rfl
@[simp] theorem State.setPort_sram (s : State) (n : Fin 2) (x : Port) : (s.setPort n x).sram = s.sram := rfl
@[simp] theorem State.setPort_fram (s : State) (n : Fin 2) (x : Port) : (s.setPort n x).fram = s.fram := rfl
@[simp] theorem State.setPort_clk (s : State) (n : Fin 2) (x : Port) : (s.setPort n x).clk = s.clk := rfl
@[simp] theorem State.setPort_rails (s : State) (n : Fin 2) (x : Port) : (s.setPort n x).rails = s.rails := rfl
@[simp] theorem State.setPort_sys (s : State) (n : Fin 2) (x : Port) : (s.setPort n x).sys = s.sys := rfl
@[simp] theorem State.setPort_alive (s : State) (n : Fin 2) (x : Port) : (s.setPort n x).alive = s.alive := rfl
@[simp] theorem State.setPort_unlock (s : State) (n : Fin 2) (x : Port) : (s.setPort n x).unlock = s.unlock := rfl
@[simp] theorem State.setPort_pads (s : State) (n : Fin 2) (x : Port) : (s.setPort n x).pads = s.pads := rfl
@[simp] theorem State.setPort_boot (s : State) (n : Fin 2) (x : Port) : (s.setPort n x).boot = s.boot := rfl
@[simp] theorem State.setPort_flt (s : State) (n : Fin 2) (x : Port) : (s.setPort n x).flt = s.flt := rfl
@[simp] theorem State.setPort_xd (s : State) (n : Fin 2) (x : Port) : (s.setPort n x).xd = s.xd := rfl
@[simp] theorem State.setPort_safe (s : State) (n : Fin 2) (x : Port) : (s.setPort n x).safe = s.safe := rfl
@[simp] theorem State.setPort_sdm (s : State) (n : Fin 2) (x : Port) : (s.setPort n x).sdm = s.sdm := rfl
@[simp] theorem State.setPort_que (s : State) (n : Fin 2) (x : Port) : (s.setPort n x).que = s.que := rfl
@[simp] theorem State.setPort_resp (s : State) (n : Fin 2) (x : Port) : (s.setPort n x).resp = s.resp := rfl
@[simp] theorem State.setPort_wst (s : State) (n : Fin 2) (x : Port) : (s.setPort n x).wst = s.wst := rfl
@[simp] theorem State.setPort_pwr (s : State) (n : Fin 2) (x : Port) : (s.setPort n x).pwr = s.pwr := rfl
@[simp] theorem State.setPort_exc (s : State) (n : Fin 2) (x : Port) : (s.setPort n x).exc = s.exc := rfl
@[simp] theorem State.setPort_vexcMv (s : State) (n : Fin 2) (x : Port) : (s.setPort n x).vexcMv = s.vexcMv := rfl
@[simp] theorem State.setPort_pch (s : State) (n : Fin 2) (x : Port) : (s.setPort n x).pch = s.pch := rfl
@[simp] theorem State.setPort_scl (s : State) (n : Fin 2) (x : Port) : (s.setPort n x).scl = s.scl := rfl
@[simp] theorem State.setPort_sclH (s : State) (n : Fin 2) (x : Port) : (s.setPort n x).sclH = s.sclH := rfl
@[simp] theorem State.setPort_dch (s : State) (n : Fin 2) (x : Port) : (s.setPort n x).dch = s.dch := rfl
@[simp] theorem State.setPort_gen (s : State) (n : Fin 2) (x : Port) : (s.setPort n x).gen = s.gen := rfl
@[simp] theorem State.setPort_enc (s : State) (n : Fin 2) (x : Port) : (s.setPort n x).enc = s.enc := rfl
@[simp] theorem State.setPort_aev (s : State) (n : Fin 2) (x : Port) : (s.setPort n x).aev = s.aev := rfl
@[simp] theorem State.setPort_aux (s : State) (n : Fin 2) (x : Port) : (s.setPort n x).aux = s.aux := rfl
@[simp] theorem State.setPort_crz (s : State) (n : Fin 2) (x : Port) : (s.setPort n x).crz = s.crz := rfl
@[simp] theorem State.setPort_tim (s : State) (n : Fin 2) (x : Port) : (s.setPort n x).tim = s.tim := rfl
@[simp] theorem State.setPort_frec (s : State) (n : Fin 2) (x : Port) : (s.setPort n x).frec = s.frec := rfl
@[simp] theorem State.setPort_tap (s : State) (n : Fin 2) (x : Port) : (s.setPort n x).tap = s.tap := rfl
@[simp] theorem State.setPort_get (s : State) (n : Fin 2) (x : Port) : (s.setPort n x).net.port[n] = x := vset_same _ _ _
theorem State.setPort_get_other (s : State) (n : Fin 2) (x : Port) (j : Fin 2) (h : j ≠ n) : (s.setPort n x).net.port[j] = s.net.port[j] := vset_other _ _ _ _ h

/-! ## setFrec -/

@[simp] theorem State.setFrec_pending (s : State) (n : Fin 8) (x : Frec) : (s.setFrec n x).pending = s.pending := rfl
@[simp] theorem State.setFrec_qb (s : State) (n : Fin 8) (x : Frec) : (s.setFrec n x).qb = s.qb := rfl
@[simp] theorem State.setFrec_free (s : State) (n : Fin 8) (x : Frec) : (s.setFrec n x).free = s.free := rfl
@[simp] theorem State.setFrec_cfg (s : State) (n : Fin 8) (x : Frec) : (s.setFrec n x).cfg = s.cfg := rfl
@[simp] theorem State.setFrec_capt (s : State) (n : Fin 8) (x : Frec) : (s.setFrec n x).capt = s.capt := rfl
@[simp] theorem State.setFrec_badPar (s : State) (n : Fin 8) (x : Frec) : (s.setFrec n x).badPar = s.badPar := rfl
@[simp] theorem State.setFrec_badEcc (s : State) (n : Fin 8) (x : Frec) : (s.setFrec n x).badEcc = s.badEcc := rfl
@[simp] theorem State.setFrec_sram (s : State) (n : Fin 8) (x : Frec) : (s.setFrec n x).sram = s.sram := rfl
@[simp] theorem State.setFrec_fram (s : State) (n : Fin 8) (x : Frec) : (s.setFrec n x).fram = s.fram := rfl
@[simp] theorem State.setFrec_clk (s : State) (n : Fin 8) (x : Frec) : (s.setFrec n x).clk = s.clk := rfl
@[simp] theorem State.setFrec_rails (s : State) (n : Fin 8) (x : Frec) : (s.setFrec n x).rails = s.rails := rfl
@[simp] theorem State.setFrec_sys (s : State) (n : Fin 8) (x : Frec) : (s.setFrec n x).sys = s.sys := rfl
@[simp] theorem State.setFrec_alive (s : State) (n : Fin 8) (x : Frec) : (s.setFrec n x).alive = s.alive := rfl
@[simp] theorem State.setFrec_unlock (s : State) (n : Fin 8) (x : Frec) : (s.setFrec n x).unlock = s.unlock := rfl
@[simp] theorem State.setFrec_pads (s : State) (n : Fin 8) (x : Frec) : (s.setFrec n x).pads = s.pads := rfl
@[simp] theorem State.setFrec_boot (s : State) (n : Fin 8) (x : Frec) : (s.setFrec n x).boot = s.boot := rfl
@[simp] theorem State.setFrec_flt (s : State) (n : Fin 8) (x : Frec) : (s.setFrec n x).flt = s.flt := rfl
@[simp] theorem State.setFrec_xd (s : State) (n : Fin 8) (x : Frec) : (s.setFrec n x).xd = s.xd := rfl
@[simp] theorem State.setFrec_safe (s : State) (n : Fin 8) (x : Frec) : (s.setFrec n x).safe = s.safe := rfl
@[simp] theorem State.setFrec_sdm (s : State) (n : Fin 8) (x : Frec) : (s.setFrec n x).sdm = s.sdm := rfl
@[simp] theorem State.setFrec_que (s : State) (n : Fin 8) (x : Frec) : (s.setFrec n x).que = s.que := rfl
@[simp] theorem State.setFrec_resp (s : State) (n : Fin 8) (x : Frec) : (s.setFrec n x).resp = s.resp := rfl
@[simp] theorem State.setFrec_wst (s : State) (n : Fin 8) (x : Frec) : (s.setFrec n x).wst = s.wst := rfl
@[simp] theorem State.setFrec_pwr (s : State) (n : Fin 8) (x : Frec) : (s.setFrec n x).pwr = s.pwr := rfl
@[simp] theorem State.setFrec_exc (s : State) (n : Fin 8) (x : Frec) : (s.setFrec n x).exc = s.exc := rfl
@[simp] theorem State.setFrec_vexcMv (s : State) (n : Fin 8) (x : Frec) : (s.setFrec n x).vexcMv = s.vexcMv := rfl
@[simp] theorem State.setFrec_pch (s : State) (n : Fin 8) (x : Frec) : (s.setFrec n x).pch = s.pch := rfl
@[simp] theorem State.setFrec_scl (s : State) (n : Fin 8) (x : Frec) : (s.setFrec n x).scl = s.scl := rfl
@[simp] theorem State.setFrec_sclH (s : State) (n : Fin 8) (x : Frec) : (s.setFrec n x).sclH = s.sclH := rfl
@[simp] theorem State.setFrec_dch (s : State) (n : Fin 8) (x : Frec) : (s.setFrec n x).dch = s.dch := rfl
@[simp] theorem State.setFrec_gen (s : State) (n : Fin 8) (x : Frec) : (s.setFrec n x).gen = s.gen := rfl
@[simp] theorem State.setFrec_enc (s : State) (n : Fin 8) (x : Frec) : (s.setFrec n x).enc = s.enc := rfl
@[simp] theorem State.setFrec_aev (s : State) (n : Fin 8) (x : Frec) : (s.setFrec n x).aev = s.aev := rfl
@[simp] theorem State.setFrec_aux (s : State) (n : Fin 8) (x : Frec) : (s.setFrec n x).aux = s.aux := rfl
@[simp] theorem State.setFrec_crz (s : State) (n : Fin 8) (x : Frec) : (s.setFrec n x).crz = s.crz := rfl
@[simp] theorem State.setFrec_tim (s : State) (n : Fin 8) (x : Frec) : (s.setFrec n x).tim = s.tim := rfl
@[simp] theorem State.setFrec_net (s : State) (n : Fin 8) (x : Frec) : (s.setFrec n x).net = s.net := rfl
@[simp] theorem State.setFrec_tap (s : State) (n : Fin 8) (x : Frec) : (s.setFrec n x).tap = s.tap := rfl
@[simp] theorem State.setFrec_get (s : State) (n : Fin 8) (x : Frec) : (s.setFrec n x).frec[n] = x := vset_same _ _ _
theorem State.setFrec_get_other (s : State) (n : Fin 8) (x : Frec) (j : Fin 8) (h : j ≠ n) : (s.setFrec n x).frec[j] = s.frec[j] := vset_other _ _ _ _ h

/-! ## setIn -/

@[simp] theorem State.setIn_pending (s : State) (h : Half) (n : Fin 8) (x : SdmIn) : (s.setIn h n x).pending = s.pending := rfl
@[simp] theorem State.setIn_qb (s : State) (h : Half) (n : Fin 8) (x : SdmIn) : (s.setIn h n x).qb = s.qb := rfl
@[simp] theorem State.setIn_free (s : State) (h : Half) (n : Fin 8) (x : SdmIn) : (s.setIn h n x).free = s.free := rfl
@[simp] theorem State.setIn_cfg (s : State) (h : Half) (n : Fin 8) (x : SdmIn) : (s.setIn h n x).cfg = s.cfg := rfl
@[simp] theorem State.setIn_capt (s : State) (h : Half) (n : Fin 8) (x : SdmIn) : (s.setIn h n x).capt = s.capt := rfl
@[simp] theorem State.setIn_badPar (s : State) (h : Half) (n : Fin 8) (x : SdmIn) : (s.setIn h n x).badPar = s.badPar := rfl
@[simp] theorem State.setIn_badEcc (s : State) (h : Half) (n : Fin 8) (x : SdmIn) : (s.setIn h n x).badEcc = s.badEcc := rfl
@[simp] theorem State.setIn_sram (s : State) (h : Half) (n : Fin 8) (x : SdmIn) : (s.setIn h n x).sram = s.sram := rfl
@[simp] theorem State.setIn_fram (s : State) (h : Half) (n : Fin 8) (x : SdmIn) : (s.setIn h n x).fram = s.fram := rfl
@[simp] theorem State.setIn_clk (s : State) (h : Half) (n : Fin 8) (x : SdmIn) : (s.setIn h n x).clk = s.clk := rfl
@[simp] theorem State.setIn_rails (s : State) (h : Half) (n : Fin 8) (x : SdmIn) : (s.setIn h n x).rails = s.rails := rfl
@[simp] theorem State.setIn_sys (s : State) (h : Half) (n : Fin 8) (x : SdmIn) : (s.setIn h n x).sys = s.sys := rfl
@[simp] theorem State.setIn_alive (s : State) (h : Half) (n : Fin 8) (x : SdmIn) : (s.setIn h n x).alive = s.alive := rfl
@[simp] theorem State.setIn_unlock (s : State) (h : Half) (n : Fin 8) (x : SdmIn) : (s.setIn h n x).unlock = s.unlock := rfl
@[simp] theorem State.setIn_pads (s : State) (h : Half) (n : Fin 8) (x : SdmIn) : (s.setIn h n x).pads = s.pads := rfl
@[simp] theorem State.setIn_boot (s : State) (h : Half) (n : Fin 8) (x : SdmIn) : (s.setIn h n x).boot = s.boot := rfl
@[simp] theorem State.setIn_flt (s : State) (h : Half) (n : Fin 8) (x : SdmIn) : (s.setIn h n x).flt = s.flt := rfl
@[simp] theorem State.setIn_xd (s : State) (h : Half) (n : Fin 8) (x : SdmIn) : (s.setIn h n x).xd = s.xd := rfl
@[simp] theorem State.setIn_safe (s : State) (h : Half) (n : Fin 8) (x : SdmIn) : (s.setIn h n x).safe = s.safe := rfl
@[simp] theorem State.setIn_que (s : State) (h : Half) (n : Fin 8) (x : SdmIn) : (s.setIn h n x).que = s.que := rfl
@[simp] theorem State.setIn_resp (s : State) (h : Half) (n : Fin 8) (x : SdmIn) : (s.setIn h n x).resp = s.resp := rfl
@[simp] theorem State.setIn_wst (s : State) (h : Half) (n : Fin 8) (x : SdmIn) : (s.setIn h n x).wst = s.wst := rfl
@[simp] theorem State.setIn_pwr (s : State) (h : Half) (n : Fin 8) (x : SdmIn) : (s.setIn h n x).pwr = s.pwr := rfl
@[simp] theorem State.setIn_exc (s : State) (h : Half) (n : Fin 8) (x : SdmIn) : (s.setIn h n x).exc = s.exc := rfl
@[simp] theorem State.setIn_vexcMv (s : State) (h : Half) (n : Fin 8) (x : SdmIn) : (s.setIn h n x).vexcMv = s.vexcMv := rfl
@[simp] theorem State.setIn_pch (s : State) (h : Half) (n : Fin 8) (x : SdmIn) : (s.setIn h n x).pch = s.pch := rfl
@[simp] theorem State.setIn_scl (s : State) (h : Half) (n : Fin 8) (x : SdmIn) : (s.setIn h n x).scl = s.scl := rfl
@[simp] theorem State.setIn_sclH (s : State) (h : Half) (n : Fin 8) (x : SdmIn) : (s.setIn h n x).sclH = s.sclH := rfl
@[simp] theorem State.setIn_dch (s : State) (h : Half) (n : Fin 8) (x : SdmIn) : (s.setIn h n x).dch = s.dch := rfl
@[simp] theorem State.setIn_gen (s : State) (h : Half) (n : Fin 8) (x : SdmIn) : (s.setIn h n x).gen = s.gen := rfl
@[simp] theorem State.setIn_enc (s : State) (h : Half) (n : Fin 8) (x : SdmIn) : (s.setIn h n x).enc = s.enc := rfl
@[simp] theorem State.setIn_aev (s : State) (h : Half) (n : Fin 8) (x : SdmIn) : (s.setIn h n x).aev = s.aev := rfl
@[simp] theorem State.setIn_aux (s : State) (h : Half) (n : Fin 8) (x : SdmIn) : (s.setIn h n x).aux = s.aux := rfl
@[simp] theorem State.setIn_crz (s : State) (h : Half) (n : Fin 8) (x : SdmIn) : (s.setIn h n x).crz = s.crz := rfl
@[simp] theorem State.setIn_tim (s : State) (h : Half) (n : Fin 8) (x : SdmIn) : (s.setIn h n x).tim = s.tim := rfl
@[simp] theorem State.setIn_net (s : State) (h : Half) (n : Fin 8) (x : SdmIn) : (s.setIn h n x).net = s.net := rfl
@[simp] theorem State.setIn_frec (s : State) (h : Half) (n : Fin 8) (x : SdmIn) : (s.setIn h n x).frec = s.frec := rfl
@[simp] theorem State.setIn_tap (s : State) (h : Half) (n : Fin 8) (x : SdmIn) : (s.setIn h n x).tap = s.tap := rfl

end Sys2Proof.Machine
end

