-- ==== Sys2Proof/Laws/Report.lean ====
section
/-! SUPPORT. What a fault, its report and its reaction leave alone: everything but what `State.quiet` blanks; and the live
bit that a condition leaves. -/

namespace Sys2Proof.Machine

@[simp] theorem vset_map {α β : Type} {n : Nat} (f : α → β) (v : Vector α n) (i : Fin n) (a : α) (h : f a = f v[i]) :
    (vset v i a).map f = v.map f := by
  ext j hj
  simp only [Vector.getElem_map, vset, Vector.getElem_set]
  split
  · rename_i e
    subst e
    exact h
  · rfl

@[simp] theorem State.updHdr_quiet (s : State) (p : Page) (f : FaultHdr → FaultHdr) : (s.updHdr p f).quiet = s.quiet := rfl

@[simp] theorem State.noteHeld_quiet (s : State) (p : Page) (b : Nat) : (s.noteHeld p b).quiet = s.quiet := rfl

@[simp] theorem State.voteAll_quiet (s : State) : s.voteAll.quiet = s.quiet := rfl

@[simp] theorem State.reform_quiet (s : State) : s.reform.quiet = s.quiet := rfl

theorem State.xd_quiet (s : State) (d : Drive) (x : XDrive) (h : x.quiet = (s.xd[d]).quiet) :
    State.quiet { s with xd := vset s.xd d x } = s.quiet := by
  have := vset_map XDrive.quiet s.xd d x h
  unfold State.quiet
  dsimp only
  rw [this]

@[simp] theorem State.setSsl_quiet (s : State) (d : Drive) : (s.setSsl d).quiet = s.quiet := by
  have h (v : Vector SafeDrive 2) : State.quiet { s with safe := v } = s.quiet := rfl
  unfold State.setSsl State.setSslAt
  dsimp only
  rw [State.reform_quiet]
  split
  · refine (State.xd_quiet _ d _ ?_).trans (h _)
    rfl
  · exact h _

@[simp] theorem State.askHandover_quiet (s : State) (d : Drive) (h : Half) (p : Page) (b : Nat) :
    (s.askHandover d h p b).quiet = s.quiet := by
  unfold State.askHandover
  dsimp only
  split
  · rfl
  · exact State.xd_quiet s d _ rfl

@[simp] theorem State.reactHo_quiet (s : State) (d : Drive) (h : Half) (p : Page) (b : Nat) :
    (s.reactHo d h p b).quiet = s.quiet := by
  unfold State.reactHo
  (repeat' split) <;> simp
  exact State.xd_quiet s d _ rfl

@[simp] theorem State.reactDev_quiet (s : State) : s.reactDev.quiet = s.quiet := by
  have h (v : Vector XDrive 2) (b : Two Bool) (e : v.map XDrive.quiet = s.xd.map XDrive.quiet) :
      State.quiet { s with xd := v, sdm := { s.sdm with dis := b } } = s.quiet := by
    unfold State.quiet
    dsimp only
    rw [e]
  unfold State.reactDev
  dsimp only
  rw [State.setSsl_quiet, State.setSsl_quiet]
  split
  · apply h
    ext j hj
    simp [XDrive.quiet]
  · refine h _ s.sdm.dis ?_
    ext j hj
    simp [XDrive.quiet]

@[simp] theorem State.react_quiet (s : State) (p : Page) (b : Nat) (r : Nat) (aff : Drive → Bool) :
    (s.react p b r aff).quiet = s.quiet := by
  unfold State.react
  dsimp only
  (repeat' split) <;> simp

@[simp] theorem State.fltTriggers_quiet (s : State) (r : Nat) : (s.fltTriggers r).quiet = s.quiet := by
  have h (v : Vector Frec 8) (e : v.map Frec.quiet = s.frec.map Frec.quiet) :
      State.quiet { s with frec := v } = s.quiet := by
    unfold State.quiet
    dsimp only
    rw [e]
  unfold State.fltTriggers
  apply h
  ext j hj
  · simp only [Vector.getElem_map]
    split
    · unfold Frec.offer Frec.quiet
      (repeat' split) <;> rfl
    · rfl

theorem State.q_quiet (s : State) (i : Fin 64) (q : Queue) (n : Nat) (h : q.quiet = (s.que.q[i]).quiet) :
    State.quiet { s with que := { s.que with q := vset s.que.q i q, offers := n } } = s.quiet := by
  have := vset_map Queue.quiet s.que.q i q h
  unfold State.quiet
  dsimp only
  rw [this]

theorem Queue.number_quiet (q : Queue) (src t : Nat) : (q.number src t).2.quiet = q.quiet := rfl

theorem Queue.enter_quiet (q : Queue) (x : Staged) : (q.enter x).quiet = q.quiet := by
  unfold Queue.enter Queue.quiet Queue.dropOne
  dsimp only
  split <;> dsimp only

theorem Queue.takeBack_quiet (q : Queue) (t : Nat) (c : Word) (w : Bool) : (q.takeBack t c w).quiet = q.quiet := by
  have h (n d : Nat) (e : Bool) (l : List Staged) (k : List Nat) :
      Queue.quiet { q with nseq := n, drop := d, dropEv := e, staged := l, same := k } = q.quiet := rfl
  unfold Queue.takeBack
  extract_lets q1 hit n
  cases List.find? hit q1.staged
  · exact h n _ w q.staged _
  · exact h n q.drop q.dropEv _ _

@[simp] theorem State.offerRaw_quiet (s : State) (i : Fin 64) (src : Nat) (payload : List Byte) :
    (s.offerRaw i src payload).quiet = s.quiet := by
  unfold State.offerRaw
  dsimp only
  apply State.q_quiet
  split
  · exact Queue.number_quiet _ src s.clk.cyc
  · exact (Queue.enter_quiet _ _).trans (Queue.number_quiet _ _ _)

@[simp] theorem State.settle_quiet (s : State) (i : Fin 64) : (s.settle i).quiet = s.quiet := by
  have h := State.q_quiet s i { s.que.q[i] with intWas := s.queInt i } s.que.offers rfl
  unfold State.settle
  dsimp only
  split
  · rw [State.offerRaw_quiet]; exact h
  · exact h

@[simp] theorem State.offer_quiet (s : State) (i : Fin 64) (src : Nat) (payload : List Byte) :
    (s.offer i src payload).quiet = s.quiet := by
  unfold State.offer
  simp

@[simp] theorem State.yieldBlaze_quiet (s : State) (p : Page) (r : Report) : (s.yieldBlaze p r).quiet = s.quiet := by
  have h (q : Queue) (e : q.quiet = (s.que.q[faultQueue p]).quiet) :
      State.quiet { s with que := { s.que with q := vset s.que.q (faultQueue p) q } } = s.quiet :=
    State.q_quiet s (faultQueue p) q s.que.offers e
  unfold State.yieldBlaze
  dsimp only
  (repeat' split)
  · exact h _ (Queue.takeBack_quiet _ _ _ _)
  · exact h _ rfl
  · rfl

@[simp] theorem State.flash_quiet (s : State) (p : Page) (b : Nat) : (s.flash p b).quiet = s.quiet := rfl

@[simp] theorem State.fileReport_quiet (s : State) (p : Page) (r : Report) : (s.fileReport p r).quiet = s.quiet := by
  unfold State.fileReport
  dsimp only
  split <;> simp

@[simp] theorem State.report_quiet (s : State) (p : Page) (b : Nat) (c : Copy) (m : Master) :
    (s.report p b c m).quiet = s.quiet := by
  have h (v : Word) : State.quiet { s with boot := { s.boot with bistTaint := v } } = s.quiet := rfl
  unfold State.report
  dsimp only
  split
  · rfl
  · split <;> simp [h]

@[simp] theorem State.event_quiet (s : State) (p : Page) (b : Nat) (c : Copy) : (s.event p b c).quiet = s.quiet := by
  unfold State.event
  (repeat' split) <;> simp

@[simp] theorem State.cond_quiet (s : State) (p : Page) (b : Nat) (c : Copy) (v : Bool) :
    (s.cond p b c v).quiet = s.quiet := by
  unfold State.cond
  (repeat' split) <;> simp

@[simp] theorem State.checkerErr_quiet (s : State) (p : Page) (n : Nat) (uncorr : Bool) :
    (s.checkerErr p n uncorr).quiet = s.quiet := by
  unfold State.checkerErr
  dsimp only
  split <;> simp

@[simp] theorem State.fabReport_quiet (s : State) (b : Nat) (m : Master) (addr : Nat) (wr : Bool) :
    (s.fabReport b m addr wr).quiet = s.quiet := by
  unfold State.fabReport
  simp

/-! ## Live bits -/

theorem bput_get {n : Nat} (x : BitVec n) (i : Nat) (v : Bool) (h : i < n) : (bput x i v).getLsbD i = v := by
  have e : (BitVec.ofNat n (2 ^ i)).getLsbD i = true := by
    rw [BitVec.getLsbD_ofNat, Nat.testBit_two_pow_self]
    simpa using h
  unfold bput
  cases v
  · rw [if_neg Bool.false_ne_true, BitVec.getLsbD_and, BitVec.getLsbD_not, e]
    simp
  · rw [if_pos rfl, BitVec.getLsbD_or, e, Bool.or_true]

theorem FaultHdr.setBit_live (f : FaultHdr) (c : Copy) (b : Nat) (raw live : Bool) (h : b < 32) :
    ((f.setBit c b raw live).liveOf c).getLsbD b = live := by
  cases c <;> exact bput_get _ _ _ h

theorem State.updHdr_hdr (s : State) (p : Page) (f : FaultHdr → FaultHdr) : (s.updHdr p f).hdr p = f (s.hdr p) := by
  simp [State.updHdr, State.hdr, vupd, vset]

/-- Two states whose headers hold the same conditions and live bits. -/
def State.SameLive (s t : State) : Prop := ∀ q c, ((t.hdr q).liveOf c) = ((s.hdr q).liveOf c)

theorem State.SameLive.trans {s t u : State} (h : s.SameLive t) (k : t.SameLive u) : s.SameLive u :=
  fun q c => (k q c).trans (h q c)

theorem State.SameLive.of_flt {s t : State} (h : t.flt = s.flt) : s.SameLive t := fun q c => by
  unfold State.hdr
  rw [h]

theorem State.updHdr_sameLive (s : State) (p : Page) (f : FaultHdr → FaultHdr)
    (h : ∀ x c, (f x).liveOf c = x.liveOf c) : s.SameLive (s.updHdr p f) := by
  intro q c
  unfold State.hdr State.updHdr vupd
  dsimp only
  by_cases e : q.idx = p.idx
  · have hq : (vset s.flt p.idx (f s.flt[p.idx]))[q.idx] = f s.flt[q.idx] := by
      simp only [e]
      exact vset_same _ _ _
    rw [hq]
    exact h _ c
  · rw [vset_other _ _ _ _ e]

theorem State.offerRaw_flt (s : State) (i : Fin 64) (src : Nat) (l : List Byte) : (s.offerRaw i src l).flt = s.flt := rfl

theorem State.offer_flt (s : State) (i : Fin 64) (src : Nat) (l : List Byte) : (s.offer i src l).flt = s.flt := by
  unfold State.offer State.settle
  dsimp only
  split <;> rfl

theorem State.react_sameLive (s : State) (p : Page) (b r : Nat) (aff : Drive → Bool) : s.SameLive (s.react p b r aff) := by
  have ho (t : State) (d : Drive) (h : Half) : (t.reactHo d h p b).flt = t.flt := by
    unfold State.reactHo State.askHandover
    dsimp only
    (repeat' split) <;> simp
  have hd : s.reactDev.flt = s.flt := by
    unfold State.reactDev
    dsimp only
    split <;> simp
  have key (u : State) (hu : u.flt = s.flt) : s.SameLive (if s.taken p b r aff = 0 then u else
      u.updHdr p fun f => { f with busyUntil := max f.busyUntil (s.clk.cyc + 2000) }) := by
    split
    · exact State.SameLive.of_flt hu
    · exact (State.SameLive.of_flt hu).trans (State.updHdr_sameLive _ _ _ fun x c => by cases c <;> rfl)
  unfold State.react
  dsimp only
  split
  · exact State.SameLive.of_flt rfl
  · refine key _ ?_
    (repeat' split) <;> simp [ho, hd]

theorem State.yieldBlaze_flt (s : State) (p : Page) (r : Report) : (s.yieldBlaze p r).flt = s.flt := by
  unfold State.yieldBlaze
  dsimp only
  (repeat' split) <;> rfl

theorem FaultHdr.filed_liveOf (f : FaultHdr) (p : Page) (r : Report) (t : Nat) (n : BitVec 64) (w : Bool) (c : Copy) :
    (f.filed p r t n w).liveOf c = f.liveOf c := by
  unfold FaultHdr.filed FaultHdr.take FaultHdr.counted
  cases c <;> dsimp only [FaultHdr.liveOf] <;> (repeat' split) <;> rfl

theorem FaultHdr.filed_sticky (f : FaultHdr) (p : Page) (r : Report) (t : Nat) (n : BitVec 64) (w : Bool) :
    (f.filed p r t n w).sticky = f.sticky := by
  unfold FaultHdr.filed FaultHdr.take FaultHdr.counted
  dsimp only
  (repeat' split) <;> rfl

theorem State.fileReport_sameLive (s : State) (p : Page) (r : Report) : s.SameLive (s.fileReport p r) := by
  unfold State.fileReport
  dsimp only
  have hf : s.SameLive ((s.fltTriggers r.react).yieldBlaze p r) := State.SameLive.of_flt (State.yieldBlaze_flt _ _ _)
  generalize (s.fltTriggers r.react).yieldBlaze p r = t at hf
  have h := hf.trans (State.updHdr_sameLive t p _ fun x c =>
    FaultHdr.filed_liveOf x p r t.clk.cyc t.now (t.que.q[faultQueue p]).dropEv c)
  split
  · exact h.trans (State.SameLive.of_flt (State.offer_flt _ _ _ _))
  · exact h

theorem State.report_sameLive (s : State) (p : Page) (b : Nat) (c : Copy) (m : Master) : s.SameLive (s.report p b c m) := by
  unfold State.report
  split
  · exact State.SameLive.of_flt rfl
  · dsimp only
    refine State.SameLive.trans ?_ (State.react_sameLive _ _ _ _ _)
    refine State.SameLive.trans ?_ (State.fileReport_sameLive _ _ _)
    refine State.SameLive.trans ?_ (State.updHdr_sameLive _ _ _ fun x c => by cases c <;> rfl)
    apply State.SameLive.of_flt
    split <;> rfl

/-- On a page that reports, outside every hold-off window, a condition leaves its live bit equal to it. -/
theorem State.cond_live (s : State) (p : Page) (b : Nat) (c : Copy) (v : Bool) (hp : s.powered p = true) (hb : b < 32)
    (hh : s.heldOff p b = false) : (((s.cond p b c v).hdr p).liveOf c).getLsbD b = v := by
  unfold State.cond
  rw [hp, hh]
  simp only [Bool.not_true, Bool.false_eq_true, if_false]
  cases v
  · simp only [Bool.not_false, if_true]
    rw [State.updHdr_hdr]
    exact FaultHdr.setBit_live _ _ _ _ _ hb
  · simp only [Bool.not_true, Bool.false_eq_true, if_false]
    (repeat' split)
    · rw [State.updHdr_hdr]
      exact FaultHdr.setBit_live _ _ _ _ _ hb
    · rw [State.updHdr_hdr]
      exact FaultHdr.setBit_live _ _ _ _ _ hb
    · rw [State.report_sameLive, State.updHdr_hdr]
      exact FaultHdr.setBit_live _ _ _ _ _ hb

/-! ## Sticky bits -/

/-- No sticky bit of `s` is lost in `t`. -/
def State.StickyUp (s t : State) : Prop := ∀ q b, s.stickyBit q b = true → t.stickyBit q b = true

theorem State.StickyUp.refl (s : State) : s.StickyUp s := fun _ _ h => h

theorem State.StickyUp.trans {s t u : State} (h : s.StickyUp t) (k : t.StickyUp u) : s.StickyUp u :=
  fun q b x => k q b (h q b x)

theorem State.StickyUp.of_flt {s t : State} (h : t.flt = s.flt) : s.StickyUp t := fun q b x => by
  unfold State.stickyBit State.hdr at *
  rw [h]
  exact x

theorem State.updHdr_stickyUp (s : State) (p : Page) (f : FaultHdr → FaultHdr)
    (h : ∀ x b, x.sticky.getLsbD b = true → (f x).sticky.getLsbD b = true) : s.StickyUp (s.updHdr p f) := by
  intro q b hb
  unfold State.stickyBit State.hdr State.updHdr vupd at *
  dsimp only
  by_cases e : q.idx = p.idx
  · have hq : (vset s.flt p.idx (f s.flt[p.idx]))[q.idx] = f s.flt[q.idx] := by
      simp only [e]
      exact vset_same _ _ _
    rw [hq]
    exact h _ b hb
  · rw [vset_other _ _ _ _ e]
    exact hb

theorem bput_true {n : Nat} (x : BitVec n) (i b : Nat) (h : x.getLsbD b = true) : (bput x i true).getLsbD b = true := by
  unfold bput
  rw [if_pos rfl, BitVec.getLsbD_or, h, Bool.true_or]

theorem State.react_stickyUp (s : State) (p : Page) (b r : Nat) (aff : Drive → Bool) : s.StickyUp (s.react p b r aff) := by
  have ho (t : State) (d : Drive) (h : Half) : (t.reactHo d h p b).flt = t.flt := by
    unfold State.reactHo State.askHandover
    dsimp only
    (repeat' split) <;> simp
  have hd : s.reactDev.flt = s.flt := by
    unfold State.reactDev
    dsimp only
    split <;> simp
  have key (u : State) (hu : u.flt = s.flt) : s.StickyUp (if s.taken p b r aff = 0 then u else
      u.updHdr p fun f => { f with busyUntil := max f.busyUntil (s.clk.cyc + 2000) }) := by
    split
    · exact State.StickyUp.of_flt hu
    · exact (State.StickyUp.of_flt hu).trans (State.updHdr_stickyUp _ _ _ fun x c h => h)
  unfold State.react
  dsimp only
  split
  · exact State.StickyUp.of_flt rfl
  · refine key _ ?_
    (repeat' split) <;> simp [ho, hd]

theorem State.fileReport_stickyUp (s : State) (p : Page) (r : Report) : s.StickyUp (s.fileReport p r) := by
  unfold State.fileReport
  dsimp only
  have hf : s.StickyUp ((s.fltTriggers r.react).yieldBlaze p r) := State.StickyUp.of_flt (State.yieldBlaze_flt _ _ _)
  generalize (s.fltTriggers r.react).yieldBlaze p r = t at hf
  have h := hf.trans (State.updHdr_stickyUp t p _ fun x c (hx : x.sticky.getLsbD c = true) =>
    (FaultHdr.filed_sticky x p r t.clk.cyc t.now (t.que.q[faultQueue p]).dropEv).symm ▸ hx)
  split
  · exact h.trans (State.StickyUp.of_flt (State.offer_flt _ _ _ _))
  · exact h

theorem State.report_stickyUp (s : State) (p : Page) (b : Nat) (c : Copy) (m : Master) : s.StickyUp (s.report p b c m) := by
  unfold State.report
  split
  · exact State.StickyUp.refl _
  · dsimp only
    refine State.StickyUp.trans ?_ (State.react_stickyUp _ _ _ _ _)
    refine State.StickyUp.trans ?_ (State.fileReport_stickyUp _ _ _)
    refine State.StickyUp.trans ?_ (State.updHdr_stickyUp _ _ _ fun x i h => bput_true _ _ _ h)
    apply State.StickyUp.of_flt
    split <;> rfl

/-- A report sets its sticky bit (R344). -/
theorem State.report_sticky (s : State) (p : Page) (b : Nat) (c : Copy) (m : Master) (hp : s.powered p = true) (hb : b < 32) :
    (s.report p b c m).stickyBit p b = true := by
  unfold State.report
  rw [hp]
  simp only [Bool.not_true, Bool.false_eq_true, if_false]
  refine State.react_stickyUp _ _ _ _ _ _ _ (State.fileReport_stickyUp _ _ _ _ _ ?_)
  unfold State.stickyBit
  rw [State.updHdr_hdr]
  exact bput_get _ _ _ hb

theorem State.event_stickyUp (s : State) (p : Page) (b : Nat) (c : Copy) : s.StickyUp (s.event p b c) := by
  unfold State.event
  split
  · exact State.StickyUp.refl _
  · split
    · exact State.updHdr_stickyUp _ _ _ fun x i h => h
    · have h : s.StickyUp (s.flash p b) := State.updHdr_stickyUp _ _ _ fun x i h => h
      exact h.trans (State.report_stickyUp (s.flash p b) p b c .detector)

theorem State.event_sticky (s : State) (p : Page) (b : Nat) (c : Copy) (h : s.reports p b = true) (hb : b < 32) :
    (s.event p b c).stickyBit p b = true := by
  unfold State.reports at h
  simp only [Bool.and_eq_true, Bool.not_eq_true'] at h
  unfold State.event
  rw [h.1, h.2]
  exact State.report_sticky _ _ _ _ _ h.1 hb

theorem FaultHdr.setBit_sticky (f : FaultHdr) (c : Copy) (b : Nat) (x y : Bool) : (f.setBit c b x y).sticky = f.sticky := by
  cases c <;> rfl

theorem State.cond_stickyUp (s : State) (p : Page) (b : Nat) (c : Copy) (v : Bool) : s.StickyUp (s.cond p b c v) := by
  have h (x y : Bool) : s.StickyUp (s.updHdr p fun f => f.setBit c b x y) :=
    State.updHdr_stickyUp _ _ _ fun f i h => by rw [FaultHdr.setBit_sticky]; exact h
  unfold State.cond
  (repeat' split)
  · exact State.StickyUp.refl _
  · exact h _ _
  · exact h _ _
  · exact (h _ _).trans (State.updHdr_stickyUp _ _ _ fun x i h => h)
  · exact h _ _
  · exact (h _ _).trans (State.report_stickyUp _ _ _ _ _)

theorem State.fabReport_stickyUp (s : State) (b : Nat) (m : Master) (addr : Nat) (wr : Bool) :
    s.StickyUp (s.fabReport b m addr wr) := by
  unfold State.fabReport
  have hf : s.StickyUp (s.flash .fab b) := State.updHdr_stickyUp _ _ _ fun x i h => h
  exact ((hf.trans (State.updHdr_stickyUp _ _ _ fun x i h => bput_true _ _ _ h)).trans (State.fileReport_stickyUp _ _ _)).trans
    (State.react_stickyUp _ _ _ _ _)

theorem State.fabReport_sticky (s : State) (b : Nat) (m : Master) (addr : Nat) (wr : Bool) (hb : b < 32) :
    (s.fabReport b m addr wr).stickyBit .fab b = true := by
  unfold State.fabReport
  refine State.react_stickyUp _ _ _ _ _ _ _ (State.fileReport_stickyUp _ _ _ _ _ ?_)
  unfold State.stickyBit
  rw [State.updHdr_hdr]
  exact bput_get _ _ _ hb

/-! ## Channel loss -/

theorem State.apart_of_quiet {s t : State} (h : t.quiet = s.quiet) : t.apart = s.apart := by
  unfold State.apart
  rw [h]

@[simp] theorem State.cond_apart (s : State) (p : Page) (b : Nat) (c : Copy) (v : Bool) :
    (s.cond p b c v).apart = s.apart := State.apart_of_quiet (by simp)

@[simp] theorem State.event_apart (s : State) (p : Page) (b : Nat) (c : Copy) : (s.event p b c).apart = s.apart :=
  State.apart_of_quiet (by simp)

@[simp] theorem State.setPch_apart (s : State) (n : Fin 8) (x : Pch) : (s.setPch n x).apart = s.apart := rfl

@[simp] theorem State.reform_apart (s : State) : s.reform.apart = s.apart := State.apart_of_quiet (by simp)

@[simp] theorem State.offer_apart (s : State) (i : Fin 64) (src : Nat) (l : List Byte) : (s.offer i src l).apart = s.apart :=
  State.apart_of_quiet (by simp)

@[simp] theorem State.setEnc_apart (s : State) (n : Fin 4) (x : Enc) : (s.setEnc n x).apart = s.apart := rfl

@[simp] theorem State.tallyEvent_apart (s : State) (n : Fin 4) (code : Nat) (j : Int) :
    (s.tallyEvent n code j).apart = s.apart := by
  unfold State.tallyEvent
  simp

@[simp] theorem State.judgeTally_apart (s : State) (n : Fin 4) : (s.judgeTally n).apart = s.apart := by
  unfold State.judgeTally
  dsimp only
  (repeat' split) <;> simp

@[simp] theorem State.encFollow_apart (s : State) (n : Fin 4) : (s.encFollow n).apart = s.apart := by
  unfold State.encFollow
  dsimp only
  (repeat' split) <;> simp

/-- Bringing the encoder outputs up to the instant touches their ledgers only, besides what a report changes. -/
@[simp] theorem State.encFollowAll_apart (s : State) : s.encFollowAll.apart = s.apart := by
  have h (l : List (Fin 4)) (t : State) : (l.foldl State.encFollow t).apart = t.apart := by
    induction l generalizing t with
    | nil => rfl
    | cons n l ih => rw [List.foldl_cons, ih, State.encFollow_apart]
  exact h _ _

@[simp] theorem State.freezeLost_apart (s : State) : s.freezeLost.apart = s.apart := rfl

@[simp] theorem State.setTag_apart (s : State) (n : Fin 8) (tag : BitVec 8) : (s.setTag n tag).apart = s.apart := by
  unfold State.setTag
  generalize hs : (if s.gen.wait.isEmpty then s.encFollowAll else s) = t
  have ht : t.apart = s.apart := by
    rw [← hs]
    split <;> simp
  dsimp only
  rw [← ht]
  split
  · exact (State.freezeLost_apart _).trans rfl
  · rfl

@[simp] theorem State.retag_apart (s : State) (n : Fin 8) : (s.retag n).apart = s.apart := by
  unfold State.retag
  simp

@[simp] theorem State.pcond_apart (s : State) (n : Fin 8) (b : Nat) (v : Bool) : (s.pcond n b v).apart = s.apart := by
  unfold State.pcond
  simp

@[simp] theorem State.lossWindow_apart (s : State) (n : Fin 8) : (s.lossWindow n).apart = s.apart := by
  unfold State.lossWindow
  split <;> rfl

@[simp] theorem State.dropCratio_apart (s : State) (n : Fin 8) : (s.dropCratio n).apart = s.apart := by
  unfold State.dropCratio
  split <;> simp

@[simp] theorem State.declareLoss_apart (s : State) (n : Fin 8) (i : Nat) : (s.declareLoss n i).apart = s.apart := by
  unfold State.declareLoss
  simp

@[simp] theorem State.declareOnce_apart (s : State) (n : Fin 8) (i : Nat) : (s.declareOnce n i).apart = s.apart := by
  unfold State.declareOnce
  dsimp only
  split <;> simp

@[simp] theorem State.causeEnds_apart (s : State) (n : Fin 8) (i : Nat) : (s.causeEnds n i).apart = s.apart := by
  unfold State.causeEnds
  simp

@[simp] theorem State.judgeDrv_apart (s : State) (n : Fin 8) : (s.judgeDrv n).apart = s.apart := by
  unfold State.judgeDrv
  dsimp only
  (repeat' split) <;> simp

/-- What the drivers' faults bring on is confined to the position channels and what a report changes. -/
@[simp] theorem State.judgeDrvAll_apart (s : State) : s.judgeDrvAll.apart = s.apart := by
  have h (l : List (Fin 8)) (t : State) : (l.foldl (fun st n => st.judgeDrv n) t).apart = t.apart := by
    induction l generalizing t with
    | nil => rfl
    | cons n l ih => rw [List.foldl_cons, ih, State.judgeDrv_apart]
  exact h _ _

theorem State.causeEnds_stickyUp (s : State) (n : Fin 8) (i : Nat) : s.StickyUp (s.causeEnds n i) :=
  (State.StickyUp.of_flt (t := s.setPch n _) rfl).trans (State.cond_stickyUp _ _ _ _ _)

theorem State.dropCratio_stickyUp (s : State) (n : Fin 8) : s.StickyUp (s.dropCratio n) := by
  unfold State.dropCratio
  split
  · exact State.StickyUp.refl _
  · exact State.cond_stickyUp _ _ _ _ _

theorem State.declareLoss_stickyUp (s : State) (n : Fin 8) (i : Nat) : s.StickyUp (s.declareLoss n i) := by
  unfold State.declareLoss
  dsimp only
  refine State.StickyUp.trans ?_ (State.dropCratio_stickyUp _ _)
  refine State.StickyUp.trans ?_ (State.cond_stickyUp _ _ _ _ _)
  apply State.StickyUp.of_flt
  show (s.lossWindow n).flt = s.flt
  unfold State.lossWindow
  split <;> rfl

theorem State.judgeDrv_stickyUp (s : State) (n : Fin 8) : s.StickyUp (s.judgeDrv n) := by
  unfold State.judgeDrv
  dsimp only
  have h := State.cond_stickyUp s (.pch n) 8 (pchHalf n.val).copy (s.pchOn n && s.drvBad n)
  (repeat' split)
  · exact h
  · exact h.trans (State.declareLoss_stickyUp _ _ _)
  · exact h.trans (State.causeEnds_stickyUp _ _ _)

theorem State.judgeDrvAll_stickyUp (s : State) : s.StickyUp s.judgeDrvAll := by
  have h (l : List (Fin 8)) (t : State) : t.StickyUp (l.foldl (fun st n => st.judgeDrv n) t) := by
    induction l generalizing t with
    | nil => exact State.StickyUp.refl _
    | cons n l ih => exact (State.judgeDrv_stickyUp t n).trans (ih _)
  exact h _ _

end Sys2Proof.Machine
end

