-- ==== Sys2Proof/WellFormed.lean ====
section
/-! DEFINITION. Which commands are well formed: operands that the outside can present. A meaning is total and also defined on
the others. -/

namespace Sys2Proof

/-- A first march reports each failing cell once (R94). -/
def BistRun.wf (r : BistRun) : Bool := decide r.cells.Nodup

/-- A frame has its 14 bytes of addresses and type, and at most 1,518 bytes without FCS (R386). -/
def frameWf (b : List Byte) : Bool := decide (14 ≤ b.length ∧ b.length ≤ 1518)

/-- LEN + 1 data words (R397). -/
def dataWf (len : BitVec 16) (d : List Word) : Bool := d.length == len.toNat + 1

/-- The command is well formed. -/
def Instr.wf : Instr → Bool
  | .write _ len d _ | .qack _ len d _ | .qpush _ len d _ => dataWf len d
  | .bistPhaseEnd a b c => a.wf && b.wf && c.wf
  | .frameReceive _ b _ | .frameForward _ b _ | .netWake _ b => frameWf b
  | .syncPair i => decide (0 < i.interval)
  | .followUpRelay r => decide (0 < r)
  | .supplyGood _ | .supplyLost _ | .pinReset | .swrstKey | .softwareReset | .internalResetEnd | .vuv _ _
  | .vov _ _ | .refLoss _ | .refFreq _ _ | .tclkFreq _ _ | .tpllUnlock | .spllUnlock | .rcFail _ _ _
  | .regUv _ _ | .regOv _ _ | .cpmFail _ _ | .avsEval _ | .rtcXtal | .rtcXtalRestore | .headerReadDone
  | .bodyReadDone | .sramInitDone | .regWriteRecord | .regMaskRecord | .regSeqRecord | .sramLoadRecord
  | .sramFillRecord | .authInitRecord | .endRecord | .convCalDone _ _ _ | .storeKey | .calStoreDone _ _
  | .dlKeyApply | .dlKeyProgram | .framProgDone _ | .excEnable _ | .excDisable _ | .excRestart _
  | .excFreqWrite _ _ | .excPhaseWrite _ _ | .excAmpWrite _ _ | .excModeWrite _ _ | .carrierZeroCrossing _ _
  | .excSettleEnd _ | .excRampEnd _ | .oc _ | .openLoad _ | .imbal _ | .ots _ _ | .regSat _ | .pchEnable _
  | .pchDisable _ | .pchCntClr _ | .lossRearm _ | .angleTick _ | .cmwLoss _ | .phaseAcqDone _ | .phLock _
  | .lockDeclared _ | .bwStepUp _ | .bwStepDown _ | .coastLong _ | .lol _ | .ovspd _ | .acqTo _
  | .pchSectSet _ _ | .pchAngleRead _ | .pchPredAngRead _ | .pchPredTimeHiWrite _ _ | .pchPeakClr _
  | .revolutionEnd _ | .learnBlockEnd _ | .sclPendingApply _ | .sclCoefWrite _ _ _ | .sclApplyWrite _ _
  | .neutral _ | .alignWr _ _ | .trimReq _ | .trimSweepStart _ | .trimRunStart _ | .trimRunEnd _ _
  | .trimLate _ | .dchEnable _ | .dchDisable _ | .dchTransition _ _ | .indexEdge _ _ | .illRate _ | .hallInv _
  | .refClr _ | .uncClr _ | .ssiTrig _ | .ssiFrameStart _ | .ssiFrameEnd _ _ _ _ | .ssiRecoveryEnd _
  | .dchAngleRead _ | .angDiv _ _ | .spdDiv _ _ | .dref _ _ | .copyMis _ | .ofsCap _ | .ofsCapDone _
  | .authConflict _ | .handoverRequest _ | .handoverDone _ | .holderClaimLost _ | .authCmd _ _ | .encEnable _
  | .encDisable _ | .preset _ | .encFirstPreset _ | .encCountStep _ _ | .encTargetRead _ | .aevSlotStep _ _
  | .aevPulseEnd _ | .predictionSwitch | .aevSlotStageWrite _ _ _ | .aevSlotAngWrite _ _ | .aevForceSet _
  | .aevForceClr _ | .aevEnable | .aevDisable | .aevCntClr | .pinMis _ _ | .internalTrigger | .sdmLatch
  | .sdmDecimatedOutput | .hi _ _ | .lo _ _ | .stuck _ _ | .filtMis | .phsum _ _ | .tqDev _ | .tqStale _
  | .tqCmdWrite _ _ | .relCmd _ | .relGapEnd _ | .disSet | .disClear | .sdmPeakClr | .auxSettleEnd _
  | .auxConversionDone _ _ | .auxVisitEnd _ | .lim _ | .auxSlotBlocked _ | .slotEnWrite _ | .auxResRead _
  | .fwCodeWrite _ _ | .blzClr _ | .reactBusyEnd _ | .holdoffEnd _ | .fltForceWrite _ _ | .stickyClear _ _
  | .chkInvWrite _ _ | .parityError _ | .aliveEdge | .tgtTmo _ _ _ | .cruiseRoundStart | .restartRnd
  | .cruiseRunEnd _ _ _ _ | .cruiseYield _ _ | .timeSlewEnd | .syncLoss | .timeSet _ | .syncRelay _ _ _
  | .syncSend _ | .pdelayReqSend _ | .linkDown _ | .linkUp _ | .streamFrameBuild _ | .frecEntry _ _
  | .frecTrigger _ _ | .frecFreeze _ | .arm _ | .disarm _ | .trig _ | .read _ _ _ _ | .qread _ _ _ | .qspiFrame
  | .registerWrite _ _ | .yarderWrite | .flush _ | .yardStall | .queueAge _ | .reqRun | .reqDoze | .reqLookout
  | .reqOff | .entryComplete | .oppTgtWrite _ | .dvfsDone | .dvfsTmo | .voteWrite _ | .domainOn _
  | .memBankInitDone _ | .halfCalDone _ _ _ _ | .domTmo _ | .padRelease _ | .lookoutCycleStart
  | .lookoutCycleEnd _ | .alarm | .alarmHiWrite _ | .wakeIn | .hostWake _ _ | .wakeCoreReady | .unlockFirst _
  | .unlockSecond _ | .relock _ | .unlockTimeout _ | .sdmBitSample _ _ | .safePinHoldExpiry _
  | .resetNRisingEdge _ | .tapTckEdge _ _ | .frameTransmitDone _ | .sclTempReading _ _ | .vexcGoodAgain _ _
  | .otsClear _ _ | .unlockFirstExpiry => true

end Sys2Proof
end

