-- ==== Sys2Proof/Tests/Slice0.lean ====
section
/-! SUPPORT. The row's own tests: commands that are ill formed are refused, the worked examples of the spec, and for each
statement a state and operands that meet its hypotheses. A theorem `wit_X` is the witness of the statement `X`, or of the part
`X` of one: its conjuncts are the hypotheses of the clauses, in their order, each at a boundary of its range. -/

open Sys2Proof Sys2Proof.Machine

namespace Sys2Proof.Tests

set_option Elab.async false

/-- The state after a command. -/
def after (i : Instr) (s : State) : State :=
  match exec i s with
  | .next t => t
  | _ => s

/-- A device in RUN after release, nothing configured. -/
def live : State := { State.reset with boot := { phase := .released, released := true } }

/-! ## Well-formed commands -/

theorem test_wf_write : (Instr.write 0x68 0 [0x7A5C0004] 0).wf = true ∧ (Instr.write 0x68 1 [0x7A5C0004] 0).wf = false := by
  decide
theorem test_wf_read : (Instr.read 0x10 0x40 0 0).wf = true ∧ (Instr.read 0x31 5 0 0).wf = true := by decide
theorem test_wf_qack : (Instr.qack 0 0 [1] 0).wf = true ∧ (Instr.qack 0 0 [] 0).wf = false := by decide
theorem test_wf_qpush : (Instr.qpush 0 1 [1, 2] 0).wf = true ∧ (Instr.qpush 0 1 [1, 2, 3] 0).wf = false := by decide
theorem test_wf_bist :
    (Instr.bistPhaseEnd ⟨true, true, [(0, 1), (0, 2)], true⟩ ⟨true, true, [], true⟩ ⟨true, true, [], true⟩).wf = true ∧
    (Instr.bistPhaseEnd ⟨true, true, [(0, 1), (0, 1)], true⟩ ⟨true, true, [], true⟩ ⟨true, true, [], true⟩).wf = false := by
  decide
theorem test_wf_frames : (Instr.frameReceive 0 (List.replicate 14 0) none).wf = true ∧
    (Instr.frameReceive 0 (List.replicate 13 0) none).wf = false ∧
    (Instr.frameForward 1 (List.replicate 13 0) true).wf = false ∧
    (Instr.netWake 0 (List.replicate 13 0)).wf = false := by decide
theorem test_wf_sync : (Instr.syncPair ⟨0, 0, 0, 0, 125000000, 0⟩).wf = true ∧
    (Instr.syncPair ⟨0, 0, 0, 0, 0, 0⟩).wf = false := by decide
theorem test_wf_relay : (Instr.followUpRelay 1).wf = true ∧ (Instr.followUpRelay 0).wf = false := by decide
theorem test_no_word_spells_a_command : decodeTableWord 32 0x7A5C0004 = none := by decide

/-! ## Values that the spec states -/

/-- The check value of CRC-32 (R81). -/
theorem test_crc32 : crc32 [0x31, 0x32, 0x33, 0x34, 0x35, 0x36, 0x37, 0x38, 0x39] = 0xCBF43926 := by decide +kernel
/-- The check value of CRC-8 (R397). -/
theorem test_crc8 : crc8 [0x31, 0x32, 0x33, 0x34, 0x35, 0x36, 0x37, 0x38, 0x39] = 0xDF := by decide +kernel

/-- BLK_ID of PCH_3 (R342). -/
theorem test_blk_id : (live.regReadAt .host 0x43000).2.1 = 0x02040301 := by decide +kernel
/-- PCH_CFG of channel 2 at reset (worked example of chapter 21). -/
theorem test_pch_cfg : (live.regReadAt .host 0x42044).2.1 = 0x00008311 := by decide +kernel
/-- The slot rule over the wrap of GEN (worked example of chapter 4). -/
theorem test_slot_wrap :
    ({ live with boot := { live.boot with aValid := true, bValid := true, genA := 0xFFFFFFFE, genB := 0xFFFFFFFF } } :
      State).slotChoice = 2 ∧
    ({ live with boot := { live.boot with aValid := true, bValid := true, genA := 0, genB := 0xFFFFFFFF } } :
      State).slotChoice = 1 := by decide
/-- REF_LOSS_H0 as the Blaze takes it (worked example of chapter 15). -/
theorem test_ref_loss : let t := after (.refLoss .h0) live
    t.readHdr .sys 0x2C = 0x80000000 ∧ t.readHdr .sys 0x20 = 0x00010000 ∧ t.readHdr .sys 0x1C = 0 := by decide +kernel
theorem test_ref_loss_second : ((after (.refLoss .h1) (after (.refLoss .h0) live)).hdr .sys).cnt = 1 := by decide +kernel
/-- The first write of the key sets FIRST_OK; the second unlocks PCH, block 4 (worked example of chapter 21). -/
theorem test_unlock : (after (.unlockSecond 4) (after (.unlockFirst 4) live)).unlock.blocks = 0x10 ∧
    (after (.unlockSecond 4) live).unlock.blocks = 0 := by decide +kernel
/-- The outgoing correctionField of a relayed Sync (worked example of chapter 17). -/
theorem test_relay : relayCorrection ⟨0, 65536000, 250, none⟩ 800 (100001 / 100000) = 212993475 := by decide +kernel

/-! ## Resets, supplies, clocks, boot, excitation -/

/-- `live` with a software reset armed. -/
def armed : State := { live with sys := { live.sys with swrstAt := some 800 } }
/-- In internal reset with RESET_N low. -/
def lowReset : State := { State.reset with sys := { State.reset.sys with resetLow := true } }

theorem wit_ResetsRestart : (armed.rails.vaon = true ∧ armed.sys.swrstAt = some 800) ∧
    ({ live with rails := { live.rails with vaon := false } } : State).rails.vaon = false := by decide
/-- `live` programming an image, or with a store of the calibration under way. -/
def programming : State := { live with boot := { phase := .framProg, bodyLen := 8 } }
def midStore : State := { live with boot := { live.boot with store := some ⟨true, 1, List.replicate 4096 0xA5⟩ } }
theorem wit_ResetsCutWrites : (live.boot.phase ≠ .framProg ∧ live.boot.store = none) ∧
    (programming.boot.phase = .framProg ∧ Memory.wf framDefault programming.fram = true) ∧
    (midStore.boot.phase ≠ .framProg ∧ (midStore.boot.store.map fun x => decide (x.bytes.length ≤ 4096)) = some true) := by
  decide +kernel
/-- An interrupted programming leaves no image magic (R100). -/
theorem test_programming_cut : let t := after .pinReset { programming with fram := Memory.writeBytes framDefault [] 0 [0x48, 0x4C, 0x49, 0x4D] }
    t.framBytes 0 4 = [0, 0, 0, 0] := by decide +kernel
theorem wit_InternalResetEnds :
    (State.reset.boot.phase = .reset ∧ State.reset.pwr.st = .run ∧ State.reset.rails.vaon = true ∧
      State.reset.rails.vio = true ∧ State.reset.rails.vpre = true ∧ State.reset.sys.resetLow = false) ∧
    ({ State.reset with sys := { State.reset.sys with scan := true } } : State).sys.scan = true ∧
    lowReset.sys.resetLow = true ∧ (after (.supplyLost .vio) live).rails.vio = false ∧ live.sys.resetLow = false ∧
    live.sys.scan = false := by
  decide +kernel
theorem wit_SoftwareResetKey : live.sys.swrstAt = none ∧ armed.sys.swrstAt ≠ none := by decide
theorem wit_SuppliesReturn : live.powered .sys = true ∧ pchHalf (3 : Fin 8).val = .h0 ∧ pchHalf (4 : Fin 8).val ≠ .h0 ∧
    pchHalf (4 : Fin 8).val = .h1 ∧ live.sys.scan = false ∧
    ({ live with sys := { live.sys with scan := true } } : State).sys.scan = true := by decide
theorem wit_AnalogueSupplyLost : let s : State := { live with pch := Vector.replicate 8 { st := .track } }
    s.powered .sys = true ∧ s.pchOn 3 = true ∧ pchHalf (3 : Fin 8).val = .h0 ∧ s.pch[3].st = .track ∧
    ({ live with pch := Vector.replicate 8 { st := .phaseAcq } } : State).pch[4].st = .phaseAcq ∧ live.pchOn 3 = false := by
  decide
theorem wit_RailVerdicts : (7499 : BitVec 16).toNat < 7500 ∧ 7500 ≤ (7500 : BitVec 16).toNat ∧
    19500 < (19501 : BitVec 16).toNat ∧ (19500 : BitVec 16).toNat ≤ 19500 ∧ (7800 : BitVec 16).toNat ≤ 7800 ∧
    7800 < (7801 : BitVec 16).toNat ∧ (18999 : BitVec 16).toNat < 19000 ∧ live.powered .exc = true ∧
    live.halfOn (railHalf 0) = true ∧ live.halfOn (railHalf 1) = true ∧ railExc 1 = (2, 3) ∧
    ({ live with exc := Vector.replicate 4 { st := .rampDown } } : State).exc[3].st = .rampDown := by decide
theorem wit_ClockMonitors : live.clkMon .h0 = true ∧ live.clkMon .h1 = true := by decide
theorem wit_RtcSource : (live.monitoring = true ∧ live.rails.vaon = true) ∧ live.sys.rtcLprc = true ∧
    (after .rtcXtalRestore live).sys.rtcLprc = false := by decide +kernel
theorem wit_RegulatorMonitors : live.monitoring = true ∧ ∀ x ∈ [VDom.h0, .h1, .core, .mem, .net], live.vdomOn x = true := by
  decide

/-- `live` with set-point codes `c` and runs `r` of margins above the upper threshold, AVS_EN as in `en`. -/
def avs (en : Bool) (c r : Nat) : State :=
  { (live.setReg 0x58 (bput (live.reg 0x58) 0 en)) with
    sys := { live.sys with avsCode := Vector.replicate 5 c, avsHigh := Vector.replicate 5 r } }

theorem wit_AvsEvaluation : let up := 50 + min 6 live.SYS_AVS_CFG_CEIL_STEP
    let dn := 50 - min 12 live.SYS_AVS_CFG_FLOOR_STEP
    live.monitoring = true ∧ ({ live with qb := true } : State).vdomOn .net = false ∧
    ({ live with pwr := { live.pwr with dvfs := some 1 } } : State).pwr.dvfs.isSome = true ∧
    ((avs false 48 0).vdomOn .h0 = true ∧ (avs false 48 0).pwr.dvfs = none ∧ (avs false 48 0).avsWord.bit 0 = false) ∧
    ((avs true dn 14).avsWord.bit 0 = true ∧ (avs true dn 14).sys.avsHigh[0] ≠ 15) ∧ (avs true (dn + 1) 15).sys.avsHigh[0] = 15 ∧
    up ≤ (avs true up 0).sys.avsCode[0] ∧ (avs true up 0).vNominal .h0 = 50 := by decide +kernel

/-- The header of an image with a body of eight bytes; its CRC is that of a CRC-32 computed outside the model. -/
def header : List Byte :=
  [0x48, 0x4C, 0x49, 0x4D, 1, 0, 0x40, 0, 8, 0, 0, 0, 0x40, 0x86, 0, 0, 0x78, 0x56, 0x34, 0x12] ++ List.replicate 40 0 ++
    [0x5F, 0x4C, 0xD7, 0x68]
/-- A body that is the END record alone. -/
def body : List Byte := [0x0F, 0, 4, 0, 0x4E, 0x0A, 0x4B, 0x1D]

theorem test_header : headerCause false header = 0 ∧ bodyOk body = true ∧ headerCause false (0x49 :: header.drop 1) = 1 ∧
    headerCause false (header.take 0x10 ++ [0] ++ header.drop 0x11) = 2 := by decide +kernel

/-- A boot at the header. -/
def atHeader : State := { State.reset with
  boot := { phase := .header }, fram := Memory.writeBytes framDefault [] 0 (header ++ body) }
/-- A boot in BIST phase `k`, the header read. -/
def atBist (k : Nat) : State := { atHeader with boot := { phase := .bist, bistPhase := k, hdrRead := true, bodyLen := 8 } }

/-- A wake at its image, the header judged with cause `c`. -/
def atWake (c : Nat) : State := { atHeader with boot := { phase := .header, kind := .wake, hdrRead := true, bodyLen := 8, imgCause := c } }

theorem wit_ImageIsRead :
    (atHeader.boot.phase = .header ∧ atHeader.boot.hdrRead = false ∧ atHeader.boot.kind ≠ .wake ∧
      (after .headerReadDone atHeader).boot.imgCause = 0 ∧ (after .headerReadDone atHeader).boot.imgId = 0x12345678) ∧
    ((atBist 1).boot.hdrRead = true ∧ (atBist 1).boot.bodyRead = false ∧ (atBist 1).boot.bodyLen ≤ 253888 ∧
      Memory.wf sramDefault (atBist 1).sram = true ∧ (atBist 1).boot.phase = .bist ∧ 1 ≤ (atBist 1).boot.bistPhase ∧
      (atBist 1).boot.kind ≠ .wake ∧ (atBist 1).boot.imgCause = 0) ∧
    ((atWake 0).boot.phase = .header ∧ (atWake 0).boot.kind = .wake ∧ (atWake 0).boot.imgCause = 0 ∧
      bodyOk ((atWake 0).framBytes 0x40 8) = true) ∧ (atWake 1).boot.imgCause ≠ 0 := by decide +kernel
theorem wit_SelfTestPhases : (atBist 0).boot.phase = .bist ∧ (atBist 0).boot.bistPhase < 5 ∧ (atBist 4).boot.bistPhase = 4 ∧
    ((atBist 3).boot.bistPhase = 3 ∧ (atBist 3).qb = false) := by decide
/-- A boot at the end of BIST with image cause `c`, the self-test passed or not. -/
def atInit (pass : Bool) (c : Nat) : State := { State.reset with
  boot := { phase := .bist, bistPhase := 5, bodyRead := true, imgCause := c, bistEng := Vector.replicate 6 (if pass then 2 else 4)
            bistMem := Vector.replicate 8 2, bodyLen := 8 } }
theorem test_bistPass : (atInit true 0).boot.bistPass = true ∧ (atInit false 0).boot.bistPass = false := by decide

/-- A boot in apply whose body is `b`, then END. -/
def applying (b : List Byte) : State := { State.reset with
  boot := { phase := .apply, bodyLen := b.length + 8 }
  sram := Memory.writeBytes sramDefault [] 0x700040 (b ++ body) }
/-- The worked examples of chapter 4: a record that disables the adaptive loop, and one that gives the drives to H0 and H1. -/
def recAvs : List Byte := [1, 0, 8, 0, 0x58, 0, 0, 0, 0, 0x0C, 6, 0]
def recAuth : List Byte := [6, 0, 4, 0, 0, 1, 0, 0]

theorem test_rec_avs : (after .regWriteRecord (applying recAvs)).reg 0x58 = 0x00060C00 ∧
    (after .regWriteRecord (applying recAvs)).boot.walk = 12 := by decide +kernel
theorem test_rec_auth : (after .authInitRecord (applying recAuth)).boot.authInit = ⟨#[.h0, .h1], rfl⟩ := by decide +kernel

/-- The premises that the clauses of RecordsApplied share: a record of type `t` is met in apply. -/
def meets (t : Nat) (s : State) : Bool :=
  s.boot.phase == .apply && decide (s.boot.walk < s.boot.endAt) && s.recHead.type == t
/-- And those of a record whose writes are tried. -/
def tried (t : Nat) (s : State) : Bool := meets t s && !s.recFatal s.recHead && decide (s.recHead.flags < 2)

theorem wit_RecordsApplied_write : let s := applying recAvs
    tried 1 s = true ∧ s.recHead.len % 8 = 0 ∧ (s.writePairs (wordsOf (s.payload s.recHead))).1 = true := by decide +kernel
theorem wit_RecordsApplied_optional : let s := applying [1, 1, 8, 0, 0x44, 0, 0, 0, 0, 0, 0, 0]
    tried 1 s = true ∧ s.recHead.flags = 1 ∧ (s.writePairs (wordsOf (s.payload s.recHead))).1 = false := by decide +kernel
theorem wit_RecordsApplied_fails : let s := applying [1, 0, 8, 0, 0x44, 0, 0, 0, 0, 0, 0, 0]
    tried 1 s = true ∧ s.recHead.flags = 0 ∧ (s.writePairs (wordsOf (s.payload s.recHead))).1 = false := by decide +kernel
theorem wit_RecordsApplied_fatal : let s := applying [1, 0, 3, 0]
    meets 1 s = true ∧ s.recFatal s.recHead = true := by decide +kernel
theorem wit_RecordsApplied_malformed :
    (let s := applying [1, 1, 4, 0, 0, 0, 0, 0]
     meets 1 s = true ∧ s.recFatal s.recHead = false ∧ s.recHead.len % 8 ≠ 0 ∧ s.recHead.flags % 2 = 1) ∧
    (let s := applying [1, 2, 8, 0, 0x44, 0, 0, 0, 0, 0, 0, 0]
     meets 1 s = true ∧ s.recFatal s.recHead = false ∧ 2 ≤ s.recHead.flags ∧ s.recHead.flags % 2 = 0) := by decide +kernel
theorem wit_RecordsApplied_mask : let s := applying [2, 0, 12, 0, 0x58, 0, 0, 0, 0, 0, 6, 0, 0, 0, 2, 0]
    tried 2 s = true ∧ s.recHead.len % 12 = 0 ∧ (s.writeMasks (wordsOf (s.payload s.recHead))).1 = true := by decide +kernel
theorem wit_RecordsApplied_seq : let s := applying [3, 0, 8, 0, 0x58, 0, 0, 0, 0, 0x0C, 6, 0]
    let pl := s.payload s.recHead
    tried 3 s = true ∧ 8 ≤ s.recHead.len ∧ (s.writeSeq (fieldAt pl 0 4) (wordsOf (pl.drop 4))).1 = true := by decide +kernel
theorem wit_RecordsApplied_load : let s := applying [4, 0, 8, 0, 0, 0, 8, 0, 1, 2, 3, 4]
    let pl := s.payload s.recHead
    tried 4 s = true ∧ fieldAt pl 0 4 = 0x80000 ∧ loadable (fieldAt pl 0 4) (wordsOf (pl.drop 4)).length = true ∧
      (s.loadSram (fieldAt pl 0 4) (wordsOf (pl.drop 4))).1 = true ∧ loadable 0x7FFFC 1 = false := by decide +kernel
theorem wit_RecordsApplied_fill : let s := applying [5, 0, 12, 0, 0xFC, 0xFF, 0x6F, 0, 4, 0, 0, 0, 1, 2, 3, 4]
    let pl := s.payload s.recHead
    tried 5 s = true ∧ loadable (fieldAt pl 0 4) (fieldAt pl 4 4 / 4) = true ∧
      (s.fillSram (fieldAt pl 0 4) 0x04030201 (fieldAt pl 4 4 / 4)).1 = true := by decide +kernel
theorem wit_RecordsApplied_auth : let s := applying recAuth
    let pl := s.payload s.recHead
    tried 6 s = true ∧ s.recHead.len = 4 ∧ fieldAt pl 0 1 ≤ 1 ∧ fieldAt pl 1 1 ≤ 1 ∧ fieldAt pl 2 2 = 0 := by decide +kernel

theorem wit_SramInitialised :
    (let s := atInit false 0; s.boot.phase = .bist ∧ s.boot.bistPhase = 5 ∧ s.boot.bodyRead = true ∧ s.boot.bistPass = false) ∧
    (let s := atInit true 1; s.boot.bistPass = true ∧ s.boot.imgCause ≠ 0) ∧
    (let s := atInit true 0; s.boot.bistPass = true ∧ s.boot.imgCause = 0) := by decide +kernel
/-- A device in converter calibration, in boundary-scan mode or not. -/
def calibrating (scan : Bool) : State :=
  { State.reset with boot := { phase := .convCal }, sys := { State.reset.sys with scan := scan } }
theorem wit_EndAndRelease : ((applying []).boot.phase = .apply ∧ (applying []).boot.walk = (applying []).boot.endAt) ∧
    ((calibrating false).boot.phase = .convCal ∧ (calibrating false).sys.scan = false) ∧ (calibrating true).sys.scan = true := by
  decide +kernel
/-- A device in converter calibration whose bridges and channels are enabled. -/
def calEnabled : State :=
  let s := (List.finRange 4).foldl (fun t n => t.setReg (excAddr n 0) 1) (calibrating false)
  (List.finRange 8).foldl (fun t n => t.setReg (pchAddr n 0x40) 1) s
theorem wit_ReleaseEffects : calEnabled.boot.phase = .convCal ∧ calEnabled.sys.scan = false ∧ calEnabled.pwr.st ≠ .waking ∧
    (∀ n : Fin 4, calEnabled.EXC_CTRL_EN n.val = 1 ∧ calEnabled.halfOn (excHalf n.val) = true) ∧
    (∀ n : Fin 8, calEnabled.PCH_CTRL_EN n.val = 1 ∧ calEnabled.halfOn (pchHalf n.val) = true) := by decide +kernel
/-- A device with calibration slots. -/
def slots (use : Nat) (a b : Bool) (ga gb : Nat) : State :=
  { live with boot := { live.boot with calUse := use, aValid := a, bValid := b, genA := ga, genB := gb } }
theorem wit_SlotChoiceRule : (slots 1 true true 0 0).boot.calUse = 1 ∧ (slots 0 false false 0 0).boot.calUse ≠ 1 ∧
    (slots 0 true true 0 (2 ^ 31 - 1)).slotChoice = 2 ∧ (slots 0 true true 0 (2 ^ 31)).slotChoice = 1 := by decide
/-- A device with a calibration store under way. -/
def storing : State := { live with boot := { live.boot with store := some ⟨true, 1, [1, 2, 3]⟩ } }
theorem wit_CalibrationStore : (storing.pwr.st ≠ .entering ∧ storing.boot.store.isSome = true) ∧
    (State.reset.pwr.st ≠ .entering ∧ State.reset.boot.released = false) ∧
    (live.pwr.st ≠ .entering ∧ live.boot.released = true ∧ live.boot.store = none) ∧
    ({ live with crz := { act := ⟨#[none, none, some 11], rfl⟩ } } : State).crz.act[(2 : Fin 3)] = some 11 := by decide
/-- A device in the unconfigured hold with cause `c` and `b` staged. -/
def held (c : Nat) (b : List Byte) : State := { State.reset with
  boot := { phase := .hold, inHold := true, holdCause := c }, sram := Memory.writeBytes sramDefault [] 0x700000 b }
theorem wit_Downloads :
    (live.boot.phase ≠ .hold ∧ (held 9 []).boot.holdCause = 9 ∧ (held 11 []).boot.holdCause = 11) ∧
    ((held 1 []).boot.phase = .hold ∧ (held 1 []).boot.holdCause ≠ 9 ∧ (held 1 []).boot.holdCause ≠ 11) ∧
    headerCause false ((held 1 []).stageBytes 0 64) ≠ 0 ∧
    (let s := held 1 header; headerCause s.qb (s.stageBytes 0 64) = 0 ∧ bodyOk (s.stageBytes 0x40 8) = false) ∧
    (let s := held 1 (header ++ body); headerCause s.qb (s.stageBytes 0 64) = 0 ∧ bodyOk (s.stageBytes 0x40 8) = true) ∧
    ({ live with boot := { phase := .framProg, bodyLen := 8 } } : State).boot.phase = .framProg := by decide +kernel

/-- `live` with every bridge equal to `x`. -/
def bridges (x : Exc) : State := { live with exc := Vector.replicate 4 x }
theorem wit_BridgeStartStop :
    (live.boot.released = true ∧ live.halfOn .h0 = true ∧ live.halfOn .h1 = true ∧ live.exc[0].st = .off ∧
      (live.reg (excAddr 0 0)).bit 0 = false ∧ (live.setReg (excAddr 0 0) 1).vexcGood 0 = true ∧
      (live.setReg (excAddr 0 0) 1).tripLive 0 = false) ∧
    ({ live with rails := { live.rails with vexc0 := false } } : State).vexcGood 0 = false ∧
    (bridges { st := .run }).exc[3].st = .run ∧ (bridges { st := .rampDown }).exc[3].st = .rampDown ∧
    (let s := bridges { st := .tripped }
     s.exc[3].st = .tripped ∧ s.tripLive 3 = false ∧ s.EXC_CTRL_EN 3 ≠ 1 ∧
      (s.setReg (excAddr 3 0) 1).EXC_CTRL_EN 3 = 1 ∧ (s.setReg (excAddr 3 0) 1).vexcGood 3 = true) := by decide +kernel
theorem wit_ExcitationSettings : Word.fld 1999 0 16 < 2000 ∧ 40000 < Word.fld 40001 0 16 ∧ 2000 ≤ Word.fld 2000 0 16 ∧
    Word.fld 40000 0 16 ≤ 40000 ∧ live.halfOn (excHalf 0) = true ∧ (bridges { st := .run }).exc[0].st = .run ∧
    live.exc[0].st = .off := by decide
theorem wit_CrossingOfABridge : live.boot.released = true ∧ live.halfOn (excHalf (2 : Fin 4).val) = true ∧ live.exc[2].freq ≠ 0 ∧
    live.exc[2].st = .off ∧ (bridges { st := .tripped }).exc[2].st = .tripped ∧
    (let s := bridges { st := .run, stopping := true }; s.exc[2].running = true ∧ s.exc[2].stopping = true ∧ s.exc[2].car.slew = none) ∧
    (bridges { st := .run }).excPend 2 = false ∧ (bridges { st := .run, car := { freq := 2000 } }).excPend 2 = true ∧
    (let s := bridges { st := .rampUp, waitX := true }; s.exc[2].st = .rampUp ∧ s.exc[2].stopping = false ∧ s.exc[2].waitX = true) ∧
    (let s := bridges { st := .rampUp }; s.exc[2].waitX = false) ∧ (bridges { st := .rampDown }).exc[2].st = .rampDown ∧
    (let s := bridges { st := .run }; s.exc[2].closed = false ∧ s.EXC_CTRL_MODE (2 : Fin 4).val = 0) ∧
    (let s := (bridges { st := .run, closed := true }).setReg (excAddr 2 0) 2
     s.exc[2].closed = true ∧ s.EXC_CTRL_MODE (2 : Fin 4).val = 1 ∧ s.regHold 2 = true) ∧
    (let s : State := { (bridges { st := .run, closed := true }) with pch := Vector.replicate 8 { st := .track, pub := { tag := 1 } } }
     (s.setReg (excAddr 0 0) 2).regHold 0 = false) := by decide +kernel
theorem wit_CarrierPhase : ({} : Carrier).slew = none ∧ (0 : Nat) ≤ 40000 ∧ ({} : Carrier).freq = 10000 ∧
    ((-1 : Rat) / 2 ≤ -1 / 2 ∧ (1 : Rat) / 2 ≤ 1 / 2) ∧ (10000 : Rat) / 400000000 * 40000 = 1 := by decide +kernel
theorem wit_DeliveredLevel : (bridges { st := .rampUp, waitX := true }).exc[0].waitX = true ∧
    (let s := bridges { st := .run, lvlNow := 2280 }
     s.exc[0].lvlNow ≤ 2400 ∧ s.exc[0].lvlNow * 100 ≤ 19 * s.vexcMv[Fin.ofNat 2 ((0 : Fin 4).val / 2)]) ∧
    live.powered .exc = true ∧ live.exc[0].freq ≠ 0 := by decide +kernel
/-- A slew by a quarter turn ends after one period, a quarter turn ahead (R107). -/
theorem test_slew : ({ slew := some (1 / 4, 5 / 4) } : Carrier).phaseAt 40000 = 5 / 4 ∧
    ({ slew := some (1 / 4, 5 / 4) } : Carrier).phaseAt 80000 = 9 / 4 := by decide +kernel
theorem wit_RampsAndSettleEnd :
    (let s := bridges { settle := true }; s.exc[1].settle = true ∧ s.exc[1].settleRem = 0) ∧
    0 < (bridges { settle := true, settleRem := 1 }).exc[1].settleRem ∧
    (let s := bridges { st := .rampUp, rampCnt := live.rampPer 1 }
     s.exc[1].st = .rampUp ∧ s.exc[1].waitX = false ∧ s.rampPer 1 ≤ s.exc[1].rampCnt) ∧
    (let s := bridges { st := .rampDown, rampCnt := live.rampPer 1 }
     s.exc[1].st = .rampDown ∧ s.exc[1].waitX = false ∧ s.rampPer 1 ≤ s.exc[1].rampCnt ∧ s.EXC_CTRL_EN (1 : Fin 4).val = 0 ∧
      (s.setReg (excAddr 1 0) 1).EXC_CTRL_EN (1 : Fin 4).val = 1) ∧
    live.exc[1].rampCnt < live.rampPer 1 := by decide +kernel
theorem wit_BridgeFaults :
    (let s := bridges { st := .run, imbRun := 2, openRun := 4, satHi := 64, satLo := 64 }
     s.powered .exc = true ∧ s.excDrives 0 = true ∧ s.exc[0].st ≠ .lookout ∧ 2 ≤ s.exc[0].imbRun ∧ 4 ≤ s.exc[0].openRun ∧
      64 ≤ s.exc[0].satHi ∧ 64 ≤ s.exc[0].satLo) ∧
    (let k := max 1 (live.EXC_IMON_CFG_OC_CNT (0 : Fin 4).val)
     let i := 10 * clampNat 15 60 (live.EXC_IMON_CFG_OC_THR (0 : Fin 4).val)
     k ≤ (List.replicate k (i + 1)).length ∧ (∀ j ∈ (List.replicate k (i + 1)).take k, i < j) ∧
      (List.replicate (k - 1) (i + 1)).length < k ∧ ∃ j ∈ (List.replicate k i).take k, ¬ i < j) ∧
    2720 < BitVec.toInt (2721 : BitVec 16) ∧ BitVec.toInt (2720 : BitVec 16) ≤ 2720 ∧
    2480 ≤ BitVec.toInt (2480 : BitVec 16) ∧ BitVec.toInt (2479 : BitVec 16) < 2480 ∧ live.halfOn (excHalf (0 : Fin 4).val) = true ∧
    live.exc[0].openRun < 4 ∧ live.exc[0].imbRun < 2 ∧ live.exc[0].satHi < 64 ∧ live.exc[0].satLo < 64 := by
  decide +kernel
/-! ## Position channels and Scaler -/

/-- `live` with every position channel equal to `x`, and every bridge in RUN. -/
def channels (x : Pch) : State := { live with pch := Vector.replicate 8 x, exc := Vector.replicate 4 { st := .run } }
/-- A channel in TRACK whose tick has been used, with loop `l`. -/
def tracking (l : Loop) : State := channels { st := .track, lp := { l with used := true } }

theorem wit_ChannelStartStop : let s := channels {}
    let on := s.setReg (pchAddr 7 0x40) 1
    (s.boot.released = true ∧ s.halfOn (pchHalf 7) = true ∧ s.pwr.calBusy.get (pchHalf 7) = false ∧
      (s.reg (pchAddr 7 0x40)).bit 0 = false ∧ s.pch[7].calf = false ∧ s.vddaOk (pchHalf 7) = true ∧ on.drvBad 7 = false) ∧
    (channels { calf := true }).pch[7].calf = true ∧ (live.setReg (pchAddr 7 0x40) 1).drvBad 7 = true ∧
    (on.reg (pchAddr 7 0x40)).bit 0 = true ∧
    ({ s with pwr := { s.pwr with calBusy := ⟨true, true⟩ } } : State).pwr.calBusy.get (pchHalf 7) = true := by decide +kernel
theorem wit_BreakDetectSources : live.halfOn (pchHalf (0 : Fin 8).val) = true ∧
    live.halfOn (pchHalf (7 : Fin 8).val) = true ∧ live.pwr.lkRun = false := by decide
theorem wit_ChannelRegisters : live.polePairs 5 = 1 ∧ live.polePairs 5 ≤ Word.fld 0x00010000 16 5 ∧
    Word.fld 0x0000FFFF 16 5 < live.polePairs 5 ∧ live.halfOn (pchHalf 5) = true ∧ Store.wf (fun _ => 0) live.capt = true ∧
    live.chkInv (.pch 5) 0 = 0 ∧ pchAddr 5 0x15C ∉ live.badPar ∧ (live.setReg 0x45034 1).chkInv (.pch 5) 0 ≠ 0 ∧
    (let hor : Rat := (1000 * clampNat 1 1000 (live.PCH_PRED_CFG_HORIZON (5 : Fin 8).val) : Nat)
     let d (c : Nat) : Rat := live.predAhead 5 + ((c : Rat) - ((live.publishedAt 5 c).cyc : Rat)) * 5 / 2
     let c := 400 * clampNat 1 1000 (live.PCH_PRED_CFG_HORIZON (5 : Fin 8).val)
     ¬(d c < -hor ∨ hor < d c) ∧ hor < d (c + 1)) := by
  decide +kernel
theorem wit_LossRearm : let lost := channels { st := .lost }
    (live.halfOn (pchHalf 0) = true ∧ ((live.setReg 0x40010 0x20).fltLive (.pch 0)).bit 5 = true) ∧
    ((live.fltLive (.pch 0)).bit 5 = false ∧ live.pch[0].st ≠ .lost) ∧
    ((lost.fltLive (.pch 0)).bit 5 = false ∧ lost.pch[0].st = .lost ∧ lost.pch[0].calf = false ∧
      lost.vddaOk (pchHalf 0) = true ∧ lost.drvBad 0 = false) := by decide +kernel
theorem wit_AngleTicks : State.reset.inRun = false ∧ live.inRun = true ∧ live.pch[0].st = .off ∧ live.pch[0].tn.pendSect = none ∧
    (channels { tn := { pendSect := some (3, 7) } }).pch[0].tn.pendSect = some (3, 7) ∧ live.halfOn (pchHalf (0 : Fin 8).val) = true ∧
    ({ live with pwr := { half := ⟨.off, .on⟩ } } : State).halfOn (pchHalf (0 : Fin 8).val) = false ∧
    (tracking { fresh := false }).pchOn 0 = true ∧ (tracking { fresh := false }).pch[0].lp.fresh = false := by decide
theorem wit_TurnCounting :
    (let t : Turns := { sector := 3, eTurns := 65535, mTurns := 65535 }; t.sector < 4 ∧ t.eTurns < 65536 ∧ t.mTurns < 65536) ∧
    0 ≤ wrapSigned (2 ^ 24) ((0 : Int) - (2 ^ 24 - 1)) ∧ wrapSigned (2 ^ 24) ((2 ^ 24 - 1 : Int) - 0) < 0 ∧
    0 ≤ wrapSigned (2 ^ 24) ((5 : Int) - 5) := by decide
/-- The angle wraps forward: M_TURNS 4, SECTOR 3 become 5 and 0 (worked example of chapter 7). -/
theorem test_wrap_forward : let u := ({ eTurns := 19, sector := 3, mTurns := 4 } : Turns).count 4 (2 ^ 24 - 10) 10
    u.eTurns = 20 ∧ u.sector = 0 ∧ u.mTurns = 5 := by decide
theorem test_wrap_backward : let u := ({ eTurns := 20, sector := 0, mTurns := 5 } : Turns).count 4 10 (2 ^ 24 - 10)
    u.eTurns = 19 ∧ u.sector = 3 ∧ u.mTurns = 4 := by decide
theorem wit_AcquisitionAndBandwidth :
    (let s := channels { st := .phaseAcq, ph := { cnt := max 2 (live.PCH_PH_CFG_PH_ACQ_PER 1) } }
     s.pch[1].st = .phaseAcq ∧ max 2 (s.PCH_PH_CFG_PH_ACQ_PER 1) ≤ s.pch[1].ph.cnt) ∧
    (let s := channels { st := .track, ph := { run := 4 } }; s.pchOn 1 = true ∧ 4 ≤ s.pch[1].ph.run) ∧
    (let s := tracking { lockCnt := max 1 (live.PCH_TRK_LOCK_CFG_LOCK_TICKS 1) }
     s.pchOn 1 = true ∧ s.pch[1].st = .track ∧ s.pch[1].lp.locked = false ∧ s.pch[1].lp.used = true ∧
      max 1 (s.PCH_TRK_LOCK_CFG_LOCK_TICKS 1) ≤ s.pch[1].lp.lockCnt) ∧
    (let s := tracking { locked := true, idx := (channels {}).bwCeil 1 - 1, upCnt := max 1 (live.PCH_TRK_BW_TIME_UP_CNT 1) }
     s.adaptRuns 1 = true ∧ max 1 (s.PCH_TRK_BW_TIME_UP_CNT 1) ≤ s.pch[1].lp.upCnt ∧ s.pch[1].lp.hold = 0 ∧
      s.pch[1].lp.idx < s.bwCeil 1) ∧
    (let s := tracking { locked := true, idx := (channels {}).bwCeil 1, dnCnt := max 1 (live.PCH_TRK_BW_TIME_DWELL 1) }
     s.bwCeil 1 ≤ s.pch[1].lp.idx ∧ s.adaptRuns 1 = true ∧ s.pch[1].lp.upCnt < max 1 (s.PCH_TRK_BW_TIME_UP_CNT 1) ∧
     max 1 (s.PCH_TRK_BW_TIME_DWELL 1) ≤ s.pch[1].lp.dnCnt ∧
      s.bwFloor 1 < s.pch[1].lp.idx) ∧
    (let s := tracking { idx := (channels {}).bwFloor 1 }; s.pch[1].lp.idx ≤ s.bwFloor 1) := by decide +kernel
theorem wit_ChannelLosses :
    (let s := channels { st := .track, fe := { cmwDue := true } }
     s.powered (.pch 2) = true ∧ s.pchOn 2 = true ∧ s.pch[2].fe.cmwDue = true) ∧
    (let s := channels { st := .track, lp := { coastFrom := some 0, coastAt := 400 * 70000 } }; s.coastTooLong 2 = true) ∧
    (let s := tracking { lolRun := max 1 (live.PCH_TRK_LOL_CFG_LOL_TICKS 2), ovsRun := 16 }
     s.powered (.pch 2) = true ∧ s.pchOn 2 = true ∧
      max 1 (s.PCH_TRK_LOL_CFG_LOL_TICKS 2) ≤ s.pch[2].lp.lolRun ∧ s.pch[2].lp.used = true ∧ 16 ≤ s.pch[2].lp.ovsRun) ∧
    (let s := tracking { acqTicks := 2000 * max 1 (live.PCH_TRK_TIMEOUT_ACQ_TMO 2) + 1 }
     s.pch[2].st = .track ∧ s.pch[2].lp.locked = false ∧ 2000 * max 1 (s.PCH_TRK_TIMEOUT_ACQ_TMO 2) < s.pch[2].lp.acqTicks) := by
  decide +kernel

/-- `live` with every Scaler equal to `x`. -/
def scalers (x : Scl) : State := { live with scl := Vector.replicate 8 x }
theorem wit_ScalerWrites : live.halfOn (pchHalf 3) = true ∧
    live.polePairs 3 ≤ (1 : BitVec 4).toNat ∧ (0 : BitVec 4).toNat < live.polePairs 3 ∧
    live.polePairs 3 ≤ Word.fld 0x100 8 4 ∧ Word.fld 0x002 8 4 < live.polePairs 3 ∧
    (let w := live.reg (sclAddr 3 0); ({} : SclSet).apply = w.bit 1 ∧ ({} : SclSet).hmax = harmMax w) ∧
    ¬(({} : SclSet).apply = (0 : Word).bit 1) ∧ live.scl[3].pendLrn.getLsbD (17 : Fin 18).val = false ∧
    (scalers { pend := some {}, pendLrn := 0x20000 }).scl[3].pendLrn.getLsbD (17 : Fin 18).val = true := by decide +kernel
theorem wit_ScalerLearning :
    (let s := scalers { pend := some {} }; s.scl[4].pend = some {} ∧ s.pch[4].lp.locked = false) ∧
    (let s : State := { (tracking { locked := true }) with scl := Vector.replicate 8 { pend := some {} } }
     s.pch[4].lp.locked = true ∧ s.pch[4].tn.turned = false) ∧
    (let s : State := { channels { st := .track, lp := { locked := true }, tn := { turned := true } } with
       scl := Vector.replicate 8 { pend := some { align := 1 }, pendSeen := true } }
     (s.pch[4].tn.turned = true ∧ s.scl[4].pendSeen = true) ∧ ∃ c, s.scl[4].pend = some c ∧ c.align ≠ s.scl[4].cur.align) ∧
    (scalers { pend := some {} }).scl[4].pendSeen = false ∧
    (scalers { lrn := { revEnd := true } }).scl[4].lrn.revEnd = true ∧
    (live.scl[4].lrn.blk.length < max 2 live.SCL_LRN_CFG_BLK_REV) ∧
    (let s := scalers { lrn := { blk := List.replicate 32 [] } }; max 2 s.SCL_LRN_CFG_BLK_REV ≤ s.scl[4].lrn.blk.length) := by
  decide +kernel
theorem wit_TrimRuns :
    (live.halfOn (pchHalf 6) = true ∧ live.scl[6].trimAsk = false ∧ (scalers { trimAsk := true }).scl[6].trimAsk = true) ∧
    (let s : State := { live.setReg 0x60048 (bput (live.reg 0x60048) 31 true) with
        sclH := ⟨{ temp := 400, base := some (400 + BitVec.ofNat 16 (max 1 live.SCL_TRIM_CFG_TRIM_DT)) }, {}⟩ }
     s.boot.released = true ∧ s.halfOn .h0 = true ∧ s.SCL_TRIM_CFG_TRIM_AUTO = 1 ∧ (s.sclH.get .h0).sweep = [] ∧
      max 1 s.SCL_TRIM_CFG_TRIM_DT ≤ ((s.sclH.get .h0).temp.toInt -
        (400 + BitVec.ofNat 16 (max 1 live.SCL_TRIM_CFG_TRIM_DT)).toInt).natAbs) ∧
    (let s := scalers { trimAsk := true }
     s.boot.released = true ∧ s.powered .scl = true ∧ s.scl[6].trimWait = true ∧ s.scl[6].trimEnd = none ∧ s.trimTurn 6 = true ∧
      s.trimGate 6 = true ∧ s.trimPlace 6 = true ∧ s.scl[6].trimLate = false) ∧
    (let s := scalers { trimEnd := some 25600 }; s.scl[6].trimEnd = some 25600 ∧ s.scl[6].trimOwn = false) ∧
    (scalers { trimEnd := some 25600, trimOwn := true }).scl[6].trimOwn = true ∧
    (({ live with sclH := ⟨{}, { sweep := [6] }⟩ } : State).sclH.get (pchHalf (6 : Fin 8).val)).sweep = [6] ∧
    trimBad ⟨0, 0, 0, 0⟩ ⟨32, 0, 256, 0⟩ = false ∧ trimBad ⟨0, 0, 0, 0⟩ ⟨33, 0, 0, 0⟩ = true := by decide +kernel

/-! ## Digital position inputs, cross-monitor, authority -/

/-- `live` with every digital channel equal to `x`, the word of its configuration being `c`. -/
def digital (x : Dch) (c : Word) : State := { live.setReg (dchAddr 0 4) c with dch := Vector.replicate 4 x }
theorem wit_DigitalStartStop : live.boot.released = true ∧ live.halfOn (excHalf (0 : Fin 4).val) = true ∧
    (live.reg (dchAddr 0 0)).bit 0 = false ∧ ((live.setReg (dchAddr 0 0) 1).reg (dchAddr 0 0)).bit 0 = true ∧
    live.dch[0].idx.edge = none ∧
    (let s : State := { digital { idx := { edge := some ⟨1, -4, 4, false, none, 0, 0, 0⟩ } } 0 with clk := { cyc := 399 } }
     (s.dch[0].idx.edge.map fun e => e.tick) = some (s.clk.cyc / 200)) ∧
    (let s : State := { digital { idx := { edge := some ⟨1, -4, 4, false, none, 0, 0, 0⟩ } } 0 with clk := { cyc := 400 } }
     (s.dch[0].idx.edge.map fun e => decide (e.tick ≠ s.clk.cyc / 200)) = some true) := by decide +kernel
/-- Samples of three inputs, the last `k` of which are `b` and the earlier ones `a`. -/
def samples (a b : BitVec 3) (k : Nat) : Vector (BitVec 3) 16 := Vector.ofFn fun i => if 16 ≤ i.val + k then b else a
/-- The same of one input. -/
def samplesZ (a b : Bool) (k : Nat) : Vector Bool 16 := Vector.ofFn fun i => if 16 ≤ i.val + k then b else a
theorem wit_GlitchFilter : let f := live.DCH_CFG_FILT (0 : Fin 4).val
    (∀ k : Fin 16, 15 - f ≤ k.val → ((samples 0 7 (f + 1))[k]).getLsbD 0 = true) ∧
    (∃ k : Fin 16, 15 - f ≤ k.val ∧ ((samples 7 0 f)[k]).getLsbD 0 = true) ∧
    (let s := live.setReg (dchAddr 0 4) (Word.put 4 4 15)
     ∃ k : Fin 16, 15 - s.DCH_CFG_FILT (0 : Fin 4).val ≤ k.val ∧ ((samples 0 7 15)[k]).getLsbD 0 = false) := by decide +kernel
theorem wit_TransitionsCount :
    (let s := digital { on := true, cpr := 4096, pos := 4095, turns := 65535 } 0
     s.halfOn (excHalf (0 : Fin 4).val) = true ∧ s.pads.heldH.get (excHalf (0 : Fin 4).val) = false ∧
      s.dch[0].on = true ∧ s.dch[0].mode ≠ 2 ∧ 0 < s.dch[0].cpr ∧ s.dch[0].pos < s.dch[0].cpr ∧ s.dch[0].turns < 65536 ∧
      s.dchFilter 0 (samples 0 1 16) = 1) ∧
    (digital {} 0).dch[0].on = false ∧ (digital { on := true, mode := 2 } 0).dch[0].mode = 2 ∧
    ({ live with pads := { live.pads with heldH := ⟨true, true⟩ } } : State).pads.heldH.get (excHalf (0 : Fin 4).val) = true ∧
    abMove 0 1 = .up ∧ abMove 1 0 = .down ∧ abMove 0 3 = .illegal ∧ abMove 3 3 = .none := by decide +kernel
/-- A pulse of FILT samples is ignored (R206); one of FILT + 1 counts. -/
theorem test_glitch : let s := digital { on := true, cpr := 4096 } (Word.put 4 4 3)
    let f := s.DCH_CFG_FILT 0
    (after (.dchTransition 0 (samples 0 1 f)) s).dch[0].trans = 0 ∧
    (after (.dchTransition 0 (samples 0 1 (f + 1))) s).dch[0].trans = 1 := by decide +kernel
/-- After the second turn of the worked example of chapter 9 the index finds 4 counts missing and corrects them. -/
theorem test_index_slip :
    let s := digital { on := true, cpr := 4096, pos := 4092, turns := 1, slip := -1234, idx := { ref := true } } 4
    let y := (after (.indexEdge 0 (samplesZ false true 16)) s).dch[0]
    s.DCH_CFG_RESYNC 0 = 1 ∧ s.DCH_IDX_CFG_IDX_TOL 0 < 4 ∧ y.pos = 0 ∧ y.turns = 2 ∧ y.slip = -1230 ∧ y.idx.capPos = 4092 ∧
      y.idx.capExp = 0 ∧ y.idx.dev = -4 := by decide +kernel
theorem wit_IndexEdges : let s := digital { on := true, cpr := 4096, pos := 4092, idx := { ref := true } } 0
    (s.powered .dch = true ∧ s.dchSees 0 = true ∧ s.dch[0].on = true ∧ s.dch[0].mode = 0 ∧
      filtered (s.DCH_CFG_FILT (0 : Fin 4).val) (s.dch[0].lvl.getLsbD 2) (samplesZ false true 16).toList = true ∧
      s.dch[0].lvl.getLsbD 2 = false ∧ s.DCH_CFG_Z_INV (0 : Fin 4).val = 0 ∧ s.DCH_CFG_Z_GATE (0 : Fin 4).val ≠ 1 ∧
      0 < s.dch[0].cpr ∧ s.dch[0].pos < s.dch[0].cpr ∧ s.dch[0].idx.ref = true) ∧
    (s.DCH_IDX_CFG_IDX_TOL (0 : Fin 4).val < (wrapSigned 4096 ((4092 : Int) - 0)).natAbs ∧
      (wrapSigned 4096 ((s.DCH_IDX_CFG_IDX_TOL (0 : Fin 4).val : Int) - 0)).natAbs ≤ s.DCH_IDX_CFG_IDX_TOL (0 : Fin 4).val) ∧
    (digital {} 0).dch[0].on = false ∧ (digital {} 0).dch[0].idx.ref = false ∧
    (let u := digital { on := true, idx := { slip := true } } 0; u.dch[0].idx.slip = true ∧ u.inRun = true) ∧
    (let u := digital { on := true, mode := 1 } 0; u.dch[0].on = true ∧ u.dch[0].mode = 1) := by decide +kernel
theorem wit_DigitalMonitors : let s := digital { on := true, invSince := some 0 } 0
    s.powered .dch = true ∧ s.halfOn (excHalf (0 : Fin 4).val) = true ∧ s.dch[0].on = true ∧ s.dch[0].invSince = some 0 ∧
    Store.wf (fun _ => 0) s.capt = true ∧
      (digital {} 0).dch[0].on = false := by decide +kernel
/-- A digital channel in SSI mode with SSI state `y`. -/
def ssi (y : DchSsi) : State := digital { on := true, mode := 2, ssi := y } 0
theorem wit_SsiClock : (ssi {}).dch[0].ssi.frame = none ∧
    (let half := clampNat 20 2000 (live.DCH_SSI_TIM_CLK_HALF (0 : Fin 4).val)
     let s : State := { ssi { frame := some (0, 0) } with clk := { cyc := half - 1 } }
     s.dch[0].ssi.frame = some (0, 0) ∧ s.clk.cyc < 0 + half ∧
      ({ s with clk := { cyc := half } } : State).ssiClock 0 = true ∧ s.ssiClock 0 = false) ∧
    (let half := clampNat 20 2000 (live.DCH_SSI_TIM_CLK_HALF (0 : Fin 4).val)
     let k := 2 * (ssi {}).ssiLen 0 + 2
     k < 2 * (ssi {}).ssiLen 0 + 3 ∧ 0 + k * half ≤ k * half ∧ k * half < 0 + (k + 1) * half ∧
      ({ ssi { frame := some (0, 0) } with clk := { cyc := k * half } } : State).ssiClock 0 = false) := by decide +kernel
theorem wit_SsiFramesRun :
    ((ssi {}).powered .dch = true ∧ (ssi {}).halfOn (excHalf (0 : Fin 4).val) = true ∧
      (ssi {}).dch[0].on = true ∧ (ssi {}).dch[0].mode = 2 ∧ (ssi {}).ssiPin 0 = true ∧
      (ssi {}).dch[0].ssi.frame = none ∧ (ssi {}).dch[0].ssi.recTill = none ∧ (ssi {}).dch[0].ssi.due = false) ∧
    (ssi { frame := some (0, 0) }).dch[0].ssi.frame = some (0, 0) ∧ (digital {} 0).dch[0].on = false ∧
    (ssi { due := true }).dch[0].ssi.due = true ∧ (ssi { recTill := some 400 }).dch[0].ssi.recTill = some 400 ∧
    (ssi {}).dch[0].ssi.blind = false ∧ (ssi {}).ssiErr 0 true false true 0 = 0 ∧ (ssi {}).ssiErr 0 false false true 0 ≠ 0 ∧
    (ssi { runs := 14 }).dch[0].ssi.runs + 1 = 15 := by decide +kernel

/-- `live` with cross-monitor state `x` in both drives and every position channel locked, VALID and used. -/
def steered (x : XDrive) : State := { live with
  xd := Vector.replicate 2 x, pch := Vector.replicate 8 { st := .track, lp := { locked := true, used := true }, pub := { tag := 1 } } }
/-- Counts of both copies. -/
def counts (k : XCopy) : State := steered { copies := ⟨k, k⟩ }
theorem wit_ComparedTicks : live.halfOn .h0 = true ∧ live.halfOn .h1 = true ∧
    (let ok (s : State) (g : Half) : Bool := s.halfOn g && s.XMON_CFG_CMP_EN g (0 : Drive).val == 1 && !s.cfgMisLive 0 &&
       comparable (s.pch[s.srcA g 0].pub).tag && comparable (s.pch[s.srcB g 0].pub).tag
     ok live .h0 = false ∧
      (let s := (steered {}).setDup (xmonAddr 0 0) (bput (live.regH .h0 (xmonAddr 0 0)) 16 true)
       ok s .h0 = true ∧ ok s .h1 = true)) := by decide +kernel
theorem wit_CrossMonitorVerdicts : let n := live.divTicks .h1 0
    (let s := counts { angCnt := n, spdCnt := n }
     s.halfOn .h1 = true ∧ s.divTicks .h1 0 ≤ (s.xd[0].copies.get .h1).angCnt ∧ s.divTicks .h1 0 ≤ (s.xd[0].copies.get .h1).spdCnt ∧
      s.reports .xmon 0 = true ∧ s.reports .xmon (0 + s.spdSource .h1 0 (s.arbitrate .h1 0)) = true) ∧
    (let s := counts { angCnt := n - 1, spdCnt := n - 1 }
     (s.xd[0].copies.get .h1).angCnt < s.divTicks .h1 0 ∧ (s.xd[0].copies.get .h1).spdCnt < s.divTicks .h1 0) ∧
    (let s := (counts { drefCnt := n }).setDup (xmonAddr 0 0) (bput (live.regH .h0 (xmonAddr 0 0)) 17 true)
     s.XMON_CFG_REF_EN .h1 (0 : Drive).val = 1 ∧ s.divTicks .h1 0 ≤ (s.xd[0].copies.get .h1).drefCnt ∧ s.reports .xmon 4 = true ∧
      (s.xd[0].copies.get .h1).overS = false) ∧
    (steered { misCnt := 2 }).xd[0].misCnt = 2 ∧ (steered { misCnt := 1 }).xd[0].misCnt < 2 ∧ live.reports .xmon 5 = true := by
  decide +kernel
/-- The speed window of the worked example of chapter 10: 14.02 e-turn/s between 530 and 500. -/
theorem test_speed_window : live.overSpeed .h0 0 (530 * 65536) (500 * 65536) = true ∧
    live.overSpeed .h0 0 (513 * 65536) (500 * 65536) = false ∧ live.overSpeed .h0 0 (514 * 65536) (500 * 65536) = true := by
  decide +kernel
theorem wit_OffsetCapture : (live.halfOn .h0 = true ∧ (steered { capBusy := true, capCnt := 1024 }).xd[1].capBusy = true ∧
      1024 ≤ (steered { capBusy := true, capCnt := 1024 }).xd[1].capCnt) ∧
    live.xd[1].capBusy = false ∧ (steered { capBusy := true, capCnt := 1023 }).xd[1].capCnt < 1024 := by decide
/-- Drives whose holder is H0. -/
def byH0 : XDrive := { claim := ⟨true, false⟩ }
/-- A request of H0's half for a handover. -/
def request : HoReq := ⟨.h0, .pch 0, 17, 0⟩
theorem wit_AuthorityHandover :
    (let s := steered { byH0 with req := [request] }
     s.xd[0].req = request :: [] ∧ (s.waitTill 60).eligible 0 .h1 = true) ∧
    (let s : State := { live with xd := Vector.replicate 2 { byH0 with req := [request] } }
     (s.waitTill 60).eligible 0 .h1 = false ∧ (s.waitTill 60).reports .xmon 7 = true) ∧
    (let s := steered { byH0 with taking := some .h1, busy := true }; s.xd[0].taking = some .h1 ∧ s.halfOn .h1 = true) ∧
    (let s := steered byH0
     let u := ((s.setX 0 { s.xd[0] with claim := ⟨false, false⟩, orphan := none, req := [] }).watchHolder 0).retagDrive 0
     s.boot.released = true ∧ s.xd[0].busy = false ∧ s.xd[0].conflict = false ∧ s.holder 0 ≠ .both ∧
      s.heir 0 = some .h1 ∧ u.eligible 0 .h1 = true) ∧
    (let s : State := { live with xd := Vector.replicate 2 byH0 }
     let u := ((s.setX 0 { s.xd[0] with claim := ⟨false, false⟩, orphan := none, req := [] }).watchHolder 0).retagDrive 0
     s.heir 0 = some .h1 ∧ u.eligible 0 .h1 = false) ∧
    ((steered {}).holder 0 ≠ .both ∧ (steered {}).heir 0 = none) ∧
    ((steered byH0).names 0 7 = false ∧ (steered byH0).names 1 7 = false) := by decide +kernel
theorem wit_AuthorityConflictAndCommand :
    (let s := steered { claim := ⟨true, true⟩, noHolderSince := some 0 }
     s.xd[1].noHolderSince = some 0 ∧ s.boot.released = true ∧ s.xd[1].conflict = false ∧ s.holderHalf 1 = none) ∧
    ((steered byH0).holderHalf 1).isSome = true ∧ State.reset.boot.released = false ∧
    (let s := steered { byH0 with busy := true, takeCause := 3 }; s.xd[1].busy = true ∧ s.hoBusy 1 = false) ∧
    (let s : State := { steered { byH0 with busy := true, takeCause := 3 } with clk := { cyc := 20 } }; s.hoBusy 1 = true) ∧
    (let s := steered byH0
     let t := after (.authCmd 1 .h1) s
     s.xd[1].busy = false ∧ t.xd[1].busy = true ∧ s.confLive 1 = false ∧ s.hoBusy 1 = false) ∧
    (let s := steered byH0; s.holds 1 .h0 = true ∧ s.holds 1 .h1 = false ∧ s.healthOk 1 .h1 = true ∧ s.hoEn 1 = true) ∧
    (let s : State := { live with xd := Vector.replicate 2 byH0 }; s.holds 1 .h1 = false ∧ s.healthOk 1 .h1 = false) ∧
    (let s := steered { conflict := true }; s.xd[1].conflict = true ∧ s.healthOk 1 .h0 = true ∧ s.healthOk 1 .h1 = true ∧ s.hoEn 1 = true) ∧
    (let s : State := { live with xd := Vector.replicate 2 { conflict := true } }; s.healthOk 1 .h0 = false) := by decide +kernel

/-! ## Encoder emulation, angle-event scheduler, current sensing, safe state -/

/-- Both drives held by H0, every channel VALID, every encoder output equal to `x` and enabled. -/
def emulating (x : Enc) : State :=
  let s := steered byH0
  { ((List.finRange 4).foldl (fun t n => t.setDup (encAddr n 0) 1) s) with
    enc := Vector.replicate 4 x, gen := { cur := Vector.replicate 8 { tag := 1 } } }
theorem wit_EncoderEnable : (live.halfOn .h0 = true ∧
      ((live.encFollow 1).regH ((live.encFollow 1).encHalf 1) (encAddr 1 0)).bit 0 = false) ∧
    (let s := ((emulating {}).encFollow 1)
     (s.regH (s.encHalf 1) (encAddr 1 0)).bit 0 = true) := by decide +kernel
theorem wit_EncoderPreset :
    (live.halfOn .h0 = true ∧ live.encEn 1 = false) ∧
    (let s : State := { (emulating {}) with xd := Vector.replicate 2 { byH0 with busy := true, taking := some .h1 } }
     s.encEn 1 = true ∧ s.handing (s.encDrive 1) = true) ∧
    (let s : State := { (emulating {}) with xd := Vector.replicate 2 {} }
     s.encEn 1 = true ∧ s.handing (s.encDrive 1) = false ∧ s.holderHalf (s.encDrive 1) = none) ∧
    (let s := emulating { armed := true }
     let d := s.encDrive 1
     s.holderHalf d = some .h0 ∧ s.activeSrc d = some 0 ∧ s.enc[1].armed = true ∧ s.boot.released = true ∧
      s.encEn 1 = true ∧ tagValid (s.genTag 0) = true ∧ tagAcq (s.genTag 0) = false ∧
      s.gen.at' = s.clk.cyc) ∧
    live.presetDue 1 = false ∧ (live.wait 1).gen.at' ≠ (live.wait 1).clk.cyc := by decide +kernel
theorem wit_EncoderSteps : let gap := (({} : Enc).gap)
    (((live.wait 0).encFollow 2).encMayStep 2 = false) ∧
    (let s := emulating { done := true, target := 1, valid := ⟨true, true⟩ }
     let u := (s.wait gap).encFollow 2
     u.encMayStep 2 = true ∧ 0 < u.enc[2].backlog ∧ u.pads.encHeld.getLsbD 2 = false ∧
     ((s.wait (gap - 1)).encFollow 2).encMayStep 2 = false) ∧
    (let u := ((emulating { done := true, target := -1, valid := ⟨true, true⟩ }).wait gap).encFollow 2
     u.encMayStep 2 = true ∧ u.enc[2].backlog < 0 ∧ (u.enc[2].emit - ((u.enc[2].up : Int) - u.enc[2].dn)) % 2 ^ 32 = 0) ∧
    ((emulating {}).powered .enc = true ∧ ((emulating {}).wait gap).heldOff .enc 4 = false ∧
      ({ live with pads := { live.pads with encHeld := 15 } } : State).pads.encHeld.getLsbD 2 = true) ∧
    Store.wf (fun _ => 0) live.capt = true := by decide +kernel

theorem wit_SchedulerWrites : live.aev.slot[0].commit = none ∧ (live.regH live.lead (aevAddr 0x40)).bit 0 = false ∧ live.halfOn .h0 = true ∧
    (let s := live.setDup (aevAddr 0x40) 1; (s.regH s.lead (aevAddr 0x40)).bit 0 = true) := by decide +kernel
/-- `live` with every output of the scheduler equal to `o`. -/
def outputs (o : AevOut) : State := { live with aev := { live.aev with out := Vector.replicate 8 o } }
theorem wit_SchedulerPins :
    (let s := emulating {}
     s.halfOn .h0 = true ∧ (s.holderHalf (s.outDrive 7)).isSome = true ∧ s.aevClaimed 7 = false ∧
      s.aev.out[7].now.ops = [] ∧ s.pads.aevHeld.getLsbD 7 = false ∧ s.boot.released = true) ∧
    (live.holderHalf (live.outDrive 7)).isNone = true ∧
    (let s : State := { emulating {} with aev := (outputs { pulse := some 40 }).aev }
     s.aev.out[7].pulse = some 40 ∧ (s.holderHalf (s.outDrive 7)).isSome = true) ∧
    (outputs { pulse := some 40 }).aev.out[7].pulse = some 40 ∧ live.aev.out[7].pulse = none ∧
    (live.powered .aev = true ∧ live.boot.released = true ∧ live.aevClaimed 7 = false ∧ live.heldOff .aev 7 = false ∧
      live.aev.out[7].edgeAt = none) ∧
    (let s : State := { outputs { edgeAt := some 0 } with clk := { cyc := 16 } }; s.aev.out[7].edgeAt = some 0 ∧ s.clk.cyc ≤ 0 + 16) ∧
    ({ live.setReg (dchAddr 3 4) (Word.put 24 4 7 ||| 2) with dch := Vector.replicate 4 { mode := 2 } } : State).aevClaimed 7 =
      true := by decide +kernel
/-- Both drives held by H0 and not frozen, the scheduler enabled, every slot equal to `x`. -/
def scheduling (x : AevSlot) : State :=
  { ((emulating {}).setDup (aevAddr 0x40) 1) with
    aev := { live.aev with slot := Vector.replicate 256 x, live := ⟨#[true, true], rfl⟩ } }
theorem wit_SlotSteps :
    (live.aevEn .h0 = false ∧ live.holderHalf 0 = none) ∧
    (let s := (scheduling { ang := 1 }).setDup (xmonAddr 0 0) 0x54
     s.aevEn .h0 = true ∧ s.holderHalf s.aev.slot[3].drv = some .h0 ∧ s.slotV s.aev.slot[3] .h0 = none) ∧
    (let s := scheduling { ang := 1, hold := true }
     s.aev.slot[3].hold = true ∧ (s.slotV s.aev.slot[3] .h0).map Rat.floor = some s.aev.slot[3].c) ∧
    (∀ c ∈ [(0 : Int), -1, 1], let s := scheduling { ang := 1, c := c }
      let x := s.aev.slot[3]
      s.aevEn .h0 = true ∧ x.en = true ∧ s.aev.live[x.drv] = true ∧ s.holderHalf x.drv = some .h0 ∧ s.slotV x .h0 = some 0 ∧
        x.hold = false) ∧
    ((0 : Rat) < (0 : Int) + 1 ∧ ((0 : Int) : Rat) - live.aevHyst .h0 ≤ 0) ∧ ((-1 : Int) : Rat) + 1 ≤ 0 ∧
    ((0 : Rat) < (1 : Int) + 1 ∧ (0 : Rat) < (1 : Int) - live.aevHyst .h0) ∧ (scheduling {}).gen.at' = ((scheduling {}).wait 0).clk.cyc ∧
    (({ ang := 0x10 } : AevSlot).admits false = false ∧ ({ ang := 0x10 } : AevSlot).admits true = true) := by decide +kernel
/-- A slot whose action drives AEV_7, one whose action is the trigger of recorder 0, and one whose action is none. -/
theorem wit_FiringActs :
    (let u := scheduling { act := 0x40000000 }
     let x := u.aev.slot[3]
     1 ≤ x.action ∧ x.action ≤ 4 ∧ x.target < 8 ∧ u.outDrive 0 = x.drv ∧ u.aevClaimed 0 = false ∧ u.aev.out[0].now.ops = [] ∧
      u.boot.released = true ∧ u.pads.aevHeld.getLsbD 0 = false) ∧
    ({ live.pads with aevHeld := 0x80 } : Pads).aevHeld.getLsbD 7 = true ∧ 5 ≤ ({ act := 0x70000000 } : AevSlot).action ∧
    ({} : AevSlot).action = 0 ∧ ({ act := 0x10080000 } : AevSlot).target = 8 := by decide +kernel
theorem wit_PredictionSwitches : live.gen.wait = [] ∧
    (let s : State := { live with gen := { wait := [(200, Vector.replicate 8 {})] } }
     s.gen.wait = (200, Vector.replicate 8 {}) :: []) ∧
    (scheduling { commit := some (1, none, some 2) }).aev.slot[0].commit = some (1, none, some 2) ∧
    live.aev.slot[0].commit = none := by
  decide +kernel
/-- A trigger of action `a` for target `t`. -/
def trigger (a t : Nat) : AevTrig := ⟨0, a, t, 100, 0⟩
theorem wit_InternalTriggers : live.aev.trig = [] ∧
    (let s : State := { (emulating {}) with
        aev := { trig := [trigger 7 0] }, frec := Vector.replicate 8 { st := .armed, cfg := 1 }
        dch := Vector.replicate 4 { on := true, mode := 2 } }
     s.aev.trig = trigger 7 0 :: [] ∧ s.frec[0].st ≠ .off ∧ s.frec[0].cfg.bit 0 = true ∧ s.pchOn 0 = true ∧
      s.dchOn 0 = true ∧ s.dch[0].mode = 2 ∧ s.boot.released = true ∧ s.halfOn .h0 = true) ∧
    8 ≤ (trigger 6 8).target ∧ 4 ≤ (trigger 8 4).target ∧ State.reset.boot.released = false ∧
    (({ live with pwr := { half := ⟨.off, .off⟩ } } : State).halfOn .h0 = false ∧
      ({ live with pwr := { half := ⟨.off, .off⟩ } } : State).halfOn .h1 = false) ∧
    live.pchOn 0 = false ∧ live.frec[0].st = .off ∧ live.dchOn 0 = false := by decide +kernel

/-- `live` with both modulator clocks on, every input enabled as a phase current and in state `x`. -/
def sensing (x : SdmIn) : State :=
  let s := (live.setDup 0xA0040 (bput (bput (live.regH .h0 0xA0040) 0 true) 1 true))
  { ((List.finRange 8).foldl (fun t n => t.setDup (sdmAddr n 0) (bput (bput (live.regH .h0 (sdmAddr n 0)) 0 true) 2 true)) s) with
    sdm := { live.sdm with inp := ⟨Vector.replicate 8 x, Vector.replicate 8 x⟩ } }
theorem wit_CurrentBits : live.sdclkRuns (0 : Fin 2).val = false ∧ (sensing {}).sdclkRuns (0 : Fin 2).val = true ∧
    (sensing {}).sdmTakes 0 .h0 0 = true ∧ live.sdmTakes 0 .h0 0 = false ∧
    (let s : State := { sensing { cnt := 190 } with sdm := { (sensing { cnt := 190 }).sdm with pendLatch := [⟨0, 100, 32, [], [], 0⟩] } }
     s.sdm.pendLatch[0]? = some ⟨0, 100, 32, [], [], 0⟩ ∧ (⟨0, 100, 32, [], [], 0⟩ : SdmPend).lacks 5 = true ∧ s.canLatch 5 = true ∧
      100 ≤ 100 + s.smpDly s.lead 5) ∧
    (sensing { cnt := 189 }).canLatch 5 = false := by decide +kernel
/-- `sensing` with `q` waiting to be latched. -/
def latching (x : SdmIn) (q : SdmPend) : State := { sensing x with sdm := { (sensing x).sdm with pendLatch := [q] } }
/-- `live` in the release gap of both drives, up to cycle `k`. -/
def safeGap (k : Nat) : State := { live with safe := Vector.replicate 2 { gapUntil := some k } }
theorem wit_CurrentOutputs : State.reset.boot.released = false ∧ (sensing {}).boot.released = true ∧
    ((sensing {}).sdmFiltered .h0 0 = true ∧ (sensing {}).halfOn .h1 = true) ∧
    (sensing {}).latchTake (sensing {}).sdm.pendLatch = none ∧
    ((sensing {}).safe[0].ssl.h0 = true ∧ (safeGap 400).safe[0].gapUntil.isSome = true) ∧
    (let q : SdmPend := ⟨0, 100, 32, [(3, 32)], [(5, 7)], 0⟩
     let s := latching { cnt := 190 } q
     s.latchTake s.sdm.pendLatch = some (q, []) ∧ (5, 7) ∈ q.got ∧ q.src = [(3, 32)]) := by decide +kernel
theorem wit_CurrentFaults :
    (let s := sensing { cnt := 31, hiRun := live.ocCnt .h0 0, loRun := live.ocCnt .h0 0, sameRun := 32 }
     s.powered .sdm = true ∧ s.halfOn .h0 = true ∧ s.boot.released = true ∧ s.sdmJudged .h0 0 = true ∧ 31 ≤ (s.inAt .h0 0).cnt ∧
      s.ocCnt .h0 0 ≤ (s.inAt .h0 0).hiRun ∧ s.ocCnt .h0 0 ≤ (s.inAt .h0 0).loRun ∧ 32 ≤ (s.inAt .h0 0).sameRun) ∧
    (live.inAt .h0 0).hiRun < live.ocCnt .h0 0 ∧ (live.inAt .h0 0).loRun < live.ocCnt .h0 0 ∧
    (let s : State := { live with sdm := { live.sdm with mis := Vector.replicate 8 2 } }
     s.powered .sdm = true ∧ s.halfOn .h1 = true ∧ ∃ i : Fin 8, 2 ≤ s.sdm.mis[i]) ∧ (∀ i : Fin 8, live.sdm.mis[i] < 2) ∧
    (let s : State := { live with sdm := { live.sdm with tq := ⟨Vector.replicate 2 { sumRun := max 1 (live.SDM_TQ_CHK_SUM_CNT .h0 1) },
        Vector.replicate 2 {}⟩ } }
     max 1 (s.SDM_TQ_CHK_SUM_CNT .h0 1) ≤ ((s.sdm.tq.get .h0)[1]).sumRun) := by decide +kernel
/-- Both drives held by H0, the torque monitor enabled with its command as reference, and in state `x`. -/
def torque (x : TqCopy) : State := { ((steered byH0).setDup (tqAddr 0 0) 1) with
  sdm := { live.sdm with tq := ⟨Vector.replicate 2 x, Vector.replicate 2 x⟩ } }
theorem wit_TorqueMonitor : let n := max 1 (live.SDM_TQ_CHK_TQ_CNT .h0 0)
    ((torque {}).powered .sdm = true ∧ (torque {}).holderHalf 0 = some .h0 ∧
      max 1 ((torque { devCnt := n }).SDM_TQ_CHK_TQ_CNT .h0 0) ≤ (((torque { devCnt := n }).sdm.tq.get .h0)[0]).devCnt ∧
      (((torque { devCnt := n - 1 }).sdm.tq.get .h0)[0]).devCnt < max 1 (live.SDM_TQ_CHK_TQ_CNT .h0 0)) ∧
    (let s := torque {}; s.boot.released = true ∧ s.SDM_TQ_CFG_EN s.lead 0 = 1 ∧ s.SDM_TQ_CFG_REF_SRC s.lead 0 = 0 ∧
      s.heldOff .sdm 24 = false ∧ s.heldOff .sdm 26 = false ∧ s.halfOn .h0 = true) ∧
    (let s : State := { torque {} with pwr := { half := ⟨.off, .on⟩ } }; s.halfOn .h0 = false ∧ s.halfOn .h1 = true) := by
  decide +kernel
/-- Drives held by H0, with safe state `x`. -/
def safeDrives (x : SafeDrive) : State := { steered byH0 with safe := Vector.replicate 2 x }
theorem wit_ReleaseRequest : live.holderHalf 1 = none ∧
    (let s : State := { (steered byH0) with sdm := { live.sdm with dis := ⟨true, true⟩ } }; s.mayRelease 1 = false) ∧
    (let s := safeDrives { form := ⟨true, true⟩ }; s.holderHalf 1 = some .h0 ∧ s.mayRelease 1 = true ∧ s.sys.scan = false ∧
      (s.safe[1].form.get .h0 && s.safe[1].ssl.get .h0) = true) ∧
    (let s := safeDrives { ssl := ⟨false, false⟩, rel := true, gapUntil := some 400 }
     s.safe[1].gapUntil = some 400 ∧ (s.holderHalf 1).isSome = true ∧ s.safe[1].rel = true ∧ s.safe[1].ssl = ⟨false, false⟩) ∧
    live.safe[1].gapUntil = none := by decide +kernel
theorem wit_DisLatchesAndPins : live.halfOn .h0 = true ∧
    (let s := (after (.refLoss .h0) live).setDup 0xA0040 (bput 0 12 true)
     s.SDM_GLB_CFG_DIS_ON_DEV s.lead = 1 ∧ s.devSafe = true) ∧
    (live.devSafe = false ∧ ((steered byH0).holderHalf 0).isSome = true ∧ ((steered byH0).holderHalf 1).isSome = true) ∧
    (let s : State := { live with pads := { live.pads with dis := { sink := true, holdUntil := some 0 } } }
     (s.vpin .dis).holdUntil = some 0) ∧ (live.vpin .dis).holdUntil = none := by decide +kernel

/-! ## Auxiliary measurement, faults, the lock, Cruise -/

/-- `live` with the visit `v` at converter 1 (slot 0 with the settings of its registers), and the slots enabled that `en` names. -/
def visiting (settling : Bool) (ended : Option Nat) (en : Word) : State :=
  let s := live.setReg 0xB0040 en
  let v : AuxVisit := ⟨0, s.auxSet 0, 0, 0, false, [], settling, 400, 0, none, ended⟩
  { s with aux := { s.aux with conv := vset s.aux.conv 1 { visit := some v } } }
theorem wit_AuxVisits :
    ((visiting true none 1).aux.conv[1].visit.map fun v => (v.settling, v.ended, v.till)) = some (true, none, 400) ∧
    ((visiting false none 1).aux.conv[1].visit.map fun v => (v.settling, v.ended)) = some (false, none) ∧
    ((visiting false (some 400) 1).aux.conv[1].visit.map fun v => v.ended) = some (some 400) ∧
    (visiting false (some 400) 1).powered .aux = true ∧ (visiting true none 1).aux.conv[0].visit = none ∧
    (⟨Word.put 20 5 4, 0, 0, 0, 0, 0, 0, 0⟩ : AuxSet).pin 4 = some 4 := by decide +kernel
/-- `live` with slot 15 enabled. -/
def slot15 : State := live.setReg 0xB0040 0x8000
theorem wit_AuxSlots :
    (live.powered .aux = true ∧ ((live.dropVisit 0).dropVisit 1).auxCond 15 = 0 ∧ live.auxEn 15 = false ∧ slot15.auxEn 15 = true) ∧
    (let s : State := { slot15 with aux := { slot15.aux with calf := 3 } }; ((s.dropVisit 0).dropVisit 1).auxCond 15 ≠ 0) ∧
    (let s : State := { live with aux := { live.aux with slot := Vector.replicate 16 { limRun := max 1 (live.AUX_LIM_LO_LIM_CNT 15) } } }
     max 1 (s.AUX_LIM_LO_LIM_CNT 15) ≤ s.aux.slot[15].limRun) ∧
    live.aux.slot[15].limRun < max 1 (live.AUX_LIM_LO_LIM_CNT 15) ∧ Word.bit 0 15 = false ∧ Word.bit 0x8000 15 = true ∧
    (live.halfOn (live.auxHalf 15) = true ∧ Store.wf (fun _ => 0) live.capt = true ∧ live.halfOn (Half.byNum 1) = true) := by
  decide +kernel

/-- `live` with a report of REF_LOSS_H0 in this cycle. -/
def reported : State := after (.refLoss .h0) live
theorem wit_FaultHeaderWrites : (live.pageOn .sys = true ∧ live.pageOn (.pch 7) = true) ∧
    reported.reactBusy .sys = true ∧ (live.reactBusy .sys = false ∧ (live.hdr .sys).now.n = 0) ∧
    (let s := live.report .sys 8 .h0 .detector
     s.reactBusy .pwr = false ∧ (s.report .pwr 0 .shared .detector).reactBusy .pwr = false ∧
      ((s.report .pwr 0 .shared .detector).hdr .pwr).now.n ≠ 0 ∧
      ((s.report .pwr 0 .shared .detector).hdr .pwr).now.cyc = s.clk.cyc) ∧
    ((live.setReg (Page.base .sys + 0x10) 0x80000000).fltForce .sys).getLsbD 31 = true ∧ (live.fltLive .sys).getLsbD 31 = false ∧
    live.powered .sys = true := by
  decide +kernel
theorem wit_ReportsTaken :
    State.reset.powered .sys = false ∧ live.powered .sys = true ∧ ((live.hdr .sys).full = false ∧ (live.hdr .sys).now.n = 0) ∧
    ((reported.hdr .sys).full = true ∧ (reported.hdr .sys).now.n ≠ 0 ∧ (reported.hdr .sys).now.cyc = reported.clk.cyc ∧
      ((reported.wait 1).hdr .sys).now.cyc ≠ (reported.wait 1).clk.cyc) ∧
    ((live.fltMask .sys).getLsbD 31 = false ∧ (live.hdr .sys).sticky.getLsbD 31 = false) ∧
    ((live.setReg 0x0C 0x80000000).fltMask .sys).getLsbD 31 = true ∧
    live.reaction .sys 0 = 3 ∧ live.boot.released = true ∧ live.reaction .pwr 0 = 0 ∧
    (let s := steered byH0; s.reaction (.pch 0) 5 = 1 ∧ s.scope (.pch 0) 5 = some .h0 ∧ s.affects (.pch 0) 5 0 = true ∧
      s.hoEn 0 = true ∧ s.holds 0 .h0 = true ∧ s.xd[0].busy = false ∧ s.xd[0].req = []) ∧
    (let s := steered byH0; s.reaction (.pch 4) 5 = 1 ∧ s.scope (.pch 4) 5 = some .h1 ∧ s.affects (.pch 4) 5 0 = true ∧
      s.holds 0 .h1 = false ∧ s.taken (.pch 4) 5 1 (s.affects (.pch 4) 5) = 0) ∧
    (let s := (sensing {}); ∃ b : Fin 32, s.reaction .sdm b.val = 2 ∧ s.affects .sdm b.val 0 = true) := by decide +kernel
theorem wit_FaultEvents :
    (let s := steered { holdHo := { till := 2000 } }; s.nextHoldEnd .xmon = some 2000) ∧ live.nextHoldEnd .sys = none ∧
    (let s : State := { live with badPar := [0x58] }
     s.badPar.any (inPage .sys) = true ∧ s.powered .sys = true ∧ (s.hdr .sys).ueLive.getLsbD 0 = false) ∧
    live.badPar.any (inPage .sys) = false ∧ live.alive.running = false ∧
    (let s : State := { live with alive := { running := true, next := 400 } }
     s.alive.running = true ∧ s.devSafe = false ∧ s.pads.heldCore = false) := by decide +kernel
/-- `live` with the first write of the key for block `b` at cycle `k`, `k` ≤ 4000 cycles ago or later as `now` says. -/
def firstKey (b : Byte) (k now : Nat) : State :=
  { live with unlock := { live.unlock with first := some (b, k) }, clk := { live.clk with cyc := now } }
theorem wit_UnlockSequence : unlockMask 0x12 = none ∧ unlockMask 0x11 = some 0x20000 ∧
    ({ live with safe := Vector.replicate 2 { rel := true } } : State).safe[0].rel = true ∧ State.reset.boot.released = false ∧
    (firstKey 0x10 100 100).unlock.first = some (0x10, 100) ∧
    (let s := (firstKey 0x11 100 4100); s.unlock.first = some (0x11, 100) ∧ s.clk.cyc ≤ 100 + 4000 ∧ s.boot.released = true ∧
      s.safe[0].rel = false ∧ s.safe[1].rel = false) ∧
    100 + 4000 < (firstKey 0x11 100 4101).clk.cyc ∧ live.unlock.first = none ∧
    (let s : State := { live with unlock := { live.unlock with blocks := 0x20000 } }; s.unlock.blocks.getLsbD 17 = true) := by
  decide +kernel
/-- The register lock that the worked example of chapter 21 meets: DENIED while PCH is locked, OK once it is open. -/
theorem test_locked_write : let s := after (.unlockSecond 4) (after (.unlockFirst 4) live)
    (after (.registerWrite 0x42044 0x8312) live).wst = .denied ∧ (after (.registerWrite 0x42044 0x8312) s).wst = .ok ∧
    (after (.registerWrite 0x42044 0x8312) s).reg 0x42044 = 0x8312 := by decide +kernel

/-- `live` with Cruise enabled and state `c`. -/
def cruising (c : Crz) : State := { (live.setReg 0xD0040 1) with crz := c }
theorem wit_CruiseRoundStarts :
    ((cruising {}).cruiseOn = true ∧ (cruising {}).crz.idle = true ∧ (cruising {}).crz.todo = []) ∧
    (let s := cruising { act := ⟨#[some 0, none, some 10], rfl⟩, todo := [2, 11] }
     s.cruiseOn = true ∧ s.crz.idle = false ∧ s.crz.act[(2 : Fin 3)] = some 10 ∧ s.crz.again = false ∧
      s.crz.todo.Pairwise (· < ·) ∧ 11 ∈ s.crz.todo ∧ s.itemEn 11 = true ∧ s.itemHalfOn 11 = true) ∧
    State.reset.cruiseOn = false := by decide +kernel
theorem wit_CruiseRuns :
    (let s := cruising { act := ⟨#[some 0, none, some 10], rfl⟩, banks := 1 }
     s.crz.act[laneOf 10] = some 10 ∧ s.runRate 10 ≠ 0 ∧ s.stopsAt 10 3 8192 = false ∧ s.stopsAt 10 3 8191 = true ∧
      s.stopsAt 10 2 0 = true ∧ s.powered .crz = true ∧ s.crz.act[laneOf 1] ≠ some 1 ∧ yields 10 = true) ∧
    ((let s := (cruising { act := ⟨#[none, none, some 10], rfl⟩ }).setReg (Page.base .mem + 0x34) 1; s.runRate 10 = 0)) ∧
    (runResult 12 true true = 2 ∧ runResult 12 true false ≠ 2) ∧ yields 0 = false ∧
    (let s := cruising { lastEnd := ⟨#[none, none, some (10, 0)], rfl⟩ }
     s.crz.act[laneOf 10] ≠ some 10 ∧ s.crz.lastEnd[laneOf 10] = some (10, s.clk.cyc)) ∧
    (cruising {}).crz.lastEnd[laneOf 10] ≠ some (10, (cruising {}).clk.cyc) := by decide +kernel

/-! ## Time base, network, flight recorder -/

theorem wit_TimeSetSteps : let disc := live.setReg 0xE0048 1
    let back : State := { live.setReg 0xE0048 2 with clk := { time := 5 * 2 ^ 32 } }
    (live.qb = false ∧ disc.TIME_CFG_DISC_EN = 1) ∧ ((live.setReg 0xE0048 0).TIME_CFG_DISC_EN ≠ 1 ∧ live.TIME_CFG_NO_BACK ≠ 1) ∧
    (back.TIME_CFG_NO_BACK = 1 ∧ back.TIME_CFG_DISC_EN ≠ 1 ∧ back.now = 5 ∧
      ((back.setReg 0xE0070 4).TIME_SET_LO_SET : Int) - (back.now.toNat : Int) < 0) ∧ live.powered .time = true := by
  decide +kernel
theorem wit_BackwardSets :
    (let s := ({ live.setReg 0xE0048 2 with clk := { time := 5 * 2 ^ 32 } } : State).setReg 0xE0070 4
     s.TIME_CFG_DISC_EN ≠ 1 ∧ (s.setReg 0xE0074 0).TIME_CFG_NO_BACK = 1 ∧
      (0 : Word).toNat * 2 ^ 32 + (s.setReg 0xE0074 0).TIME_SET_LO_SET < s.now.toNat) ∧
    ({ live with qb := true } : State).qb = true := by decide +kernel
/-- `live` as gPTP slave on port 0 and master on port 1, both ports linked and addressed, discipline on. -/
def netting (t : Tim) (x : Port) : State :=
  { ((((live.setReg 0xE0048 1).setReg 0xF0040 0xFF33).setReg 0xF004C (bput (bput (bput (live.reg 0xF004C) 0 true) 1 true) 4 true)).setReg
      0xF0044 0x11223344) with tim := t, net := { port := Vector.replicate 2 { x with link := true, pdlyOk := true } } }
theorem wit_ServoActs : let thr := 1000 * max 1 live.TIME_THR_STEP_THR
    ((live.setReg 0xE0048 0).TIME_CFG_DISC_EN ≠ 1 ∧ live.slavePort ≠ some 0) ∧
    (let s := netting { st := .acq, good := 7, gmUsed := true, gm := 1 } {}
     s.qb = false ∧ s.TIME_CFG_DISC_EN = 1 ∧ s.boot.released = true ∧ s.slavePort = some 0 ∧ s.powered .time = true ∧
      s.tim.gmUsed = true ∧ s.tim.gm ≠ 2 ∧ thr < (thr + 1 : Int).natAbs ∧ ¬ (thr < (thr : Int).natAbs) ∧ s.tim.slewTill = none) ∧
    (netting { st := .free } {}).tim.st = .free ∧
    (let s := netting { slewTill := some 400 } {}; s.tim.slewTill = some 400) ∧
    ((netting {} {}).setReg 0xE0048 3).TIME_CFG_NO_BACK = 1 ∧ (netting {} {}).TIME_CFG_NO_BACK ≠ 1 := by decide +kernel
/-- A Sync with a Follow_Up whose offset is 10 ns: LOCKED after the eighth good pair (R380). -/
theorem test_servo_locks : (after (.syncPair ⟨0, 1000010, 1000000, 0, 125000000, 1⟩)
    (netting { st := .acq, good := 7 } {})).tim.offset = 10 := by decide +kernel
theorem wit_GptpMessages :
    (let s := netting {} {}
     s.portUp 1 = true ∧ s.portRole 1 = 2 ∧ s.portRole 0 ≠ 2 ∧ s.slavePort = some 0 ∧ s.asCapable 1 = true ∧
      (s.fltLive .time).getLsbD 0 = false ∧ s.slavePort ≠ some 1 ∧ s.NET_PTP_CFG_PRIO1 = 255 ∧ (s.net.port[1]).annAt = none ∧
      s.passesOn = false ∧
      (s.net.port[1]).cur = none ∧ (s.net.port[1]).q = Vector.replicate 4 []) ∧
    ((netting {} {}).setReg 0xF004C 0).NET_PTP_CFG_PRIO1 < 255 ∧
    (netting {} { annAt := some 0 }).net.port[1].annAt = some 0 ∧ live.portUp 0 = false ∧
    (let s := (netting {} {}).setReg (Page.base .time + 0x10) 1
     (s.fltLive .time).getLsbD 0 = true ∧ s.isGm = false) ∧
    (let s := netting {} { relay := some ⟨0, 65536000, 250, some 2000⟩ }
     (s.net.port[1]).relay = some ⟨0, 65536000, 250, some 2000⟩) ∧ (netting {} {}).net.port[1].relay = none := by decide +kernel
/-- A frame of 60 bytes to the address of the device, or not, of type `ty`. -/
def frameTo (own : Bool) (ty : Byte × Byte) : List Byte :=
  (if own then [0, 0, 0x11, 0x22, 0x33, 0x44] else [0, 0, 0, 0, 0, 1]) ++ List.replicate 6 0 ++ [ty.1, ty.2] ++ List.replicate 46 2
/-- A gPTP frame of 80 bytes to the device: message type `ty`, domain 0, every other byte 0. -/
def gptpTo (ty : Byte) : List Byte :=
  (frameTo true (0x88, 0xF7)).take 14 ++ [ty] ++ List.replicate 65 0
/-- `netting` with control frames of type 0x88B5 taken, queues 49 and 50 enabled. -/
def controlled : State :=
  ((netting {} {}).setReg 0xF0054 0x188B5).setReg (0x100108 + 49 * 0x40) 1
theorem wit_FramesPass_gptp : let s := controlled
    (let b := frameTo true (0x88, 0xF7)
     discards b = false ∧ s.accepts b = true ∧ etherType b = 0x88F7 ∧ gptpDiscards (payloadOf b) = true) ∧
    (let b := gptpTo 2; discards b = false ∧ s.accepts b = true ∧ etherType b = 0x88F7 ∧ gptpDiscards (payloadOf b) = false ∧
      gptpType (payloadOf b) = 2) ∧
    (let b := gptpTo 11; gptpType (payloadOf b) = 11 ∧ gptpField (payloadOf b) 61 2 < 255 ∧
      gptpField (payloadOf b) 20 8 ≠ s.clockId) := by decide +kernel
theorem wit_FramesPass : let s := controlled
    live.portUp 0 = false ∧ s.portUp 0 = true ∧ s.portUp 1 = true ∧ discards (frameTo true (0x88, 0x08)) = true ∧
    discards (List.replicate 13 0) = true ∧ discards (List.replicate 1519 0) = true ∧
    (let b := frameTo true (0x88, 0xB5)
     discards b = false ∧ s.accepts b = true ∧ etherType b = s.NET_CTL_ETYPE_CTL_ETYPE ∧ s.NET_CTL_ETYPE_CTL_EN = 1 ∧
      dstOf b = s.macAddr ∧ recLen b ≤ (s.que.q[49]).limit ∧ s.queEn 49 = true ∧ s.ringBad 49 = false ∧
      (s.que.q[49]).halted = false ∧ (s.que.q[49]).staged = [] ∧ (s.que.q[49]).same = []) ∧
    ({ base := 49 * 0x2000, size := 128 } : Queue).limit < recLen (frameTo true (0x88, 0xB5)) ∧
    (let b := frameTo true (0x90, 0x00); s.accepts b = true ∧ etherType b ≠ s.NET_CTL_ETYPE_CTL_ETYPE) ∧
    (let b := frameTo false (0x08, 0x00); s.accepts b = false ∧ discards b = false ∧ s.NET_CTRL_FWD_01 = 1) ∧
    live.net.port[0].cur = none ∧
    (let t := netting {} { cur := some (⟨.pdelayReq, 0, [], 64, 0, 0, false⟩, 100) }
     (t.net.port[0]).cur = some (⟨.pdelayReq, 0, [], 64, 0, 0, false⟩, 100)) := by decide +kernel
/-- `netting` with stream 0 fed by queue 0, whose ring holds `l`, on both ports. -/
def streaming (l : List RingRec) (halted : Bool) : State :=
  let s := (netting {} {}).setReg 0xF0200 3
  { s with que := { s.que with q := vset s.que.q 0 { ring := l, halted := halted } } }
theorem wit_LinksAndStreams :
    (live.powered .net = true ∧ (live.net.str[0]).lost ≤ 255) ∧
    (let s := netting {} {}; s.portEn 0 = true ∧ s.macAddr ≠ 0) ∧
    (let s : State := { netting {} {} with pwr := { st := .lookout } }; s.portListens 0 = true ∧ s.powered .net = true) ∧
    (live.portEn 0 = false ∧ live.portListens 0 = false) ∧ live.streamDrains 0 = false ∧
    (let s := streaming [] false; s.streamDrains 0 = true ∧ (s.que.q[0]).badEcc = 0 ∧ (s.que.q[0]).ring = []) ∧
    ((streaming [⟨24, 0⟩] true).que.q[0]).halted = true ∧
    (let s := streaming [⟨24, 0⟩] false; s.streamDrains 0 = true ∧ (s.que.q[0]).ring = ⟨24, 0⟩ :: [] ∧ (s.que.q[0]).halted = false ∧
      (s.NET_STR_CFG_PORTS 0).testBit 1 = true ∧ s.portUp 1 = true ∧ s.powered .net = true) ∧
    2 * live.maxLat 0 < (2 * live.maxLat 0 + 1) - 0 := by decide +kernel
/-- `live` with recorder 7 in state `f`, its ring at `b` with `n` entries. -/
def recording (f : Frec) (b n : Word) : State :=
  { ((live.setReg (0xE0104 + 7 * 0x20) b).setReg (0xE0108 + 7 * 0x20) n) with frec := Vector.replicate 8 f }
theorem wit_RecorderRuns :
    (let s := recording {} 0x7FFFE0 1
     s.FREC_BASE_BASE 7 % 32 = 0 ∧ 0x80000 ≤ s.FREC_BASE_BASE 7 ∧ s.FREC_BASE_BASE 7 + 32 * max 1 (s.FREC_LEN_ENTRIES 7) ≤ 0x800000) ∧
    (let s := recording {} 0x7FFFE0 2
     ¬(s.FREC_BASE_BASE 7 + 32 * max 1 (s.FREC_LEN_ENTRIES 7) ≤ 0x800000)) ∧
    (recording {} 0 1).frec[7].st ≠ .armed ∧
    (let s := recording { st := .post } 0 1; s.frec[7].st = .post ∧ s.frec[7].pendCyc = s.clk.cyc) ∧
    (let s := recording { st := .armed, pend := 1, pendCyc := 1 } 0 1; s.frec[7].pend ≠ 0 ∧ s.frec[7].pendCyc ≠ s.clk.cyc) ∧
    (let s : State := { recording { base := 0x100000 } 0 1 with pwr := { bank := Vector.replicate 8 .off } }
     s.bankOn (bankOf (s.frec[7].base + 32 * s.frec[7].next)) = false) ∧
    (let s := recording { st := .armed } 0 1; s.frec[7].st = .armed ∧ s.frec[7].pend = 0) ∧
    (let s := recording { st := .armed, pend := 1 } 0 1; s.frec[7].pend.getLsbD (TrigCause.bit .aev) = true) ∧
    (let s := recording { st := .post, base := 0x100000, due := some (List.replicate 32 7), cfg := 0x10000, post := 0 } 0 1
     s.frec[7].due = some (List.replicate 32 7) ∧ s.bankOn (bankOf (s.frec[7].base + 32 * s.frec[7].next)) = true ∧
      s.frec[7].st = .post ∧ s.frec[7].post < s.frec[7].cfg.fld 16 16 ∧ Memory.wf sramDefault s.sram = true) ∧
    (let s := recording { st := .post, cfg := 0x10000, post := 1 } 0 1; s.frec[7].cfg.fld 16 16 ≤ s.frec[7].post) := by decide +kernel

/-! ## Host interface, queues, power states, TAP -/

/-- The CRC_REQ of a request. -/
def crcOf (op : Nat) (a : Word) (len : BitVec 16) (d : List Word) : Byte := crc8 (reqBytes op a len d)
theorem answers_live : live.answers := by unfold State.answers; decide
theorem wit_AwakeFrames :
    ((Instr.read 0x10 0x40 0 (crcOf 0x10 0x40 0 [])).request = some (reqBytes 0x10 0x40 0 [], crcOf 0x10 0x40 0 [])) ∧
    (live.asleep = false ∧ live.hostWaking.hears = true ∧ live.hostWaking.sys.scan = false ∧
      crc8 (reqBytes 0x10 0x40 0 []) ≠ crcOf 0x10 0x40 0 [] + 1) ∧
    (State.reset.asleep = false ∧ State.reset.hostWaking.hears = false) ∧
    (let s : State := State.hostWaking { live with sys := { live.sys with scan := true } }; s.hears = true ∧ s.sys.scan = true) ∧
    (let s := atHeader.hostWaking; s.hears = true ∧ s.sys.scan = false ∧ s.boot.released = false ∧ s.boot.inHold = false) ∧
    ({ live with pwr := { st := .waking } } : State).asleep = false := by decide +kernel
theorem wit_EnteringFrames :
    (let s : State := { live with pwr := { st := .entering, core := .off } }; s.pwr.st = .entering ∧ s.coreOn = false) ∧
    (let s : State := { live with pwr := { st := .entering } }; s.coreOn = true ∧ s.boot.phase ≠ .reset) ∧
    crc8 (reqBytes 0x10 0x40 0 []) = crcOf 0x10 0x40 0 [] ∧ crc8 (reqBytes 0x10 0x40 0 []) ≠ crcOf 0x10 0x40 0 [] + 1 := by
  decide +kernel
theorem wit_BurstsAccess_length : (63 : BitVec 16).toNat + 1 = 64 ∧ 64 < (64 : BitVec 16).toNat + 1 ∧
    (0x41 : Word).toNat % 4 ≠ 0 := by decide +kernel
theorem wit_BurstsAccess_cmd : (0x50 : Byte) ∉ [(0x10 : Byte), 0x20, 0x30, 0x31, 0x40] := by decide
theorem wit_BurstsAccess_read : (live.hostReads 0x3C 1).isSome = true ∧ (live.hostRead 0x1FFF0000).1 ≠ .ok := by decide +kernel
theorem wit_BurstsAccess_write : (live.hostWrites 0x68 [0x7A5C0004]).isSome = true ∧ (live.hostWrite 0x58 0).1 ≠ .ok := by
  decide +kernel
/-- `live` with queue 5 equal to `q`, and `cfg` in its configuration. -/
def queue5 (q : Queue) (cfg : Word) : State :=
  let r : Queue := { q with base := 5 * 0x2000 }
  { (live.setReg (0x100108 + 5 * 0x40) cfg) with que := { live.que with q := vset live.que.q 5 r } }
/-- Queue 5 enabled for firmware, with `n` records of 24 bytes. -/
def holding (n : Nat) : State := queue5 { ring := List.replicate n ⟨24, 0⟩, credit := 1024 - 3 * n } 7
theorem wit_QackDelivers :
    (crc8 (reqBytes 0x31 5 0 [2]) = crcOf 0x31 5 0 [2] ∧ ((holding 2).que.q[5]).badEcc = 0 ∧ ((holding 2).que.q[5]).halted = false) ∧
    (let s := holding 2
     s.netOwn 5 = false ∧ (2 : BitVec 16).toNat ≤ (s.que.q[5]).ring.length ∧ (s.que.q[5]).ring.length < (3 : BitVec 16).toNat) ∧
    (let s := streaming [⟨24, 0⟩] false
     s.netOwn 0 = true ∧ (1 : BitVec 16).toNat ≤ (s.que.q[0]).ring.length ∧ (s.que.q[0]).halted = false ∧
      (s.que.q[0]).badEcc = 0) := by decide +kernel
theorem wit_QackElse :
    (crc8 (reqBytes 0x31 64 0 [2]) = crcOf 0x31 64 0 [2] ∧ 64 ≤ (64 : Word).toNat ∧ (63 : Word).toNat < 64 ∧
      (0x10000 : Word).fld 16 16 ≠ 0 ∧ (0xFFFF : Word).fld 16 16 = 0) ∧
    (((queue5 { halted := true } 7).que.q[5]).halted = true ∧ ((queue5 { halted := true } 7).que.q[5]).badEcc = 0) ∧
    (let s := streaming [⟨24, 0⟩] false
     s.netOwn 0 = true ∧ (s.que.q[0]).halted = false ∧ (s.que.q[0]).ring.length < (2 : Word).fld 0 16) := by decide +kernel
/-- QACK of ten records of 56 bytes: DELIV 10, CREDIT 2 + 70 = 72 (worked example of chapter 18). -/
theorem test_qack : let s := queue5 { ring := List.replicate 146 ⟨56, 0⟩, credit := 2, nseq := 198, drop := 52 } 7
    let t := after (.qack 5 0 [10] (crcOf 0x31 5 0 [10])) s
    (t.que.q[5]).deliv = 10 ∧ (t.que.q[5]).credit = 72 ∧ (t.que.q[5]).ring.length = 136 := by decide +kernel
/-- SEQ 146 finds 2 credits for a record of 7 and is dropped: DROP 1, DROP_EV (worked example of chapter 18). -/
theorem test_drop : let s := queue5 { ring := List.replicate 146 ⟨56, 0⟩, credit := 2, nseq := 146, nextSeq := 146 } 7
    let t := after .yarderWrite (s.offer 5 1 (List.replicate 40 0))
    (t.que.q[5]).drop = 1 ∧ (t.que.q[5]).dropEv = true ∧ (t.que.q[5]).nseq = 147 ∧ (t.que.q[5]).credit = 2 := by
  decide +kernel
/-- A staged record of four bytes. -/
def staged4 : Staged := ⟨0, 13, [1, 2, 3, 4], 0, 0⟩
theorem wit_ReadsAndPushes :
    ((3 : BitVec 16).toNat + 1 = 4 ∧ (2 : BitVec 16).toNat + 1 < 4 ∧ (511 : BitVec 16).toNat + 1 = 512 ∧
      512 < (512 : BitVec 16).toNat + 1) ∧
    ((queue5 { halted := true } 7).que.q[5]).halted = true ∧ ((holding 0).que.q[5]).ring = [] ∧
    ((holding 2).que.q[5]).ring = ⟨24, 0⟩ :: [⟨24, 0⟩] ∧ 4 * 5 < 24 ∧ 24 ≤ 4 * 6 ∧
    ((holding 2).bankOn 0 = true ∧ ({ holding 2 with pwr := { bank := Vector.replicate 8 .off } } : State).bankOn 0 = false) ∧
    (let s := holding 0
     s.QUE_CFG_PROD_FW 5 = 1 ∧ recLen (List.replicate 256 0) ≤ (s.que.q[5]).limit ∧ (s.que.q[5]).staged.length < 2 ∧
      s.queEn 5 = true ∧ s.ringBad 5 = false ∧ (s.que.q[5]).same = [] ∧ (s.que.q[5]).staged = []) ∧
      live.QUE_CFG_PROD_FW 5 ≠ 1 ∧ (queue5 {} 0).queEn 5 = false ∧
    ({ size := 256 } : Queue).limit < recLen (List.replicate 256 0) ∧
    2 ≤ ((queue5 { staged := [staged4, staged4] } 7).que.q[5]).staged.length := by decide +kernel
theorem wit_WritesJudged :
    (0x42 : Word).toNat % 4 ≠ 0 ∧ (sramOff 0x1FFF0000 = none ∧ pageOf 0x1FFF0000 = none) ∧
    (pageOf 0x43044 = some (.pch 3) ∧ live.pageOn (.pch 3) = true ∧
      ({ live with pwr := { half := ⟨.off, .on⟩ } } : State).pageOn (.pch 3) = false ∧
      lookup (.pch 3) 0x800 = none ∧ live.ownerOn (live.owner (.pch 3) 0x44) = true) ∧
    ((lookup (.pch 3) 0x44).map fun x => x.map fun y => decide (y.1.rw = 0 ∧ y.1.w1c = 0 ∧ y.1.wo = 0 ∧ y.1.rs = 0 ∧ y.1.lk ≠ 0)) =
      some (some true) ∧
    (live.boot.released = true ∧ live.isOpen (Page.pch 3).blk = false ∧ live.pwr.padOpen = ⟨false, false⟩ ∧
      live.pwr.padOpenNet = false) ∧
    (sramOff 0x1007FFFC = some 0x7FFFC ∧ 0x7FFFC < 0x80000 ∧ sramOff 0x10080000 = some 0x80000 ∧ live.sramOpen 0x80000 = true ∧
      live.boot.inHold = false ∧ Memory.wf sramDefault live.sram = true) ∧
    ({ live with pwr := { bank := Vector.replicate 8 .off } } : State).sramOpen 0x80000 = false := by decide +kernel
/-- The premises of `Parts.WritesStored` for the register at `a`. -/
def storable (s : State) (a : Nat) : Bool :=
  match pageOf a with
  | none => false
  | some p => match lookup p (pageOff p a) with
    | some (some (r, _)) => s.pageOn p && s.ownerOn (s.owner p (pageOff p a)) && !s.refuses p r (s.owner p (pageOff p a)) &&
        r.rw ||| r.lk != 0 && !Parts.ownWrite p r.off && a % 4 == 0 && (sramOff a).isNone
    | _ => false
/-- `live` with block `b` unlocked. -/
def opened (b : Byte) : State := after (.unlockSecond b) (after (.unlockFirst b) live)
/-- A plain register of PCH while PCH is open, one of a page whose domains follow the votes, and one that each half copies. -/
theorem wit_WritesStored :
    (let s := opened 4; storable s 0x42044 = true ∧ Store.wf (regReset s.qb) s.cfg = true ∧ s.chkInv (.pch 2) 0 = 0) ∧
    (storable (opened 16) 0x100040 = true ∧ pageOf 0x100040 = some .que) ∧
    (storable (opened 10) 0xA0040 = true ∧ live.owner .sdm 0x40 = .dup ∧ live.halfOn .h0 = true) := by decide +kernel
theorem wit_YarderServes :
    live.yardNext = none ∧
    (let s := queue5 { staged := [staged4] } 7
     s.coreOn = true ∧ s.yardNext = some (5, staged4) ∧ (s.que.q[5]).badEcc = 0 ∧ (s.que.q[5]).creditOk = true ∧ s.bankOn 0 = true ∧
      recLen [1, 2, 3, 4] / 8 ≤ (s.que.q[5]).credit ∧ (s.que.q[5]).size % 4 = 0 ∧ (s.que.q[5]).wptr % 4 = 0 ∧
      recLen [1, 2, 3, 4] ≤ (s.que.q[5]).size ∧ Memory.wf sramDefault s.sram = true ∧
      s.QUE_GLB_CFG_MSG_Q ≠ 5) ∧
    (let s : State := { queue5 { staged := [staged4] } 7 with pwr := { bank := Vector.replicate 8 .off } }
     s.bankOn 0 = false ∧ s.coreOn = true ∧ s.yardNext = some (5, staged4) ∧ (s.que.q[5]).creditOk = true) ∧
    (let s := queue5 { staged := [staged4], credit := 1 } 7; (s.que.q[5]).creditOk = false ∧ s.powered .que = true) ∧
    (let s := queue5 { staged := [staged4], credit := 2, ring := [⟨8176, 0⟩] } 7
     (s.que.q[5]).creditOk = true ∧ (s.que.q[5]).credit < recLen [1, 2, 3, 4] / 8 ∧ s.yardNext = some (5, staged4)) := by
  decide +kernel
theorem wit_FlushStallAge :
    (let t := after (.flush 5) (holding 2)
     (List.finRange 64).all (fun j => !t.ringBad j) = true ∧
      (List.finRange 64).all (fun j => (((holding 2).que.q[j]).staged.head?).isNone) = true ∧ ((holding 2).que.q[5]).held ≠ 0) ∧
    (after (.flush 5) ((holding 2).setReg (0x100104 + 5 * 0x40) 64)).ringBad 5 = true ∧
    live.oldestStaged = none ∧ (queue5 { staged := [staged4] } 7).oldestStaged = some (5, staged4) ∧ live.powered .que = true ∧
    (live.que.q[5]).ring = [] ∧ live.QUE_CTRL_AGE_US (5 : Fin 64).val = 0 ∧
    (let s := (holding 2).setReg (0x10010C + 5 * 0x40) 0x10000; (s.que.q[5]).ring ≠ [] ∧
      s.QUE_CTRL_AGE_US (5 : Fin 64).val ≠ 0 ∧ s.queEn 5 = true) := by decide +kernel
theorem wit_NoticesOffered : live.queInt 5 = false ∧
    (let s := queue5 { ring := [⟨24, 0⟩], credit := 1021 } 0x10081
     s.queInt 5 = true ∧ (s.que.q[5]).intWas = false ∧ s.QUE_CFG_ROUTE 5 = 8 ∧ (5 : Fin 64) ≠ Fin.ofNat 64 s.QUE_GLB_CFG_MSG_Q) ∧
    (queue5 { intWas := true } 7).que.q[5].intWas = true := by decide +kernel
theorem wit_QueueInterrupts : live.pads.heldCore = false ∧ live.pageOn .que = true ∧
    live.badPar.contains (Page.base .que + 0x44) = false := by decide +kernel

/-- `live` with power state `p`, and `w` in PWR_WAKE_CFG. -/
def powering (p : Pwr) (w : Word) : State := { (live.setReg 0x10070 w) with pwr := p }
theorem wit_StateRequests :
    (powering { st := .entering } 0).pwr.st = .entering ∧
    ((powering { dvfs := some 1 } 0).inRun = true ∧ (powering { dvfs := some 1 } 0).pwr.dvfs.isSome = true) ∧
    ((powering { st := .waking } 0).pwr.st ≠ .entering ∧ (powering { st := .waking } 0).inRun = false ∧ State.reset.inRun = false) ∧
    (live.inRun = true ∧ live.pwr.st = .run ∧ live.pwr.dvfs = none) ∧
    ((powering { st := .doze } 0).inRun = true ∧ (powering { st := .doze } 0).pwr.dvfs = none ∧
      (powering { st := .doze } 0).pwr.st = .doze) ∧
    ((powering {} 4).mayEnter .off = true ∧ (powering {} 0).mayEnter .off = false) ∧
    ((safeDrives { ssl := ⟨false, false⟩, rel := true }).safe[0].rel = true) ∧
    ((powering {} 0).wakeCounts .off 5 = false ∧ (powering {} 4).wakeCounts .off 5 = true ∧
      (powering {} 0x40).wakeCounts .off 1 = false) ∧
    (live.setReg 0x40044 0x8110).PCH_CFG_EXC_SEL live.lkCh.val ≠ 0 := by decide +kernel
theorem test_entry : (after .reqOff (powering {} 4)).pwr.st = .entering ∧ (after .reqOff (powering {} 0)).wst = .denied := by
  decide +kernel
/-- `live` in the entry to OFF or LOOKOUT, with sources `e` seen and request `r` pending. -/
def entering (t : PState) (e : BitVec 7) (r : Option (Fin 4)) : State :=
  powering { st := .entering, entTgt := t, srcEnt := e, firstEnt := 4, pend := r } 4
theorem wit_EntryCompletes : live.pwr.st ≠ .entering ∧
    ({ entering .off 0 none with boot := storing.boot } : State).boot.store ≠ none ∧
    (let s := entering .off 0 none; s.pwr.st = .entering ∧ s.boot.store = none ∧ s.pwr.srcEnt = 0 ∧ s.pwr.pend = none) ∧
    ((entering .off 0x10 none).pwr.srcEnt ≠ 0 ∧ (entering .off 0x10 none).pwr.pend = none) ∧
    ((entering .off 0x10 (some 1)).pwr.srcEnt ≠ 0 ∧ (entering .off 0x10 (some 1)).pwr.pend = some 1) ∧
    ((entering .off 0 (some 0)).pwr.srcEnt = 0 ∧ (entering .off 0 (some 0)).pwr.pend = some 0) ∧
    (let s := entering .lookout 0 (some 3); s.pwr.srcEnt = 0 ∧ s.pwr.pend = some 3 ∧ s.pwr.entTgt = .lookout) := by decide +kernel
theorem wit_OperatingPoints :
    (let s := powering { dvfs := some 2, oppPend := none, pend := none } 0
     s.pwr.dvfs = some 2 ∧ s.pwr.oppPend = none ∧ s.pwr.pend = none ∧ s.sys.avsHeld = none) ∧
    (live.pwr.dvfs = none ∧ (0 : BitVec 2) = live.pwr.oppNow ∧ (3 : BitVec 2) ≠ live.pwr.oppNow) ∧
    (let s := powering { dvfs := some 2, oppPend := some 3 } 0; s.pwr.oppPend = some 3 ∧ (3 : BitVec 2) ≠ 2) ∧
    live.powered .pwr = true := by decide
theorem wit_VotesMoveDomains : State.reset.pwr.st = .run ∧ (powering { st := .waking } 0).pwr.st ≠ .run ∧
    (let s := powering { bank := Vector.replicate 8 .off, half := ⟨.off, .off⟩, net := .off } 0
     Word.bit 0xFF07 15 = true ∧ s.pwr.bank[7] = .off ∧ s.pwr.stuck.getLsbD (3 + 7) = false ∧ Word.bit 0xFF07 1 = true ∧
      s.pwr.half.get .h1 = .off ∧ s.pwr.stuck.getLsbD 1 = false ∧ s.qb = false ∧ s.pwr.net = .off) ∧
    (live.pwr.bank[7] ≠ .off ∧ live.pwr.half.get .h1 ≠ .off ∧ Word.bit 0 1 = false ∧ (∀ d : Drive, live.claims d .h1 = false)) ∧
    (let s := live.setReg 0x1004C 0; s.votes.bit (8 + 7) = false ∧ live.pwr.bank[7].isOn = true) ∧
    (live.setReg 0xD0040 0).CRZ_CTRL_EN = 0 ∧ ({ live with qb := true } : State).qb = true := by decide +kernel
theorem wit_DomainsReturn :
    (let s := powering { half := ⟨.rising 5, .rising 5⟩, net := .rising 5, core := .rising 5, bank := Vector.replicate 8 (.rising 5) } 0
     s.pwr.half.get .h1 = .rising 5 ∧ s.pwr.net = .rising 5 ∧ s.pwr.bank[3] = .rising 5 ∧ s.pwr.core = .rising 5 ∧
      s.pwr.wakeRestarts = 0 ∧ s.pwr.st ≠ .waking ∧ s.boot.released = true ∧ s.pwr.bank[3].isOn = false) ∧
    (let s := powering { st := .waking, bank := Vector.replicate 8 (.rising 5) } 0
     s.pwr.bank[3] = .rising 5 ∧ s.pwr.st = .waking ∧ s.pwr.wakeRestarts = 0) ∧
    (powering { st := .waking, wakeRestarts := 1 } 0).pwr.wakeRestarts ≠ 0 ∧ live.powered .pwr = true ∧
    (let s := powering { bankInit := 0xF7 } 0; s.pwr.bank[3].isOn = true ∧ s.pwr.bankInit.getLsbD 3 = false) ∧
    live.pwr.bankInit.getLsbD 3 = true ∧ live.pwr.calBusy.get .h0 = false ∧
    (powering { calBusy := ⟨true, false⟩ } 0).pwr.calBusy.get .h0 = true := by decide +kernel
theorem test_pad_release : (after (.padRelease 0xF) { live with pads := { live.pads with heldCore := true } }).pads.heldCore = false := by
  decide +kernel
/-- A cycle without a sample, the bridge tripped or not. -/
def cycle (trip : Bool) : LookoutMeas := ⟨[], trip, []⟩
/-- A device in a Lookout cycle with `a` in ACC, LK_AMIN 0 and LK_WIN 0x200, with the sources of `w` enabled. -/
def looking (a : Int) (w : Word) : State :=
  ((powering { st := .lookout, lkRun := true, lkCyc := 1, lkAcc := a } w).setReg 0x100B4 0).setReg 0x100A8 0x0200FFFF
theorem wit_LookoutCycles : live.pwr.st ≠ .lookout ∧
    (let s := powering { st := .lookout } 0x40; s.pwr.st = .lookout ∧ s.pwr.lkRun = false ∧ s.rails.vaon = true) ∧
    (let s := looking 0 0x60
     s.pwr.lkRun = true ∧ s.wakeEnabled 1 = true ∧ s.wakeEnabled 3 = true ∧
      (s.lkJudge (cycle true)).fault = true ∧ (s.lkJudge (cycle false)).fault = false) ∧
    (powering { st := .lookout, lkRun := true } 0).wakeEnabled 3 = false ∧
    (let at' (ph : Rat) : Exc := { st := .lookout, car := { ph := ph } }
     let s : State := { live with exc := Vector.replicate 4 (at' 2) }
     let n : Nat := max 4 live.PWR_LK_CFG_LK_NPER
     s.exc[0].st = .lookout ∧ (2 : Rat) ≤ s.exc[0].phaseAt s.clk.cyc ∧ s.exc[0].phaseAt s.clk.cyc < (n : Rat) + 2 ∧
      (n : Rat) + 4 ≤ (at' ((n : Rat) + 4)).phaseAt 0 ∧ (at' (-1)).phaseAt 0 < 0) := by decide +kernel
/-- LK_MOVE and LK_AUX trip: a sum of 2^20 whatever the angles of the cycle are, and a result of 0 below LK_ALO = 1. -/
theorem wit_LookoutCycles_trips :
    (∀ a b : Int, (512 * 16 : Int) < |(looking (2 ^ 20) 0x60).pwr.lkAcc + wrapSigned 65536 a + wrapSigned 65536 b|) ∧
    (looking (2 ^ 20) 0x60).PWR_LK_WIN_LK_WIN = 512 ∧ (looking (2 ^ 20) 0x60).pwr.lkFcnt ≠ (looking (2 ^ 20) 0x60).pwr.lkCyc ∧
    (let s := ((looking 0 0x420).setReg 0x100A0 0x100).setReg 0x100B0 1
     let r := s.lkJudge ⟨[], false, [⟨0, 1000000000, false, false, 0, 0⟩]⟩
     s.lkMeasures = true ∧ r.valid = true ∧ r.aux.p = 0 ∧ signedOf 24 s.PWR_LK_ALO_LK_ALO = 1) := by
  refine ⟨fun a b => ?_, by decide +kernel, by decide, by decide +kernel⟩
  rw [show (looking (2 ^ 20) 0x60).pwr.lkAcc = 2 ^ 20 by rfl, lt_abs]
  unfold wrapSigned
  omega
/-- Cycle 2 of the worked example of chapter 19: ACC 13,199 is above LK_WIN × 16 = 8,192, Δ 92 not above LK_DWIN = 192. -/
theorem test_lookout_move : let s := (looking 0 0x40).setReg 0x100A8 0x020000C0
    s.lkMove 92 13199 true = true ∧ s.lkMove 92 8192 true = false ∧ s.lkMove 193 0 false = true := by decide +kernel
theorem wit_WakeSources : live.pwr.alarmEn = false ∧ live.rails.vaon = true ∧
    (let s := powering { st := .lookout, alarmEn := true } 0x1C
     s.pwr.alarmEn = true ∧ s.wakeEnabled 0 = true ∧ s.wakeEnabled 5 = true ∧ s.wakeEnabled 4 = false) ∧
    (powering { alarmEn := true } 0).wakeEnabled 0 = false ∧ (powering { alarmEn := true } 0).inRunDoze = true ∧
    ((powering { st := .off } 1).wakeEnabled 4 = true ∧ (powering { st := .entering } 1).wakeEnabled 4 = true ∧
      (powering { st := .waking } 1).wakeEnabled 4 = true) ∧ live.asleep = false ∧
    ((powering { st := .off } 0).asleep = true ∧ (powering { st := .off } 0).pwr.hostLatched = false) ∧
    (powering { st := .off, hostLatched := true } 0).pwr.hostLatched = true ∧
    (powering { st := .off, core := .off } 0).coreOn = false ∧ live.listening = false ∧
    (let s : State := { controlled.setReg 0x10070 8 with pwr := { st := .lookout } }
     s.listening = true ∧ s.listenTakes 0 (frameTo true (0x90, 0x00)) = true ∧ s.pwr.netBuf.length < 16) ∧
    16 ≤ (List.replicate 16 ((0 : Fin 2), ([] : List Byte))).length ∧
    (let s : State := { State.reset with pwr := { st := .waking } }
     s.pwr.st = .waking ∧ s.pwr.core ≠ .off ∧ s.boot.phase = .reset) ∧
    (({ wakeFrom := 2 } : Pwr).wakeFrom = 2 ∧ ({ wakeFrom := 3 } : Pwr).wakeFrom ≠ 2) := by decide +kernel
theorem wit_TapMoves : (powering { core := .off } 0).coreOn = false ∧ live.coreOn = true ∧ live.pads.heldCore = false ∧
    ({ live with pads := { live.pads with heldCore := true } } : State).pads.heldCore = true ∧ tapNext .ex1Ir true = .updIr ∧
    tapNext .ex1Dr true = .updDr ∧ tapNext .capIr false = .shIr ∧ live.sys.scan = false := by decide

/-! ## The machine as a whole -/

/-- `live` with two commands waiting. -/
def waiting : State := { live with pending := [.timeSlewEnd, .swrstKey] }
theorem wit_StepRunsFrontCommand : waiting.pending = .timeSlewEnd :: [.swrstKey] := rfl
theorem test_step_order : (match step waiting with | .next t => t.pending | _ => []) = [.swrstKey] := by decide +kernel
theorem wit_IdleStepPassesOneCycle : live.pending = [] ∧ live.pwr.core ≠ .off ∧ (powering { core := .off } 0).pwr.core = .off ∧
    (live.rails.vaon = true ∧ live.sys.rtcLprc = true) ∧ (after .rtcXtalRestore live).sys.rtcLprc = false ∧
    (after (.supplyLost .vaon) live).rails.vaon = false := by decide +kernel
/-- One idle cycle advances TIME by 2.5 ns (R377). -/
theorem test_idle : (match step live with | .next t => t.clk.time | _ => 0) = 5 * 2 ^ 31 := by decide +kernel
theorem wit_CommandsLeaveAlone : ∃ t, exec .tpllUnlock live = .next t := ⟨_, rfl⟩
theorem wit_StepKeepsQueueRelation : live.queuesBalanced ∧ ∃ t, step live = .next t :=
  ⟨by unfold State.queuesBalanced Queue.balanced; decide +kernel, _, rfl⟩
theorem wit_StepKeepsFramCanonical : live.framCanonical ∧ ∃ t, step live = .next t := ⟨by unfold State.framCanonical; decide, _, rfl⟩
theorem wit_StepKeepsSramCanonical : live.sramCanonical ∧ ∃ t, step live = .next t := ⟨by unfold State.sramCanonical; decide, _, rfl⟩

end Sys2Proof.Tests
end

section
/-! PROOFS. A channel's re-arm can end DEV_SAFE, which the statement about the rs write of 1 to LOSS leaves out: ALIVE
then takes its next edge one half period later (R361). -/

namespace Sys2Proof.Machine

/-- The device has released; PCH_0 is OFF; the sticky bit of its LOSS is set without a live cause, and FLT_REACT_LO gives
LOSS the reaction "whole-device safe state" (R350), so that DEV_SAFE stands by this sticky bit alone. -/
def lossHoldsDevSafe : State :=
  { State.reset with
    flt := vset State.reset.flt (Page.pch 0).idx { sticky := 0x20 }
    cfg := [(0x40014, 0xC00)]
    boot := { State.reset.boot with released := true } }

/-- The cycle of the next edge of ALIVE after a command. -/
def aliveNextAfter : Done → Option Nat
  | .next t => some t.alive.next
  | _ => none

/-- The write to LOSS clears the last bit behind DEV_SAFE, and ALIVE's next edge moves to one half period from now. -/
theorem lossRearm_moves_alive_edge :
    aliveNextAfter (exec (.lossRearm 0) lossHoldsDevSafe) =
      some (lossHoldsDevSafe.clk.cyc + lossHoldsDevSafe.aliveHalf) := by
  decide +kernel

theorem lossHoldsDevSafe_alive_next_ne :
    lossHoldsDevSafe.alive.next ≠ lossHoldsDevSafe.clk.cyc + lossHoldsDevSafe.aliveHalf := by
  decide +kernel

/-- In a channel that is not LOST the write does more than clear the causes: the edge of ALIVE moves. -/
theorem not_lossRearm : ¬ Parts.LossRearm := by
  unfold Parts.LossRearm
  intro h
  obtain ⟨-, hClear, -⟩ := h lossHoldsDevSafe 0 (by decide)
  have hRun := hClear (by decide +kernel) (by decide)
  have hEdge := congrArg aliveNextAfter hRun
  rw [lossRearm_moves_alive_edge] at hEdge
  exact lossHoldsDevSafe_alive_next_ne (Option.some.inj hEdge).symm

/-- Refutes O21: where the sticky bit of LOSS is what keeps DEV_SAFE set, its clearing restarts ALIVE's half period (R361),
and the state after LOSS_REARM is not the one that the statement gives. -/
theorem not_channelLossAndBandwidth : ¬ Obligations.ChannelLossAndBandwidth := by
  unfold Obligations.ChannelLossAndBandwidth
  rintro ⟨hRearm, -⟩
  exact not_lossRearm hRearm

end Sys2Proof.Machine
end

section
/-! PROOFS. The statement about votes speaks of register files that are not in canonical form too. In one that lists
PWR_VOTE_HOST twice, writing its reset value removes the first entry only (`Store.set`), and the word reads as the second;
in a canonical one a word reads as written (`Store.get_set_same`). -/

namespace Sys2Proof.Machine

/-- In RUN with every domain but CORE off, PWR_VOTE_HOST standing twice in the register file, without a vote. -/
def votesListedTwice : State :=
  { State.reset with
    cfg := [(0x1004C, 0), (0x1004C, 0)]
    pwr := { State.reset.pwr with half := ⟨.off, .off⟩, net := .off, bank := Vector.replicate 8 .off } }

/-- The state of bank `b` after a command. -/
def bankAfter (b : Fin 8) : Done → Option DomSt
  | .next t => some t.pwr.bank[b]
  | _ => none

/-- A write of every vote, which is the reset value of PWR_VOTE_HOST, leaves bank 7 off. -/
theorem voteWrite_leaves_bank_off :
    bankAfter 7 (exec (.voteWrite 0xFF07) votesListedTwice) = some .off := by
  decide +kernel

/-- Refutes O56, which does not ask for a canonical register file: in one that lists PWR_VOTE_HOST twice the vote written is
not the one in force, and a bank that is off and has not failed stays off in RUN. -/
theorem not_votesMoveDomains : ¬ Obligations.VotesMoveDomains := by
  unfold Obligations.VotesMoveDomains
  intro h
  obtain ⟨-, hAwake⟩ := h votesListedTwice 0xFF07 7 .h0
  obtain ⟨t, hRun, -, -, -, -, -, hRise, -⟩ := hAwake (.inl rfl)
  have hBank := congrArg (bankAfter 7) hRun
  rw [voteWrite_leaves_bank_off] at hBank
  have hOff : t.pwr.bank[(7 : Fin 8)] = .off := (Option.some.inj hBank).symm
  have hRising := hRise (by decide) (by decide) (by decide)
  rw [hOff] at hRising
  exact DomSt.noConfusion hRising

end Sys2Proof.Machine
end

section
/-! PROOFS. What states that differ by fault reports alone have in common: the register file, the clock and the domains. -/

namespace Sys2Proof.Machine

theorem State.cfg_of_quiet {s t : State} (h : t.quiet = s.quiet) : t.cfg = s.cfg := by
  have hc := congrArg State.cfg h
  exact hc

theorem State.qb_of_quiet {s t : State} (h : t.quiet = s.quiet) : t.qb = s.qb := by
  have hc := congrArg State.qb h
  exact hc

theorem State.pwr_of_quiet {s t : State} (h : t.quiet = s.quiet) : t.pwr = s.pwr := by
  have hc := congrArg State.pwr h
  exact hc

theorem State.phase_of_quiet {s t : State} (h : t.quiet = s.quiet) : t.boot.phase = s.boot.phase := by
  have hc := congrArg (fun u : State => u.boot.phase) h
  exact hc

theorem State.reg_of_quiet {s t : State} (h : t.quiet = s.quiet) (a : Nat) : t.reg a = s.reg a := by
  unfold State.reg
  rw [State.cfg_of_quiet h, State.qb_of_quiet h]

theorem State.fltForce_of_quiet {s t : State} (h : t.quiet = s.quiet) (p : Page) : t.fltForce p = s.fltForce p := by
  unfold State.fltForce
  rw [State.reg_of_quiet h]

theorem State.halfOn_of_pwr {s t : State} (h : t.pwr = s.pwr) (g : Half) : t.halfOn g = s.halfOn g := by
  unfold State.halfOn
  rw [h]

theorem State.pageOn_of_pwr {s t : State} (hq : t.qb = s.qb) (hp : t.pwr = s.pwr) (p : Page) : t.pageOn p = s.pageOn p := by
  have hHalf (g : Half) := State.halfOn_of_pwr hp g
  have hNet : t.netOn = s.netOn := by
    unfold State.netOn
    rw [hq, hp]
  cases p <;> simp only [State.pageOn, hHalf, hNet]

theorem State.powered_of_quiet {s t : State} (h : t.quiet = s.quiet) (p : Page) : t.powered p = s.powered p := by
  unfold State.powered State.coreOn
  rw [State.pageOn_of_pwr (State.qb_of_quiet h) (State.pwr_of_quiet h), State.pwr_of_quiet h, State.phase_of_quiet h]

@[simp] theorem State.aliveWatch_flt (s old : State) : (s.aliveWatch old).flt = s.flt := by
  unfold State.aliveWatch
  split <;> rfl

theorem State.stickyBit_of_flt {s t : State} (h : t.flt = s.flt) (p : Page) (b : Nat) : t.stickyBit p b = s.stickyBit p b := by
  unfold State.stickyBit State.hdr
  rw [h]

theorem State.page_on {s : State} {p : Page} (h : s.pageOn p = true) (off : Nat) (wr : Bool) (r : Status × State) :
    s.page p off wr r = r := if_pos h

end Sys2Proof.Machine
end

section
/-! PROOFS. Writes of the fault header (R346, R347, R362, R364). -/

namespace Sys2Proof.Machine

/-! ## BLZ_CLR -/

theorem State.blzClr_busy {s : State} {p : Page} (h : s.reactBusy p = true) : s.blzClr p = (.denied, s) := if_pos h

theorem State.blzClr_no_report {s : State} {p : Page} (hb : s.reactBusy p = false)
    (h : (s.hdr p).now.n = 0 ∨ (s.hdr p).now.cyc ≠ s.clk.cyc) :
    s.blzClr p = (.ok, s.updHdr p fun f => { f with full := false, cnt := 0, cntSat := false }) := by
  have hn : ¬((s.hdr p).now.n ≠ 0 ∧ (s.hdr p).now.cyc = s.clk.cyc) := by
    rintro ⟨h0, hc⟩
    exact h.elim h0 (absurd hc)
  unfold State.blzClr
  rw [hb, if_neg Bool.false_ne_true]
  exact if_neg hn

theorem State.blzClr_report {s : State} {p : Page} (hb : s.reactBusy p = false) (hn : (s.hdr p).now.n ≠ 0)
    (hc : (s.hdr p).now.cyc = s.clk.cyc) : s.blzClr p = (.ok, s.blazeAnew p) := by
  unfold State.blzClr
  rw [hb, if_neg Bool.false_ne_true]
  exact if_pos ⟨hn, hc⟩

theorem Queue.quiet_staged (q : Queue) (f : Staged → Staged) : Queue.quiet { q with staged := q.staged.map f } = q.quiet := rfl

theorem State.markRecord_quiet (s : State) (p : Page) (code : Word) (full : Bool) :
    (s.markRecord p code full).quiet = s.quiet :=
  State.q_quiet s (faultQueue p) _ s.que.offers (Queue.quiet_staged _ _)

/-- The header that BLZ_CLR leaves after a report of the same cycle: the first of the cycle's reports is the Blaze (R346). -/
def FaultHdr.anew (f : FaultHdr) (now : BitVec 64) : FaultHdr :=
  { f with
    full := true, cnt := f.now.n - 1, cntSat := false, bAddr := f.now.addr, bSrc := f.now.src, bTime := now
    bCode := f.now.code, now := { f.now with was := false } }

/-- Beside the header, a Blaze taken anew changes a record of the fault queue at most. -/
theorem State.blazeAnew_flt (s : State) (p : Page) :
    (s.blazeAnew p).flt = (s.updHdr p fun _ => (s.hdr p).anew s.now).flt := by
  unfold State.blazeAnew
  extract_lets x s1 rec' wrote num
  split
  · rfl
  split
  · rfl
  split
  · rfl
  · exact State.offer_flt _ _ _ _

theorem State.blazeAnew_quiet (s : State) (p : Page) : (s.blazeAnew p).quiet = s.quiet := by
  unfold State.blazeAnew
  extract_lets x s1 rec' wrote num
  have hHdr : s1.quiet = s.quiet := State.updHdr_quiet _ _ _
  split
  · exact hHdr
  split
  · exact (State.markRecord_quiet _ _ _ _).trans hHdr
  split
  · exact hHdr
  · exact (State.offer_quiet _ _ _ _).trans hHdr

theorem State.blazeAnew_hdr (s : State) (p : Page) : (s.blazeAnew p).hdr p = (s.hdr p).anew s.now := by
  have h := State.updHdr_hdr s p fun _ => (s.hdr p).anew s.now
  unfold State.hdr at h ⊢
  rw [State.blazeAnew_flt]
  exact h

/-! ## FLT_STICKY -/

theorem bput_get_other {n : Nat} (x : BitVec n) (i b : Nat) (v : Bool) (h : b ≠ i) : (bput x i v).getLsbD b = x.getLsbD b := by
  have hOff : (BitVec.ofNat n (2 ^ i)).getLsbD b = false := by
    rw [BitVec.getLsbD_ofNat, Nat.testBit_two_pow_of_ne (Ne.symm h), Bool.and_false]
  unfold bput
  cases v
  · rw [if_neg Bool.false_ne_true, BitVec.getLsbD_and, BitVec.getLsbD_not, hOff]
    by_cases hb : b < n
    · simp [hb]
    · simp [BitVec.getLsbD_of_ge x b (Nat.le_of_not_lt hb)]
  · rw [if_pos rfl, BitVec.getLsbD_or, hOff, Bool.or_false]

/-- Outside LOSS, which has an effect of its own, a sticky bit goes where 1 is written over a clear live bit (R347). -/
theorem State.writeSticky_stickyBit (s : State) (p : Page) (v : Word) (b : Nat) (hb : b < 32)
    (hLoss : (∃ n, p = .pch n) → b ≠ 5 ∧ v.bit 5 = false) :
    (s.writeSticky p v).stickyBit p b = (s.stickyBit p b && (!v.bit b || (s.fltLive p).getLsbD b)) := by
  have hKeep (m : Word) (hm : m.getLsbD b = (!v.bit b || (s.fltLive p).getLsbD b)) :
      (s.updHdr p fun f => { f with sticky := f.sticky &&& m }).stickyBit p b =
        (s.stickyBit p b && (!v.bit b || (s.fltLive p).getLsbD b)) := by
    unfold State.stickyBit
    rw [State.updHdr_hdr, BitVec.getLsbD_and, hm]
  have hMask : (~~~(v &&& ~~~(s.fltLive p))).getLsbD b = (!v.bit b || (s.fltLive p).getLsbD b) := by
    simp [Word.bit, hb]
  have hWatch (t : State) : (t.aliveWatch s).stickyBit p b = t.stickyBit p b :=
    State.stickyBit_of_flt (State.aliveWatch_flt t s) p b
  unfold State.writeSticky
  cases p
  case pch n =>
    obtain ⟨hb5, hv5⟩ := hLoss ⟨n, rfl⟩
    simp only [hv5, Bool.false_eq_true, if_false, hWatch]
    exact hKeep _ ((bput_get_other _ _ _ _ hb5).trans hMask)
  all_goals exact (hWatch _).trans (hKeep _ hMask)

/-! ## FLT_FORCE -/

/-- Sources of page `p` that FLT_FORCE holds live, and that `live` shows clear, are reported one after the other (R362). -/
def State.reportForced (s : State) (p : Page) (live : Word) (l : List Nat) : State :=
  l.foldl (fun st b => if (st.fltForce p).getLsbD b && !live.getLsbD b then st.report p b .shared .force else st) s

/-- One source judged: reported, or not. -/
theorem State.reportForced_cons (s : State) (p : Page) (live : Word) (b : Nat) (l : List Nat) :
    s.reportForced p live (b :: l) =
      (if (s.fltForce p).getLsbD b && !live.getLsbD b then s.report p b .shared .force else s).reportForced p live l := rfl

theorem State.reportForced_quiet (s : State) (p : Page) (live : Word) (l : List Nat) :
    (s.reportForced p live l).quiet = s.quiet := by
  induction l generalizing s with
  | nil => rfl
  | cons b l ih =>
    rw [State.reportForced_cons, ih]
    split
    · exact State.report_quiet _ _ _ _ _
    · rfl

theorem State.reportForced_stickyUp (s : State) (p : Page) (live : Word) (l : List Nat) :
    s.StickyUp (s.reportForced p live l) := by
  induction l generalizing s with
  | nil => exact State.StickyUp.refl s
  | cons b l ih =>
    rw [State.reportForced_cons]
    refine State.StickyUp.trans ?_ (ih _)
    split
    · exact State.report_stickyUp _ _ _ _ _
    · exact State.StickyUp.refl s

/-- A forced source that is not live has its sticky bit set once it has been judged. -/
theorem State.reportForced_sticky (s : State) (p : Page) (live : Word) (l : List Nat) (b : Nat) (hb : b < 32) (hl : b ∈ l)
    (hp : s.powered p = true) (hf : (s.fltForce p).getLsbD b = true) (hn : live.getLsbD b = false) :
    (s.reportForced p live l).stickyBit p b = true := by
  induction l generalizing s with
  | nil => exact absurd hl List.not_mem_nil
  | cons c l ih =>
    rw [State.reportForced_cons]
    rcases List.mem_cons.mp hl with rfl | hl
    · rw [hf, hn]
      exact State.reportForced_stickyUp _ _ _ _ _ _ (State.report_sticky s p b .shared .force hp hb)
    · split
      · have hq := State.report_quiet s p c .shared .force
        exact ih _ hl ((State.powered_of_quiet hq p).trans hp) (by rw [State.fltForce_of_quiet hq]; exact hf)
      · exact ih _ hl hp hf

theorem State.writeForce_eq (s : State) (p : Page) (v : Word) :
    s.writeForce p v = (s.setReg (p.base + 0x10) (v &&& srcMask p)).reportForced p (s.fltLive p) (List.range 32) := rfl

theorem State.setReg_powered (s : State) (a : Nat) (v : Word) (p : Page) : (s.setReg a v).powered p = s.powered p := by
  unfold State.powered State.coreOn
  rw [State.pageOn_of_pwr (State.setReg_qb s a v) (State.setReg_pwr s a v), State.setReg_pwr, State.setReg_boot]

/-! ## The commands -/

theorem exec_blzClr {s : State} {p : Page} (h : s.pageOn p = true) : exec (.blzClr p) s = finish (s.blzClr p) :=
  congrArg finish (State.page_on h _ _ _)

theorem exec_stickyClear {s : State} {p : Page} (v : Word) (h : s.pageOn p = true) :
    exec (.stickyClear p v) s = finish (.ok, s.writeSticky p v) := congrArg finish (State.page_on h _ _ _)

theorem exec_fltForceWrite {s : State} {p : Page} (v : Word) (h : s.pageOn p = true) :
    exec (.fltForceWrite p v) s = finish (.ok, s.writeForce p v) := congrArg finish (State.page_on h _ _ _)

theorem exec_chkInvWrite {s : State} {p : Page} (v : Word) (h : s.pageOn p = true) :
    exec (.chkInvWrite p v) s = finish (.ok, s.writeInv p v) := congrArg finish (State.page_on h _ _ _)

theorem fltForceWrite_reports (s : State) (p : Page) (v : Word) (h : s.pageOn p = true) :
    let u := s.setReg (p.base + 0x10) (v &&& srcMask p)
    Completes (.fltForceWrite p v) s (fun t => t.quiet = ({ u with wst := .ok } : State).quiet ∧
      (s.powered p = true → ∀ b, b < 32 → (u.fltForce p).getLsbD b = true → (s.fltLive p).getLsbD b = false →
        t.stickyBit p b = true)) := by
  intro u
  refine ⟨_, exec_fltForceWrite v h, ?_, fun hp b hb hf hn => ?_⟩
  · have hq : (s.writeForce p v).quiet = u.quiet := State.reportForced_quiet _ _ _ _
    exact congrArg (fun q : State => { q with wst := .ok }) hq
  · exact State.reportForced_sticky u p _ _ b hb (List.mem_range.mpr hb) ((State.setReg_powered _ _ _ _).trans hp) hf hn

/-- Settles O38: BLZ_CLR case by case, the sticky bits one by one, and FLT_FORCE by induction on the sources judged. -/
theorem faultHeaderWrites : Obligations.FaultHeaderWrites := by
  unfold Obligations.FaultHeaderWrites
  intro s p v hOn u x
  refine ⟨fun hb => ?_, fun hb hn => ?_, fun hb hn hc => ?_, ?_, fltForceWrite_reports s p v hOn, exec_chkInvWrite v hOn⟩
  · rw [exec_blzClr hOn, State.blzClr_busy hb]
    rfl
  · rw [exec_blzClr hOn, State.blzClr_no_report hb hn]
    rfl
  · refine ⟨{ s.blazeAnew p with wst := .ok }, ?_, rfl, ?_⟩
    · rw [exec_blzClr hOn, State.blzClr_report hb hn hc]
      rfl
    · have hHdr : ({ s.blazeAnew p with wst := .ok } : State).hdr p = (s.hdr p).anew s.now := State.blazeAnew_hdr s p
      rw [hHdr]
      exact ⟨rfl, rfl, rfl, rfl, rfl, rfl, congrArg (fun q : State => { q with wst := .ok }) (State.blazeAnew_quiet s p)⟩
  · exact ⟨_, exec_stickyClear v hOn, rfl, fun b hb hLoss => State.writeSticky_stickyBit s p v b hb hLoss⟩

end Sys2Proof.Machine
end

section
/-! PROOFS. What the host's access to a register depends on, and that what follows a plain write in each block leaves it
alone. -/

namespace Sys2Proof.Machine

/-- The parts of the state that say which registers are on and open, what they hold, and which stored words are wrong. -/
structure RegView where
  cfg : List (Nat × Word)
  qb : Bool
  badPar : List Nat
  pwr : Pwr
  released : Bool
  unlock : Unlock
  cyc : Nat

/-- Those parts of `s`. -/
def State.regView (s : State) : RegView := ⟨s.cfg, s.qb, s.badPar, s.pwr, s.boot.released, s.unlock, s.clk.cyc⟩

@[simp] theorem State.regView_mk (pending qb free cfg capt badPar badEcc sram fram clk rails sys alive unlock pads boot flt xd safe
    sdm que resp wst pwr exc vexcMv pch scl sclH dch gen enc aev aux crz tim net frec tap) :
    (State.mk pending qb free cfg capt badPar badEcc sram fram clk rails sys alive unlock pads boot flt xd safe sdm que resp
      wst pwr exc vexcMv pch scl sclH dch gen enc aev aux crz tim net frec tap).regView =
      ⟨cfg, qb, badPar, pwr, boot.released, unlock, clk.cyc⟩ := rfl

@[simp] theorem State.regView_eta (s : State) :
    RegView.mk s.cfg s.qb s.badPar s.pwr s.boot.released s.unlock s.clk.cyc = s.regView := rfl

@[simp] theorem State.regView_ite (c : Prop) [Decidable c] (a b : State) :
    (if c then a else b).regView = if c then a.regView else b.regView := apply_ite _ _ _ _

theorem State.foldl_regView {α : Type} (g : State → α → State) (h : ∀ s x, (g s x).regView = s.regView) (l : List α)
    (s : State) : (l.foldl g s).regView = s.regView := by
  induction l generalizing s with
  | nil => rfl
  | cons x l ih => rw [List.foldl_cons, ih, h]

/-- What a report or a channel loss changes is none of it. -/
theorem State.regView_of_apart {s t : State} (h : t.apart = s.apart) : t.regView = s.regView := by
  have hv := congrArg State.regView h
  exact hv

@[simp] theorem State.cond_regView (s : State) (p : Page) (b : Nat) (c : Copy) (v : Bool) :
    (s.cond p b c v).regView = s.regView := State.regView_of_apart (State.cond_apart _ _ _ _ _)

@[simp] theorem State.reform_regView (s : State) : s.reform.regView = s.regView := rfl

@[simp] theorem State.judgeDrv_regView (s : State) (n : Fin 8) : (s.judgeDrv n).regView = s.regView :=
  State.regView_of_apart (State.judgeDrv_apart _ _)

@[simp] theorem State.encFollow_regView (s : State) (n : Fin 4) : (s.encFollow n).regView = s.regView :=
  State.regView_of_apart (State.encFollow_apart _ _)

@[simp] theorem State.encFollowAll_regView (s : State) : s.encFollowAll.regView = s.regView :=
  State.regView_of_apart (State.encFollowAll_apart _)

@[simp] theorem State.judgeTally_regView (s : State) (n : Fin 4) : (s.judgeTally n).regView = s.regView :=
  State.regView_of_apart (State.judgeTally_apart _ _)

@[simp] theorem State.offer_regView (s : State) (i : Fin 64) (src : Nat) (l : List Byte) :
    (s.offer i src l).regView = s.regView := State.regView_of_apart (State.offer_apart _ _ _ _)

/-! ## Cross-monitor, encoder outputs, scheduler -/

@[simp] theorem State.judgeCfgMis_regView (s : State) (d : Drive) : (s.judgeCfgMis d).regView = s.regView := by
  unfold State.judgeCfgMis State.perHalf
  simp

@[simp] theorem State.judgeMis_regView (s : State) : s.judgeMis.regView = s.regView := by
  unfold State.judgeMis
  simp

@[simp] theorem State.encConfig_regView (s : State) (n : Fin 4) (off : Nat) : (s.encConfig n off).regView = s.regView := by
  unfold State.encConfig
  dsimp only
  split
  · rfl
  · rfl

@[simp] theorem State.encPads_regView (s : State) (n : Fin 4) : (s.encPads n).regView = s.regView := by
  unfold State.encPads
  dsimp only
  split
  · rfl
  · rfl

@[simp] theorem State.reframeAll_regView (s old : State) : (s.reframeAll old).regView = s.regView := rfl

theorem State.presetSlot_regView (s : State) (i : Fin 256) : (s.presetSlot i).regView = s.regView := by
  unfold State.presetSlot
  dsimp only
  split
  · rfl
  · rfl

@[simp] theorem State.presetDrive_regView (s : State) (d : Drive) : (s.presetDrive d).regView = s.regView :=
  State.foldl_regView _ (fun t i => by split; exacts [State.presetSlot_regView t i, rfl]) _ _

@[simp] theorem State.judgeFreeze_regView (s : State) (d : Drive) : (s.judgeFreeze d).regView = s.regView := by
  unfold State.judgeFreeze
  simp

/-! ## Current and torque protection -/

@[simp] theorem State.sdclkFrom_regView (s old : State) : (s.sdclkFrom old).regView = s.regView := rfl

@[simp] theorem State.sdmQuiet_regView (s : State) (h : Half) (n : Fin 8) : (s.sdmQuiet h n).regView = s.regView :=
  State.foldl_regView _ (fun t k => State.cond_regView t .sdm (3 * n.val + k) h.copy false) _ _

@[simp] theorem State.setIn_regView (s : State) (h : Half) (n : Fin 8) (x : SdmIn) : (s.setIn h n x).regView = s.regView := rfl

@[simp] theorem State.sdmCfgWritten_regView (s : State) (n : Fin 8) (old : Word) :
    (s.sdmCfgWritten n old).regView = s.regView := by
  unfold State.sdmCfgWritten
  simp

@[simp] theorem State.tqCfgWritten_regView (s : State) (d : Drive) (old : Word) : (s.tqCfgWritten d old).regView = s.regView := by
  unfold State.tqCfgWritten
  split
  · rfl
  · rfl

/-! ## Auxiliary measurement -/

@[simp] theorem State.routAll_regView (s : State) : s.routAll.regView = s.regView := rfl

@[simp] theorem State.dropVisit_regView (s : State) (c : Fin 2) : (s.dropVisit c).regView = s.regView := by
  unfold State.dropVisit
  split
  · rfl
  split
  · rfl
  · rfl

theorem State.judgeSlot_regView (s : State) (k : Fin 16) : (s.judgeSlot k).regView = s.regView := by
  unfold State.judgeSlot
  dsimp only
  rw [State.cond_regView]
  split
  · rfl
  · rfl

@[simp] theorem State.kickConv_regView (s : State) (c : Fin 2) (t : Nat) : (s.kickConv c t).regView = s.regView := by
  unfold State.kickConv
  split
  · rfl
  split
  · rfl
  · rfl

@[simp] theorem State.auxJudge_regView (s : State) : s.auxJudge.regView = s.regView := by
  unfold State.auxJudge
  simp [State.foldl_regView _ State.judgeSlot_regView]

@[simp] theorem State.auxCfgWritten_regView (s : State) (k : Fin 16) (b : Bool) : (s.auxCfgWritten k b).regView = s.regView := by
  unfold State.auxCfgWritten
  rw [State.auxJudge_regView]
  split
  · rfl
  · rfl

/-! ## Cruise -/

@[simp] theorem State.judgeStarved_regView (s : State) : s.judgeStarved.regView = s.regView := State.cond_regView _ _ _ _ _

@[simp] theorem State.fillLane_regView (s : State) (l : Fin 3) : (s.fillLane l).regView = s.regView := by
  unfold State.fillLane
  split
  · rfl
  split
  · rfl
  · rfl

@[simp] theorem State.fillThree_regView (s : State) : s.fillThree.regView = s.regView := by
  unfold State.fillThree
  simp

@[simp] theorem State.roundItems_regView (s : State) : s.roundItems.regView = s.regView := rfl

@[simp] theorem State.passOver_regView (s : State) (l : List (Fin 15)) : (s.passOver l).regView = s.regView := rfl

@[simp] theorem State.fillLanes_regView (s : State) : s.fillLanes.regView = s.regView := by
  unfold State.fillLanes
  simp

@[simp] theorem State.cruiseJudge_regView (s : State) : s.cruiseJudge.regView = s.regView := by
  unfold State.cruiseJudge State.abandonRuns
  simp

/-! ## Queues -/

theorem State.settle_regView (s : State) (i : Fin 64) : (s.settle i).regView = s.regView := by
  unfold State.settle
  dsimp only
  split
  · rfl
  · rfl

@[simp] theorem State.settleAll_regView (s : State) : s.settleAll.regView = s.regView :=
  State.foldl_regView _ State.settle_regView _ _

@[simp] theorem State.ringCfg_regView (s : State) : s.ringCfg.regView = s.regView := State.cond_regView _ _ _ _ _

@[simp] theorem State.judgeStall_regView (s : State) : s.judgeStall.regView = s.regView := by
  unfold State.judgeStall
  split
  · split
    · exact State.cond_regView _ _ _ _ _
    · exact State.cond_regView _ _ _ _ _
  · exact State.cond_regView _ _ _ _ _

/-! ## Time base and network -/

@[simp] theorem State.auxStamp_regView (s : State) (c : Fin 2) : (s.auxStamp c).regView = s.regView := by
  unfold State.auxStamp
  split
  · rfl
  split
  · rfl
  · rfl

@[simp] theorem State.applyRate_regView (s : State) : s.applyRate.regView = s.regView := by
  unfold State.applyRate State.setRate State.stampAll
  simp

@[simp] theorem State.timeCfgWritten_regView (s : State) : s.timeCfgWritten.regView = s.regView := by
  unfold State.timeCfgWritten
  simp

@[simp] theorem State.timeTmoWritten_regView (s : State) : s.timeTmoWritten.regView = s.regView := by
  unfold State.timeTmoWritten
  simp

@[simp] theorem State.judgeLink_regView (s : State) (p : Fin 2) : (s.judgeLink p).regView = s.regView :=
  State.cond_regView _ _ _ _ _

@[simp] theorem State.dropLink_regView (s : State) (p : Fin 2) : (s.dropLink p).regView = s.regView := by
  unfold State.dropLink
  dsimp only
  rw [State.judgeLink_regView, State.foldl_regView State.loseFrame fun _ _ => rfl]
  rfl

@[simp] theorem State.judgePorts_regView (s : State) : s.judgePorts.regView = s.regView := by
  unfold State.judgePorts
  simp

@[simp] theorem State.netCtrlWritten_regView (s : State) : s.netCtrlWritten.regView = s.regView := by
  unfold State.netCtrlWritten
  simp

end Sys2Proof.Machine
end

section
/-! PROOFS. The register file after a write, and what a plain write of the host stores in it (R7, R9, R21). -/

namespace Sys2Proof.Machine

/-! ## Addresses -/

theorem Page.base_lt (p : Page) : p.base < 0x120000 := by
  cases p
  case pch n =>
    have hn := n.isLt
    simp only [Page.base]
    omega
  all_goals decide

theorem Page.base_le_of_pageOf {p : Page} {w : Nat} (h : pageOf w = some p) : p.base ≤ w := by
  unfold pageOf at h
  split at h
  case h_5 hq =>
    split at h
    · cases h
      simp only [Page.base]
      omega
    · cases h
  case h_19 => cases h
  all_goals
    cases h
    simp only [Page.base, Page.blk]
    omega

/-- CHK_INV is the register at offset 0x34 of its page, and no other. -/
theorem ne_chkInv_addr {p : Page} {a : Nat} (h : pageOff p (a % 0x100000000) ≠ 0x34) : p.base + 0x34 ≠ a := by
  have hBase := Page.base_lt p
  rintro rfl
  apply h
  unfold pageOff
  omega

theorem copyKey_mod (h : Half) {a : Nat} (ha : a < 0x100000000) : copyKey h a % 0x100000000 = a := by
  cases h <;> simp only [copyKey] <;> omega

theorem copyKey_h0_ne_h1 (a : Nat) : copyKey .h0 a ≠ copyKey .h1 a := by
  simp only [copyKey]
  omega

/-! ## One word written -/

theorem State.markParity_cfg (s : State) (p : Page) (a : Nat) : (s.markParity p a).cfg = s.cfg := by
  unfold State.markParity
  dsimp only
  split
  · rfl
  split
  · rfl
  split
  · split
    · rfl
    · rfl
  · rfl

theorem State.setReg_cfg (s : State) (a : Nat) (v : Word) : (s.setReg a v).cfg = Store.set (regReset s.qb a) s.cfg a v := by
  unfold State.setReg
  split
  · rfl
  · exact State.markParity_cfg _ _ _

theorem State.setReg_wf {s : State} (a : Nat) (v : Word) (h : Store.wf (regReset s.qb) s.cfg = true) :
    Store.wf (regReset (s.setReg a v).qb) (s.setReg a v).cfg = true := by
  rw [State.setReg_qb, State.setReg_cfg]
  exact Store.set_wf _ _ _ _ h

theorem State.setReg_reg_same {s : State} (a : Nat) (v : Word) (h : Store.wf (regReset s.qb) s.cfg = true) :
    (s.setReg a v).reg a = v := by
  unfold State.reg
  rw [State.setReg_qb, State.setReg_cfg]
  exact Store.get_set_same _ _ _ _ h

theorem State.putReg_reg_other (s : State) (a b : Nat) (v : Word) (h : b ≠ a) : (s.putReg a v).reg b = s.reg b :=
  Store.get_set_other _ _ _ _ _ _ h

theorem State.setReg_reg_other (s : State) (a b : Nat) (v : Word) (h : b ≠ a) : (s.setReg a v).reg b = s.reg b := by
  unfold State.reg
  rw [State.setReg_qb, State.setReg_cfg]
  exact Store.get_set_other _ _ _ _ _ _ h

theorem State.chkInv_eq_zero_iff (s : State) (p : Page) : s.chkInv p 0 = 0 ↔ (s.reg (p.base + 0x34)).fld 0 2 = 0 := by
  unfold State.chkInv
  rw [Nat.mul_zero]
  omega

/-- With INV_0 clear a write leaves the parity of the word sound, and that of no other word worse (R363, R364). -/
theorem State.setReg_badPar {s : State} {p : Page} {a : Nat} (v : Word) (hPage : pageOf (a % 0x100000000) = some p)
    (hOff : pageOff p (a % 0x100000000) ≠ 0x34) (hInv : s.chkInv p 0 = 0) :
    (s.setReg a v).badPar = s.badPar.filter fun b => b != a := by
  have hFld : ((s.putReg a v).reg (p.base + 0x34)).fld 0 2 = 0 := by
    rw [State.putReg_reg_other _ _ _ _ (ne_chkInv_addr hOff)]
    exact (State.chkInv_eq_zero_iff s p).mp hInv
  have hEq : s.setReg a v = (s.putReg a v).markParity p a := by
    unfold State.setReg
    rw [hPage]
  rw [hEq]
  unfold State.markParity
  rw [if_neg hOff, if_neg (not_not.mpr hFld)]
  split
  · dsimp only
    split
    · rfl
    · rfl
  · rename_i hNot
    refine (List.filter_eq_self.mpr fun b hb => bne_iff_ne.mpr fun (hba : b = a) => hNot ?_).symm
    rw [← hba]
    exact List.contains_iff_mem.mpr hb

theorem State.setReg_chkInv {s : State} {p : Page} {a : Nat} (v : Word) (hOff : pageOff p (a % 0x100000000) ≠ 0x34) :
    (s.setReg a v).chkInv p 0 = s.chkInv p 0 := by
  unfold State.chkInv
  rw [State.setReg_reg_other _ _ _ _ (ne_chkInv_addr hOff)]

/-! ## Which bits a write stores -/

theorem State.storeMask_congr {s t : State} (hp : t.pwr = s.pwr) (hr : t.boot.released = s.boot.released)
    (hu : t.unlock = s.unlock) (hc : t.clk.cyc = s.clk.cyc) (p : Page) (r : RegRow) (o : Owner) (h : Half) :
    t.storeMask p r o h = s.storeMask p r o h := by
  unfold State.storeMask State.blkOpen State.isOpen State.ownerOpen State.halfOn
  rw [hp, hr, hu, hc]

/-- Only of a duplicated register the bits depend on the half. -/
theorem State.storeMask_one {o : Owner} (ho : o ≠ .dup) (s : State) (p : Page) (r : RegRow) (h : Half) :
    s.storeMask p r o h = s.storeMask p r o .h0 := by
  cases o
  case dup => exact absurd rfl ho
  all_goals rfl

/-! ## One copy written -/

section
variable {s : State} {p : Page} {r : RegRow} {o : Owner} {h : Half} {a : Nat} {v : Word}

theorem State.storeCopy_on (hOn : s.halfOn h = true) :
    s.storeCopy p r o h a v = s.setReg (copyKey h a) (mergeBits (s.regH h a) v (s.storeMask p r o h)) := if_pos hOn

theorem State.storeCopy_off (hOff : s.halfOn h = false) : s.storeCopy p r o h a v = s := by
  unfold State.storeCopy
  rw [hOff, if_neg Bool.false_ne_true]

theorem State.storeCopy_qb : (s.storeCopy p r o h a v).qb = s.qb := by
  unfold State.storeCopy
  split
  · exact State.setReg_qb _ _ _
  · rfl

theorem State.storeCopy_pwr : (s.storeCopy p r o h a v).pwr = s.pwr := by
  unfold State.storeCopy
  split
  · exact State.setReg_pwr _ _ _
  · rfl

theorem State.storeCopy_storeMask (g : Half) : (s.storeCopy p r o h a v).storeMask p r o g = s.storeMask p r o g := by
  unfold State.storeCopy
  split
  · exact State.storeMask_congr (State.setReg_pwr _ _ _) (by rw [State.setReg_boot]) (State.setReg_unlock _ _ _)
      (by rw [State.setReg_clk]) p r o g
  · rfl

theorem State.storeCopy_wf (hWf : Store.wf (regReset s.qb) s.cfg = true) :
    Store.wf (regReset (s.storeCopy p r o h a v).qb) (s.storeCopy p r o h a v).cfg = true := by
  unfold State.storeCopy
  split
  · exact State.setReg_wf _ _ hWf
  · exact hWf

theorem State.storeCopy_reg_same (hWf : Store.wf (regReset s.qb) s.cfg = true) (hOn : s.halfOn h = true) :
    (s.storeCopy p r o h a v).reg (copyKey h a) = mergeBits (s.reg (copyKey h a)) v (s.storeMask p r o h) := by
  rw [State.storeCopy_on hOn]
  exact State.setReg_reg_same _ _ hWf

theorem State.storeCopy_reg_other {b : Nat} (hb : b ≠ copyKey h a) : (s.storeCopy p r o h a v).reg b = s.reg b := by
  unfold State.storeCopy
  split
  · exact State.setReg_reg_other _ _ _ _ hb
  · rfl

theorem State.storeCopy_chkInv (ha : a < 0x100000000) (hOff : pageOff p a ≠ 0x34) :
    (s.storeCopy p r o h a v).chkInv p 0 = s.chkInv p 0 := by
  unfold State.storeCopy
  split
  · exact State.setReg_chkInv _ (by rw [copyKey_mod h ha]; exact hOff)
  · rfl

theorem State.storeCopy_badPar (ha : a < 0x100000000) (hPage : pageOf a = some p) (hOff : pageOff p a ≠ 0x34)
    (hInv : s.chkInv p 0 = 0) (hOn : s.halfOn h = true) :
    (s.storeCopy p r o h a v).badPar = s.badPar.filter fun b => b != copyKey h a := by
  rw [State.storeCopy_on hOn]
  have hMod := copyKey_mod h ha
  exact State.setReg_badPar _ (hMod.symm ▸ hPage) (hMod.symm ▸ hOff) hInv

end

/-! ## A plain write -/

/-- The key of the stored word that `x` writes in half `h`. -/
def Access.key (x : Access) (h : Half) : Nat := if x.o = .dup then copyKey h x.a else x.a

/-- Half `h` takes part in the write `x`: always, but of a duplicated register only while it is on (R21). -/
def State.takesPart (s : State) (x : Access) (h : Half) : Prop := x.o = .dup → s.halfOn h = true

/-- `t` holds what the write `x` stores in `s`, with its parity, and in it no domain has changed. -/
structure Stored (s : State) (x : Access) (t : State) : Prop where
  qb : t.qb = s.qb
  pwr : t.pwr = s.pwr
  word : ∀ h, s.takesPart x h → t.reg (x.key h) = mergeBits (s.reg (x.key h)) x.v (s.storeMask x.p x.r x.o h)
  sound : s.chkInv x.p 0 = 0 → ∀ h, s.takesPart x h → x.key h ∉ t.badPar

/-- The write `x` goes to a register beyond the fault header that stores some field. -/
structure Access.Plain (x : Access) : Prop where
  lt : x.a < 0x100000000
  page : pageOf x.a = some x.p
  off : 0x40 ≤ pageOff x.p x.a
  stores : x.r.rw ||| x.r.lk ≠ 0

theorem not_mem_filter_ne {α : Type} [BEq α] [LawfulBEq α] (l : List α) (a : α) : a ∉ l.filter fun b => b != a := by
  intro h
  exact bne_iff_ne.mp (List.mem_filter.mp h).2 rfl

theorem State.plain_one {s : State} {x : Access} (hx : x.Plain) (ho : x.o ≠ .dup) :
    s.plain x = s.setReg x.a (mergeBits (s.reg x.a) x.v (s.storeMask x.p x.r x.o .h0)) := by
  unfold State.plain State.store
  rw [if_neg hx.stores]
  split
  · exact absurd (by assumption) ho
  · rfl

theorem State.plain_dup {s : State} {x : Access} (hx : x.Plain) (ho : x.o = .dup) :
    s.plain x = (s.storeCopy x.p x.r x.o .h0 x.a x.v).storeCopy x.p x.r x.o .h1 x.a x.v := by
  unfold State.plain State.store
  rw [if_neg hx.stores, ho]

theorem State.plain_stored_one {s : State} {x : Access} (hx : x.Plain) (ho : x.o ≠ .dup)
    (hWf : Store.wf (regReset s.qb) s.cfg = true) : Stored s x (s.plain x) := by
  have hOff : pageOff x.p x.a ≠ 0x34 := fun e => absurd hx.off (by omega)
  have hKey (h : Half) : x.key h = x.a := if_neg ho
  have hMod : x.a % 0x100000000 = x.a := Nat.mod_eq_of_lt hx.lt
  rw [State.plain_one hx ho]
  refine ⟨State.setReg_qb _ _ _, State.setReg_pwr _ _ _, fun h _ => ?_, fun hInv h _ => ?_⟩
  · rw [hKey, State.storeMask_one ho s x.p x.r h]
    exact State.setReg_reg_same _ _ hWf
  · rw [hKey, State.setReg_badPar _ (hMod.symm ▸ hx.page) (hMod.symm ▸ hOff) hInv]
    exact not_mem_filter_ne _ _

theorem State.plain_stored_dup {s : State} {x : Access} (hx : x.Plain) (ho : x.o = .dup)
    (hWf : Store.wf (regReset s.qb) s.cfg = true) : Stored s x (s.plain x) := by
  have hKey (h : Half) : x.key h = copyKey h x.a := if_pos ho
  have hOff : pageOff x.p x.a ≠ 0x34 := fun e => absurd hx.off (by omega)
  have hOn1 : (s.storeCopy x.p x.r x.o .h0 x.a x.v).halfOn .h1 = s.halfOn .h1 := State.halfOn_of_pwr State.storeCopy_pwr _
  rw [State.plain_dup hx ho]
  refine ⟨State.storeCopy_qb.trans State.storeCopy_qb, State.storeCopy_pwr.trans State.storeCopy_pwr,
    fun h hOn => ?_, fun hInv h hOn => ?_⟩
  · rw [hKey]
    cases h
    case h0 =>
      rw [State.storeCopy_reg_other (copyKey_h0_ne_h1 _)]
      exact State.storeCopy_reg_same hWf (hOn ho)
    case h1 =>
      rw [State.storeCopy_reg_same (State.storeCopy_wf hWf) (hOn1.trans (hOn ho)), State.storeCopy_storeMask,
        State.storeCopy_reg_other (copyKey_h0_ne_h1 _).symm]
  · rw [hKey]
    cases h
    case h0 =>
      have hNot : copyKey .h0 x.a ∉ (s.storeCopy x.p x.r x.o .h0 x.a x.v).badPar := by
        rw [State.storeCopy_badPar hx.lt hx.page hOff hInv (hOn ho)]
        exact not_mem_filter_ne _ _
      cases h1 : s.halfOn .h1
      · rw [State.storeCopy_off (hOn1.trans h1)]
        exact hNot
      · rw [State.storeCopy_badPar hx.lt hx.page hOff ((State.storeCopy_chkInv hx.lt hOff).trans hInv) (hOn1.trans h1)]
        exact fun hMem => hNot (List.mem_of_mem_filter hMem)
    case h1 =>
      rw [State.storeCopy_badPar hx.lt hx.page hOff ((State.storeCopy_chkInv hx.lt hOff).trans hInv) (hOn1.trans (hOn ho))]
      exact not_mem_filter_ne _ _

/-- A plain write stores the bits that the lock lets through, in each copy that is on (R9, R21). -/
theorem State.plain_stored {s : State} {x : Access} (hx : x.Plain) (hWf : Store.wf (regReset s.qb) s.cfg = true) :
    Stored s x (s.plain x) := by
  by_cases ho : x.o = .dup
  · exact State.plain_stored_dup hx ho hWf
  · exact State.plain_stored_one hx ho hWf

/-! ## What goes before a write and after it -/

theorem State.reg_of_regView {s t : State} (h : t.regView = s.regView) (a : Nat) : t.reg a = s.reg a := by
  unfold State.reg
  rw [show t.cfg = s.cfg from congrArg RegView.cfg h, show t.qb = s.qb from congrArg RegView.qb h]

theorem Stored.of_after {s t u : State} {x : Access} (h : Stored s x t) (hv : u.regView = t.regView) : Stored s x u where
  qb := (congrArg RegView.qb hv).trans h.qb
  pwr := (congrArg RegView.pwr hv).trans h.pwr
  word g hg := (State.reg_of_regView hv _).trans (h.word g hg)
  sound hInv g hg := by
    rw [show u.badPar = t.badPar from congrArg RegView.badPar hv]
    exact h.sound hInv g hg

theorem Stored.of_before {s t u : State} {x : Access} (h : Stored t x u) (hv : t.regView = s.regView) : Stored s x u := by
  have hPwr : t.pwr = s.pwr := congrArg RegView.pwr hv
  have hPart (g : Half) (hg : s.takesPart x g) : t.takesPart x g := fun ho => (State.halfOn_of_pwr hPwr g).trans (hg ho)
  have hMask := State.storeMask_congr hPwr (congrArg RegView.released hv) (congrArg RegView.unlock hv)
    (congrArg RegView.cyc hv) x.p x.r x.o
  have hInv : t.chkInv x.p 0 = s.chkInv x.p 0 := by
    unfold State.chkInv
    rw [State.reg_of_regView hv]
  refine ⟨h.qb.trans (congrArg RegView.qb hv), h.pwr.trans hPwr, fun g hg => ?_, fun hz g hg => ?_⟩
  · rw [h.word g (hPart g hg), State.reg_of_regView hv, hMask]
  · exact h.sound (hInv.trans hz) g (hPart g hg)

theorem State.wf_of_regView {s t : State} (h : t.regView = s.regView) (hWf : Store.wf (regReset s.qb) s.cfg = true) :
    Store.wf (regReset t.qb) t.cfg = true := by
  rw [show t.cfg = s.cfg from congrArg RegView.cfg h, show t.qb = s.qb from congrArg RegView.qb h]
  exact hWf

end Sys2Proof.Machine
end

section
/-! PROOFS. The write of a register, page by page: the plain write, and what its block does before and after it. -/

namespace Sys2Proof.Machine

section
variable {s : State} {x : Access}

/-- A register whose write is an operation of its own is not at the offset of one that takes a plain write. -/
theorem not_ownWrite_at {p : Page} {off a : Nat} (h : Parts.ownWrite p off = false) (hOwn : Parts.ownWrite p a = true) :
    off ≠ a := by
  rintro rfl
  exact Bool.false_ne_true (h.symm.trans hOwn)

/-- A write that stores its fields and then leaves the registers alone. -/
theorem Stored.of_plain {u : State} (hx : x.Plain) (hWf : Store.wf (regReset s.qb) s.cfg = true)
    (hv : u.regView = (s.plain x).regView) : Stored s x u := (State.plain_stored hx hWf).of_after hv

theorem State.writeSys_plain (h : Parts.ownWrite .sys x.r.off = false) : s.writeSys x = (.ok, s.plain x) := by
  unfold State.writeSys
  split
  case h_6 => rfl
  all_goals exact (not_ownWrite_at h rfl (by assumption)).elim

theorem State.writePwr_plain (h : Parts.ownWrite .pwr x.r.off = false) : s.writePwr x = (.ok, s.plain x) := by
  unfold State.writePwr
  split
  case h_7 => rfl
  all_goals exact (not_ownWrite_at h rfl (by assumption)).elim

theorem State.writePch_plain (n : Fin 8) (h : Parts.ownWrite (.pch n) x.r.off = false) :
    s.writePch n x = (.ok, ((s.plain x).judgeDrv n).judgeMis) := by
  unfold State.writePch
  split
  case h_6 => rfl
  all_goals exact (not_ownWrite_at h rfl (by assumption)).elim

theorem State.writeExc_plain (h : Parts.ownWrite .exc x.r.off = false) : s.writeExc x = (.ok, s.plain x) := by
  unfold State.writeExc
  dsimp only
  split
  case h_5 => rfl
  all_goals exact (not_ownWrite_at h rfl (by assumption)).elim

theorem State.writeScl_plain (h : Parts.ownWrite .scl x.r.off = false) : s.writeScl x = (.ok, s.plain x) := by
  simp only [Parts.ownWrite, Bool.or_eq_false_iff, beq_eq_false_iff_ne, Option.isSome_eq_false_iff,
    Option.isNone_iff_eq_none] at h
  obtain ⟨hCtrl, hCoef⟩ := h
  unfold State.writeScl
  dsimp only
  split
  · rename_i hOff
    exact absurd hOff hCtrl
  · rename_i hSome _
    rw [hCoef] at hSome
    cases hSome
  · rfl

theorem State.writeDch_plain (h : Parts.ownWrite .dch x.r.off = false) : s.writeDch x = (.ok, s.plain x) := by
  unfold State.writeDch
  dsimp only
  split
  case h_4 => rfl
  all_goals exact (not_ownWrite_at h rfl (by assumption)).elim

theorem State.writeEnc_plain (h : Parts.ownWrite .enc x.r.off = false) :
    let n : Fin 4 := Fin.ofNat 4 x.i
    s.writeEnc x = (.ok, ((((s.encFollow n).plain x).encConfig n (x.r.off - 0x100)).judgeTally n).encPads n) := by
  unfold State.writeEnc
  dsimp only
  split
  · exact (not_ownWrite_at h rfl (by assumption)).elim
  · rfl

theorem State.writeAev_plain (h : Parts.ownWrite .aev x.r.off = false) : s.writeAev x = (.ok, s.plain x) := by
  unfold State.writeAev
  dsimp only
  split
  case h_6 => rfl
  all_goals exact (not_ownWrite_at h rfl (by assumption)).elim

theorem State.writeSdm_plain (h : Parts.ownWrite .sdm x.r.off = false) :
    ∃ u, s.writeSdm x = (.ok, u) ∧ u.regView = (s.plain x).regView := by
  unfold State.writeSdm
  dsimp only
  split
  case h_1 => exact ⟨_, rfl, (State.reform_regView _).trans (State.sdclkFrom_regView _ _)⟩
  case h_5 => exact ⟨_, rfl, State.sdmCfgWritten_regView _ _ _⟩
  case h_6 => exact ⟨_, rfl, State.tqCfgWritten_regView _ _ _⟩
  case h_8 => exact ⟨_, rfl, State.reform_regView _⟩
  all_goals exact (not_ownWrite_at h rfl (by assumption)).elim

theorem State.writeAux_plain (h : Parts.ownWrite .aux x.r.off = false) :
    ∃ u, s.writeAux x = (.ok, u) ∧ u.regView = (s.plain x).regView := by
  unfold State.writeAux
  split
  case h_2 => exact ⟨_, rfl, State.routAll_regView _⟩
  case h_3 => exact ⟨_, rfl, State.routAll_regView _⟩
  case h_5 => exact ⟨_, rfl, State.auxJudge_regView _⟩
  case h_6 =>
    refine ⟨_, rfl, ?_⟩
    split
    · exact State.auxCfgWritten_regView _ _ _
    · rfl
  all_goals exact (not_ownWrite_at h rfl (by assumption)).elim

theorem State.writeXmon_plain (h : Parts.ownWrite .xmon x.r.off = false) :
    ∃ u, s.writeXmon x = (.ok, u) ∧ u.regView = (s.encFollowAll.plain x).regView := by
  unfold State.writeXmon
  split
  case h_4 => exact ⟨_, rfl, by simp⟩
  all_goals exact (not_ownWrite_at h rfl (by assumption)).elim

theorem State.writeCrz_plain (h : Parts.ownWrite .crz x.r.off = false) :
    s.writeCrz x = (.ok, (s.plain x).cruiseJudge.domains) := by
  unfold State.writeCrz
  split
  · exact (not_ownWrite_at h rfl (by assumption)).elim
  · rfl

theorem State.writeTime_plain (h : Parts.ownWrite .time x.r.off = false) :
    ∃ u, s.writeTime x = (.ok, u) ∧ u.regView = (s.plain x).regView := by
  unfold State.writeTime
  split
  case h_1 => exact ⟨_, rfl, State.timeCfgWritten_regView _⟩
  case h_2 => exact ⟨_, rfl, State.timeTmoWritten_regView _⟩
  case h_5 => exact ⟨_, rfl, rfl⟩
  all_goals exact (not_ownWrite_at h rfl (by assumption)).elim

theorem State.writeNet_ctrl (h : x.r.off = 0x40) : s.writeNet x = (.ok, (s.plain x).netCtrlWritten.domains) := by
  unfold State.writeNet
  rw [h]
  rfl

theorem State.writeNet_plain (h : Parts.ownWrite .net x.r.off = false) (hCtrl : x.r.off ≠ 0x40) :
    s.writeNet x = (.ok, s.plain x) := by
  unfold State.writeNet
  split
  case h_1 => exact absurd (by assumption) hCtrl
  case h_3 => rfl
  all_goals exact (not_ownWrite_at h rfl (by assumption)).elim

theorem State.writeQue_plain (h : Parts.ownWrite .que x.r.off = false) :
    ∃ u : State, s.writeQue x = (.ok, u.domains) ∧ u.regView = (s.plain x).regView := by
  unfold State.writeQue
  dsimp only
  split
  case h_3 => exact ⟨_, rfl, by simp⟩
  case h_4 => exact ⟨_, rfl, by simp⟩
  all_goals exact (not_ownWrite_at h rfl (by assumption)).elim

/-- After the write of `x` the domains follow the votes (R374, R426). -/
def Access.votes (x : Access) : Prop := x.p = .que ∨ x.p = .crz ∨ (x.p = .net ∧ x.r.off = 0x40)

theorem State.regStore_voting (hx : x.Plain) (hOwn : Parts.ownWrite x.p x.r.off = false) (hv : x.votes)
    (hWf : Store.wf (regReset s.qb) s.cfg = true) : ∃ u, s.regStore x = (.ok, u.domains) ∧ Stored s x u := by
  unfold State.regStore
  rcases hv with hp | hp | ⟨hp, hOff⟩
  · rw [hp] at hOwn ⊢
    obtain ⟨u, hRun, hv⟩ := State.writeQue_plain (s := s) hOwn
    exact ⟨u, hRun, .of_plain hx hWf hv⟩
  · rw [hp] at hOwn ⊢
    exact ⟨_, State.writeCrz_plain hOwn, .of_plain hx hWf (State.cruiseJudge_regView _)⟩
  · rw [hp]
    exact ⟨_, State.writeNet_ctrl hOff, .of_plain hx hWf (State.netCtrlWritten_regView _)⟩

theorem State.regStore_plain (hx : x.Plain) (hOwn : Parts.ownWrite x.p x.r.off = false) (hv : ¬ x.votes)
    (hWf : Store.wf (regReset s.qb) s.cfg = true) : ∃ u, s.regStore x = (.ok, u) ∧ Stored s x u := by
  have hPlain : Stored s x (s.plain x) := State.plain_stored hx hWf
  have hAfter (r : Status × State) (h : ∃ u, r = (.ok, u) ∧ u.regView = (s.plain x).regView) :
      ∃ u, r = (.ok, u) ∧ Stored s x u := by
    obtain ⟨u, hRun, hv⟩ := h
    exact ⟨u, hRun, hPlain.of_after hv⟩
  unfold State.regStore
  cases hp : x.p <;> rw [hp] at hOwn <;> dsimp only
  case sys => exact ⟨_, State.writeSys_plain hOwn, hPlain⟩
  case pwr => exact ⟨_, State.writePwr_plain hOwn, hPlain⟩
  case boot => exact (Bool.false_ne_true hOwn.symm).elim
  case fab => exact (Bool.false_ne_true hOwn.symm).elim
  case mem => exact (Bool.false_ne_true hOwn.symm).elim
  case pch n => exact hAfter _ ⟨_, State.writePch_plain n hOwn, by simp⟩
  case exc => exact ⟨_, State.writeExc_plain hOwn, hPlain⟩
  case scl => exact ⟨_, State.writeScl_plain hOwn, hPlain⟩
  case dch => exact ⟨_, State.writeDch_plain hOwn, hPlain⟩
  case enc =>
    have hPre := State.encFollow_regView s (Fin.ofNat 4 x.i)
    refine ⟨_, State.writeEnc_plain hOwn, Stored.of_before (.of_plain hx (State.wf_of_regView hPre hWf) ?_) hPre⟩
    simp
  case aev => exact ⟨_, State.writeAev_plain hOwn, hPlain⟩
  case sdm => exact hAfter _ (State.writeSdm_plain hOwn)
  case aux => exact hAfter _ (State.writeAux_plain hOwn)
  case xmon =>
    have hPre := State.encFollowAll_regView s
    obtain ⟨u, hRun, hView⟩ := State.writeXmon_plain (s := s) hOwn
    exact ⟨u, hRun, Stored.of_before (.of_plain hx (State.wf_of_regView hPre hWf) hView) hPre⟩
  case crz => exact absurd (.inr (.inl hp)) hv
  case time => exact hAfter _ (State.writeTime_plain hOwn)
  case net => exact ⟨_, State.writeNet_plain hOwn fun hOff => hv (.inr (.inr ⟨hp, hOff⟩)), hPlain⟩
  case que => exact absurd (.inl hp) hv

end

end Sys2Proof.Machine
end

section
/-! PROOFS. A read of a register that a plain write has stored (R7, R363). -/

namespace Sys2Proof.Machine

/-- A read of the register at offset `off` of its row in page `p` captures something, passes a checked store, or shows a value
that its block keeps. -/
def readsAside (p : Page) (off : Nat) : Bool :=
  match p with
  | .pwr => off == 0x80 || off == 0x8C
  | .time => off == 0x40
  | .pch _ => off == 0x120 || off == 0x160 || off == 0x158 || off == 0x15C
  | .scl => (coefOf off).isSome
  | .dch => off == 0x124
  | .enc => off == 0x118 || off == 0x138 || off == 0x13C
  | .aev => decide (0x1000 ≤ off)
  | .aux => off == 0x120
  | .que => decide (0x110 ≤ off ∧ off ≤ 0x124)
  | _ => false

/-- By the register map: no register that takes a plain write reads so. -/
theorem not_readsAside_of_plain (p : Page) :
    ∀ r ∈ regRows p.blk, r.rw ||| r.lk ≠ 0 → Parts.ownWrite p r.off = false → readsAside p r.off = false := by
  cases p
  case pch n =>
    revert n
    decide
  all_goals decide

theorem findReg_mem {b off : Nat} {r : RegRow} {i : Nat} (h : findReg b off = some (r, i)) : r ∈ regRows b := by
  obtain ⟨q, hq, hHit⟩ := List.exists_of_findSome?_eq_some h
  obtain ⟨j, -, hj⟩ := Option.map_eq_some_iff.mp hHit
  cases hj
  exact hq

theorem lookup_row {p : Page} {off i : Nat} {r : RegRow} (h : lookup p off = some (some (r, i))) :
    0x40 ≤ off ∧ r ∈ regRows p.blk := by
  unfold lookup at h
  split at h
  · cases h
  · rename_i hOff
    obtain ⟨q, hq, hEq⟩ := Option.map_eq_some_iff.mp h
    cases hEq
    exact ⟨Nat.le_of_not_lt hOff, findReg_mem hq⟩

section
variable {s : State} {p : Page} {r : RegRow}

theorem State.readSide_plain (i : Nat) (h : readsAside p r.off = false) : s.readSide p r.off i = s := by
  cases p
  case que =>
    have hOff : ¬(0x110 ≤ r.off ∧ r.off ≤ 0x124) := of_decide_eq_false h
    unfold State.readSide
    dsimp only
    rw [if_neg (by omega), if_neg (by omega)]
  all_goals simp_all [State.readSide, readsAside]

theorem State.storedWord_plain (off a : Nat) (h : readsAside p r.off = false) :
    s.storedWord p r off a = (if s.owner p off = .dup then s.regH s.lead a else s.reg a) &&& (r.rw ||| r.lk) := by
  have hBlock : inBlock p r.off = false := by
    cases p <;> simp_all [inBlock, readsAside]
  have hAlarm : ¬(p = .pwr ∧ r.off = 0x8C) := by
    rintro ⟨rfl, hOff⟩
    rw [hOff] at h
    exact Bool.false_ne_true h.symm
  unfold State.storedWord
  rw [hBlock, if_neg Bool.false_ne_true]
  dsimp only
  rw [if_neg hAlarm]
  congr 1
  split
  · rename_i hDup
    rw [if_pos hDup]
  · rename_i hDup
    rw [if_neg hDup]

theorem State.regRead_plain (i off a : Nat) (h : readsAside p r.off = false) :
    s.regRead p r i off a = (.ok, s.regWord p r i off a, s) := by
  have hSide := State.readSide_plain (s := s) i h
  unfold State.regRead
  rw [hSide]
  dsimp only
  cases p
  case scl => exact if_neg (Bool.eq_false_iff.mp h)
  case aev => exact if_neg fun hOff => absurd hOff.1 (of_decide_eq_false h)
  case que => exact if_neg fun hOff => of_decide_eq_false h ⟨hOff.1, hOff.2.1⟩
  all_goals rfl

end

/-- Whether a register is one of a duplicated block is fixed by its address. -/
theorem State.owner_dup_iff (s t : State) (p : Page) (off : Nat) : t.owner p off = .dup ↔ s.owner p off = .dup := by
  unfold State.owner
  cases p <;> simp only [reduceCtorEq]
  all_goals (repeat' split) <;> simp

theorem State.lead_of_pwr {s t : State} (h : t.pwr = s.pwr) : t.lead = s.lead := by
  unfold State.lead State.halfOn
  rw [h]

/-- Where one copy is on, so is the one that reads show. -/
theorem State.halfOn_lead {s : State} (h : s.ownerOn .dup = true) : s.halfOn s.lead = true := by
  unfold State.ownerOn at h
  unfold State.lead
  cases h0 : s.halfOn .h0 <;> cases h1 : s.halfOn .h1 <;> simp_all
  split <;> simp_all

/-- The word that reads of the register show is one of those a write stores. -/
theorem State.takesPart_lead {s : State} {x : Access} (h : s.ownerOn x.o = true) : s.takesPart x s.lead := fun ho =>
  State.halfOn_lead (ho ▸ h)

theorem State.hostRead_row {t : State} {p : Page} {r : RegRow} {w i : Nat} (hReg : sramOff w = none) (hPage : pageOf w = some p)
    (hOn : t.pageOn p = true) (hRow : lookup p (pageOff p w) = some (some (r, i)))
    (hOwner : t.ownerOn (t.owner p (pageOff p w)) = true) :
    t.hostRead w = t.parityRead p (pageOff p w) (t.regRead p r i (pageOff p w) w) := by
  unfold State.hostRead State.regReadAt
  simp [hReg, hPage, hOn, hRow, hOwner]

end Sys2Proof.Machine
end

section
/-! PROOFS. Bytes of the SRAM written and read again (R402). -/

namespace Sys2Proof.Machine

theorem leBytes_length (n v : Nat) : (leBytes n v).length = n := by
  induction n generalizing v with
  | zero => rfl
  | succ n ih => exact congrArg (· + 1) (ih _)

theorem leNat_leBytes (n v : Nat) : leNat (leBytes n v) = v % 256 ^ n := by
  induction n generalizing v with
  | zero => simp [leBytes, leNat, Nat.mod_one]
  | succ n ih =>
    have hPow : 256 ^ (n + 1) = 256 * 256 ^ n := Nat.pow_succ'
    rw [hPow, Nat.mod_mul]
    simp only [leBytes, leNat, ih, BitVec.toNat_ofNat, Nat.reducePow]

theorem Memory.readBytes_writeBytes (d : Byte) (m : List Host.Cell) (a : Nat) (l : List Byte) (h : Memory.wf d m = true) :
    Memory.readBytes d (Memory.writeBytes d m a l) a l.length = l := by
  induction l generalizing m a with
  | nil => rfl
  | cons b l ih =>
    have hWf := Memory.write_wf d m a b h
    have hFirst : Memory.read d (Memory.writeBytes d (Memory.write d m a b) (a + 1) l) a = b :=
      (Memory.read_writeBytes_other d _ (a + 1) a l (.inl (Nat.lt_succ_self a))).trans (Memory.read_write_same d m a b h)
    exact congrArg₂ List.cons hFirst (ih _ _ hWf)

theorem Memory.readWord_writeBytes (d : Byte) (m : List Host.Cell) (a : Nat) (v : Word) (h : Memory.wf d m = true) :
    Memory.readWord d (Memory.writeBytes d m a (leBytes 4 v.toNat)) a = v := by
  have hBytes := Memory.readBytes_writeBytes d m a (leBytes 4 v.toNat) h
  rw [leBytes_length] at hBytes
  unfold Memory.readWord
  rw [hBytes, leNat_leBytes]
  apply BitVec.eq_of_toNat_eq
  rw [BitVec.toNat_ofNat, show 256 ^ 4 = 2 ^ 32 from rfl, Nat.mod_mod, Nat.mod_eq_of_lt v.isLt]

/-- The byte at the lowest address holds bits 7 to 0. -/
theorem Memory.read_writeBytes_first (d : Byte) (m : List Host.Cell) (a : Nat) (v : Word) (h : Memory.wf d m = true) :
    Memory.read d (Memory.writeBytes d m a (leBytes 4 v.toNat)) a = v.setWidth 8 := by
  have hBytes := Memory.readBytes_writeBytes d m a (leBytes 4 v.toNat) h
  exact (List.cons.inj hBytes).1

end Sys2Proof.Machine
end

section
/-! PROOFS. A host write judged by its address (R9, R359, R360, R402, R460). -/

namespace Sys2Proof.Machine

section
variable {s : State} {a v : Word}

theorem exec_registerWrite_unaligned (h : a.toNat % 4 ≠ 0) :
    exec (.registerWrite a v) s = .next { s with wst := .range } := congrArg finish (if_pos h)

theorem exec_registerWrite_reg (hw : a.toNat % 4 = 0) (hReg : sramOff a.toNat = none) :
    exec (.registerWrite a v) s = finish (s.regWrite .host a.toNat v) := by
  refine congrArg finish ((if_neg (not_not.mpr hw)).trans ?_)
  unfold State.hostWrite
  rw [hReg]

theorem exec_registerWrite_sram {off : Nat} (hw : a.toNat % 4 = 0) (hOff : sramOff a.toNat = some off) :
    exec (.registerWrite a v) s = finish (s.sramWrite off v) := by
  refine congrArg finish ((if_neg (not_not.mpr hw)).trans ?_)
  unfold State.hostWrite
  rw [hOff]

end

section
variable {s : State} {m : Master} {a : Nat} {v : Word} {p : Page}

theorem State.regWrite_nowhere (h : pageOf a = none) : s.regWrite m a v = (.range, s.fabReport 1 m a true) := by
  unfold State.regWrite
  rw [h]

theorem State.regWrite_page_off (hp : pageOf a = some p) (h : s.pageOn p = false) :
    s.regWrite m a v = (.accOff, s.fabReport 0 m a true) := by
  unfold State.regWrite
  simp only [hp, h, Bool.not_false, if_true]

theorem State.regWrite_no_register (hp : pageOf a = some p) (hOn : s.pageOn p = true) (h : lookup p (pageOff p a) = none) :
    s.regWrite m a v = (.range, s.fabReport 1 m a true) := by
  unfold State.regWrite
  simp only [hp, hOn, h, Bool.not_true, Bool.false_eq_true, if_false]

/-- A register beyond the fault header, by the state of its own domain and its lock. -/
theorem State.regWrite_row {r : RegRow} {i : Nat} (hp : pageOf a = some p) (hOn : s.pageOn p = true)
    (h : lookup p (pageOff p a) = some (some (r, i))) :
    s.regWrite m a v =
      if !s.ownerOn (s.owner p (pageOff p a)) then (.accOff, s.fabReport 0 m a true)
      else if s.refuses p r (s.owner p (pageOff p a)) then (.denied, s)
      else s.regStore ⟨p, r, i, s.owner p (pageOff p a), a, v⟩ := by
  unfold State.regWrite
  simp only [hp, hOn, h, Bool.not_true, Bool.false_eq_true, if_false]
  rfl

end

/-- A failed access leaves its report in FAB and a status, and nothing else. -/
theorem completes_fabReport {c : Instr} {s : State} {st : Status} {b : Nat} {m : Master} {a : Nat} {wr : Bool} (hb : b < 32)
    (h : exec c s = finish (st, s.fabReport b m a wr)) :
    Completes c s (fun t => t.wst = st ∧ t.quiet = ({ s with wst := t.wst } : State).quiet ∧ t.stickyBit .fab b = true) :=
  ⟨_, h, rfl, congrArg (fun q : State => { q with wst := st }) (State.fabReport_quiet s b m a wr),
    State.fabReport_sticky s b m a wr hb⟩

/-- After release, with its block locked and no half and no NET waiting for PAD_RELEASE, a register whose fields are all rw-lk
refuses a write (R460). -/
theorem State.refuses_locked {s : State} {p : Page} {r : RegRow} (o : Owner) (hRow : r.allLocked = true)
    (hRel : s.boot.released = true) (hShut : s.isOpen p.blk = false) (hPads : s.pwr.padOpen = ⟨false, false⟩)
    (hNet : s.pwr.padOpenNet = false) : s.refuses p r o = true := by
  have hGet (h : Half) : s.pwr.padOpen.get h = false := by
    rw [hPads]
    cases h <;> rfl
  have hOwner (h : Half) : s.ownerOpen o h = false := by
    cases o
    case core => rfl
    case half g => exact hGet g
    case dup => exact hGet h
    case either =>
      simp only [State.ownerOpen, hGet, Bool.not_false, Bool.and_true]
      cases s.halfOn .h0 <;> cases s.halfOn .h1 <;> rfl
    case net => exact hNet
  unfold State.refuses State.blkOpen
  rw [hRow, hRel, hShut]
  cases o <;> simp [hOwner]

theorem RegRow.allLocked_of_masks {r : RegRow} (hrw : r.rw = 0) (hw1c : r.w1c = 0) (hwo : r.wo = 0) (hrs : r.rs = 0)
    (hlk : r.lk ≠ 0) : r.allLocked = true := by
  simpa [RegRow.allLocked, hrw, hw1c, hwo, hrs] using hlk

/-! ## SRAM words -/

theorem State.sramWrite_off {s : State} {off : Nat} {v : Word} (h : s.sramOpen off = false) :
    s.sramWrite off v = (.accOff, s.fabReport 0 .host (0x10000000 + off) true) := by
  unfold State.sramWrite
  rw [h]
  rfl

theorem State.sramWrite_landing {s : State} {off : Nat} {v : Word} (h : s.sramOpen off = true) (hLanding : off < 0x80000) :
    s.sramWrite off v = (.denied, s) := by
  unfold State.sramWrite
  rw [h]
  exact if_pos (Or.inl hLanding)

theorem State.sramWrite_stored {s : State} {off : Nat} {v : Word} (h : s.sramOpen off = true) (hAbove : 0x80000 ≤ off)
    (hHold : s.boot.inHold = false) : s.sramWrite off v = (.ok, s.sramPut off (leBytes 4 v.toNat)) := by
  have hBusy : s.dlBusy = false := by
    unfold State.dlBusy
    rw [hHold]
    rfl
  unfold State.sramWrite
  rw [h, hBusy]
  exact if_neg (not_or.mpr ⟨Nat.not_lt.mpr hAbove, fun hb => Bool.false_ne_true hb.1⟩)

theorem completes_sramPut {c : Instr} {s : State} {off : Nat} {v : Word} (hWf : Memory.wf sramDefault s.sram = true)
    (h : exec c s = finish (.ok, s.sramPut off (leBytes 4 v.toNat))) :
    Completes c s (fun t => t = { s with sram := t.sram, badEcc := t.badEcc, wst := .ok } ∧
      Memory.readWord sramDefault t.sram off = v ∧ Memory.read sramDefault t.sram off = v.setWidth 8 ∧
      Memory.wf sramDefault t.sram = true ∧
      ∀ b, b < off ∨ off + 4 ≤ b → Memory.read sramDefault t.sram b = Memory.read sramDefault s.sram b) :=
  ⟨_, h, rfl, Memory.readWord_writeBytes _ _ _ _ hWf, Memory.read_writeBytes_first _ _ _ _ hWf,
    Memory.writeBytes_wf _ _ _ _ hWf, fun _ hb => Memory.read_writeBytes_other _ _ _ _ _ (by rwa [leBytes_length])⟩

/-- Every write of the host that is refused, and those of SRAM. -/
theorem writesJudged : Parts.WritesJudged := by
  unfold Parts.WritesJudged
  intro s a v w c frame
  refine ⟨exec_registerWrite_unaligned, fun hw hReg => ⟨fun hp => ?_, fun p hp => ⟨fun hOff => ?_, fun hOn hNone => ?_,
    fun r i hOn hRow => ⟨fun hOff => ?_, fun hOwn hrw hw1c hwo hrs hlk hRel hShut hPads hNet => ?_⟩⟩⟩,
    fun off hw hOff => ⟨fun hShut => ?_, fun hOpen hLanding => ?_, fun hOpen hAbove hHold hWf => ?_⟩⟩
  · exact completes_fabReport (by decide) ((exec_registerWrite_reg hw hReg).trans (congrArg finish (State.regWrite_nowhere hp)))
  · exact completes_fabReport (by decide)
      ((exec_registerWrite_reg hw hReg).trans (congrArg finish (State.regWrite_page_off hp hOff)))
  · exact completes_fabReport (by decide)
      ((exec_registerWrite_reg hw hReg).trans (congrArg finish (State.regWrite_no_register hp hOn hNone)))
  · refine completes_fabReport (m := .host) (a := w) (wr := true) (by decide) ((exec_registerWrite_reg hw hReg).trans ?_)
    rw [State.regWrite_row hp hOn hRow, hOff]
    rfl
  · have hRefused := State.refuses_locked (s := s) (p := p) (s.owner p (pageOff p w))
      (RegRow.allLocked_of_masks hrw hw1c hwo hrs hlk) hRel hShut hPads hNet
    rw [exec_registerWrite_reg hw hReg, State.regWrite_row hp hOn hRow, hOwn, hRefused]
    rfl
  · exact completes_fabReport (by decide)
      ((exec_registerWrite_sram hw hOff).trans (congrArg finish (State.sramWrite_off hShut)))
  · exact (exec_registerWrite_sram hw hOff).trans (congrArg finish (State.sramWrite_landing hOpen hLanding))
  · exact completes_sramPut hWf
      ((exec_registerWrite_sram hw hOff).trans (congrArg finish (State.sramWrite_stored hOpen hAbove hHold)))

end Sys2Proof.Machine
end

section
/-! PROOFS. Writes of the host (R7, R9, R21, R359, R360, R402, R460). -/

namespace Sys2Proof.Machine

theorem State.parityRead_sound {t : State} {p : Page} {off : Nat} {r : Status × Word × State}
    (h : (if t.owner p off = .dup then copyKey t.lead (p.base + off) else p.base + off) ∉ t.badPar) :
    t.parityRead p off r = r := by
  unfold State.parityRead
  dsimp only
  rw [if_neg]
  rw [List.contains_iff_mem]
  split
  · rename_i hDup
    rwa [if_pos hDup] at h
  · rename_i hDup
    rwa [if_neg hDup] at h

/-- The register's own word, as reads show it, is what the write has stored (R7). -/
theorem Stored.word_lead {s t : State} {x : Access} (h : Stored s x t) (hOn : s.ownerOn x.o = true)
    (hOwner : x.o = s.owner x.p (pageOff x.p x.a)) :
    (if t.owner x.p (pageOff x.p x.a) = .dup then t.regH t.lead x.a else t.reg x.a) =
      mergeBits (if x.o = .dup then s.regH s.lead x.a else s.reg x.a) x.v
        (s.storeMask x.p x.r x.o (if x.o = .dup then s.lead else .h0)) := by
  have hDup : t.owner x.p (pageOff x.p x.a) = .dup ↔ x.o = .dup := by
    rw [State.owner_dup_iff s t, hOwner]
  have hWord := h.word s.lead (State.takesPart_lead hOn)
  unfold Access.key at hWord
  rw [State.lead_of_pwr h.pwr]
  by_cases ho : x.o = .dup
  · rw [if_pos (hDup.mpr ho)]
    simp only [if_pos ho] at hWord ⊢
    exact hWord
  · rw [if_neg (mt hDup.mp ho)]
    simp only [if_neg ho] at hWord ⊢
    rw [State.storeMask_one ho s x.p x.r s.lead] at hWord
    exact hWord

/-- With its parity sound, a stored register reads as its live fields beside the stored ones (R7, R363). -/
theorem Stored.hostRead {s t : State} {x : Access} (h : Stored s x t) (hx : x.Plain) (hReg : sramOff x.a = none)
    (hRow : lookup x.p (pageOff x.p x.a) = some (some (x.r, x.i))) (hOwn : Parts.ownWrite x.p x.r.off = false)
    (hOwner : x.o = s.owner x.p (pageOff x.p x.a)) (hOn : s.ownerOn x.o = true) (hInv : s.chkInv x.p 0 = 0)
    (hPageOn : t.pageOn x.p = true) (hOwnerOn : t.ownerOn (t.owner x.p (pageOff x.p x.a)) = true) :
    t.hostRead x.a = (.ok, t.readLive x.p x.r.off x.i |||
      (mergeBits (if x.o = .dup then s.regH s.lead x.a else s.reg x.a) x.v
        (s.storeMask x.p x.r x.o (if x.o = .dup then s.lead else .h0)) &&& (x.r.rw ||| x.r.lk)), t) := by
  have hPlain := not_readsAside_of_plain x.p x.r (lookup_row hRow).2 hx.stores hOwn
  have hAddr : x.p.base + pageOff x.p x.a = x.a := Nat.add_sub_cancel' (Page.base_le_of_pageOf hx.page)
  have hSound := h.sound hInv s.lead (State.takesPart_lead hOn)
  have hParity : t.parityRead x.p (pageOff x.p x.a) (t.regRead x.p x.r x.i (pageOff x.p x.a) x.a) =
      t.regRead x.p x.r x.i (pageOff x.p x.a) x.a := by
    refine State.parityRead_sound ?_
    rw [hAddr, State.lead_of_pwr h.pwr]
    simp only [State.owner_dup_iff s t, ← hOwner]
    exact hSound
  rw [State.hostRead_row hReg hx.page hPageOn hRow hOwnerOn, hParity, State.regRead_plain _ _ _ hPlain]
  unfold State.regWord
  rw [State.storedWord_plain _ _ hPlain, h.word_lead hOn hOwner]

/-- What the statement says of the words stored: each copy of a duplicated register that is on, or the one word. -/
theorem Stored.words {s u : State} {x : Access} (h : Stored s x u) :
    (x.o = .dup → ∀ g, s.halfOn g = true →
      u.regH g x.a = mergeBits (s.regH g x.a) x.v (s.storeMask x.p x.r x.o g)) ∧
    (x.o ≠ .dup → u.reg x.a = mergeBits (s.reg x.a) x.v (s.storeMask x.p x.r x.o .h0)) := by
  refine ⟨fun ho g hg => ?_, fun ho => ?_⟩
  · have hWord := h.word g fun _ => hg
    unfold Access.key at hWord
    rwa [if_pos ho] at hWord
  · have hWord := h.word .h0 fun hd => absurd hd ho
    unfold Access.key at hWord
    rwa [if_neg ho] at hWord

/-- The status of the command is no part of the registers. -/
theorem Stored.with_wst {s u : State} {x : Access} (h : Stored s x u) (st : Status) : Stored s x { u with wst := st } :=
  h.of_after rfl

theorem exec_registerWrite_row {s : State} {a v : Word} {p : Page} {r : RegRow} {i : Nat} (hw : a.toNat % 4 = 0)
    (hReg : sramOff a.toNat = none) (hp : pageOf a.toNat = some p) (hOn : s.pageOn p = true)
    (hRow : lookup p (pageOff p a.toNat) = some (some (r, i)))
    (hOwnerOn : s.ownerOn (s.owner p (pageOff p a.toNat)) = true)
    (hLet : s.refuses p r (s.owner p (pageOff p a.toNat)) = false) :
    exec (.registerWrite a v) s = finish (s.regStore ⟨p, r, i, s.owner p (pageOff p a.toNat), a.toNat, v⟩) := by
  rw [exec_registerWrite_reg hw hReg, State.regWrite_row hp hOn hRow, hOwnerOn, hLet]
  rfl

/-- Every write of the host to a register that is accepted. -/
theorem writesStored : Parts.WritesStored := by
  unfold Parts.WritesStored
  intro s a v p r i w c off o votes merged stored hw hReg hp hOn hRow hOwnerOn hLet hStores hOwn hWf
  let x : Access := ⟨p, r, i, o, w, v⟩
  have hx : x.Plain := ⟨a.isLt, hp, (lookup_row hRow).1, hStores⟩
  have hRun : exec c s = finish (s.regStore x) := exec_registerWrite_row hw hReg hp hOn hRow hOwnerOn hLet
  refine ⟨fun hVotes => ?_, fun hVotes => ?_⟩
  · obtain ⟨u, hStore, hStored⟩ := State.regStore_voting hx hOwn hVotes hWf
    exact ⟨u, by rw [hRun, hStore]; rfl, hStored.words⟩
  · obtain ⟨u, hStore, hStored⟩ := State.regStore_plain hx hOwn hVotes hWf
    have hEnd := hStored.with_wst .ok
    refine ⟨{ u with wst := .ok }, by rw [hRun, hStore]; rfl, rfl, hEnd.words, fun hInv hPageOn hTOwner => ?_⟩
    exact ⟨_, hEnd.hostRead hx hReg hRow hOwn rfl hOwnerOn hInv hPageOn hTOwner⟩

/-- Settles O52: the refused writes and those of SRAM by the address, the stored ones page by page of the register. -/
theorem hostWrites : Obligations.HostWrites := by
  unfold Obligations.HostWrites
  exact ⟨writesJudged, writesStored⟩

end Sys2Proof.Machine
end

section
/-! PROOFS. The angle tick (R25, R131, R165, R172): what each of its parts leaves alone, what a channel's own part does to that
channel, and the tick as a whole. -/

namespace Sys2Proof.Machine

/-! ## What no part of a tick changes -/

/-- What every part of a tick after the move of the clock leaves alone, the generators' queue of sets excepted. -/
structure Steady where
  pending : List Instr
  cfg : List (Nat × Word)
  fram : List Host.Cell
  clk : Clk
  pwr : Pwr
  exc : Vector Exc 4
  gen : Gen
  released : Bool

/-- Those parts of `s`. -/
def State.steady (s : State) : Steady := ⟨s.pending, s.cfg, s.fram, s.clk, s.pwr, s.exc, s.gen, s.boot.released⟩

/-- Those parts with the position channels: only a channel's own part of the tick changes more. -/
def State.tickView (s : State) : Steady × Vector Pch 8 := (s.steady, s.pch)

theorem State.steady_of_tickView {s t : State} (h : t.tickView = s.tickView) : t.steady = s.steady := congrArg Prod.fst h

theorem State.pch_of_tickView {s t : State} (h : t.tickView = s.tickView) : t.pch = s.pch := congrArg Prod.snd h

theorem State.halfOn_of_steady {s t : State} (h : t.steady = s.steady) (g : Half) : t.halfOn g = s.halfOn g :=
  State.halfOn_of_pwr (congrArg Steady.pwr h) g

theorem State.now_of_steady {s t : State} (h : t.steady = s.steady) : t.now = s.now :=
  congrArg (fun v : Steady => BitVec.ofNat 64 (v.clk.time / 2 ^ 32)) h

/-- A fault and its report change none of it. -/
theorem State.tickView_of_quiet {s t : State} (h : t.quiet = s.quiet) : t.tickView = s.tickView := by
  have hView := congrArg State.tickView h
  exact hView

theorem State.foldl_tickView {α : Type} (g : State → α → State) (h : ∀ s x, (g s x).tickView = s.tickView) (l : List α)
    (s : State) : (l.foldl g s).tickView = s.tickView :=
  List.foldlRecOn (motive := fun t => t.tickView = s.tickView) l g rfl fun t ht x _ => (h t x).trans ht

@[simp] theorem State.cond_tickView (s : State) (p : Page) (b : Nat) (c : Copy) (v : Bool) :
    (s.cond p b c v).tickView = s.tickView := State.tickView_of_quiet (State.cond_quiet _ _ _ _ _)

@[simp] theorem State.checkerErr_tickView (s : State) (p : Page) (n : Nat) (u : Bool) :
    (s.checkerErr p n u).tickView = s.tickView := State.tickView_of_quiet (State.checkerErr_quiet _ _ _ _)

@[simp] theorem State.offer_tickView (s : State) (i : Fin 64) (src : Nat) (l : List Byte) :
    (s.offer i src l).tickView = s.tickView := State.tickView_of_quiet (State.offer_quiet _ _ _ _)

@[simp] theorem State.devent_tickView (s : State) (n : Fin 4) (b : Nat) : (s.devent n b).tickView = s.tickView :=
  State.tickView_of_quiet (State.event_quiet _ _ _ _)

@[simp] theorem State.reform_tickView (s : State) : s.reform.tickView = s.tickView := rfl
@[simp] theorem State.setScl_tickView (s : State) (n : Fin 8) (x : Scl) : (s.setScl n x).tickView = s.tickView := rfl
@[simp] theorem State.setDch_tickView (s : State) (n : Fin 4) (x : Dch) : (s.setDch n x).tickView = s.tickView := rfl
@[simp] theorem State.setX_tickView (s : State) (d : Drive) (x : XDrive) : (s.setX d x).tickView = s.tickView := rfl
@[simp] theorem State.setFrec_tickView (s : State) (n : Fin 8) (f : Frec) : (s.setFrec n f).tickView = s.tickView := rfl
@[simp] theorem State.routAll_tickView (s : State) : s.routAll.tickView = s.tickView := rfl

/-! ## The parts beside the channels -/

@[simp] theorem State.dchTick_tickView (s : State) (n : Fin 4) : (s.dchTick n).tickView = s.tickView := by
  have hSlip : (s.raiseSlip n).tickView = s.tickView := by
    unfold State.raiseSlip
    dsimp only
    split
    · rw [State.devent_tickView, State.setDch_tickView]
    · rfl
  refine Eq.trans ?_ hSlip
  unfold State.dchTick
  extract_lets s1 x div k ssi young stamp p
  split
  · rfl
  split
  · exact State.setDch_tickView _ _ _
  · exact State.setDch_tickView _ _ _

@[simp] theorem State.xcompare_tickView (s : State) (h : Half) (d : Drive) : (s.xcompare h d).tickView = s.tickView := by
  unfold State.xcompare
  dsimp only
  split
  · rfl
  split
  · exact State.setX_tickView _ _ _
  split
  · rw [State.cond_tickView, State.setX_tickView]
  · exact State.setX_tickView _ _ _

@[simp] theorem State.xmonTick_tickView (s : State) (d : Drive) : (s.xmonTick d).tickView = s.tickView := by
  unfold State.xmonTick
  extract_lets h raw s1 s2
  have hTaken : s1.tickView = s.tickView := by
    unfold s1
    split
    · exact State.setX_tickView _ _ _
    · rfl
  have hBoth : s2.tickView = s.tickView := by
    unfold s2
    rw [State.xcompare_tickView, State.xcompare_tickView, hTaken]
  split
  · exact hBoth
  · exact hBoth

@[simp] theorem State.sweepTurns_tickView (s : State) (h : Half) : (s.sweepTurns h).tickView = s.tickView := by
  unfold State.sweepTurns
  dsimp only
  split
  · rfl
  refine State.foldl_tickView _ (fun t n => ?_) _ _
  unfold State.awaitGate
  dsimp only
  split
  · rfl
  · exact State.setScl_tickView _ _ _

@[simp] theorem State.snapAll_tickView (s : State) (k : Nat) : (s.snapAll k).tickView = s.tickView := by
  unfold State.snapAll
  refine (State.foldl_tickView _ (fun t n => ?_) _ _).trans (State.foldl_tickView _ (fun t n => ?_) _ _)
  all_goals
    split
    · exact State.offer_tickView _ _ _ _
    · rfl

@[simp] theorem State.frecTick_tickView (s : State) (n : Fin 8) : (s.frecTick n).tickView = s.tickView := by
  unfold State.frecTick
  dsimp only
  split
  · rfl
  split
  · exact State.setFrec_tickView _ _ _
  · exact State.setFrec_tickView _ _ _

/-! ## Changes of the Scaler -/

@[simp] theorem State.sclApplyDue_tickView (s : State) (n : Fin 8) : (s.sclApplyDue n).tickView = s.tickView := by
  have hPut (m : BitVec 18) : (s.coefPut n m).tickView = s.tickView := by
    unfold State.coefPut
    exact State.foldl_tickView (fun t r => t.eccPut .scl (coefAddr n r)) (fun _ _ => rfl) _ _
  unfold State.sclApplyDue
  split
  · unfold State.sclTake
    dsimp only
    split
    · rfl
    · exact (State.setScl_tickView _ _ _).trans (hPut _)
  · rfl

@[simp] theorem State.respTick_tickView (s : State) (n : Fin 8) : (s.respTick n).tickView = s.tickView := by
  unfold State.respTick
  dsimp only
  split
  · exact State.setScl_tickView _ _ _
  · exact State.setScl_tickView _ _ _

@[simp] theorem State.learnTick_tickView (s : State) (n : Fin 8) : (s.learnTick n).tickView = s.tickView := by
  unfold State.learnTick
  exact State.setScl_tickView _ _ _

/-! ## The part of one channel -/

/-- From `s` to `t` of the position channels only channel `n` changes, nothing that is steady does, and a loop that has had its
first used tick (R159) is still past it. -/
structure State.ChanStep (n : Fin 8) (s t : State) : Prop where
  steady : t.steady = s.steady
  others : ∀ k : Fin 8, k ≠ n → t.pch[k] = s.pch[k]
  started : s.pch[n].lp.fresh = false → t.pch[n].lp.fresh = false

namespace State.ChanStep

variable {n : Fin 8} {s t u : State}

theorem trans (h : s.ChanStep n t) (k : t.ChanStep n u) : s.ChanStep n u :=
  ⟨k.steady.trans h.steady, fun j hj => (k.others j hj).trans (h.others j hj), fun hs => k.started (h.started hs)⟩

theorem of_tickView (h : t.tickView = s.tickView) : s.ChanStep n t := by
  have hPch := State.pch_of_tickView h
  exact ⟨State.steady_of_tickView h, fun k _ => by rw [hPch], fun hs => by rw [hPch]; exact hs⟩

theorem refl (s : State) : s.ChanStep n s := of_tickView rfl

theorem setPch {x : Pch} (h : s.pch[n].lp.fresh = false → x.lp.fresh = false) : s.ChanStep n (s.setPch n x) :=
  ⟨rfl, fun k hk => vset_other _ _ _ _ hk, fun hs => by rw [State.setPch_get]; exact h hs⟩

end State.ChanStep

open State (ChanStep)

theorem State.pcond_chanStep (s : State) (n : Fin 8) (b : Nat) (v : Bool) : s.ChanStep n (s.pcond n b v) :=
  .of_tickView (State.cond_tickView _ _ _ _ _)

theorem State.causeEnds_chanStep (s : State) (n : Fin 8) (i : Nat) : s.ChanStep n (s.causeEnds n i) := by
  refine .trans ?_ (State.pcond_chanStep _ _ _ _)
  exact .setPch id

theorem Pch.toLost_fresh (x : Pch) : x.toLost.lp.fresh = x.lp.fresh := by
  unfold Pch.toLost
  split <;> rfl

theorem State.declareLoss_chanStep (s : State) (n : Fin 8) (i : Nat) : s.ChanStep n (s.declareLoss n i) := by
  have hWindow : (s.lossWindow n).tickView = s.tickView := by
    unfold State.lossWindow
    split <;> rfl
  have hDrop (t : State) : t.ChanStep n (t.dropCratio n) := by
    unfold State.dropCratio
    split
    · exact .refl _
    · exact State.pcond_chanStep _ _ _ _
  unfold State.declareLoss
  extract_lets s1 x c
  refine (ChanStep.of_tickView hWindow).trans (.trans (.trans (.setPch ?_) (State.pcond_chanStep _ _ _ _)) (hDrop _))
  exact (Pch.toLost_fresh _).trans

theorem State.sampleBits_chanStep (s : State) (n : Fin 8) : s.ChanStep n (s.sampleBits n) := by
  unfold State.sampleBits
  extract_lets f s1 s2
  have hPins : s.ChanStep n s1 :=
    List.foldlRecOn (motive := s.ChanStep n) _ _ (.refl s) fun t ht b _ => ht.trans (State.pcond_chanStep t n b _)
  have hClip : s.ChanStep n s2 := hPins.trans (State.pcond_chanStep _ _ _ _)
  split
  · exact hClip.trans (State.causeEnds_chanStep _ _ _)
  · exact hClip

theorem State.oneSample_chanStep (s : State) (n : Fin 8) (k : Nat) (x : Sample) (t : TickSum) :
    s.ChanStep n (s.oneSample n k x t).1 := by
  unfold State.oneSample
  extract_lets busy f _ s1 rq
  have hBits : s.ChanStep n s1 := by
    refine .trans ?_ (State.sampleBits_chanStep _ _)
    exact .setPch id
  split
  · exact hBits
  · exact hBits

theorem State.fiveSamples_chanStep (s : State) (n : Fin 8) (i : TickSamples) : s.ChanStep n (s.fiveSamples n i).1 := by
  unfold State.fiveSamples
  extract_lets t0 r0 r1 r2 r3
  have h0 : s.ChanStep n r0.1 := State.oneSample_chanStep _ _ _ _ _
  have h1 : s.ChanStep n r1.1 := h0.trans (State.oneSample_chanStep _ _ _ _ _)
  have h2 : s.ChanStep n r2.1 := h1.trans (State.oneSample_chanStep _ _ _ _ _)
  have h3 : s.ChanStep n r3.1 := h2.trans (State.oneSample_chanStep _ _ _ _ _)
  exact h3.trans (State.oneSample_chanStep _ _ _ _ _)

theorem State.formPair_chanStep (s : State) (n : Fin 8) (t : TickSum) : s.ChanStep n (s.formPair n t) := by
  unfold State.formPair
  extract_lets x t1 bb hist w e z p ok m mh bad s0 _
  have hRead : s0.tickView = s.tickView := by
    unfold s0
    split
    · rfl
    · exact State.checkerErr_tickView _ _ _ _
  refine (ChanStep.of_tickView hRead).trans (.setPch fun h => ?_)
  rwa [State.pch_of_tickView hRead] at h

theorem State.ampVerdict_chanStep (s : State) (n : Fin 8) (b i : Nat) (v : Bool) : s.ChanStep n (s.ampVerdict n b i v) := by
  refine (State.pcond_chanStep s n b v).trans ?_
  unfold State.ampVerdict
  dsimp only
  split
  · split
    · exact .refl _
    · exact State.declareLoss_chanStep _ _ _
  · exact State.causeEnds_chanStep _ _ _

theorem State.judgeAmp_chanStep (s : State) (n : Fin 8) : s.ChanStep n (s.judgeAmp n) := by
  unfold State.judgeAmp
  extract_lets x settle till susp _ s1 m
  have hSusp : s.ChanStep n s1 := .setPch id
  split
  · exact hSusp
  · exact hSusp.trans ((State.ampVerdict_chanStep _ _ _ _ _).trans (State.ampVerdict_chanStep _ _ _ _ _))

theorem State.endCoastLong_chanStep (s : State) (n : Fin 8) : s.ChanStep n (s.endCoastLong n) := by
  unfold State.endCoastLong
  split
  · exact (State.pcond_chanStep _ _ _ _).trans (State.causeEnds_chanStep _ _ _)
  · exact .refl _

theorem Loop.adapt_fresh (l : Loop) (a b c d e f g : Nat) : (l.adapt a b c d e f g).fresh = l.fresh := by
  unfold Loop.adapt
  extract_lets ae l1
  have h1 : l1.fresh = l.fresh := by
    unfold l1
    split <;> rfl
  split
  · exact h1
  · exact h1

theorem State.loopCounts_fresh (s : State) (n : Fin 8) (l : Loop) : (s.loopCounts n l).fresh = l.fresh := by
  unfold State.loopCounts
  extract_lets ceil adapt l1
  split
  · split
    · exact Loop.adapt_fresh _ _ _ _ _ _ _ _
    · rfl
  · rfl

theorem Loop.coast_fresh (l : Loop) : l.coast.fresh = l.fresh := by
  unfold Loop.coast
  split <;> rfl

theorem State.loopTick_chanStep (s : State) (n : Fin 8) : s.ChanStep n (s.loopTick n) := by
  unfold State.loopTick
  extract_lets x used _ l0 m l acq _ l1 l2
  refine .setPch fun hs => ?_
  have h0 : l0.fresh = false := hs
  change l1.fresh = false
  unfold l1
  split
  · change l.fresh = false
    unfold l
    rw [h0, if_neg Bool.false_ne_true, State.loopCounts_fresh]
    exact h0
  · exact (Loop.coast_fresh l0).trans h0

theorem State.takeSect_chanStep (s : State) (n : Fin 8) : s.ChanStep n (s.takeSect n) := by
  unfold State.takeSect
  dsimp only
  split
  · exact .refl _
  · refine .trans ?_ (.of_tickView (State.setScl_tickView _ _ _))
    exact .setPch id

theorem State.publish_chanStep (s : State) (n : Fin 8) (first : Bool) : s.ChanStep n (s.publish n first) := by
  unfold State.publish
  extract_lets x settle _ _ pp c ang spd acc tn s1 t pub
  split
  · refine .trans ?_ (State.takeSect_chanStep _ _)
    exact .setPch id
  · refine .trans (.trans ?_ (State.takeSect_chanStep _ _)) (.setPch id)
    exact .setPch id

theorem State.periodTick_chanStep (s : State) (n : Fin 8) : s.ChanStep n (s.periodTick n) := .setPch id

/-! ## What a channel's part comes to -/

/-- A PCH_SECT_SET write that waits takes effect; without one nothing does (R172). -/
def Pch.sectTaken (x : Pch) : Pch :=
  match x.tn.pendSect with
  | none => x
  | some (v, mt) => { x with tn := { x.tn with sector := v, mTurns := mt, sectRef := true, pendSect := none } }

theorem Pch.sectTaken_none {x : Pch} (h : x.tn.pendSect = none) : x.sectTaken = x := by
  unfold Pch.sectTaken
  rw [h]

theorem Pch.sectTaken_some {x : Pch} {v mt : Nat} (h : x.tn.pendSect = some (v, mt)) :
    x.sectTaken = { x with tn := { x.tn with sector := v, mTurns := mt, sectRef := true, pendSect := none } } := by
  unfold Pch.sectTaken
  rw [h]

theorem State.takeSect_pch (s : State) (n : Fin 8) : (s.takeSect n).pch[n] = s.pch[n].sectTaken := by
  unfold State.takeSect
  dsimp only
  split
  case h_1 h => rw [Pch.sectTaken_none h]
  case h_2 h =>
    rw [Pch.sectTaken_some h]
    exact State.setPch_get _ _ _

theorem State.chanTick_held {s : State} (h : s.boot.released = false) (n : Fin 8) (i : TickSamples) : s.chanTick n i = s := by
  unfold State.chanTick
  rw [h, Bool.not_false, Bool.true_or, if_pos rfl]

theorem State.chanTick_halfOff {s : State} {n : Fin 8} (h : s.halfOn (pchHalf n.val) = false) (i : TickSamples) :
    s.chanTick n i = s := by
  unfold State.chanTick
  rw [h, Bool.not_false, Bool.or_true, if_pos rfl]

theorem State.chanTick_off {s : State} {n : Fin 8} (hRel : s.boot.released = true) (hOn : s.halfOn (pchHalf n.val) = true)
    (hOff : s.pch[n].st = .off) (i : TickSamples) : s.chanTick n i = (s.sclApplyDue n).takeSect n := by
  unfold State.chanTick
  rw [hRel, hOn, if_pos hOff]
  rfl

/-- A channel that runs, with its samples taken and its pair judged. -/
def State.paired (s : State) (n : Fin 8) (i : TickSamples) : State :=
  let r := (s.sclApplyDue n).fiveSamples n i
  ((r.1.formPair n r.2).endCoastLong n).judgeAmp n

/-- The same with its loop run: what it publishes from. -/
def State.looped (s : State) (n : Fin 8) (i : TickSamples) : State :=
  (((s.paired n i).loopTick n).judgeCratio n).respTick n

theorem State.chanTick_runs {s : State} {n : Fin 8} (hRel : s.boot.released = true) (hOn : s.halfOn (pchHalf n.val) = true)
    (hRuns : s.pch[n].st ≠ .off) (i : TickSamples) :
    s.chanTick n i = (((s.looped n i).publish n (s.paired n i).pch[n].lp.fresh).periodTick n).learnTick n := by
  unfold State.chanTick State.looped State.paired
  simp only [hRel, hOn, Bool.not_true, Bool.or_self, Bool.false_eq_true, if_false, if_neg hRuns]

theorem State.paired_chanStep (s : State) (n : Fin 8) (i : TickSamples) : s.ChanStep n (s.paired n i) := by
  unfold State.paired
  extract_lets r
  have hSamples : s.ChanStep n r.1 :=
    (ChanStep.of_tickView (State.sclApplyDue_tickView _ _)).trans (State.fiveSamples_chanStep _ _ _)
  have hPair := hSamples.trans (State.formPair_chanStep _ _ r.2)
  exact (hPair.trans (State.endCoastLong_chanStep _ _)).trans (State.judgeAmp_chanStep _ _)

theorem State.looped_chanStep (s : State) (n : Fin 8) (i : TickSamples) : s.ChanStep n (s.looped n i) := by
  have hLoop := (State.paired_chanStep s n i).trans (State.loopTick_chanStep _ _)
  exact (hLoop.trans (State.pcond_chanStep _ _ _ _)).trans (.of_tickView (State.respTick_tickView _ _))

theorem State.chanTick_chanStep (s : State) (n : Fin 8) (i : TickSamples) : s.ChanStep n (s.chanTick n i) := by
  cases hRel : s.boot.released
  case false =>
    rw [State.chanTick_held hRel]
    exact .refl s
  cases hOn : s.halfOn (pchHalf n.val)
  case false =>
    rw [State.chanTick_halfOff hOn]
    exact .refl s
  by_cases hOff : s.pch[n].st = .off
  · rw [State.chanTick_off hRel hOn hOff]
    exact (ChanStep.of_tickView (State.sclApplyDue_tickView _ _)).trans (State.takeSect_chanStep _ _)
  · rw [State.chanTick_runs hRel hOn hOff]
    refine .trans ?_ (.of_tickView (State.learnTick_tickView _ _))
    refine .trans ?_ (State.periodTick_chanStep _ _)
    exact (State.looped_chanStep s n i).trans (State.publish_chanStep _ _ _)

/-- A channel that is OFF has at most its waiting PCH_SECT_SET write done (R172). -/
theorem State.chanTick_off_pch {s : State} {n : Fin 8} (hRel : s.boot.released = true) (hOn : s.halfOn (pchHalf n.val) = true)
    (hOff : s.pch[n].st = .off) (i : TickSamples) : (s.chanTick n i).pch[n] = s.pch[n].sectTaken := by
  rw [State.chanTick_off hRel hOn hOff, State.takeSect_pch, State.pch_of_tickView (State.sclApplyDue_tickView s n)]

/-- A loop past its first used tick publishes with the TIME of the tick (R165). -/
theorem State.publish_time {s : State} {n : Fin 8} (h : s.pch[n].lp.fresh = false) (first : Bool) :
    ((s.publish n first).pch[n]).pub.time = s.now := by
  unfold State.publish
  extract_lets x settle _ _ pp c ang spd acc tn s1 t pub
  rw [if_neg (h ▸ Bool.false_ne_true), State.setPch_get]

theorem State.chanTick_time {s : State} {n : Fin 8} (hRel : s.boot.released = true) (hOn : s.pchOn n = true)
    (hs : s.pch[n].lp.fresh = false) (i : TickSamples) : ((s.chanTick n i).pch[n]).pub.time = s.now := by
  obtain ⟨hRuns, hHalf⟩ := Bool.and_eq_true_iff.mp hOn
  have hLoop := State.looped_chanStep s n i
  rw [State.chanTick_runs hRel hHalf (bne_iff_ne.mp hRuns), State.pch_of_tickView (State.learnTick_tickView _ _)]
  have hPeriod (t : State) : ((t.periodTick n).pch[n]).pub = t.pch[n].pub := by
    unfold State.periodTick
    rw [State.setPch_get]
  rw [hPeriod, State.publish_time (hLoop.started hs), State.now_of_steady hLoop.steady]

/-! ## The tick -/

/-- Channels take their parts one after the other: each starts from its own state before the tick, in a state with the same
steady parts, and keeps what its part left. -/
theorem State.foldl_chanStep {f : State → Fin 8 → State} (hf : ∀ (s : State) n, s.ChanStep n (f s n)) {l : List (Fin 8)}
    (hl : l.Nodup) (s : State) {n : Fin 8} (hn : n ∈ l) :
    ∃ u : State, u.steady = s.steady ∧ u.pch[n] = s.pch[n] ∧ (l.foldl f s).pch[n] = (f u n).pch[n] := by
  have hKeep (l : List (Fin 8)) (s : State) (hn : n ∉ l) : (l.foldl f s).pch[n] = s.pch[n] :=
    List.foldlRecOn (motive := fun t => t.pch[n] = s.pch[n]) l f rfl fun t ht k hk =>
      ((hf t k).others n fun e => hn (e ▸ hk)).trans ht
  induction l generalizing s with
  | nil => exact absurd hn List.not_mem_nil
  | cons k l ih =>
    obtain ⟨hk, hl⟩ := List.nodup_cons.mp hl
    rw [List.foldl_cons]
    by_cases e : n = k
    · subst e
      exact ⟨s, rfl, rfl, hKeep l _ hk⟩
    · obtain ⟨u, hSteady, hOwn, hEnd⟩ := ih hl (f s k) (List.mem_of_ne_of_mem e hn)
      exact ⟨u, hSteady.trans (hf s k).steady, hOwn.trans ((hf s k).others n e), hEnd⟩

/-- The next multiple of 200 cycles that no tick has used (R25). -/
def State.tickAt (s : State) : Nat := (max s.clk.cyc s.gen.next + 199) / 200 * 200

/-- The clock at the tick's instant, the tick counted. -/
def State.tickStarted (s : State) (c : Nat) : State :=
  { s.waitTill c with gen := { (s.waitTill c).gen with ticks := s.gen.ticks + 1, next := c + 1 } }

/-- Every channel's part of the tick done. -/
def State.chansTicked (s : State) (inp : Vector TickSamples 8) : State :=
  (List.finRange 8).foldl (fun st n => st.chanTick n inp[n]) s

/-- The sets of a tick at cycle `c` on their way to the generators. -/
def State.tickQueued (s : State) (c : Nat) : State :=
  { s with gen := { s.gen with wait := s.gen.wait ++ [(c, Vector.ofFn fun n => s.pch[n].pub)] } }

theorem State.waitTill_cyc {s : State} {c : Nat} (h : s.clk.cyc ≤ c) : (s.waitTill c).clk.cyc = c := by
  unfold State.waitTill State.wait
  dsimp only
  split
  · exact Nat.add_sub_cancel' h
  · exact Nat.add_sub_cancel' h

theorem State.chansTicked_steady (s : State) (inp : Vector TickSamples 8) : (s.chansTicked inp).steady = s.steady :=
  List.foldlRecOn (motive := fun t => t.steady = s.steady) _ _ rfl fun t ht n _ =>
    (State.chanTick_chanStep t n inp[n]).steady.trans ht

theorem State.chansTicked_pch (s : State) (inp : Vector TickSamples 8) (n : Fin 8) :
    ∃ u : State, u.steady = s.steady ∧ u.pch[n] = s.pch[n] ∧ (s.chansTicked inp).pch[n] = (u.chanTick n inp[n]).pch[n] :=
  State.foldl_chanStep (fun s n => State.chanTick_chanStep s n inp[n]) (List.nodup_finRange 8) s (List.mem_finRange n)

/-- What follows the published sets of tick `k`: comparison, sweeps of trim runs, snapshots, recorders, forms, outputs. -/
def State.tickFollowed (s : State) (k : Nat) : State :=
  let swept := (((s.xmonTick 0).xmonTick 1).sweepTurns .h0).sweepTurns .h1
  ((List.finRange 8).foldl State.frecTick (swept.snapAll k)).reform.routAll

theorem State.tickFollowed_tickView (s : State) (k : Nat) : (s.tickFollowed k).tickView = s.tickView := by
  unfold State.tickFollowed
  dsimp only
  rw [State.routAll_tickView, State.reform_tickView, State.foldl_tickView _ State.frecTick_tickView]
  simp only [State.snapAll_tickView, State.sweepTurns_tickView, State.xmonTick_tickView]

theorem exec_angleTick_idle {s : State} (h : s.inRun = false) (inp : Vector TickSamples 8) :
    exec (.angleTick inp) s = .next s := by
  change execAngleTick inp s = _
  unfold execAngleTick
  rw [h, Bool.not_false, if_pos rfl]

theorem exec_angleTick {s : State} (h : s.inRun = true) (inp : Vector TickSamples 8) :
    exec (.angleTick inp) s =
      .next ((((List.finRange 4).foldl State.dchTick ((s.tickStarted s.tickAt).chansTicked inp)).tickQueued s.tickAt).tickFollowed
        (s.gen.ticks + 1)) := by
  change execAngleTick inp s = _
  unfold execAngleTick State.tickFollowed State.tickQueued State.chansTicked State.tickStarted State.tickAt
  simp only [h, Bool.not_true, Bool.false_eq_true, if_false]

theorem State.tickQueued_tickView {s t : State} (h : t.tickView = s.tickView) (c : Nat) :
    (t.tickQueued c).tickView = (s.tickQueued c).tickView :=
  congrArg (fun v : Steady × Vector Pch 8 =>
    ({ v.1 with gen := { v.1.gen with wait := v.1.gen.wait ++ [(c, Vector.ofFn fun n => v.2[n].pub)] } }, v.2)) h

/-- The state after a tick at cycle `c`: the clock and the generators' queue have moved on, and each channel has had its part,
begun from its own state before the tick. -/
structure State.Ticked (s t : State) (c : Nat) (inp : Vector TickSamples 8) : Prop where
  steady : t.steady = (State.tickQueued { s.tickStarted c with pch := t.pch } c).steady
  chan : ∀ n : Fin 8, ∃ u : State, u.boot.released = s.boot.released ∧ (∀ g, u.halfOn g = s.halfOn g) ∧ u.now = t.now ∧
    u.pch[n] = s.pch[n] ∧ t.pch[n] = (u.chanTick n inp[n]).pch[n]

theorem angleTick_ticked {s : State} (h : s.inRun = true) (inp : Vector TickSamples 8) :
    Completes (.angleTick inp) s fun t => s.Ticked t s.tickAt inp := by
  refine ⟨_, exec_angleTick h inp, ?_⟩
  generalize s.tickAt = c
  generalize hEnd : State.tickFollowed _ _ = t
  let chans := (s.tickStarted c).chansTicked inp
  have hView : t.tickView = (chans.tickQueued c).tickView := by
    rw [← hEnd, State.tickFollowed_tickView]
    exact State.tickQueued_tickView (State.foldl_tickView _ State.dchTick_tickView _ _) c
  have hPch : t.pch = chans.pch := congrArg Prod.snd hView
  have hSteady : chans.steady = (s.tickStarted c).steady := State.chansTicked_steady _ _
  have hQueued : ({ s.tickStarted c with pch := t.pch } : State).tickView = chans.tickView := Prod.ext hSteady.symm hPch
  refine ⟨State.steady_of_tickView (hView.trans (State.tickQueued_tickView hQueued c).symm), fun n => ?_⟩
  obtain ⟨u, hu, hOwn, hChan⟩ := State.chansTicked_pch (s.tickStarted c) inp n
  have hNow : t.now = chans.now := congrArg (fun v : Steady × Vector Pch 8 => BitVec.ofNat 64 (v.1.clk.time / 2 ^ 32)) hView
  exact ⟨u, congrArg Steady.released hu, State.halfOn_of_pwr (congrArg Steady.pwr hu),
    (State.now_of_steady (hu.trans hSteady.symm)).trans hNow.symm, hOwn, (congrArg (·[n]) hPch).trans hChan⟩

/-- Settles O20: the clock and the queue of sets by what the parts of a tick leave alone, the channels by the part of each. -/
theorem angleTicks : Obligations.AngleTicks := by
  unfold Obligations.AngleTicks
  intro s inp c
  refine ⟨fun hIdle => exec_angleTick_idle hIdle inp, fun hRun => ?_⟩
  obtain ⟨t, hExec, hTicked⟩ := angleTick_ticked hRun inp
  have hRel : s.boot.released = true := (Bool.and_eq_true_iff.mp hRun).1
  have hLate : s.clk.cyc ≤ c := by omega
  have hGen := congrArg Steady.gen hTicked.steady
  refine ⟨t, hExec, (congrArg (·.clk.cyc) hTicked.steady).trans (State.waitTill_cyc hLate), Nat.mul_mod_left _ _, hLate,
    congrArg Gen.ticks hGen, congrArg Gen.next hGen, congrArg Gen.wait hGen, fun n hIdle => ?_, fun n hOn hOff v mt hSect => ?_,
    fun n hOn hStarted => ?_, congrArg Steady.exc hTicked.steady, congrArg Steady.cfg hTicked.steady,
    congrArg Steady.fram hTicked.steady, congrArg Steady.pending hTicked.steady⟩
  all_goals obtain ⟨u, hRelU, hHalf, hNow, hOwn, hChan⟩ := hTicked.chan n
  · rw [hChan]
    rcases hIdle with hDark | ⟨hOff, hNone⟩
    · rw [State.chanTick_halfOff ((hHalf _).trans hDark), hOwn]
    cases hOn : s.halfOn (pchHalf n.val)
    case false => rw [State.chanTick_halfOff ((hHalf _).trans hOn), hOwn]
    rw [State.chanTick_off_pch (hRelU.trans hRel) ((hHalf _).trans hOn) (hOwn ▸ hOff), hOwn, Pch.sectTaken_none hNone]
  · rw [hChan, State.chanTick_off_pch (hRelU.trans hRel) ((hHalf _).trans hOn) (hOwn ▸ hOff), hOwn,
      Pch.sectTaken_some hSect]
  · have hRuns : u.pchOn n = true := by
      unfold State.pchOn
      rw [hHalf, hOwn]
      exact hOn
    rw [hChan, State.chanTick_time (hRelU.trans hRel) hRuns (hOwn ▸ hStarted), hNow]

end Sys2Proof.Machine
end

section
/-! PROOFS. What the two edges of TCK do to the TAP (R55), and what they leave alone. -/

namespace Sys2Proof.Machine

/-! ## The rising edge -/

theorem State.tapRise_st (s : State) (tms tdi : Bool) : (s.tapRise tms tdi).tap.st = tapNext s.tap.st tms := by
  unfold State.tapRise
  dsimp only
  split <;> rfl

theorem State.tapRise_bsr (s : State) (tms tdi : Bool) : (s.tapRise tms tdi).tap.bsr = s.tap.bsr := by
  unfold State.tapRise
  dsimp only
  split <;> rfl

/-- Beyond the TAP a rising edge can only draw a value that the spec leaves open. -/
theorem State.tapRise_frame (s : State) (tms tdi : Bool) :
    s.tapRise tms tdi = { s with tap := (s.tapRise tms tdi).tap, free := (s.tapRise tms tdi).free } := by
  unfold State.tapRise
  dsimp only
  split <;> rfl

theorem State.tapRise_shDr {s : State} (h : s.tap.st = .shDr) (tms tdi : Bool) :
    (s.tapRise tms tdi).tap.drSh = shiftIn s.tap.drSh tdi := by
  simp only [State.tapRise, h]

theorem State.tapRise_shIr {s : State} (h : s.tap.st = .shIr) (tms tdi : Bool) :
    (s.tapRise tms tdi).tap.irSh = shiftIn s.tap.irSh tdi := by
  simp only [State.tapRise, h]

theorem State.tapRise_capDr {s : State} (h : s.tap.st = .capDr) (tms tdi : Bool) :
    (s.tapRise tms tdi).tap.drSh = s.tapCapture := by
  simp only [State.tapRise, h]

theorem State.tapRise_capIr {s : State} (h : s.tap.st = .capIr) (tms tdi : Bool) :
    (s.tapRise tms tdi).tap.irSh = true :: false :: bitsOf (Config.freeBits 88 s.free) Config.irMore := by
  simp only [State.tapRise, h]

theorem State.tapCapture_bypass {s : State} (h : s.tapReg = 0) : s.tapCapture = [false] := by
  simp only [State.tapCapture, h]

theorem State.tapCapture_idcode {s : State} (h : s.tapReg = 1) : s.tapCapture = bitsOf Config.idcode.toNat 32 := by
  simp only [State.tapCapture, h]

/-! ## The falling edge -/

@[simp] theorem State.tapFall_st (s : State) : s.tapFall.tap.st = s.tap.st := by
  unfold State.tapFall
  dsimp only
  split <;> rfl

@[simp] theorem State.tapFall_drSh (s : State) : s.tapFall.tap.drSh = s.tap.drSh := by
  unfold State.tapFall
  dsimp only
  split <;> rfl

@[simp] theorem State.tapFall_irSh (s : State) : s.tapFall.tap.irSh = s.tap.irSh := by
  unfold State.tapFall
  dsimp only
  split <;> rfl

theorem State.tapFall_frame (s : State) : s.tapFall = { s with tap := s.tapFall.tap } := by
  unfold State.tapFall
  dsimp only
  split <;> rfl

theorem State.tapFall_reset {s : State} (h : s.tap.st = .reset) :
    s.tapFall.tap = { s.tap with idSel := true, tdo := none } := by
  simp only [State.tapFall, h]

theorem State.tapFall_updIr {s : State} (h : s.tap.st = .updIr) :
    s.tapFall.tap = { s.tap with ir := bitsNat s.tap.irSh, idSel := false, tdo := none } := by
  simp only [State.tapFall, h]

theorem State.tapFall_shDr {s : State} (h : s.tap.st = .shDr) : s.tapFall.tap.tdo = s.tap.drSh.head? := by
  simp only [State.tapFall, h]

theorem State.tapFall_shIr {s : State} (h : s.tap.st = .shIr) : s.tapFall.tap.tdo = s.tap.irSh.head? := by
  simp only [State.tapFall, h]

/-- Outside boundary-scan mode the chain is out of reach (R55). -/
theorem State.tapReg_ne_chain {s : State} (h : s.sys.scan = false) : s.tapReg ≠ 2 := by
  unfold State.tapReg
  split
  · decide
  · split
    · decide
    · decide
    · simp [h]

theorem State.tapFall_bsr {s : State} (h : s.sys.scan = false) : s.tapFall.tap.bsr = s.tap.bsr := by
  have hReg := State.tapReg_ne_chain h
  unfold State.tapFall
  dsimp only
  split
  case h_3 => exact if_neg hReg
  all_goals rfl

/-! ## The period of TCK -/

theorem exec_tapTckEdge_rest {s : State} (h : s.coreOn = false ∨ s.pads.heldCore = true) (tms tdi : Bool) :
    exec (.tapTckEdge tms tdi) s = .next s := by
  change execTapTckEdge tms tdi s = _
  rcases h with hOff | hHeld
  · simp [execTapTckEdge, hOff]
  · simp [execTapTckEdge, hHeld]

theorem exec_tapTckEdge {s : State} (hOn : s.coreOn = true) (hFree : s.pads.heldCore = false) (tms tdi : Bool) :
    exec (.tapTckEdge tms tdi) s = .next (s.tapRise tms tdi).tapFall := by
  change execTapTckEdge tms tdi s = _
  simp [execTapTckEdge, hOn, hFree]

theorem tapPeriod_frame (s : State) (tms tdi : Bool) :
    (s.tapRise tms tdi).tapFall =
      { s with tap := (s.tapRise tms tdi).tapFall.tap, free := (s.tapRise tms tdi).tapFall.free } := by
  rw [State.tapFall_frame, State.tapRise_frame]

theorem tapNext_five_high (st : TapSt) :
    tapNext (tapNext (tapNext (tapNext (tapNext st true) true) true) true) true = .reset := by
  cases st <;> rfl

/-- Settles O60: each clause by what the rising edge does in the state before it, or the falling edge in the state after. -/
theorem tapMoves : Obligations.TapMoves := by
  unfold Obligations.TapMoves
  intro s tms tdi x sh
  refine ⟨fun hRest => exec_tapTckEdge_rest hRest tms tdi, fun hOn hFree => ?_, tapNext_five_high⟩
  have hFrame := tapPeriod_frame s tms tdi
  have hBsr := State.tapRise_bsr s tms tdi
  have hSys : (s.tapRise tms tdi).sys = s.sys := by rw [State.tapRise_frame]
  refine ⟨_, exec_tapTckEdge hOn hFree tms tdi, ?_⟩
  simp only [State.tapFall_st, State.tapFall_drSh, State.tapFall_irSh]
  refine ⟨State.tapRise_st s tms tdi, hFrame, fun h => State.tapRise_shDr h tms tdi, fun h => State.tapRise_shIr h tms tdi,
    fun h hReg => (State.tapRise_capDr h tms tdi).trans (State.tapCapture_bypass hReg),
    fun h hReg => (State.tapRise_capDr h tms tdi).trans (State.tapCapture_idcode hReg),
    fun h => congrArg (List.take 2) (State.tapRise_capIr h tms tdi), fun h => ?_,
    fun _ hScan => (State.tapFall_bsr (hSys ▸ hScan)).trans hBsr, State.tapFall_shDr, State.tapFall_shIr, fun h => ?_⟩
  · rw [State.tapFall_updIr h]
    exact ⟨rfl, rfl⟩
  · rw [State.tapFall_reset h]
    exact ⟨rfl, rfl⟩

end Sys2Proof.Machine
end

section
/-! PROOFS. The clock and regulator monitors and the source of the RTC (R67 to R70): each verdict is one live bit of SYS or PWR. -/

namespace Sys2Proof.Machine

/-! ## One verdict of a monitor -/

/-- On a page that no hold-off window of Table 15.4 covers, a condition leaves its live bit equal to it. -/
theorem State.cond_liveBit {s : State} {p : Page} {b : Nat} (hp : s.powered p = true) (hb : b < 32) (hw : s.holdWin p b = {})
    (hl : s.lossEnd p b = 0) (c : Copy) (v : Bool) : (s.cond p b c v).liveBit p c b = v := by
  refine State.cond_live s p b c v hp hb ?_
  unfold State.heldOff
  rw [hw, hl]
  simp [HoldWin.covers]

theorem State.powered_sys (s : State) : s.powered .sys = s.monitoring := Bool.and_true _

theorem State.powered_pwr (s : State) : s.powered .pwr = s.monitoring := Bool.and_true _

theorem State.clkMon_monitoring {s : State} {h : Half} (hOn : s.clkMon h = true) : s.monitoring = true :=
  (Bool.and_eq_true_iff.mp hOn).1

theorem half_num_lt (h : Half) : h.num < 2 := by
  cases h <;> decide

/-- The state after a monitor of SYS has reported `v` by source `b` of copy `c` in `u`: that live bit follows, and beside what a
report changes nothing else does. -/
theorem completes_sysVerdict {i : Instr} {s u : State} {b : Nat} {c : Copy} {v : Bool} (hExec : exec i s = .next (u.cond .sys b c v))
    (hMon : u.monitoring = true) (hb : b < 32) : Completes i s fun t => t.liveBit .sys c b = v ∧ t.quiet = u.quiet :=
  ⟨_, hExec, State.cond_liveBit (u.powered_sys.trans hMon) hb rfl rfl c v, State.cond_quiet _ _ _ _ _⟩

theorem exec_refLoss {s : State} {h : Half} (hOn : s.clkMon h = true) : exec (.refLoss h) s =
    .next (State.cond { s with sys := { s.sys with xtalOk := false, tpllLock := false, spllLock := false } } .sys h.num h.copy true) :=
  if_pos hOn

theorem exec_refFreq {s : State} {h : Half} (hOn : s.clkMon h = true) (n : Nat) : exec (.refFreq h n) s =
    .next (s.cond .sys (2 + h.num) h.copy (decide (n < 230 ∨ 270 < n))) := if_pos hOn

theorem exec_tclkFreq {s : State} {h : Half} (hOn : s.clkMon h = true) (n : Nat) : exec (.tclkFreq h n) s =
    .next (s.cond .sys (4 + h.num) h.copy (decide (n < 368 ∨ 432 < n))) := if_pos hOn

theorem exec_rcFail {s : State} {h : Half} (hOn : s.clkMon h = true) (a b : Bool) : exec (.rcFail h a b) s =
    .next (State.cond { s with sys := { s.sys with rcOk := s.sys.rcOk.set h a } } .sys (8 + h.num) h.copy (!a && !b)) := if_pos hOn

theorem exec_tpllUnlock {s : State} (hMon : s.monitoring = true) : exec .tpllUnlock s =
    .next (State.cond { s with sys := { s.sys with tpllLock := false } } .sys 6 .shared true) := if_pos hMon

theorem exec_spllUnlock {s : State} (hMon : s.monitoring = true) : exec .spllUnlock s =
    .next (State.cond { s with sys := { s.sys with spllLock := false } } .sys 7 .shared true) := if_pos hMon

theorem clockMonitors : Parts.ClockMonitors := by
  intro s h hOn
  have hMon := State.clkMon_monitoring hOn
  have hBit (k : Nat) (hk : k < 30) : k + h.num < 32 := Nat.add_lt_add_of_lt_of_le hk (Nat.le_of_lt (half_num_lt h))
  have hFirst : h.num < 32 := Nat.lt_trans (half_num_lt h) (by decide)
  exact ⟨completes_sysVerdict (exec_refLoss hOn) hMon hFirst,
    fun n => completes_sysVerdict (exec_refFreq hOn n) hMon (hBit 2 (by decide)),
    fun n => completes_sysVerdict (exec_tclkFreq hOn n) hMon (hBit 4 (by decide)),
    fun a b => completes_sysVerdict (exec_rcFail hOn a b) hMon (hBit 8 (by decide)),
    completes_sysVerdict (exec_tpllUnlock hMon) hMon (by decide), completes_sysVerdict (exec_spllUnlock hMon) hMon (by decide)⟩

section
variable {s : State} {x : VDom} (hMon : s.monitoring = true) (hDom : s.vdomOn x = true)
include hMon hDom

theorem exec_regUv (uv : Nat) : exec (.regUv x uv) s =
    .next (s.cond .sys (12 + 4 * (VDom.num x).val) (VDom.copy x) (decide (100 * uv < 92 * s.vSetUv x))) :=
  if_pos (Bool.and_eq_true_iff.mpr ⟨hMon, hDom⟩)

theorem exec_regOv (uv : Nat) : exec (.regOv x uv) s =
    .next (s.cond .sys (13 + 4 * (VDom.num x).val) (VDom.copy x) (decide (108 * s.vSetUv x < 100 * uv))) :=
  if_pos (Bool.and_eq_true_iff.mpr ⟨hMon, hDom⟩)

theorem exec_cpmFail (ok : Bool) : exec (.cpmFail x ok) s =
    .next (s.cond .sys (14 + 4 * (VDom.num x).val) (VDom.copy x) (!ok)) :=
  if_pos (Bool.and_eq_true_iff.mpr ⟨hMon, hDom⟩)

end

theorem regulatorMonitors : Parts.RegulatorMonitors := by
  intro s x hMon hDom
  have hNum := (VDom.num x).isLt
  exact ⟨fun uv => completes_sysVerdict (exec_regUv hMon hDom uv) hMon (by omega),
    fun uv => completes_sysVerdict (exec_regOv hMon hDom uv) hMon (by omega),
    fun ok => completes_sysVerdict (exec_cpmFail hMon hDom ok) hMon (by omega)⟩

/-! ## The source of the RTC -/

theorem State.rtcJudge_monitoring {u : State} (h : u.monitoring = true) :
    u.rtcJudge.liveBit .pwr .shared 0 = u.sys.rtcLprc ∧ u.rtcJudge.quiet = u.quiet := by
  unfold State.rtcJudge
  rw [if_pos h]
  exact ⟨State.cond_liveBit (u.powered_pwr.trans h) (by decide) rfl rfl _ _, State.cond_quiet _ _ _ _ _⟩

theorem State.rtcRate_pos {s : State} (h : s.rails.vaon = true) : 0 < s.rtcRate := by
  unfold State.rtcRate
  rw [h]
  simp only [Bool.not_true, Bool.false_eq_true, if_false]
  split <;> omega

theorem State.wait_rtc (s : State) (k : Nat) : (s.wait k).clk.rtc = s.clk.rtc + s.rtcRate * k := by
  unfold State.wait
  dsimp only
  split <;> rfl

/-- The cycles until `n` more parts have been counted: the count goes past them by less than it makes in one cycle. -/
theorem State.cyclesFor_bounds {s : State} (h : 0 < s.rtcRate) (n : Nat) :
    n ≤ s.rtcRate * s.cyclesFor n ∧ s.rtcRate * s.cyclesFor n < n + s.rtcRate := by
  unfold State.cyclesFor
  have hDiv := Nat.div_add_mod (n + s.rtcRate - 1) s.rtcRate
  have hMod := Nat.mod_lt (n + s.rtcRate - 1) h
  omega

/-- The state at the RTC tick at which the count returns to the crystal. -/
def State.atCrystal (s : State) : State :=
  let u := s.wait (s.cyclesFor (rtcUnit - s.clk.rtc % rtcUnit))
  { u with sys := { u.sys with rtcXtalOk := true, rtcLprc := false } }

theorem exec_rtcXtal {s : State} (h : s.rails.vaon = true) : exec .rtcXtal s =
    .next (State.rtcJudge { s with sys := { s.sys with rtcXtalOk := false, rtcLprc := true } }) := if_pos h

theorem exec_rtcXtalRestore {s : State} (hVaon : s.rails.vaon = true) (hRc : s.sys.rtcLprc = true) :
    exec .rtcXtalRestore s = .next s.atCrystal.rtcJudge := if_pos ⟨hVaon, hRc⟩

theorem exec_rtcXtalRestore_crystal {s : State} (h : s.sys.rtcLprc = false) : exec .rtcXtalRestore s = .next s :=
  if_neg fun hRc => Bool.false_ne_true (h.symm.trans hRc.2)

/-- The crystal takes over at the first tick that the RC oscillator completes. -/
theorem State.atCrystal_rtc {s : State} (h : s.rails.vaon = true) :
    (s.clk.rtc / rtcUnit + 1) * rtcUnit ≤ s.atCrystal.clk.rtc ∧
      s.atCrystal.clk.rtc < (s.clk.rtc / rtcUnit + 1) * rtcUnit + s.rtcRate := by
  have hTick : s.clk.rtc + (rtcUnit - s.clk.rtc % rtcUnit) = (s.clk.rtc / rtcUnit + 1) * rtcUnit := by
    unfold rtcUnit
    omega
  have hRtc : s.atCrystal.clk.rtc = _ := s.wait_rtc (s.cyclesFor (rtcUnit - s.clk.rtc % rtcUnit))
  have hBounds := State.cyclesFor_bounds (State.rtcRate_pos h) (rtcUnit - s.clk.rtc % rtcUnit)
  omega

theorem State.clk_of_quiet {s t : State} (h : t.quiet = s.quiet) : t.clk = s.clk := by
  have hc := congrArg State.clk h
  exact hc

theorem rtcSource : Parts.RtcSource := by
  intro s hMon hVaon
  refine ⟨⟨_, exec_rtcXtal hVaon, State.rtcJudge_monitoring hMon⟩, fun hRc => ?_, exec_rtcXtalRestore_crystal⟩
  obtain ⟨hLive, hQuiet⟩ := State.rtcJudge_monitoring (u := s.atCrystal) hMon
  have hClk := State.clk_of_quiet hQuiet
  obtain ⟨hLow, hHigh⟩ := State.atCrystal_rtc hVaon
  rw [← hClk] at hLow hHigh
  refine ⟨_, exec_rtcXtalRestore hVaon hRc, hLive, ?_, hLow, hHigh⟩
  rw [hClk]
  exact hQuiet

/-- Settles O10: the monitors by the one live bit each of them judges, the return to the crystal by the count of whole ticks. -/
theorem clockAndRegulatorMonitors : Obligations.ClockAndRegulatorMonitors :=
  ⟨clockMonitors, regulatorMonitors, rtcSource⟩

end Sys2Proof.Machine
end

section
/-! PROOFS. The state after a power-on reset (R71, R74), in which every queue is empty and has its whole ring as credit (R410). -/

namespace Sys2Proof.Machine

theorem State.reset_queue (i : Fin 64) : State.reset.que.q[i] = { base := i.val * 0x2000 } := Vector.getElem_ofFn i.isLt

theorem powerOnResetLeaves : Parts.PowerOnResetLeaves := by
  refine ⟨rfl, rfl, rfl, rfl, rfl, rfl, rfl, rfl, rfl, by decide, by decide, by decide, fun i => ?_, by decide, by decide⟩
  rw [State.reset_queue]
  exact ⟨rfl, rfl, rfl, rfl⟩

theorem resetMeetsInvariants : Parts.ResetMeetsInvariants := by
  refine ⟨(State.queuesBalanced_iff _).mpr Que.led_reset, State.reset_fram_wf, State.reset_sram_wf, fun i => ?_⟩
  rw [State.reset_queue]
  simp [Queue.creditOk, Queue.used]

/-- Settles O8: the fields of the reset state as they stand, the invariants by the empty memories and the empty queues. -/
theorem resetStateHolds : Obligations.ResetStateHolds := ⟨powerOnResetLeaves, resetMeetsInvariants⟩

end Sys2Proof.Machine
end

section
/-! PROOFS. Resets (R71 to R76): the state that each cause leaves, what becomes of a write to the FRAM, and the end of reset. -/

namespace Sys2Proof.Machine

/-! ## The safe-state pins at a reset (R43 to R46) -/

/-- Every safe-state pin is asserted. -/
def Pads.asserted (p : Pads) : Prop := ∀ d : Drive, (p.inh[d]).sink = false ∧ (p.asc[d]).sink = true ∧ p.dis.sink = true

/-- Every safe-state pin is in its default state. -/
def Pads.atDefault (p : Pads) : Prop := ∀ d : Drive, p.inh[d] = {} ∧ p.asc[d] = {} ∧ p.dis = {}

/-- The pads after a reset, but for the safe-state pins as they were. -/
theorem State.scanPins_scan {s : State} (hScan : s.sys.scan = true) (hVio : s.rails.vio = true) :
    s.scanPins = { s with pads := { s.pads with inh := scannedPads.inh, asc := scannedPads.asc, dis := scannedPads.dis } } := by
  have hOn : (s.sys.scan && s.rails.vio) = true := by rw [hScan, hVio]; rfl
  unfold State.scanPins
  rw [if_pos hOn]
  unfold State.voteAll State.pinsDefault VPin.vote
  simp only [hScan, Bool.true_or, if_true]
  rfl

theorem State.scanPins_default {s : State} (h : s.sys.scan = false ∨ s.rails.vio = false) : s.scanPins = s.pinsDefault := by
  refine if_neg fun hOn => ?_
  obtain ⟨hScan, hVio⟩ := Bool.and_eq_true_iff.mp hOn
  rcases h with h | h
  · exact Bool.false_ne_true (h.symm.trans hScan)
  · exact Bool.false_ne_true (h.symm.trans hVio)

theorem State.scanPins_asserted {s : State} (hScan : s.sys.scan = true) (hVio : s.rails.vio = true) : s.scanPins.pads.asserted := by
  rw [State.scanPins_scan hScan hVio]
  exact fun d => by simp [scannedPads]

theorem State.scanPins_atDefault {s : State} (h : s.sys.scan = false ∨ s.rails.vio = false) : s.scanPins.pads.atDefault := by
  rw [State.scanPins_default h]
  exact fun d => by simp [State.pinsDefault]

@[simp] theorem State.scanPins_quiet (s : State) : s.scanPins.quiet = s.quiet := by
  unfold State.scanPins
  split <;> rfl

/-! ## The state that a reset leaves -/

theorem State.scanPins_of_pads {s : State} (h : s.pads = {}) :
    s.scanPins = { s with pads := if s.sys.scan && s.rails.vio then scannedPads else {} } := by
  by_cases hOn : (s.sys.scan && s.rails.vio) = true
  · obtain ⟨hScan, hVio⟩ := Bool.and_eq_true_iff.mp hOn
    rw [State.scanPins_scan hScan hVio, if_pos hOn, h]
    rfl
  · unfold State.scanPins State.pinsDefault
    rw [if_neg hOn, if_neg hOn, h]

/-- The state after a reset by a cause `c` that finds VAON good (R71, R74, R76), RESET_N being low as `low` says. -/
def State.ResetKept (s : State) (c : Nat) (low : Bool) (t : State) : Prop :=
  Restarted s t ∧ t.sys = s.sys.kept c low s.joins ∧ t.pwr = s.pwr.kept ∧ t.cfg = s.cfg.filter fun e => alarmKey e.1

/-- The state after a power-on reset (R71, R74). -/
def State.ResetFresh (s : State) (low : Bool) (t : State) : Prop :=
  Restarted s t ∧ t.sys = { resetLow := low } ∧ t.pwr = {} ∧ t.tap = {} ∧ t.cfg = [] ∧ t.clk.rtc = 0 ∧ t.clk.time = 0

theorem State.deviceReset_restarted (s : State) (c : Nat) : Restarted s (s.deviceReset c) := by
  unfold Restarted State.deviceReset
  rw [State.scanPins_of_pads rfl]
  rfl

theorem State.deviceReset_rails (s : State) (c : Nat) : (s.deviceReset c).rails = s.rails :=
  congrArg Base.rails (State.deviceReset_base s c)

theorem State.deviceReset_kept {s : State} {c : Nat} (hc : c ≠ 0) (h : s.rails.vaon = true) :
    s.ResetKept c s.sys.resetLow (s.deviceReset c) ∧ (s.deviceReset c).tap = (if c = 1 ∨ c = 2 then s.tap else {}) ∧
      (s.deviceReset c).clk = { cyc := s.clk.cyc, rtc := s.clk.rtc } := by
  have hPor : (c == 0 || !s.rails.vaon) = false := by simp [hc, h]
  refine ⟨⟨s.deviceReset_restarted c, ?_⟩, ?_⟩
  all_goals
    unfold State.deviceReset
    rw [State.scanPins_of_pads rfl]
    simp [hPor]
  · rfl

theorem State.deviceReset_fresh {s : State} {c : Nat} (h : c = 0 ∨ s.rails.vaon = false) :
    s.ResetFresh s.sys.resetLow (s.deviceReset c) := by
  have hPor : (c == 0 || !s.rails.vaon) = true := by simpa using h
  refine ⟨s.deviceReset_restarted c, ?_⟩
  unfold State.deviceReset
  rw [State.scanPins_of_pads rfl]
  simp [hPor]

/-- RESET_N is low: a pin reset notes that the pulse lasts (R72). -/
def State.heldLow (t : State) : State := { t with sys := { t.sys with resetLow := true } }

theorem Restarted.heldLow {s t : State} (h : Restarted s t) : Restarted s t.heldLow := congrArg State.heldLow h

theorem State.ResetKept.heldLow {s t : State} {c : Nat} {low : Bool} (h : s.ResetKept c low t) : s.ResetKept c true t.heldLow := by
  obtain ⟨hAll, hSys, hPwr, hCfg⟩ := h
  exact ⟨hAll.heldLow, congrArg (fun x : Sys => { x with resetLow := true }) hSys, hPwr, hCfg⟩

theorem State.ResetFresh.heldLow {s t : State} {low : Bool} (h : s.ResetFresh low t) : s.ResetFresh true t.heldLow := by
  obtain ⟨hAll, hSys, hRest⟩ := h
  exact ⟨hAll.heldLow, congrArg (fun x : Sys => { x with resetLow := true }) hSys, hRest⟩

/-! ## The causes -/

/-- The state in which a rail no longer counts as good, before what follows from it. -/
def State.railLost (s : State) (r : Rail) : State :=
  { s with
    rails := s.rails.set r false
    pwr := { s.pwr with lkLost := s.pwr.lkLost || (s.pwr.lkRun && r == .vdda0) } }

theorem exec_pinReset (s : State) : exec .pinReset s = .next (s.deviceReset 1).heldLow := rfl
theorem exec_vaonLost (s : State) : exec (.supplyLost .vaon) s = .next ((s.railLost .vaon).deviceReset 0) := rfl
theorem exec_vioLost (s : State) : exec (.supplyLost .vio) s = .next ((s.railLost .vio).deviceReset 3) := rfl
theorem exec_vpreLost (s : State) : exec (.supplyLost .vpre) s = .next ((s.railLost .vpre).deviceReset 4) := rfl

theorem exec_softwareReset {s : State} {c : Nat} (h : s.sys.swrstAt = some c) :
    exec .softwareReset s = .next ((s.waitTill c).deviceReset 2) := by
  change execSoftwareReset s = _
  unfold execSoftwareReset
  rw [h]

theorem State.waitTill_eq (s : State) (c : Nat) : s.waitTill c = { s with clk := (s.waitTill c).clk } := rfl

theorem State.waitTill_clk_cyc (s : State) (c : Nat) : (s.waitTill c).clk.cyc = max c s.clk.cyc := by
  have hCyc : (s.waitTill c).clk.cyc = s.clk.cyc + (c - s.clk.cyc) := by
    unfold State.waitTill State.wait
    dsimp only
    split <;> rfl
  omega

theorem resetsRestart : Parts.ResetsRestart := by
  intro s kept fresh
  refine ⟨fun hVaon => ?_, ?_, fun hVaon => ?_⟩
  · have hPin := State.deviceReset_kept (s := s) (c := 1) (by decide) hVaon
    have hVio := State.deviceReset_kept (s := s.railLost .vio) (c := 3) (by decide) hVaon
    have hVpre := State.deviceReset_kept (s := s.railLost .vpre) (c := 4) (by decide) hVaon
    obtain ⟨hPin, hPinTap, hPinClk⟩ := hPin
    obtain ⟨hVio, hVioTap, hVioClk⟩ := hVio
    obtain ⟨hVpre, hVpreTap, hVpreClk⟩ := hVpre
    refine ⟨⟨_, exec_pinReset s, hPin.heldLow, s.deviceReset_rails 1, hPinTap, hPinClk⟩,
      ⟨_, exec_vioLost s, hVio, State.deviceReset_rails _ _, hVioTap, hVioClk⟩,
      ⟨_, exec_vpreLost s, hVpre, State.deviceReset_rails _ _, hVpreTap, hVpreClk⟩, fun c hc => ?_⟩
    obtain ⟨hSoft, hSoftTap, hSoftClk⟩ := State.deviceReset_kept (s := s.waitTill c) (c := 2) (by decide) hVaon
    refine ⟨_, exec_softwareReset hc, hSoft, State.deviceReset_rails _ _, hSoftTap, hSoftClk.trans ?_⟩
    rw [State.waitTill_clk_cyc]
    exact congrArg _ (s.wait_rtc _)
  · exact ⟨_, exec_vaonLost s, State.deviceReset_fresh (.inl rfl), State.deviceReset_rails _ _⟩
  · exact ⟨⟨_, exec_pinReset s, (State.deviceReset_fresh (.inr hVaon)).heldLow, s.deviceReset_rails 1⟩,
      ⟨_, exec_vioLost s, State.deviceReset_fresh (.inr hVaon), State.deviceReset_rails _ _⟩,
      ⟨_, exec_vpreLost s, State.deviceReset_fresh (.inr hVaon), State.deviceReset_rails _ _⟩⟩

/-! ## A write to the FRAM that a reset cuts short (R74, R90, R100) -/

theorem Memory.read_writeBytes_at {d : Byte} {m : List Host.Cell} {a i : Nat} {l : List Byte} (h : Memory.wf d m = true)
    (hi : i < l.length) : Memory.read d (Memory.writeBytes d m a l) (a + i) = l[i] := by
  induction l generalizing m a i with
  | nil => exact absurd hi (Nat.not_lt_zero i)
  | cons b l ih =>
    cases i with
    | zero =>
      exact (Memory.read_writeBytes_other d _ (a + 1) a l (.inl (Nat.lt_succ_self a))).trans (Memory.read_write_same d m a b h)
    | succ i =>
      have hAt : a + (i + 1) = a + 1 + i := by omega
      rw [hAt]
      exact ih (Memory.write_wf d m a b h) (Nat.lt_of_succ_lt_succ hi)

theorem openBytes_length (point free n : Nat) : (openBytes point free n).length = n := by
  simp [openBytes]

theorem State.framCut_programming {s : State} (h : s.boot.phase = .framProg) :
    s.framCut.1 = Memory.writeBytes framDefault s.fram 0 (List.replicate 4 0 ++ openBytes 64 s.free (0x3C + s.boot.bodyLen)) := by
  unfold State.framCut
  rw [if_pos h]

theorem State.framCut_idle {s : State} (hPhase : s.boot.phase ≠ .framProg) (hStore : s.boot.store = none) :
    s.framCut = (s.fram, s.boot.torn) := by
  unfold State.framCut
  rw [if_neg hPhase, hStore]

/-- Wherever it is cut, a store has written a part of its slot, or nothing. -/
theorem State.framCut_storing {s : State} {x : Store90} (hPhase : s.boot.phase ≠ .framProg) (hStore : s.boot.store = some x)
    (hLen : x.bytes.length ≤ 4096) {a : Nat} (ha : a < slotBase x.toB ∨ slotBase x.toB + 4096 ≤ a) :
    Memory.read framDefault s.framCut.1 a = Memory.read framDefault s.fram a := by
  unfold State.framCut
  rw [if_neg hPhase, hStore]
  dsimp only
  split
  · rfl
  · dsimp only
    rw [Memory.read_writeBytes_other]
    rw [openBytes_length]
    omega
  · dsimp only
    rw [Memory.read_writeBytes_other]
    rw [List.length_append, openBytes_length, List.length_drop]
    omega
  · dsimp only
    rw [Memory.read_writeBytes_other]
    omega

theorem Restarted.fram {s t : State} (h : Restarted s t) : t.fram = s.framCut.1 := congrArg State.fram h

theorem Restarted.torn {s t : State} (h : Restarted s t) : t.boot.torn = s.framCut.2 := congrArg (·.boot.torn) h

theorem completes_restarted {s : State} {c : Instr} (h : c ∈ [Instr.pinReset, .supplyLost .vaon, .supplyLost .vio, .supplyLost .vpre]) :
    Completes c s (Restarted s) := by
  simp only [List.mem_cons, List.not_mem_nil, or_false] at h
  rcases h with rfl | rfl | rfl | rfl
  · exact ⟨_, exec_pinReset s, (s.deviceReset_restarted 1).heldLow⟩
  · exact ⟨_, exec_vaonLost s, (s.railLost .vaon).deviceReset_restarted 0⟩
  · exact ⟨_, exec_vioLost s, (s.railLost .vio).deviceReset_restarted 3⟩
  · exact ⟨_, exec_vpreLost s, (s.railLost .vpre).deviceReset_restarted 4⟩

theorem resetsCutWrites : Parts.ResetsCutWrites := by
  intro s c hc
  obtain ⟨t, hExec, hAll⟩ := completes_restarted (s := s) hc
  refine ⟨t, hExec, fun hPhase hStore => ?_, fun hPhase => ⟨fun hWf a ha => ?_, fun a ha => ?_⟩,
    fun x hPhase hStore hLen a ha => ?_⟩
  · rw [hAll.fram, hAll.torn, State.framCut_idle hPhase hStore]
    exact ⟨rfl, rfl⟩
  · rw [hAll.fram, State.framCut_programming hPhase, ← Nat.zero_add a, Memory.read_writeBytes_at hWf (by simp; omega),
      List.getElem_append_left (by simpa using ha), List.getElem_replicate]
  · rw [hAll.fram, State.framCut_programming hPhase]
    refine Memory.read_writeBytes_other _ _ _ _ _ (.inr ?_)
    rw [List.length_append, List.length_replicate, openBytes_length]
    omega
  · rw [hAll.fram]
    exact State.framCut_storing hPhase hStore hLen ha

/-! ## The key of SYS_SWRST (R73) -/

theorem State.writeSwrst_key (s : State) :
    s.writeSwrst 0xB007 = (.ok, { s with sys := { s.sys with swrstAt := some (s.sys.swrstAt.getD (s.clk.cyc + 800)) } }) :=
  if_pos rfl

theorem softwareResetKey : Parts.SoftwareResetKey := by
  intro s
  have hKey : exec .swrstKey s = finish (s.writeSwrst 0xB007) := rfl
  rw [State.writeSwrst_key] at hKey
  refine ⟨fun hNone => ⟨?_, ?_⟩, fun hSome => ?_⟩
  · rw [hKey, hNone]
    rfl
  · change execSoftwareReset s = _
    unfold execSoftwareReset
    rw [hNone]
  · obtain ⟨c, hc⟩ := Option.ne_none_iff_exists'.mp hSome
    rw [hKey, hc, Option.getD_some, ← hc]
    rfl

/-! ## The end of internal reset (R74, R75) -/

@[simp] theorem State.rtcJudge_quiet (s : State) : s.rtcJudge.quiet = s.quiet := by
  unfold State.rtcJudge
  split
  · exact State.cond_quiet _ _ _ _ _
  · rfl

@[simp] theorem State.startMonitors_quiet (s : State) : s.startMonitors.quiet = s.quiet := by
  unfold State.startMonitors
  rw [State.rtcJudge_quiet, State.cond_quiet, State.cond_quiet]

@[simp] theorem State.railCond_quiet (s : State) (r : Fin 2) (high v : Bool) : (s.railCond r high v).quiet = s.quiet := by
  unfold State.railCond
  dsimp only
  split
  · exact State.cond_quiet _ _ _ _ _
  · rfl

@[simp] theorem State.vexcJudge_quiet (s : State) (r : Fin 2) : (s.vexcJudge r).quiet = s.quiet := by
  unfold State.vexcJudge
  dsimp only
  split <;> split <;> simp only [State.railCond_quiet]

/-- The state in which boot begins, before anything is reported: the reset is counted, cycles and TIME start. -/
def State.bootBegun (s : State) : State :=
  { s with
    sys := { s.sys with
      causesNow := 0
      rstCnt := if s.sys.causesNow &&& 0x1E = 0 then s.sys.rstCnt else min 255 (s.sys.rstCnt + 1) }
    clk := { cyc := 0, time := 0, rate := 0, rtc := s.clk.rtc }
    boot := { s.boot with phase := .header } }

/-- Boot begun, with what the monitors find as they start. -/
def State.bootJudged (s : State) : State := (s.bootBegun.startMonitors.vexcJudge 0).vexcJudge 1

theorem State.bootJudged_quiet (s : State) : s.bootJudged.quiet = s.bootBegun.quiet := by
  unfold State.bootJudged
  simp only [State.vexcJudge_quiet, State.startMonitors_quiet]

theorem State.sys_of_quiet {s t : State} (h : t.quiet = s.quiet) : t.sys = s.sys := by
  have hc := congrArg State.sys h
  exact hc

theorem State.rails_of_quiet {s t : State} (h : t.quiet = s.quiet) : t.rails = s.rails := by
  have hc := congrArg State.rails h
  exact hc

theorem exec_internalResetEnd {s : State} (hPhase : s.boot.phase = .reset) (hRun : s.pwr.st = .run) (hVaon : s.rails.vaon = true)
    (hVio : s.rails.vio = true) (hVpre : s.rails.vpre = true) (hHigh : s.sys.resetLow = false) :
    exec .internalResetEnd s = .next s.bootJudged.scanPins := by
  change execInternalResetEnd s = _
  unfold execInternalResetEnd
  rw [if_pos ⟨hPhase, hRun, hVaon, hVio, hVpre, by simp [hHigh]⟩]
  unfold State.bootJudged State.bootBegun
  simp only [ne_eq, ite_not]

theorem exec_internalResetEnd_waits {s : State}
    (h : s.sys.resetLow = true ∨ s.rails.vaon = false ∨ s.rails.vio = false ∨ s.rails.vpre = false) :
    exec .internalResetEnd s = .next s := by
  refine if_neg ?_
  rintro ⟨-, -, hVaon, hVio, hVpre, hHigh⟩
  simp [hVaon, hVio, hVpre, hHigh] at h

theorem exec_resetNRisingEdge {s : State} (h : s.sys.resetLow = true) (e : Bool) : exec (.resetNRisingEdge e) s =
    .next (State.scanPins { s with sys := { s.sys with resetLow := false, scan := e } }) := if_pos h

theorem exec_resetNRisingEdge_high {s : State} (h : s.sys.resetLow = false) (e : Bool) : exec (.resetNRisingEdge e) s = .next s :=
  if_neg fun hLow => Bool.false_ne_true (h.symm.trans hLow)

theorem internalResetEnds : Parts.InternalResetEnds := by
  intro s asserted default
  refine ⟨fun hPhase hRun hVaon hVio hVpre hHigh => ?_, exec_internalResetEnd_waits, fun hLow e => ?_, exec_resetNRisingEdge_high⟩
  · have hQuiet := s.bootJudged_quiet
    have hScan : s.bootJudged.sys.scan = s.sys.scan := (congrArg Sys.scan (State.sys_of_quiet hQuiet) :)
    have hVioNow : s.bootJudged.rails.vio = s.rails.vio := (congrArg Rails.vio (State.rails_of_quiet hQuiet) :)
    exact ⟨_, exec_internalResetEnd hPhase hRun hVaon hVio hVpre hHigh, (State.scanPins_quiet _).trans hQuiet,
      fun h => State.scanPins_asserted (hScan.trans h) (hVioNow.trans hVio), fun h => State.scanPins_atDefault (.inl (hScan.trans h))⟩
  · exact ⟨_, exec_resetNRisingEdge hLow e, State.scanPins_quiet _, fun hScan hVio => State.scanPins_asserted hScan hVio,
      fun h => State.scanPins_atDefault h⟩

/-- Settles O9: every reset by the one state it leaves, cut writes by what has been put into the FRAM, pins by the voter. -/
theorem resetsAndRestart : Obligations.ResetsAndRestart :=
  ⟨resetsRestart, resetsCutWrites, softwareResetKey, internalResetEnds⟩

end Sys2Proof.Machine
end

section
/-! PROOFS. Live bits that a condition, a channel loss or the auxiliary slots leave as they are (R347). -/

namespace Sys2Proof.Machine

/-- Every page stands in `Page.all` at the place of its header. -/
theorem Page.all_idx (p : Page) : Page.all[p.idx.val]? = some p := by
  cases p
  case pch n =>
    revert n
    decide
  all_goals rfl

theorem Page.idx_injective {p q : Page} (h : p.idx = q.idx) : p = q := by
  have hAt := Page.all_idx p
  rw [h, Page.all_idx q] at hAt
  exact (Option.some.inj hAt).symm

/-- From `s` to `t` no copy's live bit `b` of page `q` changes. -/
def State.KeepsBit (q : Page) (b : Nat) (s t : State) : Prop := ∀ c, t.liveBit q c b = s.liveBit q c b

section
variable {q : Page} {b : Nat} {s t u : State}

theorem State.KeepsBit.trans (h : s.KeepsBit q b t) (k : t.KeepsBit q b u) : s.KeepsBit q b u := fun c => (k c).trans (h c)

theorem State.KeepsBit.of_sameLive (h : s.SameLive t) : s.KeepsBit q b t := fun c => congrArg (·.getLsbD b) (h q c)

theorem State.KeepsBit.of_flt (h : t.flt = s.flt) : s.KeepsBit q b t := .of_sameLive (.of_flt h)

theorem State.KeepsBit.refl (s : State) : s.KeepsBit q b s := fun _ => rfl

theorem State.KeepsBit.foldl {α : Type} {f : State → α → State} (h : ∀ (s : State) a, s.KeepsBit q b (f s a)) (l : List α)
    (s : State) : s.KeepsBit q b (l.foldl f s) :=
  List.foldlRecOn (motive := s.KeepsBit q b) l f (.refl s) fun t ht a _ => ht.trans (h t a)

theorem FaultHdr.setBit_other (f : FaultHdr) (c d : Copy) {i : Nat} (x y : Bool) (h : b ≠ i) :
    ((f.setBit c i x y).liveOf d).getLsbD b = (f.liveOf d).getLsbD b := by
  have hPut (w : Word) : (bput w i y).getLsbD b = w.getLsbD b := bput_get_other w i b y h
  cases c <;> cases d <;> simp [FaultHdr.setBit, FaultHdr.liveOf, hPut]

/-- A condition of another source, or of another page, leaves a live bit alone. -/
theorem State.cond_keepsBit (s : State) {p : Page} {i : Nat} (h : q ≠ p ∨ b ≠ i) (c : Copy) (v : Bool) :
    s.KeepsBit q b (s.cond p i c v) := by
  have hSet (x y : Bool) : s.KeepsBit q b (s.updHdr p fun f => f.setBit c i x y) := by
    intro d
    unfold State.liveBit
    by_cases e : q = p
    · subst e
      rw [State.updHdr_hdr]
      exact FaultHdr.setBit_other _ _ _ _ _ (h.resolve_left fun hne => hne rfl)
    · exact congrArg (fun f : FaultHdr => (f.liveOf d).getLsbD b) (vset_other _ _ _ _ fun hIdx => e (Page.idx_injective hIdx))
  unfold State.cond
  split
  · exact .refl s
  split
  · exact hSet _ _
  split
  · exact hSet _ _
  split
  · exact (hSet _ _).trans (.of_sameLive (State.updHdr_sameLive _ _ _ fun x d => by cases d <;> rfl))
  split
  · exact hSet _ _
  · exact (hSet _ _).trans (.of_sameLive (State.report_sameLive _ _ _ _ _))

/-! ## Operations that judge other pages -/

theorem State.pcond_keepsBit (h : ∀ n, q ≠ .pch n) (s : State) (n : Fin 8) (i : Nat) (v : Bool) :
    s.KeepsBit q b (s.pcond n i v) := s.cond_keepsBit (.inl (h n)) _ _

theorem State.declareLoss_keepsBit (h : ∀ n, q ≠ .pch n) (s : State) (n : Fin 8) (i : Nat) :
    s.KeepsBit q b (s.declareLoss n i) := by
  have hWindow : (s.lossWindow n).flt = s.flt := by
    unfold State.lossWindow
    split <;> rfl
  have hDrop (t : State) : t.KeepsBit q b (t.dropCratio n) := by
    unfold State.dropCratio
    split
    · exact .refl t
    · exact State.pcond_keepsBit h _ _ _ _
  unfold State.declareLoss
  extract_lets s1 x c
  exact (State.KeepsBit.of_flt (t := s1.setPch n _) hWindow).trans ((State.pcond_keepsBit h _ _ _ _).trans (hDrop _))

theorem State.causeEnds_keepsBit (h : ∀ n, q ≠ .pch n) (s : State) (n : Fin 8) (i : Nat) : s.KeepsBit q b (s.causeEnds n i) :=
  (State.KeepsBit.of_flt (t := s.setPch n _) rfl).trans (State.pcond_keepsBit h _ _ _ _)

theorem State.judgeDrvAll_keepsBit (h : ∀ n, q ≠ .pch n) (s : State) : s.KeepsBit q b s.judgeDrvAll := by
  refine State.KeepsBit.foldl (f := fun st n => st.judgeDrv n) (fun t n => ?_) _ s
  have hBad := State.pcond_keepsBit (b := b) h t n 8 (t.pchOn n && t.drvBad n)
  unfold State.judgeDrv
  dsimp only
  split
  · split
    · exact hBad
    · exact hBad.trans (State.declareLoss_keepsBit h _ _ _)
  · exact hBad.trans (State.causeEnds_keepsBit h _ _ _)

theorem State.dropVisit_flt (s : State) (c : Fin 2) : (s.dropVisit c).flt = s.flt := by
  unfold State.dropVisit
  split
  · rfl
  split
  · rfl
  · rfl

theorem State.kickConv_flt (s : State) (c : Fin 2) (t : Nat) : (s.kickConv c t).flt = s.flt := by
  unfold State.kickConv
  split
  · rfl
  split
  · rfl
  · rfl

theorem State.auxJudge_keepsBit (h : q ≠ .aux) (s : State) : s.KeepsBit q b s.auxJudge := by
  have hSlot (t : State) (k : Fin 16) : t.KeepsBit q b (t.judgeSlot k) := by
    unfold State.judgeSlot
    extract_lets y t1
    have hTag : t1.flt = t.flt := by
      unfold t1
      split <;> rfl
    exact (State.KeepsBit.of_flt hTag).trans (State.cond_keepsBit _ (.inl h) _ _)
  unfold State.auxJudge
  extract_lets s1 s2
  have hSlots : s1.KeepsBit q b s2 := State.KeepsBit.foldl hSlot _ s1
  refine (State.KeepsBit.of_flt (t := s1) ?_).trans (hSlots.trans (.of_flt ?_))
  · rw [State.dropVisit_flt, State.dropVisit_flt]
  · have hRout (t : State) : t.routAll.flt = t.flt := rfl
    rw [hRout, State.kickConv_flt, State.kickConv_flt]

end

/-! ## What the auxiliary slots leave alone beside -/

@[simp] theorem State.dropVisit_tickView (s : State) (c : Fin 2) : (s.dropVisit c).tickView = s.tickView := by
  unfold State.dropVisit
  split
  · rfl
  split
  · rfl
  · rfl

@[simp] theorem State.kickConv_tickView (s : State) (c : Fin 2) (t : Nat) : (s.kickConv c t).tickView = s.tickView := by
  unfold State.kickConv
  split
  · rfl
  split
  · rfl
  · rfl

@[simp] theorem State.auxJudge_tickView (s : State) : s.auxJudge.tickView = s.tickView := by
  have hSlot (t : State) (k : Fin 16) : (t.judgeSlot k).tickView = t.tickView := by
    unfold State.judgeSlot
    dsimp only
    rw [State.cond_tickView]
    split <;> rfl
  unfold State.auxJudge
  simp only [State.routAll_tickView, State.kickConv_tickView, State.foldl_tickView _ hSlot, State.dropVisit_tickView]

end Sys2Proof.Machine
end

section
/-! PROOFS. The analogue supplies (R57): VDDA_UV of a half and what its channels make of it. -/

namespace Sys2Proof.Machine

/-! ## A cause of channel loss, in its own channel -/

theorem State.pcond_pch (s : State) (n : Fin 8) (b : Nat) (v : Bool) : (s.pcond n b v).pch = s.pch :=
  State.pch_of_tickView (State.cond_tickView _ _ _ _ _)

theorem State.causeEnds_pch (s : State) (n : Fin 8) (i : Nat) :
    (s.causeEnds n i).pch[n] = { s.pch[n] with live := bput s.pch[n].live i false } := by
  unfold State.causeEnds
  rw [State.pcond_pch]
  exact State.setPch_get _ _ _

/-- A channel in which cause `i` has become live (R145): it is lost, and unless it is OFF it records the cause. -/
def Pch.lostBy (x : Pch) (i : Nat) : Pch :=
  { x.toLost with
    live := bput x.toLost.live i true
    cause := if x.toLost.st = .off then x.toLost.cause else bput x.toLost.cause i true }

theorem State.declareLoss_pch (s : State) (n : Fin 8) (i : Nat) : (s.declareLoss n i).pch[n] = s.pch[n].lostBy i := by
  have hWindow : (s.lossWindow n).pch = s.pch := by
    unfold State.lossWindow
    split <;> rfl
  have hDrop (t : State) : (t.dropCratio n).pch = t.pch := by
    unfold State.dropCratio
    split
    · rfl
    · exact State.pcond_pch _ _ _ _
  unfold State.declareLoss
  dsimp only
  rw [hDrop, State.pcond_pch, State.setPch_get, hWindow]
  rfl

theorem Pch.toLost_st_ne_off {x : Pch} (h : x.st ≠ .off) : x.toLost.st ≠ .off := by
  unfold Pch.toLost
  split
  · exact fun hLost => ChSt.noConfusion hLost
  · exact fun hLost => ChSt.noConfusion hLost
  · exact h

theorem Pch.lostBy_causes {x : Pch} {i : Nat} (hi : i < 16) (h : x.st ≠ .off) :
    (x.lostBy i).live.getLsbD i = true ∧ (x.lostBy i).cause.getLsbD i = true := by
  unfold Pch.lostBy
  dsimp only
  rw [if_neg (Pch.toLost_st_ne_off h)]
  exact ⟨bput_get _ _ _ hi, bput_get _ _ _ hi⟩

theorem Pch.lostBy_lost {x : Pch} (i : Nat) (h : x.st = .track ∨ x.st = .phaseAcq) :
    (x.lostBy i).st = .lost ∧ (x.lostBy i).lp.locked = false := by
  unfold Pch.lostBy Pch.toLost
  rcases h with h | h
  · rw [h]
    exact ⟨rfl, rfl⟩
  · rw [h]
    exact ⟨rfl, rfl⟩

/-! ## The channels of a half, one after the other -/

theorem mem_chansOf (h : Half) (n : Fin 8) : n ∈ chansOf h ↔ pchHalf n.val = h := by
  simp [chansOf]

theorem chansOf_nodup (h : Half) : (chansOf h).Nodup := (List.nodup_finRange 8).filter _

theorem State.foldl_chanStep_other {f : State → Fin 8 → State} (hf : ∀ (s : State) n, s.ChanStep n (f s n)) {l : List (Fin 8)}
    (s : State) {n : Fin 8} (hn : n ∉ l) : (l.foldl f s).pch[n] = s.pch[n] :=
  List.foldlRecOn (motive := fun t => t.pch[n] = s.pch[n]) l f rfl fun t ht k hk =>
    ((hf t k).others n fun e => hn (e ▸ hk)).trans ht

theorem State.foldl_chanStep_steady {f : State → Fin 8 → State} (hf : ∀ (s : State) n, s.ChanStep n (f s n)) (l : List (Fin 8))
    (s : State) : (l.foldl f s).steady = s.steady :=
  List.foldlRecOn (motive := fun t => t.steady = s.steady) l f rfl fun t ht n _ => (hf t n).steady.trans ht

/-- What a channel makes of its analogue supply, bad or good (R57). -/
def State.vddaChan (bad : Bool) (s : State) (n : Fin 8) : State :=
  if bad then (if s.pchOn n then s.declareLoss n 5 else s) else s.causeEnds n 5

theorem State.vddaChan_chanStep (bad : Bool) (s : State) (n : Fin 8) : s.ChanStep n (s.vddaChan bad n) := by
  unfold State.vddaChan
  split
  · split
    · exact State.declareLoss_chanStep s n 5
    · exact .refl s
  · exact State.causeEnds_chanStep s n 5

theorem State.vddaChan_keepsBit {q : Page} {b : Nat} (h : ∀ n, q ≠ .pch n) (bad : Bool) (s : State) (n : Fin 8) :
    s.KeepsBit q b (s.vddaChan bad n) := by
  unfold State.vddaChan
  split
  · split
    · exact State.declareLoss_keepsBit h s n 5
    · exact .refl s
  · exact State.causeEnds_keepsBit h s n 5

/-! ## The verdict on VDDA_n -/

theorem State.vddaJudge_eq (s : State) (h : Half) : s.vddaJudge h =
    ((chansOf h).foldl (State.vddaChan (!s.vddaGood h)) (s.cond .sys (10 + h.num) h.copy (!s.vddaGood h))).auxJudge.routAll := rfl

theorem State.vddaJudge_steady (s : State) (h : Half) : (s.vddaJudge h).steady = s.steady := by
  rw [State.vddaJudge_eq, State.steady_of_tickView (State.routAll_tickView _), State.steady_of_tickView (State.auxJudge_tickView _),
    State.foldl_chanStep_steady (State.vddaChan_chanStep _), State.steady_of_tickView (State.cond_tickView _ _ _ _ _)]

theorem Steady.fields {s t : State} (h : t.steady = s.steady) : t.fram = s.fram ∧ t.cfg = s.cfg ∧ t.exc = s.exc :=
  ⟨congrArg Steady.fram h, congrArg Steady.cfg h, congrArg Steady.exc h⟩

theorem State.rails_of_base {s t : State} (h : t.base = s.base) : t.rails = s.rails := congrArg Base.rails h

theorem State.vddaJudge_frame (s : State) (h : Half) :
    (s.vddaJudge h).rails = s.rails ∧ (s.vddaJudge h).fram = s.fram ∧ (s.vddaJudge h).cfg = s.cfg ∧ (s.vddaJudge h).exc = s.exc :=
  ⟨State.rails_of_base (State.vddaJudge_base s h), Steady.fields (s.vddaJudge_steady h)⟩

theorem State.vddaJudge_liveBit {s : State} {h : Half} {good : Bool} (hp : s.powered .sys = true) (hGood : s.vddaGood h = good) :
    (s.vddaJudge h).liveBit .sys h.copy (10 + h.num) = !good := by
  have hNum : 10 + h.num < 32 := by
    have := half_num_lt h
    omega
  have hSys (n : Fin 8) : Page.sys ≠ .pch n := Page.noConfusion
  have hChans := State.KeepsBit.foldl (b := 10 + h.num) (State.vddaChan_keepsBit hSys (!good)) (chansOf h)
    (s.cond .sys (10 + h.num) h.copy (!good))
  have hAux := State.auxJudge_keepsBit (q := .sys) (b := 10 + h.num) (by decide)
    ((chansOf h).foldl (State.vddaChan (!good)) (s.cond .sys (10 + h.num) h.copy (!good)))
  have hRout (t : State) : t.routAll.liveBit .sys h.copy (10 + h.num) = t.liveBit .sys h.copy (10 + h.num) := rfl
  rw [State.vddaJudge_eq, hGood, hRout, hAux h.copy, hChans h.copy]
  exact State.cond_liveBit hp hNum rfl rfl _ _

theorem State.vddaJudge_other {s : State} {h : Half} {n : Fin 8} (hn : pchHalf n.val ≠ h) :
    (s.vddaJudge h).pch[n] = s.pch[n] := by
  rw [State.vddaJudge_eq, State.pch_of_tickView (State.routAll_tickView _), State.pch_of_tickView (State.auxJudge_tickView _),
    State.foldl_chanStep_other (State.vddaChan_chanStep _) _ (fun hMem => hn ((mem_chansOf h n).mp hMem)),
    State.pch_of_tickView (State.cond_tickView _ _ _ _ _)]

/-- Each channel of the half makes of the verdict what it would alone. -/
theorem State.vddaJudge_own {s : State} {h : Half} {n : Fin 8} (hn : pchHalf n.val = h) :
    ∃ u : State, u.pchOn n = s.pchOn n ∧ u.pch[n] = s.pch[n] ∧
      (s.vddaJudge h).pch[n] = (u.vddaChan (!s.vddaGood h) n).pch[n] := by
  have hView : (s.cond .sys (10 + h.num) h.copy (!s.vddaGood h)).tickView = s.tickView := State.cond_tickView _ _ _ _ _
  obtain ⟨u, hSteady, hOwn, hEnd⟩ := State.foldl_chanStep (State.vddaChan_chanStep (!s.vddaGood h)) (chansOf_nodup h)
    (s.cond .sys (10 + h.num) h.copy (!s.vddaGood h)) ((mem_chansOf h n).mpr hn)
  rw [State.pch_of_tickView hView] at hOwn
  refine ⟨u, ?_, hOwn, ?_⟩
  · unfold State.pchOn
    rw [hOwn, State.halfOn_of_steady (hSteady.trans (State.steady_of_tickView hView))]
  · rw [State.vddaJudge_eq, State.pch_of_tickView (State.routAll_tickView _), State.pch_of_tickView (State.auxJudge_tickView _), hEnd]

theorem State.vddaJudge_good {s : State} {h : Half} (hGood : s.vddaGood h = true) {n : Fin 8} (hn : pchHalf n.val = h) :
    (s.vddaJudge h).pch[n] = { s.pch[n] with live := bput s.pch[n].live 5 false } := by
  obtain ⟨u, -, hOwn, hEnd⟩ := State.vddaJudge_own (s := s) hn
  have hEnds : u.vddaChan (!s.vddaGood h) n = u.causeEnds n 5 := by rw [hGood]; rfl
  rw [hEnd, hEnds, State.causeEnds_pch, hOwn]

theorem State.vddaJudge_bad {s : State} {h : Half} (hBad : s.vddaGood h = false) {n : Fin 8} (hn : pchHalf n.val = h) :
    (s.vddaJudge h).pch[n] = if s.pchOn n then s.pch[n].lostBy 5 else s.pch[n] := by
  obtain ⟨u, hOn, hOwn, hEnd⟩ := State.vddaJudge_own (s := s) hn
  rw [hEnd, ← hOn, ← hOwn]
  unfold State.vddaChan
  rw [hBad, Bool.not_false, if_pos rfl]
  split
  · exact State.declareLoss_pch u n 5
  · rfl

/-! ## The commands -/

/-- The rail VDDA_n of half `h`. -/
def vddaRail (h : Half) : Rail := if h = .h0 then .vdda0 else .vdda1

/-- A rail counts as good again, before what follows from it. -/
def State.railBack (s : State) (r : Rail) : State := { s with rails := s.rails.set r true }

theorem exec_vddaGood (s : State) (h : Half) : exec (.supplyGood (vddaRail h)) s = .next ((s.railBack (vddaRail h)).vddaJudge h) := by
  cases h <;> rfl

theorem exec_vddaLost (s : State) (h : Half) : exec (.supplyLost (vddaRail h)) s = .next ((s.railLost (vddaRail h)).vddaJudge h) := by
  cases h <;> rfl

theorem Rails.set_vdda (r : Rails) (h : Half) (ok : Bool) :
    r.set (vddaRail h) ok = if h = .h0 then { r with vdda0 := ok } else { r with vdda1 := ok } := by
  cases h <;> rfl

theorem State.vddaGood_set {s : State} {h : Half} {ok : Bool} {r : Rails} (hr : s.rails = r.set (vddaRail h) ok) :
    s.vddaGood h = ok := by
  cases h <;> (unfold State.vddaGood; rw [hr]; rfl)

theorem exec_vioGood_scan {s : State} (h : s.sys.scan = true) : exec (.supplyGood .vio) s = .next (s.railBack .vio).scanPins :=
  congrArg Host.Outcome.next (if_pos h)

theorem exec_vioGood {s : State} (h : s.sys.scan = false) : exec (.supplyGood .vio) s = .next (s.railBack .vio) :=
  congrArg Host.Outcome.next (if_neg fun hScan => Bool.false_ne_true (h.symm.trans hScan))

theorem suppliesReturn : Parts.SuppliesReturn := by
  intro s
  refine ⟨rfl, exec_vioGood, fun hScan => ⟨_, exec_vioGood_scan hScan, State.scanPins_quiet _, ?_⟩, rfl, fun h => ?_⟩
  · exact State.scanPins_asserted hScan rfl
  obtain ⟨hRails, hFram, hCfg, hExc⟩ := (s.railBack (vddaRail h)).vddaJudge_frame h
  have hGood : (s.railBack (vddaRail h)).vddaGood h = true := State.vddaGood_set rfl
  refine ⟨_, exec_vddaGood s h, hRails.trans (Rails.set_vdda _ _ _), hFram, hCfg, hExc, fun hp => ?_, fun n => ?_⟩
  · exact State.vddaJudge_liveBit (s := s.railBack (vddaRail h)) hp hGood
  by_cases hn : pchHalf n.val = h
  · rw [State.vddaJudge_good hGood hn]
    exact ⟨fun _ => bput_get _ _ _ (by decide), rfl, fun hOther => absurd hn hOther⟩
  · have hSame := State.vddaJudge_other (s := s.railBack (vddaRail h)) hn
    exact ⟨fun hOwn => absurd hOwn hn, congrArg Pch.st hSame, fun _ => hSame⟩

theorem analogueSupplyLost : Parts.AnalogueSupplyLost := by
  intro s h
  obtain ⟨hRails, hFram, hCfg, hExc⟩ := (s.railLost (vddaRail h)).vddaJudge_frame h
  have hBad : (s.railLost (vddaRail h)).vddaGood h = false := State.vddaGood_set rfl
  refine ⟨_, exec_vddaLost s h, hRails.trans (Rails.set_vdda _ _ _), hFram, hCfg, hExc, fun hp => ?_, fun n => ⟨fun hn hOn => ?_, fun hIdle => ?_⟩⟩
  · exact State.vddaJudge_liveBit (s := s.railLost (vddaRail h)) hp hBad
  · have hSt : s.pch[n].st ≠ .off := bne_iff_ne.mp (Bool.and_eq_true_iff.mp hOn).1
    have hLost : ((s.railLost (vddaRail h)).vddaJudge h).pch[n] = s.pch[n].lostBy 5 :=
      (State.vddaJudge_bad hBad hn).trans (if_pos hOn)
    rw [hLost]
    obtain ⟨hLive, hCause⟩ := Pch.lostBy_causes (by decide : 5 < 16) hSt
    exact ⟨hLive, hCause, Pch.lostBy_lost 5⟩
  · by_cases hn : pchHalf n.val = h
    · have hOff : s.pchOn n = false := hIdle.resolve_left fun hOther => hOther hn
      exact (State.vddaJudge_bad hBad hn).trans (if_neg fun hOn => Bool.false_ne_true (hOff.symm.trans hOn))
    · exact State.vddaJudge_other hn

end Sys2Proof.Machine
end

section
/-! PROOFS. The verdicts on VEXC_n (R102, R103): what the rail's two bridges make of them, and the live bits VUV and VOV. -/

namespace Sys2Proof.Machine

/-! ## What a verdict on a rail leaves alone -/

/-- The state without the bridges and what a channel loss changes: a rail's verdict and a trip change nothing else. -/
def State.offRail (s : State) : State := { s.apart with exc := Vector.replicate 4 {} }

section
variable {s t : State}

theorem State.offRail_of_apart (h : t.apart = s.apart) : t.offRail = s.offRail := by
  unfold State.offRail
  rw [h]

theorem State.exc_of_apart (h : t.apart = s.apart) : t.exc = s.exc := by
  have hc := congrArg State.exc h
  exact hc

theorem State.fields_of_offRail (h : t.offRail = s.offRail) :
    t.vexcMv = s.vexcMv ∧ t.fram = s.fram ∧ t.cfg = s.cfg ∧ t.rails = s.rails := by
  have hMv := congrArg State.vexcMv h
  have hFram := congrArg State.fram h
  have hCfg := congrArg State.cfg h
  have hRails := congrArg State.rails h
  exact ⟨hMv, hFram, hCfg, hRails⟩

theorem State.halfOn_of_offRail (h : t.offRail = s.offRail) (g : Half) : t.halfOn g = s.halfOn g := by
  have hPwr := congrArg State.pwr h
  exact State.halfOn_of_pwr hPwr g

theorem State.powered_of_offRail (h : t.offRail = s.offRail) (p : Page) : t.powered p = s.powered p := by
  have hPwr := congrArg State.pwr h
  have hQb := congrArg State.qb h
  have hPhase := congrArg (fun u : State => u.boot.phase) h
  change t.pwr = s.pwr at hPwr
  change t.qb = s.qb at hQb
  change t.boot.phase = s.boot.phase at hPhase
  unfold State.powered State.coreOn
  rw [State.pageOn_of_pwr hQb hPwr, hPwr, hPhase]

end

/-! ## A bridge -/

theorem State.cond_exc (s : State) (p : Page) (b : Nat) (c : Copy) (v : Bool) : (s.cond p b c v).exc = s.exc :=
  State.exc_of_apart (State.cond_apart s p b c v)

theorem State.judgeClip_exc (s : State) (n : Fin 4) : ∃ v, (s.judgeClip n).exc = vset s.exc n { s.exc[n] with clip := v } := by
  unfold State.judgeClip
  exact ⟨_, State.cond_exc _ _ _ _ _⟩

theorem State.judgeClip_other (s : State) {n k : Fin 4} (h : k ≠ n) : (s.judgeClip n).exc[k] = s.exc[k] := by
  obtain ⟨v, hExc⟩ := s.judgeClip_exc n
  rw [hExc]
  exact vset_other _ _ _ _ h

theorem State.judgeClip_level (s : State) (n k : Fin 4) :
    ((s.judgeClip n).exc[k]).st = (s.exc[k]).st ∧ ((s.judgeClip n).exc[k]).lvlNow = (s.exc[k]).lvlNow := by
  obtain ⟨v, hExc⟩ := s.judgeClip_exc n
  by_cases h : k = n
  · subst h
    rw [hExc, vset_same]
    exact ⟨rfl, rfl⟩
  · rw [State.judgeClip_other s h]
    exact ⟨rfl, rfl⟩

theorem State.judgeClip_offRail (s : State) (n : Fin 4) : (s.judgeClip n).offRail = s.offRail := by
  unfold State.judgeClip
  have hSet (x : Exc) : (s.setExc n x).offRail = s.offRail := rfl
  exact (State.offRail_of_apart (State.cond_apart _ _ _ _ _)).trans (hSet _)

theorem State.judgeClip_keepsBit {b : Nat} (hb : 24 ≤ b) (s : State) (n : Fin 4) : s.KeepsBit .exc b (s.judgeClip n) := by
  unfold State.judgeClip
  have hn := n.isLt
  exact (State.KeepsBit.of_flt (t := s.setExc n _) rfl).trans (State.cond_keepsBit _ (.inr (by omega)) _ _)

/-- The bridge delivers, so that a trip changes its state (R120). -/
def ExcSt.delivers (x : ExcSt) : Prop := x = .run ∨ x = .rampUp ∨ x = .rampDown

/-- From `s` to `t` bridge `n` trips (R120): if it delivered it is at high impedance, and beside what its channels make of that
nothing else changes. -/
structure State.Trip (n : Fin 4) (s t : State) : Prop where
  rest : t.offRail = s.offRail
  others : ∀ k, k ≠ n → t.exc[k] = s.exc[k]
  own : (s.exc[n]).st.delivers → (t.exc[n]).st = .tripped ∧ (t.exc[n]).lvlNow = 0
  bits : ∀ b, 24 ≤ b → s.KeepsBit .exc b t

theorem State.excAtOnce_own (s : State) (n : Fin 4) :
    ((s.excAtOnce n).exc[n]).st = (s.exc[n]).st ∧ ((s.excAtOnce n).exc[n]).lvlNow = (s.exc[n]).lvlNow := by
  have hSet (x : Exc) : (s.setExc n x).exc[n] = x := vset_same _ _ _
  unfold State.excAtOnce
  dsimp only
  split
  · rw [hSet]
    exact ⟨rfl, rfl⟩
  · rw [hSet]
    exact ⟨rfl, rfl⟩
  · exact ⟨rfl, rfl⟩

theorem State.excAtOnce_other (s : State) {n k : Fin 4} (h : k ≠ n) : (s.excAtOnce n).exc[k] = s.exc[k] := by
  have hSet (x : Exc) : (s.setExc n x).exc[k] = s.exc[k] := vset_other _ _ _ _ h
  unfold State.excAtOnce
  dsimp only
  split
  · exact hSet _
  · exact hSet _
  · rfl

theorem State.excAtOnce_rest (s : State) (n : Fin 4) : (s.excAtOnce n).offRail = s.offRail ∧ (s.excAtOnce n).flt = s.flt := by
  have hSet (x : Exc) : (s.setExc n x).offRail = s.offRail ∧ (s.setExc n x).flt = s.flt := ⟨rfl, rfl⟩
  unfold State.excAtOnce
  dsimp only
  split
  · exact hSet _
  · exact hSet _
  · exact ⟨rfl, rfl⟩

theorem State.judgeDrvAll_exc (s : State) : s.judgeDrvAll.exc = s.exc := State.exc_of_apart s.judgeDrvAll_apart

theorem State.judgeDrvAll_offRail (s : State) : s.judgeDrvAll.offRail = s.offRail := State.offRail_of_apart s.judgeDrvAll_apart

theorem State.trip_of_tripped (s : State) (n : Fin 4) {y : Exc} (hSt : y.st = .tripped) (hLvl : y.lvlNow = 0) :
    s.Trip n (((s.setExc n y).excAtOnce n).judgeClip n).judgeDrvAll := by
  let u := s.setExc n y
  have hOwn : u.exc[n] = y := vset_same _ _ _
  obtain ⟨hRest, hFlt⟩ := u.excAtOnce_rest n
  obtain ⟨hStOnce, hLvlOnce⟩ := u.excAtOnce_own n
  obtain ⟨hStClip, hLvlClip⟩ := (u.excAtOnce n).judgeClip_level n n
  refine ⟨?_, fun k hk => ?_, fun _ => ?_, fun b hb => ?_⟩
  · rw [State.judgeDrvAll_offRail, State.judgeClip_offRail]
    exact hRest
  · rw [State.judgeDrvAll_exc, State.judgeClip_other _ hk, State.excAtOnce_other _ hk]
    exact vset_other _ _ _ _ hk
  · rw [State.judgeDrvAll_exc]
    exact ⟨hStClip.trans (hStOnce.trans (hOwn.symm ▸ hSt)), hLvlClip.trans (hLvlOnce.trans (hOwn.symm ▸ hLvl))⟩
  · have hOnce : s.KeepsBit .exc b (u.excAtOnce n) := .of_flt hFlt
    exact hOnce.trans ((State.judgeClip_keepsBit hb _ n).trans (State.judgeDrvAll_keepsBit (fun _ => Page.noConfusion) _))

theorem State.tripExc_trip (s : State) (n : Fin 4) : s.Trip n (s.tripExc n) := by
  unfold State.tripExc
  dsimp only
  split
  case h_4 hUp hRun hDown =>
    exact ⟨rfl, fun _ _ => rfl, fun h => absurd h fun h => h.elim hRun fun h => h.elim hUp hDown, fun b _ => .refl s⟩
  all_goals exact s.trip_of_tripped n rfl rfl

/-! ## The two bridges of a rail -/

theorem railExc_ne (r : Fin 2) : (railExc r).1 ≠ (railExc r).2 := by
  revert r
  decide

/-- Both bridges of rail `r` trip from `s` to `t`. -/
structure State.RailTrip (r : Fin 2) (s t : State) : Prop where
  rest : t.offRail = s.offRail
  others : ∀ n, n ≠ (railExc r).1 → n ≠ (railExc r).2 → t.exc[n] = s.exc[n]
  own : ∀ n, n = (railExc r).1 ∨ n = (railExc r).2 → (s.exc[n]).st.delivers → (t.exc[n]).st = .tripped ∧ (t.exc[n]).lvlNow = 0
  bits : ∀ b, 24 ≤ b → s.KeepsBit .exc b t

theorem State.tripRail_railTrip (s : State) (r : Fin 2) : s.RailTrip r (s.tripRail r) := by
  have hFirst := s.tripExc_trip (railExc r).1
  have hSecond := (s.tripExc (railExc r).1).tripExc_trip (railExc r).2
  unfold State.tripRail
  refine ⟨hSecond.rest.trans hFirst.rest, fun n h1 h2 => (hSecond.others n h2).trans (hFirst.others n h1), fun n hn hOn => ?_,
    fun b hb => (hFirst.bits b hb).trans (hSecond.bits b hb)⟩
  rcases hn with rfl | rfl
  · have hKept := hSecond.others _ (railExc_ne r)
    rw [hKept]
    exact hFirst.own hOn
  · refine hSecond.own ?_
    rw [hFirst.others _ (railExc_ne r).symm]
    exact hOn

theorem State.railCond_apart (s : State) (r : Fin 2) (high v : Bool) : (s.railCond r high v).apart = s.apart :=
  State.apart_of_quiet (State.railCond_quiet s r high v)

/-- The verdict of a rail whose half judges it is the live bit (R103). -/
theorem State.railCond_liveBit {s : State} {r : Fin 2} (hp : s.powered .exc = true) (hOn : s.halfOn (railHalf r) = true)
    (high v : Bool) : (s.railCond r high v).liveBit .exc (railHalf r).copy (24 + 2 * r.val + high.toNat) = v := by
  have hBit : 24 + 2 * r.val + high.toNat < 32 := by
    have := r.isLt
    have := high.toNat_le
    omega
  unfold State.railCond
  dsimp only
  rw [if_pos hOn]
  exact State.cond_liveBit hp hBit rfl rfl _ _

theorem State.railCond_keepsBit {b : Nat} (s : State) {r : Fin 2} {high : Bool} (h : b ≠ 24 + 2 * r.val + high.toNat) (v : Bool) :
    s.KeepsBit .exc b (s.railCond r high v) := by
  unfold State.railCond
  dsimp only
  split
  · exact State.cond_keepsBit _ (.inr h) _ _
  · exact .refl s

/-! ## A rail measured and judged -/

/-- The undervoltage verdict of rail `r` among the rails that count as good. -/
def Rails.setVexc (x : Rails) (r : Fin 2) (ok : Bool) : Rails := if r = 0 then { x with vexc0 := ok } else { x with vexc1 := ok }

/-- From `s` to `t` rail `r` has been measured as `mv`, the rails counting as good as `x` says: CLIP of the bridges may follow, and
what a report changes. -/
structure State.Measured (r : Fin 2) (mv : Nat) (x : Rails) (s t : State) : Prop where
  kept : t.vexcMv = vset s.vexcMv r mv ∧ t.fram = s.fram ∧ t.cfg = s.cfg
  rails : t.rails = x
  page : t.powered .exc = s.powered .exc
  half : t.halfOn (railHalf r) = s.halfOn (railHalf r)
  others : ∀ n, n ≠ (railExc r).1 → n ≠ (railExc r).2 → t.exc[n] = s.exc[n]
  level : ∀ n : Fin 4, (t.exc[n]).st = (s.exc[n]).st ∧ (t.exc[n]).lvlNow = (s.exc[n]).lvlNow

section
variable {r : Fin 2} {mv : Nat} {x : Rails} {s t : State}

theorem State.setVexc_measured (s : State) (r : Fin 2) (mv : Nat) : s.Measured r mv s.rails (s.setVexc r mv) := by
  unfold State.setVexc
  let u : State := { s with vexcMv := vset s.vexcMv r mv }
  have hRest : ((u.judgeClip (railExc r).1).judgeClip (railExc r).2).offRail = u.offRail := by
    rw [State.judgeClip_offRail, State.judgeClip_offRail]
  obtain ⟨hMv, hFram, hCfg, hRails⟩ := State.fields_of_offRail hRest
  refine ⟨⟨hMv, hFram, hCfg⟩, hRails, State.powered_of_offRail hRest _, State.halfOn_of_offRail hRest _, fun n h1 h2 => ?_,
    fun n => ?_⟩
  · rw [State.judgeClip_other _ h2, State.judgeClip_other _ h1]
  · obtain ⟨hSt, hLvl⟩ := u.judgeClip_level (railExc r).1 n
    obtain ⟨hSt', hLvl'⟩ := (u.judgeClip (railExc r).1).judgeClip_level (railExc r).2 n
    exact ⟨hSt'.trans hSt, hLvl'.trans hLvl⟩

theorem State.setVexcOk_eq (s : State) (r : Fin 2) (ok : Bool) : s.setVexcOk r ok = { s with rails := s.rails.setVexc r ok } := by
  unfold State.setVexcOk Rails.setVexc
  split <;> rfl

theorem State.Measured.setVexcOk (h : s.Measured r mv x t) (ok : Bool) : s.Measured r mv (x.setVexc r ok) (t.setVexcOk r ok) := by
  obtain ⟨hKept, hRails, hPage, hHalf, hOthers, hLevel⟩ := h
  rw [State.setVexcOk_eq]
  exact ⟨hKept, congrArg (Rails.setVexc · r ok) hRails, hPage, hHalf, hOthers, hLevel⟩

theorem State.Measured.railCond (h : s.Measured r mv x t) (high v : Bool) : s.Measured r mv x (t.railCond r high v) := by
  have hApart := t.railCond_apart r high v
  have hRest := State.offRail_of_apart hApart
  obtain ⟨hMv, hFram, hCfg, hRails⟩ := State.fields_of_offRail hRest
  have hExc := State.exc_of_apart hApart
  obtain ⟨hMvT, hFramT, hCfgT⟩ := h.kept
  refine ⟨⟨hMv.trans hMvT, hFram.trans hFramT, hCfg.trans hCfgT⟩, hRails.trans h.rails,
    (State.powered_of_offRail hRest _).trans h.page, (State.halfOn_of_offRail hRest _).trans h.half, ?_, ?_⟩
  · rw [hExc]
    exact h.others
  · rw [hExc]
    exact h.level

/-- What the two bridges of a rail and the others are after a trip of the rail. -/
theorem State.Measured.tripRail (h : s.Measured r mv x t) (n : Fin 4) :
    (n = (railExc r).1 ∨ n = (railExc r).2 → (s.exc[n]).st.delivers →
      ((t.tripRail r).exc[n]).st = .tripped ∧ ((t.tripRail r).exc[n]).lvlNow = 0) ∧
    (n ≠ (railExc r).1 → n ≠ (railExc r).2 → (t.tripRail r).exc[n] = s.exc[n]) := by
  have hTrip := t.tripRail_railTrip r
  refine ⟨fun hn hOn => hTrip.own n hn ?_, fun h1 h2 => (hTrip.others n h1 h2).trans (h.others n h1 h2)⟩
  rw [(h.level n).1]
  exact hOn

theorem State.Measured.tripRail_kept (h : s.Measured r mv x t) :
    ((t.tripRail r).vexcMv = vset s.vexcMv r mv ∧ (t.tripRail r).fram = s.fram ∧ (t.tripRail r).cfg = s.cfg) ∧
      (t.tripRail r).rails = x := by
  obtain ⟨hMv, hFram, hCfg, hRails⟩ := State.fields_of_offRail (t.tripRail_railTrip r).rest
  obtain ⟨hMvT, hFramT, hCfgT⟩ := h.kept
  exact ⟨⟨hMv.trans hMvT, hFram.trans hFramT, hCfg.trans hCfgT⟩, hRails.trans h.rails⟩

theorem State.Measured.liveBit (h : s.Measured r mv x t) (hp : s.powered .exc = true) (hOn : s.halfOn (railHalf r) = true)
    (high v : Bool) : (t.railCond r high v).liveBit .exc (railHalf r).copy (24 + 2 * r.val + high.toNat) = v :=
  State.railCond_liveBit (h.page.trans hp) (h.half.trans hOn) high v

theorem State.Measured.tripRail_liveBit (h : s.Measured r mv x t) (hp : s.powered .exc = true)
    (hOn : s.halfOn (railHalf r) = true) (high : Bool) :
    ((t.railCond r high true).tripRail r).liveBit .exc (railHalf r).copy (24 + 2 * r.val + high.toNat) = true :=
  (((t.railCond r high true).tripRail_railTrip r).bits _ (by omega) _).trans (h.liveBit hp hOn high true)

end

/-! ## The commands -/

theorem exec_vuv_low {mv : BitVec 16} (h : mv.toNat < 7500) (s : State) (r : Fin 2) : exec (.vuv r mv) s =
    .next ((((s.setVexc r mv.toNat).setVexcOk r false).railCond r false true).tripRail r) := if_pos h

theorem exec_vuv {mv : BitVec 16} (h : 7500 ≤ mv.toNat) (s : State) (r : Fin 2) :
    exec (.vuv r mv) s = .next (s.setVexc r mv.toNat) := if_neg (Nat.not_lt.mpr h)

theorem exec_vov_high {mv : BitVec 16} (h : 19500 < mv.toNat) (s : State) (r : Fin 2) : exec (.vov r mv) s =
    .next (((s.setVexc r mv.toNat).railCond r true true).tripRail r) := if_pos h

theorem exec_vov {mv : BitVec 16} (h : mv.toNat ≤ 19500) (s : State) (r : Fin 2) :
    exec (.vov r mv) s = .next (s.setVexc r mv.toNat) := if_neg (Nat.not_lt.mpr h)

/-- Above 7.8 V the rail counts as good again (Table 5.1). -/
def State.undervoltageOver (s : State) (r : Fin 2) (mv : Nat) : State :=
  if 7800 < mv then (s.setVexcOk r true).railCond r false false else s

/-- Below 19.0 V the overvoltage is over (Table 5.1). -/
def State.overvoltageOver (s : State) (r : Fin 2) (mv : Nat) : State :=
  if mv < 19000 then s.railCond r true false else s

theorem exec_vexcGoodAgain (s : State) (r : Fin 2) (mv : BitVec 16) : exec (.vexcGoodAgain r mv) s =
    .next (((s.setVexc r mv.toNat).undervoltageOver r mv.toNat).overvoltageOver r mv.toNat) := rfl

section
variable {r : Fin 2} {mv : Nat} {x : Rails} {s t : State}

theorem State.Measured.undervoltageOver (h : s.Measured r mv x t) :
    s.Measured r mv (if mv ≤ 7800 then x else x.setVexc r true) (t.undervoltageOver r mv) := by
  unfold State.undervoltageOver
  by_cases hMv : 7800 < mv
  · rw [if_pos hMv, if_neg (Nat.not_le.mpr hMv)]
    exact (h.setVexcOk true).railCond false false
  · rw [if_neg hMv, if_pos (Nat.not_lt.mp hMv)]
    exact h

theorem State.Measured.overvoltageOver (h : s.Measured r mv x t) : s.Measured r mv x (t.overvoltageOver r mv) := by
  unfold State.overvoltageOver
  split
  · exact h.railCond true false
  · exact h

end

theorem railVerdicts : Parts.RailVerdicts := by
  intro s r mv c own judged kept trips stays
  have hSet := s.setVexc_measured r mv.toNat
  have hVov : 25 + 2 * r.val = 24 + 2 * r.val + true.toNat := Nat.add_right_comm 24 1 _
  rw [hVov]
  refine ⟨fun hLow => ?_, fun hMv => ?_, fun hHigh => ?_, fun hMv => ?_, ?_⟩
  · have hLost := hSet.setVexcOk false
    have hJudged := hLost.railCond false true
    obtain ⟨hKept, hRails⟩ := hJudged.tripRail_kept
    exact ⟨_, exec_vuv_low hLow s r, hKept, hJudged.tripRail, hRails, fun ⟨hp, hOn⟩ => hLost.tripRail_liveBit hp hOn false⟩
  · exact ⟨_, exec_vuv hMv s r, hSet.kept, hSet.level, hSet.rails⟩
  · have hJudged := hSet.railCond true true
    obtain ⟨hKept, hRails⟩ := hJudged.tripRail_kept
    exact ⟨_, exec_vov_high hHigh s r, hKept, hJudged.tripRail, hRails, fun ⟨hp, hOn⟩ => hSet.tripRail_liveBit hp hOn true⟩
  · exact ⟨_, exec_vov hMv s r, hSet.kept, hSet.level, hSet.rails⟩
  · have hUnder := hSet.undervoltageOver
    have hOver := hUnder.overvoltageOver
    refine ⟨_, exec_vexcGoodAgain s r mv, hOver.kept, hOver.level, hOver.rails, fun ⟨hp, hOn⟩ => ⟨fun hMv => ?_, fun hMv => ?_⟩⟩
    · have hBack := (hSet.setVexcOk true).liveBit hp hOn false false
      have hStays : ((s.setVexc r mv.toNat).undervoltageOver r mv.toNat).KeepsBit .exc (24 + 2 * r.val)
          (((s.setVexc r mv.toNat).undervoltageOver r mv.toNat).overvoltageOver r mv.toNat) := by
        unfold State.overvoltageOver
        split
        · exact State.railCond_keepsBit _ (Nat.ne_of_lt (Nat.lt_succ_self _)) false
        · exact .refl _
      rw [hStays]
      unfold State.undervoltageOver
      rw [if_pos hMv]
      exact hBack
    · unfold State.overvoltageOver
      rw [if_pos hMv]
      exact hUnder.liveBit hp hOn true false

end Sys2Proof.Machine
end

section
/-! PROOFS. One evaluation of the adaptive loop (R61 to R63): each domain makes its step from its own code and run. -/

namespace Sys2Proof.Machine

/-- The state without the set-points, the counted evaluations and what a report changes: all that the loop's step of a domain goes
by, but for the domain's own code and run. -/
def State.offLoop (s : State) : State :=
  State.quiet { s with sys := { s.sys with avsCode := Vector.replicate 5 0, avsHigh := Vector.replicate 5 0 } }

/-- From `s` to `t` at most the set-point and the run of regulator `x` change, and its AVS_CEIL, besides what a report changes. -/
structure State.LoopStep (x : VDom) (s t : State) : Prop where
  rest : t.offLoop = s.offLoop
  codes : ∀ y, y ≠ x → t.sys.avsCode[VDom.num y] = s.sys.avsCode[VDom.num y] ∧ t.sys.avsHigh[VDom.num y] = s.sys.avsHigh[VDom.num y]
  bits : ∀ y, y ≠ x → s.KeepsBit .sys (15 + 4 * (VDom.num y).val) t

theorem VDom.num_injective {x y : VDom} (h : VDom.num x = VDom.num y) : x = y := by
  revert h
  cases x <;> cases y <;> decide

section
variable {s t : State}

theorem State.offLoop_of_quiet (h : t.quiet = s.quiet) : t.offLoop = s.offLoop := by
  have hc := congrArg (fun u : State =>
    { u with sys := { u.sys with avsCode := Vector.replicate 5 0, avsHigh := Vector.replicate 5 0 } }) h
  exact hc

theorem State.monitoring_of_offLoop (h : t.offLoop = s.offLoop) : t.monitoring = s.monitoring := by
  have hc := congrArg State.monitoring h
  exact hc

theorem State.vdomOn_of_offLoop (h : t.offLoop = s.offLoop) (x : VDom) : t.vdomOn x = s.vdomOn x := by
  have hc := congrArg (State.vdomOn · x) h
  cases x <;> exact hc

theorem State.dvfs_of_offLoop (h : t.offLoop = s.offLoop) : t.pwr.dvfs = s.pwr.dvfs := by
  have hc := congrArg (·.pwr.dvfs) h
  exact hc

theorem State.vNominal_of_offLoop (h : t.offLoop = s.offLoop) (x : VDom) : t.vNominal x = s.vNominal x := by
  have hc := congrArg (State.vNominal · x) h
  cases x <;> exact hc

theorem State.avsWord_of_offLoop (h : t.offLoop = s.offLoop) : t.avsWord = s.avsWord := by
  have hc := congrArg State.avsWord h
  exact hc

end

theorem State.setCode_loopStep (s : State) (x : VDom) (code high : Nat) : s.LoopStep x (s.setCode x code high) := by
  refine ⟨rfl, fun y hy => ?_, fun _ _ => .of_flt rfl⟩
  have hNum : VDom.num y ≠ VDom.num x := fun h => hy (VDom.num_injective h)
  exact ⟨vset_other _ _ _ _ hNum, vset_other _ _ _ _ hNum⟩

/-- AVS_CEIL of regulator `x` as the step leaves it. -/
def State.avsCeil (s : State) (x : VDom) (v : Bool) : State := s.cond .sys (15 + 4 * (VDom.num x).val) (VDom.copy x) v

theorem State.avsCeil_sys (s : State) (x : VDom) (v : Bool) : (s.avsCeil x v).sys = s.sys :=
  State.sys_of_quiet (State.cond_quiet _ _ _ _ _)

theorem State.avsCeil_loopStep (s : State) (x : VDom) (v : Bool) : s.LoopStep x (s.avsCeil x v) := by
  refine ⟨State.offLoop_of_quiet (State.cond_quiet _ _ _ _ _), fun y _ => ?_, fun y hy => State.cond_keepsBit _ (.inr ?_) _ _⟩
  · rw [State.avsCeil_sys]
    exact ⟨rfl, rfl⟩
  · have hNum : (VDom.num y).val ≠ (VDom.num x).val := fun h => hy (VDom.num_injective (Fin.ext h))
    omega

theorem State.LoopStep.refl (s : State) (x : VDom) : s.LoopStep x s := ⟨rfl, fun _ _ => ⟨rfl, rfl⟩, fun _ _ => .refl s⟩

theorem State.LoopStep.trans {s t u : State} {x : VDom} (h : s.LoopStep x t) (k : t.LoopStep x u) : s.LoopStep x u :=
  ⟨k.rest.trans h.rest, fun y hy => ⟨(k.codes y hy).1.trans (h.codes y hy).1, (k.codes y hy).2.trans (h.codes y hy).2⟩,
    fun y hy => (h.bits y hy).trans (k.bits y hy)⟩

/-! ## The step of one domain, by its cases -/

section
variable {s : State} {x : VDom}

/-- The loop acts on the regulator (R62). -/
theorem State.avsFrozen_iff : s.avsFrozen x = true ↔ s.vdomOn x = false ∨ (x = .core ∧ s.pwr.dvfs.isSome = true) := by
  simp [State.avsFrozen]

theorem State.avsDomain_frozen (h : s.avsFrozen x = true) (g : Margin) : s.avsDomain x g = s := if_pos h

theorem State.avsDomain_nominal (h : s.avsFrozen x = false) (hOff : s.avsWord.bit 0 = false) (g : Margin) :
    s.avsDomain x g = (s.setCode x (s.vNominal x) 0).avsCeil x false := by
  unfold State.avsDomain State.avsOn
  simp only [h, hOff, Bool.false_eq_true, if_false, Bool.not_false, if_true]
  rfl

theorem avsStep_ceil (lo hi code high : Nat) (g : Margin) :
    (avsStep lo hi code high g).2.2 = decide (g = .low ∧ hi ≤ code) := by
  cases g
  case low => simp [avsStep]
  case mid => simp [avsStep]
  case high =>
    unfold avsStep
    dsimp only
    split <;> simp

theorem avsStep_high_run {lo hi code high : Nat} (h : high ≠ 15) :
    avsStep lo hi code high .high = (clampNat lo hi code, high + 1, false) := if_neg (by omega)

theorem avsStep_high_last {lo hi code high : Nat} (h : high = 15) :
    avsStep lo hi code high .high = (clampNat lo hi (code - 1), 0, false) := if_pos (by omega)

/-- The step that the margin asks for (R61). -/
def State.avsMove (s : State) (x : VDom) (g : Margin) : Nat × Nat × Bool :=
  avsStep (s.avsLo x) (s.avsHi x) s.sys.avsCode[VDom.num x] s.sys.avsHigh[VDom.num x] g

theorem State.avsDomain_step (h : s.avsFrozen x = false) (hOn : s.avsWord.bit 0 = true) (g : Margin) :
    s.avsDomain x g = (s.setCode x (s.avsMove x g).1 (s.avsMove x g).2.1).avsCeil x (s.avsMove x g).2.2 := by
  unfold State.avsDomain State.avsOn
  simp only [h, hOn, Bool.false_eq_true, if_false, Bool.not_true]
  rfl

theorem State.avsDomain_loopStep (s : State) (x : VDom) (g : Margin) : s.LoopStep x (s.avsDomain x g) := by
  cases h : s.avsFrozen x
  case true =>
    rw [State.avsDomain_frozen h]
    exact .refl s x
  cases hOn : s.avsWord.bit 0
  case false =>
    rw [State.avsDomain_nominal h hOn]
    exact (s.setCode_loopStep x _ _).trans (State.avsCeil_loopStep _ x _)
  case true =>
    rw [State.avsDomain_step h hOn]
    exact (s.setCode_loopStep x _ _).trans (State.avsCeil_loopStep _ x _)

/-- Code and run of regulator `x`. -/
def State.codeRun (s : State) (x : VDom) : Nat × Nat := (s.sys.avsCode[VDom.num x], s.sys.avsHigh[VDom.num x])

theorem State.setCode_codeRun (s : State) (x : VDom) (code high : Nat) (v : Bool) :
    ((s.setCode x code high).avsCeil x v).codeRun x = (code, high) := by
  unfold State.codeRun
  rw [State.avsCeil_sys]
  exact Prod.ext (vset_same _ _ _) (vset_same _ _ _)

end

/-! ## The five domains, one after the other -/

/-- The evaluations `l`, one after the other. -/
def State.avsRun (s : State) (l : List (VDom × Margin)) : State := l.foldl (fun t e => t.avsDomain e.1 e.2) s

/-- A domain evaluated once starts from its own code and run, and keeps what its step left. -/
theorem State.avsRun_own {l : List (VDom × Margin)} (hl : (l.map Prod.fst).Nodup) (s : State) {x : VDom} {g : Margin}
    (hx : (x, g) ∈ l) : ∃ u : State, u.offLoop = s.offLoop ∧ u.codeRun x = s.codeRun x ∧
      (s.avsRun l).codeRun x = (u.avsDomain x g).codeRun x ∧
      (u.avsDomain x g).KeepsBit .sys (15 + 4 * (VDom.num x).val) (s.avsRun l) := by
  have hKeep (l : List (VDom × Margin)) (s : State) (hx : x ∉ l.map Prod.fst) :
      (s.avsRun l).codeRun x = s.codeRun x ∧ s.KeepsBit .sys (15 + 4 * (VDom.num x).val) (s.avsRun l) := by
    refine List.foldlRecOn (motive := fun t => t.codeRun x = s.codeRun x ∧ s.KeepsBit .sys (15 + 4 * (VDom.num x).val) t) l _
      ⟨rfl, .refl s⟩ fun t ht e he => ?_
    have hne : x ≠ e.1 := fun h => hx (h ▸ List.mem_map_of_mem he)
    have hStep := t.avsDomain_loopStep e.1 e.2
    obtain ⟨hCode, hHigh⟩ := hStep.codes x hne
    exact ⟨(Prod.ext hCode hHigh).trans ht.1, ht.2.trans (hStep.bits x hne)⟩
  induction l generalizing s with
  | nil => exact absurd hx List.not_mem_nil
  | cons e l ih =>
    obtain ⟨he, hl⟩ := List.nodup_cons.mp hl
    rcases List.mem_cons.mp hx with rfl | hx
    · obtain ⟨hEnd, hBits⟩ := hKeep l (s.avsDomain x g) he
      exact ⟨s, rfl, rfl, hEnd, hBits⟩
    · have hne : x ≠ e.1 := fun h => he (h ▸ List.mem_map_of_mem hx)
      have hStep := s.avsDomain_loopStep e.1 e.2
      obtain ⟨hCode, hHigh⟩ := hStep.codes x hne
      obtain ⟨u, hRest, hOwn, hEnd, hBits⟩ := ih hl (s.avsDomain e.1 e.2) hx
      exact ⟨u, hRest.trans hStep.rest, hOwn.trans (Prod.ext hCode hHigh), hEnd, hBits⟩

theorem State.avsRun_offLoop (s : State) (l : List (VDom × Margin)) : (s.avsRun l).offLoop = s.offLoop :=
  List.foldlRecOn (motive := fun t : State => t.offLoop = s.offLoop) l _ rfl fun t ht e _ => (t.avsDomain_loopStep e.1 e.2).rest.trans ht

/-! ## The command -/

/-- The cycle of the evaluation: the next multiple of 4,000 that none has used (R61, assumption 59). -/
def State.avsAt (s : State) : Nat := (max s.clk.cyc s.sys.avsNext + 3999) / 4000 * 4000

/-- The clock at the evaluation's instant. -/
def State.avsStarted (s : State) : State :=
  { s.waitTill s.avsAt with sys := { s.sys with avsNext := s.avsAt + 1 } }

/-- The five domains with their margins. -/
def Margins.list (m : Margins) : List (VDom × Margin) :=
  [(.h0, m.h0), (.h1, m.h1), (.core, m.core), (.mem, m.mem), (.net, m.net)]

theorem exec_avsEval {s : State} (h : s.monitoring = true) (m : Margins) :
    exec (.avsEval m) s = .next (s.avsStarted.avsRun (Margins.list m)) := if_pos h

/-- All of the state but what reports change, by what the loop leaves alone and the codes it has set. -/
theorem State.quiet_of_offLoop {s t : State} (h : t.offLoop = s.offLoop) :
    t.quiet = ({ s with sys := { s.sys with avsCode := t.sys.avsCode, avsHigh := t.sys.avsHigh } } : State).quiet := by
  have hc := congrArg (fun u : State => { u with sys := { u.sys with avsCode := t.sys.avsCode, avsHigh := t.sys.avsHigh } }) h
  exact hc

theorem State.clk_of_offLoop {s t : State} (h : t.offLoop = s.offLoop) : t.clk = s.clk := by
  have hc := congrArg State.clk h
  exact hc

theorem State.avsFrozen_of_offLoop {s t : State} (h : t.offLoop = s.offLoop) (x : VDom) : t.avsFrozen x = s.avsFrozen x := by
  unfold State.avsFrozen
  rw [State.vdomOn_of_offLoop h, State.dvfs_of_offLoop h]

/-- The step that a margin asks for goes by the domain's own code and run, and by what the loop leaves alone. -/
theorem State.avsMove_of_offLoop {s t : State} (h : t.offLoop = s.offLoop) {x : VDom} (hOwn : t.codeRun x = s.codeRun x)
    (g : Margin) : t.avsMove x g = s.avsMove x g := by
  obtain ⟨hCode, hHigh⟩ := Prod.ext_iff.mp hOwn
  change t.sys.avsCode[VDom.num x] = s.sys.avsCode[VDom.num x] at hCode
  change t.sys.avsHigh[VDom.num x] = s.sys.avsHigh[VDom.num x] at hHigh
  unfold State.avsMove State.avsLo State.avsHi
  rw [State.vNominal_of_offLoop h, State.avsWord_of_offLoop h, hCode, hHigh]

theorem State.avsCeil_liveBit {s : State} (h : s.monitoring = true) (x : VDom) (v : Bool) :
    (s.avsCeil x v).liveBit .sys (VDom.copy x) (15 + 4 * (VDom.num x).val) = v := by
  have hNum : 15 + 4 * (VDom.num x).val < 32 := by
    have := (VDom.num x).isLt
    omega
  exact State.cond_liveBit (s.powered_sys.trans h) hNum rfl rfl _ _

theorem State.avsStarted_cyc (s : State) : s.avsStarted.clk.cyc = s.avsAt := by
  have hAt : s.clk.cyc ≤ s.avsAt := by
    unfold State.avsAt
    omega
  exact State.waitTill_cyc hAt

/-- One evaluation, from the step that each domain makes alone. -/
theorem avsRun_steps {s : State} (hMon : s.monitoring = true) (m : Margins) {x : VDom} {g : Margin} (h : (x, g) ∈ Margins.list m) :
    let t := s.avsStarted.avsRun (Margins.list m)
    (s.avsFrozen x = true → t.codeRun x = s.codeRun x) ∧
    (s.avsFrozen x = false →
      (s.avsWord.bit 0 = false → t.codeRun x = (s.vNominal x, 0)) ∧
      (s.avsWord.bit 0 = true → t.codeRun x = ((s.avsMove x g).1, (s.avsMove x g).2.1) ∧
        t.liveBit .sys (VDom.copy x) (15 + 4 * (VDom.num x).val) = (s.avsMove x g).2.2)) := by
  intro t
  have hNodup : ((Margins.list m).map Prod.fst).Nodup := by
    simp [Margins.list]
  obtain ⟨u, hSame, hOwn, hEnd, hBits⟩ := s.avsStarted.avsRun_own hNodup h
  have hMonU : u.monitoring = true := (State.monitoring_of_offLoop hSame).trans hMon
  have hFrozen : u.avsFrozen x = s.avsFrozen x := State.avsFrozen_of_offLoop hSame x
  have hWord : u.avsWord = s.avsWord := (State.avsWord_of_offLoop hSame).trans rfl
  have hNom : u.vNominal x = s.vNominal x := (State.vNominal_of_offLoop hSame x).trans (by cases x <;> rfl)
  have hMove : u.avsMove x g = s.avsMove x g := (State.avsMove_of_offLoop hSame hOwn g).trans (by cases x <;> rfl)
  refine ⟨fun hFix => ?_, fun hActs => ⟨fun hOff => ?_, fun hOn => ⟨?_, ?_⟩⟩⟩
  · rw [hEnd, State.avsDomain_frozen (hFrozen.trans hFix), hOwn]
    rfl
  · rw [hEnd, State.avsDomain_nominal (hFrozen.trans hActs) (hWord ▸ hOff), State.setCode_codeRun, hNom]
  · rw [hEnd, State.avsDomain_step (hFrozen.trans hActs) (hWord ▸ hOn), State.setCode_codeRun, hMove]
  · rw [hBits, State.avsDomain_step (hFrozen.trans hActs) (hWord ▸ hOn),
      State.avsCeil_liveBit (s := u.setCode x _ _) hMonU, hMove]

theorem avsEvaluation : Parts.AvsEvaluation := by
  intro s m hMon
  have hRest := s.avsStarted.avsRun_offLoop (Margins.list m)
  have hClk : (s.avsStarted.avsRun (Margins.list m)).clk = s.avsStarted.clk := State.clk_of_offLoop hRest
  have hCyc : (s.avsStarted.avsRun (Margins.list m)).clk.cyc = s.avsAt := by rw [hClk, State.avsStarted_cyc]
  refine ⟨_, exec_avsEval hMon m, ?_, ?_, ?_, ?_, fun x g hxg => ?_⟩
  · rw [hCyc]
    exact Nat.mul_mod_left _ _
  · rw [hCyc]
    unfold State.avsAt
    omega
  · rw [hCyc]
    unfold State.avsAt
    omega
  · rw [State.quiet_of_offLoop hRest, hCyc, hClk]
    rfl
  have hMem : (x, g) ∈ Margins.list m := by
    simpa [Margins.list] using hxg
  obtain ⟨hFix, hActs⟩ := avsRun_steps hMon m hMem
  intro i nom up dn code run goes
  have hGoes {c k : Nat} (h : (s.avsStarted.avsRun (Margins.list m)).codeRun x = (c, k)) : goes c k := Prod.ext_iff.mp h
  refine ⟨fun hFrozen => hGoes (hFix (State.avsFrozen_iff.mpr hFrozen)), fun hDom hCore => ?_⟩
  have hFree : s.avsFrozen x = false := by
    rw [← Bool.not_eq_true, State.avsFrozen_iff]
    rintro (hOff | ⟨rfl, hDvfs⟩)
    · exact Bool.false_ne_true (hOff.symm.trans hDom)
    · rw [hCore.resolve_left fun h => h rfl] at hDvfs
      exact Bool.false_ne_true hDvfs
  obtain ⟨hNominal, hLoop⟩ := hActs hFree
  refine ⟨fun hOff => hGoes (hNominal hOff), fun hOn => ?_⟩
  obtain ⟨hStep, hCeil⟩ := hLoop hOn
  have hMove : s.avsMove x g = avsStep dn up code run g := rfl
  rw [hMove] at hStep hCeil
  rw [avsStep_ceil] at hCeil
  refine ⟨?_, ?_, ?_, ?_, hCeil⟩
  · rintro rfl
    exact hGoes hStep
  · rintro rfl
    exact hGoes hStep
  · rintro rfl hRun
    rw [avsStep_high_run hRun] at hStep
    exact hGoes hStep
  · rintro rfl hRun
    rw [avsStep_high_last hRun] at hStep
    exact hGoes hStep

/-- Settles O11: the supplies that return, the analogue supplies lost, the verdicts on VEXC_n and the evaluation of the
adaptive loop, each a theorem of its own above. -/
theorem supplyAndAdaptiveLoop : Obligations.SupplyAndAdaptiveLoop :=
  ⟨suppliesReturn, analogueSupplyLost, railVerdicts, avsEvaluation⟩

end Sys2Proof.Machine
end

section
/-! PROOFS. What no command changes, or only a few: the commands that wait, the ordering code, the FRAM, and the rails that
count as good (R56, R74, R90, R98, R100, R103). One lemma per command says what it does to these four. -/

namespace Sys2Proof.Machine

/-- What hardly any command changes: the commands that wait, the ordering code, the FRAM and the rails that count as good. -/
def Base.fixed (b : Base) : List Instr × Bool × List Host.Cell × Rails := (b.pending, b.qb, b.fram, b.rails)

/-- That part of the state a meaning leads to. -/
def Done.fixed : Done → Option (List Instr × Bool × List Host.Cell × Rails)
  | .next t => some t.base.fixed
  | _ => none

@[simp] theorem Done.fixed_next (t : State) : Done.fixed (.next t) = some t.base.fixed := rfl

@[simp] theorem Done.fixed_finish (r : Status × State) : Done.fixed (finish r) = some r.2.base.fixed := rfl

@[simp] theorem Done.fixed_ite (c : Prop) [Decidable c] (a b : Done) :
    Done.fixed (if c then a else b) = if c then Done.fixed a else Done.fixed b := apply_ite _ _ _ _

@[simp] theorem Base.fixed_ite (c : Prop) [Decidable c] (a b : Base) :
    (if c then a else b).fixed = if c then a.fixed else b.fixed := apply_ite _ _ _ _

/-- Neither the credit ledger nor the release belongs to it. -/
@[simp] theorem Base.fixed_ledger (b : Base) (f : Fin 64 → Nat) : Base.fixed { b with led := f } = b.fixed := rfl

@[simp] theorem Base.fixed_mk (b : Base) (f : Fin 64 → Nat) (r : Bool) :
    Base.fixed ⟨b.pending, b.qb, b.fram, f, b.rails, r⟩ = b.fixed := rfl

@[simp] theorem Base.fixed_state (s : State) (f : Fin 64 → Nat) (r : Bool) :
    Base.fixed ⟨s.pending, s.qb, s.fram, f, s.rails, r⟩ = s.base.fixed := rfl

@[simp] theorem Done.fixed_thenDomains (o : Done) : (thenDomains o).fixed = o.fixed := by
  cases o <;> simp [thenDomains]

section
variable (s : State)

/-! ## Supplies and resets (R56, R71 to R76, R103) -/

theorem execSupplyGood_fixed (r : Rail) :
    Done.fixed (execSupplyGood r s) = some (s.pending, s.qb, s.fram, s.rails.set r true) := by
  have hBase : Base.fixed { s.base with rails := s.rails.set r true } = (s.pending, s.qb, s.fram, s.rails.set r true) := rfl
  rw [← hBase]
  cases r <;> simp [execSupplyGood] <;> rfl

theorem State.deviceReset_fixed (c : Nat) : (s.deviceReset c).base.fixed = (s.pending, s.qb, s.framCut.1, s.rails) := by
  rw [State.deviceReset_base]
  rfl

theorem State.vddaJudge_fixed (h : Half) : (s.vddaJudge h).base.fixed = (s.pending, s.qb, s.fram, s.rails) := by
  rw [State.vddaJudge_base]
  rfl

/-- The loss of a rail leaves the FRAM as it is, or cuts what is being written (R56, R57, R74). -/
theorem execSupplyLost_fixed (r : Rail) : ∃ m, (m = s.fram ∨ m = (s.railLost r).framCut.1) ∧
    Done.fixed (execSupplyLost r s) = some (s.pending, s.qb, m, s.rails.set r false) := by
  cases r with
  | vaon => exact ⟨_, .inr rfl, congrArg some ((s.railLost .vaon).deviceReset_fixed 0)⟩
  | vio => exact ⟨_, .inr rfl, congrArg some ((s.railLost .vio).deviceReset_fixed 3)⟩
  | vpre => exact ⟨_, .inr rfl, congrArg some ((s.railLost .vpre).deviceReset_fixed 4)⟩
  | vdda0 => exact ⟨_, .inl rfl, congrArg some ((s.railLost .vdda0).vddaJudge_fixed .h0)⟩
  | vdda1 => exact ⟨_, .inl rfl, congrArg some ((s.railLost .vdda1).vddaJudge_fixed .h1)⟩

theorem execPinReset_fixed : Done.fixed (execPinReset s) = some (s.pending, s.qb, s.framCut.1, s.rails) :=
  congrArg some (s.deviceReset_fixed 1)

@[simp] theorem execSwrstKey_fixed : Done.fixed (execSwrstKey s) = some s.base.fixed := by simp [execSwrstKey]

/-- A software reset that is not owed changes nothing (R73). -/
theorem execSoftwareReset_fixed_none (h : s.sys.swrstAt = none) : Done.fixed (execSoftwareReset s) = some s.base.fixed := by
  rw [execSoftwareReset, h]
  rfl

theorem execSoftwareReset_fixed_some {c : Nat} (h : s.sys.swrstAt = some c) :
    Done.fixed (execSoftwareReset s) = some (s.pending, s.qb, (s.waitTill c).framCut.1, s.rails) := by
  rw [execSoftwareReset, h]
  exact congrArg some ((s.waitTill c).deviceReset_fixed 2)

@[simp] theorem execInternalResetEnd_fixed : Done.fixed (execInternalResetEnd s) = some s.base.fixed := by
  simp [execInternalResetEnd]

theorem execVuv_fixed (rail : Fin 2) (mv : BitVec 16) :
    ∃ g, Done.fixed (execVuv rail mv s) = some (s.pending, s.qb, s.fram, g) := by
  unfold execVuv
  dsimp only
  split
  · rw [Done.fixed_next, State.tripRail_base, State.railCond_base, State.setVexcOk_base, State.setVexc_base]
    exact ⟨_, rfl⟩
  · rw [Done.fixed_next, State.setVexc_base]
    exact ⟨_, rfl⟩

@[simp] theorem execVov_fixed (rail : Fin 2) (mv : BitVec 16) : Done.fixed (execVov rail mv s) = some s.base.fixed := by
  simp [execVov]

/-! ## Clocks and regulators (R60 to R70) -/

@[simp] theorem execRefLoss_fixed (h : Half) : Done.fixed (execRefLoss h s) = some s.base.fixed := by simp [execRefLoss]

@[simp] theorem execRefFreq_fixed (h : Half) (edges : Nat) : Done.fixed (execRefFreq h edges s) = some s.base.fixed := by
  simp [execRefFreq]

@[simp] theorem execTclkFreq_fixed (h : Half) (cycles : Nat) : Done.fixed (execTclkFreq h cycles s) = some s.base.fixed := by
  simp [execTclkFreq]

@[simp] theorem execTpllUnlock_fixed : Done.fixed (execTpllUnlock s) = some s.base.fixed := by simp [execTpllUnlock]

@[simp] theorem execSpllUnlock_fixed : Done.fixed (execSpllUnlock s) = some s.base.fixed := by simp [execSpllUnlock]

@[simp] theorem execRcFail_fixed (h : Half) (refAgrees tclkAgrees : Bool) :
    Done.fixed (execRcFail h refAgrees tclkAgrees s) = some s.base.fixed := by simp [execRcFail]

@[simp] theorem execRegUv_fixed (x : VDom) (outUv : Nat) : Done.fixed (execRegUv x outUv s) = some s.base.fixed := by
  simp [execRegUv]

@[simp] theorem execRegOv_fixed (x : VDom) (outUv : Nat) : Done.fixed (execRegOv x outUv s) = some s.base.fixed := by
  simp [execRegOv]

@[simp] theorem execCpmFail_fixed (x : VDom) (meets : Bool) : Done.fixed (execCpmFail x meets s) = some s.base.fixed := by
  simp [execCpmFail]

@[simp] theorem execAvsEval_fixed (m : Margins) : Done.fixed (execAvsEval m s) = some s.base.fixed := by simp [execAvsEval]

@[simp] theorem execRtcXtal_fixed : Done.fixed (execRtcXtal s) = some s.base.fixed := by simp [execRtcXtal]

@[simp] theorem execRtcXtalRestore_fixed : Done.fixed (execRtcXtalRestore s) = some s.base.fixed := by
  simp [execRtcXtalRestore]

/-! ## Boot, download and store (R83 to R100) -/

@[simp] theorem execHeaderReadDone_fixed : Done.fixed (execHeaderReadDone s) = some s.base.fixed := by
  simp [execHeaderReadDone]

@[simp] theorem execBistPhaseEnd_fixed (bankLo bankHi logic : BistRun) :
    Done.fixed (execBistPhaseEnd bankLo bankHi logic s) = some s.base.fixed := by simp [execBistPhaseEnd]

@[simp] theorem execBodyReadDone_fixed : Done.fixed (execBodyReadDone s) = some s.base.fixed := by simp [execBodyReadDone]

@[simp] theorem execSramInitDone_fixed : Done.fixed (execSramInitDone s) = some s.base.fixed := by simp [execSramInitDone]

@[simp] theorem execRegWriteRecord_fixed : Done.fixed (execRegWriteRecord s) = some s.base.fixed := by
  simp [execRegWriteRecord]

@[simp] theorem execRegMaskRecord_fixed : Done.fixed (execRegMaskRecord s) = some s.base.fixed := by simp [execRegMaskRecord]

@[simp] theorem execRegSeqRecord_fixed : Done.fixed (execRegSeqRecord s) = some s.base.fixed := by simp [execRegSeqRecord]

@[simp] theorem execSramLoadRecord_fixed : Done.fixed (execSramLoadRecord s) = some s.base.fixed := by
  simp [execSramLoadRecord]

@[simp] theorem execSramFillRecord_fixed : Done.fixed (execSramFillRecord s) = some s.base.fixed := by
  simp [execSramFillRecord]

@[simp] theorem execAuthInitRecord_fixed : Done.fixed (execAuthInitRecord s) = some s.base.fixed := by
  simp [execAuthInitRecord]

@[simp] theorem execEndRecord_fixed : Done.fixed (execEndRecord s) = some s.base.fixed := by
  simp [execEndRecord, State.foldl_base]

@[simp] theorem execConvCalDone_fixed (pchFail : BitVec 8) (auxFail : BitVec 2) (trims : Vector TrimVals 8) :
    Done.fixed (execConvCalDone pchFail auxFail trims s) = some s.base.fixed := by simp [execConvCalDone, State.foldl_base]

@[simp] theorem execStoreKey_fixed : Done.fixed (execStoreKey s) = some s.base.fixed := by simp [execStoreKey]

theorem execCalStoreDone_fixed (latchSet readOk : Bool) :
    ∃ f, Done.fixed (execCalStoreDone latchSet readOk s) = some (s.pending, s.qb, f, s.rails) := by
  unfold execCalStoreDone
  split
  · exact ⟨_, rfl⟩
  dsimp only
  split
  · rw [Done.fixed_next, State.storeRecord_base, State.event_base]
    exact ⟨_, rfl⟩
  split
  · rw [Done.fixed_next, State.storeRecord_base]
    exact ⟨_, rfl⟩
  · rw [Done.fixed_next, State.storeRecord_base, State.event_base, State.draw_base]
    exact ⟨_, rfl⟩

@[simp] theorem execDlKeyApply_fixed : Done.fixed (execDlKeyApply s) = some s.base.fixed := by simp [execDlKeyApply]

@[simp] theorem execDlKeyProgram_fixed : Done.fixed (execDlKeyProgram s) = some s.base.fixed := by simp [execDlKeyProgram]

theorem execFramProgDone_fixed (ok : Bool) :
    ∃ f, Done.fixed (execFramProgDone ok s) = some (s.pending, s.qb, f, s.rails) := by
  unfold execFramProgDone
  split
  · dsimp only
    split
    · rw [Done.fixed_next, State.beginApply_base]
      exact ⟨_, rfl⟩
    · rw [Done.fixed_next, State.enterHold_base, State.draw_base]
      exact ⟨_, rfl⟩
  · exact ⟨_, rfl⟩

/-! ## Excitation (R102 to R120) -/

@[simp] theorem execExcEnable_fixed (n : Fin 4) : Done.fixed (execExcEnable n s) = some s.base.fixed := by
  simp [execExcEnable]

@[simp] theorem execExcDisable_fixed (n : Fin 4) : Done.fixed (execExcDisable n s) = some s.base.fixed := by
  simp [execExcDisable]

@[simp] theorem execExcRestart_fixed (n : Fin 4) : Done.fixed (execExcRestart n s) = some s.base.fixed := by
  simp [execExcRestart]

@[simp] theorem execExcFreqWrite_fixed (n : Fin 4) (v : Word) : Done.fixed (execExcFreqWrite n v s) = some s.base.fixed := by
  simp [execExcFreqWrite]

@[simp] theorem execExcPhaseWrite_fixed (n : Fin 4) (v : Word) :
    Done.fixed (execExcPhaseWrite n v s) = some s.base.fixed := by simp [execExcPhaseWrite]

@[simp] theorem execExcAmpWrite_fixed (n : Fin 4) (v : Word) : Done.fixed (execExcAmpWrite n v s) = some s.base.fixed := by
  simp [execExcAmpWrite]

@[simp] theorem execExcModeWrite_fixed (n : Fin 4) (closed : Bool) :
    Done.fixed (execExcModeWrite n closed s) = some s.base.fixed := by simp [execExcModeWrite]

@[simp] theorem execCarrierZeroCrossing_fixed (n : Fin 4) (m : ExcMeas) :
    Done.fixed (execCarrierZeroCrossing n m s) = some s.base.fixed := by
  unfold execCarrierZeroCrossing
  split
  · rfl
  · dsimp only
    split <;> simp [State.foldl_base]

@[simp] theorem execExcSettleEnd_fixed (n : Fin 4) : Done.fixed (execExcSettleEnd n s) = some s.base.fixed := by
  simp [execExcSettleEnd]

@[simp] theorem execExcRampEnd_fixed (n : Fin 4) : Done.fixed (execExcRampEnd n s) = some s.base.fixed := by
  unfold execExcRampEnd
  dsimp only
  split
  · rfl
  · split <;> simp

@[simp] theorem execOc_fixed (e : LegPeaks) : Done.fixed (execOc e s) = some s.base.fixed := by simp [execOc]

@[simp] theorem execOpenLoad_fixed (n : Fin 4) : Done.fixed (execOpenLoad n s) = some s.base.fixed := by simp [execOpenLoad]

@[simp] theorem execImbal_fixed (n : Fin 4) : Done.fixed (execImbal n s) = some s.base.fixed := by simp [execImbal]

@[simp] theorem execOts_fixed (n : Fin 4) (temp : BitVec 16) : Done.fixed (execOts n temp s) = some s.base.fixed := by
  simp [execOts]

@[simp] theorem execRegSat_fixed (n : Fin 4) : Done.fixed (execRegSat n s) = some s.base.fixed := by simp [execRegSat]

/-! ## Resolver channels (R131 to R176) -/

@[simp] theorem execPchEnable_fixed (n : Fin 8) : Done.fixed (execPchEnable n s) = some s.base.fixed := by
  simp [execPchEnable]

@[simp] theorem execPchDisable_fixed (n : Fin 8) : Done.fixed (execPchDisable n s) = some s.base.fixed := by
  simp [execPchDisable]

@[simp] theorem execPchCntClr_fixed (n : Fin 8) : Done.fixed (execPchCntClr n s) = some s.base.fixed := by
  simp [execPchCntClr]

@[simp] theorem execLossRearm_fixed (n : Fin 8) : Done.fixed (execLossRearm n s) = some s.base.fixed := by
  simp [execLossRearm]

@[simp] theorem execAngleTick_fixed (inp : Vector TickSamples 8) : Done.fixed (execAngleTick inp s) = some s.base.fixed := by
  simp [execAngleTick, State.foldl_base]

@[simp] theorem execCmwLoss_fixed (n : Fin 8) : Done.fixed (execCmwLoss n s) = some s.base.fixed := by simp [execCmwLoss]

@[simp] theorem execPhaseAcqDone_fixed (n : Fin 8) : Done.fixed (execPhaseAcqDone n s) = some s.base.fixed := by
  simp [execPhaseAcqDone]

@[simp] theorem execPhLock_fixed (n : Fin 8) : Done.fixed (execPhLock n s) = some s.base.fixed := by simp [execPhLock]

@[simp] theorem execLockDeclared_fixed (n : Fin 8) : Done.fixed (execLockDeclared n s) = some s.base.fixed := by
  simp [execLockDeclared]

@[simp] theorem execBwStepUp_fixed (n : Fin 8) : Done.fixed (execBwStepUp n s) = some s.base.fixed := by simp [execBwStepUp]

@[simp] theorem execBwStepDown_fixed (n : Fin 8) : Done.fixed (execBwStepDown n s) = some s.base.fixed := by
  simp [execBwStepDown]

@[simp] theorem execCoastLong_fixed (n : Fin 8) : Done.fixed (execCoastLong n s) = some s.base.fixed := by
  simp [execCoastLong]

@[simp] theorem execLol_fixed (n : Fin 8) : Done.fixed (execLol n s) = some s.base.fixed := by simp [execLol]

@[simp] theorem execOvspd_fixed (n : Fin 8) : Done.fixed (execOvspd n s) = some s.base.fixed := by simp [execOvspd]

@[simp] theorem execAcqTo_fixed (n : Fin 8) : Done.fixed (execAcqTo n s) = some s.base.fixed := by simp [execAcqTo]

@[simp] theorem execPchSectSet_fixed (n : Fin 8) (v : Word) : Done.fixed (execPchSectSet n v s) = some s.base.fixed := by
  simp [execPchSectSet]

@[simp] theorem execPchAngleRead_fixed (n : Fin 8) : Done.fixed (execPchAngleRead n s) = some s.base.fixed := by
  simp [execPchAngleRead]

@[simp] theorem execPchPredAngRead_fixed (n : Fin 8) : Done.fixed (execPchPredAngRead n s) = some s.base.fixed := by
  simp [execPchPredAngRead]

@[simp] theorem execPchPredTimeHiWrite_fixed (n : Fin 8) (v : Word) :
    Done.fixed (execPchPredTimeHiWrite n v s) = some s.base.fixed := by simp [execPchPredTimeHiWrite]

@[simp] theorem execPchPeakClr_fixed (n : Fin 8) : Done.fixed (execPchPeakClr n s) = some s.base.fixed := by
  simp [execPchPeakClr]

/-! ## Calibration and trims (R188 to R205) -/

@[simp] theorem execRevolutionEnd_fixed (n : Fin 8) : Done.fixed (execRevolutionEnd n s) = some s.base.fixed := by
  simp [execRevolutionEnd]

@[simp] theorem execLearnBlockEnd_fixed (n : Fin 8) : Done.fixed (execLearnBlockEnd n s) = some s.base.fixed := by
  simp [execLearnBlockEnd]

@[simp] theorem execSclPendingApply_fixed (n : Fin 8) : Done.fixed (execSclPendingApply n s) = some s.base.fixed := by
  simp [execSclPendingApply]

@[simp] theorem execSclCoefWrite_fixed (n : Fin 8) (reg : Fin 18) (v : Word) :
    Done.fixed (execSclCoefWrite n reg v s) = some s.base.fixed := by simp [execSclCoefWrite]

@[simp] theorem execSclApplyWrite_fixed (n : Fin 8) (v : Word) :
    Done.fixed (execSclApplyWrite n v s) = some s.base.fixed := by simp [execSclApplyWrite]

@[simp] theorem execNeutral_fixed (n : Fin 8) : Done.fixed (execNeutral n s) = some s.base.fixed := by simp [execNeutral]

@[simp] theorem execAlignWr_fixed (n : Fin 8) (v : BitVec 4) : Done.fixed (execAlignWr n v s) = some s.base.fixed := by
  simp [execAlignWr]

@[simp] theorem execTrimReq_fixed (n : Fin 8) : Done.fixed (execTrimReq n s) = some s.base.fixed := by simp [execTrimReq]

@[simp] theorem execTrimSweepStart_fixed (h : Half) : Done.fixed (execTrimSweepStart h s) = some s.base.fixed := by
  unfold execTrimSweepStart
  dsimp only
  split <;> simp

@[simp] theorem execTrimRunStart_fixed (n : Fin 8) : Done.fixed (execTrimRunStart n s) = some s.base.fixed := by
  simp [execTrimRunStart]

@[simp] theorem execTrimRunEnd_fixed (n : Fin 8) (t : TrimVals) : Done.fixed (execTrimRunEnd n t s) = some s.base.fixed := by
  unfold execTrimRunEnd
  split
  · rfl
  · dsimp only
    split <;> simp

@[simp] theorem execTrimLate_fixed (n : Fin 8) : Done.fixed (execTrimLate n s) = some s.base.fixed := by simp [execTrimLate]

/-! ## Digital channels (R206 to R228) -/

@[simp] theorem execDchEnable_fixed (n : Fin 4) : Done.fixed (execDchEnable n s) = some s.base.fixed := by
  simp [execDchEnable]

@[simp] theorem execDchDisable_fixed (n : Fin 4) : Done.fixed (execDchDisable n s) = some s.base.fixed := by
  simp [execDchDisable]

@[simp] theorem execDchTransition_fixed (n : Fin 4) (samples : Vector (BitVec 3) 16) :
    Done.fixed (execDchTransition n samples s) = some s.base.fixed := by
  unfold execDchTransition
  split <;> simp

@[simp] theorem execIndexEdge_fixed (n : Fin 4) (samples : Vector Bool 16) :
    Done.fixed (execIndexEdge n samples s) = some s.base.fixed := by simp [execIndexEdge]

@[simp] theorem execIllRate_fixed (n : Fin 4) : Done.fixed (execIllRate n s) = some s.base.fixed := by simp [execIllRate]

@[simp] theorem execHallInv_fixed (n : Fin 4) : Done.fixed (execHallInv n s) = some s.base.fixed := by
  unfold execHallInv
  split <;> simp

@[simp] theorem execRefClr_fixed (n : Fin 4) : Done.fixed (execRefClr n s) = some s.base.fixed := by simp [execRefClr]

@[simp] theorem execUncClr_fixed (n : Fin 4) : Done.fixed (execUncClr n s) = some s.base.fixed := by simp [execUncClr]

@[simp] theorem execSsiTrig_fixed (n : Fin 4) : Done.fixed (execSsiTrig n s) = some s.base.fixed := by simp [execSsiTrig]

@[simp] theorem execSsiFrameStart_fixed (n : Fin 4) : Done.fixed (execSsiFrameStart n s) = some s.base.fixed := by
  simp [execSsiFrameStart]

@[simp] theorem execSsiFrameEnd_fixed (n : Fin 4) (ready : Bool) (bits : BitVec 32) (endBit : Bool) :
    Done.fixed (execSsiFrameEnd n ready bits endBit s) = some s.base.fixed := by
  unfold execSsiFrameEnd
  split <;> simp

@[simp] theorem execSsiRecoveryEnd_fixed (n : Fin 4) : Done.fixed (execSsiRecoveryEnd n s) = some s.base.fixed := by
  unfold execSsiRecoveryEnd
  split <;> simp

@[simp] theorem execDchAngleRead_fixed (n : Fin 4) : Done.fixed (execDchAngleRead n s) = some s.base.fixed := by
  simp [execDchAngleRead]

/-! ## Cross-monitors and authority (R236 to R254) -/

@[simp] theorem execAngDiv_fixed (d : Drive) (h : Half) : Done.fixed (execAngDiv d h s) = some s.base.fixed := by
  simp [execAngDiv]

@[simp] theorem execSpdDiv_fixed (d : Drive) (h : Half) : Done.fixed (execSpdDiv d h s) = some s.base.fixed := by
  simp [execSpdDiv]

@[simp] theorem execDref_fixed (d : Drive) (h : Half) : Done.fixed (execDref d h s) = some s.base.fixed := by simp [execDref]

@[simp] theorem execCopyMis_fixed (d : Drive) : Done.fixed (execCopyMis d s) = some s.base.fixed := by simp [execCopyMis]

@[simp] theorem execOfsCap_fixed (d : Drive) : Done.fixed (execOfsCap d s) = some s.base.fixed := by simp [execOfsCap]

@[simp] theorem execOfsCapDone_fixed (d : Drive) : Done.fixed (execOfsCapDone d s) = some s.base.fixed := by
  simp [execOfsCapDone]

@[simp] theorem execAuthConflict_fixed (d : Drive) : Done.fixed (execAuthConflict d s) = some s.base.fixed := by
  rw [execAuthConflict, Done.fixed_thenDomains]
  unfold authConflict
  split <;> simp

@[simp] theorem execHandoverRequest_fixed (d : Drive) : Done.fixed (execHandoverRequest d s) = some s.base.fixed := by
  unfold execHandoverRequest
  split <;> simp

@[simp] theorem execHandoverDone_fixed (d : Drive) : Done.fixed (execHandoverDone d s) = some s.base.fixed := by
  rw [execHandoverDone, Done.fixed_thenDomains]
  unfold handoverDone
  split <;> simp

@[simp] theorem execHolderClaimLost_fixed (d : Drive) : Done.fixed (execHolderClaimLost d s) = some s.base.fixed := by
  rw [execHolderClaimLost, Done.fixed_thenDomains]
  unfold holderClaimLost
  split <;> simp

@[simp] theorem execAuthCmd_fixed (d : Drive) (dst : Half) : Done.fixed (execAuthCmd d dst s) = some s.base.fixed := by
  simp [execAuthCmd]

/-! ## Encoder outputs and angle events (R261 to R290) -/

@[simp] theorem execEncEnable_fixed (n : Fin 4) : Done.fixed (execEncEnable n s) = some s.base.fixed := by
  simp [execEncEnable]

@[simp] theorem execEncDisable_fixed (n : Fin 4) : Done.fixed (execEncDisable n s) = some s.base.fixed := by
  simp [execEncDisable]

@[simp] theorem execPreset_fixed (n : Fin 4) : Done.fixed (execPreset n s) = some s.base.fixed := by simp [execPreset]

@[simp] theorem execEncFirstPreset_fixed (n : Fin 4) : Done.fixed (execEncFirstPreset n s) = some s.base.fixed := by
  simp [execEncFirstPreset]

@[simp] theorem execEncCountStep_fixed (n : Fin 4) (dt : Nat) : Done.fixed (execEncCountStep n dt s) = some s.base.fixed := by
  simp [execEncCountStep]

@[simp] theorem execEncTargetRead_fixed (n : Fin 4) : Done.fixed (execEncTargetRead n s) = some s.base.fixed := by
  simp [execEncTargetRead]

@[simp] theorem execAevSlotStep_fixed (i : Fin 256) (dt : Nat) : Done.fixed (execAevSlotStep i dt s) = some s.base.fixed := by
  simp [execAevSlotStep]

@[simp] theorem execAevPulseEnd_fixed (n : Fin 8) : Done.fixed (execAevPulseEnd n s) = some s.base.fixed := by
  unfold execAevPulseEnd
  split <;> simp

@[simp] theorem execPredictionSwitch_fixed : Done.fixed (execPredictionSwitch s) = some s.base.fixed := by
  unfold execPredictionSwitch
  split
  · rfl
  · dsimp only
    split <;> simp [State.foldl_base]

@[simp] theorem execAevSlotStageWrite_fixed (i : Fin 256) (par : Bool) (v : Word) :
    Done.fixed (execAevSlotStageWrite i par v s) = some s.base.fixed := by simp [execAevSlotStageWrite]

@[simp] theorem execAevSlotAngWrite_fixed (i : Fin 256) (v : Word) :
    Done.fixed (execAevSlotAngWrite i v s) = some s.base.fixed := by simp [execAevSlotAngWrite]

@[simp] theorem execAevForceSet_fixed (n : Fin 8) : Done.fixed (execAevForceSet n s) = some s.base.fixed := by
  simp [execAevForceSet]

@[simp] theorem execAevForceClr_fixed (n : Fin 8) : Done.fixed (execAevForceClr n s) = some s.base.fixed := by
  simp [execAevForceClr]

@[simp] theorem execAevEnable_fixed : Done.fixed (execAevEnable s) = some s.base.fixed := by simp [execAevEnable]

@[simp] theorem execAevDisable_fixed : Done.fixed (execAevDisable s) = some s.base.fixed := by simp [execAevDisable]

@[simp] theorem execAevCntClr_fixed : Done.fixed (execAevCntClr s) = some s.base.fixed := by simp [execAevCntClr]

@[simp] theorem execPinMis_fixed (n : Fin 8) (readBack : Bool) :
    Done.fixed (execPinMis n readBack s) = some s.base.fixed := by simp [execPinMis]

@[simp] theorem execInternalTrigger_fixed : Done.fixed (execInternalTrigger s) = some s.base.fixed := by
  unfold execInternalTrigger
  split
  · rfl
  · split <;> simp

/-! ## Sigma-delta inputs (R292 to R302) -/

@[simp] theorem execSdmLatch_fixed : Done.fixed (execSdmLatch s) = some s.base.fixed := by
  unfold execSdmLatch
  split <;> simp [State.foldl_base]

@[simp] theorem execSdmDecimatedOutput_fixed : Done.fixed (execSdmDecimatedOutput s) = some s.base.fixed := by
  simp [execSdmDecimatedOutput, State.foldl_base]

@[simp] theorem execHi_fixed (n : Fin 8) (h : Half) : Done.fixed (execHi n h s) = some s.base.fixed := by simp [execHi]

@[simp] theorem execLo_fixed (n : Fin 8) (h : Half) : Done.fixed (execLo n h s) = some s.base.fixed := by simp [execLo]

@[simp] theorem execStuck_fixed (n : Fin 8) (h : Half) : Done.fixed (execStuck n h s) = some s.base.fixed := by
  simp [execStuck]

@[simp] theorem execFiltMis_fixed : Done.fixed (execFiltMis s) = some s.base.fixed := by simp [execFiltMis]

@[simp] theorem execPhsum_fixed (d : Drive) (h : Half) : Done.fixed (execPhsum d h s) = some s.base.fixed := by
  simp [execPhsum]

/-! ## Torque and safe state (R305 to R312) -/

@[simp] theorem execTqDev_fixed (d : Drive) : Done.fixed (execTqDev d s) = some s.base.fixed := by
  unfold execTqDev
  split <;> simp

@[simp] theorem execTqStale_fixed (d : Drive) : Done.fixed (execTqStale d s) = some s.base.fixed := by simp [execTqStale]

@[simp] theorem execTqCmdWrite_fixed (d : Drive) (v : Word) : Done.fixed (execTqCmdWrite d v s) = some s.base.fixed := by
  simp [execTqCmdWrite]

@[simp] theorem execRelCmd_fixed (d : Drive) : Done.fixed (execRelCmd d s) = some s.base.fixed := by simp [execRelCmd]

@[simp] theorem execRelGapEnd_fixed (d : Drive) : Done.fixed (execRelGapEnd d s) = some s.base.fixed := by
  unfold execRelGapEnd
  split <;> simp

@[simp] theorem execDisSet_fixed : Done.fixed (execDisSet s) = some s.base.fixed := by simp [execDisSet]

@[simp] theorem execDisClear_fixed : Done.fixed (execDisClear s) = some s.base.fixed := by simp [execDisClear]

@[simp] theorem execSdmPeakClr_fixed : Done.fixed (execSdmPeakClr s) = some s.base.fixed := by simp [execSdmPeakClr]

/-! ## Auxiliary converters (R321 to R333) -/

@[simp] theorem execAuxSettleEnd_fixed (c : Fin 2) : Done.fixed (execAuxSettleEnd c s) = some s.base.fixed := by
  unfold execAuxSettleEnd
  split <;> simp

@[simp] theorem execAuxConversionDone_fixed (c : Fin 2) (m : Conv) :
    Done.fixed (execAuxConversionDone c m s) = some s.base.fixed := by
  unfold execAuxConversionDone
  split <;> simp

@[simp] theorem execAuxVisitEnd_fixed (c : Fin 2) : Done.fixed (execAuxVisitEnd c s) = some s.base.fixed := by
  unfold execAuxVisitEnd
  split
  · rfl
  · split <;> simp

@[simp] theorem execLim_fixed (k : Fin 16) : Done.fixed (execLim k s) = some s.base.fixed := by simp [execLim]

@[simp] theorem execAuxSlotBlocked_fixed (k : Fin 16) : Done.fixed (execAuxSlotBlocked k s) = some s.base.fixed := by
  simp [execAuxSlotBlocked]

@[simp] theorem execSlotEnWrite_fixed (v : Word) : Done.fixed (execSlotEnWrite v s) = some s.base.fixed := by
  simp [execSlotEnWrite]

@[simp] theorem execAuxResRead_fixed (k : Fin 16) : Done.fixed (execAuxResRead k s) = some s.base.fixed := by
  simp [execAuxResRead]

/-! ## Faults and checkers (R343 to R364) -/

@[simp] theorem execFwCodeWrite_fixed (n : Fin 2) (v : Word) : Done.fixed (execFwCodeWrite n v s) = some s.base.fixed := by
  simp [execFwCodeWrite]

@[simp] theorem execBlzClr_fixed (p : Page) : Done.fixed (execBlzClr p s) = some s.base.fixed := by simp [execBlzClr]

@[simp] theorem execReactBusyEnd_fixed (p : Page) : Done.fixed (execReactBusyEnd p s) = some s.base.fixed := by
  simp [execReactBusyEnd]

@[simp] theorem execHoldoffEnd_fixed (p : Page) : Done.fixed (execHoldoffEnd p s) = some s.base.fixed := by
  unfold execHoldoffEnd
  split <;> simp

@[simp] theorem execFltForceWrite_fixed (p : Page) (v : Word) : Done.fixed (execFltForceWrite p v s) = some s.base.fixed := by
  simp [execFltForceWrite]

@[simp] theorem execStickyClear_fixed (p : Page) (v : Word) : Done.fixed (execStickyClear p v s) = some s.base.fixed := by
  simp [execStickyClear]

@[simp] theorem execChkInvWrite_fixed (p : Page) (v : Word) : Done.fixed (execChkInvWrite p v s) = some s.base.fixed := by
  simp [execChkInvWrite]

@[simp] theorem execParityError_fixed (p : Page) : Done.fixed (execParityError p s) = some s.base.fixed := by
  simp [execParityError]

@[simp] theorem execAliveEdge_fixed : Done.fixed (execAliveEdge s) = some s.base.fixed := by simp [execAliveEdge]

@[simp] theorem execTgtTmo_fixed (m : Master) (addr : Word) (isWrite : Bool) :
    Done.fixed (execTgtTmo m addr isWrite s) = some s.base.fixed := by simp [execTgtTmo]

/-! ## Cruise (R366 to R373) -/

@[simp] theorem execCruiseRoundStart_fixed : Done.fixed (execCruiseRoundStart s) = some s.base.fixed := by
  rw [execCruiseRoundStart, Done.fixed_thenDomains, cruiseRoundStart]
  simp

@[simp] theorem execRestartRnd_fixed : Done.fixed (execRestartRnd s) = some s.base.fixed := by
  rw [execRestartRnd, Done.fixed_thenDomains, restartRnd]
  simp

@[simp] theorem execCruiseRunEnd_fixed (i : Fin 15) (terminal sigOk : Bool) (detail : BitVec 24) :
    Done.fixed (execCruiseRunEnd i terminal sigOk detail s) = some s.base.fixed := by
  rw [execCruiseRunEnd, Done.fixed_thenDomains, cruiseRunEnd]
  simp

@[simp] theorem execCruiseYield_fixed (i : Fin 15) (ns : Nat) : Done.fixed (execCruiseYield i ns s) = some s.base.fixed := by
  simp [execCruiseYield]

/-! ## Time and network (R377 to R391) -/

@[simp] theorem execSyncPair_fixed (i : SyncInfo) : Done.fixed (execSyncPair i s) = some s.base.fixed := by
  simp [execSyncPair]

@[simp] theorem execTimeSlewEnd_fixed : Done.fixed (execTimeSlewEnd s) = some s.base.fixed := by
  unfold execTimeSlewEnd
  split <;> simp

@[simp] theorem execSyncLoss_fixed : Done.fixed (execSyncLoss s) = some s.base.fixed := by simp [execSyncLoss]

@[simp] theorem execTimeSet_fixed (hi : Word) : Done.fixed (execTimeSet hi s) = some s.base.fixed := by simp [execTimeSet]

@[simp] theorem execSyncRelay_fixed (p : Fin 2) (rx correction : Int) :
    Done.fixed (execSyncRelay p rx correction s) = some s.base.fixed := by simp [execSyncRelay]

@[simp] theorem execFollowUpRelay_fixed (rate : Rat) : Done.fixed (execFollowUpRelay rate s) = some s.base.fixed := by
  unfold execFollowUpRelay
  extract_lets relay
  have hRelay (t : State) (p : Fin 2) : (relay t p).base = t.base := by
    dsimp only [relay]
    split
    · split <;> simp
    · rfl
  rw [Done.fixed_next, hRelay, hRelay]

@[simp] theorem execSyncSend_fixed (p : Fin 2) : Done.fixed (execSyncSend p s) = some s.base.fixed := by
  unfold execSyncSend
  split
  · rfl
  · split <;> simp

@[simp] theorem execPdelayReqSend_fixed (p : Fin 2) : Done.fixed (execPdelayReqSend p s) = some s.base.fixed := by
  unfold execPdelayReqSend
  split
  · rfl
  · split <;> simp

@[simp] theorem execFrameReceive_fixed (p : Fin 2) (b : List Byte) (delay : Option Nat) :
    Done.fixed (execFrameReceive p b delay s) = some s.base.fixed := by simp [execFrameReceive]

@[simp] theorem execFrameForward_fixed (p : Fin 2) (b : List Byte) (fcsOk : Bool) :
    Done.fixed (execFrameForward p b fcsOk s) = some s.base.fixed := by simp [execFrameForward]

@[simp] theorem execLinkDown_fixed (p : Fin 2) : Done.fixed (execLinkDown p s) = some s.base.fixed := by simp [execLinkDown]

@[simp] theorem execLinkUp_fixed (p : Fin 2) : Done.fixed (execLinkUp p s) = some s.base.fixed := by simp [execLinkUp]

@[simp] theorem execStreamFrameBuild_fixed (k : Fin 8) : Done.fixed (execStreamFrameBuild k s) = some s.base.fixed := by
  unfold execStreamFrameBuild
  dsimp only
  split
  · rfl
  split
  · rw [Done.fixed_next, State.descRead_base]
  split
  · rw [Done.fixed_next, State.descRead_base]
  split
  · rw [Done.fixed_next, State.buildFrame_base _ _ _ _ _ (frameRecords_le _ _), State.descRead_base]
  · rw [Done.fixed_next, State.buildFrame_base, State.waitTill_base, State.descRead_base]
    exact frameRecords_le _ _

/-! ## Recorders (R392, R393) -/

@[simp] theorem execFrecEntry_fixed (n : Fin 8) (written : Bool) :
    Done.fixed (execFrecEntry n written s) = some s.base.fixed := by
  unfold execFrecEntry
  dsimp only
  split <;> simp

@[simp] theorem execFrecTrigger_fixed (n : Fin 8) (c : TrigCause) :
    Done.fixed (execFrecTrigger n c s) = some s.base.fixed := by simp [execFrecTrigger]

@[simp] theorem execFrecFreeze_fixed (n : Fin 8) : Done.fixed (execFrecFreeze n s) = some s.base.fixed := by
  simp [execFrecFreeze]

@[simp] theorem execArm_fixed (n : Fin 8) : Done.fixed (execArm n s) = some s.base.fixed := by
  rw [execArm, Done.fixed_thenDomains, armRec]
  simp

@[simp] theorem execDisarm_fixed (n : Fin 8) : Done.fixed (execDisarm n s) = some s.base.fixed := by
  rw [execDisarm, Done.fixed_thenDomains, disarmRec]
  simp

@[simp] theorem execTrig_fixed (n : Fin 8) : Done.fixed (execTrig n s) = some s.base.fixed := by simp [execTrig]

/-! ## Host frames and queues (R399 to R421) -/

@[simp] theorem Done.fixed_answer (a : Answer) : Done.fixed a.done = some a.post.base.fixed := by simp [Answer.done]

/-- A frame keeps what the meaning of its command keeps. -/
theorem State.frame_fixed {s : State} {l : List Byte} {crc : Byte} {queue : Bool} {k : State → Answer}
    (hk : ∀ t, (k t).post.base = t.base) : Done.fixed (s.frame l crc queue k) = some s.base.fixed := by
  unfold State.frame
  dsimp only
  split
  · simp
  · simp [hk]

@[simp] theorem execQspiFrame_fixed : Done.fixed (execQspiFrame s) = some s.base.fixed := by simp [execQspiFrame]

theorem State.dataFrame_fixed {s : State} {cmd : Nat} {addr : Word} {len : BitVec 16} {data : List Word} {crc : Byte}
    {queue : Bool} {k : List Word → State → Answer} (hk : ∀ d t, (k d t).post.base = t.base) :
    Done.fixed (s.dataFrame cmd addr len data crc queue k) = some s.base.fixed := by
  unfold State.dataFrame
  dsimp only
  split
  · split
    · exact execQspiFrame_fixed _
    · exact State.frame_fixed (hk _)
  · exact State.frame_fixed (hk _)

@[simp] theorem execRead_fixed (cmd : Byte) (addr : Word) (len : BitVec 16) (crc : Byte) :
    Done.fixed (execRead cmd addr len crc s) = some s.base.fixed := by
  refine State.frame_fixed fun t => ?_
  split
  · simp
  · split <;> simp

@[simp] theorem execWrite_fixed (addr : Word) (len : BitVec 16) (data : List Word) (crc : Byte) :
    Done.fixed (execWrite addr len data crc s) = some s.base.fixed := by
  refine State.dataFrame_fixed fun d t => ?_
  split <;> simp

@[simp] theorem execQread_fixed (addr : Word) (len : BitVec 16) (crc : Byte) :
    Done.fixed (execQread addr len crc s) = some s.base.fixed := by
  refine State.frame_fixed fun t => ?_
  dsimp only
  split <;> simp

@[simp] theorem execQack_fixed (addr : Word) (len : BitVec 16) (data : List Word) (crc : Byte) :
    Done.fixed (execQack addr len data crc s) = some s.base.fixed := by
  refine State.dataFrame_fixed fun d t => ?_
  dsimp only
  split <;> simp

@[simp] theorem execQpush_fixed (addr : Word) (len : BitVec 16) (data : List Word) (crc : Byte) :
    Done.fixed (execQpush addr len data crc s) = some s.base.fixed := by
  refine State.dataFrame_fixed fun d t => ?_
  split <;> simp

@[simp] theorem execRegisterWrite_fixed (addr v : Word) : Done.fixed (execRegisterWrite addr v s) = some s.base.fixed := by
  simp [execRegisterWrite]

@[simp] theorem execYarderWrite_fixed : Done.fixed (execYarderWrite s) = some s.base.fixed := by
  unfold execYarderWrite
  split
  · rfl
  · split <;> simp

@[simp] theorem execFlush_fixed (q : Fin 64) : Done.fixed (execFlush q s) = some s.base.fixed := by simp [execFlush]

@[simp] theorem execYardStall_fixed : Done.fixed (execYardStall s) = some s.base.fixed := by
  unfold execYardStall
  split <;> simp

@[simp] theorem execQueueAge_fixed (q : Fin 64) : Done.fixed (execQueueAge q s) = some s.base.fixed := by
  unfold execQueueAge
  split <;> simp

/-! ## Power (R426 to R451) -/

@[simp] theorem execReqRun_fixed : Done.fixed (execReqRun s) = some s.base.fixed := by simp [execReqRun]

@[simp] theorem execReqDoze_fixed : Done.fixed (execReqDoze s) = some s.base.fixed := by simp [execReqDoze]

@[simp] theorem execReqLookout_fixed : Done.fixed (execReqLookout s) = some s.base.fixed := by simp [execReqLookout]

@[simp] theorem execReqOff_fixed : Done.fixed (execReqOff s) = some s.base.fixed := by simp [execReqOff]

@[simp] theorem execEntryComplete_fixed : Done.fixed (execEntryComplete s) = some s.base.fixed := by simp [execEntryComplete]

@[simp] theorem execOppTgtWrite_fixed (v : BitVec 2) : Done.fixed (execOppTgtWrite v s) = some s.base.fixed := by
  simp [execOppTgtWrite]

@[simp] theorem execDvfsDone_fixed : Done.fixed (execDvfsDone s) = some s.base.fixed := by
  unfold execDvfsDone
  split <;> simp

@[simp] theorem execDvfsTmo_fixed : Done.fixed (execDvfsTmo s) = some s.base.fixed := by
  unfold execDvfsTmo
  split <;> simp

@[simp] theorem execVoteWrite_fixed (v : Word) : Done.fixed (execVoteWrite v s) = some s.base.fixed := by simp [execVoteWrite]

@[simp] theorem execDomainOn_fixed (x : Dom) : Done.fixed (execDomainOn x s) = some s.base.fixed := by
  unfold execDomainOn
  split
  all_goals split <;> simp

@[simp] theorem execMemBankInitDone_fixed (b : Fin 8) : Done.fixed (execMemBankInitDone b s) = some s.base.fixed := by
  simp [execMemBankInitDone]

@[simp] theorem execHalfCalDone_fixed (h : Half) (pchFail : BitVec 4) (auxFail : Bool) (trims : Vector TrimVals 4) :
    Done.fixed (execHalfCalDone h pchFail auxFail trims s) = some s.base.fixed := by simp [execHalfCalDone, State.foldl_base]

@[simp] theorem execDomTmo_fixed (x : Dom) : Done.fixed (execDomTmo x s) = some s.base.fixed := by
  unfold execDomTmo
  dsimp only
  split
  all_goals split <;> simp

@[simp] theorem execPadRelease_fixed (v : Word) : Done.fixed (execPadRelease v s) = some s.base.fixed := by
  simp [execPadRelease]

@[simp] theorem execLookoutCycleStart_fixed : Done.fixed (execLookoutCycleStart s) = some s.base.fixed := by
  simp [execLookoutCycleStart]

@[simp] theorem execLookoutCycleEnd_fixed (m : LookoutMeas) : Done.fixed (execLookoutCycleEnd m s) = some s.base.fixed := by
  simp [execLookoutCycleEnd]

@[simp] theorem execAlarm_fixed : Done.fixed (execAlarm s) = some s.base.fixed := by
  unfold execAlarm
  split
  · rfl
  · dsimp only
    split
    · rw [Done.fixed_next, State.powerNote_base]
      rfl
    · rw [Done.fixed_next, State.wakeIf_base]
      rfl

@[simp] theorem execAlarmHiWrite_fixed (v : Word) : Done.fixed (execAlarmHiWrite v s) = some s.base.fixed := by
  rw [execAlarmHiWrite, Done.fixed_finish, State.writeAlarmHi_base]

@[simp] theorem execWakeIn_fixed : Done.fixed (execWakeIn s) = some s.base.fixed := by simp [execWakeIn]

@[simp] theorem execHostWake_fixed (clks : Nat) (bits : BitVec 64) :
    Done.fixed (execHostWake clks bits s) = some s.base.fixed := by simp [execHostWake]

@[simp] theorem execNetWake_fixed (p : Fin 2) (bytes : List Byte) :
    Done.fixed (execNetWake p bytes s) = some s.base.fixed := by simp [execNetWake]

@[simp] theorem execWakeCoreReady_fixed : Done.fixed (execWakeCoreReady s) = some s.base.fixed := by simp [execWakeCoreReady]

/-! ## What remains: unlocking, pads, the TAP controller -/

@[simp] theorem execUnlockFirst_fixed (blk : Byte) : Done.fixed (execUnlockFirst blk s) = some s.base.fixed := by
  simp [execUnlockFirst]

@[simp] theorem execUnlockSecond_fixed (blk : Byte) : Done.fixed (execUnlockSecond blk s) = some s.base.fixed := by
  simp [execUnlockSecond]

@[simp] theorem execRelock_fixed (blk : Byte) : Done.fixed (execRelock blk s) = some s.base.fixed := by simp [execRelock]

@[simp] theorem execUnlockTimeout_fixed (b : Fin 18) : Done.fixed (execUnlockTimeout b s) = some s.base.fixed := by
  simp [execUnlockTimeout]

@[simp] theorem execSdmBitSample_fixed (k : Fin 2) (bits : Byte) :
    Done.fixed (execSdmBitSample k bits s) = some s.base.fixed := by simp [execSdmBitSample, State.foldl_base]

@[simp] theorem execSafePinHoldExpiry_fixed (p : SafePin) : Done.fixed (execSafePinHoldExpiry p s) = some s.base.fixed := by
  unfold execSafePinHoldExpiry
  split <;> simp

@[simp] theorem execResetNRisingEdge_fixed (testEn : Bool) :
    Done.fixed (execResetNRisingEdge testEn s) = some s.base.fixed := by simp [execResetNRisingEdge]

@[simp] theorem execTapTckEdge_fixed (tms tdi : Bool) : Done.fixed (execTapTckEdge tms tdi s) = some s.base.fixed := by
  simp [execTapTckEdge]

@[simp] theorem execFrameTransmitDone_fixed (p : Fin 2) : Done.fixed (execFrameTransmitDone p s) = some s.base.fixed := by
  unfold execFrameTransmitDone
  split
  · simp
  · split <;> simp

@[simp] theorem execSclTempReading_fixed (h : Half) (t : BitVec 16) :
    Done.fixed (execSclTempReading h t s) = some s.base.fixed := by simp [execSclTempReading]

theorem execVexcGoodAgain_fixed (rail : Fin 2) (mv : BitVec 16) :
    ∃ g, Done.fixed (execVexcGoodAgain rail mv s) = some (s.pending, s.qb, s.fram, g) := by
  unfold execVexcGoodAgain
  dsimp only
  rw [Done.fixed_next, State.base_ite, State.railCond_base, ite_self]
  split
  · rw [State.railCond_base, State.setVexcOk_base, State.setVexc_base]
    exact ⟨_, rfl⟩
  · rw [State.setVexc_base]
    exact ⟨_, rfl⟩

@[simp] theorem execOtsClear_fixed (n : Fin 4) (temp : BitVec 16) :
    Done.fixed (execOtsClear n temp s) = some s.base.fixed := by simp [execOtsClear]

@[simp] theorem execUnlockFirstExpiry_fixed : Done.fixed (execUnlockFirstExpiry s) = some s.base.fixed := by
  unfold execUnlockFirstExpiry
  split <;> simp

end

/-! ## Every command -/

/-- A meaning leaves the commands that wait and the ordering code alone, the FRAM unless `f`, the rails unless `r`. -/
def State.LeavesAlone (s : State) (f r : Bool) (o : Done) : Prop :=
  ∀ t, o = .next t → t.pending = s.pending ∧ t.qb = s.qb ∧ (f = false → t.fram = s.fram) ∧ (r = false → t.rails = s.rails)

theorem State.leavesAlone_of_fixed {s : State} {f r : Bool} {o : Done} {m : List Host.Cell} {g : Rails}
    (h : o.fixed = some (s.pending, s.qb, m, g)) (hFram : f = false → m = s.fram) (hRails : r = false → g = s.rails) :
    s.LeavesAlone f r o := by
  rintro t rfl
  obtain ⟨hPending, hRest⟩ := Prod.mk.inj (Option.some.inj h)
  obtain ⟨hQb, hRest⟩ := Prod.mk.inj hRest
  obtain ⟨rfl, rfl⟩ := Prod.mk.inj hRest
  exact ⟨hPending, hQb, hFram, hRails⟩

theorem State.leavesAlone_of_fixed_base {s : State} {f r : Bool} {o : Done} (h : o.fixed = some s.base.fixed) :
    s.LeavesAlone f r o := State.leavesAlone_of_fixed h (fun _ => rfl) fun _ => rfl

/-- A reset with no store and no programming under way leaves the FRAM as it is. -/
theorem State.framCut_quiet {s t : State} (h : (t.boot.store.isSome || decide (t.boot.phase = .framProg)) = false)
    (hFram : t.fram = s.fram) : t.framCut.1 = s.fram := by
  obtain ⟨hStore, hPhase⟩ := Bool.or_eq_false_iff.mp h
  rw [State.framCut_idle (of_decide_eq_false hPhase) (Option.isSome_eq_false_iff.mp hStore |> Option.isNone_iff_eq_none.mp)]
  exact hFram

theorem exec_leavesAlone (c : Instr) (s : State) : s.LeavesAlone (c.writesFram s.boot) c.movesRails (exec c s) := by
  cases c with
  | supplyGood r => exact State.leavesAlone_of_fixed (execSupplyGood_fixed s r) (fun _ => rfl) nofun
  | supplyLost r =>
    obtain ⟨m, hFram, hFixed⟩ := execSupplyLost_fixed s r
    exact State.leavesAlone_of_fixed hFixed (fun hF => hFram.elim id fun h => h.trans (State.framCut_quiet hF rfl)) nofun
  | pinReset => exact State.leavesAlone_of_fixed (execPinReset_fixed s) (fun hF => State.framCut_quiet hF rfl) fun _ => rfl
  | softwareReset =>
    cases hOwed : s.sys.swrstAt with
    | none => exact State.leavesAlone_of_fixed_base (execSoftwareReset_fixed_none s hOwed)
    | some c =>
      exact State.leavesAlone_of_fixed (execSoftwareReset_fixed_some s hOwed) (fun hF => State.framCut_quiet hF rfl) fun _ => rfl
  | vuv rail mv =>
    obtain ⟨g, hFixed⟩ := execVuv_fixed s rail mv
    exact State.leavesAlone_of_fixed hFixed (fun _ => rfl) nofun
  | vexcGoodAgain rail mv =>
    obtain ⟨g, hFixed⟩ := execVexcGoodAgain_fixed s rail mv
    exact State.leavesAlone_of_fixed hFixed (fun _ => rfl) nofun
  | calStoreDone latchSet readOk =>
    obtain ⟨f, hFixed⟩ := execCalStoreDone_fixed s latchSet readOk
    exact State.leavesAlone_of_fixed hFixed nofun fun _ => rfl
  | framProgDone ok =>
    obtain ⟨f, hFixed⟩ := execFramProgDone_fixed s ok
    exact State.leavesAlone_of_fixed hFixed nofun fun _ => rfl
  | _ => exact State.leavesAlone_of_fixed_base (by simp [exec])

/-- Settles O4: what each command leaves of the waiting commands, the ordering code, the FRAM and the rails stands in a
lemma of its own above. -/
theorem commandsLeaveAlone : Obligations.CommandsLeaveAlone := fun c s => exec_leavesAlone c s

end Sys2Proof.Machine
end

section
/-! PROOFS. The ends of a calibration store and of a programming (R90, R100), and that every command keeps the FRAM in canonical
form. -/

namespace Sys2Proof.Machine

/-! ## The end of a store (R90) -/

section
variable {s : State} {x : Store90}

theorem exec_calStoreDone_idle (h : s.boot.store = none) (latchSet readOk : Bool) :
    exec (.calStoreDone latchSet readOk) s = .next s := by
  change execCalStoreDone latchSet readOk s = _
  unfold execCalStoreDone
  rw [h]

/-- The state in which the write-enable latch has not set, before the fault and the record. -/
def State.storeUnlatched (s : State) : State := { s with boot := { s.boot with store := none, storeErr := true } }

/-- The state in which the slot holds its image, before the record. -/
def State.storeKept (s : State) (x : Store90) : State :=
  { s with
    fram := Memory.writeBytes framDefault s.fram (slotBase x.toB) x.bytes
    boot := { (s.boot.setSlot x.toB true x.gen) with store := none, storeDone := true, inForce := if x.toB then 2 else 1 } }

/-- The state in which the read-back has failed, before the fault and the record: the slot's bytes are open. -/
def State.storeSpoilt (s : State) (x : Store90) : State :=
  { s.draw with
    fram := Memory.writeBytes framDefault s.fram (slotBase x.toB) (openBytes 83 s.free 4096)
    boot := { (s.boot.setSlot x.toB false x.gen) with store := none, storeErr := true } }

theorem Boot.setSlot_store (b : Boot) (o : Option Store90) (toB valid : Bool) (gen : Nat) :
    Boot.setSlot { b with store := o } toB valid gen = { b.setSlot toB valid gen with store := o } := by
  unfold Boot.setSlot
  split <;> rfl

variable (h : s.boot.store = some x)
include h

theorem exec_calStoreDone_unlatched (readOk : Bool) :
    exec (.calStoreDone false readOk) s = .next ((s.storeUnlatched.event .boot 0 .shared).storeRecord 3 x) := by
  change execCalStoreDone false readOk s = _
  unfold execCalStoreDone
  rw [h]
  rfl

theorem exec_calStoreDone_stored : exec (.calStoreDone true true) s = .next ((s.storeKept x).storeRecord 2 x) := by
  change execCalStoreDone true true s = _
  unfold execCalStoreDone State.storeKept
  rw [h]
  simp only [Bool.not_true, Bool.false_eq_true, ↓reduceIte, Boot.setSlot_store]

theorem exec_calStoreDone_spoilt :
    exec (.calStoreDone true false) s = .next (((s.storeSpoilt x).event .boot 1 .shared).storeRecord 3 x) := by
  change execCalStoreDone true false s = _
  unfold execCalStoreDone State.storeSpoilt State.draw
  rw [h]
  simp only [Bool.not_true, Bool.false_eq_true, ↓reduceIte, Boot.setSlot_store]

end

/-! ## The end of a programming (R100) -/

section
variable {s : State}

theorem exec_framProgDone_idle (h : s.boot.phase ≠ .framProg) (ok : Bool) : exec (.framProgDone ok) s = .next s := if_neg h

/-- The bytes of the staged image. -/
def State.stagedImage (s : State) : List Byte := s.stageBytes 0 (0x40 + s.boot.bodyLen)

/-- The state in which the FRAM holds the staged image, before apply. -/
def State.imageProgrammed (s : State) : State :=
  { s with fram := Memory.writeBytes framDefault s.fram 0 s.stagedImage }

/-- The state in which the read-back of a programmed image has failed, before the hold: its bytes in the FRAM are open. -/
def State.imageSpoilt (s : State) : State :=
  { s.draw with fram := Memory.writeBytes framDefault s.fram 0 (openBytes 82 s.free (0x40 + s.boot.bodyLen)) }

theorem exec_framProgDone_stored (h : s.boot.phase = .framProg) :
    exec (.framProgDone true) s = .next s.imageProgrammed.beginApply := if_pos h

theorem exec_framProgDone_spoilt (h : s.boot.phase = .framProg) :
    exec (.framProgDone false) s = .next (s.imageSpoilt.enterHold 10) := if_pos h

end

/-! ## The FRAM (R74, R83, R90, R100) -/

theorem State.storeSpoilt_fram (s : State) (x : Store90) : (s.storeSpoilt x).fram =
    Memory.writeBytes framDefault s.fram (slotBase x.toB) (openBytes 83 s.free 4096) := by
  rw [State.storeSpoilt]

/-- What a reset leaves in the FRAM is in canonical form if the FRAM was (R74, R90, R100). -/
theorem State.framCut_wf {s : State} (h : s.framCanonical) : Memory.wf framDefault s.framCut.1 = true := by
  unfold State.framCut
  dsimp only
  split
  · exact Memory.writeBytes_wf _ _ _ _ h
  split
  · exact h
  split
  · exact h
  all_goals
    dsimp only
    exact Memory.writeBytes_wf _ _ _ _ h

theorem State.fram_of_base {s t : State} (h : t.base = s.base) : t.fram = s.fram := congrArg Base.fram h

@[simp] theorem State.storeRecord_fram (s : State) (code : Nat) (x : Store90) : (s.storeRecord code x).fram = s.fram :=
  State.fram_of_base (State.storeRecord_base s code x)

@[simp] theorem State.event_fram (s : State) (p : Page) (b : Nat) (c : Copy) : (s.event p b c).fram = s.fram :=
  State.fram_of_base (State.event_base s p b c)

@[simp] theorem State.beginApply_fram (s : State) : s.beginApply.fram = s.fram := State.fram_of_base s.beginApply_base

theorem State.framCanonical_of_fram {s t : State} (h : s.framCanonical) (ht : t.fram = s.fram) : t.framCanonical := by
  unfold State.framCanonical
  rw [ht]
  exact h

theorem State.framCanonical_of_written {s t : State} {a : Nat} {l : List Byte} (h : s.framCanonical)
    (ht : t.fram = Memory.writeBytes framDefault s.fram a l) : t.framCanonical := by
  unfold State.framCanonical
  rw [ht]
  exact Memory.writeBytes_wf _ _ _ _ h

theorem Restarted.framCanonical {s t : State} (h : s.framCanonical) (ht : Restarted s t) : t.framCanonical := by
  unfold State.framCanonical
  rw [ht.fram]
  exact State.framCut_wf h

theorem exec_vdda0Lost (s : State) : exec (.supplyLost .vdda0) s = .next ((s.railLost .vdda0).vddaJudge .h0) := rfl
theorem exec_vdda1Lost (s : State) : exec (.supplyLost .vdda1) s = .next ((s.railLost .vdda1).vddaJudge .h1) := rfl

theorem State.vddaJudge_fram (s : State) (h : Half) : (s.vddaJudge h).fram = s.fram := State.fram_of_base (s.vddaJudge_base h)

theorem exec_softwareReset_idle {s : State} (h : s.sys.swrstAt = none) : exec .softwareReset s = .next s := by
  change execSoftwareReset s = _
  unfold execSoftwareReset
  rw [h]

theorem calStoreDone_framCanonical {s : State} (h : s.framCanonical) (latchSet readOk : Bool) :
    Completes (.calStoreDone latchSet readOk) s State.framCanonical := by
  cases hStore : s.boot.store with
  | none => exact ⟨s, exec_calStoreDone_idle hStore _ _, h⟩
  | some x =>
    cases latchSet with
    | false =>
      exact ⟨_, exec_calStoreDone_unlatched hStore readOk, State.framCanonical_of_fram h (by simp [State.storeUnlatched])⟩
    | true =>
      cases readOk with
      | false =>
        exact ⟨_, exec_calStoreDone_spoilt hStore, State.framCanonical_of_written h
          (((State.storeRecord_fram _ _ _).trans (State.event_fram _ _ _ _)).trans (s.storeSpoilt_fram x))⟩
      | true =>
        exact ⟨_, exec_calStoreDone_stored hStore, State.framCanonical_of_written h (State.storeRecord_fram _ _ _)⟩

theorem framProgDone_framCanonical {s : State} (h : s.framCanonical) (ok : Bool) :
    Completes (.framProgDone ok) s State.framCanonical := by
  by_cases hPhase : s.boot.phase = .framProg
  · cases ok with
    | false => exact ⟨_, exec_framProgDone_spoilt hPhase, State.framCanonical_of_written h rfl⟩
    | true => exact ⟨_, exec_framProgDone_stored hPhase, State.framCanonical_of_written h (State.beginApply_fram _)⟩
  · exact ⟨s, exec_framProgDone_idle hPhase ok, h⟩

theorem softwareReset_framCanonical {s : State} (h : s.framCanonical) : Completes .softwareReset s State.framCanonical := by
  cases hOwed : s.sys.swrstAt with
  | none => exact ⟨s, exec_softwareReset_idle hOwed, h⟩
  | some c => exact ⟨_, exec_softwareReset hOwed, ((s.waitTill c).deviceReset_restarted 2).framCanonical h⟩

theorem supplyLost_framCanonical {s : State} (h : s.framCanonical) (r : Rail) :
    Completes (.supplyLost r) s State.framCanonical := by
  cases r with
  | vaon => exact ⟨_, exec_vaonLost s, ((s.railLost .vaon).deviceReset_restarted 0).framCanonical h⟩
  | vio => exact ⟨_, exec_vioLost s, ((s.railLost .vio).deviceReset_restarted 3).framCanonical h⟩
  | vpre => exact ⟨_, exec_vpreLost s, ((s.railLost .vpre).deviceReset_restarted 4).framCanonical h⟩
  | vdda0 => exact ⟨_, exec_vdda0Lost s, State.framCanonical_of_fram h (State.vddaJudge_fram _ _)⟩
  | vdda1 => exact ⟨_, exec_vdda1Lost s, State.framCanonical_of_fram h (State.vddaJudge_fram _ _)⟩

theorem Completes.of_next {c : Instr} {s t : State} {P : State → Prop} (h : Completes c s P) (ht : exec c s = .next t) : P t := by
  obtain ⟨u, hu, hP⟩ := h
  rwa [Host.Outcome.next.inj (ht.symm.trans hu)]

/-- The commands that write the FRAM write whole bytes in place; every other command leaves it alone. -/
theorem exec_framCanonical {c : Instr} {s t : State} (h : s.framCanonical) (ht : exec c s = .next t) : t.framCanonical := by
  cases c with
  | calStoreDone latchSet readOk => exact (calStoreDone_framCanonical h latchSet readOk).of_next ht
  | framProgDone ok => exact (framProgDone_framCanonical h ok).of_next ht
  | pinReset =>
    obtain rfl := Host.Outcome.next.inj ((exec_pinReset s).symm.trans ht)
    exact (s.deviceReset_restarted 1).heldLow.framCanonical h
  | softwareReset => exact (softwareReset_framCanonical h).of_next ht
  | supplyLost r => exact (supplyLost_framCanonical h r).of_next ht
  | _ =>
    obtain ⟨-, -, hFram, -⟩ := exec_leavesAlone _ s t ht
    exact State.framCanonical_of_fram h (hFram rfl)

/-- The commands `l` wait. -/
def State.waiting (s : State) (l : List Instr) : State := { s with pending := l }

theorem step_cons {s : State} {c : Instr} {rest : List Instr} (h : s.pending = c :: rest) :
    step s = exec c (s.waiting rest) := by
  unfold step
  rw [h]
  rfl

theorem step_nil {s : State} (h : s.pending = []) : step s = .next (s.wait 1) := by
  unfold step
  rw [h]

/-- Settles O6: an idle step leaves the FRAM alone, and every command keeps its form. -/
theorem stepKeepsFramCanonical : Obligations.StepKeepsFramCanonical := by
  intro s t h ht
  cases hPending : s.pending with
  | nil =>
    obtain rfl := Host.Outcome.next.inj ((step_nil hPending).symm.trans ht)
    exact h
  | cons c rest =>
    have hWaiting : (s.waiting rest).framCanonical := h
    exact exec_framCanonical hWaiting ((step_cons hPending).symm.trans ht)

end Sys2Proof.Machine
end

section
/-! PROOFS. The header and the body of an image, judged (R83, R84), and the slot that boot loads (R89). -/

namespace Sys2Proof.Machine

/-! ## The checks -/

/-- The state with `b` for BOOT. -/
def State.withBoot (s : State) (b : Boot) : State := { s with boot := b }

theorem State.withBoot_boot (s : State) (b : Boot) : (s.withBoot b).boot = b := rfl
theorem State.withBoot_withBoot (s : State) (b c : Boot) : (s.withBoot b).withBoot c = s.withBoot c := rfl
theorem State.withBoot_stageBytes (s : State) (b : Boot) (a n : Nat) : (s.withBoot b).stageBytes a n = s.stageBytes a n := rfl

/-- What a header that fails with cause `c` leaves in BOOT (R83). -/
def Boot.headerFailed (b : Boot) (c : Nat) : Boot := { b with imgCause := c, bodyLen := 0 }

/-- What the header `l` leaves in BOOT when it passes (R83). -/
def Boot.headerPassed (b : Boot) (l : List Byte) : Boot :=
  { b with
    imgCause := 0, imgId := BitVec.ofNat 32 (fieldAt l 0x10 4), bodyLen := fieldAt l 8 4, calUse := fieldAt l 0x15 1 }

theorem Boot.headerPassed_bodyLen (b : Boot) (l : List Byte) : (b.headerPassed l).bodyLen = fieldAt l 8 4 := rfl

/-- What a body that fails leaves in BOOT (R84). -/
def Boot.bodyFailed (b : Boot) : Boot := { b with imgCause := 6 }

theorem State.takeHeader_fails {s : State} {l : List Byte} (h : headerCause s.qb l ≠ 0) :
    s.takeHeader l = s.withBoot (s.boot.headerFailed (headerCause s.qb l)) := if_neg h

theorem State.takeHeader_passes {s : State} {l : List Byte} (h : headerCause s.qb l = 0) :
    s.takeHeader l = s.withBoot (s.boot.headerPassed l) := if_pos h

theorem State.judgeBody_fails {s : State} {l : List Byte} (hCause : s.boot.imgCause = 0) (hBody : bodyOk l = false) :
    s.judgeBody l = s.withBoot s.boot.bodyFailed := if_pos ⟨hCause, hBody⟩

theorem State.judgeBody_keeps {s : State} {l : List Byte} (h : s.boot.imgCause ≠ 0 ∨ bodyOk l = true) : s.judgeBody l = s := by
  refine if_neg fun hFails => ?_
  obtain ⟨hCause, hBody⟩ := hFails
  rcases h with h | h
  · exact h hCause
  · exact Bool.false_ne_true (hBody.symm.trans h)

/-! ## The slot that boot loads (R89) -/

theorem newerB_iff (a b : Nat) :
    newerB a b = true ↔ 1 ≤ (b + 2 ^ 32 - a) % 2 ^ 32 ∧ (b + 2 ^ 32 - a) % 2 ^ 32 ≤ 2 ^ 31 - 1 := decide_eq_true_iff

theorem slotChoiceRule : Parts.SlotChoiceRule := by
  intro s
  refine ⟨fun hUse => ?_, fun hUse => ⟨fun hA hB => ?_, fun hA hB => ?_, fun hA hB => ?_, fun hA hB => ?_⟩⟩
  · rw [State.slotChoice, if_pos hUse]
  · rw [State.slotChoice, if_neg hUse, hA, hB]
  · rw [State.slotChoice, if_neg hUse, hA, hB]
  · rw [State.slotChoice, if_neg hUse, hA, hB]
  · rw [State.slotChoice, if_neg hUse, hA, hB]
    exact if_congr (newerB_iff _ _) rfl rfl

end Sys2Proof.Machine
end

section
/-! PROOFS. Stores of the calibration and downloads (R90, R91, R98 to R100). -/

namespace Sys2Proof.Machine

/-! ## Item 11 of Cruise yields for a store (Table 16.2) -/

theorem State.crzYield_frame (s : State) (i : Fin 15) (n : Nat) : s.crzYield i n = { s with crz := (s.crzYield i n).crz } := by
  unfold State.crzYield
  dsimp only
  split
  · rfl
  · split <;> rfl

theorem State.storeYield_frame (s : State) :
    s.storeYield = { s with crz := s.storeYield.crz, free := s.storeYield.free } := by
  unfold State.storeYield
  rw [State.crzYield_frame]
  rfl

theorem State.crzYield_runs {s : State} {i : Fin 15} (hAct : s.crz.act[laneOf i] = some i) (hRate : s.runRate i ≠ 0)
    (hYields : yields i = true) (n : Nat) :
    (s.crzYield i n).crz.yieldCnt = (s.crz.yieldCnt + 1) % 65536 ∧ (s.crzYield i n).crz.act = s.crz.act := by
  simp [State.crzYield, State.crzMark, hAct, hRate, hYields]

theorem clockRate_pos (i : Fin 15) (opp : Nat) : 0 < clockRate i opp := by
  unfold clockRate
  split
  · decide
  · split <;> decide

theorem State.runRate_ne_zero (s : State) {i : Fin 15} (h : i.val ≠ 10) : s.runRate i ≠ 0 := by
  rw [State.runRate, if_neg fun hMem => h hMem.1]
  exact Nat.ne_of_gt (clockRate_pos i _)

theorem State.storeYield_runs {s : State} (h : s.crz.act[(2 : Fin 3)] = some 11) :
    s.storeYield.crz.yieldCnt = (s.crz.yieldCnt + 1) % 65536 ∧ s.storeYield.crz.act = s.crz.act :=
  State.crzYield_runs (i := 11) h (s.runRate_ne_zero (by decide)) rfl _

/-! ## The key of a store (R91) -/

section
variable {s : State}

theorem exec_storeKey (s : State) : exec .storeKey s = finish s.storeKey := rfl

theorem State.storeKey_entering (h : s.pwr.st = .entering) : s.storeKey = s.only .notReady := if_pos h

theorem State.storeKey_denied (hAwake : s.pwr.st ≠ .entering) (h : s.boot.released = false ∨ s.boot.store.isSome = true) :
    s.storeKey = s.only .denied := by
  rw [State.storeKey, if_neg hAwake, if_pos]
  simpa using h

/-- The store that a key begins: its target, its generation and the image taken now (R90). -/
def State.storeTaken (s : State) : State :=
  { s with boot := { s.boot with
    store := some ⟨s.boot.storeTarget.1, s.boot.storeTarget.2, s.slotImage s.boot.storeTarget.2⟩ } }

theorem State.storeKey_taken (hAwake : s.pwr.st ≠ .entering) (hReleased : s.boot.released = true) (hStore : s.boot.store = none) :
    s.storeKey = (.ok, s.storeTaken.storeYield) := by
  rw [State.storeKey, if_neg hAwake, if_neg (by simp [hReleased, hStore])]
  rfl

end

/-! ## The record of a store (R419) -/

theorem State.offerRaw_frame (s : State) (i : Fin 64) (src : Nat) (l : List Byte) :
    s.offerRaw i src l = { s with que := (s.offerRaw i src l).que } := rfl

theorem State.settle_frame (s : State) (i : Fin 64) : s.settle i = { s with que := (s.settle i).que } := by
  unfold State.settle
  dsimp only
  split <;> rfl

theorem State.offer_frame (s : State) (i : Fin 64) (src : Nat) (l : List Byte) :
    s.offer i src l = { s with que := (s.offer i src l).que } := by
  unfold State.offer
  rw [State.settle_frame, State.offerRaw_frame]

theorem State.offer_boot (s : State) (i : Fin 64) (src : Nat) (l : List Byte) : (s.offer i src l).boot = s.boot := by
  rw [State.offer_frame]

@[simp] theorem State.storeRecord_boot (s : State) (code : Nat) (x : Store90) : (s.storeRecord code x).boot = s.boot :=
  State.offer_boot _ _ _ _

/-- What BOOT knows of the slots, of the slot in force and of the store. -/
def Boot.slots (b : Boot) : Option Store90 × Bool × Bool × Bool × Bool × Nat :=
  (b.store, b.storeErr, b.storeDone, b.aValid, b.bValid, b.inForce)

theorem State.slots_of_quiet {s t : State} (h : t.quiet = s.quiet) : t.boot.slots = s.boot.slots := by
  have hSlots := congrArg (fun u : State => u.boot.slots) h
  exact hSlots

theorem State.storeFailed_slots (s : State) (b : Nat) (x : Store90) :
    ((s.event .boot b .shared).storeRecord 3 x).boot.slots = s.boot.slots := by
  rw [State.storeRecord_boot]
  exact State.slots_of_quiet (s.event_quiet _ _ _)

theorem Boot.setSlot_inForce (b : Boot) (toB valid : Bool) (gen : Nat) : (b.setSlot toB valid gen).inForce = b.inForce := by
  unfold Boot.setSlot
  split <;> rfl

theorem calibrationStore : Parts.CalibrationStore := by
  intro s
  refine ⟨fun hEntering => ?_, fun hAwake hNot => ?_, fun hAwake hReleased hStore => ?_, fun x hStore => ⟨?_, fun r => ?_, ?_⟩⟩
  · rw [exec_storeKey, State.storeKey_entering hEntering]
    rfl
  · rw [exec_storeKey, State.storeKey_denied hAwake hNot]
    rfl
  · refine ⟨_, by rw [exec_storeKey, State.storeKey_taken hAwake hReleased hStore]; rfl, ?_, fun hAct => ?_⟩
    · rw [State.storeYield_frame]
      rfl
    · exact State.storeYield_runs (s := s.storeTaken) hAct
  · refine ⟨_, exec_calStoreDone_stored hStore, State.storeRecord_fram _ _ _, State.storeRecord_boot _ _ _, fun a ha => ?_⟩
    rw [State.storeRecord_fram]
    exact Memory.read_writeBytes_other _ _ _ _ _ ha
  · have hSlots := s.storeUnlatched.storeFailed_slots 0 x
    simp only [Boot.slots, Prod.mk.injEq] at hSlots
    obtain ⟨hNone, hErr, -, hA, hB, hForce⟩ := hSlots
    exact ⟨_, exec_calStoreDone_unlatched hStore r, by simp [State.storeUnlatched], hNone, hErr, hA, hB, hForce⟩
  · have hSlots := (s.storeSpoilt x).storeFailed_slots 1 x
    simp only [Boot.slots, Prod.mk.injEq] at hSlots
    obtain ⟨hNone, hErr, -, -, -, hForce⟩ := hSlots
    refine ⟨_, exec_calStoreDone_spoilt hStore, hNone, hErr, hForce.trans (Boot.setSlot_inForce _ _ _ _), fun a ha => ?_⟩
    rw [State.storeRecord_fram, State.event_fram, State.storeSpoilt_fram]
    refine Memory.read_writeBytes_other _ _ _ _ _ ?_
    rw [openBytes_length]
    exact ha

/-! ## Downloads (R98 to R100) -/

theorem exec_dlKeyApply (s : State) : exec .dlKeyApply s = finish (s.dlKey false) := rfl
theorem exec_dlKeyProgram (s : State) : exec .dlKeyProgram s = finish (s.dlKey true) := rfl

/-- What a download leaves of its kind in BOOT (R99). -/
def Boot.download (b : Boot) (prog : Bool) : Boot := { b with kind := .download, dlProgram := prog }

/-- The staged image judged as a download, before the hold, programming or apply (R99). -/
def State.dlJudged (s : State) (prog : Bool) : State :=
  let s1 := s.takeHeader (s.stageBytes 0 64)
  let s2 := s1.judgeBody (s1.stageBytes 0x40 s1.boot.bodyLen)
  s2.withBoot (s2.boot.download prog)

/-- What follows on the judgement: the hold, programming or apply (R99). -/
def State.dlFollow (s : State) (prog : Bool) : State :=
  if s.boot.imgCause ≠ 0 then s.enterHold s.boot.imgCause
  else if prog then s.withBoot { s.boot with phase := .framProg } else s.beginApply

theorem State.dlKey_denied {s : State} (h : s.boot.phase ≠ .hold ∨ s.boot.holdCause = 9 ∨ s.boot.holdCause = 11) (prog : Bool) :
    s.dlKey prog = s.only .denied := if_pos h

theorem State.dlKey_judged {s : State} (hHold : s.boot.phase = .hold) (hBist : s.boot.holdCause ≠ 9) (hConfig : s.boot.holdCause ≠ 11)
    (prog : Bool) : s.dlKey prog = (.ok, (s.dlJudged prog).dlFollow prog) := if_neg (by simp [hHold, hBist, hConfig])

section
variable {s : State} (prog : Bool)

theorem State.dlJudged_header_fails (h : headerCause s.qb (s.stageBytes 0 64) ≠ 0) :
    s.dlJudged prog = s.withBoot ((s.boot.headerFailed (headerCause s.qb (s.stageBytes 0 64))).download prog) := by
  rw [State.dlJudged, State.takeHeader_fails h, State.judgeBody_keeps (.inl h)]
  rfl

variable (hHeader : headerCause s.qb (s.stageBytes 0 64) = 0)
include hHeader

theorem State.dlJudged_body_fails (h : bodyOk (s.stageBytes 0x40 (fieldAt (s.stageBytes 0 64) 8 4)) = false) :
    s.dlJudged prog = s.withBoot ((s.boot.headerPassed (s.stageBytes 0 64)).bodyFailed.download prog) := by
  rw [State.dlJudged, State.takeHeader_passes hHeader, State.withBoot_stageBytes, State.withBoot_boot,
    Boot.headerPassed_bodyLen, State.judgeBody_fails rfl h]
  rfl

theorem State.dlJudged_passes (h : bodyOk (s.stageBytes 0x40 (fieldAt (s.stageBytes 0 64) 8 4)) = true) :
    s.dlJudged prog = s.withBoot ((s.boot.headerPassed (s.stageBytes 0 64)).download prog) := by
  rw [State.dlJudged, State.takeHeader_passes hHeader, State.withBoot_stageBytes, State.withBoot_boot,
    Boot.headerPassed_bodyLen, State.judgeBody_keeps (.inr h)]
  rfl

end

theorem State.dlFollow_program {s : State} (h : s.boot.imgCause = 0) :
    s.dlFollow true = s.withBoot { s.boot with phase := .framProg } := by
  rw [State.dlFollow, if_neg (fun hNot => hNot h), if_pos rfl]

theorem State.dlFollow_apply {s : State} (h : s.boot.imgCause = 0) : s.dlFollow false = s.beginApply := by
  rw [State.dlFollow, if_neg (fun hNot => hNot h), if_neg Bool.false_ne_true]

section
variable {s : State} (hHold : s.boot.phase = .hold) (hBist : s.boot.holdCause ≠ 9) (hConfig : s.boot.holdCause ≠ 11)
include hHold hBist hConfig

theorem exec_dlKey_judged {i : Instr} (hKey : i ∈ [Instr.dlKeyApply, Instr.dlKeyProgram]) :
    ∃ prog, exec i s = finish (.ok, (s.dlJudged prog).dlFollow prog) := by
  simp only [List.mem_cons, List.not_mem_nil, or_false] at hKey
  rcases hKey with rfl | rfl
  · exact ⟨false, (exec_dlKeyApply s).trans (congrArg finish (State.dlKey_judged hHold hBist hConfig false))⟩
  · exact ⟨true, (exec_dlKeyProgram s).trans (congrArg finish (State.dlKey_judged hHold hBist hConfig true))⟩

/-- A staged image that fails renews the hold with its cause (R99). -/
theorem dlKey_fails {i : Instr} (hKey : i ∈ [Instr.dlKeyApply, Instr.dlKeyProgram]) {c : Nat} (hc : c ≠ 0)
    (hJudged : ∀ prog, ∃ b : Boot, s.dlJudged prog = s.withBoot b ∧ b.imgCause = c) :
    Completes i s fun t => t.wst = .ok ∧ t.boot.phase = .hold ∧ t.boot.holdCause = c ∧ t.sram = s.sram ∧ t.fram = s.fram := by
  obtain ⟨prog, hExec⟩ := exec_dlKey_judged hHold hBist hConfig hKey
  obtain ⟨b, hBoot, rfl⟩ := hJudged prog
  have hFollow : (s.withBoot b).dlFollow prog = (s.withBoot b).enterHold b.imgCause := if_pos hc
  rw [hBoot, hFollow] at hExec
  exact ⟨_, hExec, rfl, rfl, rfl, rfl, rfl⟩

variable (hHeader : headerCause s.qb (s.stageBytes 0 64) = 0)
  (hBody : bodyOk (s.stageBytes 0x40 (fieldAt (s.stageBytes 0 64) 8 4)) = true)
include hHeader hBody

theorem exec_dlKeyProgram_passes : exec .dlKeyProgram s = finish (.ok, s.withBoot
    { (s.boot.headerPassed (s.stageBytes 0 64)).download true with phase := .framProg }) := by
  rw [exec_dlKeyProgram, State.dlKey_judged hHold hBist hConfig, State.dlJudged_passes true hHeader hBody,
    State.dlFollow_program rfl]
  rfl

theorem exec_dlKeyApply_passes : exec .dlKeyApply s = finish (.ok, (s.withBoot
    ((s.boot.headerPassed (s.stageBytes 0 64)).download false)).beginApply) := by
  rw [exec_dlKeyApply, State.dlKey_judged hHold hBist hConfig, State.dlJudged_passes false hHeader hBody,
    State.dlFollow_apply rfl]

end

theorem downloads : Parts.Downloads := by
  intro s
  refine ⟨fun hNot => ⟨?_, ?_⟩, fun hHold hBist hConfig => ⟨fun hc i hKey => ?_, fun hc hOk i hKey => ?_,
    fun hc hOk => ⟨?_, ?_⟩⟩, fun hPhase => ⟨?_, ?_⟩⟩
  · rw [exec_dlKeyApply, State.dlKey_denied hNot]
    rfl
  · rw [exec_dlKeyProgram, State.dlKey_denied hNot]
    rfl
  · exact dlKey_fails hHold hBist hConfig hKey hc fun prog => ⟨_, State.dlJudged_header_fails prog hc, rfl⟩
  · exact dlKey_fails hHold hBist hConfig hKey (by decide) fun prog => ⟨_, State.dlJudged_body_fails prog hc hOk, rfl⟩
  · exact ⟨_, exec_dlKeyProgram_passes hHold hBist hConfig hc hOk, rfl, rfl, rfl, rfl⟩
  · exact ⟨_, exec_dlKeyApply_passes hHold hBist hConfig hc hOk, _, rfl, rfl, rfl, rfl⟩
  · exact ⟨_, exec_framProgDone_stored hPhase, rfl⟩
  · refine ⟨_, exec_framProgDone_spoilt hPhase, rfl, rfl, rfl, fun a ha => ?_⟩
    refine Memory.read_writeBytes_other _ _ _ _ _ (.inr ?_)
    rw [openBytes_length, Nat.zero_add]
    exact ha

/-- Settles O15: the slot that boot loads, stores of the calibration, and downloads, each by a lemma of its own above. -/
theorem slotsStoresDownloads : Obligations.SlotsStoresDownloads := ⟨slotChoiceRule, calibrationStore, downloads⟩

end Sys2Proof.Machine
end

section
/-! PROOFS. What boot reads of the FRAM lies in the staging region (R77, R84, R89, Table 4.1). -/

namespace Sys2Proof.Machine

theorem Memory.readBytes_length (d : Byte) (m : List Host.Cell) (a n : Nat) : (Memory.readBytes d m a n).length = n := by
  induction n generalizing a with
  | zero => rfl
  | succ n ih => exact congrArg (· + 1) (ih _)

theorem Memory.readBytes_writeBytes_other (d : Byte) (m : List Host.Cell) (a c n : Nat) (l : List Byte)
    (h : c + n ≤ a ∨ a + l.length ≤ c) : Memory.readBytes d (Memory.writeBytes d m a l) c n = Memory.readBytes d m c n := by
  induction n generalizing c with
  | zero => rfl
  | succ n ih =>
    exact congrArg₂ List.cons (Memory.read_writeBytes_other d m a c l (by omega)) (ih (c + 1) (by omega))

theorem State.framBytes_length (s : State) (a n : Nat) : (s.framBytes a n).length = n := Memory.readBytes_length _ _ _ _

/-- The image in the FRAM: its header, and the body `body`. -/
def State.framImage (s : State) (body : List Byte) : List Byte := s.framBytes 0 64 ++ body

/-- A calibration slot in the FRAM. -/
def State.framSlot (s : State) (b : Bool) : List Byte := s.framBytes (slotBase b) 4096

theorem State.framImage_length (s : State) (body : List Byte) : (s.framImage body).length = 64 + body.length := by
  rw [State.framImage, List.length_append, State.framBytes_length]

theorem State.framSlot_length (s : State) (b : Bool) : (s.framSlot b).length = 4096 := State.framBytes_length _ _ _

/-- The staging region with the image alone, and with slot A too. -/
def State.stagedImageOnly (s : State) (body : List Byte) : List Host.Cell :=
  Memory.writeBytes sramDefault s.sram stageBase (s.framImage body)
def State.stagedWithA (s : State) (body : List Byte) : List Host.Cell :=
  Memory.writeBytes sramDefault (s.stagedImageOnly body) (stageBase + 0x3E000) (s.framSlot false)

theorem State.staged_eq (s : State) (body : List Byte) :
    s.staged body = Memory.writeBytes sramDefault (s.stagedWithA body) (stageBase + 0x3F000) (s.framSlot true) := rfl

section
variable {s : State} {body : List Byte} (hLen : body.length ≤ 253888)

section
variable (hWf : Memory.wf sramDefault s.sram = true)
include hWf

theorem State.stagedImageOnly_wf : Memory.wf sramDefault (s.stagedImageOnly body) = true := Memory.writeBytes_wf _ _ _ _ hWf

theorem State.stagedWithA_wf : Memory.wf sramDefault (s.stagedWithA body) = true :=
  Memory.writeBytes_wf _ _ _ _ (State.stagedImageOnly_wf hWf)

theorem State.staged_slotB : Memory.readBytes sramDefault (s.staged body) (stageBase + 0x3F000) 4096 = s.framSlot true := by
  rw [State.staged_eq, ← s.framSlot_length true]
  exact Memory.readBytes_writeBytes _ _ _ _ (State.stagedWithA_wf hWf)

theorem State.staged_slotA : Memory.readBytes sramDefault (s.staged body) (stageBase + 0x3E000) 4096 = s.framSlot false := by
  rw [State.staged_eq, Memory.readBytes_writeBytes_other _ _ _ _ _ _ (.inl (by decide)), State.stagedWithA,
    ← s.framSlot_length false]
  exact Memory.readBytes_writeBytes _ _ _ _ (State.stagedImageOnly_wf hWf)

include hLen in
theorem State.staged_image :
    Memory.readBytes sramDefault (s.staged body) stageBase (64 + body.length) = s.framImage body := by
  have hEnd (n : Nat) (hn : 0x3E000 ≤ n) : stageBase + (64 + body.length) ≤ stageBase + n := by omega
  rw [State.staged_eq, Memory.readBytes_writeBytes_other _ _ _ _ _ _ (.inl (hEnd _ (by decide))), State.stagedWithA,
    Memory.readBytes_writeBytes_other _ _ _ _ _ _ (.inl (hEnd _ (by decide))), State.stagedImageOnly, ← s.framImage_length body]
  exact Memory.readBytes_writeBytes _ _ _ _ hWf

end

include hLen in
theorem State.staged_other {a : Nat} (ha : a < 0x700000 ∨ 0x740000 ≤ a) :
    Memory.read sramDefault (s.staged body) a = Memory.read sramDefault s.sram a := by
  have hBase : stageBase = 0x700000 := rfl
  have hA := s.framSlot_length false
  have hB := s.framSlot_length true
  have hImage := s.framImage_length body
  rw [State.staged_eq, Memory.read_writeBytes_other _ _ _ _ _ (by omega), State.stagedWithA,
    Memory.read_writeBytes_other _ _ _ _ _ (by omega), State.stagedImageOnly, Memory.read_writeBytes_other _ _ _ _ _ (by omega)]

end

end Sys2Proof.Machine
end

section
/-! PROOFS. The image and the calibration slots are read and judged (R77 to R84, R89, R446). -/

namespace Sys2Proof.Machine

/-! ## The header (R77, R83) -/

/-- The header in the FRAM has been judged. -/
def State.headerTaken (s : State) : State :=
  let s1 := s.takeHeader (s.framBytes 0 64)
  s1.withBoot { s1.boot with hdrRead := true }

theorem exec_headerReadDone {s : State} (hPhase : s.boot.phase = .header) (hRead : s.boot.hdrRead = false)
    (hKind : s.boot.kind ≠ .wake) : exec .headerReadDone s = .next (s.headerTaken.startBist 0) :=
  (if_pos ⟨hPhase, hRead⟩).trans (congrArg _ (if_neg hKind))

/-- What the header `l` says of the image, if it passes (Table 4.3). -/
def Boot.HeaderSays (b : Boot) (l : List Byte) : Prop :=
  b.imgId.toNat = fieldAt l 0x10 4 % 2 ^ 32 ∧ b.bodyLen = fieldAt l 8 4 ∧ b.calUse = fieldAt l 0x15 1

theorem Boot.headerPassed_says (b : Boot) (l : List Byte) : (b.headerPassed l).HeaderSays l :=
  ⟨BitVec.toNat_ofNat _ _, rfl, rfl⟩

/-- BOOT once the header in the FRAM has been judged (R83). -/
theorem State.headerTaken_boot (s : State) : ∃ b : Boot, s.headerTaken = s.withBoot b ∧ b.hdrRead = true ∧
    b.imgCause = headerCause s.qb (s.framBytes 0 64) ∧ (b.imgCause = 0 → b.HeaderSays (s.framBytes 0 64)) ∧
    b.released = s.boot.released := by
  unfold State.headerTaken
  by_cases hPasses : headerCause s.qb (s.framBytes 0 64) = 0
  · rw [State.takeHeader_passes hPasses]
    exact ⟨_, rfl, rfl, hPasses.symm, fun _ => s.boot.headerPassed_says (s.framBytes 0 64), rfl⟩
  · rw [State.takeHeader_fails hPasses]
    generalize headerCause s.qb (s.framBytes 0 64) = c at hPasses ⊢
    exact ⟨_, rfl, rfl, rfl, fun hZero => absurd hZero hPasses, rfl⟩

/-- Phase 1 of the self-test begins: SRAM banks 6 and 7 and the logic of CORE (Table 4.6). -/
theorem State.startBist_first (s : State) : s.startBist 0 = s.withBoot { s.boot with
    phase := .bist, bistPhase := 0, bistTaint := s.fltLive .sys
    bistEng := vset s.boot.bistEng 0 1, bistMem := vset (vset s.boot.bistMem 6 1) 7 1 } := rfl

theorem headerReadDone_reads {s : State} (hPhase : s.boot.phase = .header) (hRead : s.boot.hdrRead = false)
    (hKind : s.boot.kind ≠ .wake) : Completes .headerReadDone s (fun t => t = { s with boot := t.boot } ∧ t.boot.hdrRead = true ∧
      t.boot.phase = .bist ∧ t.boot.bistPhase = 0 ∧ t.boot.imgCause = headerCause s.qb (s.framBytes 0 64) ∧
      (t.boot.imgCause = 0 → t.boot.HeaderSays (s.framBytes 0 64)) ∧
      t.boot.bistEng[0] = 1 ∧ t.boot.bistMem[6] = 1 ∧ t.boot.bistMem[7] = 1 ∧ t.boot.released = s.boot.released) := by
  obtain ⟨b, hBoot, hHdr, hCause, hSays, hReleased⟩ := s.headerTaken_boot
  refine ⟨_, exec_headerReadDone hPhase hRead hKind, ?_⟩
  rw [hBoot, State.startBist_first]
  exact ⟨rfl, hHdr, rfl, rfl, hCause, hSays,
    vset_same _ 0 1, (vset_other _ 7 6 1 (by decide)).trans (vset_same _ 6 1), vset_same _ 7 1, hReleased⟩

/-! ## The body and the slots (R84, R89, Table 4.1) -/

/-- The body in the FRAM. -/
def State.framBody (s : State) : List Byte := s.framBytes 0x40 s.boot.bodyLen

/-- What the slots `slotA` and `slotB` leave in BOOT (R89, R90). -/
def Boot.slotsRead (b : Boot) (slotA slotB : List Byte) : Boot :=
  { b with
    aValid := slotOk slotA && !b.torn.getLsbD 0, bValid := slotOk slotB && !b.torn.getLsbD 1
    genA := fieldAt slotA 8 4, genB := fieldAt slotB 8 4 }

/-- The state with `m` in the SRAM. -/
def State.withSram (s : State) (m : List Host.Cell) : State := { s with sram := m }

theorem State.withSram_framSlot (s : State) (m : List Host.Cell) (b : Bool) : (s.withSram m).framSlot b = s.framSlot b := rfl
theorem State.withSram_boot (s : State) (m : List Host.Cell) : (s.withSram m).boot = s.boot := rfl

theorem State.readSlots_eq (s : State) : s.readSlots = s.withBoot (s.boot.slotsRead (s.framSlot false) (s.framSlot true)) := rfl

/-- The check of the body `l` leaves its verdict in BOOT, unless an earlier one has failed (R84). -/
def Boot.bodyJudged (b : Boot) (l : List Byte) : Boot := if b.imgCause = 0 ∧ bodyOk l = false then b.bodyFailed else b

theorem State.judgeBody_eq (s : State) (l : List Byte) : s.judgeBody l = s.withBoot (s.boot.bodyJudged l) := by
  unfold State.judgeBody Boot.bodyJudged
  split <;> rfl

theorem Boot.bodyJudged_imgCause (b : Boot) (l : List Byte) :
    (b.bodyJudged l).imgCause = if b.imgCause = 0 ∧ bodyOk l = false then 6 else b.imgCause := by
  unfold Boot.bodyJudged
  split <;> rfl

/-- The check of the body leaves all but its verdict alone. -/
theorem Boot.bodyJudged_frame (b : Boot) (l : List Byte) : b.bodyJudged l = { b with imgCause := (b.bodyJudged l).imgCause } := by
  unfold Boot.bodyJudged
  split <;> rfl

/-- The body has been read. -/
def Boot.markRead (b : Boot) : Boot := { b with bodyRead := true }

/-- BOOT once body and slots have been judged. -/
def State.bodyBoot (s : State) : Boot :=
  ((s.boot.slotsRead (s.framSlot false) (s.framSlot true)).bodyJudged s.framBody).markRead

/-- Image and slots lie in the staging region and have been judged. -/
def State.bodyTaken (s : State) : State :=
  let s1 := (s.withSram (s.staged s.framBody)).readSlots.judgeBody s.framBody
  s1.withBoot s1.boot.markRead

theorem State.bodyTaken_eq (s : State) : s.bodyTaken = (s.withSram (s.staged s.framBody)).withBoot s.bodyBoot := by
  rw [State.bodyTaken, State.bodyBoot, State.readSlots_eq, State.judgeBody_eq, State.withBoot_boot, State.withBoot_boot,
    State.withBoot_withBoot, State.withBoot_withBoot, State.withSram_framSlot, State.withSram_framSlot, State.withSram_boot]

section
variable {s : State} (hHdr : s.boot.hdrRead = true) (hBody : s.boot.bodyRead = false)
include hHdr hBody

theorem exec_bodyReadDone (hPhase : s.boot.phase = .bist) (hBist : 1 ≤ s.boot.bistPhase) (hKind : s.boot.kind ≠ .wake) :
    exec .bodyReadDone s = .next s.bodyTaken :=
  (if_pos ⟨hHdr, hBody, .inl ⟨hPhase, hBist⟩⟩).trans (congrArg _ (if_neg (by simpa using hKind)))

theorem exec_bodyReadDone_wake (hPhase : s.boot.phase = .header) (hKind : s.boot.kind = .wake) :
    exec .bodyReadDone s = .next (if s.bodyTaken.boot.imgCause = 0 then s.bodyTaken.beginApply
      else s.bodyTaken.enterHold s.bodyTaken.boot.imgCause) :=
  (if_pos ⟨hHdr, hBody, .inr ⟨by simp [hKind], hPhase⟩⟩).trans (congrArg _ (if_pos (by simp [hKind])))

end

/-- The cause that the image has after the check of its body (R84). -/
def State.bodyCause (s : State) : Nat := if s.boot.imgCause = 0 ∧ bodyOk s.framBody = false then 6 else s.boot.imgCause

/-- The verdicts on body and slots are known in `b` (R84, R89, R90). -/
def State.BodyJudged (s : State) (b : Boot) : Prop :=
  b.bodyRead = true ∧ b.imgCause = s.bodyCause ∧
    b.aValid = (slotOk (s.framSlot false) && !s.boot.torn.getLsbD 0) ∧
    b.bValid = (slotOk (s.framSlot true) && !s.boot.torn.getLsbD 1)

theorem State.bodyBoot_judged (s : State) : s.BodyJudged s.bodyBoot := by
  unfold State.bodyBoot State.BodyJudged State.bodyCause
  generalize s.framSlot false = slotA, s.framSlot true = slotB, s.framBody = body
  refine ⟨rfl, Boot.bodyJudged_imgCause _ _, ?_, ?_⟩
  · rw [Boot.bodyJudged_frame]
    rfl
  · rw [Boot.bodyJudged_frame]
    rfl

theorem State.bodyBoot_phase (s : State) : s.bodyBoot.phase = s.boot.phase ∧ s.bodyBoot.bistPhase = s.boot.bistPhase := by
  unfold State.bodyBoot
  generalize s.framSlot false = slotA, s.framSlot true = slotB, s.framBody = body
  rw [Boot.bodyJudged_frame]
  exact ⟨rfl, rfl⟩

/-- Image and slots lie in the staging region of `t` (Table 4.1). -/
def State.StagedIn (s t : State) : Prop :=
  t.stageBytes 0 (64 + s.boot.bodyLen) = s.framBytes 0 64 ++ s.framBody ∧
    t.stageBytes 0x3E000 4096 = s.framBytes 0x3E000 4096 ∧ t.stageBytes 0x3F000 4096 = s.framBytes 0x3F000 4096 ∧
    ∀ a, a < 0x700000 ∨ 0x740000 ≤ a → Memory.read sramDefault t.sram a = Memory.read sramDefault s.sram a

theorem State.stagedIn_of_sram {s t : State} (hLen : s.boot.bodyLen ≤ 253888) (hWf : Memory.wf sramDefault s.sram = true)
    (ht : t.sram = s.staged s.framBody) : s.StagedIn t := by
  have hBody : s.framBody.length = s.boot.bodyLen := s.framBytes_length _ _
  rw [← hBody] at hLen
  unfold State.StagedIn State.stageBytes
  rw [ht, ← hBody]
  exact ⟨State.staged_image hLen hWf, State.staged_slotA hWf, State.staged_slotB hWf, fun a ha => State.staged_other hLen ha⟩

theorem State.withSram_withBoot (s : State) (m : List Host.Cell) (b : Boot) : (s.withSram m).withBoot b = { s with
    boot := ((s.withSram m).withBoot b).boot, sram := ((s.withSram m).withBoot b).sram } := rfl

theorem State.withSram_withBoot_sram (s : State) (m : List Host.Cell) (b : Boot) : ((s.withSram m).withBoot b).sram = m := rfl

theorem bodyReadDone_judges {s : State} (hHdr : s.boot.hdrRead = true) (hBody : s.boot.bodyRead = false)
    (hPhase : s.boot.phase = .bist) (hAt : 1 ≤ s.boot.bistPhase) (hKind : s.boot.kind ≠ .wake) :
    Completes .bodyReadDone s fun t => t = { s with boot := t.boot, sram := t.sram } ∧ t.boot = s.bodyBoot ∧
      t.sram = s.staged s.framBody :=
  ⟨_, (exec_bodyReadDone hHdr hBody hPhase hAt hKind).trans (congrArg _ s.bodyTaken_eq),
    s.withSram_withBoot _ _, State.withBoot_boot _ _, s.withSram_withBoot_sram _ _⟩

theorem State.enterHold_sram (s : State) (c : Nat) : (s.enterHold c).sram = s.sram := rfl

theorem State.bodyTaken_imgCause (s : State) : s.bodyTaken.boot.imgCause = s.bodyCause := by
  obtain ⟨-, hCause, -⟩ := s.bodyBoot_judged
  rw [State.bodyTaken_eq]
  exact hCause

section
variable {s : State} (hHdr : s.boot.hdrRead = true) (hBody : s.boot.bodyRead = false) (hPhase : s.boot.phase = .header)
  (hKind : s.boot.kind = .wake)
include hHdr hBody hPhase hKind

/-- After a wake an image that fails leads to the hold (R446). -/
theorem exec_bodyReadDone_fails (hCause : s.bodyCause ≠ 0) : exec .bodyReadDone s =
    .next (((s.withSram (s.staged s.framBody)).withBoot s.bodyBoot).enterHold s.bodyCause) := by
  rw [exec_bodyReadDone_wake hHdr hBody hPhase hKind, State.bodyTaken_imgCause, if_neg hCause, State.bodyTaken_eq]

/-- After a wake an image that passes is applied (R446). -/
theorem exec_bodyReadDone_passes (hCause : s.bodyCause = 0) : exec .bodyReadDone s =
    .next ((s.withSram (s.staged s.framBody)).withBoot s.bodyBoot).beginApply := by
  rw [exec_bodyReadDone_wake hHdr hBody hPhase hKind, State.bodyTaken_imgCause, if_pos hCause, State.bodyTaken_eq]

end

theorem imageIsRead : Parts.ImageIsRead := by
  refine ⟨fun s hPhase hRead hKind => headerReadDone_reads hPhase hRead hKind, fun s hHdr hBody hLen hWf => ?_⟩
  have hJudged := s.bodyBoot_judged
  obtain ⟨hPhase, hBist⟩ := s.bodyBoot_phase
  have hStaged {t : State} (ht : t.sram = s.staged s.framBody) : s.StagedIn t := State.stagedIn_of_sram hLen hWf ht
  refine ⟨fun hNow hAt hKind => ?_, fun hNow hKind => ⟨fun hCause => ?_, fun hCause => ?_⟩⟩
  · obtain ⟨t, hExec, hFrame, hBoot, hSram⟩ := bodyReadDone_judges hHdr hBody hNow hAt hKind
    rw [← hBoot] at hJudged hPhase hBist
    exact ⟨t, hExec, hFrame, hJudged, hStaged hSram, hPhase.trans hNow, hBist⟩
  · exact ⟨_, exec_bodyReadDone_fails hHdr hBody hNow hKind hCause, hJudged,
      hStaged ((State.enterHold_sram _ _).trans (s.withSram_withBoot_sram _ _)), rfl, rfl, rfl⟩
  · exact ⟨_, exec_bodyReadDone_passes hHdr hBody hNow hKind hCause, _, State.withSram_withBoot _ _ _, hJudged,
      hStaged (s.withSram_withBoot_sram _ _), rfl⟩

end Sys2Proof.Machine
end

section
/-! PROOFS. The power-up self-test: the results of a phase are latched and the next one begins (R92 to R94). -/

namespace Sys2Proof.Machine

/-! ## The end of a self-test phase (R92 to R94) -/

/-- The fifth phase has ended (R92). -/
def State.bistOver (s : State) : State := s.withBoot { s.boot with bistPhase := 5 }

section
variable {s : State} (lo hi logic : BistRun)

/-- The first four phases end with the next one begun, the fifth with none (R92). -/
theorem exec_bistPhaseEnd (hPhase : s.boot.phase = .bist) (hBefore : s.boot.bistPhase < 4) :
    exec (.bistPhaseEnd lo hi logic) s =
      .next ((s.bistLatch s.boot.bistPhase lo hi logic).startBist (s.boot.bistPhase + 1)) :=
  (if_pos ⟨hPhase, Nat.lt_succ_of_lt hBefore⟩).trans (congrArg _ (if_neg (Nat.ne_of_lt hBefore)))

theorem exec_bistPhaseEnd_last (hPhase : s.boot.phase = .bist) (hLast : s.boot.bistPhase = 4) :
    exec (.bistPhaseEnd lo hi logic) s = .next (s.bistLatch 4 lo hi logic).bistOver := by
  rw [← hLast]
  exact (if_pos ⟨hPhase, hLast ▸ by decide⟩).trans (congrArg _ (if_pos hLast))

end

/-- Two banks of SRAM have been tested. -/
def State.banksTested (s : State) (k : Nat) (lo hi : BistRun) : State :=
  (s.bankTested (bistBanks k).1 lo).bankTested (bistBanks k).2 hi

theorem State.banksTested_bistMem (s : State) (k : Nat) (lo hi : BistRun) :
    (s.banksTested k lo hi).boot.bistMem =
      vset (vset s.boot.bistMem (bistBanks k).1 (memRes lo (s.tainted none) (repair lo.cells s.free)))
        (bistBanks k).2 (memRes hi (s.tainted none) (repair hi.cells (s.free + 1))) := rfl

/-- The logic engine of a phase has ended; an HL8640-QB has none in phase 4 (Table 4.6). -/
def State.logicTested (s : State) (k r : Nat) : State :=
  if k = 3 ∧ s.qb then s else s.withBoot { s.boot with bistEng := vset s.boot.bistEng (Fin.ofNat 6 k) r }

theorem State.bistLatch_banks (s : State) {k : Nat} (h : k ≠ 4) (lo hi logic : BistRun) : s.bistLatch k lo hi logic =
    (s.banksTested k lo hi).logicTested k (engineRes logic (s.tainted (bistHalf k))) := if_neg h

theorem State.logicTested_bistMem (s : State) (k r : Nat) : (s.logicTested k r).boot.bistMem = s.boot.bistMem := by
  unfold State.logicTested
  split <;> rfl

theorem State.logicTested_bistEng (s : State) {k : Nat} (r : Nat) (h : k = 3 → s.qb = false) :
    (s.logicTested k r).boot.bistEng = vset s.boot.bistEng (Fin.ofNat 6 k) r := by
  rw [State.logicTested, if_neg (by simpa using h)]
  rfl

/-- `t` is `s` with results of the self-test latched, and nothing else but open choices drawn. -/
def State.SelfTested (s t : State) : Prop :=
  t = { s with boot := t.boot, free := t.free } ∧ t.boot.imgCause = s.boot.imgCause ∧ t.boot.released = s.boot.released

theorem State.SelfTested.trans {s t u : State} (h : s.SelfTested t) (k : t.SelfTested u) : s.SelfTested u := by
  obtain ⟨hFrame, hCause, hReleased⟩ := h
  obtain ⟨kFrame, kCause, kReleased⟩ := k
  refine ⟨?_, kCause.trans hCause, kReleased.trans hReleased⟩
  rw [kFrame, hFrame]

theorem State.banksTested_selfTested (s : State) (k : Nat) (lo hi : BistRun) : s.SelfTested (s.banksTested k lo hi) :=
  ⟨rfl, rfl, rfl⟩

theorem State.logicTested_selfTested (s : State) (k r : Nat) : s.SelfTested (s.logicTested k r) := by
  unfold State.logicTested
  split <;> exact ⟨rfl, rfl, rfl⟩

theorem State.bistLatch_selfTested (s : State) {k : Nat} (h : k ≠ 4) (lo hi logic : BistRun) :
    s.SelfTested (s.bistLatch k lo hi logic) := by
  rw [State.bistLatch_banks s h]
  exact (s.banksTested_selfTested k lo hi).trans (State.logicTested_selfTested _ _ _)

/-! ## The beginning of a phase (Table 4.6) -/

theorem State.startBist_selfTested (s : State) (k : Nat) : s.SelfTested (s.startBist k) := by
  unfold State.startBist
  dsimp only
  split <;> exact ⟨rfl, rfl, rfl⟩

theorem State.startBist_bistMem_other (s : State) {k : Nat} {b : Fin 8} (h : k ≠ 4 → b ≠ (bistBanks k).1 ∧ b ≠ (bistBanks k).2) :
    (s.startBist k).boot.bistMem[b] = s.boot.bistMem[b] := by
  unfold State.startBist
  dsimp only
  split
  · rfl
  · next hk =>
    obtain ⟨hLo, hHi⟩ := h hk
    exact (vset_other _ _ _ _ hHi).trans (vset_other _ _ _ _ hLo)

/-- The engines of the phases before keep their results. -/
theorem State.startBist_bistEng_before (s : State) {k : Nat} {i : Fin 6} (hk : k ≤ 4) (hi : i.val < k) :
    (s.startBist k).boot.bistEng[i] = s.boot.bistEng[i] := by
  have hOther {j : Fin 6} (hj : k ≤ j.val) : i ≠ j := fun h => absurd (h ▸ hi) (Nat.not_lt.mpr hj)
  unfold State.startBist
  dsimp only
  split
  · next h4 =>
    exact (vset_other _ _ _ _ (hOther (h4 ▸ by decide))).trans (vset_other _ _ _ _ (hOther (h4 ▸ by decide)))
  · split
    · next h3 => exact vset_other _ _ _ _ (hOther (h3.1 ▸ by decide))
    · refine vset_other _ _ _ _ (hOther ?_)
      rw [Fin.val_ofNat, Nat.mod_eq_of_lt (by omega)]

/-- The banks of two phases differ (Table 4.6). -/
theorem bistBanks_next_ne : ∀ k < 4, k + 1 ≠ 4 →
    ((bistBanks k).1 ≠ (bistBanks (k + 1)).1 ∧ (bistBanks k).1 ≠ (bistBanks (k + 1)).2) ∧
    ((bistBanks k).2 ≠ (bistBanks (k + 1)).1 ∧ (bistBanks k).2 ≠ (bistBanks (k + 1)).2) := by decide

theorem bistBanks_ne : ∀ k < 4, (bistBanks k).1 ≠ (bistBanks k).2 := by decide

/-- The results of a phase with SRAM banks, as the beginning of the next phase leaves them (R92 to R94). -/
theorem bistPhaseEnd_latches {s : State} {k : Nat} (hk : k < 4) (lo hi logic : BistRun) :
    let t := (s.bistLatch k lo hi logic).startBist (k + 1)
    t.boot.bistMem[(bistBanks k).1] = memRes lo (s.tainted none) (repair lo.cells s.free) ∧
    t.boot.bistMem[(bistBanks k).2] = memRes hi (s.tainted none) (repair hi.cells (s.free + 1)) ∧
    ((k = 3 → s.qb = false) → t.boot.bistEng[Fin.ofNat 6 k] = engineRes logic (s.tainted (bistHalf k))) := by
  intro t
  have hEnd : (Fin.ofNat 6 k).val < k + 1 := by
    rw [Fin.val_ofNat]
    exact Nat.lt_succ_of_le (Nat.mod_le k 6)
  refine ⟨?_, ?_, fun hQb => ?_⟩
  · rw [State.startBist_bistMem_other _ fun h => (bistBanks_next_ne k hk h).1, State.bistLatch_banks s (Nat.ne_of_lt hk),
      State.logicTested_bistMem, State.banksTested_bistMem]
    exact (vset_other _ _ _ _ (bistBanks_ne k hk)).trans (vset_same _ _ _)
  · rw [State.startBist_bistMem_other _ fun h => (bistBanks_next_ne k hk h).2, State.bistLatch_banks s (Nat.ne_of_lt hk),
      State.logicTested_bistMem, State.banksTested_bistMem]
    exact vset_same _ _ _
  · rw [State.startBist_bistEng_before _ hk hEnd, State.bistLatch_banks s (Nat.ne_of_lt hk), State.logicTested_bistEng (s.banksTested k lo hi) _ hQb]
    exact vset_same _ _ _

theorem selfTestPhases : Parts.SelfTestPhases := by
  intro s lo hi logic hPhase hBefore
  by_cases hLast : s.boot.bistPhase = 4
  · refine ⟨_, exec_bistPhaseEnd_last lo hi logic hPhase hLast, rfl, hPhase, (congrArg (· + 1) hLast).symm, rfl, rfl,
      fun _ => ⟨?_, vset_same _ _ _, rfl⟩, fun j hj => absurd (hj.trans hLast) (Nat.ne_of_lt j.isLt)⟩
    exact (vset_other _ _ _ _ (by decide)).trans (vset_same _ _ _)
  · have hk : s.boot.bistPhase < 4 := by omega
    obtain ⟨hFrame, hCause, hReleased⟩ := (s.bistLatch_selfTested hLast lo hi logic).trans
      (State.startBist_selfTested _ (s.boot.bistPhase + 1))
    obtain ⟨hLo, hHi, hLogic⟩ := bistPhaseEnd_latches hk lo hi logic
    refine ⟨_, exec_bistPhaseEnd lo hi logic hPhase hk, hFrame, rfl, rfl, hCause, hReleased, fun h => absurd h hLast,
      fun j hj => ⟨hLo, hHi, fun hQb => ?_⟩⟩
    have hAt : j.castLE (by omega : 4 ≤ 6) = Fin.ofNat 6 s.boot.bistPhase := by
      ext
      rw [← hj, Fin.val_ofNat, Nat.mod_eq_of_lt (Nat.lt_trans j.isLt (by decide))]
      rfl
    refine (congrArg (fun i : Fin 6 => Vector.get _ i) hAt).trans (hLogic fun h3 => hQb (Fin.ext (hj.trans h3)))

/-- Settles O12: the header, the body and the slots are read and judged, and each self-test phase latches its results. -/
theorem imageReadAndTested : Obligations.ImageReadAndTested := ⟨imageIsRead, selfTestPhases⟩

end Sys2Proof.Machine
end

section
/-! PROOFS. The records of an image, applied or refused with their cause (R84 to R87). -/

namespace Sys2Proof.Machine

/-! ## The walk goes on, or apply ends -/

/-- The state after the record at the walk, before the next one is met: `wf` says whether it keeps the rule of its TYPE, `w` what
its writes have come to. -/
def State.recordJudged (s : State) (wf : Bool) (w : Bool × State) : State :=
  if s.recFatal s.recHead = true ∨ 2 ≤ s.recHead.flags ∨ wf = false then s.recFails s s.recHead 7
  else if w.1 then w.2.pastRec s.recHead else s.recFails w.2 s.recHead 8

/-- The record at the walk has been processed. -/
def State.recordRun (s : State) (wf : Bool) (w : Bool × State) : State :=
  (s.recordJudged wf w).settleWalk (s.recordJudged wf w).boot.bodyLen

theorem State.processRec_at {s : State} {t : Nat} (wf : RecHead → List Byte → Bool) (ap : List Byte → State → Bool × State)
    (hPhase : s.boot.phase = .apply) (hBefore : s.boot.walk < s.boot.endAt) (hType : s.recHead.type = t) :
    s.processRec t wf ap = s.recordRun (wf s.recHead (s.payload s.recHead)) (ap (s.payload s.recHead) s) := by
  have hMeets : ¬ (s.boot.phase ≠ .apply ∨ s.boot.endAt ≤ s.boot.walk ∨ s.recHead.type ≠ t) := by
    simp [hPhase, hType, hBefore]
  exact if_neg hMeets

/-- The state in which the record at the walk has been skipped (R85). -/
def State.recordSkipped (s : State) : State :=
  State.pastRec { s with boot := { s.boot with skipCnt := min 65535 (s.boot.skipCnt + 1) } } s.recHead

theorem State.recFails_skips {s : State} (bad : State) (c : Nat) (hOptional : s.recHead.flags % 2 = 1)
    (hFound : s.recFatal s.recHead = false) : s.recFails bad s.recHead c = s.recordSkipped := if_pos ⟨hOptional, hFound⟩

theorem State.recFails_ends {s : State} (bad : State) (c : Nat)
    (h : s.recHead.flags % 2 = 0 ∨ s.recFatal s.recHead = true) : s.recFails bad s.recHead c = bad.failApply c := by
  refine if_neg fun hSkips => ?_
  obtain ⟨hOptional, hFound⟩ := hSkips
  rcases h with h | h
  · exact absurd (h.symm.trans hOptional) (by decide)
  · exact Bool.false_ne_true (hFound.symm.trans h)

/-- No record is met outside apply. -/
theorem State.settleWalk_rests {s : State} (h : s.boot.phase ≠ .apply) (n : Nat) : s.settleWalk n = s := by
  cases n with
  | zero => rfl
  | succ n =>
    rw [State.settleWalk]
    exact if_pos (.inl h)

theorem State.failApply_settleWalk (s : State) (c n : Nat) : (s.failApply c).settleWalk n = s.failApply c :=
  State.settleWalk_rests (by simp [State.failApply, State.enterHold]) n

theorem State.failApply_holds (s : State) (c : Nat) :
    (s.failApply c).boot.phase = .hold ∧ (s.failApply c).boot.inHold = true ∧ (s.failApply c).boot.holdCause = c := ⟨rfl, rfl, rfl⟩

/-! ## One record -/

section
variable {s : State} {wf : Bool} {w : Bool × State}

theorem State.recordRun_of_ends {bad : State} {c : Nat} (h : s.recordJudged wf w = bad.failApply c) :
    s.recordRun wf w = bad.failApply c := by
  rw [State.recordRun, h, State.failApply_settleWalk]

theorem State.recordRun_of_skips (h : s.recordJudged wf w = s.recordSkipped) :
    s.recordRun wf w = s.recordSkipped.settleWalk s.boot.bodyLen := by
  rw [State.recordRun, h]
  rfl

/-- A record past which no other can be found ends apply (R85). -/
theorem State.recordRun_fatal (hFatal : s.recFatal s.recHead = true) : s.recordRun wf w = s.failApply 7 := by
  apply State.recordRun_of_ends
  rw [State.recordJudged, if_pos (.inl hFatal), State.recFails_ends s 7 (.inr hFatal)]

section
variable (hMalformed : 2 ≤ s.recHead.flags ∨ wf = false)
include hMalformed

theorem State.recordRun_malformed_skips (hFound : s.recFatal s.recHead = false) (hOptional : s.recHead.flags % 2 = 1) :
    s.recordRun wf w = s.recordSkipped.settleWalk s.boot.bodyLen := by
  apply State.recordRun_of_skips
  rw [State.recordJudged, if_pos (.inr hMalformed), State.recFails_skips s 7 hOptional hFound]

theorem State.recordRun_malformed_ends (hNeeded : s.recHead.flags % 2 = 0) : s.recordRun wf w = s.failApply 7 := by
  apply State.recordRun_of_ends
  rw [State.recordJudged, if_pos (.inr hMalformed), State.recFails_ends s 7 (.inl hNeeded)]

end

section
variable (hFound : s.recFatal s.recHead = false) (hFlags : s.recHead.flags < 2) (hWf : wf = true)
include hFound hFlags hWf

theorem State.recordJudged_wellFormed :
    s.recordJudged wf w = if w.1 then w.2.pastRec s.recHead else s.recFails w.2 s.recHead 8 :=
  if_neg (by simp [hFound, hWf, hFlags])

theorem State.recordRun_written (hWritten : w.1 = true) :
    s.recordRun wf w = (w.2.pastRec s.recHead).settleWalk w.2.boot.bodyLen := by
  rw [State.recordRun, State.recordJudged_wellFormed hFound hFlags hWf, if_pos hWritten]
  rfl

theorem State.recordRun_fails_skips (hFails : w.1 = false) (hOptional : s.recHead.flags = 1) :
    s.recordRun wf w = s.recordSkipped.settleWalk s.boot.bodyLen := by
  apply State.recordRun_of_skips
  rw [State.recordJudged_wellFormed hFound hFlags hWf, if_neg (by simp [hFails]),
    State.recFails_skips w.2 8 (by rw [hOptional]) hFound]

theorem State.recordRun_fails_ends (hFails : w.1 = false) (hNeeded : s.recHead.flags = 0) :
    s.recordRun wf w = w.2.failApply 8 := by
  apply State.recordRun_of_ends
  rw [State.recordJudged_wellFormed hFound hFlags hWf, if_neg (by simp [hFails]),
    State.recFails_ends w.2 8 (.inl (by rw [hNeeded]))]

end

end

/-- What command `i`, which processes the record at the walk, comes to (R85): the record is applied, skipped, or ends apply. -/
def State.RecordRule (s : State) (i : Instr) (wf : Bool) (w : Bool × State) : Prop :=
  (s.recFatal s.recHead = false → s.recHead.flags < 2 → wf = true →
    (w.1 = true → Completes i s (fun t => t = (w.2.pastRec s.recHead).settleWalk w.2.boot.bodyLen)) ∧
    (w.1 = false → s.recHead.flags = 1 → Completes i s (fun t => t = s.recordSkipped.settleWalk s.boot.bodyLen)) ∧
    (w.1 = false → s.recHead.flags = 0 → Completes i s (fun t => t = w.2.failApply 8 ∧
      t.boot.phase = .hold ∧ t.boot.inHold = true ∧ t.boot.holdCause = 8))) ∧
  (s.recFatal s.recHead = false → 2 ≤ s.recHead.flags ∨ wf = false →
    (s.recHead.flags % 2 = 1 → Completes i s (fun t => t = s.recordSkipped.settleWalk s.boot.bodyLen)) ∧
    (s.recHead.flags % 2 = 0 → Completes i s (fun t => t = s.failApply 7 ∧
      t.boot.phase = .hold ∧ t.boot.inHold = true ∧ t.boot.holdCause = 7))) ∧
  (s.recFatal s.recHead = true → Completes i s (fun t => t = s.failApply 7 ∧
    t.boot.phase = .hold ∧ t.boot.inHold = true ∧ t.boot.holdCause = 7))

theorem recordRule_of_exec {s : State} {i : Instr} {wf : Bool} {w : Bool × State} (h : exec i s = .next (s.recordRun wf w)) :
    s.RecordRule i wf w := by
  have hEnds {bad : State} {c : Nat} (hRun : s.recordRun wf w = bad.failApply c) : Completes i s (fun t => t = bad.failApply c ∧
      t.boot.phase = .hold ∧ t.boot.inHold = true ∧ t.boot.holdCause = c) :=
    ⟨_, h.trans (congrArg _ hRun), rfl, bad.failApply_holds c⟩
  refine ⟨fun hFound hFlags hWf => ⟨fun hWritten => ?_, fun hFails hOptional => ?_, fun hFails hNeeded => ?_⟩,
    fun hFound hMalformed => ⟨fun hOptional => ?_, fun hNeeded => ?_⟩, fun hFatal => ?_⟩
  · exact ⟨_, h, State.recordRun_written hFound hFlags hWf hWritten⟩
  · exact ⟨_, h, State.recordRun_fails_skips hFound hFlags hWf hFails hOptional⟩
  · exact hEnds (State.recordRun_fails_ends hFound hFlags hWf hFails hNeeded)
  · exact ⟨_, h, State.recordRun_malformed_skips hMalformed hFound hOptional⟩
  · exact hEnds (State.recordRun_malformed_ends hMalformed hNeeded)
  · exact hEnds (State.recordRun_fatal hFatal)

/-! ## The records of Table 4.4 -/

section
variable {s : State} (hPhase : s.boot.phase = .apply) (hBefore : s.boot.walk < s.boot.endAt)
include hPhase hBefore

theorem exec_regWriteRecord (hType : s.recHead.type = 1) : exec .regWriteRecord s =
    .next (s.recordRun (s.recHead.len % 8 == 0) (s.writePairs (wordsOf (s.payload s.recHead)))) :=
  congrArg _ (State.processRec_at _ _ hPhase hBefore hType)

theorem exec_regMaskRecord (hType : s.recHead.type = 2) : exec .regMaskRecord s =
    .next (s.recordRun (s.recHead.len % 12 == 0) (s.writeMasks (wordsOf (s.payload s.recHead)))) :=
  congrArg _ (State.processRec_at _ _ hPhase hBefore hType)

theorem exec_regSeqRecord (hType : s.recHead.type = 3) : exec .regSeqRecord s =
    .next (s.recordRun (decide (8 ≤ s.recHead.len))
      (s.writeSeq (fieldAt (s.payload s.recHead) 0 4) (wordsOf ((s.payload s.recHead).drop 4)))) :=
  congrArg _ (State.processRec_at _ _ hPhase hBefore hType)

theorem exec_sramLoadRecord (hType : s.recHead.type = 4) : exec .sramLoadRecord s =
    .next (s.recordRun (decide (4 ≤ s.recHead.len) && fieldAt (s.payload s.recHead) 0 4 % 4 == 0)
      (if loadable (fieldAt (s.payload s.recHead) 0 4) (wordsOf ((s.payload s.recHead).drop 4)).length then
        s.loadSram (fieldAt (s.payload s.recHead) 0 4) (wordsOf ((s.payload s.recHead).drop 4)) else (false, s))) :=
  congrArg _ (State.processRec_at _ _ hPhase hBefore hType)

theorem exec_sramFillRecord (hType : s.recHead.type = 5) : exec .sramFillRecord s =
    .next (s.recordRun (s.recHead.len == 12 && fieldAt (s.payload s.recHead) 0 4 % 4 == 0 &&
        fieldAt (s.payload s.recHead) 4 4 % 4 == 0)
      (if loadable (fieldAt (s.payload s.recHead) 0 4) (fieldAt (s.payload s.recHead) 4 4 / 4) then
        s.fillSram (fieldAt (s.payload s.recHead) 0 4) (BitVec.ofNat 32 (fieldAt (s.payload s.recHead) 8 4))
          (fieldAt (s.payload s.recHead) 4 4 / 4) else (false, s))) :=
  congrArg _ (State.processRec_at _ _ hPhase hBefore hType)

theorem exec_authInitRecord (hType : s.recHead.type = 6) : exec .authInitRecord s =
    .next (s.recordRun (s.recHead.len == 4 && decide (fieldAt (s.payload s.recHead) 0 1 ≤ 1 ∧
        fieldAt (s.payload s.recHead) 1 1 ≤ 1) && fieldAt (s.payload s.recHead) 2 2 == 0)
      (true, s.withBoot { s.boot with authInit :=
        ⟨#[Half.byNum (fieldAt (s.payload s.recHead) 0 1), Half.byNum (fieldAt (s.payload s.recHead) 1 1)], rfl⟩ })) :=
  congrArg _ (State.processRec_at _ _ hPhase hBefore hType)

end

/-- Settles O13: each record type's command is the same walk over its own rule and its own writes. -/
theorem recordsApplied : Obligations.RecordsApplied := by
  intro s e r pl o w n hType hPhase hBefore hAt
  simp only [List.mem_cons, List.not_mem_nil, or_false] at hType
  rcases hType with rfl | rfl | rfl | rfl | rfl | rfl
  · exact recordRule_of_exec (exec_regWriteRecord hPhase hBefore hAt)
  · exact recordRule_of_exec (exec_regMaskRecord hPhase hBefore hAt)
  · exact recordRule_of_exec (exec_regSeqRecord hPhase hBefore hAt)
  · exact recordRule_of_exec (exec_sramLoadRecord hPhase hBefore hAt)
  · exact recordRule_of_exec (exec_sramFillRecord hPhase hBefore hAt)
  · exact recordRule_of_exec (exec_authInitRecord hPhase hBefore hAt)

end Sys2Proof.Machine
end

section
/-! PROOFS. The end of SRAM initialisation, END, and what the end of converter calibration leaves of the rest (R77, R84, R89,
R95, R96). -/

namespace Sys2Proof.Machine

/-! ## A region of memory cleared -/

theorem Memory.read_clear_inside (m : List Host.Cell) {lo hi a : Nat} (hLo : lo ≤ a) (hHi : a < hi) :
    Memory.read sramDefault (Memory.clear m lo hi) a = 0 := by
  have hOut : ∀ e ∈ Memory.clear m lo hi, e.1 ≠ a := fun e he hEq => by
    have hKept := of_decide_eq_true (List.mem_filter.mp he).2
    omega
  generalize Memory.clear m lo hi = l at hOut
  unfold Memory.read
  induction l with
  | nil => rfl
  | cons e l ih =>
    rw [Store.get, if_neg (hOut e List.mem_cons_self)]
    exact ih fun x hx => hOut x (List.mem_cons_of_mem _ hx)

theorem Memory.read_clear_outside (d : Byte) (m : List Host.Cell) {lo hi a : Nat} (h : a < lo ∨ hi ≤ a) :
    Memory.read d (Memory.clear m lo hi) a = Memory.read d m a := by
  unfold Memory.read Memory.clear
  induction m with
  | nil => rfl
  | cons e m ih =>
    by_cases hKept : e.1 < lo ∨ hi ≤ e.1
    · rw [List.filter_cons_of_pos (by simpa using hKept), Store.get, Store.get, ih]
    · have hNe : e.1 ≠ a := fun hEq => hKept (hEq ▸ h)
      rw [List.filter_cons_of_neg (by simpa using hKept), Store.get, if_neg hNe, ih]

/-! ## The end of SRAM initialisation (R95, R96) -/

/-- The SRAM reads zero but for the staging region (R95). -/
def State.sramClean (s : State) : List Host.Cell :=
  Memory.clear (Memory.clear s.sram 0 stageBase) (stageBase + 0x40000) 0x800000

/-- The SRAM initialised, before boot goes on. -/
def State.sramInited (s : State) : State :=
  { s with
    sram := s.sramClean
    badEcc := s.badEcc.filter fun e => decide (0x800000 ≤ e.1)
    boot := { s.boot with sramInit := true } }

theorem State.sramClean_outside (s : State) {a : Nat} (ha : a < 0x800000) (h : a < 0x700000 ∨ 0x740000 ≤ a) :
    Memory.read sramDefault s.sramClean a = 0 := by
  unfold State.sramClean stageBase
  rcases h with h | h
  · rw [Memory.read_clear_outside _ _ (.inl (by omega))]
    exact Memory.read_clear_inside _ (Nat.zero_le a) h
  · exact Memory.read_clear_inside _ h ha

theorem State.sramClean_staging (s : State) {a : Nat} (hLo : 0x700000 ≤ a) (hHi : a < 0x740000) :
    Memory.read sramDefault s.sramClean a = Memory.read sramDefault s.sram a := by
  unfold State.sramClean stageBase
  rw [Memory.read_clear_outside _ _ (.inl (by omega)), Memory.read_clear_outside _ _ (.inr hLo)]

/-- How boot goes on once the SRAM is initialised: a failed self-test before a failed image. -/
def State.afterSramInit (s : State) : State :=
  if s.boot.bistPass = false then s.enterHold 9
  else if s.boot.imgCause ≠ 0 then s.enterHold s.boot.imgCause else s.beginApply

theorem exec_sramInitDone {s : State} (hPhase : s.boot.phase = .bist) (hBist : s.boot.bistPhase = 5)
    (hBody : s.boot.bodyRead = true) : exec .sramInitDone s = .next s.sramInited.afterSramInit :=
  if_pos ⟨hPhase, hBist, hBody⟩

section
variable {s : State}

theorem State.afterSramInit_failed (h : s.boot.bistPass = false) : s.afterSramInit = s.enterHold 9 := if_pos h

theorem State.afterSramInit_bad (hPass : s.boot.bistPass = true) (h : s.boot.imgCause ≠ 0) :
    s.afterSramInit = s.enterHold s.boot.imgCause := by
  rw [State.afterSramInit, if_neg (by rw [hPass]; decide), if_pos h]

theorem State.afterSramInit_apply (hPass : s.boot.bistPass = true) (h : s.boot.imgCause = 0) :
    s.afterSramInit = s.beginApply := by
  rw [State.afterSramInit, if_neg (by rw [hPass]; decide), if_neg (not_not.mpr h)]

theorem State.afterSramInit_held (h : s.boot.bistPass = false ∨ s.boot.imgCause ≠ 0) : s.afterSramInit.sram = s.sram := by
  by_cases hPass : s.boot.bistPass = false
  · rw [State.afterSramInit_failed hPass]
    rfl
  · rw [State.afterSramInit_bad (Bool.eq_true_of_not_eq_false hPass) (h.resolve_left hPass)]
    rfl

end

theorem sramInitialised : Parts.SramInitialised := by
  intro s hPhase hBist hBody
  refine ⟨_, exec_sramInitDone hPhase hBist hBody, fun h => ?_, fun hPass h => ?_, fun h => ?_, fun hPass h => ?_⟩
  · rw [State.afterSramInit_failed (s := s.sramInited) h]
    exact ⟨rfl, rfl, rfl⟩
  · rw [State.afterSramInit_bad (s := s.sramInited) hPass h]
    exact ⟨rfl, rfl, rfl⟩
  · rw [State.afterSramInit_held (s := s.sramInited) h]
    exact ⟨fun a ha hOut => s.sramClean_outside ha hOut, fun a hLo hHi => s.sramClean_staging hLo hHi⟩
  · exact State.afterSramInit_apply (s := s.sramInited) hPass h

/-! ## END and the end of converter calibration (R77, R84, R89) -/

/-- Every channel has taken its record of slot `c` (R89). -/
def State.loadScaler (s : State) (c : Nat) : State := (List.finRange 8).foldl (fun t n => t.loadChan c n) s

theorem State.loadScaler_base (s : State) (c : Nat) : (s.loadScaler c).base = s.base :=
  State.foldl_base _ (fun t n => State.loadChan_base t c n) _ _

/-- The results of the converter calibration of the channels are taken, of those whose half is on (R95). -/
def State.latchCals (s : State) (p : BitVec 8) (v : Vector TrimVals 8) : State :=
  (List.finRange 8).foldl (fun t n => if s.halfOn (pchHalf n.val) then t.latchCal n (p.getLsbD n.val) v[n] else t) s

/-- What CONV_CAL_DONE leaves at once: CAL of the auxiliary converters, CAL_BUSY of the halves that are off, and the staging region
clear. -/
def State.calTaken (t s : State) (a : BitVec 2) : State :=
  let busy (h : Half) : Bool := t.pwr.calBusy.get h && !s.halfOn h
  let auxCal : BitVec 2 := bput (bput t.aux.calf 0 (if s.halfOn .h0 then a.getLsbD 0 else t.aux.calf.getLsbD 0)) 1
    (if s.halfOn .h1 then a.getLsbD 1 else t.aux.calf.getLsbD 1)
  { t with
    aux := { t.aux with calf := auxCal }
    pwr := { t.pwr with calBusy := ⟨busy .h0, busy .h1⟩ }
    sram := Memory.clear t.sram stageBase (stageBase + 0x40000) }

/-- The state that release starts from. -/
def State.calibrated (s : State) (p : BitVec 8) (a : BitVec 2) (v : Vector TrimVals 8) : State := (s.latchCals p v).calTaken s a

section
variable {s : State} {p : BitVec 8} {a : BitVec 2} {v : Vector TrimVals 8}

theorem exec_convCalDone (hPhase : s.boot.phase = .convCal) (hScan : s.sys.scan = false) :
    exec (.convCalDone p a v) s = .next (s.calibrated p a v).release := if_pos ⟨hPhase, hScan⟩

theorem State.latchCals_base : (s.latchCals p v).base = s.base :=
  State.foldl_base _ (fun t n => by split; exacts [State.latchCal_base _ _ _ _, rfl]) _ _

theorem State.calibrated_base : (s.calibrated p a v).base = s.base := State.latchCals_base

theorem convCalDone_releases (hPhase : s.boot.phase = .convCal) (hScan : s.sys.scan = false) :
    Completes (.convCalDone p a v) s (fun t =>
      t.boot.released = true ∧ t.fram = s.fram ∧ t.rails = s.rails ∧ t.pending = s.pending) := by
  have hBase : (s.calibrated p a v).release.base = { s.base with released := true } := by
    rw [State.release_base, State.calibrated_base]
  exact ⟨_, exec_convCalDone hPhase hScan,
    congrArg Base.released hBase, congrArg Base.fram hBase, congrArg Base.rails hBase, congrArg Base.pending hBase⟩

end

theorem endAndRelease : Parts.EndAndRelease := by
  intro s
  refine ⟨fun hPhase hWalk => ?_, fun hPhase hScan p a v => convCalDone_releases hPhase hScan, fun hScan p a v => ?_⟩
  · have hBase := s.loadScaler_base s.slotChoice
    exact ⟨_, if_pos ⟨hPhase, hWalk⟩,
      rfl, congrArg Base.released hBase, congrArg Base.fram hBase, congrArg Base.pending hBase, rfl, rfl⟩
  · exact if_neg fun h => absurd h.2 (by rw [hScan]; decide)

end Sys2Proof.Machine
end

section
/-! PROOFS. What release has set and nothing after it in the same cycle touches: a relation between states, and one fact per step
of release that it keeps (R96). -/

namespace Sys2Proof.Machine

/-- What the steps of release that follow its settings leave alone: the part, the registers, the power manager, the clocks, the
locks, ALIVE, the SRAM, and boot but for the sources noted during BIST. -/
structure ReleaseView where
  qb : Bool
  cfg : List (Nat × Word)
  pwr : Pwr
  clk : Clk
  unlock : Unlock
  alive : Alive
  sram : List Host.Cell
  boot : Boot

/-- Those parts of `s`. -/
def State.releaseView (s : State) : ReleaseView :=
  ⟨s.qb, s.cfg, s.pwr, s.clk, s.unlock, s.alive, s.sram, { s.boot with bistTaint := 0 }⟩

/-- From `s` to `t` those parts, the claims of the halves and the bridges stay, and no channel that has started is off again. -/
structure State.Kept (s t : State) : Prop where
  view : t.releaseView = s.releaseView
  claims : ∀ d : Drive, t.xd[d].claim = s.xd[d].claim
  exc : t.exc = s.exc
  started : ∀ n : Fin 8, s.pch[n].st ≠ .off → t.pch[n].st ≠ .off

namespace State.Kept

variable {s t u : State}

theorem refl (s : State) : s.Kept s := ⟨rfl, fun _ => rfl, rfl, fun _ h => h⟩

theorem trans (h : s.Kept t) (k : t.Kept u) : s.Kept u :=
  ⟨k.view.trans h.view, fun d => (k.claims d).trans (h.claims d), k.exc.trans h.exc, fun n hn => k.started n (h.started n hn)⟩

/-- A step that touches none of it. -/
theorem of_eq (hView : t.releaseView = s.releaseView) (hXd : t.xd = s.xd) (hExc : t.exc = s.exc) (hPch : t.pch = s.pch) :
    s.Kept t :=
  ⟨hView, fun d => by rw [hXd], hExc, fun n hn => by rwa [hPch]⟩

/-- A step that changes none of it by definition. -/
theorem same (h : (t.releaseView, t.xd, t.exc, t.pch) = (s.releaseView, s.xd, s.exc, s.pch)) : s.Kept t := by
  simp only [Prod.mk.injEq] at h
  obtain ⟨hView, hXd, hExc, hPch⟩ := h
  exact of_eq hView hXd hExc hPch

/-- A fault and its report (R343). -/
theorem of_quiet (h : t.quiet = s.quiet) : s.Kept t := by
  have hView := congrArg State.releaseView h
  have hExc := congrArg State.exc h
  have hPch := congrArg State.pch h
  refine ⟨hView, fun d => ?_, hExc, fun n hn => ?_⟩
  · have hXd := congrArg (fun q : State => q.xd[d].claim) h
    simpa [State.quiet, XDrive.quiet] using hXd
  · have hSame : t.pch = s.pch := hPch
    rwa [hSame]

/-- A step from a state that has only changed in other parts. -/
theorem since (h : t.Kept u) (ht : (t.releaseView, t.xd, t.exc, t.pch) = (s.releaseView, s.xd, s.exc, s.pch)) : s.Kept u :=
  (same ht).trans h

theorem ite {c : Prop} [Decidable c] (ht : s.Kept t) (hu : s.Kept u) : s.Kept (if c then t else u) := by
  split
  · exact ht
  · exact hu

theorem foldl {α : Type} {g : State → α → State} (h : ∀ (s : State) x, s.Kept (g s x)) (l : List α) (s : State) :
    s.Kept (l.foldl g s) :=
  List.foldlRecOn (motive := s.Kept) l g (refl s) fun t ht x _ => ht.trans (h t x)

end State.Kept

open State (Kept)

/-! ## Faults, reactions and votes -/

theorem State.cond_kept (s : State) (p : Page) (b : Nat) (c : Copy) (v : Bool) : s.Kept (s.cond p b c v) :=
  .of_quiet (State.cond_quiet s p b c v)

theorem State.voteAll_kept (s : State) : s.Kept s.voteAll := .of_quiet s.voteAll_quiet

theorem State.reform_kept (s : State) : s.Kept s.reform := .of_quiet s.reform_quiet

theorem State.offer_kept (s : State) (i : Fin 64) (src : Nat) (l : List Byte) : s.Kept (s.offer i src l) :=
  .of_quiet (State.offer_quiet s i src l)

theorem State.react_kept (s : State) (p : Page) (b r : Nat) (aff : Drive → Bool) : s.Kept (s.react p b r aff) :=
  .of_quiet (State.react_quiet s p b r aff)

theorem State.takeStanding_kept (s : State) : s.Kept s.takeStanding := by
  unfold State.takeStanding
  refine Kept.foldl (fun t p => ?_) _ _
  extract_lets t1 r aff
  have hSources : t.Kept t1 := Kept.foldl (fun u _ => .ite (State.react_kept u _ _ _ _) (.refl u)) _ _
  exact .ite (hSources.trans (State.react_kept _ _ _ _ _)) hSources

theorem State.releaseRecord_kept (s : State) : s.Kept s.releaseRecord := State.offer_kept _ _ _ _

/-! ## Position channels -/

theorem State.setPch_kept (s : State) (n : Fin 8) {x : Pch} (h : s.pch[n].st ≠ .off → x.st ≠ .off) : s.Kept (s.setPch n x) where
  view := rfl
  claims _ := rfl
  exc := rfl
  started k hk := by
    by_cases e : k = n
    · subst e
      rw [State.setPch_get]
      exact h hk
    · have hOther : (s.setPch n x).pch[k] = s.pch[k] := vset_other _ _ _ _ e
      rw [hOther]
      exact hk

theorem State.pcond_kept (s : State) (n : Fin 8) (b : Nat) (v : Bool) : s.Kept (s.pcond n b v) := State.cond_kept _ _ _ _ _

theorem State.causeEnds_kept (s : State) (n : Fin 8) (i : Nat) : s.Kept (s.causeEnds n i) :=
  (State.setPch_kept s n (x := { s.pch[n] with live := bput s.pch[n].live i false }) id).trans (State.pcond_kept _ _ _ _)

theorem State.lossWindow_kept (s : State) (n : Fin 8) : s.Kept (s.lossWindow n) := by
  unfold State.lossWindow
  refine .ite ⟨rfl, fun d => ?_, rfl, fun _ h => h⟩ (.refl s)
  simp only [Fin.getElem_fin, Vector.getElem_ofFn]
  split
  · rfl
  · rfl

theorem State.dropCratio_kept (s : State) (n : Fin 8) : s.Kept (s.dropCratio n) := .ite (.refl s) (State.pcond_kept _ _ _ _)

theorem State.declareLoss_kept (s : State) (n : Fin 8) (i : Nat) : s.Kept (s.declareLoss n i) := by
  unfold State.declareLoss
  extract_lets s1 x c
  have hWindow : s.Kept s1 := State.lossWindow_kept s n
  refine hWindow.trans (.trans (.trans (State.setPch_kept s1 n fun h => ?_) (State.pcond_kept _ _ _ _)) (State.dropCratio_kept _ _))
  exact Pch.toLost_st_ne_off h

theorem State.judgeDrv_kept (s : State) (n : Fin 8) : s.Kept (s.judgeDrv n) := by
  unfold State.judgeDrv
  dsimp only
  have hCond := State.pcond_kept s n 8 (s.pchOn n && s.drvBad n)
  exact .ite (.ite hCond (hCond.trans (State.declareLoss_kept _ _ _))) (hCond.trans (State.causeEnds_kept _ _ _))

theorem State.judgeDrvAll_kept (s : State) : s.Kept s.judgeDrvAll := Kept.foldl State.judgeDrv_kept _ _

theorem State.standingCauses_kept (s : State) (n : Fin 8) : s.Kept (s.standingCauses n) := by
  unfold State.standingCauses
  extract_lets s1 s2
  have hCal : s.Kept s1 := .ite (State.declareLoss_kept _ _ _) (.refl s)
  have hVdda : s1.Kept s2 := .ite (.refl s1) (State.declareLoss_kept _ _ _)
  exact (hCal.trans hVdda).trans (State.judgeDrv_kept _ _)

theorem State.startState_ne_off (s : State) (n : Fin 8) : s.startState n ≠ .off := by
  unfold State.startState
  split
  · exact fun h => ChSt.noConfusion h
  · exact fun h => ChSt.noConfusion h

/-- The channel set to its start, before what stands is judged: `x` is what it starts with, `c` its coefficients. -/
def State.chanSet (s : State) (n : Fin 8) (x : Pch) (c : Scl) : State :=
  { s.setPch n x with scl := vset s.scl n c }

theorem State.startChan_set (s : State) (n : Fin 8) (rearm : Bool) : ∃ (x : Pch) (c : Scl) (v : Bool),
    x.st = s.startState n ∧
    s.startChan n rearm = ((((s.chanSet n x c).pcond n 9 false).pcond n 5 v).standingCauses n).reform := ⟨_, _, _, rfl, rfl⟩

theorem State.chanSet_kept (s : State) (n : Fin 8) {x : Pch} (c : Scl) (h : x.st ≠ .off) : s.Kept (s.chanSet n x c) :=
  (State.setPch_kept s n fun _ => h).trans (.same rfl)

theorem State.startChan_after (s : State) (n : Fin 8) (v : Bool) :
    s.Kept ((((s.pcond n 9 false).pcond n 5 v).standingCauses n).reform) :=
  (((State.pcond_kept _ _ _ _).trans (State.pcond_kept _ _ _ _)).trans (State.standingCauses_kept _ _)).trans
    (State.reform_kept _)

theorem State.startChan_kept (s : State) (n : Fin 8) (rearm : Bool) : s.Kept (s.startChan n rearm) := by
  obtain ⟨x, c, v, hSt, hEq⟩ := State.startChan_set s n rearm
  rw [hEq]
  exact (State.chanSet_kept s n c (hSt ▸ State.startState_ne_off s n)).trans (State.startChan_after _ _ _)

/-- A channel that starts is not off (R147). -/
theorem State.startChan_started (s : State) (n : Fin 8) (rearm : Bool) : (s.startChan n rearm).pch[n].st ≠ .off := by
  obtain ⟨x, c, v, hSt, hEq⟩ := State.startChan_set s n rearm
  rw [hEq]
  refine (State.startChan_after (s.chanSet n x c) n v).started n ?_
  have hSet : (s.chanSet n x c).pch[n] = x := State.setPch_get s n x
  rw [hSet, hSt]
  exact State.startState_ne_off s n

/-! ## Digital inputs, encoder and event outputs, auxiliary converters -/

theorem State.setDch_kept (s : State) (n : Fin 4) (x : Dch) : s.Kept (s.setDch n x) := .same rfl

theorem State.dchStart_kept (s : State) (n : Fin 4) : s.Kept (s.dchStart n) := State.setDch_kept s n _

theorem State.dchRelease_kept (s : State) : s.Kept s.dchRelease := by
  unfold State.dchRelease
  refine Kept.foldl (fun t n => ?_) _ _
  split
  · exact State.dchStart_kept t n
  · exact .refl t

theorem State.withAev_kept (s : State) (x : Aev) (p : Pads) : s.Kept { s with aev := x, pads := p } := .same rfl

theorem State.aevRelease_kept (s : State) : s.Kept s.aevRelease := by
  unfold State.aevRelease
  exact Kept.foldl (fun t n => State.withAev_kept t _ _) _ _

theorem State.encPads_kept (s : State) (n : Fin 4) : s.Kept (s.encPads n) := .ite (.same rfl) (.refl s)

theorem State.dropVisit_kept (s : State) (c : Fin 2) : s.Kept (s.dropVisit c) := by
  unfold State.dropVisit
  split
  · exact .refl s
  · exact .ite (.refl s) (.same rfl)

theorem State.judgeSlot_kept (s : State) (k : Fin 16) : s.Kept (s.judgeSlot k) := by
  unfold State.judgeSlot
  extract_lets y s1
  have hSlot : s.Kept s1 := .ite (.refl s) (.same rfl)
  exact hSlot.trans (State.cond_kept _ _ _ _ _)

theorem State.kickConv_kept (s : State) (c : Fin 2) (t : Nat) : s.Kept (s.kickConv c t) := by
  unfold State.kickConv
  split
  · exact .refl s
  · split
    · exact .refl s
    · exact .same rfl

theorem State.routAll_kept (s : State) : s.Kept s.routAll := .same rfl

theorem State.auxJudge_kept (s : State) : s.Kept s.auxJudge := by
  unfold State.auxJudge
  extract_lets s1 s2
  have hVisits : s.Kept s1 := (State.dropVisit_kept s 0).trans (State.dropVisit_kept _ 1)
  have hSlots : s1.Kept s2 := Kept.foldl State.judgeSlot_kept _ _
  exact (hVisits.trans hSlots).trans
    (((State.kickConv_kept _ _ _).trans (State.kickConv_kept _ _ _)).trans (State.routAll_kept _))

/-! ## Queues -/

theorem State.withQue_kept (s : State) (x : Que) : s.Kept { s with que := x } := .same rfl

theorem State.ringCfg_kept (s : State) : s.Kept s.ringCfg := State.cond_kept _ _ _ _ _

theorem State.judgeStall_kept (s : State) : s.Kept s.judgeStall := by
  unfold State.judgeStall
  split
  · split
    · exact (State.cond_kept _ _ _ _ _).since rfl
    · exact (State.cond_kept _ _ _ _ _).since rfl
  · exact (State.cond_kept _ _ _ _ _).since rfl

theorem State.setQ_kept (s : State) (i : Fin 64) (q : Queue) : s.Kept (s.setQ i q) := .same rfl

theorem State.descWrite_kept (s : State) (i : Fin 64) : s.Kept (s.descWrite i) := .same rfl

theorem State.settle_kept (s : State) (i : Fin 64) : s.Kept (s.settle i) := .of_quiet (State.settle_quiet s i)

theorem State.flush_kept (s : State) (i : Fin 64) : s.Kept (s.flush i) := by
  unfold State.flush
  extract_lets q n base size q1 s1 s2
  have hFlushed : s.Kept s2 := .ite ((State.setQ_kept _ _ _).trans (State.setQ_kept _ _ _)) (State.setQ_kept _ _ _)
  have hDesc : s2.Kept (s2.ringCfg.descWrite i) := (State.ringCfg_kept s2).trans (State.descWrite_kept _ i)
  exact ((hFlushed.trans hDesc).trans (State.settle_kept _ i)).trans (State.judgeStall_kept _)

/-- BASE and SIZE of every queue in force (R405). -/
def State.ringsTaken (s : State) : State :=
  let f (i : Fin 64) : Queue := { s.que.q[i] with base := s.QUE_BASE_BASE i.val, size := s.QUE_SIZE_SIZE i.val }
  { s with que := { s.que with q := Vector.ofFn f } }

theorem State.ringsTaken_kept (s : State) : s.Kept s.ringsTaken := State.withQue_kept s _

theorem State.ringsAtRelease_eq (s : State) : ∃ f : Fin 64 → Queue, s.ringsAtRelease =
    ((List.finRange 64).foldl (fun t i => if f i = s.que.q[i] then t else t.flush i) s.ringsTaken).ringCfg := ⟨_, rfl⟩

theorem State.ringsAtRelease_kept (s : State) : s.Kept s.ringsAtRelease := by
  obtain ⟨f, hEq⟩ := s.ringsAtRelease_eq
  rw [hEq]
  have hFlushed (t : State) (i : Fin 64) : t.Kept (if f i = s.que.q[i] then t else t.flush i) :=
    .ite (.refl t) (State.flush_kept t i)
  exact (s.ringsTaken_kept.trans (Kept.foldl hFlushed _ _)).trans (State.ringCfg_kept _)

/-! ## Network and Cruise -/

theorem State.withCrz_kept (s : State) (x : Crz) : s.Kept { s with crz := x } := .same rfl

theorem State.judgeLink_kept (s : State) (p : Fin 2) : s.Kept (s.judgeLink p) := State.cond_kept _ _ _ _ _

theorem State.loseFrame_kept (s : State) (k : Fin 8) : s.Kept (s.loseFrame k) := .same rfl

theorem State.dropLink_kept (s : State) (p : Fin 2) : s.Kept (s.dropLink p) := by
  unfold State.dropLink
  extract_lets x lost o s0 s1
  have hPorts : s.Kept s1 := .same rfl
  exact (hPorts.trans (Kept.foldl State.loseFrame_kept _ _)).trans (State.judgeLink_kept _ _)

theorem State.judgePorts_kept (s : State) : s.Kept s.judgePorts := by
  unfold State.judgePorts
  extract_lets f
  have hPort (t : State) (p : Fin 2) : t.Kept (f t p) := .ite (State.judgeLink_kept _ _) (State.dropLink_kept _ _)
  exact (hPort s 0).trans (hPort _ 1)

theorem State.fillLane_kept (s : State) (l : Fin 3) : s.Kept (s.fillLane l) := by
  unfold State.fillLane
  split
  · exact .refl s
  · split
    · exact .same rfl
    · exact .same rfl

theorem State.fillThree_kept (s : State) : s.Kept s.fillThree :=
  ((State.fillLane_kept s 0).trans (State.fillLane_kept _ 1)).trans (State.fillLane_kept _ 2)

/-- The round that waits for its runs is dropped, its items passed over (R368). -/
def State.roundDropped (s : State) : State :=
  if s.crz.again then (let t := s.passOver s.crz.todo; { t with crz := { t.crz with todo := [] } }) else s

/-- The round in progress ends (R368). -/
def State.roundEnded (s : State) : State :=
  if s.crz.inRound then { s with crz := { s.crz with inRound := false, roundTime := s.now } } else s

theorem State.fillLanes_eq (s : State) : s.fillLanes =
    let t := s.roundDropped.fillThree
    if t.crz.idle && t.crz.todo == [] then
      if (t.crz.again || t.crz.due) && t.cruiseOn then t.roundEnded.roundItems.judgeStarved.fillThree else t.roundEnded
    else t := rfl

theorem State.fillLanes_kept (s : State) : s.Kept s.fillLanes := by
  rw [State.fillLanes_eq]
  extract_lets t
  have hDropped : s.Kept s.roundDropped := .ite (State.withCrz_kept s _) (.refl s)
  have hThree : s.Kept t := hDropped.trans (State.fillThree_kept _)
  have hEnded : t.Kept t.roundEnded := .ite (State.withCrz_kept t _) (.refl t)
  have hItems : t.roundEnded.Kept t.roundEnded.roundItems := State.withCrz_kept _ _
  have hBegun : t.roundEnded.Kept t.roundEnded.roundItems.judgeStarved.fillThree :=
    (hItems.trans (State.cond_kept _ _ _ _ _)).trans (State.fillThree_kept _)
  exact .ite (.ite (hThree.trans (hEnded.trans hBegun)) (hThree.trans hEnded)) hThree

theorem State.startRound_kept (s : State) : s.Kept s.startRound := by
  unfold State.startRound
  have hAgain : s.Kept { s with crz := { s.crz with again := true } } := State.withCrz_kept s _
  exact .ite (.refl s) (hAgain.trans (State.fillLanes_kept _))

theorem State.sdclkFrom_kept (s old : State) : s.Kept (s.sdclkFrom old) := .same rfl

end Sys2Proof.Machine
end

section
/-! PROOFS. Release (R77, R86, R96, R105, R110, R147): what each of its settings leaves, and that it stands at the end of the
cycle. -/

namespace Sys2Proof.Machine

open State (Kept)

/-! ## Steps taken one after the other -/

/-- A step for every element of a list, each keeping `R`: what the step of `n` brings about, and no later one undoes, holds at the
end. -/
theorem foldl_reaches {α : Type} {f : State → α → State} {R G : State → Prop} {n : α} (hR : ∀ t x, R t → R (f t x))
    (hMake : ∀ t, R t → G (f t n)) (hKeep : ∀ t x, R t → G t → G (f t x)) {l : List α} {s : State} (hs : R s) (hn : n ∈ l) :
    G (l.foldl f s) := by
  induction l generalizing s with
  | nil => exact absurd hn List.not_mem_nil
  | cons x l ih =>
    rw [List.foldl_cons]
    rcases List.mem_cons.mp hn with rfl | hn
    · have hBoth : R (l.foldl f (f s n)) ∧ G (l.foldl f (f s n)) :=
        List.foldlRecOn (motive := fun t => R t ∧ G t) l f ⟨hR s n hs, hMake s hs⟩
          fun t ht y _ => ⟨hR t y ht.1, hKeep t y ht.1 ht.2⟩
      exact hBoth.2
    · exact ih (hR s x hs) hn

/-! ## Registers and domains in the view of release -/

section
variable {s t : State} (h : t.releaseView = s.releaseView)
include h

theorem State.pwr_of_releaseView : t.pwr = s.pwr := congrArg ReleaseView.pwr h

theorem State.halfOn_of_releaseView (g : Half) : t.halfOn g = s.halfOn g := State.halfOn_of_pwr (State.pwr_of_releaseView h) g

theorem State.reg_of_releaseView (a : Nat) : t.reg a = s.reg a :=
  congrArg (fun v : ReleaseView => Store.get (regReset v.qb a) v.cfg a) h

theorem State.lead_of_releaseView : t.lead = s.lead := by
  unfold State.lead
  rw [State.halfOn_of_releaseView h, State.halfOn_of_releaseView h, State.pwr_of_releaseView h]

end

/-! ## Authority at release (R86, R235, R245) -/

/-- The half that takes authority over drive `d` at release. -/
def State.authHalf (s : State) (d : Drive) : Half := if s.hoEn d then s.boot.authInit[d] else pchHalf (s.srcA s.lead d).val

theorem State.authHalf_of_releaseView {s t : State} (h : t.releaseView = s.releaseView) (d : Drive) :
    t.authHalf d = s.authHalf d := by
  have hInit : t.boot.authInit = s.boot.authInit := congrArg (fun v : ReleaseView => v.boot.authInit) h
  unfold State.authHalf State.hoEn State.srcA State.XMON_CFG_SRC_A State.XMON_CFG_SRC_B State.regH
  rw [State.lead_of_releaseView h, hInit, State.reg_of_releaseView h]

/-- What drive `d` claims at release. -/
def State.authClaim (s : State) (d : Drive) : Two Bool := (Two.mk false false).set (s.authHalf d) (s.halfOn (s.authHalf d))

theorem State.authClaim_of_releaseView {s t : State} (h : t.releaseView = s.releaseView) (d : Drive) :
    t.authClaim d = s.authClaim d := by
  unfold State.authClaim
  rw [State.authHalf_of_releaseView h, State.halfOn_of_releaseView h]

/-- Drive `d` with its claim, and the encoder outputs it serves. -/
def State.authSet (s : State) (d : Drive) : State :=
  let h := s.authHalf d
  let s1 := s.setX d { s.xd[d] with claim := s.authClaim d, noHolderSince := none, orphan := none }
  { s1 with enc := s1.enc.map fun x => if x.drive = d then { x with act := h } else x }

theorem State.authRelease_eq (s : State) (d : Drive) : s.authRelease d = ((s.authSet d).watchHolder d).judgeCfgMis d := rfl

theorem State.setX_kept (s : State) (d : Drive) {x : XDrive} (h : x.claim = s.xd[d].claim) : s.Kept (s.setX d x) where
  view := rfl
  claims e := by
    by_cases hd : e = d
    · subst hd
      exact (congrArg XDrive.claim (vset_same _ _ _)).trans h
    · have hOther : (s.setX d x).xd[e] = s.xd[e] := vset_other _ _ _ _ hd
      rw [hOther]
  exc := rfl
  started _ hn := hn

theorem State.watchHolder_kept (s : State) (d : Drive) : s.Kept (s.watchHolder d) := by
  unfold State.watchHolder
  dsimp only
  split
  · exact State.setX_kept s d rfl
  · exact State.setX_kept s d rfl
  · exact .refl s

theorem State.judgeCfgMis_kept (s : State) (d : Drive) : s.Kept (s.judgeCfgMis d) := by
  unfold State.judgeCfgMis State.perHalf
  extract_lets s1
  have hFirst : s.Kept s1 := .ite (State.cond_kept _ _ _ _ _) (.refl s)
  exact hFirst.trans (.ite (State.cond_kept _ _ _ _ _) (.refl s1))

theorem State.authRelease_kept (s : State) (d : Drive) : (s.authSet d).Kept (s.authRelease d) := by
  rw [State.authRelease_eq]
  exact (State.watchHolder_kept _ d).trans (State.judgeCfgMis_kept _ d)

theorem State.authRelease_view (s : State) (d : Drive) : (s.authRelease d).releaseView = s.releaseView :=
  (State.authRelease_kept s d).view

theorem State.authRelease_claim (s : State) (d : Drive) : (s.authRelease d).xd[d].claim = s.authClaim d := by
  rw [(State.authRelease_kept s d).claims]
  exact congrArg XDrive.claim (vset_same _ _ _)

theorem State.authRelease_claim_other (s : State) {d e : Drive} (h : e ≠ d) :
    (s.authRelease d).xd[e].claim = s.xd[e].claim := by
  rw [(State.authRelease_kept s d).claims]
  exact congrArg XDrive.claim (vset_other _ _ _ _ h)

/-- Both drives with their authority. -/
def State.authorised (s : State) : State := ((s.authRelease 0).authRelease 1).reform

theorem State.authorised_view (s : State) : s.authorised.releaseView = s.releaseView := by
  unfold State.authorised
  rw [(State.reform_kept _).view, State.authRelease_view, State.authRelease_view]

theorem State.authorised_claim (s : State) (d : Drive) : s.authorised.xd[d].claim = s.authClaim d := by
  unfold State.authorised
  rw [(State.reform_kept _).claims]
  match d with
  | 0 => rw [State.authRelease_claim_other _ (by decide), State.authRelease_claim]
  | 1 => rw [State.authRelease_claim, State.authClaim_of_releaseView (State.authRelease_view s 0)]

/-! ## ALIVE, bridges and channels (R361, R105, R110, R147) -/

/-- ALIVE running, its first edge one half period away. -/
def State.aliveStarted (s : State) : State :=
  State.alivePad { s with
    alive := { s.alive with running := true, level := !s.devSafe, next := s.clk.cyc + s.aliveHalf } }

theorem State.aliveStarted_eq (s : State) : ∃ x : Alive, x.running = true ∧ x.next = s.clk.cyc + s.aliveHalf ∧
    s.aliveStarted = { s with alive := x } := by
  unfold State.aliveStarted State.alivePad
  split
  · exact ⟨_, rfl, rfl, rfl⟩
  · exact ⟨_, rfl, rfl, rfl⟩

/-- Bridge `n` has started, or has tripped at once. -/
def State.excStarted (s : State) (n : Fin 4) : Prop := s.exc[n].st = .rampUp ∨ s.exc[n].st = .tripped

theorem State.startExc_eq (s : State) (n : Fin 4) : ∃ x : Exc, (x.st = .rampUp ∨ x.st = .tripped) ∧ s.startExc n = s.setExc n x := by
  unfold State.startExc
  dsimp only
  split
  · exact ⟨_, .inl rfl, rfl⟩
  · exact ⟨_, .inr rfl, rfl⟩

/-- Bridge `n` at release: its accumulator starts, and the bridge too if it is enabled. -/
def State.excReleased (s : State) (n : Fin 4) : State :=
  let x := s.applyExc n s.exc[n]
  let car : Carrier := { ph := wrap01 ((x.phase : Rat) / 65536), t0 := s.clk.cyc, freq := x.car.freq }
  let s1 := s.setExc n { x with car := car, old := car }
  if s.EXC_CTRL_EN n = 1 ∧ s.halfOn (excHalf n.val) = true then s1.startExc n else s1

theorem State.excRelease_eq (s : State) : s.excRelease = (List.finRange 4).foldl State.excReleased s := rfl

theorem State.excReleased_eq (s : State) (n : Fin 4) : ∃ e : Vector Exc 4, s.excReleased n = { s with exc := e } ∧
    (∀ k : Fin 4, k ≠ n → e[k] = s.exc[k]) ∧
    (s.EXC_CTRL_EN n = 1 → s.halfOn (excHalf n.val) = true → e[n].st = .rampUp ∨ e[n].st = .tripped) := by
  unfold State.excReleased
  extract_lets x car s1
  have hFirst (k : Fin 4) (hk : k ≠ n) : s1.exc[k] = s.exc[k] := vset_other _ _ _ _ hk
  by_cases hRuns : s.EXC_CTRL_EN n = 1 ∧ s.halfOn (excHalf n.val) = true
  · obtain ⟨y, hSt, hEq⟩ := s1.startExc_eq n
    rw [if_pos hRuns, hEq]
    refine ⟨_, rfl, fun k hk => (vset_other _ _ _ _ hk).trans (hFirst k hk), fun _ _ => ?_⟩
    rw [vset_same]
    exact hSt
  · rw [if_neg hRuns]
    exact ⟨_, rfl, hFirst, fun hEn hOn => absurd ⟨hEn, hOn⟩ hRuns⟩

theorem State.excReleased_started (s : State) (n : Fin 4) (hEn : s.EXC_CTRL_EN n = 1) (hOn : s.halfOn (excHalf n.val) = true) :
    (s.excReleased n).excStarted n := by
  obtain ⟨e, hEq, -, hStarted⟩ := s.excReleased_eq n
  rw [hEq]
  exact hStarted hEn hOn

theorem State.excReleased_keeps {s : State} {n : Fin 4} (k : Fin 4) (hk : n ≠ k) (h : s.excStarted n) :
    (s.excReleased k).excStarted n := by
  obtain ⟨e, hEq, hOther, -⟩ := s.excReleased_eq k
  have hSame : e[n] = s.exc[n] := hOther n hk
  rw [hEq]
  unfold State.excStarted
  rw [hSame]
  exact h

/-- `t` is `s` but for the bridges. -/
def State.ExcOnly (s t : State) : Prop := t = { s with exc := t.exc }

theorem State.ExcOnly.step {s t : State} (h : s.ExcOnly t) (n : Fin 4) : s.ExcOnly (t.excReleased n) := by
  obtain ⟨e, hEq, -, -⟩ := t.excReleased_eq n
  unfold State.ExcOnly
  rw [hEq]
  exact congrArg (fun q : State => { q with exc := e }) h

/-- Release of the bridges changes nothing else. -/
theorem State.excRelease_only (s : State) : s.ExcOnly s.excRelease := by
  rw [State.excRelease_eq]
  exact List.foldlRecOn (motive := s.ExcOnly) _ _ rfl fun t ht n _ => ht.step n

theorem State.ExcOnly.view {s t : State} (h : s.ExcOnly t) : t.releaseView = s.releaseView := by
  have hView := congrArg State.releaseView h
  exact hView

theorem State.ExcOnly.xd {s t : State} (h : s.ExcOnly t) : t.xd = s.xd := by
  have hXd := congrArg State.xd h
  exact hXd

/-- The bridges that are enabled start at release (R105, R110). -/
theorem State.excRelease_started (s : State) (n : Fin 4) (hEn : s.EXC_CTRL_EN n = 1) (hOn : s.halfOn (excHalf n.val) = true) :
    s.excRelease.excStarted n := by
  rw [State.excRelease_eq]
  have hMade (t : State) (ht : s.ExcOnly t) : (t.excReleased n).excStarted n := by
    refine t.excReleased_started n ?_ ((State.halfOn_of_releaseView ht.view _).trans hOn)
    unfold State.EXC_CTRL_EN
    rw [State.reg_of_releaseView ht.view]
    exact hEn
  refine foldl_reaches (R := s.ExcOnly) (G := fun t => t.excStarted n) (fun t k ht => ht.step k) hMade (fun t k ht hGood => ?_) (show s.ExcOnly s from rfl)
    (List.mem_finRange n)
  by_cases hk : n = k
  · exact hk ▸ hMade t ht
  · exact State.excReleased_keeps k hk hGood

/-- A channel at release: it starts if it is enabled, its half is on and its converters are calibrated (R96, R147). -/
def State.chanReleased (s : State) (n : Fin 8) : State :=
  if s.PCH_CTRL_EN n.val = 1 ∧ s.halfOn (pchHalf n.val) = true ∧ s.pwr.calBusy.get (pchHalf n.val) = false
  then s.startChan n false else s

theorem State.chanReleased_kept (s : State) (n : Fin 8) : s.Kept (s.chanReleased n) :=
  .ite (State.startChan_kept s n false) (.refl s)

/-- The channels at release. -/
def State.chansReleased (s : State) : State := (List.finRange 8).foldl State.chanReleased s

theorem State.chansReleased_kept (s : State) : s.Kept s.chansReleased := Kept.foldl State.chanReleased_kept _ _

theorem State.chansReleased_started (s : State) (n : Fin 8) (hEn : s.PCH_CTRL_EN n.val = 1)
    (hOn : s.halfOn (pchHalf n.val) = true) (hCal : s.pwr.calBusy.get (pchHalf n.val) = false) :
    s.chansReleased.pch[n].st ≠ .off := by
  unfold State.chansReleased
  have hMade (t : State) (ht : s.Kept t) : (t.chanReleased n).pch[n].st ≠ .off := by
    have hStarts : t.chanReleased n = t.startChan n false := by
      refine if_pos ⟨?_, (State.halfOn_of_releaseView ht.view _).trans hOn, ?_⟩
      · unfold State.PCH_CTRL_EN
        rw [State.reg_of_releaseView ht.view]
        exact hEn
      · rw [State.pwr_of_releaseView ht.view]
        exact hCal
    rw [hStarts]
    exact State.startChan_started t n false
  exact foldl_reaches (R := s.Kept) (G := fun t => t.pch[n].st ≠ .off) (fun t k ht => ht.trans (t.chanReleased_kept k)) hMade
    (fun t k _ hGood => (t.chanReleased_kept k).started n hGood) (.refl s) (List.mem_finRange n)

/-! ## The rest of the cycle -/

/-- The blocks beside bridges and channels start: digital inputs, event and encoder outputs, auxiliary measurement (R96). -/
def State.othersStarted (s : State) : State :=
  ((List.finRange 4).foldl (fun t n => t.encPads n) s.dchRelease.aevRelease).auxJudge.routAll

theorem State.othersStarted_kept (s : State) : s.Kept s.othersStarted := by
  have hPads := Kept.foldl State.encPads_kept (List.finRange 4) s.dchRelease.aevRelease
  exact (((s.dchRelease_kept.trans (State.aevRelease_kept _)).trans hPads).trans (State.auxJudge_kept _)).trans
    (State.routAll_kept _)

/-- The rings, the pairs of the time base, the ports and the standing reactions at release. -/
def State.standingTaken (s : State) : State :=
  let t := s.ringsAtRelease
  ({ t with tim := { t.tim with lastPair := t.clk.cyc } } : State).judgePorts.takeStanding

theorem State.standingTaken_kept (s : State) : s.Kept s.standingTaken := by
  unfold State.standingTaken
  extract_lets t
  have hPair : t.Kept { t with tim := { t.tim with lastPair := t.clk.cyc } } := .same rfl
  exact ((s.ringsAtRelease_kept.trans hPair).trans (State.judgePorts_kept _)).trans (State.takeStanding_kept _)

/-- What ends the cycle of release. -/
def State.cycleEnded (s old : State) : State := (s.releaseRecord.startRound.voteAll).sdclkFrom old

theorem State.cycleEnded_kept (s old : State) : s.Kept (s.cycleEnded old) :=
  ((s.releaseRecord_kept.trans (State.startRound_kept _)).trans (State.voteAll_kept _)).trans (State.sdclkFrom_kept _ _)

/-! ## Release as a whole -/

/-- PHASE and BOOT_REL_TIME, and every lock closed. -/
def State.releaseSet (s : State) : State :=
  { s with
    boot := { s.boot with
      phase := .released, released := true, inHold := false, holdCause := 0, relUs := min 0xFFFFFFFF (s.clk.cyc / 400) }
    unlock := { s.unlock with blocks := 0, first := none } }

/-- The state before the first bridge starts. -/
def State.aliveAtRelease (s : State) : State := s.releaseSet.authorised.aliveStarted

/-- The state when every bridge and channel has started. -/
def State.chansAtRelease (s : State) : State := s.aliveAtRelease.excRelease.judgeDrvAll.chansReleased

/-- The state before the boot record. -/
def State.beforeRecord (s : State) : State := s.chansAtRelease.othersStarted.standingTaken

theorem State.release_awake {s : State} (h : s.pwr.st ≠ .waking) : s.release = (s.beforeRecord.cycleEnded s).domains := by
  have hWake : ¬ (s.pwr.st == .waking) = true := fun e => h (eq_of_beq e)
  unfold State.release
  extract_lets wake t _ _ s1 s2 _ s3 s4 _ s5 s6 s7
  have ht : t = s := if_neg hWake
  have h1 : s1 = t.releaseSet := rfl
  have h2 : s2 = s1.authorised := rfl
  have h3 : s3 = s2.aliveStarted := rfl
  have h6 : s6 = s3.startBlocks.standingTaken := rfl
  have h7 : s7 = s6.releaseRecord.startRound := rfl
  have hEnd : (if wake = true then s7.wakeReleased else s7) = s7 := if_neg hWake
  have hBefore : s6 = s.beforeRecord := by
    rw [h6, h3, h2, h1, ht]
    rfl
  rw [hEnd, h7, hBefore]
  rfl

end Sys2Proof.Machine
end

section
/-! PROOFS. What release has done at the end of its cycle, after converter calibration (R77, R95, R96). -/

namespace Sys2Proof.Machine

open State (Kept)

/-! ## What the view of release says -/

section
variable {s u : State} {x : Alive} (h : u.releaseView = { s.releaseSet.releaseView with alive := x })
include h

theorem State.boot_of_released : u.boot.phase = .released ∧ u.boot.released = true ∧ u.boot.inHold = false ∧
    u.boot.holdCause = 0 ∧ u.boot.relUs = min 0xFFFFFFFF (s.clk.cyc / 400) := by
  have hField {α : Type} (f : Boot → α) := congrArg (fun v : ReleaseView => f v.boot) h
  exact ⟨hField Boot.phase, hField Boot.released, hField Boot.inHold, hField Boot.holdCause, hField Boot.relUs⟩

theorem State.unlock_of_released : u.unlock = { s.unlock with blocks := 0, first := none } := congrArg ReleaseView.unlock h

theorem State.alive_of_released : u.alive = x := congrArg ReleaseView.alive h

theorem State.sram_of_released : u.sram = s.sram := congrArg ReleaseView.sram h

end

/-! ## The settings of release at the end of the cycle -/

section
variable (s old : State)

theorem State.chansAtRelease_kept : s.chansAtRelease.Kept s.beforeRecord :=
  (State.othersStarted_kept _).trans (State.standingTaken_kept _)

theorem State.beforeRecord_kept : s.aliveAtRelease.excRelease.Kept s.beforeRecord :=
  ((State.judgeDrvAll_kept _).trans (State.chansReleased_kept _)).trans s.chansAtRelease_kept

/-- The state at the end of the cycle, before the domains answer to the votes. -/
def State.releasedFrom : State := s.beforeRecord.cycleEnded old

theorem State.releasedFrom_kept : s.aliveAtRelease.excRelease.Kept (s.releasedFrom old) :=
  s.beforeRecord_kept.trans (State.cycleEnded_kept _ old)

theorem State.aliveAtRelease_view : ∃ x : Alive, x.running = true ∧ x.next = s.clk.cyc + s.aliveHalf ∧
    s.aliveAtRelease.releaseView = { s.releaseSet.releaseView with alive := x } := by
  have hView : s.releaseSet.authorised.releaseView = s.releaseSet.releaseView := State.authorised_view _
  obtain ⟨x, hRun, hNext, hEq⟩ := s.releaseSet.authorised.aliveStarted_eq
  refine ⟨x, hRun, hNext.trans ?_, ?_⟩
  · have hCyc : s.releaseSet.authorised.clk.cyc = s.clk.cyc := congrArg (fun v : ReleaseView => v.clk.cyc) hView
    have hReg : s.releaseSet.authorised.reg 0x5C = s.reg 0x5C := State.reg_of_releaseView hView _
    unfold State.aliveHalf State.SYS_ALIVE_CFG_HALF_US
    rw [hCyc, hReg]
  · rw [State.aliveAtRelease, hEq]
    exact congrArg (fun v : ReleaseView => { v with alive := x }) hView

theorem State.releasedFrom_view : ∃ x : Alive, x.running = true ∧ x.next = s.clk.cyc + s.aliveHalf ∧
    (s.releasedFrom old).releaseView = { s.releaseSet.releaseView with alive := x } := by
  obtain ⟨x, hRun, hNext, hView⟩ := s.aliveAtRelease_view
  exact ⟨x, hRun, hNext, ((s.releasedFrom_kept old).view.trans (State.excRelease_only _).view).trans hView⟩

theorem State.releasedFrom_claim (d : Drive) : (s.releasedFrom old).xd[d].claim = s.authClaim d := by
  obtain ⟨x, -, -, hAlive⟩ := s.releaseSet.authorised.aliveStarted_eq
  have hXd : s.aliveAtRelease.excRelease.xd = s.releaseSet.authorised.xd := by
    rw [(State.excRelease_only _).xd, State.aliveAtRelease, hAlive]
  rw [(s.releasedFrom_kept old).claims, hXd]
  exact State.authorised_claim s.releaseSet d

/-- A register or a domain at the start of the bridges and channels is that before release. -/
theorem State.aliveAtRelease_reg (r : Nat) : s.aliveAtRelease.reg r = s.reg r := by
  obtain ⟨x, -, -, hView⟩ := s.aliveAtRelease_view
  exact congrArg (fun v : ReleaseView => Store.get (regReset v.qb r) v.cfg r) hView

theorem State.aliveAtRelease_pwr : s.aliveAtRelease.pwr = s.pwr := by
  obtain ⟨x, -, -, hView⟩ := s.aliveAtRelease_view
  exact congrArg ReleaseView.pwr hView

theorem State.releasedFrom_exc (n : Fin 4) (hEn : s.EXC_CTRL_EN n = 1) (hOn : s.halfOn (excHalf n.val) = true) :
    (s.releasedFrom old).excStarted n := by
  unfold State.excStarted
  rw [(s.releasedFrom_kept old).exc]
  refine State.excRelease_started _ n ?_ ((State.halfOn_of_pwr s.aliveAtRelease_pwr _).trans hOn)
  unfold State.EXC_CTRL_EN
  rw [s.aliveAtRelease_reg]
  exact hEn

theorem State.releasedFrom_pch (n : Fin 8) (hEn : s.PCH_CTRL_EN n.val = 1) (hOn : s.halfOn (pchHalf n.val) = true)
    (hCal : s.pwr.calBusy.get (pchHalf n.val) = false) : (s.releasedFrom old).pch[n].st ≠ .off := by
  have hView : s.aliveAtRelease.excRelease.judgeDrvAll.releaseView = s.aliveAtRelease.releaseView :=
    (State.judgeDrvAll_kept _).view.trans (State.excRelease_only _).view
  have hPwr := (State.pwr_of_releaseView hView).trans s.aliveAtRelease_pwr
  refine (s.chansAtRelease_kept.trans (State.cycleEnded_kept _ old)).started n (State.chansReleased_started _ n ?_ ?_ ?_)
  · unfold State.PCH_CTRL_EN
    rw [State.reg_of_releaseView hView, s.aliveAtRelease_reg]
    exact hEn
  · exact (State.halfOn_of_pwr hPwr _).trans hOn
  · rw [hPwr]
    exact hCal

theorem State.beforeRecord_released : s.beforeRecord.boot.released = true := by
  obtain ⟨x, -, -, hView⟩ := s.aliveAtRelease_view
  obtain ⟨-, hRel, -⟩ := State.boot_of_released ((s.beforeRecord_kept.view.trans (State.excRelease_only _).view).trans hView)
  exact hRel

end

/-! ## After converter calibration -/

theorem State.sdclkFrom_congr (s : State) {t u : State} (h : ∀ k, t.sdclkRuns k = u.sdclkRuns k) :
    s.sdclkFrom t = s.sdclkFrom u := by
  unfold State.sdclkFrom
  simp only [h]

/-- `t` is `s` but for channels and coefficients. -/
def State.ChansOnly (s t : State) : Prop := t = { s with pch := t.pch, scl := t.scl }

theorem State.latchCal_eq (s : State) (n : Fin 8) (bad : Bool) (v : TrimVals) :
    ∃ x c, s.latchCal n bad v = { s with pch := x, scl := c } := by
  unfold State.latchCal State.latchTrims
  split
  · exact ⟨_, _, rfl⟩
  · exact ⟨_, _, rfl⟩

theorem State.ChansOnly.latchCal {s t : State} (h : s.ChansOnly t) (n : Fin 8) (bad : Bool) (v : TrimVals) :
    s.ChansOnly (t.latchCal n bad v) := by
  obtain ⟨x, c, hEq⟩ := t.latchCal_eq n bad v
  unfold State.ChansOnly
  rw [hEq]
  exact congrArg (fun q : State => { q with pch := x, scl := c }) h

theorem State.latchCals_only (s : State) (p : BitVec 8) (v : Vector TrimVals 8) : s.ChansOnly (s.latchCals p v) := by
  unfold State.latchCals
  refine List.foldlRecOn (motive := s.ChansOnly) _ _ rfl fun t ht n _ => ?_
  split
  · exact ht.latchCal n _ _
  · exact ht

/-- A state with new channels, coefficients, auxiliary converters and CAL_BUSY, its staging region clear. -/
def State.afterCal (s : State) (x : Vector Pch 8) (c : Vector Scl 8) (y : Aux) (b : Two Bool) : State :=
  { s with
    pch := x, scl := c, aux := y, pwr := { s.pwr with calBusy := b }
    sram := Memory.clear s.sram stageBase (stageBase + 0x40000) }

/-- What converter calibration leaves to release; no half that is on is busy any more. -/
theorem State.calibrated_eq (s : State) (p : BitVec 8) (a : BitVec 2) (v : Vector TrimVals 8) :
    ∃ (x : Vector Pch 8) (c : Vector Scl 8) (y : Aux) (b : Two Bool),
      s.calibrated p a v = s.afterCal x c y b ∧ ∀ h, s.halfOn h = true → b.get h = false := by
  have hTaken := congrArg (fun q : State => q.calTaken s a) (show _ = _ from s.latchCals_only p v)
  refine ⟨_, _, _, _, hTaken, fun h hOn => ?_⟩
  cases h with
  | h0 => exact (congrArg (fun o => _ && !o) hOn).trans (Bool.and_false _)
  | h1 => exact (congrArg (fun o => _ && !o) hOn).trans (Bool.and_false _)

/-- Bitstream clocks run after the calibration as before it. -/
theorem State.calibrated_sdclkRuns (s : State) (p : BitVec 8) (a : BitVec 2) (v : Vector TrimVals 8) (k : Nat) :
    (s.calibrated p a v).sdclkRuns k = s.sdclkRuns k := by
  obtain ⟨x, c, y, b, hEq, -⟩ := s.calibrated_eq p a v
  rw [hEq]
  rfl

/-- The state before the domains answer to the votes, of a release after converter calibration. -/
theorem exec_convCalDone_awake {s : State} {p : BitVec 8} {a : BitVec 2} {v : Vector TrimVals 8} (hPhase : s.boot.phase = .convCal)
    (hScan : s.sys.scan = false) (hAwake : s.pwr.st ≠ .waking) :
    exec (.convCalDone p a v) s = .next ((s.calibrated p a v).releasedFrom s).domains := by
  have hSt : (s.calibrated p a v).pwr.st ≠ .waking := by
    obtain ⟨x, c, y, b, hEq, -⟩ := s.calibrated_eq p a v
    rw [hEq]
    exact hAwake
  have hClocks (t : State) : t.sdclkFrom (s.calibrated p a v) = t.sdclkFrom s :=
    t.sdclkFrom_congr (s.calibrated_sdclkRuns p a v)
  rw [exec_convCalDone hPhase hScan, State.release_awake hSt, State.releasedFrom, State.cycleEnded, State.cycleEnded, hClocks]

theorem releaseEffects : Parts.ReleaseEffects := by
  intro s p a v hPhase hScan hAwake
  have hExec := exec_convCalDone_awake (p := p) (a := a) (v := v) hPhase hScan hAwake
  obtain ⟨x, c, y, b, hEq, hCal⟩ := s.calibrated_eq p a v
  rw [hEq] at hExec
  obtain ⟨alive, hRun, hNext, hView⟩ := (s.afterCal x c y b).releasedFrom_view s
  obtain ⟨hRelPhase, hRel, hHold, hCause, hUs⟩ := State.boot_of_released hView
  have hUnlock := State.unlock_of_released hView
  have hAlive := State.alive_of_released hView
  have hSram := State.sram_of_released hView
  have hClaim := (s.afterCal x c y b).releasedFrom_claim s
  have hExc := (s.afterCal x c y b).releasedFrom_exc s
  have hPch := (s.afterCal x c y b).releasedFrom_pch s
  have hRecord : ∃ w : State, w.boot.released = true ∧
      (s.afterCal x c y b).releasedFrom s = (w.releaseRecord.startRound.voteAll).sdclkFrom s :=
    ⟨_, State.beforeRecord_released _, rfl⟩
  generalize (s.afterCal x c y b).releasedFrom s = u at *
  refine ⟨u, hExec, hRelPhase, hRel, hHold, hCause, hUs, ?_, ?_, hClaim, ?_, ?_, hExc, fun n hEn hOn => ?_, fun k hLo hHi => ?_,
    hRecord⟩
  · rw [hUnlock]
  · rw [hUnlock]
  · rw [hAlive]
    exact hRun
  · rw [hAlive]
    exact hNext
  · exact hPch n hEn hOn (hCal _ hOn)
  · rw [hSram]
    exact Memory.read_clear_inside _ hLo hHi

/-- Settles O14: SRAM initialisation by how boot goes on, END and release by what they set, which no later step of the cycle of
release undoes. -/
theorem sramReadyAndRelease : Obligations.SramReadyAndRelease := by
  unfold Obligations.SramReadyAndRelease
  exact ⟨sramInitialised, endAndRelease, releaseEffects⟩

end Sys2Proof.Machine
end

section
/-! PROOFS. Bridges start, stop and restart (R110, R111, R120), and take their settings (R106, R109). -/

namespace Sys2Proof.Machine

/-! ## Writes to a register of a bridge -/

theorem State.inst_on {s : State} {h : Half} (hOn : s.halfOn h = true) (a : Nat) (r : Status × State) : s.inst h a r = r :=
  if_pos hOn

theorem vset_vset {α : Type} {n : Nat} (v : Vector α n) (i : Fin n) (a b : α) : vset (vset v i a) i b = vset v i b :=
  Vector.set_set _ _

section
variable {s : State} {n : Fin 4} (hOn : s.halfOn (excHalf n.val) = true)
include hOn

theorem exec_excEnable : exec (.excEnable n) s = .next { s.excSetEn n true with wst := .ok } :=
  congrArg finish (State.inst_on hOn _ _)

theorem exec_excDisable : exec (.excDisable n) s = .next { s.excSetEn n false with wst := .ok } :=
  congrArg finish (State.inst_on hOn _ _)

theorem exec_excRestart : exec (.excRestart n) s = .next { s.excRestart n with wst := .ok } :=
  congrArg finish (State.inst_on hOn _ _)

theorem exec_excFreqWrite (v : Word) : exec (.excFreqWrite n v) s = finish (s.writeExcFreq n v) :=
  congrArg finish (State.inst_on hOn _ _)

theorem exec_excPhaseWrite (v : Word) : exec (.excPhaseWrite n v) s = .next { s.excStore n 8 v with wst := .ok } :=
  congrArg finish (State.inst_on hOn _ _)

theorem exec_excAmpWrite (v : Word) : exec (.excAmpWrite n v) s = .next { s.excStore n 0xC v with wst := .ok } :=
  congrArg finish (State.inst_on hOn _ _)

theorem exec_excModeWrite (closed : Bool) : exec (.excModeWrite n closed) s =
    .next { s.excStore n 0 (bput (s.reg (excAddr n 0)) 1 closed) with wst := .ok } :=
  congrArg finish (State.inst_on hOn _ _)

end

/-! ## A start (R110) -/

/-- Bridge `n` in RAMP_UP with the values of its registers, at high impedance until the next zero crossing. -/
def State.rampUpExc (s : State) (n : Fin 4) (x : Exc) : Exc :=
  { s.applyExc n x with st := .rampUp, waitX := true, stopping := false, rampCnt := 0, lvlNow := 0 }

/-- Bridge `n` TRIPPED at its start, with the values of its registers. -/
def State.trippedExc (s : State) (n : Fin 4) (x : Exc) : Exc :=
  { s.applyExc n x with st := .tripped, waitX := false, stopping := false, lvlNow := 0 }

theorem State.startExc_up {s : State} {n : Fin 4} (hGood : s.vexcGood n = true) (hTrip : s.tripLive n = false) :
    s.startExc n = s.setExc n (s.rampUpExc n s.exc[n]) :=
  if_pos (by rw [hGood, hTrip]; rfl)

theorem State.startExc_trip {s : State} {n : Fin 4} (h : s.vexcGood n = false ∨ s.tripLive n = true) :
    s.startExc n = s.setExc n (s.trippedExc n s.exc[n]) := by
  refine if_neg fun hBoth => ?_
  obtain ⟨hGood, hTrip⟩ := Bool.and_eq_true_iff.mp hBoth
  rcases h with h | h
  · exact Bool.false_ne_true (h.symm.trans hGood)
  · rw [h] at hTrip
    exact Bool.false_ne_true hTrip

/-- What the command leaves of a change of bridge `n` that its channels have judged. -/
theorem State.put_of_apart {s t : State} {n : Fin 4} {e : Vector Exc 4} {y : Exc} (h : t.apart = s.apart)
    (hExc : s.exc = vset e n y) :
    t.exc[n] = y ∧ ({ t with wst := .ok } : State).apart = ({ s with wst := .ok } : State).apart := by
  refine ⟨?_, congrArg (fun q : State => { q with wst := .ok }) h⟩
  rw [State.exc_of_apart h, hExc]
  exact vset_same _ _ _

/-! ## EN written (R110, R111) -/

/-- EN of bridge `n` stored. -/
def State.enStored (s : State) (n : Fin 4) (en : Bool) : State :=
  s.setReg (excAddr n 0) (bput (s.reg (excAddr n 0)) 0 en)

section
variable {s : State} {n : Fin 4} (hRel : s.boot.released = true)
include hRel

theorem State.enStored_released (en : Bool) : (s.enStored n en).boot.released = true := by
  unfold State.enStored
  rw [State.setReg_boot]
  exact hRel

theorem State.excSetEn_starts (hSt : s.exc[n].st = .off) (hWas : (s.reg (excAddr n 0)).bit 0 = false) :
    s.excSetEn n true = ((s.enStored n true).startExc n).judgeDrvAll := by
  have hReleased := State.enStored_released hRel (n := n) true
  have hOff : (s.enStored n true).exc[n].st = .off := by
    unfold State.enStored
    rw [State.setReg_exc]
    exact hSt
  unfold State.enStored at hReleased hOff
  unfold State.excSetEn State.enStored
  simp only [hReleased, hOff, hWas, Bool.not_true, Bool.false_eq_true, if_false, if_true]

theorem State.excSetEn_running (hSt : s.exc[n].st = .run ∨ s.exc[n].st = .rampUp) (en : Bool) :
    s.excSetEn n en = (s.enStored n en).setExc n { s.exc[n] with stopping := !en } := by
  have hReleased := State.enStored_released hRel (n := n) en
  have hExc : (s.enStored n en).exc[n] = s.exc[n] := by
    unfold State.enStored
    rw [State.setReg_exc]
  unfold State.enStored at hReleased hExc
  unfold State.excSetEn State.enStored
  rcases hSt with hSt | hSt <;> cases en <;>
    simp only [hReleased, hExc, hSt, Bool.not_true, Bool.not_false, Bool.false_eq_true, if_false, if_true]

theorem State.excSetEn_idle (hSt : s.exc[n].st = .rampDown ∨ s.exc[n].st = .tripped) (en : Bool) :
    s.excSetEn n en = s.enStored n en := by
  have hReleased := State.enStored_released hRel (n := n) en
  have hExc : (s.enStored n en).exc[n] = s.exc[n] := by
    unfold State.enStored
    rw [State.setReg_exc]
  unfold State.enStored at hReleased hExc
  unfold State.excSetEn State.enStored
  rcases hSt with hSt | hSt <;> cases en <;>
    simp only [hReleased, hExc, hSt, Bool.not_true, Bool.false_eq_true, if_false, if_true]

end

/-! ## RESTART (R120) -/

theorem State.setExc_setExc (s : State) (n : Fin 4) (x y : Exc) : (s.setExc n x).setExc n y = s.setExc n y :=
  congrArg (fun e => { s with exc := e }) (vset_vset _ _ _ _)

/-- Bridge `n` taken from TRIPPED to OFF. -/
def State.offExc (s : State) (n : Fin 4) : State := s.setExc n { s.exc[n] with st := .off }

theorem State.offExc_rampUp {s : State} {n : Fin 4} (hGood : s.vexcGood n = true) (hTrip : s.tripLive n = false) :
    (s.offExc n).startExc n = s.setExc n (s.rampUpExc n s.exc[n]) := by
  have hStart := State.startExc_up (s := s.offExc n) (n := n) hGood hTrip
  have hOwn : (s.offExc n).exc[n] = { s.exc[n] with st := .off } := vset_same _ _ _
  rw [hStart, hOwn]
  exact s.setExc_setExc n _ _

theorem State.offExc_trip {s : State} {n : Fin 4} (hBad : s.vexcGood n = false) :
    (s.offExc n).startExc n = s.setExc n (s.trippedExc n s.exc[n]) := by
  have hStart := State.startExc_trip (s := s.offExc n) (n := n) (.inl hBad)
  have hOwn : (s.offExc n).exc[n] = { s.exc[n] with st := .off } := vset_same _ _ _
  rw [hStart, hOwn]
  exact s.setExc_setExc n _ _

section
variable {s : State} {n : Fin 4} (hSt : s.exc[n].st = .tripped) (hTrip : s.tripLive n = false)
include hSt hTrip

theorem State.excRestart_enabled (hEn : s.EXC_CTRL_EN n.val = 1) : s.excRestart n = ((s.offExc n).startExc n).judgeDrvAll := by
  unfold State.excRestart
  rw [if_pos ⟨hSt, hTrip⟩]
  exact congrArg State.judgeDrvAll (if_pos hEn)

theorem State.excRestart_disabled (hEn : s.EXC_CTRL_EN n.val ≠ 1) : s.excRestart n = (s.offExc n).judgeDrvAll := by
  unfold State.excRestart
  rw [if_pos ⟨hSt, hTrip⟩]
  exact congrArg State.judgeDrvAll (if_neg hEn)

end

theorem State.excRestart_idle {s : State} {n : Fin 4} (h : s.exc[n].st ≠ .tripped ∨ s.tripLive n = true) : s.excRestart n = s := by
  refine if_neg fun hBoth => ?_
  obtain ⟨hSt, hTrip⟩ := hBoth
  exact h.elim (fun hNot => hNot hSt) fun hLive => Bool.false_ne_true (hTrip.symm.trans hLive)

theorem bridgeStartStop : Parts.BridgeStartStop := by
  intro s n hRel hOn a x on off up trip put
  have hOnExc : on.exc = s.exc := State.setReg_exc _ _ _
  have hStart {y : Exc} (hEq : (s.enStored n true).startExc n = on.setExc n y) (hSt : x.st = .off)
      (hWas : (s.reg a).bit 0 = false) : Completes (.excEnable n) s (put on y) := by
    refine ⟨_, exec_excEnable hOn, ?_⟩
    rw [State.excSetEn_starts hRel hSt hWas, hEq, State.setExc, hOnExc]
    have hPut := State.put_of_apart (State.judgeDrvAll_apart { on with exc := vset s.exc n y }) (Eq.refl (vset s.exc n y))
    generalize State.judgeDrvAll _ = t at hPut ⊢
    exact hPut
  have hRestart {y : Exc} (hEq : s.excRestart n = (s.setExc n y).judgeDrvAll) : Completes (.excRestart n) s (put s y) := by
    refine ⟨_, exec_excRestart hOn, ?_⟩
    rw [hEq]
    have hPut := State.put_of_apart (s.setExc n y).judgeDrvAll_apart (Eq.refl (vset s.exc n y))
    generalize State.judgeDrvAll _ = t at hPut ⊢
    exact hPut
  refine ⟨fun hSt hWas => ⟨fun hGood hTrip => hStart ?_ hSt hWas, fun hBad => hStart ?_ hSt hWas⟩, fun hSt => ⟨?_, ?_⟩,
    fun hSt => ⟨?_, ?_⟩, fun hSt hTrip => ⟨fun hEn hGood => hRestart ?_, fun hEn hBad => hRestart ?_, fun hEn => hRestart ?_⟩,
    fun hIdle => ?_⟩
  · have hUp := State.startExc_up hGood hTrip
    rw [show on.exc[n] = s.exc[n] by rw [hOnExc]] at hUp
    exact hUp
  · have hTripped := State.startExc_trip hBad
    rw [show on.exc[n] = s.exc[n] by rw [hOnExc]] at hTripped
    exact hTripped
  · rw [exec_excEnable hOn, State.excSetEn_running hRel hSt true]
    exact congrArg (fun e => Host.Outcome.next { on with exc := vset e n { x with stopping := false }, wst := .ok }) hOnExc
  · rw [exec_excDisable hOn, State.excSetEn_running hRel hSt false]
    exact congrArg (fun e => Host.Outcome.next { off with exc := vset e n { x with stopping := true }, wst := .ok })
      (State.setReg_exc _ _ _)
  · rw [exec_excEnable hOn, State.excSetEn_idle hRel hSt true]
    rfl
  · rw [exec_excDisable hOn, State.excSetEn_idle hRel hSt false]
    rfl
  · rw [State.excRestart_enabled hSt hTrip hEn, State.offExc_rampUp hGood hTrip]
    rfl
  · rw [State.excRestart_enabled hSt hTrip hEn, State.offExc_trip hBad]
    rfl
  · exact State.excRestart_disabled hSt hTrip hEn
  · rw [exec_excRestart hOn, State.excRestart_idle hIdle]

/-! ## Settings (R106, R109) -/

theorem State.excAtOnce_running {s : State} {n : Fin 4} (hOff : s.exc[n].st ≠ .off) (hTripped : s.exc[n].st ≠ .tripped) :
    s.excAtOnce n = s := by
  unfold State.excAtOnce
  dsimp only
  split
  case h_1 h => exact absurd h hOff
  case h_2 h => exact absurd h hTripped
  case h_3 => rfl

/-- Bridge `n` with the values of its registers acting at once, its carrier taken on and moved with PHASE_OFS (R109). -/
def State.settledExc (s : State) (n : Fin 4) (x : Exc) : Exc :=
  let y := s.applyExc n (x.rebase s.clk.cyc)
  { y with car := { y.car with
    ph := wrap01 (wrap01 (x.car.phaseAt s.clk.cyc) + ((y.phase : Rat) - (x.phase : Rat)) / 65536) } }

theorem State.excAtOnce_stands {s : State} {n : Fin 4} (h : s.exc[n].st = .off ∨ s.exc[n].st = .tripped) :
    s.excAtOnce n = s.setExc n (s.settledExc n s.exc[n]) := by
  unfold State.excAtOnce
  rcases h with h | h
  · simp only [h]
    rfl
  · simp only [h]
    rfl

theorem State.excStore_running {s : State} {n : Fin 4} (hOff : s.exc[n].st ≠ .off) (hTripped : s.exc[n].st ≠ .tripped) (off : Nat)
    (v : Word) : s.excStore n off v = s.setReg (excAddr n off) v := by
  refine State.excAtOnce_running ?_ ?_
  · rw [State.setReg_exc]
    exact hOff
  · rw [State.setReg_exc]
    exact hTripped

theorem State.excStore_stands {s : State} {n : Fin 4} (h : s.exc[n].st = .off ∨ s.exc[n].st = .tripped) (off : Nat) (v : Word) :
    let u := s.setReg (excAddr n off) v
    s.excStore n off v = { u with exc := vset s.exc n (u.settledExc n s.exc[n]) } := by
  intro u
  have hExc : u.exc = s.exc := State.setReg_exc _ _ _
  have hOnce := State.excAtOnce_stands (s := u) (n := n) (by rw [hExc]; exact h)
  rw [show u.exc[n] = s.exc[n] by rw [hExc], State.setExc, hExc] at hOnce
  exact hOnce

theorem excitationSettings : Parts.ExcitationSettings := by
  intro s n v hOn x
  refine ⟨fun hRange => ?_, fun e he hFreq => ?_⟩
  · rw [exec_excFreqWrite hOn]
    exact congrArg finish (if_pos hRange)
  intro u y
  have hClk : u.clk = s.clk := State.setReg_clk _ _ _
  have hStore : exec e.1 s = .next { s.excStore n e.2.1 e.2.2 with wst := .ok } := by
    simp only [List.mem_cons, List.not_mem_nil, or_false] at he
    rcases he with rfl | rfl | rfl | rfl | rfl
    · obtain ⟨hLow, hHigh⟩ := hFreq rfl
      rw [exec_excFreqWrite hOn]
      exact congrArg finish (if_neg (by omega))
    · exact exec_excPhaseWrite hOn v
    · exact exec_excAmpWrite hOn v
    · exact exec_excModeWrite hOn false
    · exact exec_excModeWrite hOn true
  rw [hStore]
  refine ⟨fun hOff hTripped => ?_, fun hStands => ?_⟩
  · rw [State.excStore_running hOff hTripped]
  · rw [State.excStore_stands hStands]
    unfold State.settledExc
    rw [hClk]

/-- Settles O16: each command by the one branch of `excSetEn`, `excRestart` or `excAtOnce` that its state of the bridge takes. -/
theorem bridgeSettings : Obligations.BridgeSettings := by
  unfold Obligations.BridgeSettings
  exact ⟨bridgeStartStop, excitationSettings⟩

end Sys2Proof.Machine
end

section
/-! PROOFS. A zero crossing of a bridge (R105 to R118): what each of its parts makes of the bridge, and what it leaves alone. -/

namespace Sys2Proof.Machine

/-! ## What a part of the crossing leaves alone -/

/-- From `s` to `t` bridge `n` has moved, and of the channels neither state nor published set: beside what the loops of the channels
and a report change, nothing else has. -/
structure State.BridgeStep (n : Fin 4) (s t : State) : Prop where
  rest : t.offRail = s.offRail
  others : ∀ k, k ≠ n → t.exc[k] = s.exc[k]
  chans : ∀ c : Fin 8, t.pch[c].st = s.pch[c].st ∧ t.pch[c].pub = s.pch[c].pub

theorem State.reg_of_offRail {s t : State} (h : t.offRail = s.offRail) : t.reg = s.reg := by
  have hReg := congrArg State.reg h
  exact hReg

theorem State.clk_of_offRail {s t : State} (h : t.offRail = s.offRail) : t.clk = s.clk := by
  have hClk := congrArg State.clk h
  exact hClk

section
variable {n : Fin 4} {s t u : State}

theorem State.BridgeStep.refl (s : State) : s.BridgeStep n s := ⟨rfl, fun _ _ => rfl, fun _ => ⟨rfl, rfl⟩⟩

theorem State.BridgeStep.trans (h : s.BridgeStep n t) (k : t.BridgeStep n u) : s.BridgeStep n u :=
  ⟨k.rest.trans h.rest, fun i hi => (k.others i hi).trans (h.others i hi),
    fun c => ⟨(k.chans c).1.trans (h.chans c).1, (k.chans c).2.trans (h.chans c).2⟩⟩

theorem State.BridgeStep.ite {c : Prop} [Decidable c] (h : s.BridgeStep n t) (k : s.BridgeStep n u) :
    s.BridgeStep n (if c then t else u) := by
  split
  · exact h
  · exact k

theorem State.setExc_step (s : State) (x : Exc) : s.BridgeStep n (s.setExc n x) :=
  ⟨rfl, fun _ hk => vset_other _ _ _ _ hk, fun _ => ⟨rfl, rfl⟩⟩

theorem State.cond_step (s : State) (p : Page) (b : Nat) (c : Copy) (v : Bool) : s.BridgeStep n (s.cond p b c v) := by
  refine ⟨State.offRail_of_apart (State.cond_apart s p b c v), fun k _ => ?_, fun k => ?_⟩
  · rw [State.cond_exc]
  · rw [State.pch_of_tickView (State.cond_tickView s p b c v)]
    exact ⟨rfl, rfl⟩

/-- A channel's own loop, or its carrier-phase adaptation, moved. -/
theorem State.setPch_step (s : State) {c : Fin 8} {x : Pch} (hSt : x.st = s.pch[c].st) (hPub : x.pub = s.pch[c].pub) :
    s.BridgeStep n (s.setPch c x) := by
  refine ⟨State.offRail_of_apart (State.setPch_apart s c x), fun _ _ => rfl, fun k => ?_⟩
  by_cases hk : k = c
  · subst hk
    have hOwn : (s.setPch k x).pch[k] = x := vset_same _ _ _
    rw [hOwn]
    exact ⟨hSt, hPub⟩
  · have hOther : (s.setPch c x).pch[k] = s.pch[k] := vset_other _ _ _ _ hk
    rw [hOther]
    exact ⟨rfl, rfl⟩

/-- The channels that select the driver, one after the other. -/
theorem State.BridgeStep.foldl {f : State → Fin 8 → State} (h : ∀ (s : State) c, s.BridgeStep n (f s c)) (l : List (Fin 8))
    (s : State) : s.BridgeStep n (l.foldl f s) :=
  List.foldlRecOn (motive := s.BridgeStep n) l f (.refl s) fun t ht c _ => ht.trans (h t c)

theorem State.phaseAdapt_step (s : State) (c : Fin 8) : s.BridgeStep n (s.phaseAdapt c) ∧ (s.phaseAdapt c).exc = s.exc := by
  unfold State.phaseAdapt
  dsimp only
  split
  · exact ⟨.refl s, rfl⟩
  split
  · exact ⟨s.setPch_step rfl rfl, rfl⟩
  · exact ⟨(s.setPch_step (by rfl) (by rfl)).trans (State.cond_step _ _ _ _ _), State.cond_exc _ _ _ _ _⟩

theorem State.ceilMove_step (s : State) (c : Fin 8) : s.BridgeStep n (s.ceilMove c) ∧ (s.ceilMove c).exc = s.exc := by
  unfold State.ceilMove
  dsimp only
  split
  · exact ⟨s.setPch_step rfl rfl, rfl⟩
  · exact ⟨s.setPch_step rfl rfl, rfl⟩

theorem State.foldl_exc {f : State → Fin 8 → State} (h : ∀ (s : State) c, (f s c).exc = s.exc) (l : List (Fin 8)) (s : State) :
    (l.foldl f s).exc = s.exc :=
  List.foldlRecOn (motive := fun t : State => t.exc = s.exc) l f rfl fun t ht c _ => (h t c).trans ht

/-- Regulation holds for the same reasons after a step that keeps the state of the bridge (R116). -/
theorem State.BridgeStep.regHold (h : s.BridgeStep n t) (hSt : t.exc[n].st = s.exc[n].st) : t.regHold n = s.regHold n := by
  have hReg := State.reg_of_offRail h.rest
  have hHalf := State.halfOn_of_offRail h.rest
  have hSrc : t.EXC_CTRL_REG_SRC n.val = s.EXC_CTRL_REG_SRC n.val := by
    unfold State.EXC_CTRL_REG_SRC
    rw [hReg]
  obtain ⟨hChSt, hPub⟩ := h.chans (Fin.ofNat 8 (s.EXC_CTRL_REG_SRC n.val))
  unfold State.regHold State.pchOn State.baseband State.drv State.PCH_CFG_DEMOD_MODE State.PCH_CFG_EXC_SEL
  dsimp only
  simp only [hSrc, hPub, hChSt, hReg, hHalf, hSt]

end

/-! ## The carrier taken on, and the measurements (R105, R118) -/

/-- The bridge at a crossing in cycle `c`: its carrier taken on, with a slew that has made its turns ended. -/
def Exc.crossed (x : Exc) (c : Nat) : Exc := { x.rebase c with car := (x.rebase c).car.slewDone }

/-- The bridge with the measurements of its period, and how long each of its monitors has seen what it waits for. -/
def Exc.measured (x : Exc) (m : ExcMeas) (amp opens imbals highs lows : Nat) : Exc :=
  { x with
    iFund := m.iFund, iPeak := m.iPeak, ampMeas := amp
    openRun := opens, imbRun := imbals, satHi := highs, satLo := lows }

theorem State.excMeasure_step (s : State) (n : Fin 4) (m : ExcMeas) : s.BridgeStep n (s.excMeasure n m) := by
  unfold State.excMeasure
  extract_lets x amp running opn imb hi lo y s1 s2
  have hOpen : s.BridgeStep n s2 := .ite (s.setExc_step y) ((s.setExc_step y).trans (State.cond_step _ _ _ _ _))
  exact .ite hOpen (hOpen.trans (State.cond_step _ _ _ _ _))

theorem State.excMeasure_own (s : State) (n : Fin 4) (m : ExcMeas) : ∃ amp opens imbals highs lows,
    (s.excMeasure n m).exc[n] = s.exc[n].measured m amp opens imbals highs lows := by
  unfold State.excMeasure
  extract_lets x amp running opn imb hi lo y s1 s2
  have hOpen : s2.exc = s1.exc := by
    unfold s2
    split
    · rfl
    · exact State.cond_exc _ _ _ _ _
  have hExc : (if (hi || lo) = true then s2 else s2.cond .exc (6 * n.val + 3) (excHalf n.val).copy false).exc = s1.exc := by
    split
    · exact hOpen
    · exact (State.cond_exc _ _ _ _ _).trans hOpen
  rw [hExc]
  exact ⟨_, _, _, _, _, vset_same _ _ _⟩

/-! ## The level (R110, R111, R115) -/

/-- The bridge with its level moved on by one period: `p` is RAMP_PER, `hold` that regulation holds, `lo` and `hi` its limits. -/
def Exc.levelled (x : Exc) (p : Nat) (hold : Bool) (lo hi : Nat) : Exc :=
  match x.st with
  | .rampUp =>
    if x.waitX then { x with waitX := false, rampCnt := 0, lvlNow := 0 }
    else { x with rampCnt := min p (x.rampCnt + 1), lvlNow := min 2400 x.lvl * min p (x.rampCnt + 1) / p }
  | .rampDown => { x with rampCnt := min p (x.rampCnt + 1), lvlNow := x.rampLvl * (p - min p (x.rampCnt + 1)) / p }
  | .run =>
    if x.closed && !hold then { x with lvlNow := (regulate x.lvlNow (max 1 x.tgt : Nat) x.ampMeas lo hi).toNat } else x
  | _ => x

theorem State.excLevel_step (s : State) (n : Fin 4) : s.BridgeStep n (s.excLevel n) := by
  unfold State.excLevel
  dsimp only
  split
  · exact .ite (s.setExc_step _) (s.setExc_step _)
  · exact s.setExc_step _
  · exact .ite (s.setExc_step _) (.refl s)
  · exact .refl s

section
variable {x : Exc} {p lo hi : Nat} {hold : Bool}

theorem Exc.levelled_first (hSt : x.st = .rampUp) (hWait : x.waitX = true) :
    x.levelled p hold lo hi = { x with waitX := false, rampCnt := 0, lvlNow := 0 } := by
  unfold Exc.levelled
  rw [hSt, hWait]
  rfl

theorem Exc.levelled_rampUp (hSt : x.st = .rampUp) (hWait : x.waitX = false) : x.levelled p hold lo hi =
    { x with rampCnt := min p (x.rampCnt + 1), lvlNow := min 2400 x.lvl * min p (x.rampCnt + 1) / p } := by
  unfold Exc.levelled
  rw [hSt, hWait]
  rfl

theorem Exc.levelled_rampDown (hSt : x.st = .rampDown) : x.levelled p hold lo hi =
    { x with rampCnt := min p (x.rampCnt + 1), lvlNow := x.rampLvl * (p - min p (x.rampCnt + 1)) / p } := by
  unfold Exc.levelled
  rw [hSt]

theorem Exc.levelled_regulated (hSt : x.st = .run) (h : (x.closed && !hold) = true) : x.levelled p hold lo hi =
    { x with lvlNow := (regulate x.lvlNow (max 1 x.tgt : Nat) x.ampMeas lo hi).toNat } := by
  unfold Exc.levelled
  rw [hSt]
  exact if_pos h

theorem Exc.levelled_run (hSt : x.st = .run) (h : (x.closed && !hold) ≠ true) : x.levelled p hold lo hi = x := by
  unfold Exc.levelled
  rw [hSt]
  exact if_neg h

theorem Exc.levelled_rest (hUp : x.st ≠ .rampUp) (hDown : x.st ≠ .rampDown) (hRun : x.st ≠ .run) :
    x.levelled p hold lo hi = x := by
  unfold Exc.levelled
  split
  case h_1 h => exact absurd h hUp
  case h_2 h => exact absurd h hDown
  case h_3 h => exact absurd h hRun
  case h_4 => rfl

end

theorem State.excLevel_own (s : State) (n : Fin 4) :
    (s.excLevel n).exc[n] = s.exc[n].levelled (s.rampPer n) (s.regHold n) (s.lvlMin n) (s.lvlMax n) := by
  have hSet (x : Exc) : (s.setExc n x).exc[n] = x := vset_same _ _ _
  unfold State.excLevel
  dsimp only
  split
  case h_1 hSt =>
    split
    case isTrue hWait =>
      rw [Exc.levelled_first hSt hWait]
      exact hSet _
    case isFalse hWait =>
      rw [Exc.levelled_rampUp hSt (Bool.eq_false_of_not_eq_true hWait)]
      exact hSet _
  case h_2 hSt =>
    rw [Exc.levelled_rampDown hSt]
    exact hSet _
  case h_3 hSt =>
    split
    case isTrue hRegulates =>
      rw [Exc.levelled_regulated hSt hRegulates]
      exact hSet _
    case isFalse hHeld => rw [Exc.levelled_run hSt hHeld]
  case h_4 hUp hDown hRun => rw [Exc.levelled_rest hUp hDown hRun]

/-! ## A stop (R111) -/

/-- The bridge at the start of its RAMP_DOWN, if it has been told to stop. -/
def Exc.stopped (x : Exc) : Exc :=
  if x.stopping && (x.st == .run || x.st == .rampUp) then
    { x with st := .rampDown, stopping := false, waitX := false, rampCnt := 0, rampLvl := x.lvlNow }
  else x

theorem State.excStop_step (s : State) (n : Fin 4) : s.BridgeStep n (s.excStop n) := .ite (s.setExc_step _) (.refl s)

theorem State.excStop_own (s : State) (n : Fin 4) : (s.excStop n).exc[n] = s.exc[n].stopped := by
  unfold State.excStop Exc.stopped
  dsimp only
  split
  · exact vset_same _ _ _
  · rfl

theorem Exc.stopped_go {x : Exc} (h : x.stopping = false) : x.stopped = x :=
  if_neg fun hBoth => Bool.false_ne_true (h.symm.trans (Bool.and_eq_true_iff.mp hBoth).1)

theorem Exc.stopped_idle {x : Exc} (hRun : x.st ≠ .run) (hUp : x.st ≠ .rampUp) : x.stopped = x := by
  refine if_neg fun hBoth => ?_
  have hSt := (Bool.and_eq_true_iff.mp hBoth).2
  rw [Bool.or_eq_true, beq_iff_eq, beq_iff_eq] at hSt
  exact hSt.elim hRun hUp

/-- What a ramp, a stop and regulation leave of the bridge. -/
def Exc.steady (x : Exc) : Exc :=
  { x with st := .off, waitX := false, stopping := false, rampCnt := 0, rampLvl := 0, lvlNow := 0 }

theorem Exc.levelled_steady (x : Exc) (p : Nat) (hold : Bool) (lo hi : Nat) : (x.levelled p hold lo hi).steady = x.steady := by
  unfold Exc.levelled
  split
  · split <;> rfl
  · rfl
  · split <;> rfl
  · rfl

theorem Exc.levelled_st (x : Exc) (p : Nat) (hold : Bool) (lo hi : Nat) :
    (x.levelled p hold lo hi).st = x.st ∧ (x.levelled p hold lo hi).stopping = x.stopping := by
  unfold Exc.levelled
  split
  · split <;> exact ⟨rfl, rfl⟩
  · exact ⟨rfl, rfl⟩
  · split <;> exact ⟨rfl, rfl⟩
  · exact ⟨rfl, rfl⟩

theorem Exc.stopped_steady (x : Exc) : x.stopped.steady = x.steady := by
  unfold Exc.stopped
  split <;> rfl

theorem Exc.stopped_running (x : Exc) : x.stopped.running = x.running := by
  unfold Exc.stopped
  split
  case isTrue h =>
    have hSt := (Bool.and_eq_true_iff.mp h).2
    rw [Bool.or_eq_true, beq_iff_eq, beq_iff_eq] at hSt
    unfold Exc.running
    rcases hSt with hSt | hSt <;> rw [hSt]
  case isFalse => rfl

theorem Exc.stopped_st {x : Exc} (h : x.st = .run ∨ x.st = .rampUp ∨ x.st = .rampDown) :
    x.stopped.st = if x.stopping = true ∧ x.st ≠ .rampDown then .rampDown else x.st := by
  unfold Exc.stopped
  rcases h with h | h | h <;> cases hStop : x.stopping <;> simp [h]

end Sys2Proof.Machine
end

section
/-! PROOFS. What a zero crossing of a bridge has done at its end (R105 to R118): the values it takes on, the level, and CLIP. -/

namespace Sys2Proof.Machine

/-! ## Waiting values take effect (R106 to R108) -/

/-- The bridge with the values of its registers; while a slew runs, PHASE_OFS waits. -/
def State.pendingExc (s : State) (n : Fin 4) (x : Exc) : Exc :=
  { s.applyExc n x with phase := if x.car.slew.isSome = true then x.phase else s.EXC_PHASE_PHASE_OFS n }

/-- The bridge `x` with the changed values of `y` taken on, `k` being SETTLE_PER: a change of PHASE_OFS as a slew. -/
def Exc.changed (x y : Exc) (k : Nat) : Exc :=
  let dl := wrapHalf (((y.phase : Rat) - (x.phase : Rat)) / 65536)
  { y with
    car := if dl = 0 then y.car else { y.car with slew := some (dl, 1 + dl) }
    settle := true, settleRem := k
    lvlNow := if x.st = .run then
        (if y.closed then (if x.closed then x.lvlNow else min 2400 y.lvl) else min 2400 y.lvl)
      else x.lvlNow }

/-- The bridge after the part of a crossing in which waiting values take effect. -/
def State.takenExc (s : State) (n : Fin 4) (x : Exc) : Exc :=
  if s.pendingExc n x ≠ x then x.changed (s.pendingExc n x) (s.settlePer n) else { x with settleRem := x.settleRem - 1 }

theorem State.excTake_eq (s : State) (n : Fin 4) : s.excTake n =
    if s.pendingExc n s.exc[n] ≠ s.exc[n] then
      (s.chansOn n).foldl State.ceilMove (s.setExc n (s.exc[n].changed (s.pendingExc n s.exc[n]) (s.settlePer n)))
    else s.setExc n { s.exc[n] with settleRem := s.exc[n].settleRem - 1 } := by
  have hPending : (if s.exc[n].car.slew.isSome = true then { s.applyExc n s.exc[n] with phase := s.exc[n].phase }
      else s.applyExc n s.exc[n]) = s.pendingExc n s.exc[n] := by
    unfold State.pendingExc
    split <;> rfl
  unfold State.excTake
  dsimp only
  rw [hPending]
  rfl

theorem State.excTake_step (s : State) (n : Fin 4) : s.BridgeStep n (s.excTake n) := by
  rw [State.excTake_eq]
  exact .ite ((s.setExc_step _).trans (.foldl (fun t c => (t.ceilMove_step c).1) _ _)) (s.setExc_step _)

theorem State.excTake_own (s : State) (n : Fin 4) : (s.excTake n).exc[n] = s.takenExc n s.exc[n] := by
  have hSet (x : Exc) : (s.setExc n x).exc[n] = x := vset_same _ _ _
  rw [State.excTake_eq]
  unfold State.takenExc
  by_cases hChange : s.pendingExc n s.exc[n] ≠ s.exc[n]
  · rw [if_pos hChange, if_pos hChange, State.foldl_exc fun t c => (State.ceilMove_step (n := n) t c).2]
    exact hSet _
  · rw [if_neg hChange, if_neg hChange]
    exact hSet _

/-- What the values taken on leave of the bridge. -/
def Exc.kept (x : Exc) : Exc :=
  { x with
    car := { x.car with freq := 0, slew := none }
    phase := 0, lvl := 0, tgt := 0, closed := false, settle := false, settleRem := 0, lvlNow := 0 }

section
variable {s : State} {n : Fin 4} {x : Exc}

theorem State.takenExc_kept : (s.takenExc n x).kept = x.kept := by
  unfold State.takenExc
  split
  · unfold Exc.changed
    dsimp only
    split <;> rfl
  · rfl

theorem State.takenExc_applied : (s.takenExc n x).car.freq = s.EXC_FREQ_FREQ_HZ n ∧ (s.takenExc n x).lvl = s.EXC_AMP_DRV_LVL n ∧
    (s.takenExc n x).tgt = s.EXC_AMP_AMP_TGT n ∧ (s.takenExc n x).closed = (s.EXC_CTRL_MODE n == 1) := by
  unfold State.takenExc
  split
  case isTrue =>
    refine ⟨?_, rfl, rfl, rfl⟩
    unfold Exc.changed
    dsimp only
    split <;> rfl
  case isFalse hSame =>
    have hEq : x = s.pendingExc n x := (not_not.mp hSame).symm
    exact ⟨congrArg (·.car.freq) hEq, congrArg (·.lvl) hEq, congrArg (·.tgt) hEq, congrArg (·.closed) hEq⟩

theorem wrapHalf_zero : wrapHalf 0 = 0 := by
  have hFloor : (0 + 1 / 2 : Rat).floor = 0 := by norm_num [Rat.floor_def]
  unfold wrapHalf wrap01
  rw [hFloor]
  norm_num

theorem State.takenExc_slew (hSlew : x.car.slew = none) :
    (s.takenExc n x).phase = s.EXC_PHASE_PHASE_OFS n ∧
      let dl := wrapHalf (((s.EXC_PHASE_PHASE_OFS n : Rat) - (x.phase : Rat)) / 65536)
      (s.takenExc n x).car.slew = if dl = 0 then none else some (dl, 1 + dl) := by
  have hPhase : (s.pendingExc n x).phase = s.EXC_PHASE_PHASE_OFS n := by
    unfold State.pendingExc
    rw [hSlew]
    rfl
  unfold State.takenExc
  split
  case isTrue =>
    refine ⟨hPhase, ?_⟩
    unfold Exc.changed
    dsimp only
    rw [hPhase]
    split
    · exact hSlew
    · rfl
  case isFalse hSame =>
    have hStands : x.phase = s.EXC_PHASE_PHASE_OFS n := (congrArg (·.phase) (not_not.mp hSame)).symm.trans hPhase
    refine ⟨hStands, hSlew.trans ?_⟩
    rw [hStands, sub_self, zero_div, wrapHalf_zero]
    rfl

theorem State.takenExc_lvl_ramp (hSt : x.st ≠ .run) : (s.takenExc n x).lvlNow = x.lvlNow := by
  unfold State.takenExc
  split
  · exact if_neg hSt
  · rfl

theorem State.takenExc_lvl_closed (hClosed : x.closed = true) (hMode : s.EXC_CTRL_MODE n = 1) :
    (s.takenExc n x).lvlNow = x.lvlNow := by
  have hStays : (s.pendingExc n x).closed = true := beq_iff_eq.mpr hMode
  unfold State.takenExc
  split
  · unfold Exc.changed
    dsimp only
    rw [hStays, hClosed, if_pos rfl, if_pos rfl, ite_self]
  · rfl

theorem State.takenExc_lvl_open (hSt : x.st = .run) (hMode : s.EXC_CTRL_MODE n = 0) : (s.takenExc n x).lvlNow =
    if s.pendingExc n x ≠ x then min 2400 (s.EXC_AMP_DRV_LVL n) else x.lvlNow := by
  have hOpen : (s.pendingExc n x).closed = false := by
    change (s.EXC_CTRL_MODE n == 1) = false
    rw [hMode]
    rfl
  unfold State.takenExc
  split
  · unfold Exc.changed
    dsimp only
    rw [hOpen, if_pos hSt]
    rfl
  · rfl

theorem State.applyExc_eq_iff : s.applyExc n x = x ↔ s.EXC_FREQ_FREQ_HZ n = x.car.freq ∧ s.EXC_PHASE_PHASE_OFS n = x.phase ∧
    s.EXC_AMP_DRV_LVL n = x.lvl ∧ s.EXC_AMP_AMP_TGT n = x.tgt ∧ (s.EXC_CTRL_MODE n == 1) = x.closed := by
  constructor
  · intro h
    exact ⟨congrArg (·.car.freq) h, congrArg (·.phase) h, congrArg (·.lvl) h, congrArg (·.tgt) h, congrArg (·.closed) h⟩
  · rintro ⟨hFreq, hPhase, hLvl, hTgt, hClosed⟩
    unfold State.applyExc
    rw [hFreq, hPhase, hLvl, hTgt, hClosed]

theorem State.pendingExc_of_slew_none (hSlew : x.car.slew = none) : s.pendingExc n x = s.applyExc n x := by
  unfold State.pendingExc
  rw [hSlew]
  rfl

/-- With no value waiting nothing takes effect, whether a slew runs or not. -/
theorem State.pendingExc_of_applied (h : s.applyExc n x = x) : s.pendingExc n x = x := by
  have hPhase : s.EXC_PHASE_PHASE_OFS n = x.phase := (State.applyExc_eq_iff.mp h).2.1
  unfold State.pendingExc
  rw [h, hPhase, ite_self]

end

/-- After a step that leaves the registers alone the same values are waiting. -/
theorem State.takenExc_congr {s t : State} (h : t.offRail = s.offRail) (n : Fin 4) : t.takenExc n = s.takenExc n := by
  funext x
  have hReg := State.reg_of_offRail h
  unfold State.takenExc State.pendingExc State.applyExc State.settlePer State.EXC_FREQ_FREQ_HZ State.EXC_PHASE_PHASE_OFS
    State.EXC_AMP_DRV_LVL State.EXC_AMP_AMP_TGT State.EXC_CTRL_MODE State.EXC_CTRL_SETTLE_PER
  rw [hReg]

/-! ## The whole crossing -/

/-- The bridge after its crossing but for CLIP: waiting values take effect while it runs. -/
def State.tookExc (s : State) (n : Fin 4) (x : Exc) : Exc := if x.running = true then s.takenExc n x else x

theorem State.tookExc_kept (s : State) (n : Fin 4) (x : Exc) : (s.tookExc n x).kept = x.kept := by
  unfold State.tookExc
  split
  · exact State.takenExc_kept
  · rfl

theorem State.judgeClip_step (s : State) (n : Fin 4) : s.BridgeStep n (s.judgeClip n) := by
  unfold State.judgeClip
  exact (s.setExc_step _).trans (State.cond_step _ _ _ _ _)

/-- A crossing comes at the cycle of the next one, moves the bridge as its parts say, and judges CLIP last. -/
theorem exec_carrierZeroCrossing {s : State} {n : Fin 4} {m : ExcMeas} (hRel : s.boot.released = true)
    (hOn : s.halfOn (excHalf n.val) = true) (hFreq : s.exc[n].freq ≠ 0) :
    ∃ (u : State) (amp opens imbals highs lows : Nat),
      exec (.carrierZeroCrossing n m) s = .next (u.judgeClip n) ∧ (s.waitTill s.exc[n].nextX).BridgeStep n u ∧
      u.exc[n] = s.tookExc n ((((s.exc[n].crossed (s.waitTill s.exc[n].nextX).clk.cyc).measured m amp opens imbals highs
        lows).levelled (s.rampPer n) (s.regHold n) (s.lvlMin n) (s.lvlMax n)).stopped) := by
  let s1 := s.waitTill s.exc[n].nextX
  let s2 := s1.setExc n (s.exc[n].crossed s1.clk.cyc)
  let s3 := (s2.chansOn n).foldl State.phaseAdapt s2
  let s3' := s3.excMeasure n m
  let s4 := (s3'.excLevel n).excStop n
  have h2 : s1.BridgeStep n s2 := s1.setExc_step _
  have h3 : s1.BridgeStep n s3 := h2.trans (.foldl (fun t c => (t.phaseAdapt_step c).1) _ _)
  have h3' : s1.BridgeStep n s3' := h3.trans (State.excMeasure_step _ _ _)
  have h4 : s1.BridgeStep n s4 := (h3'.trans (State.excLevel_step _ _)).trans (State.excStop_step _ _)
  have hOwn2 : s2.exc[n] = s.exc[n].crossed s1.clk.cyc := vset_same _ _ _
  have hOwn3 : s3.exc[n] = s.exc[n].crossed s1.clk.cyc := by
    unfold s3
    rw [State.foldl_exc fun t c => (State.phaseAdapt_step (n := n) t c).2]
    exact hOwn2
  obtain ⟨amp, opens, imbals, highs, lows, hMeasured⟩ := State.excMeasure_own s3 n m
  rw [hOwn3] at hMeasured
  have hHold : s3'.regHold n = s.regHold n := h3'.regHold (by rw [hMeasured]; rfl)
  have hReg : s3'.reg = s.reg := (State.reg_of_offRail h3'.rest).trans rfl
  have hRamp : s3'.rampPer n = s.rampPer n := by
    unfold State.rampPer State.EXC_CTRL_RAMP_PER
    rw [hReg]
  have hMin : s3'.lvlMin n = s.lvlMin n := by
    unfold State.lvlMin State.EXC_LIMIT_LVL_MIN
    rw [hReg]
  have hMax : s3'.lvlMax n = s.lvlMax n := by
    unfold State.lvlMax State.EXC_LIMIT_LVL_MAX
    rw [hReg]
  have hOwn4 := State.excStop_own (s3'.excLevel n) n
  rw [State.excLevel_own, hMeasured, hHold, hRamp, hMin, hMax] at hOwn4
  have hExec : exec (.carrierZeroCrossing n m) s =
      .next ((if s4.exc[n].running then s4.excTake n else s4).judgeClip n) := by
    change execCarrierZeroCrossing n m s = _
    unfold execCarrierZeroCrossing
    rw [hRel, hOn, show (s.exc[n].car.freq == 0) = false from beq_false_of_ne hFreq]
    rfl
  refine ⟨_, amp, opens, imbals, highs, lows, hExec, .ite (h4.trans (State.excTake_step _ _)) h4, ?_⟩
  have hTaken : s4.takenExc n = s.takenExc n := State.takenExc_congr h4.rest n
  rw [← hOwn4]
  unfold State.tookExc
  split
  · rw [State.excTake_own, hTaken]
  · rfl

/-! ## The clauses of a crossing -/

theorem Exc.levelled_stopped_kept (x : Exc) (p : Nat) (hold : Bool) (lo hi : Nat) :
    (x.levelled p hold lo hi).stopped.steady = x.steady ∧ (x.levelled p hold lo hi).stopped.running = x.running := by
  refine ⟨(Exc.stopped_steady _).trans (Exc.levelled_steady _ _ _ _ _), (Exc.stopped_running _).trans ?_⟩
  unfold Exc.running
  rw [(Exc.levelled_st x p hold lo hi).1]

section
variable (s : State) (n : Fin 4) (x : Exc) (p lo hi : Nat) (hold : Bool)

/-- What neither the level nor the values taken on change. -/
theorem State.tookExc_wave : let z := s.tookExc n (x.levelled p hold lo hi).stopped
    z.car.t0 = x.car.t0 ∧ z.old = x.old ∧ z.car.ph = x.car.ph ∧ z.iFund = x.iFund ∧ z.iPeak = x.iPeak ∧ z.ampMeas = x.ampMeas := by
  intro z
  obtain ⟨hSteady, -⟩ := x.levelled_stopped_kept p hold lo hi
  have hKept : z.kept = _ := s.tookExc_kept n (x.levelled p hold lo hi).stopped
  have hWave {α : Type} (f : Exc → α) (hk : ∀ y, f y.kept = f y) (hs : ∀ y, f y.steady = f y) : f z = f x :=
    (hk z).symm.trans ((congrArg f hKept).trans ((hk _).trans ((hs _).symm.trans ((congrArg f hSteady).trans (hs x)))))
  exact ⟨hWave (·.car.t0) (fun _ => rfl) fun _ => rfl, hWave (·.old) (fun _ => rfl) fun _ => rfl,
    hWave (·.car.ph) (fun _ => rfl) fun _ => rfl, hWave (·.iFund) (fun _ => rfl) fun _ => rfl,
    hWave (·.iPeak) (fun _ => rfl) fun _ => rfl, hWave (·.ampMeas) (fun _ => rfl) fun _ => rfl⟩

variable {s n x p lo hi hold}

theorem Exc.levelled_stopped_values (x : Exc) (p : Nat) (hold : Bool) (lo hi : Nat) : let w := (x.levelled p hold lo hi).stopped
    w.car = x.car ∧ w.phase = x.phase ∧ w.lvl = x.lvl ∧ w.tgt = x.tgt ∧ w.closed = x.closed ∧ w.settle = x.settle ∧
      w.settleRem = x.settleRem := by
  intro w
  have hSteady : w.steady = x.steady := (x.levelled_stopped_kept p hold lo hi).1
  exact ⟨congrArg (·.car) hSteady, congrArg (·.phase) hSteady, congrArg (·.lvl) hSteady, congrArg (·.tgt) hSteady,
    congrArg (·.closed) hSteady, congrArg (·.settle) hSteady, congrArg (·.settleRem) hSteady⟩

/-- The same values wait before and after the level has moved. -/
theorem State.applyExc_levelled : s.applyExc n (x.levelled p hold lo hi).stopped = (x.levelled p hold lo hi).stopped ↔
    s.applyExc n x = x := by
  obtain ⟨hCar, hPhase, hLvl, hTgt, hClosed, -, -⟩ := x.levelled_stopped_values p hold lo hi
  rw [State.applyExc_eq_iff, State.applyExc_eq_iff, hCar, hPhase, hLvl, hTgt, hClosed]

theorem State.tookExc_running (hRun : x.running = true) :
    s.tookExc n (x.levelled p hold lo hi).stopped = s.takenExc n (x.levelled p hold lo hi).stopped :=
  if_pos ((x.levelled_stopped_kept p hold lo hi).2.trans hRun)

/-- A bridge that runs has the values of its registers after the crossing, a change of PHASE_OFS by a slew; SETTLE starts afresh with
a change, else it counts down (R106 to R108). -/
theorem State.tookExc_values (hRun : x.running = true) : let z := s.tookExc n (x.levelled p hold lo hi).stopped
    z.car.freq = s.EXC_FREQ_FREQ_HZ n ∧ z.lvl = s.EXC_AMP_DRV_LVL n ∧ z.tgt = s.EXC_AMP_AMP_TGT n ∧
      z.closed = (s.EXC_CTRL_MODE n == 1) ∧
      (x.car.slew = none → z.phase = s.EXC_PHASE_PHASE_OFS n ∧
        let dl := wrapHalf (((s.EXC_PHASE_PHASE_OFS n : Rat) - (x.phase : Rat)) / 65536)
        z.car.slew = if dl = 0 then none else some (dl, 1 + dl)) ∧
      (s.applyExc n x ≠ x → x.car.slew = none → z.settle = true ∧ z.settleRem = s.settlePer n) ∧
      (s.applyExc n x = x → z.settle = x.settle ∧ z.settleRem = x.settleRem - 1) := by
  intro z
  obtain ⟨hCar, hPhase, -, -, -, hSettle, hRem⟩ := x.levelled_stopped_values p hold lo hi
  have hz : z = s.takenExc n (x.levelled p hold lo hi).stopped := State.tookExc_running hRun
  obtain ⟨hFreq, hLvl, hTgt, hClosed⟩ := State.takenExc_applied (s := s) (n := n) (x := (x.levelled p hold lo hi).stopped)
  rw [hz]
  refine ⟨hFreq, hLvl, hTgt, hClosed, fun hSlew => ?_, fun hWaits hSlew => ?_, fun hSame => ?_⟩
  · rw [← hPhase]
    exact State.takenExc_slew (hCar ▸ hSlew)
  · have hPending : s.pendingExc n (x.levelled p hold lo hi).stopped ≠ (x.levelled p hold lo hi).stopped := by
      rw [State.pendingExc_of_slew_none (hCar ▸ hSlew)]
      exact fun h => hWaits (State.applyExc_levelled.mp h)
    unfold State.takenExc
    rw [if_pos hPending]
    exact ⟨rfl, rfl⟩
  · have hPending := State.pendingExc_of_applied (State.applyExc_levelled (p := p) (hold := hold) (lo := lo) (hi := hi).mpr hSame)
    unfold State.takenExc
    rw [if_neg (not_not.mpr hPending)]
    exact ⟨hSettle, congrArg (· - 1) hRem⟩

theorem State.tookExc_st (h : x.st = .run ∨ x.st = .rampUp ∨ x.st = .rampDown) :
    (s.tookExc n (x.levelled p hold lo hi).stopped).st = if x.stopping = true ∧ x.st ≠ .rampDown then .rampDown else x.st := by
  obtain ⟨hSt, hStopping⟩ := x.levelled_st p hold lo hi
  have hKept : (s.tookExc n (x.levelled p hold lo hi).stopped).st = (x.levelled p hold lo hi).stopped.st :=
    congrArg (·.st) (s.tookExc_kept n _)
  rw [hKept, Exc.stopped_st (by rw [hSt]; exact h), hSt, hStopping]

/-- A bridge in OFF or TRIPPED stays as it is. -/
theorem State.tookExc_stands (h : x.st = .off ∨ x.st = .tripped) : s.tookExc n (x.levelled p hold lo hi).stopped = x := by
  have hNot (st : ExcSt) (hOff : st ≠ .off) (hTripped : st ≠ .tripped) : x.st ≠ st := by
    rcases h with h | h
    · rw [h]
      exact hOff.symm
    · rw [h]
      exact hTripped.symm
  have hRun := hNot .run (by decide) (by decide)
  have hUp := hNot .rampUp (by decide) (by decide)
  rw [Exc.levelled_rest hUp (hNot .rampDown (by decide) (by decide)) hRun, Exc.stopped_idle hRun hUp]
  refine if_neg ?_
  unfold Exc.running
  rcases h with h | h
  · rw [h]
    exact Bool.false_ne_true
  · rw [h]
    exact Bool.false_ne_true

/-! ### The level at the crossing -/

/-- Outside RUN the values taken on do not move the level. -/
theorem State.tookExc_lvl_ramp {w : Exc} (hSt : w.st ≠ .run) : (s.tookExc n w).lvlNow = w.lvlNow := by
  unfold State.tookExc
  split
  · exact State.takenExc_lvl_ramp hSt
  · rfl

theorem State.tookExc_ramp {w : Exc} : (s.tookExc n w).waitX = w.waitX ∧ (s.tookExc n w).rampCnt = w.rampCnt := by
  have hKept := s.tookExc_kept n w
  exact ⟨congrArg (·.waitX) hKept, congrArg (·.rampCnt) hKept⟩

theorem Exc.levelled_go (hGo : x.stopping = false) : (x.levelled p hold lo hi).stopped = x.levelled p hold lo hi :=
  Exc.stopped_go ((x.levelled_st p hold lo hi).2.trans hGo)

theorem Exc.levelled_idle (hRun : x.st ≠ .run) (hUp : x.st ≠ .rampUp) :
    (x.levelled p hold lo hi).stopped = x.levelled p hold lo hi := by
  have hSt := (x.levelled_st p hold lo hi).1
  exact Exc.stopped_idle (hSt ▸ hRun) (hSt ▸ hUp)

theorem State.tookExc_first (hSt : x.st = .rampUp) (hGo : x.stopping = false) (hWait : x.waitX = true) :
    let z := s.tookExc n (x.levelled p hold lo hi).stopped
    z.waitX = false ∧ z.lvlNow = 0 := by
  intro z
  have hRun : x.st ≠ .run := by rw [hSt]; decide
  unfold z
  rw [Exc.levelled_go hGo, Exc.levelled_first hSt hWait]
  exact ⟨State.tookExc_ramp.1, State.tookExc_lvl_ramp hRun⟩

theorem State.tookExc_rampUp (hSt : x.st = .rampUp) (hGo : x.stopping = false) (hWait : x.waitX = false) :
    let z := s.tookExc n (x.levelled p hold lo hi).stopped
    z.rampCnt = min p (x.rampCnt + 1) ∧ z.lvlNow = min 2400 x.lvl * min p (x.rampCnt + 1) / p := by
  intro z
  have hRun : x.st ≠ .run := by rw [hSt]; decide
  unfold z
  rw [Exc.levelled_go hGo, Exc.levelled_rampUp hSt hWait]
  exact ⟨State.tookExc_ramp.2, State.tookExc_lvl_ramp hRun⟩

theorem State.tookExc_rampDown (hSt : x.st = .rampDown) : let z := s.tookExc n (x.levelled p hold lo hi).stopped
    z.rampCnt = min p (x.rampCnt + 1) ∧ z.lvlNow = x.rampLvl * (p - min p (x.rampCnt + 1)) / p := by
  intro z
  have hRun : x.st ≠ .run := by rw [hSt]; decide
  unfold z
  rw [Exc.levelled_idle hRun (by rw [hSt]; decide), Exc.levelled_rampDown hSt]
  exact ⟨State.tookExc_ramp.2, State.tookExc_lvl_ramp hRun⟩

theorem Exc.running_run (h : x.st = .run) : x.running = true := by
  unfold Exc.running
  rw [h]

theorem State.tookExc_open (hSt : x.st = .run) (hGo : x.stopping = false) (hOpen : x.closed = false)
    (hMode : s.EXC_CTRL_MODE n = 0) (hSlew : x.car.slew = none) : (s.tookExc n (x.levelled p hold lo hi).stopped).lvlNow =
      if s.applyExc n x ≠ x then min 2400 (s.EXC_AMP_DRV_LVL n) else x.lvlNow := by
  rw [State.tookExc_running (Exc.running_run hSt), Exc.levelled_go hGo,
    Exc.levelled_run hSt (by rw [hOpen]; exact Bool.false_ne_true), State.takenExc_lvl_open hSt hMode, State.pendingExc_of_slew_none hSlew]

theorem State.tookExc_held (hSt : x.st = .run) (hGo : x.stopping = false) (hClosed : x.closed = true)
    (hMode : s.EXC_CTRL_MODE n = 1) : (s.tookExc n (x.levelled p true lo hi).stopped).lvlNow = x.lvlNow := by
  rw [State.tookExc_running (Exc.running_run hSt), Exc.levelled_go hGo,
    Exc.levelled_run hSt (by rw [hClosed]; exact Bool.false_ne_true), State.takenExc_lvl_closed hClosed hMode]

theorem State.tookExc_regulated (hSt : x.st = .run) (hGo : x.stopping = false) (hClosed : x.closed = true)
    (hMode : s.EXC_CTRL_MODE n = 1) : (s.tookExc n (x.levelled p false lo hi).stopped).lvlNow =
      (regulate x.lvlNow (max 1 x.tgt : Nat) x.ampMeas lo hi).toNat := by
  rw [State.tookExc_running (Exc.running_run hSt), Exc.levelled_go hGo, Exc.levelled_regulated hSt (by rw [hClosed]; rfl)]
  exact State.takenExc_lvl_closed hClosed hMode

end

/-! ## Every clause -/

theorem Exc.crossed_slew {x : Exc} (h : x.car.slew = none) (c : Nat) : (x.crossed c).car.slew = none := by
  unfold Exc.crossed Exc.rebase Carrier.rebase Carrier.slewDone
  dsimp only
  rw [h]
  rfl

/-- PEND of a bridge that runs: a register and the value applied differ (R106). -/
theorem State.excPend_eq {s : State} {n : Fin 4} (hRun : s.exc[n].running = true) :
    s.excPend n = decide (s.applyExc n s.exc[n] ≠ s.exc[n]) := by
  unfold State.excPend
  dsimp only
  rw [hRun, Bool.true_and]
  by_cases h : s.applyExc n s.exc[n] = s.exc[n]
  · rw [decide_eq_false (not_not.mpr h)]
    exact bne_eq_false_iff_eq.mpr h
  · rw [decide_eq_true h]
    exact bne_iff_ne.mpr h

theorem crossingOfABridge : Parts.CrossingOfABridge := by
  intro s n m hRel hOn hFreq x p
  obtain ⟨u, amp, opens, imbals, highs, lows, hExec, hStep, hOwn⟩ := exec_carrierZeroCrossing (m := m) hRel hOn hFreq
  have hAll := hStep.trans (u.judgeClip_step n)
  have hClk := State.clk_of_offRail hAll.rest
  have hCyc : (s.waitTill x.nextX).clk.cyc = max s.clk.cyc x.nextX := (State.waitTill_clk_cyc _ _).trans (Nat.max_comm _ _)
  obtain ⟨-, hFram, hCfg, -⟩ := State.fields_of_offRail hAll.rest
  obtain ⟨v, hClip⟩ := u.judgeClip_exc n
  let x' := (x.crossed (s.waitTill x.nextX).clk.cyc).measured m amp opens imbals highs lows
  let z := s.tookExc n (x'.levelled p (s.regHold n) (s.lvlMin n) (s.lvlMax n)).stopped
  have hSlew (h : x.car.slew = none) : x'.car.slew = none := Exc.crossed_slew h _
  have hApplied : s.applyExc n x' = x' ↔ s.applyExc n x = x :=
    (State.applyExc_eq_iff (x := x')).trans (State.applyExc_eq_iff (x := x)).symm
  have hPend (hRun : x.running = true) : s.excPend n = true ↔ s.applyExc n x' ≠ x' := by
    rw [State.excPend_eq hRun, decide_eq_true_iff]
    exact not_congr hApplied.symm
  refine ⟨_, hExec, ?_⟩
  beta_reduce
  intro y
  have hy : y = { z with clip := v } := by
    unfold y
    rw [hClip, vset_same, hOwn]
  obtain ⟨hT0, hOld, hPh, hFund, hPeak, hAmp⟩ := s.tookExc_wave n x' p (s.lvlMin n) (s.lvlMax n) (s.regHold n)
  rw [hClk, hy]
  refine ⟨hCyc, hT0, hOld, hPh, hFund, hPeak, hCfg, hFram, hAll.others, fun hStands => ?_, fun hRun => ?_,
    fun hSt => State.tookExc_st (x := x') hSt, fun hSt hGo hWait => State.tookExc_first (x := x') hSt hGo hWait,
    fun hSt hGo hWait => State.tookExc_rampUp (x := x') hSt hGo hWait, fun hSt => State.tookExc_rampDown (x := x') hSt,
    fun hSt hGo hOpen hMode hNone => ?_, fun hSt hGo hClosed hMode => ⟨fun hHold => ?_, fun hHold => ?_⟩⟩
  · have hz : z = x' := State.tookExc_stands (x := x') hStands
    rw [hz]
    exact ⟨rfl, rfl, rfl, rfl⟩
  · obtain ⟨hF, hL, hT, hC, hPhase, hSettle, hCount⟩ := State.tookExc_values (s := s) (n := n) (x := x') (p := p)
      (lo := s.lvlMin n) (hi := s.lvlMax n) (hold := s.regHold n) hRun
    refine ⟨hF, hL, hT, hC, fun hNone => hPhase (hSlew hNone),
      fun hWaits hNone => hSettle ((hPend hRun).mp hWaits) (hSlew hNone), fun hSame => hCount ?_⟩
    by_contra hWaits
    rw [(hPend hRun).mpr hWaits] at hSame
    exact Bool.false_ne_true hSame.symm
  · have hLvl := State.tookExc_open (s := s) (n := n) (x := x') (p := p) (lo := s.lvlMin n) (hi := s.lvlMax n)
      (hold := s.regHold n) hSt hGo hOpen hMode (hSlew hNone)
    refine hLvl.trans ?_
    have hIff := hPend (Exc.running_run hSt)
    by_cases hWaits : s.excPend n = true
    · rw [if_pos hWaits, if_pos (hIff.mp hWaits)]
    · rw [if_neg hWaits, if_neg fun h => hWaits (hIff.mpr h)]
      rfl
  · have hLvl := State.tookExc_held (s := s) (n := n) (x := x') (p := p) (lo := s.lvlMin n) (hi := s.lvlMax n) hSt hGo hClosed hMode
    rw [← hHold] at hLvl
    exact hLvl
  · have hLvl := State.tookExc_regulated (s := s) (n := n) (x := x') (p := p) (lo := s.lvlMin n) (hi := s.lvlMax n) hSt hGo hClosed
      hMode
    rw [← hHold, ← hAmp] at hLvl
    exact hLvl

end Sys2Proof.Machine
end

section
/-! PROOFS. The phase of a carrier (R104, R107), and the level that a bridge delivers (R102, R110, R111, R114). -/

namespace Sys2Proof.Machine

/-! ## The phase of a carrier -/

/-- The turns of a carrier in a slew by `dl` that covers 1 + `dl` turns, `a` being what it would make without: 1 + `dl` times as many
until one of them, then `dl` more (R107). -/
theorem Carrier.turns_slew {x : Carrier} {dl : Rat} (hSlew : x.slew = some (dl, 1 + dl)) (hLow : -1 / 2 ≤ dl) (hFreq : 0 < x.rate)
    (n : Rat) : (x.rate * n ≤ 1 → x.turns n = x.rate * (1 + dl) * n) ∧ (1 ≤ x.rate * n → x.turns n = x.rate * n + dl) := by
  have hFast : 0 < 1 + dl := by linarith
  have hTurns : x.turns n = if x.rate * (1 + dl) * n ≤ 1 + dl then x.rate * (1 + dl) * n
      else 1 + dl + x.rate * (n - (1 + dl) / (x.rate * (1 + dl))) := by
    unfold Carrier.turns
    rw [hSlew]
  have hIff : x.rate * (1 + dl) * n ≤ 1 + dl ↔ x.rate * n ≤ 1 := by
    rw [mul_right_comm]
    exact mul_le_iff_le_one_left hFast
  have hRest : 1 + dl + x.rate * (n - (1 + dl) / (x.rate * (1 + dl))) = x.rate * n + dl := by
    field_simp
    ring
  rw [hTurns]
  refine ⟨fun h => if_pos (hIff.mpr h), fun h => ?_⟩
  by_cases hEnd : x.rate * n ≤ 1
  · have hOne : x.rate * n = 1 := le_antisymm hEnd h
    rw [if_pos (hIff.mpr hEnd), mul_right_comm, hOne, one_mul]
  · rw [if_neg (mt hIff.mp hEnd), hRest]

theorem carrierPhase : Parts.CarrierPhase := by
  intro x c _ n f
  have hPhase : x.phaseAt c = x.ph + x.turns n := rfl
  rw [hPhase]
  refine ⟨fun hSlew => ?_, fun dl hSlew hLow _ hFreq => ?_⟩
  · have hTurns : x.turns n = x.rate * n := by
      unfold Carrier.turns
      rw [hSlew]
    rw [hTurns]
    rfl
  · have hRate : 0 < x.rate := div_pos (Nat.cast_pos.mpr hFreq) (by norm_num)
    obtain ⟨hIn, hAfter⟩ := Carrier.turns_slew hSlew hLow hRate n
    refine ⟨fun h => ?_, fun h => ?_⟩
    · rw [hIn h]
      rfl
    · rw [hAfter h, add_assoc]
      rfl

/-! ## The level delivered -/

/-- The limit of R102 as its two parts. -/
theorem State.le_lvlLimit_iff {s : State} {n : Fin 4} {l : Nat} :
    l ≤ s.lvlLimit n ↔ l ≤ 2400 ∧ l * 100 ≤ 19 * s.vexcMv[Fin.ofNat 2 (n.val / 2)] := by
  unfold State.lvlLimit
  rw [Nat.le_min, Nat.le_div_iff_mul_le (by decide)]

theorem State.lvlShown_of_le {s : State} {n : Fin 4} (h : s.lvlAsked n ≤ s.lvlLimit n) : s.lvlShown n = s.lvlAsked n :=
  Nat.min_eq_left h

theorem State.lvlAsked_waiting {s : State} {n : Fin 4} (hSt : s.exc[n].st = .rampUp) (hWait : s.exc[n].waitX = true) :
    s.lvlAsked n = 0 := by
  unfold State.lvlAsked
  dsimp only
  rw [hSt]
  exact if_pos hWait

theorem State.lvlAsked_run {s : State} {n : Fin 4} (hSt : s.exc[n].st = .run) : s.lvlAsked n = s.exc[n].lvlNow := by
  unfold State.lvlAsked
  dsimp only
  rw [hSt]

theorem lvlShown_limited (s : State) (n : Fin 4) : s.lvlShown n ≤ 2400 ∧
    s.lvlShown n * 100 ≤ 19 * s.vexcMv[Fin.ofNat 2 (n.val / 2)] ∧
    (s.exc[n].st = .rampUp → s.exc[n].waitX = true → s.lvlShown n = 0) ∧
    (s.exc[n].st = .run → s.exc[n].lvlNow ≤ 2400 → s.exc[n].lvlNow * 100 ≤ 19 * s.vexcMv[Fin.ofNat 2 (n.val / 2)] →
      s.lvlShown n = s.exc[n].lvlNow) := by
  obtain ⟨hTop, hRail⟩ := State.le_lvlLimit_iff.mp (Nat.min_le_right (s.lvlAsked n) (s.lvlLimit n))
  refine ⟨hTop, hRail, fun hSt hWait => ?_, fun hSt hLvl hMv => ?_⟩
  · unfold State.lvlShown
    rw [State.lvlAsked_waiting hSt hWait, Nat.zero_min]
  · have hAsked := State.lvlAsked_run hSt
    rw [← hAsked] at hLvl hMv ⊢
    exact State.lvlShown_of_le (State.le_lvlLimit_iff.mpr ⟨hLvl, hMv⟩)

/-! ## CLIP (R114) -/

/-- CLIP of bridge `n`: it drives, and the level requested lies above the limit of R102. -/
def State.clips (s : State) (n : Fin 4) : Bool :=
  s.exc[n].running && !s.exc[n].waitX &&
    decide (19 * s.vexcMv[Fin.ofNat 2 (n.val / 2)] < 100 * s.exc[n].lvlNow ∨ 2400 < s.exc[n].lvlNow)

theorem State.judgeClip_eq (s : State) (n : Fin 4) : s.judgeClip n =
    (s.setExc n { s.exc[n] with clip := s.clips n }).cond .exc (6 * n.val + 4) (excHalf n.val).copy (s.clips n) := by
  have hClips : (s.exc[n].running && !s.exc[n].waitX && s.overLimit n) = s.clips n := by
    unfold State.clips State.overLimit
    rw [Bool.decide_or]
  unfold State.judgeClip
  dsimp only
  rw [hClips]

theorem State.judgeClip_own (s : State) (n : Fin 4) : (s.judgeClip n).exc[n] = { s.exc[n] with clip := s.clips n } := by
  rw [State.judgeClip_eq, State.cond_exc]
  exact vset_same _ _ _

/-- CLIP judged is live as it is judged, and is what it would be judged afterwards. -/
theorem State.judgeClip_live {s : State} {n : Fin 4} (hp : s.powered .exc = true) :
    (s.judgeClip n).liveBit .exc (excHalf n.val).copy (6 * n.val + 4) = (s.judgeClip n).exc[n].clip := by
  have hn := n.isLt
  rw [State.judgeClip_own, State.judgeClip_eq]
  refine State.cond_liveBit ?_ (by omega) rfl rfl _ _
  exact hp

theorem State.judgeClip_clips (s : State) (n : Fin 4) : (s.judgeClip n).exc[n].clip = (s.judgeClip n).clips n := by
  obtain ⟨hMv, -, -, -⟩ := State.fields_of_offRail (s.judgeClip_offRail n)
  unfold State.clips
  rw [State.judgeClip_own, hMv]
  rfl

theorem deliveredLevel : Parts.DeliveredLevel := by
  refine ⟨lvlShown_limited, fun s n m hRel hOn hFreq hp => ?_⟩
  obtain ⟨u, -, -, -, -, -, hExec, hStep, -⟩ := exec_carrierZeroCrossing (m := m) hRel hOn hFreq
  have hPowered : u.powered .exc = true := (State.powered_of_offRail hStep.rest _).trans hp
  obtain ⟨hMv, -, -, -⟩ := State.fields_of_offRail (hStep.trans (u.judgeClip_step n)).rest
  refine ⟨_, hExec, State.judgeClip_live hPowered, ?_⟩
  rw [State.judgeClip_clips]
  unfold State.clips
  rw [hMv]
  rfl

/-- Settles O17: a crossing by what each of its parts makes of the bridge and leaves alone, the carrier by the turns it makes in a slew
and after it. -/
theorem zeroCrossings : Obligations.ZeroCrossings := by
  unfold Obligations.ZeroCrossings
  exact ⟨crossingOfABridge, carrierPhase, deliveredLevel⟩

end Sys2Proof.Machine
end

section
/-! PROOFS. The ends of SETTLE and of the ramps (R102, R108, R110, R111), and the faults of a bridge (R120, Table 5.3). -/

namespace Sys2Proof.Machine

/-! ## A bridge changed, then judged -/

/-- From `s` to `t` bridge `n` has become `z`, and CLIP and its channels have been judged on that. -/
structure State.Changed (n : Fin 4) (z : Exc) (s t : State) : Prop where
  rest : t.offRail = s.offRail
  others : ∀ k, k ≠ n → t.exc[k] = s.exc[k]
  own : ∃ v, t.exc[n] = { z with clip := v }
  sticky : s.StickyUp t
  bits : ∀ b, b ≠ 6 * n.val + 4 → s.KeepsBit .exc b t

theorem State.judgeClip_stickyUp (s : State) (n : Fin 4) : s.StickyUp (s.judgeClip n) := by
  unfold State.judgeClip
  exact (State.StickyUp.of_flt (t := s.setExc n _) rfl).trans (State.cond_stickyUp _ _ _ _ _)

theorem State.judgeClip_bits (s : State) {n : Fin 4} {b : Nat} (hb : b ≠ 6 * n.val + 4) : s.KeepsBit .exc b (s.judgeClip n) := by
  unfold State.judgeClip
  exact (State.KeepsBit.of_flt (t := s.setExc n _) rfl).trans (State.cond_keepsBit _ (.inr hb) _ _)

theorem State.setExc_changed (s : State) (n : Fin 4) (z : Exc) : s.Changed n z ((s.setExc n z).judgeClip n).judgeDrvAll := by
  have hOwn : (s.setExc n z).exc[n] = z := vset_same _ _ _
  refine ⟨?_, fun k hk => ?_, ⟨(s.setExc n z).clips n, ?_⟩, ?_, fun b hb => ?_⟩
  · rw [State.judgeDrvAll_offRail, State.judgeClip_offRail]
    rfl
  · rw [State.judgeDrvAll_exc, State.judgeClip_other _ hk]
    exact vset_other _ _ _ _ hk
  · rw [State.judgeDrvAll_exc, State.judgeClip_own, hOwn]
  · have hSet : s.StickyUp (s.setExc n z) := .of_flt rfl
    exact hSet.trans ((State.judgeClip_stickyUp _ n).trans (State.judgeDrvAll_stickyUp _))
  · have hSet : s.KeepsBit .exc b (s.setExc n z) := .of_flt rfl
    exact hSet.trans ((State.judgeClip_bits _ hb).trans (State.judgeDrvAll_keepsBit (fun _ => Page.noConfusion) _))

section
variable {n : Fin 4} {z : Exc} {s t : State} (h : s.Changed n z t)
include h

theorem State.Changed.st : t.exc[n].st = z.st := by
  obtain ⟨v, hOwn⟩ := h.own
  rw [hOwn]

theorem State.Changed.lvlNow : t.exc[n].lvlNow = z.lvlNow := by
  obtain ⟨v, hOwn⟩ := h.own
  rw [hOwn]

theorem State.Changed.waitX : t.exc[n].waitX = z.waitX := by
  obtain ⟨v, hOwn⟩ := h.own
  rw [hOwn]

theorem State.Changed.settle : t.exc[n].settle = z.settle := by
  obtain ⟨v, hOwn⟩ := h.own
  rw [hOwn]

theorem State.Changed.temp : t.exc[n].temp = z.temp := by
  obtain ⟨v, hOwn⟩ := h.own
  rw [hOwn]

theorem State.Changed.cfg : t.cfg = s.cfg := by
  obtain ⟨-, -, hCfg, -⟩ := State.fields_of_offRail h.rest
  exact hCfg

end

/-- A bridge put in OFF or TRIPPED takes the values of its registers at once. -/
theorem State.setExc_excAtOnce {s : State} {n : Fin 4} {y : Exc} (h : y.st = .off ∨ y.st = .tripped) :
    (s.setExc n y).excAtOnce n = s.setExc n (s.settledExc n y) := by
  have hOwn : (s.setExc n y).exc[n] = y := vset_same _ _ _
  rw [State.excAtOnce_stands (by rw [hOwn]; exact h), hOwn]
  exact s.setExc_setExc n _ _

/-! ## SETTLE and the ramps end (R108, R110, R111) -/

/-- Bridge `n` in OFF at the end of its RAMP_DOWN. -/
def State.rampedOff (s : State) (n : Fin 4) : Exc :=
  s.settledExc n { s.exc[n] with st := .off, lvlNow := 0, settle := false, settleRem := 0, calmAt := s.clk.cyc }

section
variable {s : State} {n : Fin 4}

theorem exec_excSettleEnd (hSettle : s.exc[n].settle = true) (hRem : s.exc[n].settleRem = 0) : exec (.excSettleEnd n) s =
    .next (s.setExc n { s.exc[n] with settle := false, calmAt := s.clk.cyc }) :=
  if_pos (by rw [hSettle, hRem]; rfl)

theorem exec_excSettleEnd_early (h : s.exc[n].settle = false ∨ 0 < s.exc[n].settleRem) : exec (.excSettleEnd n) s = .next s := by
  refine if_neg fun hBoth => ?_
  obtain ⟨hSettle, hRem⟩ := Bool.and_eq_true_iff.mp hBoth
  rcases h with h | h
  · exact Bool.false_ne_true (h.symm.trans hSettle)
  · exact h.ne' (beq_iff_eq.mp hRem)

theorem exec_excRampEnd_early (h : s.exc[n].rampCnt < s.rampPer n ∨ s.exc[n].waitX = true) : exec (.excRampEnd n) s = .next s :=
  if_pos h

variable (hWait : s.exc[n].waitX = false) (hCnt : s.rampPer n ≤ s.exc[n].rampCnt)
include hWait hCnt

theorem rampEnd_due : ¬ (s.exc[n].rampCnt < s.rampPer n ∨ s.exc[n].waitX = true) := by
  rw [hWait]
  exact fun h => h.elim (Nat.not_lt.mpr hCnt) Bool.false_ne_true

theorem exec_excRampEnd_up (hSt : s.exc[n].st = .rampUp) : exec (.excRampEnd n) s =
    .next (s.setExc n { s.exc[n] with st := .run, lvlNow := min 2400 s.exc[n].lvl, calmAt := s.clk.cyc }) := by
  change execExcRampEnd n s = _
  unfold execExcRampEnd
  dsimp only
  rw [if_neg (rampEnd_due hWait hCnt)]
  split
  case h_1 => rfl
  case h_2 h => exact ExcSt.noConfusion (hSt.symm.trans h)
  case h_3 h _ => exact absurd hSt h

theorem exec_excRampEnd_down (hSt : s.exc[n].st = .rampDown) : let u := s.setExc n (s.rampedOff n)
    exec (.excRampEnd n) s =
      .next ((if s.EXC_CTRL_EN n.val = 1 then u.startExc n else u).judgeClip n).judgeDrvAll := by
  intro u
  change execExcRampEnd n s = _
  unfold execExcRampEnd
  dsimp only
  rw [if_neg (rampEnd_due hWait hCnt)]
  split
  case h_1 h => exact ExcSt.noConfusion (hSt.symm.trans h)
  case h_2 =>
    rw [State.setExc_excAtOnce (.inl rfl)]
    rfl
  case h_3 h => exact absurd hSt h

end

theorem rampsAndSettleEnd : Parts.RampsAndSettleEnd := by
  intro s n x
  refine ⟨fun hSettle hRem => ⟨_, exec_excSettleEnd hSettle hRem, rfl⟩, exec_excSettleEnd_early,
    fun hSt hWait hCnt => ⟨_, exec_excRampEnd_up hWait hCnt hSt, rfl⟩, fun hSt hWait hCnt => ?_, exec_excRampEnd_early⟩
  have hExec := exec_excRampEnd_down hWait hCnt hSt
  let u := s.setExc n (s.rampedOff n)
  have hOwn : u.exc[n] = s.rampedOff n := vset_same _ _ _
  have hEnds {z : Exc} {P : State → Prop} (hEq : (if s.EXC_CTRL_EN n.val = 1 then u.startExc n else u) = s.setExc n z)
      (hP : ∀ t, s.Changed n z t → P t) : Completes (.excRampEnd n) s P := by
    refine ⟨_, hExec, ?_⟩
    rw [hEq]
    exact hP _ (s.setExc_changed n z)
  by_cases hEn : s.EXC_CTRL_EN n.val = 1
  · have hZero : s.EXC_CTRL_EN n.val ≠ 0 := by omega
    by_cases hGood : s.vexcGood n = true ∧ s.tripLive n = false
    · have hStart : u.startExc n = s.setExc n (u.rampUpExc n (s.rampedOff n)) := by
        rw [State.startExc_up (s := u) hGood.1 hGood.2, hOwn]
        exact s.setExc_setExc n _ _
      refine hEnds ((if_pos hEn).trans hStart) fun t ht => ⟨ht.lvlNow, ht.settle, ht.cfg, ht.others, fun h => absurd h hZero,
        fun _ => ?_⟩
      rw [if_pos hGood]
      exact ht.st
    · have hBad : u.vexcGood n = false ∨ u.tripLive n = true := by
        rw [not_and_or, Bool.not_eq_true, Bool.not_eq_false] at hGood
        exact hGood
      have hStart : u.startExc n = s.setExc n (u.trippedExc n (s.rampedOff n)) := by
        rw [State.startExc_trip hBad, hOwn]
        exact s.setExc_setExc n _ _
      refine hEnds ((if_pos hEn).trans hStart) fun t ht => ⟨ht.lvlNow, ht.settle, ht.cfg, ht.others, fun h => absurd h hZero,
        fun _ => ?_⟩
      rw [if_neg hGood]
      exact ht.st
  · exact hEnds (if_neg hEn) fun t ht => ⟨ht.lvlNow, ht.settle, ht.cfg, ht.others, fun _ => ht.st, fun h => absurd h hEn⟩

/-! ## A trip (R120) -/

/-- A bridge that delivers trips: it is TRIPPED at high impedance, with the values of its registers. -/
theorem State.tripExc_delivers {s : State} {n : Fin 4} (h : s.exc[n].st.delivers) : ∃ z : Exc, z.st = .tripped ∧ z.lvlNow = 0 ∧
    z.waitX = false ∧ z.temp = s.exc[n].temp ∧ s.Changed n z (s.tripExc n) := by
  let y : Exc := { s.exc[n] with
    st := .tripped, waitX := false, stopping := false, lvlNow := 0, settle := false, settleRem := 0, calmAt := s.clk.cyc }
  have hTrip : s.tripExc n = ((s.setExc n (s.settledExc n y)).judgeClip n).judgeDrvAll := by
    rw [← State.setExc_excAtOnce (s := s) (n := n) (y := y) (.inr rfl)]
    unfold State.tripExc
    dsimp only
    split
    case h_4 hUp hRun hDown => exact absurd h fun h => h.elim hRun fun h => h.elim hUp hDown
    all_goals rfl
  exact ⟨s.settledExc n y, rfl, rfl, rfl, rfl, hTrip ▸ s.setExc_changed n _⟩

/-- Beside the bridge's own state the trip keeps the registers and the other bridges. -/
def State.TrippedFrom (n : Fin 4) (s t : State) : Prop :=
  t.exc[n].st = .tripped ∧ t.exc[n].lvlNow = 0 ∧ t.exc[n].waitX = false ∧ t.cfg = s.cfg ∧ ∀ k : Fin 4, k ≠ n → t.exc[k] = s.exc[k]

/-- A trip of bridge `n` in `u`, whose registers and other bridges are those of `s`. -/
theorem State.tripExc_tripped {s u : State} {n : Fin 4} (h : u.exc[n].st.delivers) (hCfg : u.cfg = s.cfg)
    (hOthers : ∀ k : Fin 4, k ≠ n → u.exc[k] = s.exc[k]) : State.TrippedFrom n s (u.tripExc n) ∧
      (u.tripExc n).exc[n].temp = u.exc[n].temp ∧ u.StickyUp (u.tripExc n) ∧
      ∀ b, b ≠ 6 * n.val + 4 → u.KeepsBit .exc b (u.tripExc n) := by
  obtain ⟨z, hSt, hLvl, hWait, hTemp, hTrip⟩ := State.tripExc_delivers h
  exact ⟨⟨hTrip.st.trans hSt, hTrip.lvlNow.trans hLvl, hTrip.waitX.trans hWait, hTrip.cfg.trans hCfg,
    fun k hk => (hTrip.others k hk).trans (hOthers k hk)⟩, hTrip.temp.trans hTemp, hTrip.sticky, hTrip.bits⟩

/-! ## Faults of a bridge (Table 5.3) -/

/-- A bridge that is running and not in a Lookout cycle delivers. -/
theorem ExcSt.delivers_of_running {x : Exc} (hRun : x.running = true) (hSt : x.st ≠ .lookout) : x.st.delivers := by
  unfold Exc.running at hRun
  split at hRun
  case h_1 => exact absurd hRun Bool.false_ne_true
  case h_2 => exact absurd hRun Bool.false_ne_true
  case h_3 hOff hTripped =>
    unfold ExcSt.delivers
    cases h : x.st
    case run => exact .inl rfl
    case rampUp => exact .inr (.inl rfl)
    case rampDown => exact .inr (.inr rfl)
    case off => exact absurd h hOff
    case tripped => exact absurd h hTripped
    case lookout => exact absurd h hSt

/-- No hold-off window of Table 15.4 covers a source of EXC. -/
theorem State.reports_exc {s : State} (hp : s.powered .exc = true) (b : Nat) : s.reports .exc b = true := by
  unfold State.reports State.heldOff
  rw [hp, show s.holdWin .exc b = {} from rfl, show s.lossEnd .exc b = 0 from rfl]
  simp [HoldWin.covers]

section
variable {s : State} {n : Fin 4}

theorem State.excDrives_iff : s.excDrives n = true ↔
    (s.halfOn (excHalf n.val) = true ∧ s.exc[n].running = true) ∧ s.exc[n].waitX = false := by
  unfold State.excDrives
  rw [Bool.and_eq_true, Bool.and_eq_true, Bool.not_eq_true']

/-- An event of EXC that trips a bridge which delivers is reported (R120). -/
theorem State.event_trips {b : Nat} (hp : s.powered .exc = true) (hb : b < 32) (h : s.exc[n].st.delivers) :
    let t := (s.event .exc b (excHalf n.val).copy).tripExc n
    t.stickyBit .exc b = true ∧ State.TrippedFrom n s t := by
  intro t
  have hApart := State.event_apart s .exc b (excHalf n.val).copy
  have hExc := State.exc_of_apart hApart
  obtain ⟨-, -, hCfg, -⟩ := State.fields_of_offRail (State.offRail_of_apart hApart)
  have hSticky := State.event_sticky s .exc b (excHalf n.val).copy (State.reports_exc hp b) hb
  obtain ⟨hTrip, -, hUp, -⟩ := State.tripExc_tripped (u := s.event .exc b (excHalf n.val).copy) (n := n) (by rw [hExc]; exact h) hCfg
    fun k _ => by rw [hExc]
  exact ⟨hUp _ _ hSticky, hTrip⟩

theorem State.ocLimited_iff {peaks : List Nat} : s.ocLimited n peaks = true ↔
    max 1 (s.EXC_IMON_CFG_OC_CNT n.val) ≤ peaks.length ∧
      ∀ i ∈ peaks.take (max 1 (s.EXC_IMON_CFG_OC_CNT n.val)), s.ocThr n < i := by
  unfold State.ocLimited
  rw [Bool.and_eq_true, decide_eq_true_iff, List.all_eq_true]
  simp only [decide_eq_true_iff]

theorem exec_oc {peaks : List Nat} (hDrives : s.excDrives n = true) (hLimited : s.ocLimited n peaks = true) :
    exec (.oc ⟨n, peaks⟩) s = .next ((s.event .exc (6 * n.val) (excHalf n.val).copy).tripExc n) :=
  if_pos (Bool.and_eq_true_iff.mpr ⟨hDrives, hLimited⟩)

theorem exec_oc_unlimited {peaks : List Nat} (h : s.ocLimited n peaks ≠ true) : exec (.oc ⟨n, peaks⟩) s = .next s :=
  if_neg fun hBoth => h (Bool.and_eq_true_iff.mp hBoth).2

theorem exec_imbal (hDrives : s.excDrives n = true) (hRun : 2 ≤ s.exc[n].imbRun) :
    exec (.imbal n) s = .next ((s.event .exc (6 * n.val + 2) (excHalf n.val).copy).tripExc n) :=
  if_pos (Bool.and_eq_true_iff.mpr ⟨hDrives, decide_eq_true hRun⟩)

theorem exec_imbal_few (h : s.exc[n].imbRun < 2) : exec (.imbal n) s = .next s :=
  if_neg fun hBoth => Nat.not_le.mpr h (of_decide_eq_true (Bool.and_eq_true_iff.mp hBoth).2)

theorem exec_openLoad (hDrives : s.excDrives n = true) (hRun : 4 ≤ s.exc[n].openRun) :
    exec (.openLoad n) s = .next (s.cond .exc (6 * n.val + 1) (excHalf n.val).copy true) :=
  if_pos (Bool.and_eq_true_iff.mpr ⟨hDrives, decide_eq_true hRun⟩)

theorem exec_openLoad_few (h : s.exc[n].openRun < 4) : exec (.openLoad n) s = .next s :=
  if_neg fun hBoth => Nat.not_le.mpr h (of_decide_eq_true (Bool.and_eq_true_iff.mp hBoth).2)

theorem exec_regSat (hDrives : s.excDrives n = true) (h : 64 ≤ s.exc[n].satHi ∨ 64 ≤ s.exc[n].satLo) :
    exec (.regSat n) s = .next (s.cond .exc (6 * n.val + 3) (excHalf n.val).copy true) :=
  if_pos (Bool.and_eq_true_iff.mpr ⟨hDrives, Bool.or_eq_true_iff.mpr (h.imp decide_eq_true decide_eq_true)⟩)

theorem exec_regSat_few (hHi : s.exc[n].satHi < 64) (hLo : s.exc[n].satLo < 64) : exec (.regSat n) s = .next s :=
  if_neg fun hBoth => (Bool.or_eq_true_iff.mp (Bool.and_eq_true_iff.mp hBoth).2).elim
    (fun h => Nat.not_le.mpr hHi (of_decide_eq_true h)) fun h => Nat.not_le.mpr hLo (of_decide_eq_true h)

section
variable {temp : BitVec 16} (hOn : s.halfOn (excHalf n.val) = true)
include hOn

theorem exec_ots_hot (h : 2720 < temp.toInt) : exec (.ots n temp) s =
    .next (((s.excTemp n temp).cond .exc (6 * n.val + 5) (excHalf n.val).copy true).tripExc n) :=
  (if_pos hOn).trans (if_pos h)

theorem exec_ots_cool (h : temp.toInt ≤ 2720) : exec (.ots n temp) s = .next (s.excTemp n temp) :=
  (if_pos hOn).trans (if_neg (Int.not_lt.mpr h))

theorem exec_otsClear_cool (h : temp.toInt < 2480) : exec (.otsClear n temp) s =
    .next ((s.excTemp n temp).cond .exc (6 * n.val + 5) (excHalf n.val).copy false) :=
  (if_pos hOn).trans (if_pos h)

theorem exec_otsClear_hot (h : 2480 ≤ temp.toInt) : exec (.otsClear n temp) s = .next (s.excTemp n temp) :=
  (if_pos hOn).trans (if_neg (Int.not_lt.mpr h))

end

/-- OTS goes live and trips a bridge that delivers (R120). -/
theorem State.ots_trips {temp : BitVec 16} (hp : s.powered .exc = true) (h : s.exc[n].st.delivers) :
    let t := ((s.excTemp n temp).cond .exc (6 * n.val + 5) (excHalf n.val).copy true).tripExc n
    t.exc[n].temp = temp ∧ t.liveBit .exc (excHalf n.val).copy (6 * n.val + 5) = true ∧ State.TrippedFrom n s t := by
  have hn := n.isLt
  have hApart := State.cond_apart (s.excTemp n temp) .exc (6 * n.val + 5) (excHalf n.val).copy true
  have hLive : ((s.excTemp n temp).cond .exc (6 * n.val + 5) (excHalf n.val).copy true).liveBit .exc (excHalf n.val).copy
      (6 * n.val + 5) = true := by
    refine State.cond_liveBit ?_ (by omega) rfl rfl _ _
    exact hp
  have hExc : ((s.excTemp n temp).cond .exc (6 * n.val + 5) (excHalf n.val).copy true).exc =
      vset s.exc n { s.exc[n] with temp := temp } := State.exc_of_apart hApart
  obtain ⟨-, -, hCfg, -⟩ := State.fields_of_offRail (State.offRail_of_apart hApart)
  generalize (s.excTemp n temp).cond .exc (6 * n.val + 5) (excHalf n.val).copy true = u at *
  have hOwn : u.exc[n] = { s.exc[n] with temp := temp } := by
    rw [hExc]
    exact vset_same _ _ _
  obtain ⟨hTrip, hTemp, -, hBits⟩ := State.tripExc_tripped (s := s) (u := u) (n := n) (by rw [hOwn]; exact h) hCfg fun k hk => by
    rw [hExc]
    exact vset_other _ _ _ _ hk
  intro t
  refine ⟨hTemp.trans ?_, (hBits _ (by omega) _).trans hLive, hTrip⟩
  rw [hOwn]

end

theorem bridgeFaults : Parts.BridgeFaults := by
  intro s n hp x c tripped k high
  have hn := n.isLt
  have hLive (b : Nat) (hb : b < 6) (v : Bool) : (s.cond .exc (6 * n.val + b) c v).liveBit .exc c (6 * n.val + b) = v :=
    State.cond_liveBit hp (by omega) rfl rfl _ _
  refine ⟨fun hDrives => ?_, fun hOn temp => ⟨exec_ots_cool hOn, exec_otsClear_hot hOn, fun hCool => ?_⟩, exec_openLoad_few,
    exec_imbal_few, exec_regSat_few⟩
  · obtain ⟨⟨hOn, hRun⟩, -⟩ := State.excDrives_iff.mp hDrives
    have hDelivers (hSt : x.st ≠ .lookout) : x.st.delivers := ExcSt.delivers_of_running hRun hSt
    refine ⟨fun hSt peaks hLen hHigh => ⟨_, exec_oc hDrives (State.ocLimited_iff.mpr ⟨hLen, hHigh⟩), ?_⟩, fun peaks hLow => ?_,
      fun hSt hImb => ⟨_, exec_imbal hDrives hImb, ?_⟩, fun hOpen => ⟨_, exec_openLoad hDrives hOpen, hLive 1 (by decide) true, ?_⟩,
      fun hSat => ⟨_, exec_regSat hDrives hSat, hLive 3 (by decide) true, ?_⟩,
      fun hSt temp hHot => ⟨_, exec_ots_hot hOn hHot, State.ots_trips hp (hDelivers hSt)⟩⟩
    · exact State.event_trips hp (by omega) (hDelivers hSt)
    · refine exec_oc_unlimited fun hLimited => ?_
      obtain ⟨hLen, hAll⟩ := State.ocLimited_iff.mp hLimited
      rcases hLow with hShort | ⟨i, hMem, hNot⟩
      · exact Nat.not_lt.mpr hLen hShort
      · exact hNot (hAll i hMem)
    · exact State.event_trips hp (by omega) (hDelivers hSt)
    · exact State.cond_quiet _ _ _ _ _
    · exact State.cond_quiet _ _ _ _ _
  · refine ⟨_, exec_otsClear_cool hOn hCool, ?_, State.cond_quiet _ _ _ _ _⟩
    refine State.cond_liveBit ?_ (by omega) rfl rfl _ _
    exact hp

/-- Settles O18: the ends by the one change of the bridge each of them makes, the faults by the event or the condition that each
reports and the trip that follows it. -/
theorem bridgeEndsAndFaults : Obligations.BridgeEndsAndFaults := by
  unfold Obligations.BridgeEndsAndFaults
  exact ⟨rampsAndSettleEnd, bridgeFaults⟩

end Sys2Proof.Machine
end

section
/-! PROOFS. Wake sources (R440, R441, R444): what an event does to a sleeping device, and what it leaves alone. -/

namespace Sys2Proof.Machine

/-- The power block without what a wake event changes: the state, the record of the wake, and the sources seen. -/
def Pwr.unwoken (p : Pwr) : Pwr :=
  { p with
    st := .run, core := .on, wakeFrom := 0, src := 0, first := 0, srcEnt := 0, firstEnt := 0, firstTick := 0, wakeCnt := 0
    wakeRtc := 0, wakeRestarts := 0, tmoNow := false, wakeAt := 0, lkRun := false }

/-- From `s` to `t` a wake source has acted: EXC_0 may be off again, and of the power block only what a wake event changes has. -/
structure State.WakeStep (s t : State) : Prop where
  rest : t = { s with exc := t.exc, pwr := t.pwr }
  power : t.pwr.unwoken = s.pwr.unwoken

theorem State.WakeStep.refl (s : State) : s.WakeStep s := ⟨rfl, rfl⟩

section
variable (s : State) (b : Nat)

theorem State.wakeBy_step : s.WakeStep (s.wakeBy b) := ⟨rfl, rfl⟩

theorem State.wakeEvent_step : s.WakeStep (s.wakeEvent b) := by
  unfold State.wakeEvent
  dsimp only
  split
  · exact s.wakeBy_step b
  · split
    · exact s.wakeBy_step b
    · exact .refl s
  · split
    · exact .refl s
    split
    · exact ⟨rfl, rfl⟩
    · exact ⟨rfl, rfl⟩
  · exact ⟨rfl, rfl⟩
  · exact .refl s

theorem State.wakeIf_step : s.WakeStep (s.wakeIf b) := by
  unfold State.wakeIf
  split
  · exact s.wakeEvent_step b
  · exact .refl s

end

section
variable {s t : State} {b : Nat}

theorem State.WakeStep.wakeEnabled (h : s.WakeStep t) (b : Nat) : t.wakeEnabled b = s.wakeEnabled b := by
  rw [h.rest]
  rfl

theorem State.wakeIf_enabled (hEn : s.wakeEnabled b = true) : s.wakeIf b = s.wakeEvent b := if_pos hEn

theorem State.wakeIf_disabled (hEn : s.wakeEnabled b = false) : s.wakeIf b = s :=
  if_neg fun h => Bool.false_ne_true (hEn.symm.trans h)

/-- An awake device, and one that a failed wake has left in OFF, takes no notice (R446). -/
theorem State.wakeIf_deaf (h : s.pwr.st = .run ∨ s.pwr.st = .doze ∨ (s.pwr.st = .off ∧ s.pwr.offHeld = true)) :
    s.wakeIf b = s := by
  unfold State.wakeIf
  refine ite_eq_right_iff.mpr fun _ => ?_
  unfold State.wakeEvent
  dsimp only
  rcases h with h | h | ⟨h, hHeld⟩
  · rw [h]
  · rw [h]
  · rw [h, hHeld, Bool.not_true, Bool.and_false]
    rfl

/-- The device sleeps in a state in which source `b` may wake it (R440, R446). -/
def State.sleepsFor (s : State) (b : Nat) : Prop :=
  s.pwr.st = .lookout ∨ (s.pwr.st = .off ∧ s.pwr.offHeld = false ∧ (b = 0 ∨ b = 4 ∨ b = 5))

theorem State.wakeIf_sleeps (hEn : s.wakeEnabled b = true) (h : s.sleepsFor b) : s.wakeIf b = s.wakeBy b := by
  rw [State.wakeIf_enabled hEn]
  unfold State.wakeEvent
  dsimp only
  rcases h with h | ⟨h, hHeld, hAllowed⟩
  · rw [h]
  · have hOff : allowedOff b = true := by
      rcases hAllowed with rfl | rfl | rfl <;> rfl
    rw [h, hOff, hHeld]
    rfl

/-- The record of a wake by source `b` (R444, R445). -/
def State.wokenBy (s : State) (b : Nat) (t : State) : Prop :=
  t.pwr.st = .waking ∧ t.pwr.src = BitVec.ofNat 7 (2 ^ b) ∧ t.pwr.first = b ∧ t.pwr.wakeFrom = s.pwr.st.code ∧
    t.pwr.wakeCnt = min 65535 (s.pwr.wakeCnt + 1) ∧ t.pwr.wakeRtc = t.rtcNow ∧ t.pwr.core = .rising t.nextTick ∧
    t.pwr.wakeAt = t.clk.cyc

theorem bput_zero (n b : Nat) : bput (0 : BitVec n) b true = BitVec.ofNat n (2 ^ b) := by
  unfold bput
  rw [if_pos rfl]
  exact BitVec.zero_or

theorem State.wakeBy_woken (s : State) (b : Nat) : s.wokenBy b (s.wakeBy b) :=
  ⟨rfl, bput_zero 7 b, rfl, rfl, rfl, rfl, rfl, rfl⟩

theorem State.wakeIf_woken (hEn : s.wakeEnabled b = true) (h : s.sleepsFor b) : s.wokenBy b (s.wakeIf b) := by
  rw [State.wakeIf_sleeps hEn h]
  exact s.wakeBy_woken b

/-- During WAKING the source is added to those of the wake (Table 19.9). -/
theorem State.wakeIf_waking (hEn : s.wakeEnabled b = true) (h : s.pwr.st = .waking) : s.wakeIf b =
    { s with pwr := { s.pwr with src := s.pwr.src ||| bput 0 b true, first := s.earliest s.pwr.first b } } := by
  rw [State.wakeIf_enabled hEn]
  unfold State.wakeEvent
  dsimp only
  rw [h]

theorem or_bput_get {n : Nat} (x : BitVec n) {b : Nat} (hb : b < n) : (x ||| bput 0 b true).getLsbD b = true := by
  rw [BitVec.getLsbD_or, bput_get _ _ _ hb, Bool.or_true]

end

end Sys2Proof.Machine
end

section
/-! PROOFS. Lookout cycles (R113, R428, R436 to R439): their start, the level of EXC_0, and what their end judges and wakes. -/

namespace Sys2Proof.Machine

/-! ## The start of a cycle (R436) -/

section
variable {s : State}

theorem exec_lookoutCycleStart_idle (h : s.pwr.st ≠ .lookout ∨ s.pwr.lkRun = true) : exec .lookoutCycleStart s = .next s :=
  if_neg fun hBoth => h.elim (fun hSt => hSt hBoth.1) fun hRun => Bool.false_ne_true (hBoth.2.symm.trans hRun)

/-- The state in which a cycle begins: at the RTC count at which it is due. -/
def State.lkDue (s : State) : State := s.wait (s.cyclesFor (s.pwr.lkNext - s.clk.rtc))

theorem exec_lookoutCycleStart (hSt : s.pwr.st = .lookout) (hRun : s.pwr.lkRun = false) : exec .lookoutCycleStart s =
    .next { s.lkDue with
      exc := vset s.exc 0 (s.lkDue.lkExc (s.lkDue.clk.cyc + 120000))
      pwr := { s.pwr with
        lkRun := true, lkLost := false, lkNext := s.pwr.lkNext + max 1 s.PWR_LK_CFG_LK_PER_MS * 1280000000 } } :=
  if_pos ⟨hSt, hRun⟩

/-- The RTC has reached the count for which `State.cyclesFor` waits. -/
theorem State.wait_cyclesFor (h : s.rails.vaon = true) (a : Nat) : a ≤ (s.wait (s.cyclesFor (a - s.clk.rtc))).clk.rtc := by
  have hBounds := State.cyclesFor_bounds (State.rtcRate_pos h) (a - s.clk.rtc)
  rw [State.wait_rtc]
  omega

theorem lookoutCycleStart_completes (hSt : s.pwr.st = .lookout) (hRun : s.pwr.lkRun = false) :
    Completes .lookoutCycleStart s (fun t => t.lookoutOn = true ∧
      (s.rails.vaon = true → s.pwr.lkNext ≤ t.clk.rtc) ∧
      t.pwr.lkNext = s.pwr.lkNext + max 1 s.PWR_LK_CFG_LK_PER_MS * 1280000000 ∧
      (t.exc[(0 : Fin 4)]).st = .lookout ∧ (t.exc[(0 : Fin 4)]).lvl = s.PWR_LK_EXC_LK_LVL ∧
      (t.exc[(0 : Fin 4)]).car.t0 = t.clk.cyc + 120000 ∧ (t.exc[(0 : Fin 4)]).car.freq = s.pwr.lkSet.freq.fld 0 16 ∧
      (∀ n : Fin 4, n ≠ 0 → t.exc[n] = s.exc[n]) ∧
      t = { s with
        clk := t.clk, exc := t.exc, pwr := { s.pwr with lkRun := true, lkLost := false, lkNext := t.pwr.lkNext } }) := by
  refine ⟨_, exec_lookoutCycleStart hSt hRun, ?_, fun hVaon => State.wait_cyclesFor hVaon _, rfl, ?_, ?_, ?_, ?_,
    fun n hn => vset_other _ _ _ _ hn, rfl⟩
  · unfold State.lookoutOn
    rw [hSt]
    rfl
  · rw [vset_same]
    rfl
  · rw [vset_same]
    rfl
  · rw [vset_same]
    rfl
  · rw [vset_same]
    rfl

/-! ## The level of EXC_0 in a cycle (R102, R113) -/

theorem State.lkLvl_idle (h : s.exc[(0 : Fin 4)].st ≠ .lookout ∨ s.exc[(0 : Fin 4)].phaseAt s.clk.cyc < 0 ∨
    ((max 4 s.PWR_LK_CFG_LK_NPER : Nat) : Rat) + 4 ≤ s.exc[(0 : Fin 4)].phaseAt s.clk.cyc) : s.lkLvl = 0 := if_pos h

theorem State.lkLvl_measured (hSt : s.exc[(0 : Fin 4)].st = .lookout) (hLow : 2 ≤ s.exc[(0 : Fin 4)].phaseAt s.clk.cyc)
    (hHigh : s.exc[(0 : Fin 4)].phaseAt s.clk.cyc < ((max 4 s.PWR_LK_CFG_LK_NPER : Nat) : Rat) + 2) :
    s.lkLvl = min (s.lvlLimit 0) s.exc[(0 : Fin 4)].lvl := by
  have hIn : ¬ (s.exc[(0 : Fin 4)].st ≠ .lookout ∨ s.exc[(0 : Fin 4)].phaseAt s.clk.cyc < 0 ∨
      ((max 4 s.PWR_LK_CFG_LK_NPER : Nat) : Rat) + 4 ≤ s.exc[(0 : Fin 4)].phaseAt s.clk.cyc) := by
    rintro (h | h | h)
    · exact h hSt
    · linarith
    · linarith
  unfold State.lkLvl
  exact (if_neg hIn).trans (congrArg (min (s.lvlLimit 0)) ((if_neg (not_lt.mpr hLow)).trans (if_pos hHigh)))

theorem State.lkLvl_le (s : State) : s.lkLvl ≤ s.lvlLimit 0 := by
  unfold State.lkLvl
  dsimp only
  split
  · exact Nat.zero_le _
  · exact Nat.min_le_left _ _

/-! ## What a cycle has seen (R437 to R439) -/

theorem State.lkJudge_fault_iff (u : State) (m : LookoutMeas) : (u.lkJudge m).fault = true ↔
    (∃ f ∈ u.pwr.lkSet.fronts {} m.samples, 3 ≤ f.invRun) ∨
    (∃ j, j < u.lkPer ∧ u.lkAmp m j < u.PWR_LK_AMIN_LK_AMIN) ∨ m.excTrip = true ∨
    (u.lkMeasures = true ∧ (u.lkJudge m).valid = false) ∨ u.rails.vdda0 = false ∨ u.pwr.lkLost = true := by
  have hWild : ((u.pwr.lkSet.fronts {} m.samples).any fun f => decide (3 ≤ f.invRun)) = true ↔
      ∃ f ∈ u.pwr.lkSet.fronts {} m.samples, 3 ≤ f.invRun := by
    simp only [List.any_eq_true, decide_eq_true_iff]
  have hWeak : ((List.range u.lkPer).any fun j => decide (u.lkAmp m j < (u.PWR_LK_AMIN_LK_AMIN : Nat))) = true ↔
      ∃ j, j < u.lkPer ∧ u.lkAmp m j < u.PWR_LK_AMIN_LK_AMIN := by
    simp only [List.any_eq_true, List.mem_range, decide_eq_true_iff]
  have hFault : (u.lkJudge m).fault = (((u.pwr.lkSet.fronts {} m.samples).any fun f => decide (3 ≤ f.invRun)) ||
      ((List.range u.lkPer).any fun j => decide (u.lkAmp m j < (u.PWR_LK_AMIN_LK_AMIN : Nat))) || m.excTrip ||
      (u.lkMeasures && !(u.lkJudge m).valid) || (!u.rails.vdda0 || u.pwr.lkLost)) := rfl
  rw [hFault]
  simp only [Bool.or_eq_true, Bool.and_eq_true, Bool.not_eq_true', hWild, hWeak, or_assoc]

end


/-! ## The wakes of a cycle (R437 to R439) -/

/-- Source `b` acts if `c` says so and it is enabled. -/
def State.wakeWhen (s : State) (c : Bool) (b : Nat) : State := if c = true then s.wakeIf b else s

/-- The device wakes, source `b` among those of the wake. -/
def State.wakesBy (s : State) (b : Nat) : Prop := s.pwr.st = .waking ∧ s.pwr.src.getLsbD b = true

/-- The end of a cycle at which sources act: in LOOKOUT, or waking already, with EXC_0 off. -/
structure State.cycleOver (s : State) : Prop where
  st : s.pwr.st = .lookout ∨ s.pwr.st = .waking
  run : s.pwr.lkRun = false
  off : vset s.exc 0 {} = s.exc

/-- From `s` to `t`, at the end of a cycle, sources have acted: none of those seen before is lost. -/
structure State.CycleWake (s t : State) : Prop where
  step : s.WakeStep t
  exc : t.exc = s.exc
  ended : t.cycleOver
  seen : ∀ b, s.wakesBy b → t.wakesBy b

section
variable {s t u : State} {b : Nat} {c : Bool}

theorem State.CycleWake.trans (h : s.CycleWake t) (k : t.CycleWake u) : s.CycleWake u := by
  refine ⟨⟨?_, k.step.power.trans h.step.power⟩, k.exc.trans h.exc, k.ended, fun b hb => k.seen b (h.seen b hb)⟩
  have hRest := k.step.rest
  rw [h.step.rest] at hRest
  exact hRest

theorem State.cycleOver.wakeIf (h : s.cycleOver) (hEn : s.wakeEnabled b = true) (hb : b < 7) :
    s.CycleWake (s.wakeIf b) ∧ (s.wakeIf b).wakesBy b := by
  rcases h.st with hSt | hSt
  · have hWoken := s.wakeBy_woken b
    have hBit : (s.wakeBy b).pwr.src.getLsbD b = true := by
      change (bput (0 : BitVec 7) b true).getLsbD b = true
      exact bput_get _ _ _ hb
    rw [State.wakeIf_sleeps hEn (.inl hSt)]
    refine ⟨⟨s.wakeBy_step b, h.off, ⟨.inr rfl, rfl, ?_⟩, fun i hi => ?_⟩, rfl, hBit⟩
    · change vset (vset s.exc 0 {}) 0 {} = vset s.exc 0 {}
      rw [h.off]
      exact h.off
    · exact PState.noConfusion (hSt.symm.trans hi.1)
  · have hStep := s.wakeIf_step b
    have hEq := State.wakeIf_waking hEn hSt
    rw [hEq] at hStep ⊢
    refine ⟨⟨hStep, rfl, ⟨.inr hSt, h.run, h.off⟩, fun i hi => ⟨hSt, ?_⟩⟩, hSt, or_bput_get _ hb⟩
    change (s.pwr.src ||| bput 0 b true).getLsbD i = true
    rw [BitVec.getLsbD_or, hi.2, Bool.true_or]

theorem State.wakeWhen_idle (h : (c && s.wakeEnabled b) = false) : s.wakeWhen c b = s := by
  unfold State.wakeWhen
  refine ite_eq_right_iff.mpr fun hc => State.wakeIf_disabled ?_
  rw [hc, Bool.true_and] at h
  exact h

theorem State.cycleOver.wakeWhen (h : s.cycleOver) (c : Bool) (hb : b < 7) :
    s.CycleWake (s.wakeWhen c b) ∧ ((c && s.wakeEnabled b) = true → (s.wakeWhen c b).wakesBy b) := by
  by_cases hActs : (c && s.wakeEnabled b) = true
  · obtain ⟨hc, hEn⟩ := Bool.and_eq_true_iff.mp hActs
    have hIf : s.wakeWhen c b = s.wakeIf b := if_pos hc
    obtain ⟨hWake, hBy⟩ := h.wakeIf hEn hb
    rw [hIf]
    exact ⟨hWake, fun _ => hBy⟩
  · rw [State.wakeWhen_idle (Bool.eq_false_of_not_eq_true hActs)]
    exact ⟨⟨.refl s, rfl, h, fun _ hi => hi⟩, fun hYes => absurd hYes hActs⟩

/-- LK_MOVE, LK_AUX and LK_FAULT in turn. -/
def State.lkWakes (s : State) (moved aux fault : Bool) : State := ((s.wakeWhen moved 1).wakeWhen aux 2).wakeWhen fault 3

theorem State.cycleOver.lkWakes (h : s.cycleOver) (moved aux fault : Bool) : let t := s.lkWakes moved aux fault
    s.CycleWake t ∧ ((moved && s.wakeEnabled 1) = true → t.wakesBy 1) ∧ ((aux && s.wakeEnabled 2) = true → t.wakesBy 2) ∧
      ((fault && s.wakeEnabled 3) = true → t.wakesBy 3) ∧
      ((moved && s.wakeEnabled 1) = false → (aux && s.wakeEnabled 2) = false → (fault && s.wakeEnabled 3) = false → t = s) := by
  intro t
  obtain ⟨h1, hMoved⟩ := h.wakeWhen (b := 1) moved (by decide)
  obtain ⟨h2, hAux⟩ := h1.ended.wakeWhen (b := 2) aux (by decide)
  obtain ⟨h3, hFault⟩ := h2.ended.wakeWhen (b := 3) fault (by decide)
  rw [h1.step.wakeEnabled] at hAux
  rw [h2.step.wakeEnabled, h1.step.wakeEnabled] at hFault
  refine ⟨h1.trans (h2.trans h3), fun hYes => h3.seen 1 (h2.seen 1 (hMoved hYes)), fun hYes => h3.seen 2 (hAux hYes), hFault,
    fun hNo1 hNo2 hNo3 => ?_⟩
  unfold t State.lkWakes
  rw [State.wakeWhen_idle hNo1, State.wakeWhen_idle hNo2, State.wakeWhen_idle hNo3]

end

/-! ## The end of a cycle -/

/-- ACC after a cycle without LK_FAULT: of the first one Δ alone, else what has been moved since is added (R437). -/
def Pwr.lkAccNext (p : Pwr) (r : LkRes) : Int :=
  if decide (p.lkFcnt = p.lkCyc) then wrapSigned 65536 (r.te - r.ts)
  else p.lkAcc + wrapSigned 65536 (r.ts - p.lkPrevE) + wrapSigned 65536 (r.te - r.ts)

/-- The power block at the end of a cycle that has seen `r`, before anything wakes: `aux` says that it measured the slot, `woken` that
LK_FAULT wakes. -/
def Pwr.lkOver (p : Pwr) (r : LkRes) (aux woken : Bool) : Pwr :=
  { p with
    lkRun := false, lkCyc := p.lkCyc + 1
    lkAcc := if r.fault then p.lkAcc else p.lkAccNext r
    lkPrevE := if r.fault then p.lkPrevE else r.te
    lkFcnt := if r.fault && !woken then p.lkFcnt + 1 else p.lkFcnt
    lkLead := if aux && p.lkSet.slot.leadMode == 1 then r.aux.rLead else p.lkLead
    lkAval := if aux then BitVec.ofInt 24 r.aux.p else p.lkAval
    lkAvalid := if aux then r.valid else p.lkAvalid }

/-- The state at the end of the cycle under way, before anything wakes. -/
def State.lkOver (s : State) (r : LkRes) : State :=
  { (s.waitTill s.lkEnd).draw with
    exc := vset s.exc 0 {}, pwr := s.pwr.lkOver r s.lkMeasures (r.fault && s.wakeEnabled 3) }

/-- |Δ|, or |ACC| where it has been updated after the first cycle, is beyond its limit (R437). -/
def State.lkMoved (s : State) (r : LkRes) : Bool :=
  decide ((s.PWR_LK_WIN_LK_DWIN : Int) < |wrapSigned 65536 (r.te - r.ts)|) ||
    (!r.fault && !decide (s.pwr.lkFcnt = s.pwr.lkCyc) &&
      decide (((s.PWR_LK_WIN_LK_WIN * 16 : Nat) : Int) < |s.pwr.lkAccNext r|))

section
variable {s : State}

theorem exec_lookoutCycleEnd_idle (h : s.pwr.st ≠ .lookout ∨ s.pwr.lkRun = false) (m : LookoutMeas) :
    exec (.lookoutCycleEnd m) s = .next s :=
  if_neg fun hBoth => h.elim (fun hSt => hSt hBoth.1) fun hRun => Bool.false_ne_true (hRun.symm.trans hBoth.2)

/-- A limit of |ACC| is judged against what the cycle has made of it. -/
theorem State.lkMove_eq (s : State) (r : LkRes) : s.lkMove (wrapSigned 65536 (r.te - r.ts))
    (if r.fault then s.pwr.lkAcc else s.pwr.lkAccNext r) (!r.fault && !decide (s.pwr.lkFcnt = s.pwr.lkCyc)) = s.lkMoved r := by
  unfold State.lkMove State.lkMoved
  cases hFault : r.fault
  · rfl
  · rfl

theorem exec_lookoutCycleEnd (hSt : s.pwr.st = .lookout) (hRun : s.pwr.lkRun = true) (m : LookoutMeas) :
    let r := (s.waitTill s.lkEnd).lkJudge m
    exec (.lookoutCycleEnd m) s = .next ((s.lkOver r).lkWakes (s.lkMoved r) (s.lkAux r) r.fault) := by
  intro r
  have hAcc : (if r.fault = true then s.pwr.lkAcc
      else if (s.pwr.lkFcnt == s.pwr.lkCyc) = true then wrapSigned 65536 (r.te - r.ts)
        else s.pwr.lkAcc + wrapSigned 65536 (r.ts - s.pwr.lkPrevE) + wrapSigned 65536 (r.te - r.ts)) =
      if r.fault = true then s.pwr.lkAcc else s.pwr.lkAccNext r := rfl
  have hMoved := s.lkMove_eq r
  rw [← hAcc] at hMoved
  change execLookoutCycleEnd m s = _
  unfold execLookoutCycleEnd
  rw [if_pos ⟨hSt, hRun⟩]
  unfold State.lkWakes State.lkOver Pwr.lkOver
  rw [← hAcc, ← hMoved]
  rfl


theorem lookoutCycleEnd_completes (hSt : s.pwr.st = .lookout) (hRun : s.pwr.lkRun = true) (m : LookoutMeas) :
    let r := (s.waitTill s.lkEnd).lkJudge m
    let moved := s.lkMoved r && s.wakeEnabled 1
    let aux := s.lkAux r && s.wakeEnabled 2
    Completes (.lookoutCycleEnd m) s (fun t => t.lookoutOn = false ∧
      t.pwr.lkCyc = s.pwr.lkCyc + 1 ∧ t.clk.cyc = max s.clk.cyc s.lkEnd ∧
      t = { s with clk := t.clk, free := t.free, exc := vset s.exc 0 {}, pwr := t.pwr } ∧
      (r.fault = true → t.pwr.lkAcc = s.pwr.lkAcc) ∧
      (r.fault = false → t.pwr.lkAcc = s.pwr.lkAccNext r ∧ t.pwr.lkPrevE = r.te) ∧
      (s.lkMeasures = true → t.pwr.lkAval = BitVec.ofInt 24 r.aux.p ∧ t.pwr.lkAvalid = r.valid) ∧
      (moved = true → t.wakesBy 1) ∧ (aux = true → t.wakesBy 2) ∧
      (r.fault = true → s.wakeEnabled 3 = true → t.pwr.st = .waking ∧ t.pwr.src.getLsbD 3 = true ∧
        t.pwr.lkFcnt = s.pwr.lkFcnt) ∧
      (r.fault = true → s.wakeEnabled 3 = false → t.pwr.lkFcnt = s.pwr.lkFcnt + 1) ∧
      (moved = false → aux = false → (r.fault = false ∨ s.wakeEnabled 3 = false) → t.pwr.st = .lookout)) := by
  intro r moved aux
  have hOver : (s.lkOver r).cycleOver := ⟨.inl hSt, rfl, vset_vset _ _ _ _⟩
  obtain ⟨hWake, hMoved, hAux, hFault, hNone⟩ := hOver.lkWakes (s.lkMoved r) (s.lkAux r) r.fault
  refine ⟨_, exec_lookoutCycleEnd hSt hRun m, ?_⟩
  beta_reduce
  generalize (s.lkOver r).lkWakes (s.lkMoved r) (s.lkAux r) r.fault = t at *
  have hRest := hWake.step.rest
  have hClk := congrArg State.clk hRest
  have hFree := congrArg State.free hRest
  change t.clk = (s.waitTill s.lkEnd).clk at hClk
  change t.free = s.free + 1 at hFree
  have hPower : t.pwr.unwoken = (s.lkOver r).pwr.unwoken := hWake.step.power
  have hAcc : t.pwr.lkAcc = if r.fault then s.pwr.lkAcc else s.pwr.lkAccNext r := congrArg (·.lkAcc) hPower
  have hPrev : t.pwr.lkPrevE = if r.fault then s.pwr.lkPrevE else r.te := congrArg (·.lkPrevE) hPower
  have hCnt : t.pwr.lkFcnt = if r.fault && !(r.fault && s.wakeEnabled 3) then s.pwr.lkFcnt + 1 else s.pwr.lkFcnt :=
    congrArg (·.lkFcnt) hPower
  have hVal : t.pwr.lkAval = if s.lkMeasures then BitVec.ofInt 24 r.aux.p else s.pwr.lkAval := congrArg (·.lkAval) hPower
  have hValid : t.pwr.lkAvalid = if s.lkMeasures then r.valid else s.pwr.lkAvalid := congrArg (·.lkAvalid) hPower
  refine ⟨?_, congrArg (·.lkCyc) hPower, ?_, ?_, fun hYes => ?_, fun hNo => ?_, fun hMeasures => ?_, hMoved, hAux,
    fun hYes hEn => ?_, fun hYes hEn => ?_, fun hNoMove hNoAux hNoFault => ?_⟩
  · unfold State.lookoutOn
    rw [hWake.ended.run, Bool.and_false]
  · rw [hClk]
    exact (State.waitTill_clk_cyc _ _).trans (Nat.max_comm _ _)
  · rw [hClk, hFree]
    rw [hWake.exc] at hRest
    exact hRest
  · rw [hAcc, hYes]
    rfl
  · rw [hAcc, hPrev, hNo]
    exact ⟨rfl, rfl⟩
  · rw [hVal, hValid, hMeasures]
    exact ⟨rfl, rfl⟩
  · obtain ⟨hWaking, hBit⟩ := hFault (Bool.and_eq_true_iff.mpr ⟨hYes, hEn⟩)
    refine ⟨hWaking, hBit, ?_⟩
    rw [hCnt, hYes, hEn]
    rfl
  · rw [hCnt, hYes, hEn]
    rfl
  · rw [hNone hNoMove hNoAux (Bool.and_eq_false_iff.mpr hNoFault)]
    exact hSt

end

theorem lookoutCycles : Parts.LookoutCycles := by
  intro s m p x ph n u r delta first acc fault moved aux
  exact ⟨exec_lookoutCycleStart_idle, lookoutCycleStart_completes, State.lkLvl_idle, State.lkLvl_measured, s.lkLvl_le,
    fun h => exec_lookoutCycleEnd_idle h m, u.lkJudge_fault_iff m, rfl, rfl, fun hSt hRun => lookoutCycleEnd_completes hSt hRun m⟩

end Sys2Proof.Machine
end

section
/-! PROOFS. The alarm, WAKE_IN, frames that wake the device, and the return of CORE (R440 to R446). -/

namespace Sys2Proof.Machine

/-! ## The alarm (R440) -/

section
variable {s : State}

/-- The alarm is due when the RTC count, taken to 48 bits, is the one written. -/
theorem State.tickOf_ofNat (s : State) (a : BitVec 48) : BitVec.ofNat 48 (s.tickOf a) = a := by
  have hNow : s.rtcNow = BitVec.ofNat 48 s.rtcTick := rfl
  unfold State.tickOf
  rw [BitVec.ofNat_add, BitVec.ofNat_toNat, BitVec.setWidth_eq, hNow, add_sub_cancel]

theorem State.tickOf_bounds (s : State) (a : BitVec 48) : s.rtcTick ≤ s.tickOf a ∧ s.tickOf a < s.rtcTick + 2 ^ 48 :=
  ⟨Nat.le_add_right _ _, Nat.add_lt_add_left (a - s.rtcNow).isLt _⟩

theorem exec_alarmHiWrite (s : State) (v : Word) : exec (.alarmHiWrite v) s = .next { s.writeAlarmHi v with wst := .ok } := rfl

/-- The other word of the alarm is not touched by a write of ALARM_HI. -/
theorem State.writeAlarmHi_eq (s : State) (v : Word) : let a := BitVec.ofNat 48 (v.fld 0 16 * 2 ^ 32 + s.PWR_ALARM_LO_ALARM)
    s.writeAlarmHi v = { s.setReg 0x1008C (v &&& 0x8000FFFF) with
      pwr := { s.pwr with alarm := a, alarmEn := v.bit 31, alarmAt := s.tickOf a } } := by
  intro a
  have hLo : (s.setReg 0x1008C (v &&& 0x8000FFFF)).PWR_ALARM_LO_ALARM = s.PWR_ALARM_LO_ALARM := by
    unfold State.PWR_ALARM_LO_ALARM
    rw [State.setReg_reg_other _ _ _ _ (by decide)]
  unfold State.writeAlarmHi
  dsimp only
  rw [hLo, State.setReg_pwr]

theorem exec_alarm_unarmed (h : s.pwr.alarmEn = false) : exec .alarm s = .next s := if_pos (by rw [h]; rfl)

/-- The state in which the alarm is due. -/
def State.alarmDue (s : State) : State :=
  let u := s.wait (s.cyclesFor (s.pwr.alarmAt * rtcUnit - s.clk.rtc))
  { u with pwr := { u.pwr with alarmEn := false, alarmEv := true } }

/-- What the alarm does when it is due: a record in RUN and DOZE, else a wake. -/
def State.alarmed (s : State) : State := if s.inRunDoze = true then s.powerNote 7 else s.wakeIf 0

theorem exec_alarm (h : s.pwr.alarmEn = true) : exec .alarm s = .next s.alarmDue.alarmed := if_neg (by rw [h]; exact Bool.false_ne_true)

theorem State.powerNote_quiet (s : State) (c : Nat) : (s.powerNote c).quiet = s.quiet := State.offer_quiet _ _ _ _

theorem State.alarmed_kept (s : State) : s.alarmed.clk = s.clk ∧ s.alarmed.pwr.alarmEn = s.pwr.alarmEn ∧
    s.alarmed.pwr.alarmEv = s.pwr.alarmEv := by
  unfold State.alarmed
  split
  · have hQuiet := s.powerNote_quiet 7
    rw [State.clk_of_quiet hQuiet, State.pwr_of_quiet hQuiet]
    exact ⟨rfl, rfl, rfl⟩
  · have hStep := s.wakeIf_step 0
    have hClk := congrArg State.clk hStep.rest
    exact ⟨hClk, congrArg (·.alarmEn) hStep.power, congrArg (·.alarmEv) hStep.power⟩

theorem State.rtcRate_lt (s : State) : s.rtcRate < rtcUnit := by
  unfold State.rtcRate rtcUnit
  split
  · decide
  split
  · omega
  · decide

/-- The RTC waits for its count `a`, and goes past no other. -/
theorem State.wait_tick (h : s.rails.vaon = true) (a : Nat) :
    let u := s.wait (s.cyclesFor (a * rtcUnit - s.clk.rtc))
    a ≤ u.rtcTick ∧ (s.rtcTick ≤ a → u.rtcTick = a) := by
  intro u
  have hPos := State.rtcRate_pos h
  have hLt := s.rtcRate_lt
  have hRtc : u.clk.rtc = s.clk.rtc + s.rtcRate * s.cyclesFor (a * rtcUnit - s.clk.rtc) := s.wait_rtc _
  obtain ⟨hEnough, hLast⟩ := State.cyclesFor_bounds hPos (a * rtcUnit - s.clk.rtc)
  have hStands (hPast : a * rtcUnit - s.clk.rtc = 0) : s.cyclesFor (a * rtcUnit - s.clk.rtc) = 0 := by
    rw [hPast] at hLast ⊢
    exact Nat.lt_one_iff.mp (Nat.lt_of_mul_lt_mul_left (a := s.rtcRate) (by omega))
  unfold State.rtcTick
  rw [hRtc]
  by_cases hPast : a * rtcUnit - s.clk.rtc = 0
  · rw [hStands hPast]
    unfold rtcUnit at *
    omega
  · generalize s.rtcRate * s.cyclesFor (a * rtcUnit - s.clk.rtc) = parts at *
    unfold rtcUnit at *
    omega

theorem State.inRunDoze_iff : s.inRunDoze = true ↔ s.pwr.st = .run ∨ s.pwr.st = .doze := by
  unfold State.inRunDoze
  rw [Bool.or_eq_true, beq_iff_eq, beq_iff_eq]

theorem State.alarmed_awake (h : s.inRunDoze = true) : s.alarmed.quiet = s.quiet := by
  unfold State.alarmed
  rw [if_pos h]
  exact s.powerNote_quiet 7

theorem State.alarmed_woken (hEn : s.wakeEnabled 0 = true) (h : s.sleepsFor 0) : s.wokenBy 0 s.alarmed := by
  have hAsleep : ¬ s.inRunDoze = true := by
    rw [State.inRunDoze_iff]
    rintro (hSt | hSt)
    · exact h.elim (fun k => PState.noConfusion (hSt.symm.trans k)) fun k => PState.noConfusion (hSt.symm.trans k.1)
    · exact h.elim (fun k => PState.noConfusion (hSt.symm.trans k)) fun k => PState.noConfusion (hSt.symm.trans k.1)
  unfold State.alarmed
  rw [if_neg hAsleep]
  exact State.wakeIf_woken hEn h

theorem State.alarmed_disabled (hEn : s.wakeEnabled 0 = false) : s.alarmed.pwr.st = s.pwr.st := by
  unfold State.alarmed
  split
  · rw [State.pwr_of_quiet (s.powerNote_quiet 7)]
  · rw [State.wakeIf_disabled hEn]

end

/-! ## Frames of the host (R432, R442) -/

/-- During ENTERING the first source seen is noted with its RTC tick, later ones beside it (R441, R444). -/
theorem State.wakeIf_entering {s : State} {b : Nat} (hEn : s.wakeEnabled b = true) (hSt : s.pwr.st = .entering)
    (hAllowed : allowedOff b = true) : s.wakeIf b = { s with pwr :=
      if s.pwr.srcEnt = 0 then { s.pwr with srcEnt := bput 0 b true, firstEnt := b, firstTick := s.rtcTick }
      else { s.pwr with srcEnt := s.pwr.srcEnt ||| bput 0 b true, firstEnt := s.earliest s.pwr.firstEnt b } } := by
  rw [State.wakeIf_enabled hEn]
  unfold State.wakeEvent
  dsimp only
  rw [hSt]
  dsimp only
  rw [if_neg fun h => Bool.false_ne_true (h.2.symm.trans hAllowed)]
  split
  · rfl
  · rfl

section
variable {s : State} {clks : Nat} {bits : BitVec 64}

/-- A frame latched, in the power block. -/
def Pwr.latched (p : Pwr) (clks : Nat) (bits : BitVec 64) : Pwr :=
  if p.hostLatched then { p with hostMore := min 127 (p.hostMore + 1) }
  else { p with hostLatched := true, hostClks := min 255 clks, replay := bits }

theorem State.latchFrame_eq (s : State) (clks : Nat) (bits : BitVec 64) :
    s.latchFrame clks bits = { s with pwr := s.pwr.latched clks bits } := by
  unfold State.latchFrame Pwr.latched
  dsimp only
  split
  · rfl
  · rfl

theorem Pwr.latched_first {p : Pwr} (h : p.hostLatched = false) : p.latched clks bits =
    { p with hostLatched := true, hostClks := min 255 clks, replay := bits } :=
  if_neg fun hYes => Bool.false_ne_true (h.symm.trans hYes)

theorem Pwr.latched_later {p : Pwr} (h : p.hostLatched = true) :
    p.latched clks bits = { p with hostMore := min 127 (p.hostMore + 1) } := if_pos h

/-- A latch leaves alone what a wake goes by. -/
theorem Pwr.latched_kept (p : Pwr) (clks : Nat) (bits : BitVec 64) : (p.latched clks bits).st = p.st ∧
    (p.latched clks bits).offHeld = p.offHeld ∧ (p.latched clks bits).wakeCnt = p.wakeCnt ∧
    (p.latched clks bits).hostLatched = true := by
  cases h : p.hostLatched
  · rw [Pwr.latched_first h]
    exact ⟨rfl, rfl, rfl, rfl⟩
  · rw [Pwr.latched_later h]
    exact ⟨rfl, rfl, rfl, h⟩

/-- The device after the frame is latched and has woken it, where it may. -/
def State.frameHeard (s : State) (clks : Nat) (bits : BitVec 64) : State :=
  State.wakeIf { s with pwr := s.pwr.latched clks bits } 5

theorem exec_hostWake_asleep (h : s.asleep = true) : ∃ (r : Option Resp) (f : Nat),
    exec (.hostWake clks bits) s = .next { s.frameHeard clks bits with resp := r, free := f } ∧
      (s.coreOn = true → ∃ i, r = some (mkResp .notReady i [])) ∧ (s.coreOn = false → r = none) := by
  have hExec : exec (.hostWake clks bits) s = .next (s.hostAsleep clks bits .levels) := congrArg Host.Outcome.next (if_pos h)
  have hHeard : (s.latchFrame clks bits).wakeIf 5 = s.frameHeard clks bits := congrArg (State.wakeIf · 5) (s.latchFrame_eq clks bits)
  rw [hExec]
  unfold State.hostAsleep
  rw [hHeard]
  cases hCore : s.coreOn
  · exact ⟨none, (s.frameHeard clks bits).free, rfl, fun hOn => absurd hOn Bool.false_ne_true, fun _ => rfl⟩
  · exact ⟨_, _, rfl, fun _ => ⟨_, rfl⟩, fun hOff => absurd hOff.symm Bool.false_ne_true⟩

theorem exec_hostWake_waking (h : s.pwr.st = .waking) : exec (.hostWake clks bits) s = .next (s.wakeIf 5) := by
  have hAwake : ¬ s.asleep = true := by
    unfold State.asleep
    rw [h]
    exact Bool.false_ne_true
  exact congrArg Host.Outcome.next ((if_neg hAwake).trans (if_pos h))

theorem exec_hostWake_awake (h : s.pwr.st = .run ∨ s.pwr.st = .doze) : exec (.hostWake clks bits) s = .next s := by
  have hNot : ¬ s.asleep = true ∧ s.pwr.st ≠ .waking := by
    unfold State.asleep
    rcases h with h | h
    · rw [h]
      exact ⟨Bool.false_ne_true, fun k => PState.noConfusion k⟩
    · rw [h]
      exact ⟨Bool.false_ne_true, fun k => PState.noConfusion k⟩
  exact congrArg Host.Outcome.next ((if_neg hNot.1).trans (if_neg hNot.2))

end

/-! ## Frames of the network (R441, R443) -/

section
variable {s : State} {p : Fin 2} {f : List Byte}

/-- A frame buffered, or counted in NET_LOST, in the power block. -/
def Pwr.buffered (q : Pwr) (p : Fin 2) (f : List Byte) : Pwr :=
  if q.netBuf.length < 16 then { q with netBuf := q.netBuf ++ [(p, f)] } else { q with netLost := min 255 (q.netLost + 1) }

theorem exec_netWake_ignored (h : s.listening = false ∨ s.listenTakes p f = false) : exec (.netWake p f) s = .next s :=
  if_neg fun hBoth => Bool.false_ne_true ((Bool.and_eq_false_iff.mpr h).symm.trans hBoth)

theorem exec_netWake (hListens : s.listening = true) (hTakes : s.listenTakes p f = true) : exec (.netWake p f) s =
    .next (State.wakeIf { s with pwr := s.pwr.buffered p f } 6) := by
  refine (if_pos (Bool.and_eq_true_iff.mpr ⟨hListens, hTakes⟩)).trans ?_
  unfold Pwr.buffered
  split
  · rfl
  · rfl

theorem State.wakeEnabled_of_listening (h : s.listening = true) : s.wakeEnabled 6 = true := by
  unfold State.listening State.listens at h
  exact (Bool.and_eq_true_iff.mp (Bool.and_eq_true_iff.mp h).1).2

theorem Pwr.buffered_kept (q : Pwr) (p : Fin 2) (f : List Byte) : (q.buffered p f).st = q.st ∧ (q.buffered p f).wakeCnt = q.wakeCnt := by
  unfold Pwr.buffered
  split
  · exact ⟨rfl, rfl⟩
  · exact ⟨rfl, rfl⟩

end

/-! ## CORE returns (R445) -/

/-- A domain returns `us` after CORE if it is voted for. -/
def riseIf (want : Bool) (us : Nat) : DomSt := if want then .rising (usCyc us) else .off

/-- A pin of the safe state that waited for the end of its hold is released. -/
def VPin.expired (x : VPin) : VPin := if x.holdUntil.isSome then { x with sink := false } else x

/-- The state in which CORE is on again, before its monitors have started: `v` are the votes in force. -/
def State.coreBack (s : State) (v : Word) : State :=
  { s with
    clk := { s.clk with cyc := 0 }
    pads := { s.pads with
      inh := s.pads.inh.map VPin.expired, asc := s.pads.asc.map VPin.expired, dis := s.pads.dis.expired }
    boot := { s.boot with phase := .header, kind := .wake }
    pwr := { s.pwr with
      core := .on
      half := ⟨riseIf (v.bit 0) 200, riseIf (v.bit 1) 400⟩
      net := if s.pwr.net.isOn then .on else if s.qb then .off else riseIf (v.bit 2) 600
      bank := Vector.ofFn fun b => riseIf (v.bit (8 + b.val)) 0 } }

section
variable {s : State}

theorem exec_wakeCoreReady (hSt : s.pwr.st = .waking) (hCore : s.pwr.core ≠ .off) (hPhase : s.boot.phase = .reset) :
    exec .wakeCoreReady s =
      .next ((s.waitTill (s.pwr.wakeAt + 400 * s.wakeUs)).coreBack (s.voteHost ||| s.pwr.keptVotes)).startMonitors :=
  if_pos ⟨hSt, hCore, hPhase⟩

theorem exec_wakeCoreReady_idle (h : s.pwr.st ≠ .waking ∨ s.pwr.core = .off ∨ s.boot.phase ≠ .reset) :
    exec .wakeCoreReady s = .next s := by
  refine if_neg fun hAll => ?_
  obtain ⟨hSt, hCore, hPhase⟩ := hAll
  exact h.elim (fun hNot => hNot hSt) fun h => h.elim hCore fun hNot => hNot hPhase

theorem State.wakeUs_bounds (s : State) :
    (s.pwr.wakeFrom = 2 → s.wakeUs = 331) ∧ (s.pwr.wakeFrom ≠ 2 → 631 ≤ s.wakeUs ∧ s.wakeUs ≤ 2131) := by
  unfold State.wakeUs
  refine ⟨fun h => if_pos h, fun h => ?_⟩
  rw [if_neg h]
  omega

/-- The source of the RTC is judged as the monitors start (R70). -/
theorem State.startMonitors_rtc {u : State} (h : u.monitoring = true) :
    u.startMonitors.liveBit .pwr .shared 0 = u.sys.rtcLprc := by
  let w := (u.cond .sys 10 .h0 (!u.rails.vdda0)).cond .sys 11 .h1 (!u.rails.vdda1)
  have hQuiet : w.quiet = u.quiet := (State.cond_quiet _ _ _ _ _).trans (State.cond_quiet _ _ _ _ _)
  have hMon : w.monitoring = true := by
    unfold State.monitoring State.coreOn
    rw [State.pwr_of_quiet hQuiet, State.phase_of_quiet hQuiet]
    exact h
  have hLive : w.rtcJudge.liveBit .pwr .shared 0 = w.sys.rtcLprc := (State.rtcJudge_monitoring hMon).1
  rw [State.sys_of_quiet hQuiet] at hLive
  exact hLive

end

/-! ## Every clause -/

theorem alarmClauses (s : State) (h : s.pwr.alarmEn = true) : Completes .alarm s (fun t => t.pwr.alarmEn = false ∧
    t.pwr.alarmEv = true ∧
    (s.rails.vaon = true → s.pwr.alarmAt ≤ t.rtcTick ∧ (s.rtcTick ≤ s.pwr.alarmAt → t.rtcTick = s.pwr.alarmAt)) ∧
    (s.inRunDoze = true → t.pwr.st = s.pwr.st ∧ t.quiet = ({ s with clk := t.clk, pwr := t.pwr } : State).quiet) ∧
    (s.wakeEnabled 0 = true → s.sleepsFor 0 → s.wokenBy 0 t) ∧ (s.wakeEnabled 0 = false → t.pwr.st = s.pwr.st)) := by
  obtain ⟨hClk, hEn, hEv⟩ := s.alarmDue.alarmed_kept
  have hTick : s.alarmDue.alarmed.rtcTick = s.alarmDue.rtcTick := by
    unfold State.rtcTick
    rw [hClk]
  refine ⟨_, exec_alarm h, hEn, hEv, fun hVaon => ?_, fun hAwake => ?_, fun hWakes hSleeps => ?_, fun hNot => ?_⟩
  · rw [hTick]
    exact State.wait_tick hVaon s.pwr.alarmAt
  · have hQuiet := State.alarmed_awake (s := s.alarmDue) hAwake
    rw [hQuiet, hClk, State.pwr_of_quiet hQuiet]
    exact ⟨rfl, rfl⟩
  · exact State.alarmed_woken (s := s.alarmDue) hWakes hSleeps
  · exact State.alarmed_disabled (s := s.alarmDue) hNot

theorem hostWakeClauses (s : State) (clks : Nat) (bits : BitVec 64) (h : s.asleep = true) :
    Completes (.hostWake clks bits) s (fun t => t.pwr.hostLatched = true ∧
      (s.pwr.hostLatched = false → t.pwr.hostClks = min 255 clks ∧ t.pwr.replay = bits ∧ t.pwr.hostMore = s.pwr.hostMore) ∧
      (s.pwr.hostLatched = true → t.pwr.replay = s.pwr.replay ∧ t.pwr.hostMore = min 127 (s.pwr.hostMore + 1)) ∧
      (s.wakeEnabled 5 = true → s.sleepsFor 5 → s.wokenBy 5 t) ∧ (s.wakeEnabled 5 = false → t.pwr.st = s.pwr.st) ∧
      (s.coreOn = true → ∃ i, t.resp = some (mkResp .notReady i [])) ∧ (s.coreOn = false → t.resp = none) ∧
      t = { s with pwr := t.pwr, resp := t.resp, free := t.free, exc := t.exc }) := by
  obtain ⟨r, f, hExec, hOn, hOff⟩ := exec_hostWake_asleep (clks := clks) (bits := bits) h
  let v : State := { s with pwr := s.pwr.latched clks bits }
  obtain ⟨hSt, hHeld, hCnt, hLatched⟩ := s.pwr.latched_kept clks bits
  have hStep : v.WakeStep (s.frameHeard clks bits) := v.wakeIf_step 5
  have hPower : (s.frameHeard clks bits).pwr.unwoken = (s.pwr.latched clks bits).unwoken := hStep.power
  have hClks : (s.frameHeard clks bits).pwr.hostClks = (s.pwr.latched clks bits).hostClks := congrArg (·.hostClks) hPower
  have hReplay : (s.frameHeard clks bits).pwr.replay = (s.pwr.latched clks bits).replay := congrArg (·.replay) hPower
  have hMore : (s.frameHeard clks bits).pwr.hostMore = (s.pwr.latched clks bits).hostMore := congrArg (·.hostMore) hPower
  refine ⟨_, hExec, (congrArg (·.hostLatched) hPower).trans hLatched, fun hFirst => ?_, fun hLater => ?_, fun hEn hSleeps => ?_,
    fun hEn => ?_, hOn, hOff, ?_⟩
  · rw [hClks, hReplay, hMore, Pwr.latched_first hFirst]
    exact ⟨rfl, rfl, rfl⟩
  · rw [hReplay, hMore, Pwr.latched_later hLater]
    exact ⟨rfl, rfl⟩
  · have hSleepsV : v.sleepsFor 5 := by
      unfold State.sleepsFor
      rw [show v.pwr.st = s.pwr.st from hSt, show v.pwr.offHeld = s.pwr.offHeld from hHeld]
      exact hSleeps
    have hWoken : v.wokenBy 5 (s.frameHeard clks bits) := State.wakeIf_woken (s := v) hEn hSleepsV
    unfold State.wokenBy at hWoken ⊢
    rw [show v.pwr.st = s.pwr.st from hSt, show v.pwr.wakeCnt = s.pwr.wakeCnt from hCnt] at hWoken
    exact hWoken
  · have hSame : s.frameHeard clks bits = v := State.wakeIf_disabled (s := v) hEn
    rw [hSame]
    exact hSt
  · exact congrArg (fun q : State => { q with resp := r, free := f }) hStep.rest

theorem netWakeClauses (s : State) (p : Fin 2) (f : List Byte) (hListens : s.listening = true) (hTakes : s.listenTakes p f = true) :
    Completes (.netWake p f) s (fun t => t = { s with pwr := t.pwr, exc := t.exc } ∧
      (s.pwr.netBuf.length < 16 → t.pwr.netBuf = s.pwr.netBuf ++ [(p, f)] ∧ t.pwr.netLost = s.pwr.netLost) ∧
      (16 ≤ s.pwr.netBuf.length → t.pwr.netBuf = s.pwr.netBuf ∧ t.pwr.netLost = min 255 (s.pwr.netLost + 1)) ∧
      (s.pwr.st = .lookout → s.wokenBy 6 t)) := by
  let v : State := { s with pwr := s.pwr.buffered p f }
  obtain ⟨hSt, hCnt⟩ := s.pwr.buffered_kept p f
  have hStep : v.WakeStep (v.wakeIf 6) := v.wakeIf_step 6
  have hBuf : (v.wakeIf 6).pwr.netBuf = (s.pwr.buffered p f).netBuf := congrArg (·.netBuf) hStep.power
  have hLost : (v.wakeIf 6).pwr.netLost = (s.pwr.buffered p f).netLost := congrArg (·.netLost) hStep.power
  refine ⟨_, exec_netWake hListens hTakes, hStep.rest, fun hRoom => ?_, fun hFull => ?_, fun hLookout => ?_⟩
  · rw [hBuf, hLost, Pwr.buffered, if_pos hRoom]
    exact ⟨rfl, rfl⟩
  · rw [hBuf, hLost, Pwr.buffered, if_neg (Nat.not_lt.mpr hFull)]
    exact ⟨rfl, rfl⟩
  · have hEn : s.wakeEnabled 6 = true := State.wakeEnabled_of_listening hListens
    have hWoken : v.wokenBy 6 (v.wakeIf 6) := State.wakeIf_woken (s := v) hEn (.inl (hSt.trans hLookout))
    unfold State.wokenBy at hWoken ⊢
    rw [show v.pwr.st = s.pwr.st from hSt, show v.pwr.wakeCnt = s.pwr.wakeCnt from hCnt] at hWoken
    exact hWoken

theorem wakeCoreReadyClauses (s : State) (hSt : s.pwr.st = .waking) (hCore : s.pwr.core ≠ .off) (hPhase : s.boot.phase = .reset) :
    let u := s.waitTill (s.pwr.wakeAt + 400 * s.wakeUs)
    let votes := s.voteHost ||| s.pwr.keptVotes
    Completes .wakeCoreReady s (fun t => t.clk.cyc = 0 ∧
      (s.pwr.wakeFrom = 2 → s.wakeUs = 331) ∧ (s.pwr.wakeFrom ≠ 2 → 631 ≤ s.wakeUs ∧ s.wakeUs ≤ 2131) ∧
      t.clk = { u.clk with cyc := 0 } ∧
      t.pwr.core = .on ∧ t.boot.phase = .header ∧ t.boot.kind = .wake ∧ t.pwr.st = .waking ∧
      (t.pwr.half.h0 = if votes.bit 0 then .rising 80000 else .off) ∧
      (t.pwr.half.h1 = if votes.bit 1 then .rising 160000 else .off) ∧
      (s.qb = false → s.pwr.net.isOn = false → t.pwr.net = if votes.bit 2 then .rising 240000 else .off) ∧
      (∀ b : Fin 8, t.pwr.bank[b] = if votes.bit (8 + b.val) then .rising 0 else .off) ∧
      t.liveBit .pwr .shared 0 = s.sys.rtcLprc ∧ t.cfg = s.cfg ∧ t.sram = s.sram) := by
  intro u votes
  have hQuiet := (u.coreBack votes).startMonitors_quiet
  have hClk : (u.coreBack votes).startMonitors.clk = { u.clk with cyc := 0 } := State.clk_of_quiet hQuiet
  have hPwr := State.pwr_of_quiet hQuiet
  have hHeader := State.phase_of_quiet hQuiet
  have hCfg := State.cfg_of_quiet hQuiet
  have hKind := congrArg (fun q : State => q.boot.kind) hQuiet
  have hSram := congrArg State.sram hQuiet
  obtain ⟨hLookout, hOff⟩ := s.wakeUs_bounds
  have hLive := State.startMonitors_rtc (u := u.coreBack votes) rfl
  refine ⟨_, exec_wakeCoreReady hSt hCore hPhase, ?_⟩
  beta_reduce
  rw [hPwr, hClk]
  refine ⟨rfl, hLookout, hOff, rfl, rfl, hHeader, hKind, hSt, rfl, rfl, fun hQb hNet => ?_, fun b => ?_, hLive,
    hCfg, hSram⟩
  · change (if s.pwr.net.isOn = true then DomSt.on else if s.qb = true then .off else riseIf (votes.bit 2) 600) = _
    rw [hNet, hQb]
    rfl
  · exact Vector.getElem_ofFn b.isLt

theorem wakeSources : Parts.WakeSources := by
  intro s v clks bits p f q u votes sleeps woken
  refine ⟨⟨_, exec_alarmHiWrite s v, ?_⟩, exec_alarm_unarmed, alarmClauses s, fun hEn hSleeps => ⟨_, rfl, ?_⟩,
    fun hEn hSt => ⟨_, rfl, ?_⟩, fun hEn hSt => ⟨_, rfl, ?_⟩, fun hDeaf => ?_, fun hIdle => ?_, fun hSt hEn => ⟨_, exec_hostWake_waking hSt, ?_⟩,
    hostWakeClauses s clks bits, exec_netWake_ignored, netWakeClauses s p f, wakeCoreReadyClauses s, exec_wakeCoreReady_idle⟩
  · rw [State.writeAlarmHi_eq]
    exact ⟨rfl, rfl, s.tickOf_ofNat _, (s.tickOf_bounds _).1, (s.tickOf_bounds _).2, rfl⟩
  · rw [State.wakeIf_sleeps hEn hSleeps]
    exact ⟨s.wakeBy_woken 4, rfl⟩
  · rw [State.wakeIf_entering hEn hSt rfl]
    by_cases hFirst : s.pwr.srcEnt = 0
    · rw [if_pos hFirst]
      exact ⟨bput_get _ _ _ (by decide), fun _ => ⟨rfl, rfl⟩, rfl⟩
    · rw [if_neg hFirst]
      exact ⟨or_bput_get _ (by decide), fun h => absurd h hFirst, rfl⟩
  · rw [State.wakeIf_waking hEn hSt]
    exact ⟨or_bput_get _ (by decide), rfl⟩
  · exact congrArg Host.Outcome.next (hDeaf.elim State.wakeIf_disabled State.wakeIf_deaf)
  · rcases hIdle with hSt | hSt | ⟨hSt, hEn⟩
    · exact exec_hostWake_awake (.inl hSt)
    · exact exec_hostWake_awake (.inr hSt)
    · rw [exec_hostWake_waking hSt, State.wakeIf_disabled hEn]
  · rw [State.wakeIf_waking hEn hSt]
    exact ⟨or_bput_get _ (by decide), rfl⟩

/-- Settles O59: a cycle by what its end judges and the sources that act on that in turn, a wake by the one event that every source
comes to. -/
theorem lookoutAndWake : Obligations.LookoutAndWake := by
  unfold Obligations.LookoutAndWake
  exact ⟨lookoutCycles, wakeSources⟩

end Sys2Proof.Machine
end

section
/-! PROOFS. The statement about the break-detect sources speaks of register files that are not in canonical form too. In one
that lists PCH_CTRL twice, writing its reset value, with EN clear, removes the first entry only (`Store.set`), and EN reads 1
from the second; in a canonical one the word reads as written (`Store.get_set_same`). -/

namespace Sys2Proof.Machine

/-- The device has released; PCH_0 is in TRACK with EN set, and its PCH_CTRL stands twice in the register file. -/
def channelListedTwice : State :=
  { State.reset with
    cfg := [(pchAddr 0 0x40, 1), (pchAddr 0 0x40, 1)]
    boot := { State.reset.boot with released := true }
    pch := vset State.reset.pch 0 { st := .track } }

/-- EN of PCH_0 after a command. -/
def channelEnAfter : Done → Option Nat
  | .next t => some (t.PCH_CTRL_EN 0)
  | _ => none

/-- PCH_DISABLE takes the first entry out of the register file; EN reads 1 from the other. -/
theorem pchDisable_leaves_en_set :
    channelEnAfter (exec (.pchDisable 0) channelListedTwice) = some 1 := by
  decide +kernel

/-- EN, and with it the break-detect sources, outlasts PCH_DISABLE in such a register file. -/
theorem not_breakDetectSources : ¬ Parts.BreakDetectSources := by
  unfold Parts.BreakDetectSources
  intro h
  obtain ⟨-, t, hRun, hEnClear, -⟩ := h channelListedTwice 0 (by decide) (by decide)
  have hEn := congrArg channelEnAfter hRun
  rw [pchDisable_leaves_en_set] at hEn
  have hEnSet : t.PCH_CTRL_EN 0 = 1 := (Option.some.inj hEn).symm
  exact absurd (hEnSet.symm.trans hEnClear) (by decide)

/-- Refutes O19, which does not ask for a canonical register file: in one that lists PCH_CTRL twice EN still reads 1 after
PCH_DISABLE has cleared it. -/
theorem not_channelControl : ¬ Obligations.ChannelControl := by
  unfold Obligations.ChannelControl
  rintro ⟨-, hSources, -⟩
  exact not_breakDetectSources hSources

end Sys2Proof.Machine
end

section
/-! PROOFS. The statement about learning ties the discarding of the block to SECT_ALIGN of the pending set as it is held. The set
that comes into force has first been judged (R185): a set that needs no alignment run, its ALIGNED clear, comes with SECT_ALIGN 0.
Where that is the frame in force already, the table frame does not change (R186) and the block under way stays. -/

namespace Sys2Proof.Machine

/-- Changes that take effect leave the block under way alone where firmware made them, not NEUTRAL, and the set as judged has the
frame in force. -/
theorem State.sclTake_keeps_block {s : State} {n : Fin 8} {c : SclSet} (hPend : s.scl[n].pend = some c)
    (hAlign : (c.judgeAlign (s.polePairs n) s.SCL_LRN_LIM_CONV_TOL false).align = s.scl[n].cur.align)
    (hAligned : (c.judgeAlign (s.polePairs n) s.SCL_LRN_LIM_CONV_TOL false).aligned = s.scl[n].cur.aligned)
    (hLrn : s.scl[n].pendLrn = 0) (hNeutral : s.scl[n].pendNeutral = false) :
    (s.sclTake n).scl[n].lrn.blk = s.scl[n].lrn.blk := by
  unfold State.sclTake
  simp only [hPend, State.setScl_get, hAlign, hAligned, hLrn, hNeutral, beq_self_eq_true, Bool.and_self, if_true,
    Bool.false_eq_true, if_false]

/-- SCL_0 neutral and not locked, with a revolution in its block; the pending set is neutral too, its ALIGNED clear and its
SECT_ALIGN 1. -/
def unalignedPending : State :=
  { State.reset with
    scl := vset State.reset.scl 0 { pend := some { align := 1, aligned := false }, lrn := { blk := [[]] } } }

theorem unalignedPending_keeps_block : (unalignedPending.sclTake 0).scl[(0 : Fin 8)].lrn.blk = [[]] :=
  State.sclTake_keeps_block (c := { align := 1, aligned := false }) rfl (by decide) (by decide) rfl rfl

/-- Refutes O22: a pending set of SECT_ALIGN 1 that is judged to need no alignment run takes effect with SECT_ALIGN 0, that of the
set in force, and the block under way is not discarded. -/
theorem not_scalerLearning : ¬ Obligations.ScalerLearning := by
  unfold Obligations.ScalerLearning
  intro h
  obtain ⟨hApply, -⟩ := h unalignedPending 0
  obtain ⟨t, hRun, -, -, -, -, -, -, -, -, -, hDropped⟩ := hApply { align := 1, aligned := false } rfl (.inl rfl)
  have hTaken : exec (.sclPendingApply 0) unalignedPending = .next (unalignedPending.sclTake 0) := rfl
  have hEnd : unalignedPending.sclTake 0 = t := Host.Outcome.next.inj (hTaken.symm.trans hRun)
  have hNone : t.scl[(0 : Fin 8)].lrn.blk = [] := hDropped (by decide)
  rw [← hEnd, unalignedPending_keeps_block] at hNone
  exact absurd hNone (List.cons_ne_nil _ _)

end Sys2Proof.Machine
end

section
/-! PROOFS. The statement about ALIGN_WR lets it change the register file, its parity, the Scaler and WST, and no fault header. Where
SCL_n_CTRL is the only word of SCL with wrong parity (R364), the write stores it sound, and UE_0 of SCL ceases to be live (R347, R363). -/

namespace Sys2Proof.Machine

/-- The state after the commands of a list, one after the other; one that is refused changes nothing. -/
def State.afterAll (s : State) (l : List Instr) : State :=
  l.foldl (fun u c => match exec c u with
    | .next t => t
    | _ => u) s

/-- A released device with SCL_0_CTRL written while INV_0 of SCL was set, the wrong parity found, and INV_0 cleared again. -/
def ctrlParityWrong : State :=
  State.afterAll { State.reset with boot := { phase := .released, released := true } }
    [.chkInvWrite .scl 1, .alignWr 0 0, .parityError .scl, .chkInvWrite .scl 0]

/-- UE_0 of SCL is live. -/
def State.sclUe0 (s : State) : Bool := (s.hdr .scl).ueLive.getLsbD 0

/-- The parity of SCL_0_CTRL is wrong, and checker 0 of SCL shows it. -/
theorem ctrlParityWrong_ue0 : ctrlParityWrong.badPar = [sclAddr 0 0] ∧ ctrlParityWrong.sclUe0 = true := by
  decide +kernel

/-- ALIGN_WR mends the word, and UE_0 is no longer live. -/
theorem alignWr_ends_ue0 : (ctrlParityWrong.afterAll [.alignWr 0 0]).sclUe0 = false := by
  decide +kernel

/-- ALIGN_WR changes the fault header of SCL where it mends the parity of SCL_n_CTRL. -/
theorem not_scalerWrites : ¬ Parts.ScalerWrites := by
  unfold Parts.ScalerWrites
  intro h
  obtain ⟨-, -, -, -, -, -, -, hAlign⟩ := h ctrlParityWrong 0 0 0 0 (by decide +kernel)
  obtain ⟨t, hRun, -, -, hFrame⟩ := hAlign (by decide +kernel)
  have hEnd : ctrlParityWrong.afterAll [.alignWr 0 0] = t := by
    simp only [State.afterAll, List.foldl_cons, List.foldl_nil, hRun]
  have hFlt : t.flt = ctrlParityWrong.flt := (congrArg State.flt hFrame :)
  have hSame : t.sclUe0 = ctrlParityWrong.sclUe0 := congrArg (fun v => v[Page.scl.idx].ueLive.getLsbD 0) hFlt
  rw [← hEnd, alignWr_ends_ue0, ctrlParityWrong_ue0.2] at hSame
  exact absurd hSame (by decide)

/-- Refutes O23, whose part about writes leaves out the fault header: an ALIGN_WR that mends the parity of SCL_n_CTRL ends UE_0. -/
theorem not_scalerWritesAndTrims : ¬ Obligations.ScalerWritesAndTrims := by
  unfold Obligations.ScalerWritesAndTrims
  rintro ⟨hWrites, -⟩
  exact not_scalerWrites hWrites

end Sys2Proof.Machine
end

section
/-! PROOFS. The glitch filter of a digital input (R206) and the transitions that a channel counts (R211 to R213). -/

namespace Sys2Proof.Machine

/-! ## A digital channel changed, besides reports -/

theorem State.dch_of_quiet {s t : State} (h : t.quiet = s.quiet) : t.dch = s.dch := by
  have hDch := congrArg State.dch h
  exact hDch

theorem vset_self {α : Type} {n : Nat} (v : Vector α n) (i : Fin n) : vset v i v[i] = v := Vector.set_getElem_self _

theorem State.setDch_setDch (s : State) (n : Fin 4) (x y : Dch) : (s.setDch n x).setDch n y = s.setDch n y :=
  congrArg (fun d => { s with dch := d }) (vset_vset _ _ _ _)

/-- Where the clock has moved on to `c` and channel `n` has become `z`, and else only reports were made. -/
theorem State.channel_of_quiet {s t : State} {n : Fin 4} {c : Nat} {z : Dch} (h : t.quiet = ((s.waitTill c).setDch n z).quiet) :
    t.dch[n] = z ∧ t.clk.cyc = max s.clk.cyc c ∧
      t.quiet = ({ s with clk := t.clk, dch := vset s.dch n t.dch[n] } : State).quiet := by
  have hOwn : t.dch[n] = z := by
    rw [State.dch_of_quiet h]
    exact State.setDch_get _ _ _
  have hClk : t.clk = ((s.waitTill c).setDch n z).clk := State.clk_of_quiet h
  rw [State.setDch_clk] at hClk
  refine ⟨hOwn, ?_, ?_⟩
  · rw [hClk, State.waitTill_clk_cyc, Nat.max_comm]
  · rw [hOwn, hClk]
    exact h

/-! ## The filter (R206) -/

/-- The filter looks at the newest FILT + 1 samples: bit `i` of those from place 15 − FILT on. -/
theorem mem_window {l : Vector (BitVec 3) 16} {f i : Nat} {b : Bool} :
    b ∈ (l.toList.map fun v => v.getLsbD i).drop (15 - f) ↔ ∃ k : Fin 16, 15 - f ≤ k.val ∧ (l[k]).getLsbD i = b := by
  simp only [List.mem_iff_getElem, List.getElem_drop, List.getElem_map, Vector.getElem_toList, List.length_drop,
    List.length_map, Vector.length_toList]
  constructor
  · rintro ⟨j, hj, hb⟩
    exact ⟨⟨15 - f + j, by omega⟩, Nat.le_add_right _ _, hb⟩
  · rintro ⟨k, hk, hb⟩
    have hPlace : 15 - f + (k.val - (15 - f)) = k.val := Nat.add_sub_cancel' hk
    refine ⟨k.val - (15 - f), by omega, ?_⟩
    simp only [hPlace]
    exact hb

theorem filtered_shared {f : Nat} {was b : Bool} {l : List Bool} (hSome : b ∈ l.drop (15 - f)) (hAll : ∀ c ∈ l.drop (15 - f), c = b) :
    filtered f was l = b := by
  unfold filtered
  cases b
  case true => exact if_pos (List.all_eq_true.mpr hAll)
  case false =>
    dsimp only
    rw [if_neg fun h => Bool.false_ne_true (List.all_eq_true.mp h _ hSome), if_pos]
    exact List.all_eq_true.mpr fun c hc => by rw [hAll c hc]; rfl

theorem filtered_mixed {f : Nat} {was : Bool} {l : List Bool} (hTrue : true ∈ l.drop (15 - f)) (hFalse : false ∈ l.drop (15 - f)) :
    filtered f was l = was := by
  unfold filtered
  dsimp only
  rw [if_neg fun h => Bool.false_ne_true (List.all_eq_true.mp h _ hFalse),
    if_neg fun h => Bool.false_ne_true (List.all_eq_true.mp h _ hTrue)]

/-- Each input has its own filter. -/
theorem State.dchFilter_bit (s : State) (n : Fin 4) (l : Vector (BitVec 3) 16) (i : Fin 3) :
    (s.dchFilter n l).getLsbD i.val =
      filtered (s.DCH_CFG_FILT n.val) ((s.dch[n].lvl).getLsbD i.val) (l.toList.map fun v => v.getLsbD i.val) := by
  unfold State.dchFilter
  rw [show List.range 3 = [0, 1, 2] from rfl]
  simp only [List.foldl_cons, List.foldl_nil]
  fin_cases i
  · rw [bput_get_other _ _ _ _ (by decide), bput_get_other _ _ _ _ (by decide), bput_get _ _ _ (by decide)]
  · rw [bput_get_other _ _ _ _ (by decide), bput_get _ _ _ (by decide)]
  · rw [bput_get _ _ _ (by decide)]

theorem glitchFilter : Parts.GlitchFilter := by
  intro s n l i f v
  have hBit : v = _ := s.dchFilter_bit n l i
  refine ⟨fun b hShared => ?_, fun hTrue hFalse => ?_⟩
  · have hNewest : (15 : Fin 16).val - f ≤ (15 : Fin 16).val := Nat.sub_le _ _
    rw [hBit]
    refine filtered_shared (mem_window.mpr ⟨15, hNewest, hShared 15 hNewest⟩) fun c hc => ?_
    obtain ⟨k, hk, rfl⟩ := mem_window.mp hc
    exact hShared k hk
  · rw [hBit]
    exact filtered_mixed (mem_window.mpr hTrue) (mem_window.mpr hFalse)

/-! ## The full count (R212) -/

/-- The full count F = POS + CPR × TURNS. -/
def Dch.full (x : Dch) : Nat := x.pos + x.cpr * x.turns

theorem Dch.full_lt {x : Dch} (hPos : x.pos < x.cpr) (hTurns : x.turns < 65536) : x.full < 65536 * x.cpr := by
  unfold Dch.full
  nlinarith

theorem Dch.addF_pos_lt {x : Dch} (h : 0 < x.cpr) (c : Int) : (x.addF c).pos < (x.addF c).cpr := Nat.mod_lt _ h

/-- F counts modulo 65,536 × CPR. -/
theorem Dch.addF_full {x : Dch} (h : 0 < x.cpr) (c : Int) :
    ((x.addF c).full : Int) = ((x.full : Int) + c) % (65536 * x.cpr : Nat) := by
  have hFull : (x.addF c).full = (((x.full : Int) + c) % (x.cpr * 65536 : Nat)).toNat := Nat.mod_add_div _ _
  have hPos : 0 < x.cpr * 65536 := by omega
  rw [hFull, Int.toNat_of_nonneg (Int.emod_nonneg _ (by omega)), Nat.mul_comm]

theorem Dch.addF_one_full {x : Dch} (h : 0 < x.cpr) : (x.addF 1).full = (x.full + 1) % (65536 * x.cpr) := by
  have hFull := Dch.addF_full h 1
  exact_mod_cast hFull

theorem Dch.full_of_addF_neg_one {x : Dch} (h : 0 < x.cpr) (hLt : x.full < 65536 * x.cpr) :
    x.full = ((x.addF (-1)).full + 1) % (65536 * x.cpr) := by
  have hBack : (((x.addF (-1)).full + 1 : Nat) : Int) % (65536 * x.cpr : Nat) = x.full := by
    rw [Nat.cast_add, Dch.addF_full h, Nat.cast_one, Int.emod_add_emod, Int.neg_add_cancel_right,
      Int.emod_eq_of_lt (Int.natCast_nonneg _) (by exact_mod_cast hLt)]
  exact_mod_cast hBack.symm

/-! ## One transition (R211 to R213) -/

/-- From `x` to `y` a channel has taken a transition seen as `m` (R211 to R213). -/
def Dch.Counted (x y : Dch) : Move → Prop
  | .up => y.trans = (x.trans + 1) % 2 ^ 32 ∧ y.up = (x.up + 1) % 2 ^ 32 ∧ y.dn = x.dn ∧ y.ill = x.ill ∧
      y.full = (x.full + 1) % (65536 * x.cpr)
  | .down => y.trans = (x.trans + 1) % 2 ^ 32 ∧ y.dn = (x.dn + 1) % 2 ^ 32 ∧ y.up = x.up ∧ y.ill = x.ill ∧
      x.full = (y.full + 1) % (65536 * x.cpr)
  | .illegal => y.trans = (x.trans + 1) % 2 ^ 32 ∧ y.ill = (x.ill + 1) % 2 ^ 32 ∧ y.up = x.up ∧ y.dn = x.dn ∧
      y.full = x.full ∧ y.unc = true
  | .none => y.trans = x.trans ∧ y.up = x.up ∧ y.dn = x.dn ∧ y.ill = x.ill ∧ y.full = x.full

/-- UP + DN + ILL = TRANS modulo 2^32 is kept. -/
theorem Dch.Counted.sum {x y : Dch} {m : Move} (h : x.Counted y m)
    (hSum : (x.up + x.dn + x.ill) % 2 ^ 32 = x.trans % 2 ^ 32) : (y.up + y.dn + y.ill) % 2 ^ 32 = y.trans % 2 ^ 32 := by
  cases m
  case up =>
    obtain ⟨hTrans, hUp, hDn, hIll, -⟩ := h
    omega
  case down =>
    obtain ⟨hTrans, hDn, hUp, hIll, -⟩ := h
    omega
  case illegal =>
    obtain ⟨hTrans, hIll, hUp, hDn, -⟩ := h
    omega
  case none =>
    obtain ⟨hTrans, hUp, hDn, hIll, -⟩ := h
    omega

theorem Dch.move_counted {x : Dch} (hCpr : 0 < x.cpr) (hLt : x.full < 65536 * x.cpr) (m : Move) (cyc filt win tick : Nat) :
    x.Counted (x.move m cyc filt win tick) m := by
  cases m
  case up => exact ⟨rfl, rfl, rfl, rfl, Dch.addF_one_full hCpr⟩
  case down => exact ⟨rfl, rfl, rfl, rfl, Dch.full_of_addF_neg_one hCpr hLt⟩
  case illegal => exact ⟨rfl, rfl, rfl, rfl, rfl, rfl⟩
  case none => exact ⟨rfl, rfl, rfl, rfl, rfl⟩

/-- What no transition changes: CPR, SLIP_ACC, IDX_REF and the published set. -/
theorem Dch.move_keeps (x : Dch) (m : Move) (cyc filt win tick : Nat) : let y := x.move m cyc filt win tick
    y.cpr = x.cpr ∧ y.slip = x.slip ∧ y.idx.ref = x.idx.ref ∧ y.pub = x.pub := by
  cases m <;> exact ⟨rfl, rfl, rfl, rfl⟩

theorem Dch.move_pos_lt {x : Dch} (hCpr : 0 < x.cpr) (hPos : x.pos < x.cpr) (m : Move) (cyc filt win tick : Nat) :
    (x.move m cyc filt win tick).pos < (x.move m cyc filt win tick).cpr := by
  cases m
  case up => exact Dch.addF_pos_lt (x := x) hCpr 1
  case down => exact Dch.addF_pos_lt (x := x) hCpr (-1)
  case illegal => exact hPos
  case none => exact hPos

/-- From `x` to `y` nothing that counts has changed, and UNCERT has not been cleared. -/
structure Dch.SameCount (x y : Dch) : Prop where
  full : y.full = x.full
  up : y.up = x.up
  dn : y.dn = x.dn
  ill : y.ill = x.ill
  trans : y.trans = x.trans
  unc : x.unc = true → y.unc = true
  keeps : y.cpr = x.cpr ∧ y.slip = x.slip ∧ y.idx.ref = x.idx.ref ∧ y.pub = x.pub
  pos : y.pos = x.pos

theorem Dch.SameCount.then {x y z : Dch} (h : x.SameCount y) (k : y.SameCount z) : x.SameCount z := by
  obtain ⟨hCpr, hSlip, hRef, hPub⟩ := h.keeps
  obtain ⟨kCpr, kSlip, kRef, kPub⟩ := k.keeps
  exact ⟨k.full.trans h.full, k.up.trans h.up, k.dn.trans h.dn, k.ill.trans h.ill, k.trans.trans h.trans,
    fun hUnc => k.unc (h.unc hUnc), ⟨kCpr.trans hCpr, kSlip.trans hSlip, kRef.trans hRef, kPub.trans hPub⟩, k.pos.trans h.pos⟩

theorem Dch.Counted.followed {w x y : Dch} {m : Move} (hx : w.Counted x m) (h : x.SameCount y) : w.Counted y m := by
  obtain ⟨hFull, hUp, hDn, hIll, hTrans, hUnc, -, -⟩ := h
  cases m
  case illegal =>
    obtain ⟨kTrans, kIll, kUp, kDn, kFull, kUnc⟩ := hx
    exact ⟨hTrans.trans kTrans, hIll.trans kIll, hUp.trans kUp, hDn.trans kDn, hFull.trans kFull, hUnc kUnc⟩
  all_goals
    unfold Dch.Counted at hx ⊢
    rw [hFull, hUp, hDn, hIll, hTrans]
    exact hx

/-- The index monitor can set UNCERT, and counts nothing (R218). -/
theorem State.judgeMiss_sameCount (s : State) (n : Fin 4) :
    ∃ y, s.dch[n].SameCount y ∧ y.lvl = s.dch[n].lvl ∧ (s.judgeMiss n).quiet = (s.setDch n y).quiet := by
  unfold State.judgeMiss
  dsimp only
  split
  · refine ⟨_, ?_, ?_, State.event_quiet _ _ _ _⟩
    · exact ⟨rfl, rfl, rfl, rfl, rfl, fun _ => rfl, ⟨rfl, rfl, rfl, rfl⟩, rfl⟩
    · rfl
  · refine ⟨_, ⟨rfl, rfl, rfl, rfl, rfl, id, ⟨rfl, rfl, rfl, rfl⟩, rfl⟩, rfl, ?_⟩
    unfold State.setDch
    rw [vset_self]

/-! ## The command -/

/-- The channel levels that the filtered inputs `v` make: in ABZ mode Z keeps its level (R211). -/
def Dch.levels (x : Dch) (v : BitVec 3) : BitVec 3 := if x.mode = 1 then v else (v &&& 3) ||| (x.lvl &&& 4)

/-- What channel `n` sees as its inputs become `v`, DIR_INV read (R211). -/
def State.dchSeen (s : State) (n : Fin 4) (v : BitVec 3) : Move :=
  let x := s.dch[n]
  let m := if x.mode = 1 then hallMove x.lvl (x.levels v) else abMove x.lvl (x.levels v)
  if s.DCH_CFG_DIR_INV n.val = 1 then m.flip else m

/-- The channel after the transition, IDX_MISS not yet judged. -/
def State.dchMoved (s : State) (n : Fin 4) (v : BitVec 3) : Dch :=
  let x := s.dch[n]
  x.move (s.dchSeen n v) s.clk.cyc (s.DCH_CFG_FILT n.val) (usCyc (s.DCH_RATE_SPD_WIN n.val)) (s.clk.cyc / 200)

section
variable {s : State} {n : Fin 4}

theorem State.dchMove_idle (h : s.dch[n].on = false ∨ s.dch[n].mode = 2) (v : BitVec 3) :
    s.dchMove n v = s.setDch n { s.dch[n] with lvl := v } := by
  unfold State.dchMove State.dchOn
  dsimp only
  rcases h with hOff | hSsi
  · rw [hOff, Bool.false_and, Bool.not_false, if_pos rfl]
  · rw [if_pos hSsi, ite_self]

theorem State.dchMove_counts (hRun : s.dchOn n = true) (hMode : s.dch[n].mode ≠ 2) (v : BitVec 3) :
    ∃ y, (s.dchMoved n v).SameCount y ∧ y.lvl = s.dch[n].levels v ∧ (s.dchMove n v).quiet = (s.setDch n y).quiet := by
  unfold State.dchMove
  extract_lets x hall new m0 m y inv z s1
  rw [hRun, Bool.not_true, if_neg Bool.false_ne_true, if_neg hMode]
  obtain ⟨w, hSame, hLvl, hQuiet⟩ := (s.setDch n z).judgeMiss_sameCount n
  rw [State.setDch_get] at hSame hLvl
  rw [State.setDch_setDch] at hQuiet
  have hMoved : (s.dchMoved n v).SameCount z := ⟨rfl, rfl, rfl, rfl, rfl, id, ⟨rfl, rfl, rfl, rfl⟩, rfl⟩
  refine ⟨w, hMoved.then hSame, hLvl, ?_⟩
  split
  · exact hQuiet
  · exact (State.cond_quiet _ _ _ _ _).trans hQuiet

theorem exec_dchTransition_unseen (h : s.halfOn (excHalf n.val) = false ∨ s.pads.heldH.get (excHalf n.val) = true)
    (l : Vector (BitVec 3) 16) : exec (.dchTransition n l) s = .next s := by
  refine if_neg fun hSees => ?_
  obtain ⟨hOn, hFree⟩ := Bool.and_eq_true_iff.mp hSees
  rcases h with h | h
  · exact Bool.false_ne_true (h.symm.trans hOn)
  · rw [h] at hFree
    exact Bool.false_ne_true hFree

theorem exec_dchTransition_seen (hOn : s.halfOn (excHalf n.val) = true) (hFree : s.pads.heldH.get (excHalf n.val) = false)
    (l : Vector (BitVec 3) 16) : exec (.dchTransition n l) s = .next (s.dchSample.dchMove n (s.dchFilter n l)) := by
  refine if_pos ?_
  unfold State.dchSees
  rw [hOn, hFree]
  rfl

theorem State.sample_cyc (s : State) : max s.clk.cyc ((s.clk.cyc + 1) / 2 * 2) = (s.clk.cyc + 1) / 2 * 2 := by omega

end

theorem transitionsCount : Parts.TransitionsCount := by
  intro s n l x v new m0 m f
  refine ⟨fun h => exec_dchTransition_unseen h l, fun hOn hFree => ⟨fun hIdle => ?_, fun hRun hMode hCpr hPos hTurns => ?_⟩⟩
  · refine ⟨_, exec_dchTransition_seen hOn hFree l, ?_⟩
    rw [State.dchMove_idle (s := s.dchSample) hIdle]
    refine ⟨rfl, ?_⟩
    exact (State.waitTill_clk_cyc _ _).trans ((Nat.max_comm _ _).trans s.sample_cyc)
  · refine ⟨_, exec_dchTransition_seen hOn hFree l, ?_⟩
    obtain ⟨z, hSame, hLvl, hQuiet⟩ :=
      State.dchMove_counts (s := s.dchSample) (n := n) (Bool.and_eq_true_iff.mpr ⟨hRun, hOn⟩) hMode v
    obtain ⟨hOwn, hCyc, hRest⟩ := State.channel_of_quiet hQuiet
    have hMoved : x.Counted (s.dchSample.dchMoved n v) m := Dch.move_counted hCpr (Dch.full_lt hPos hTurns) _ _ _ _ _
    have hCounted : x.Counted z m := hMoved.followed hSame
    obtain ⟨hCprM, hSlipM, hRefM, hPubM⟩ := Dch.move_keeps x m _ _ _ _
    obtain ⟨hCprZ, hSlipZ, hRefZ, hPubZ⟩ := hSame.keeps
    have hPosZ : z.pos < z.cpr := by
      rw [hSame.pos, hCprZ]
      exact Dch.move_pos_lt hCpr hPos _ _ _ _ _
    refine ⟨hCyc.trans s.sample_cyc, hRest, ?_⟩
    rw [hOwn]
    refine ⟨hCprZ.trans hCprM, hSlipZ.trans hSlipM, hRefZ.trans hRefM, hPubZ.trans hPubM, hPosZ, hLvl, hCounted.sum,
      fun h => ?_, fun h => ?_, fun h => ?_, fun h => ?_⟩
    all_goals
      rw [h] at hCounted
      exact hCounted

/-- Settles O24: the filter by what stands in its window, a transition by what its move adds to the full count. -/
theorem transitionCounting : Obligations.TransitionCounting := ⟨glitchFilter, transitionsCount⟩

end Sys2Proof.Machine
end

section
/-! PROOFS. SSI: the level of the clock in its half periods (R222, R224), and the frames: their start, their end with the check,
and the recovery time (R223 to R226). -/

namespace Sys2Proof.Machine

/-! ## The clock (R222, R224) -/

section
variable {s : State} {n : Fin 4}

theorem State.ssiClock_idle (h : s.dch[n].ssi.frame = none) : s.ssiClock n = true := by
  unfold State.ssiClock
  rw [h]

theorem State.ssiClock_frame {c : Nat} {t0 : BitVec 64} (h : s.dch[n].ssi.frame = some (c, t0)) :
    s.ssiClock n = (decide (s.ssiCycles n ≤ s.clk.cyc - c) ||
      (s.clk.cyc - c) / clampNat 20 2000 (s.DCH_SSI_TIM_CLK_HALF n.val) % 2 == 1) := by
  unfold State.ssiClock
  rw [h]

end

theorem ssiClock : Parts.SsiClock := by
  intro s n half len
  refine ⟨State.ssiClock_idle, fun c t0 hFrame hStarted => ⟨fun k hk hLow hHigh => ?_, fun hOver => ?_⟩⟩
  · have hPlace : (s.clk.cyc - c) / half = k := Nat.div_eq_of_lt_le (by omega) (by omega)
    have hLast : (k + 1) * half ≤ (2 * len + 3) * half := Nat.mul_le_mul_right _ hk
    have hRuns : ¬ s.ssiCycles n ≤ s.clk.cyc - c := by
      change ¬ (2 * len + 3) * half ≤ _
      omega
    rw [State.ssiClock_frame hFrame, hPlace, decide_eq_false hRuns, Bool.false_or]
    rfl
  · have hEnded : s.ssiCycles n ≤ s.clk.cyc - c := by
      change (2 * len + 3) * half ≤ _
      omega
    rw [State.ssiClock_frame hFrame, decide_eq_true hEnded, Bool.true_or]

/-! ## The start of a frame (R223) -/

section
variable {s : State} {n : Fin 4}

/-- A frame can start: the channel runs in SSI mode, its half on, and keeps its clock pin (R222, R223). -/
theorem State.ssiCan_iff : (s.dchOn n && s.dch[n].mode == 2 && s.ssiPin n) = true ↔
    s.dchOn n = true ∧ s.dch[n].mode = 2 ∧ s.ssiPin n = true := by
  rw [Bool.and_eq_true, Bool.and_eq_true, beq_iff_eq, and_assoc]

/-- A frame is under way, or its recovery time. -/
theorem DchSsi.busy_iff {y : DchSsi} : (y.frame.isSome || y.recTill.isSome) = true ↔ ¬ (y.frame = none ∧ y.recTill = none) := by
  rw [Bool.or_eq_true, Option.isSome_iff_ne_none, Option.isSome_iff_ne_none, not_and_or]

theorem State.ssiStart_starts (hCan : s.dchOn n = true ∧ s.dch[n].mode = 2 ∧ s.ssiPin n = true)
    (hIdle : s.dch[n].ssi.frame = none ∧ s.dch[n].ssi.recTill = none) : s.ssiStart n = s.setDch n { s.dch[n] with
      ssi := { s.dch[n].ssi with frame := some (s.clk.cyc, s.now), blind := !s.dchSees n } } :=
  (if_pos (State.ssiCan_iff.mpr hCan)).trans (if_neg fun hBusy => DchSsi.busy_iff.mp hBusy hIdle)

theorem State.ssiStart_lost (hCan : s.dchOn n = true ∧ s.dch[n].mode = 2 ∧ s.ssiPin n = true)
    (hBusy : ¬ (s.dch[n].ssi.frame = none ∧ s.dch[n].ssi.recTill = none)) : s.ssiStart n = s.setDch n { s.dch[n] with
      ssi := { s.dch[n].ssi with lost := min 255 (s.dch[n].ssi.lost + 1) } } :=
  (if_pos (State.ssiCan_iff.mpr hCan)).trans (if_pos (DchSsi.busy_iff.mpr hBusy))

theorem State.ssiStart_not (h : ¬ (s.dchOn n = true ∧ s.dch[n].mode = 2 ∧ s.ssiPin n = true)) : s.ssiStart n = s :=
  if_neg fun hCan => h (State.ssiCan_iff.mp hCan)

theorem exec_ssiTrig (h : s.halfOn (excHalf n.val) = true) : exec (.ssiTrig n) s = .next { s.ssiStart n with wst := .ok } := by
  change finish (s.inst _ _ _) = _
  rw [State.inst_on h]
  rfl

theorem exec_ssiFrameStart_early (h : s.dch[n].ssi.due = false) : exec (.ssiFrameStart n) s = .next s :=
  if_neg (h ▸ Bool.false_ne_true)

/-- The channel with the frame that was due no longer due. -/
def State.ssiUndue (s : State) (n : Fin 4) : State := s.setDch n { s.dch[n] with ssi := { s.dch[n].ssi with due := false } }

theorem exec_ssiFrameStart_due (h : s.dch[n].ssi.due = true) :
    exec (.ssiFrameStart n) s = .next ((s.ssiUndue n).ssiStart n) := if_pos h

theorem State.ssiUndue_own (s : State) (n : Fin 4) :
    (s.ssiUndue n).dch[n] = { s.dch[n] with ssi := { s.dch[n].ssi with due := false } } := State.setDch_get _ _ _

theorem State.ssiUndue_dchOn (s : State) (n : Fin 4) : (s.ssiUndue n).dchOn n = s.dchOn n := by
  unfold State.dchOn
  rw [State.ssiUndue_own]
  rfl

/-- Which channel keeps a clock pin depends on the modes and CLK_PIN alone. -/
theorem State.ssiUndue_ssiPin (s : State) (n : Fin 4) : (s.ssiUndue n).ssiPin n = s.ssiPin n := by
  have hMode (m : Fin 4) : ((s.ssiUndue n).dch[m]).mode = s.dch[m].mode := by
    by_cases h : m = n
    · subst h
      rw [State.ssiUndue_own]
    · unfold State.ssiUndue
      rw [State.setDch_get_other _ _ _ _ h]
  unfold State.ssiPin
  simp only [hMode]
  rfl

/-- What a frame needs to start does not depend on whether it was due. -/
theorem State.ssiUndue_can (h : s.dchOn n = true ∧ s.dch[n].mode = 2 ∧ s.ssiPin n = true) :
    (s.ssiUndue n).dchOn n = true ∧ (s.ssiUndue n).dch[n].mode = 2 ∧ (s.ssiUndue n).ssiPin n = true := by
  rw [State.ssiUndue_dchOn, State.ssiUndue_own, State.ssiUndue_ssiPin]
  exact h

end

/-! ## The end of a frame (R224 to R226) -/

section
variable (x : Dch) (till raw err : Nat)

/-- The SSI part as any frame leaves it: the recovery time runs, RAW and LAST_ERR are those of the frame. -/
def Dch.ssiOver : DchSsi :=
  { x.ssi with frame := none, recTill := some till, raw := BitVec.ofNat 32 raw, lastErr := err }

/-- The channel after a good frame with fields `f`, begun at cycle `c` and TIME `t0` (R225). -/
def Dch.ssiGood (f : Nat × Nat × Nat × Bool) (c : Nat) (t0 : BitVec 64) (cyc : Nat) : Dch :=
  { x with
    pos := f.2.1
    turns := f.1
    ssi := { x.ssiOver till raw err with
      acc := ((f.2.1, c, t0) :: x.ssi.acc).take 2, accAt := cyc, stat := f.2.2.1, errRun := 0, runs := 0, loss := false } }

/-- The channel after a bad frame, SSI_LOSS after `lim` of them in a row (R226). -/
def Dch.ssiBad (lim : Nat) : Dch :=
  { x with ssi := { x.ssiOver till raw err with
      errRun := min 15 (x.ssi.errRun + 1), runs := x.ssi.runs + 1, errCnt := min 65535 (x.ssi.errCnt + 1)
      loss := x.ssi.loss || decide (lim ≤ x.ssi.runs + 1) } }

end

/-- Channel `n` after a good frame left it `z`: SSI_LOSS ends. -/
def State.ssiAccept (s : State) (n : Fin 4) (z : Dch) : State := (s.setDch n z).dcond n 5 false

/-- Channel `n` after a bad frame left it `z`: SSI_ERR is raised, and SSI_LOSS with `z`. -/
def State.ssiReject (s : State) (n : Fin 4) (z : Dch) : State :=
  let t := (s.setDch n z).devent n 4
  if z.ssi.loss then t.dcond n 5 true else t

theorem State.ssiAccept_quiet (s : State) (n : Fin 4) (z : Dch) : (s.ssiAccept n z).quiet = (s.setDch n z).quiet :=
  State.cond_quiet _ _ _ _ _

theorem State.ssiReject_quiet (s : State) (n : Fin 4) (z : Dch) : (s.ssiReject n z).quiet = (s.setDch n z).quiet := by
  unfold State.ssiReject
  dsimp only
  split
  · exact (State.cond_quiet _ _ _ _ _).trans (State.event_quiet _ _ _ _)
  · exact State.event_quiet _ _ _ _

/-- No hold-off window of Table 15.4 covers a source of DCH. -/
theorem State.reports_dch {s : State} (hp : s.powered .dch = true) (b : Nat) : s.reports .dch b = true := by
  unfold State.reports State.heldOff
  rw [hp, show s.holdWin .dch b = {} from rfl, show s.lossEnd .dch b = 0 from rfl]
  simp [HoldWin.covers]

theorem State.ssiAccept_loss {s : State} (hp : s.powered .dch = true) (n : Fin 4) (z : Dch) :
    (s.ssiAccept n z).liveBit .dch (excHalf n.val).copy (6 * n.val + 5) = false :=
  State.cond_liveBit (s := s.setDch n z) (p := .dch) hp (by omega) rfl rfl _ _

theorem State.ssiReject_err {s : State} (hp : s.powered .dch = true) (n : Fin 4) (z : Dch) :
    (s.ssiReject n z).stickyBit .dch (6 * n.val + 4) = true := by
  have hEvent : ((s.setDch n z).devent n 4).stickyBit .dch (6 * n.val + 4) = true :=
    State.event_sticky _ _ _ _ (State.reports_dch (s := s.setDch n z) hp _) (by omega)
  unfold State.ssiReject
  dsimp only
  split
  · exact State.cond_stickyUp _ _ _ _ _ _ _ hEvent
  · exact hEvent

section
variable {s : State} {n : Fin 4} {c : Nat} {t0 : BitVec 64} {ready : Bool} {bits : BitVec 32} {endBit : Bool}

/-- The end of the recovery time of a frame begun at cycle `c` (R224). -/
def State.ssiTill (s : State) (n : Fin 4) (c : Nat) : Nat :=
  c + s.ssiCycles n + usCyc (max 1 (s.DCH_SSI_TIM_REC_US n.val))

/-- The bits of a frame of which the channel has taken `got`: ready level, data, end bit (R224). -/
def State.ssiRaw (s : State) (n : Fin 4) (got : Bool × Nat × Bool) : Nat := got.2.1 % 2 ^ s.ssiLen n

/-- LAST_ERR of such a frame (R225, R226). -/
def State.ssiVerdict (s : State) (n : Fin 4) (got : Bool × Nat × Bool) : Nat :=
  let f := s.ssiFields n (s.ssiRaw n got)
  s.ssiErr n got.1 got.2.2 f.2.2.2 f.2.1

/-- The instant at which a frame begun at cycle `c` is complete. -/
def State.ssiWaited (s : State) (n : Fin 4) (c : Nat) : State := s.waitTill (c + s.ssiDone n)

theorem exec_ssiFrameEnd_good (h : s.dch[n].ssi.frame = some (c, t0))
    (hErr : s.ssiVerdict n ((s.ssiWaited n c).ssiTaken n ready bits endBit) = 0) :
    let raw := s.ssiRaw n ((s.ssiWaited n c).ssiTaken n ready bits endBit)
    exec (.ssiFrameEnd n ready bits endBit) s = .next ((s.ssiWaited n c).ssiAccept n
      (s.dch[n].ssiGood (s.ssiTill n c) raw 0 (s.ssiFields n raw) c t0 (s.ssiWaited n c).clk.cyc)) := by
  intro raw
  rw [← hErr]
  change execSsiFrameEnd n ready bits endBit s = _
  unfold execSsiFrameEnd
  rw [h]
  exact if_pos hErr

theorem exec_ssiFrameEnd_bad (h : s.dch[n].ssi.frame = some (c, t0)) :
    let got := (s.ssiWaited n c).ssiTaken n ready bits endBit
    s.ssiVerdict n got ≠ 0 → exec (.ssiFrameEnd n ready bits endBit) s = .next ((s.ssiWaited n c).ssiReject n
      (s.dch[n].ssiBad (s.ssiTill n c) (s.ssiRaw n got) (s.ssiVerdict n got) (max 1 (s.DCH_SSI_CFG_ERR_MAX n.val)))) := by
  intro got hErr
  change execSsiFrameEnd n ready bits endBit s = _
  unfold execSsiFrameEnd
  rw [h]
  exact if_neg hErr

theorem State.ssiTaken_seen (h : s.dch[n].ssi.blind = false) (ready : Bool) (bits : BitVec 32) (endBit : Bool) :
    s.ssiTaken n ready bits endBit = (ready, bits.toNat, endBit) := if_neg (h ▸ Bool.false_ne_true)

theorem exec_ssiRecoveryEnd {r : Nat} (h : s.dch[n].ssi.recTill = some r) : exec (.ssiRecoveryEnd n) s =
    .next ((s.waitTill r).setDch n { s.dch[n] with ssi := { s.dch[n].ssi with recTill := none } }) := by
  change execSsiRecoveryEnd n s = _
  unfold execSsiRecoveryEnd
  rw [h]
  rfl

end

theorem ssiFramesRun : Parts.SsiFramesRun := by
  intro s n hp hHalf x put can idle
  have hRuns : can ↔ s.dchOn n = true ∧ x.mode = 2 ∧ s.ssiPin n = true :=
    and_congr_left' (Bool.and_eq_true_iff.trans (and_iff_left hHalf)).symm
  refine ⟨fun hCan hIdle => ?_, fun hCan hBusy => ?_, fun hNot => ?_, exec_ssiFrameStart_early,
    fun hDue hCan hIdle => ?_, fun hDue hCan hBusy => ?_, fun r hRec => ⟨_, exec_ssiRecoveryEnd hRec, ?_, rfl⟩,
    fun c t0 ready bits endBit hFrame => ?_⟩
  · rw [exec_ssiTrig hHalf, State.ssiStart_starts (hRuns.mp hCan) hIdle]
    rfl
  · rw [exec_ssiTrig hHalf, State.ssiStart_lost (hRuns.mp hCan) hBusy]
    rfl
  · rw [exec_ssiTrig hHalf, State.ssiStart_not fun hCan => hNot (hRuns.mpr hCan)]
  · rw [exec_ssiFrameStart_due hDue,
      State.ssiStart_starts (State.ssiUndue_can (hRuns.mp hCan)) (by rw [State.ssiUndue_own]; exact hIdle), State.ssiUndue_own]
    exact congrArg Host.Outcome.next (State.setDch_setDch _ _ _ _)
  · rw [exec_ssiFrameStart_due hDue,
      State.ssiStart_lost (State.ssiUndue_can (hRuns.mp hCan)) (by rw [State.ssiUndue_own]; exact hBusy), State.ssiUndue_own]
    exact congrArg Host.Outcome.next (State.setDch_setDch _ _ _ _)
  · exact (State.waitTill_clk_cyc _ _).trans (Nat.max_comm _ _)
  · let got := (s.ssiWaited n c).ssiTaken n ready bits endBit
    refine ⟨got.1, got.2.1, got.2.2, fun hSeen => ?_, ?_⟩
    · have hGot : got = _ := State.ssiTaken_seen (s := s.ssiWaited n c) hSeen ready bits endBit
      rw [hGot]
      exact ⟨rfl, rfl, rfl⟩
    intro raw f err half rise at'
    by_cases hErr : err = 0
    · refine ⟨_, exec_ssiFrameEnd_good hFrame hErr, ?_⟩
      obtain ⟨hOwn, hCyc, hRest⟩ := State.channel_of_quiet (State.ssiAccept_quiet (s.ssiWaited n c) n _)
      refine ⟨hCyc, hRest, ?_⟩
      rw [hOwn]
      refine ⟨rfl, rfl, hErr.symm, BitVec.toNat_ofNat _ _, fun _ => ⟨rfl, rfl, rfl, rfl, rfl, ?_⟩, fun h => absurd hErr h⟩
      exact State.ssiAccept_loss (s := s.ssiWaited n c) hp n _
    · refine ⟨_, exec_ssiFrameEnd_bad hFrame hErr, ?_⟩
      obtain ⟨hOwn, hCyc, hRest⟩ := State.channel_of_quiet (State.ssiReject_quiet (s.ssiWaited n c) n _)
      refine ⟨hCyc, hRest, ?_⟩
      rw [hOwn]
      refine ⟨rfl, rfl, rfl, BitVec.toNat_ofNat _ _, fun h => absurd h hErr, fun _ => ⟨rfl, rfl, rfl, rfl, ?_, fun hRun => ?_⟩⟩
      · exact State.ssiReject_err (s := s.ssiWaited n c) hp n _
      · exact Bool.or_eq_true_iff.mpr (.inr (decide_eq_true hRun))

/-- Settles O26: the clock by the half period it is in, the start of a frame by whether one can start and none runs, its end by the
verdict on what the channel has taken. -/
theorem ssiFrames : Obligations.SsiFrames := ⟨ssiClock, ssiFramesRun⟩

end Sys2Proof.Machine
end

section
/-! PROOFS. The statement about UNC_CLR lets it change UNCERT alone. A channel also keeps UNCERT as it was before its latest index
edge, which a REF_CLR later in the tick brings back (Table 9.8); UNC_CLR clears that too (R219), and the statement leaves it out. -/

namespace Sys2Proof.Machine

/-- A released device with channel DCH_0 enabled: an illegal transition has set UNCERT, the window of ILL_RATE has ended, many ticks
later, and then an index edge has come. -/
def indexedUncertain : State :=
  State.afterAll { State.reset with boot := { phase := .released, released := true } }
    [.dchEnable 0, .dchTransition 0 (Vector.replicate 16 3), .illRate 0, .indexEdge 0 (Vector.replicate 16 true)]

/-- UNCERT of DCH_0 as it stood before its latest index edge. -/
def State.uncBefore (s : State) : Option Bool := s.dch[(0 : Fin 4)].idx.edge.map DchEdge.unc

theorem indexedUncertain_runs :
    indexedUncertain.boot.released = true ∧ indexedUncertain.halfOn (excHalf (0 : Fin 4).val) = true := by
  decide +kernel

theorem indexedUncertain_uncBefore : indexedUncertain.uncBefore = some true := by decide +kernel

/-- UNC_CLR reaches UNCERT of before the edge. -/
theorem uncClr_uncBefore : (indexedUncertain.afterAll [.uncClr 0]).uncBefore = some false := by decide +kernel

/-- An UNC_CLR that changes UNCERT alone leaves it. -/
theorem State.uncBefore_of_unc_alone {s : State} {b : Bool}
    (h : exec (.uncClr 0) s = .next { s with wst := .ok, dch := vset s.dch (0 : Fin 4) { s.dch[(0 : Fin 4)] with unc := b } }) :
    (s.afterAll [.uncClr 0]).uncBefore = s.uncBefore := by
  simp only [State.afterAll, List.foldl_cons, List.foldl_nil, h, State.uncBefore]
  rw [vset_same]

theorem not_digitalStartStop : ¬ Parts.DigitalStartStop := by
  unfold Parts.DigitalStartStop
  intro h
  obtain ⟨hReleased, hHalf⟩ := indexedUncertain_runs
  obtain ⟨-, -, -, -, -, hUnc⟩ := h indexedUncertain 0 hReleased hHalf
  have hSame := State.uncBefore_of_unc_alone hUnc
  rw [uncClr_uncBefore, indexedUncertain_uncBefore] at hSame
  exact absurd hSame (by decide)

/-- Refutes O25, whose part about UNC_CLR leaves out the UNCERT kept from before an index edge: UNC_CLR clears that as well. -/
theorem not_digitalInputsWatched : ¬ Obligations.DigitalInputsWatched := by
  unfold Obligations.DigitalInputsWatched
  rintro ⟨hStartStop, -⟩
  exact not_digitalStartStop hStartStop

end Sys2Proof.Machine
end

section
/-! PROOFS. Ticks of the cross-monitor (R236 to R240, R243): what a copy compares depends on the state before the tick alone, whatever
the other copy has done in it. -/

namespace Sys2Proof.Machine

/-! ## What a tick of the cross-monitor changes -/

theorem FaultHdr.setBit_ev (f : FaultHdr) (c : Copy) (b : Nat) (raw live : Bool) : (f.setBit c b raw live).ev = f.ev := by
  cases c <;> rfl

/-- A source is live as the copies' bits, the instants of detection and FLT_FORCE make it (R347, R362). -/
theorem State.fltLive_bit (s : State) (p : Page) (b : Nat) :
    (s.fltLive p).getLsbD b = (s.liveBit p .shared b || s.liveBit p .h0 b || s.liveBit p .h1 b ||
      ((s.hdr p).evLive s.clk.cyc).getLsbD b || (s.fltForce p).getLsbD b) := by
  simp only [State.fltLive, FaultHdr.det, BitVec.getLsbD_or]
  rfl

/-- From `s` to `t` only drives and fault headers change, and CFG_MIS of drive `d` stays live or clear. -/
structure State.XmonOnly (d : Drive) (s t : State) : Prop where
  rest : t = { s with xd := t.xd, flt := t.flt }
  cfgMis : t.cfgMisLive d = s.cfgMisLive d

section
variable {d : Drive} {s t u : State}

theorem State.XmonOnly.refl (s : State) : s.XmonOnly d s := ⟨rfl, rfl⟩

theorem State.XmonOnly.trans (h : s.XmonOnly d t) (k : t.XmonOnly d u) : s.XmonOnly d u := by
  refine ⟨k.rest.trans ?_, k.cfgMis.trans h.cfgMis⟩
  rw [h.rest]

theorem State.XmonOnly.setX (s : State) (e : Drive) (x : XDrive) : s.XmonOnly d (s.setX e x) := ⟨rfl, rfl⟩

theorem State.XmonOnly.ite {c : Prop} [Decidable c] (ht : s.XmonOnly d t) (hu : s.XmonOnly d u) :
    s.XmonOnly d (if c then t else u) := by
  split
  · exact ht
  · exact hu

/-- The end of a condition is no report: the header's own bit goes, and nothing else. -/
theorem State.cond_false (s : State) (p : Page) (b : Nat) (c : Copy) :
    s.cond p b c false = if s.powered p = true then s.updHdr p fun f => f.setBit c b false false else s := by
  unfold State.cond
  cases s.powered p <;> rfl

theorem State.XmonOnly.cond_false {b : Nat} (s : State) (c : Copy) (hb : 16 + d.val ≠ b) :
    s.XmonOnly d (s.cond .xmon b c false) := by
  have hKeep := s.cond_keepsBit (q := .xmon) (p := .xmon) (.inr hb) c false
  rw [State.cond_false] at hKeep ⊢
  split
  case isFalse => exact .refl s
  case isTrue hp =>
    rw [if_pos hp] at hKeep
    refine ⟨rfl, ?_⟩
    unfold State.cfgMisLive
    rw [State.fltLive_bit, State.fltLive_bit, hKeep, hKeep, hKeep, State.updHdr_hdr]
    unfold FaultHdr.evLive
    rw [FaultHdr.setBit_ev]
    rfl

/-! ## One copy's part of a tick -/

/-- The copy of half `h` after its part of a tick that starts in `s`. -/
def State.xcopy (s : State) (h : Half) (d : Drive) : XCopy :=
  if s.halfOn h = false then s.xd[d].copies.get h
  else if s.xcompares h d = false then { s.xd[d].copies.get h with skip := !s.xready h d }
  else s.xcount h d (s.xd[d].copies.get h)

/-- The drive with the copy of half `h` as its part of the tick leaves it. -/
def State.xcopied (s : State) (h : Half) (d : Drive) : XDrive := { s.xd[d] with copies := s.xd[d].copies.set h (s.xcopy h d) }

theorem Two.set_get {α : Type} (x : Two α) (h : Half) : x.set h (x.get h) = x := by cases h <;> rfl

theorem Two.get_set {α : Type} (x : Two α) (h : Half) (a : α) : (x.set h a).get h = a := by cases h <;> rfl

theorem Two.get_set_other {α : Type} (x : Two α) {h g : Half} (a : α) (hg : g ≠ h) : (x.set h a).get g = x.get g := by
  cases h
  case h0 =>
    cases g
    case h0 => exact absurd rfl hg
    case h1 => rfl
  case h1 =>
    cases g
    case h0 => rfl
    case h1 => exact absurd rfl hg

theorem State.setX_self (s : State) (d : Drive) : s.setX d s.xd[d] = s := by
  unfold State.setX
  rw [vset_self]

/-- DREF's end, which a copy's part of a tick may bring, leaves the drives alone (R242). -/
theorem State.cond_false_xd (s : State) (p : Page) (b : Nat) (c : Copy) : (s.cond p b c false).xd = s.xd := by
  rw [State.cond_false]
  split <;> rfl

section
variable {h : Half}

theorem State.xcopy_off (hOn : s.halfOn h = false) : s.xcopy h d = s.xd[d].copies.get h := if_pos hOn

theorem State.xcopy_idle (hOn : s.halfOn h = true) (hCmp : s.xcompares h d = false) :
    s.xcopy h d = { s.xd[d].copies.get h with skip := !s.xready h d } :=
  (if_neg (hOn.trans_ne (by decide : true ≠ false))).trans (if_pos hCmp)

theorem State.xcopy_compares (hOn : s.halfOn h = true) (hCmp : s.xcompares h d = true) :
    s.xcopy h d = s.xcount h d (s.xd[d].copies.get h) :=
  (if_neg (hOn.trans_ne (by decide : true ≠ false))).trans (if_neg (hCmp.trans_ne (by decide : true ≠ false)))

theorem State.xcopied_off (hOn : s.halfOn h = false) : s.xcopied h d = s.xd[d] := by
  unfold State.xcopied
  rw [State.xcopy_off hOn, Two.set_get]

end

theorem State.xcopied_get (s : State) (h : Half) (d : Drive) : (s.xcopied h d).copies.get h = s.xcopy h d := Two.get_set _ _ _

theorem State.xcopied_get_other (s : State) {h g : Half} (d : Drive) (hg : g ≠ h) :
    (s.xcopied h d).copies.get g = s.xd[d].copies.get g := Two.get_set_other _ _ hg

theorem State.xcopied_misCnt (s : State) (h : Half) (d : Drive) : (s.xcopied h d).misCnt = s.xd[d].misCnt := rfl

/-- A copy's part of a tick: its drive changes, and DREF may end. -/
theorem State.xcompare_cases (s : State) (h : Half) (d : Drive) :
    s.xcompare h d = s.setX d (s.xcopied h d) ∨
      s.xcompare h d = (s.setX d (s.xcopied h d)).cond .xmon (8 * d.val + 4) h.copy false := by
  unfold State.xcompare
  extract_lets x c c1 s1
  split
  case isTrue hOff =>
    rw [State.xcopied_off (Bool.not_eq_true' _ ▸ hOff), State.setX_self]
    exact .inl rfl
  case isFalse hOn =>
    have hOn : s.halfOn h = true := by simpa using hOn
    split
    case isTrue hIdle =>
      unfold State.xcopied
      rw [State.xcopy_idle hOn (by simpa using hIdle)]
      exact .inl rfl
    case isFalse hCmp =>
      have hSet : s1 = s.setX d (s.xcopied h d) := by
        unfold State.xcopied
        rw [State.xcopy_compares hOn (by simpa using hCmp)]
      rw [hSet]
      split
      · exact .inr rfl
      · exact .inl rfl

theorem State.xcompare_own (s : State) (h : Half) (d : Drive) : (s.xcompare h d).xd[d] = s.xcopied h d := by
  have hSet : (s.setX d (s.xcopied h d)).xd[d] = s.xcopied h d := State.setX_get _ _ _
  rcases s.xcompare_cases h d with hEq | hEq
  · rw [hEq, hSet]
  · rw [hEq]
    refine Eq.trans ?_ hSet
    exact congrArg (fun v : Vector XDrive 2 => v[d]) (State.cond_false_xd _ _ _ _)

theorem State.xcompare_only (s : State) (h : Half) (d : Drive) : s.XmonOnly d (s.xcompare h d) := by
  have hSet : s.XmonOnly d (s.setX d (s.xcopied h d)) := .setX s d _
  rcases s.xcompare_cases h d with hEq | hEq
  · rw [hEq]
    exact hSet
  · rw [hEq]
    exact hSet.trans (.cond_false _ _ (by omega))

/-! ## The whole tick -/

/-- The tick up to the comparisons: a capture of ANG_OFS takes its sample (R244). -/
def State.xmonTaken (s : State) (d : Drive) : State :=
  let raw := wrapSigned (2 ^ 24) (((s.pch[s.srcA s.lead d].pub).ang : Int) - (s.pch[s.srcB s.lead d].pub).ang)
  if s.xready s.lead d then s.setX d (s.xd[d].take raw) else s

/-- Both copies have compared. -/
def State.xmonCompared (s : State) (d : Drive) : State := ((s.xmonTaken d).xcompare .h0 d).xcompare .h1 d

theorem State.xmonTick_eq (s : State) (d : Drive) : s.xmonTick d =
    let u := s.xmonTaken d
    if u.xcompares .h0 d && u.xcompares .h1 d then (s.xmonCompared d).setX d (s.xmonCompared d).xd[d].exchange
    else s.xmonCompared d := rfl

theorem XDrive.take_copies (x : XDrive) (raw : Int) : (x.take raw).copies = x.copies ∧ (x.take raw).misCnt = x.misCnt := by
  unfold XDrive.take
  split
  · exact ⟨rfl, rfl⟩
  · exact ⟨rfl, rfl⟩

theorem State.xmonTaken_only (s : State) (d : Drive) : s.XmonOnly d (s.xmonTaken d) := .ite (.setX s d _) (.refl s)

theorem State.xmonTaken_own (s : State) (d : Drive) :
    (s.xmonTaken d).xd[d].copies = s.xd[d].copies ∧ (s.xmonTaken d).xd[d].misCnt = s.xd[d].misCnt := by
  unfold State.xmonTaken
  dsimp only
  split
  · rw [State.setX_get]
    exact XDrive.take_copies _ _
  · exact ⟨rfl, rfl⟩

theorem State.xmonTick_copies (s : State) (d : Drive) : (s.xmonTick d).xd[d].copies = (s.xmonCompared d).xd[d].copies := by
  rw [State.xmonTick_eq]
  dsimp only
  split
  · rw [State.setX_get]
    rfl
  · rfl

/-- Each copy compares in a state that differs from the one before the tick in nothing that it looks at. -/
theorem State.xmonTick_copy (s : State) (h : Half) (d : Drive) : ∃ u : State, s.XmonOnly d u ∧
    u.xd[d].copies.get h = s.xd[d].copies.get h ∧ (s.xmonTick d).xd[d].copies.get h = u.xcopy h d := by
  have hTaken := s.xmonTaken_only d
  obtain ⟨hCopies, -⟩ := s.xmonTaken_own d
  rw [State.xmonTick_copies]
  unfold State.xmonCompared
  cases h
  case h0 =>
    refine ⟨_, hTaken, congrArg (Two.get · .h0) hCopies, ?_⟩
    rw [State.xcompare_own, State.xcopied_get_other _ _ (by decide), State.xcompare_own, State.xcopied_get]
  case h1 =>
    refine ⟨_, hTaken.trans (State.xcompare_only _ .h0 d), ?_, ?_⟩
    · rw [State.xcompare_own, State.xcopied_get_other _ _ (by decide), hCopies]
    · rw [State.xcompare_own, State.xcopied_get]

/-- Of what a copy counts, all but DREF's count is the same. -/
theorem State.XmonOnly.xcount (h : s.XmonOnly d t) (g : Half) (c : XCopy) :
    t.xcount g d c = { s.xcount g d c with drefCnt := t.drefCount g d c } := by
  rw [h.rest]
  rfl

theorem State.XmonOnly.halfOn (h : s.XmonOnly d t) (g : Half) : t.halfOn g = s.halfOn g := by
  rw [h.rest]
  rfl

theorem State.XmonOnly.xcompares (h : s.XmonOnly d t) (g : Half) : t.xcompares g d = s.xcompares g d := by
  have hReady : t.xready g d = s.xready g d := by
    rw [h.rest]
    rfl
  have hEn : t.XMON_CFG_CMP_EN g d.val = s.XMON_CFG_CMP_EN g d.val := by
    rw [h.rest]
    rfl
  unfold State.xcompares
  rw [h.halfOn, hEn, h.cfgMis, hReady]

theorem XDrive.exchange_misCnt (x : XDrive) : x.exchange.misCnt =
    if (x.copies.h0.overA, x.copies.h0.overS) ≠ (x.copies.h1.overA, x.copies.h1.overS) then x.misCnt + 1 else 0 := by
  refine if_congr ?_ rfl rfl
  simp only [Bool.or_eq_true, bne_iff_ne, ne_eq, Prod.mk.injEq, not_and_or]

theorem State.xmonTick_misCnt (s : State) (d : Drive) (h0 : s.xcompares .h0 d = true) (h1 : s.xcompares .h1 d = true) :
    let x := (s.xmonTick d).xd[d]
    x.misCnt = if (x.copies.h0.overA, x.copies.h0.overS) ≠ (x.copies.h1.overA, x.copies.h1.overS) then s.xd[d].misCnt + 1 else 0 := by
  have hTaken := s.xmonTaken_only d
  have hMis : (s.xmonCompared d).xd[d].misCnt = s.xd[d].misCnt := by
    unfold State.xmonCompared
    rw [State.xcompare_own, State.xcopied_misCnt, State.xcompare_own, State.xcopied_misCnt]
    exact (s.xmonTaken_own d).2
  have hTick : (s.xmonTick d).xd[d] = (s.xmonCompared d).xd[d].exchange := by
    rw [State.xmonTick_eq]
    dsimp only
    rw [hTaken.xcompares, hTaken.xcompares, h0, h1]
    exact State.setX_get _ _ _
  intro x
  have hExchange := (s.xmonCompared d).xd[d].exchange_misCnt
  rw [hMis, ← hTick] at hExchange
  rw [State.xmonTick_copies]
  exact hExchange

theorem State.xcompares_eq (s : State) (g : Half) (d : Drive) :
    (s.halfOn g && s.XMON_CFG_CMP_EN g d.val == 1 && !s.cfgMisLive d &&
      comparable (s.pch[s.srcA g d].pub).tag && comparable (s.pch[s.srcB g d].pub).tag) = s.xcompares g d :=
  Bool.and_assoc _ _ _

end

theorem comparedTicks : Parts.ComparedTicks := by
  intro s d h hOn t c e pa pb dth ok
  have hOk (g : Half) : ok g = s.xcompares g d := s.xcompares_eq g d
  obtain ⟨u, hOnly, hSame, hCopy⟩ := s.xmonTick_copy h d
  have hOnU : u.halfOn h = true := (hOnly.halfOn h).trans hOn
  have hCmpU : u.xcompares h d = ok h := (hOnly.xcompares h).trans (hOk h).symm
  refine ⟨fun hNot => ?_, fun hCmp => ?_, fun h0 h1 => ?_⟩
  · rw [State.xcopy_idle hOnU (hCmpU.trans hNot), hSame] at hCopy
    rw [show e = _ from hCopy]
    exact ⟨rfl, rfl, rfl, rfl, rfl, rfl⟩
  · rw [State.xcopy_compares hOnU (hCmpU.trans hCmp), hSame, hOnly.xcount] at hCopy
    rw [show e = _ from hCopy]
    exact ⟨rfl, rfl, rfl, if_congr decide_eq_true_iff rfl rfl, rfl⟩
  · exact s.xmonTick_misCnt d ((hOk _).symm.trans h0) ((hOk _).symm.trans h1)

end Sys2Proof.Machine
end

section
/-! PROOFS. Verdicts of the cross-monitor (R240 to R243, R256): each is one event or condition of XMON, reported where no hold-off
window covers it. -/

namespace Sys2Proof.Machine

/-! ## What the reactions to a fault leave alone -/

/-- REACT_BUSY of page `p` runs until cycle `t` at least (R346). -/
def FaultHdr.busyTill (f : FaultHdr) (t : Nat) : FaultHdr := { f with busyUntil := max f.busyUntil t }

section
variable {R : State → State → Prop}

/-- A reaction is a sequence of handovers, safe states and device safe states, and then sets REACT_BUSY (R348): a relation that
each of these keeps holds from the state before it to the one after. -/
theorem State.react_steps (hRefl : ∀ s, R s s) (hTrans : ∀ s t u, R s t → R t u → R s u)
    (hHo : ∀ (s : State) d h p b, R s (s.reactHo d h p b)) (hSsl : ∀ (s : State) d, R s (s.setSsl d))
    (hDev : ∀ s : State, R s s.reactDev) (hBusy : ∀ (s : State) p t, R s (s.updHdr p (·.busyTill t)))
    (s : State) (p : Page) (b r : Nat) (aff : Drive → Bool) : R s (s.react p b r aff) := by
  have hIf (c : Bool) {t u : State} (h : R t u) : R t (if c then u else t) := by
    cases c
    · exact hRefl t
    · exact h
  have hAfter (u : State) (hu : R s u) : R s (if s.taken p b r aff = 0 then u else
      u.updHdr p (·.busyTill (s.clk.cyc + 2000))) := by
    split
    · exact hu
    · exact hTrans _ _ _ hu (hBusy u p _)
  unfold State.react
  cases hRel : s.boot.released
  case false => exact hRefl s
  case true =>
    refine hAfter _ ?_
    split
    · split
      · exact hRefl s
      · exact hTrans _ _ _ (hIf _ (hHo s 0 _ p b)) (hIf _ (hHo _ 1 _ p b))
    · exact hTrans _ _ _ (hIf _ (hSsl s 0)) (hIf _ (hSsl _ 1))
    · exact hDev s
    · exact hRefl s

end

theorem State.setSslAt_flt (s : State) (d : Drive) (t : Nat) : (s.setSslAt d t).flt = s.flt := by
  unfold State.setSslAt
  dsimp only
  split <;> rfl

theorem State.reactHo_flt (s : State) (d : Drive) (h : Half) (p : Page) (b : Nat) : (s.reactHo d h p b).flt = s.flt := by
  unfold State.reactHo State.askHandover
  dsimp only
  split
  · split
    · split <;> rfl
    · exact State.setSsl_flt s d
  · rfl

theorem State.reactDev_flt (s : State) : s.reactDev.flt = s.flt := by
  unfold State.reactDev
  dsimp only
  rw [State.setSsl_flt, State.setSsl_flt]
  split <;> rfl

/-! ## An instant of detection -/

/-- From `s` to `t` the instants of detection of every page stand (R347). -/
def State.SameEv (s t : State) : Prop := ∀ q, (t.hdr q).ev = (s.hdr q).ev

section
variable {s t u : State}

theorem State.SameEv.trans (h : s.SameEv t) (k : t.SameEv u) : s.SameEv u := fun q => (k q).trans (h q)

theorem State.SameEv.of_flt (h : t.flt = s.flt) : s.SameEv t := fun q => by
  unfold State.hdr
  rw [h]

theorem State.SameEv.updHdr (s : State) (p : Page) {f : FaultHdr → FaultHdr} (h : ∀ x, (f x).ev = x.ev) :
    s.SameEv (s.updHdr p f) := by
  intro q
  by_cases e : q = p
  · subst e
    rw [State.updHdr_hdr]
    exact h _
  · exact congrArg FaultHdr.ev (vset_other _ _ _ _ fun hIdx => e (Page.idx_injective hIdx))

end

theorem FaultHdr.filed_ev (f : FaultHdr) (p : Page) (r : Report) (t : Nat) (n : BitVec 64) (w : Bool) :
    (f.filed p r t n w).ev = f.ev := by
  unfold FaultHdr.filed FaultHdr.take FaultHdr.counted
  dsimp only
  (repeat' split) <;> rfl

theorem State.fileReport_sameEv (s : State) (p : Page) (r : Report) : s.SameEv (s.fileReport p r) := by
  unfold State.fileReport
  extract_lets t blaze was t1
  have hYield : s.SameEv t := .of_flt (State.yieldBlaze_flt (s.fltTriggers r.react) p r)
  have hFiled : s.SameEv t1 := hYield.trans (.updHdr t p fun x => x.filed_ev p r _ _ _)
  split
  · exact hFiled.trans (.of_flt (State.offer_flt _ _ _ _))
  · exact hFiled

theorem State.react_sameEv (s : State) (p : Page) (b r : Nat) (aff : Drive → Bool) : s.SameEv (s.react p b r aff) :=
  State.react_steps (fun _ => .of_flt rfl) (fun _ _ _ => .trans) (fun t d h q i => .of_flt (t.reactHo_flt d h q i))
    (fun t d => .of_flt (State.setSsl_flt t d)) (fun t => .of_flt t.reactDev_flt) (fun t q _ => .updHdr t q fun _ => rfl) s p b r aff

theorem State.report_sameEv (s : State) (p : Page) (b : Nat) (c : Copy) (m : Master) : s.SameEv (s.report p b c m) := by
  unfold State.report
  split
  · exact .of_flt rfl
  · refine State.SameEv.trans ?_ (State.react_sameEv _ _ _ _ _)
    refine State.SameEv.trans ?_ (State.fileReport_sameEv _ _ _)
    refine State.SameEv.trans ?_ (.updHdr _ _ fun _ => rfl)
    apply State.SameEv.of_flt
    split <;> rfl

/-- A source is live from its detection to the end of that instant (R347). -/
theorem FaultHdr.evLive_of_mem {f : FaultHdr} {b t e : Nat} (hMem : (b, e) ∈ f.ev) (ht : t < e) (hb : b < 32) :
    (f.evLive t).getLsbD b = true := by
  have hStays (l : List (Nat × Nat)) (w : Word) (hw : w.getLsbD b = true ∨ (b, e) ∈ l) :
      (l.foldl (fun w e => if t < e.2 then bput w e.1 true else w) w).getLsbD b = true := by
    induction l generalizing w with
    | nil => exact hw.resolve_right List.not_mem_nil
    | cons x l ih =>
      refine ih _ ?_
      rcases hw with hw | hw
      · left
        dsimp only
        split
        · exact bput_true _ _ _ hw
        · exact hw
      · rcases List.mem_cons.mp hw with rfl | hw
        · left
          dsimp only
          rw [if_pos ht]
          exact bput_get _ _ _ hb
        · exact .inr hw
  exact hStays f.ev 0 (.inr hMem)

theorem State.lt_eventTill (s : State) (p : Page) : s.clk.cyc < s.eventTill p := by
  unfold State.eventTill
  split <;> omega

theorem State.event_eq {s : State} {p : Page} {b : Nat} (h : s.reports p b = true) (c : Copy) :
    s.event p b c = (s.flash p b).report p b c .detector := by
  obtain ⟨hPower, hFree⟩ := Bool.and_eq_true_iff.mp h
  unfold State.event
  rw [hPower, (Bool.not_eq_true' _).mp hFree]
  rfl

/-- A fault that is reported is live in the cycle of its detection (R256, R347). -/
theorem State.event_live {s : State} {p : Page} {b : Nat} (h : s.reports p b = true) (hb : b < 32) (c : Copy) :
    ((s.event p b c).fltLive p).getLsbD b = true := by
  have hClk : (s.event p b c).clk = s.clk := State.clk_of_quiet (State.event_quiet s p b c)
  have hMem : (b, s.eventTill p) ∈ ((s.event p b c).hdr p).ev := by
    rw [State.event_eq h, (s.flash p b).report_sameEv p b c .detector p]
    unfold State.flash
    rw [State.updHdr_hdr]
    exact List.mem_cons_self
  rw [State.fltLive_bit, FaultHdr.evLive_of_mem hMem (hClk ▸ s.lt_eventTill p) hb, Bool.or_true, Bool.true_or]

/-! ## Verdicts -/

/-- A drive that changes in its comparison alone changes no hold-off window. -/
theorem State.setX_reports (s : State) (d : Drive) {x : XDrive} (hHo : x.holdHo = s.xd[d].holdHo)
    (hLoss : x.holdLoss = s.xd[d].holdLoss) (b : Nat) : (s.setX d x).reports .xmon b = s.reports .xmon b := by
  have hWin (e : Drive) : (s.setX d x).xd[e].holdHo = s.xd[e].holdHo ∧ (s.setX d x).xd[e].holdLoss = s.xd[e].holdLoss := by
    by_cases he : e = d
    · subst he
      rw [State.setX_get]
      exact ⟨hHo, hLoss⟩
    · rw [State.setX_get_other _ _ _ _ he]
      exact ⟨rfl, rfl⟩
  have hHold : (s.setX d x).holdWin .xmon b = s.holdWin .xmon b := by
    unfold State.holdWin
    simp only [(hWin _).1]
  have hEnd : (s.setX d x).lossEnd .xmon b = s.lossEnd .xmon b := by
    unfold State.lossEnd
    simp only [(hWin _).2]
  unfold State.reports State.heldOff
  rw [hHold, hEnd]
  rfl

theorem State.dropCapture_setX (s : State) (d : Drive) (x : XDrive) :
    (s.setX d x).dropCapture d = s.setX d { x with capBusy := false, capCnt := 0, capSum := 0 } := by
  unfold State.dropCapture
  rw [State.setX_get]
  exact congrArg (fun v => { s with xd := v }) (vset_vset _ _ _ _)

/-- The source of a speed divergence is one of SPD_DIV, ACT_BAD and MON_BAD. -/
theorem State.spdSource_lt (s : State) (h : Half) (d : Drive) (b : Option Bool) : s.spdSource h d b < 4 := by
  have hBad (c : Prop) [Decidable c] : (if c then 2 else 3) < 4 := by split <;> decide
  unfold State.spdSource
  cases b
  case none => exact (by decide : 1 < 4)
  case some a =>
    cases s.judgedSrc d
    case none => exact (by decide : 2 < 4)
    case some m => exact hBad _

section
variable {s : State} {d : Drive} {h : Half}

theorem exec_angDiv_early (hCnt : (s.xd[d].copies.get h).angCnt < s.divTicks h d) : exec (.angDiv d h) s = .next s :=
  if_neg fun hDue => Nat.not_le_of_lt hCnt (of_decide_eq_true (Bool.and_eq_true_iff.mp hDue).2)

theorem exec_spdDiv_early (hCnt : (s.xd[d].copies.get h).spdCnt < s.divTicks h d) : exec (.spdDiv d h) s = .next s :=
  if_neg fun hDue => Nat.not_le_of_lt hCnt (of_decide_eq_true (Bool.and_eq_true_iff.mp hDue).2)

/-- The drive once the copy of half `h` has declared a divergence: `k` is that copy, a capture of ANG_OFS has ended (R244). -/
def XDrive.declared (x : XDrive) (h : Half) (k : XCopy) (blame : Nat) (at' : Option Nat) : XDrive :=
  { x with copies := x.copies.set h k, blame := blame, angAt := at', capBusy := false, capCnt := 0, capSum := 0 }

theorem State.declared_reports (s : State) (d : Drive) (h : Half) (k : XCopy) (blame : Nat) (at' : Option Nat) (b : Nat) :
    (s.setX d (s.xd[d].declared h k blame at')).reports .xmon b = s.reports .xmon b :=
  State.setX_reports s d (x := s.xd[d].declared h k blame at') rfl rfl b

theorem exec_angDiv_due (hOn : s.halfOn h = true) (hCnt : s.divTicks h d ≤ (s.xd[d].copies.get h).angCnt) :
    exec (.angDiv d h) s = .next ((s.setX d (s.xd[d].declared h { s.xd[d].copies.get h with angCnt := 0 } 3 (some s.clk.cyc))).event
      .xmon (8 * d.val) h.copy) := by
  refine (if_pos (Bool.and_eq_true_iff.mpr ⟨hOn, decide_eq_true hCnt⟩)).trans ?_
  rw [State.dropCapture_setX]
  rfl

/-- BLAME after a speed divergence (R241); a divergence in angle of the same cycle prevails (Table 10.2). -/
def State.spdBlame (s : State) (h : Half) (d : Drive) : Nat :=
  if s.xd[d].angAt = some s.clk.cyc ∨ s.arbitrate h d = none then 3 else if s.arbitrate h d = some true then 1 else 2

theorem exec_spdDiv_due (hOn : s.halfOn h = true) (hCnt : s.divTicks h d ≤ (s.xd[d].copies.get h).spdCnt) :
    exec (.spdDiv d h) s = .next
      ((s.setX d (s.xd[d].declared h { s.xd[d].copies.get h with spdCnt := 0 } (s.spdBlame h d) s.xd[d].angAt)).event
        .xmon (8 * d.val + s.spdSource h d (s.arbitrate h d)) h.copy) := by
  refine (if_pos (Bool.and_eq_true_iff.mpr ⟨hOn, decide_eq_true hCnt⟩)).trans ?_
  rw [State.dropCapture_setX]
  unfold State.spdBlame
  by_cases hAng : s.xd[d].angAt = some s.clk.cyc
  · simp only [hAng, true_or, if_true]
    rfl
  · simp only [hAng, false_or, if_false]
    rcases s.arbitrate h d with _ | _ | _ <;> rfl

theorem exec_dref (hOn : s.halfOn h = true) (hRef : s.XMON_CFG_REF_EN h d.val = 1)
    (hCnt : s.divTicks h d ≤ (s.xd[d].copies.get h).drefCnt) (hIn : (s.xd[d].copies.get h).overS = false) :
    exec (.dref d h) s = .next (s.cond .xmon (8 * d.val + 4) h.copy true) := by
  refine if_pos ?_
  rw [hOn, hRef, hIn, decide_eq_true hCnt]
  rfl

end

theorem crossMonitorVerdicts : Parts.CrossMonitorVerdicts := by
  intro s d h x c put b
  have hd := d.isLt
  refine ⟨fun hOn hCnt => ?_, exec_angDiv_early, fun hOn hCnt => ?_, exec_spdDiv_early, fun hOn hRef hCnt hIn => ?_,
    fun hCnt => ?_, fun hCnt => if_neg (Nat.not_le_of_lt hCnt)⟩
  · refine ⟨_, exec_angDiv_due hOn hCnt, State.event_quiet _ _ _ _, fun hRep => ?_⟩
    rw [← State.declared_reports s d h] at hRep
    exact ⟨State.event_sticky _ _ _ _ hRep (by omega), State.event_live hRep (by omega) _⟩
  · refine ⟨_, exec_spdDiv_due hOn hCnt, State.event_quiet _ _ _ _, fun hRep => ?_⟩
    have hSource : s.spdSource h d (s.arbitrate h d) < 4 := s.spdSource_lt h d b
    rw [← State.declared_reports s d h] at hRep
    exact State.event_sticky _ _ _ _ hRep (by omega)
  · refine ⟨_, exec_dref hOn hRef hCnt hIn, State.cond_quiet _ _ _ _ _, fun hRep => ?_⟩
    obtain ⟨hPower, hFree⟩ := Bool.and_eq_true_iff.mp hRep
    exact State.cond_live s .xmon _ _ true hPower (by omega) ((Bool.not_eq_true' _).mp hFree)
  · refine ⟨_, if_pos hCnt, State.event_quiet _ _ _ _, fun hRep => ?_⟩
    rw [← State.setX_reports s d (x := { x with misCnt := 1 }) rfl rfl] at hRep
    exact State.event_sticky _ _ _ _ hRep (by omega)

/-! ## Offset capture (R244) -/

/-- One copy's half on, and an access to a duplicated register goes through (R359). -/
theorem State.dup_on {s : State} (h : s.halfOn .h0 = true ∨ s.halfOn .h1 = true) (a : Nat) (r : Status × State) : s.dup a r = r :=
  if_pos (Bool.or_eq_true_iff.mpr h)

theorem State.ofsCap_busy {s : State} {d : Drive} (h : s.xd[d].capBusy = true) : s.ofsCap d = s := if_pos h

theorem State.ofsCap_idle {s : State} {d : Drive} (h : s.xd[d].capBusy = false) :
    s.ofsCap d = s.setX d { s.xd[d] with capBusy := true, capCnt := 0, capSum := 0 } := if_neg (h ▸ Bool.false_ne_true)

theorem exec_ofsCap {s : State} (h : s.halfOn .h0 = true ∨ s.halfOn .h1 = true) (d : Drive) :
    exec (.ofsCap d) s = .next { s.ofsCap d with wst := .ok } := by
  change finish (s.dup _ _) = _
  rw [State.dup_on h]
  rfl

/-- A write of both copies keeps what a write of one keeps. -/
theorem State.setDup_keeps {α : Type} {f : State → α} (h : ∀ s a v, f (State.setReg s a v) = f s) (s : State) (a : Nat) (v : Word) :
    f (s.setDup a v) = f s := by
  unfold State.setDup
  extract_lets s1
  have hFirst : f s1 = f s := by
    unfold s1
    split
    · exact h _ _ _
    · rfl
  split
  · exact (h _ _ _).trans hFirst
  · exact hFirst

/-- The captured mean of drive `d` as the word of ANG_OFS, rounded half up (R244). -/
def State.ofsMean (s : State) (d : Drive) : Word := Word.put 0 24 (wrapInt 24 ((2 * s.xd[d].capSum + 1024) / 2048))

/-- ANG_OFS of drive `d` takes the word `v` in both copies, the encoder frames follow, and the capture is over. -/
def State.ofsTaken (s : State) (d : Drive) (v : Word) : State :=
  let t := (s.setDup (xmonAddr d 0x10) v).reframeAll s
  t.setX d { t.xd[d] with capBusy := false, capCnt := 0, capSum := 0 }

theorem exec_ofsCapDone {s : State} {d : Drive} (hBusy : s.xd[d].capBusy = true) (hCnt : 1024 ≤ s.xd[d].capCnt) :
    exec (.ofsCapDone d) s = .next (s.encFollowAll.ofsTaken d (s.ofsMean d)) :=
  if_pos (Bool.and_eq_true_iff.mpr ⟨hBusy, decide_eq_true hCnt⟩)

theorem State.ofsTaken_xd (s : State) (d : Drive) (v : Word) :
    (s.ofsTaken d v).xd = vset s.xd d { s.xd[d] with capBusy := false, capCnt := 0, capSum := 0 } := by
  have hXd : (s.setDup (xmonAddr d 0x10) v).xd = s.xd := State.setDup_keeps State.setReg_xd s _ v
  rw [← hXd]
  rfl

theorem State.ofsTaken_gen (s : State) (d : Drive) (v : Word) :
    (s.ofsTaken d v).gen = { s.gen with frm := (s.ofsTaken d v).gen.frm } := by
  have hGen : (s.setDup (xmonAddr d 0x10) v).gen = s.gen := State.setDup_keeps State.setReg_gen s _ v
  rw [← hGen]
  rfl

theorem State.ofsTaken_rest (s : State) (d : Drive) (v : Word) : s.ofsTaken d v =
    { s.setDup (xmonAddr d 0x10) v with xd := (s.ofsTaken d v).xd, gen := (s.ofsTaken d v).gen } := rfl

theorem offsetCapture : Parts.OffsetCapture := by
  intro s d hOn x idle
  refine ⟨fun hBusy => ?_, fun hIdle => ?_, fun _ hCnt => ?_, fun hBusy hCnt => ?_⟩
  · rw [exec_ofsCap hOn, State.ofsCap_busy hBusy]
  · rw [exec_ofsCap hOn, State.ofsCap_idle hIdle]
    rfl
  · exact if_neg fun hDone => Nat.not_le_of_lt hCnt (of_decide_eq_true (Bool.and_eq_true_iff.mp hDone).2)
  · exact ⟨_, exec_ofsCapDone hBusy hCnt, State.ofsTaken_xd _ d _, State.ofsTaken_gen _ d _, State.ofsTaken_rest _ d _⟩

/-- Settles O27: a tick by what each copy sees of it, the verdicts by the one report that each makes, a capture by whether one runs
and has its 1,024 ticks. -/
theorem crossMonitoring : Obligations.CrossMonitoring := ⟨comparedTicks, crossMonitorVerdicts, offsetCapture⟩

end Sys2Proof.Machine
end

section
/-! PROOFS. What the operations around the authority latch leave alone (R247 to R252): a drive changes in its requests and hold-off
windows at most, whatever the encoder outputs, the scheduler and the tags do, and no sticky bit and no safe state is taken back. -/

namespace Sys2Proof.Machine

/-! ## Drives without their requests -/

/-- The drives without what a request and a hold-off window change. -/
def State.drives (s : State) : Vector XDrive 2 := s.xd.map XDrive.quiet

theorem State.drives_get (s : State) (d : Drive) : s.drives[d] = (s.xd[d]).quiet := Vector.getElem_map _ _

theorem State.drives_of_quiet {s t : State} (h : t.quiet = s.quiet) : t.drives = s.drives := by
  have hXd := congrArg State.xd h
  exact hXd

theorem State.drive_of_drives {s t : State} (h : t.drives = s.drives) (d : Drive) : (t.xd[d]).quiet = (s.xd[d]).quiet := by
  rw [← State.drives_get, ← State.drives_get, h]

/-- A fold over operations that keep a view keeps it. -/
theorem foldl_keeps {α β : Type} {view : State → β} {g : State → α → State} (h : ∀ s x, view (g s x) = view s) (l : List α)
    (s : State) : view (l.foldl g s) = view s :=
  List.foldlRecOn (motive := fun t => view t = view s) l g rfl fun t ht x _ => (h t x).trans ht

/-! ## Encoder outputs -/

/-- What the encoder outputs leave alone as they follow their angles, preset and change copy: all but their own ledgers and what
a report changes. -/
def State.encView (s : State) : State × Vector XDrive 2 × Vector Pch 8 := (s.apart, s.drives, s.pch)

theorem State.apart_of_encView {s t : State} (h : t.encView = s.encView) : t.apart = s.apart := congrArg Prod.fst h

theorem State.drives_of_encView {s t : State} (h : t.encView = s.encView) : t.drives = s.drives :=
  congrArg (fun v : State × Vector XDrive 2 × Vector Pch 8 => v.2.1) h

theorem State.pch_of_encView {s t : State} (h : t.encView = s.encView) : t.pch = s.pch :=
  congrArg (fun v : State × Vector XDrive 2 × Vector Pch 8 => v.2.2) h

theorem State.encView_of_quiet {s t : State} (h : t.quiet = s.quiet) : t.encView = s.encView := by
  unfold State.encView
  rw [State.apart_of_quiet h, State.drives_of_quiet h, State.pch_of_tickView (State.tickView_of_quiet h)]

@[simp] theorem State.setEnc_encView (s : State) (n : Fin 4) (x : Enc) : (s.setEnc n x).encView = s.encView := rfl

@[simp] theorem State.tallyEvent_encView (s : State) (n : Fin 4) (code : Nat) (j : Int) :
    (s.tallyEvent n code j).encView = s.encView := State.encView_of_quiet (State.offer_quiet _ _ _ _)

@[simp] theorem State.cond_encView (s : State) (p : Page) (b : Nat) (c : Copy) (v : Bool) :
    (s.cond p b c v).encView = s.encView := State.encView_of_quiet (State.cond_quiet _ _ _ _ _)

@[simp] theorem State.encView_ite (c : Prop) [Decidable c] (a b : State) :
    (if c then a else b).encView = if c then a.encView else b.encView := apply_ite _ _ _ _

@[simp] theorem State.judgeTally_encView (s : State) (n : Fin 4) : (s.judgeTally n).encView = s.encView := by
  unfold State.judgeTally
  simp

@[simp] theorem State.encFollow_encView (s : State) (n : Fin 4) : (s.encFollow n).encView = s.encView := by
  unfold State.encFollow
  simp

@[simp] theorem State.encFollowAll_encView (s : State) : s.encFollowAll.encView = s.encView :=
  foldl_keeps State.encFollow_encView _ _

@[simp] theorem State.presetDo_encView (s : State) (n : Fin 4) : (s.presetDo n).encView = s.encView := by
  unfold State.presetDo
  simp

theorem State.presetLate_encView (s : State) (d : Drive) : (s.presetLate d).encView = s.encView :=
  foldl_keeps (fun t n => by simp) _ _

theorem State.encLatch_encView (s : State) (d : Drive) (h : Half) : (s.encLatch d h).encView = s.encView :=
  foldl_keeps (fun t n => by simp) _ _

/-! ## Tags -/

/-- A tag set: the outputs follow their angles first where the set in use is tagged, then channel `n` and the generators change, and
drives may freeze. -/
theorem State.setTag_steps (s : State) (n : Fin 8) (tag : BitVec 8) : ∃ (u : State) (x : Pch) (g : Gen) (c : Bool),
    u.encView = s.encView ∧
      s.setTag n tag = if c then ({ u.setPch n x with gen := g } : State).freezeLost else { u.setPch n x with gen := g } := by
  unfold State.setTag
  extract_lets u x g put g1 s1
  refine ⟨u, _, g1, _, ?_, rfl⟩
  unfold u
  split
  · exact s.encFollowAll_encView
  · rfl

theorem State.setTag_drives (s : State) (n : Fin 8) (tag : BitVec 8) : (s.setTag n tag).drives = s.drives := by
  obtain ⟨u, x, g, c, hView, hEq⟩ := s.setTag_steps n tag
  rw [hEq, ← State.drives_of_encView hView]
  cases c
  · rfl
  · rfl

theorem State.setTag_pch_other (s : State) {n k : Fin 8} (h : k ≠ n) (tag : BitVec 8) : (s.setTag n tag).pch[k] = s.pch[k] := by
  obtain ⟨u, x, g, c, hView, hEq⟩ := s.setTag_steps n tag
  have hOther : (u.setPch n x).pch[k] = s.pch[k] := by
    rw [← State.pch_of_encView hView]
    exact vset_other _ _ _ _ h
  rw [hEq]
  cases c
  · exact hOther
  · exact hOther

theorem State.retag_drives (s : State) (n : Fin 8) : (s.retag n).drives = s.drives := State.setTag_drives s n _

theorem State.retag_pch_other (s : State) {n k : Fin 8} (h : k ≠ n) : (s.retag n).pch[k] = s.pch[k] :=
  State.setTag_pch_other s h _

theorem State.retagDrive_apart (s : State) (d : Drive) : (s.retagDrive d).apart = s.apart :=
  foldl_keeps (fun t n => by
    split
    · exact t.retag_apart n
    · rfl) _ _

theorem State.retagDrive_drives (s : State) (d : Drive) : (s.retagDrive d).drives = s.drives :=
  foldl_keeps (fun t n => by
    split
    · exact t.retag_drives n
    · rfl) _ _

theorem State.names_of_regView {s t : State} (h : t.regView = s.regView) (d : Drive) (n : Nat) : t.names d n = s.names d n := by
  unfold State.names State.XMON_CFG_SRC_A State.XMON_CFG_SRC_B State.regH
  rw [State.lead_of_pwr (congrArg RegView.pwr h), State.reg_of_regView h]

/-- The tags of a drive's channels follow its latch; no other channel changes (R252). -/
theorem State.retagDrive_pch_other (s : State) {d : Drive} {n : Fin 8} (h : s.names d n.val = false) :
    (s.retagDrive d).pch[n] = s.pch[n] := by
  have hStep : (s.retagDrive d).apart = s.apart ∧ (s.retagDrive d).pch[n] = s.pch[n] := by
    refine List.foldlRecOn (motive := fun t : State => t.apart = s.apart ∧ t.pch[n] = s.pch[n]) _ _ ⟨rfl, rfl⟩ fun t ht k _ => ?_
    obtain ⟨hApart, hSame⟩ := ht
    split
    case isFalse => exact ⟨hApart, hSame⟩
    case isTrue hNamed =>
      have hOther : n ≠ k := by
        rintro rfl
        rw [State.names_of_regView (State.regView_of_apart hApart), h] at hNamed
        exact Bool.false_ne_true hNamed
      exact ⟨(t.retag_apart k).trans hApart, (t.retag_pch_other hOther).trans hSame⟩
  exact hStep.2

/-! ## The scheduler -/

/-- What a move of the latch leaves alone: registers and domains, the FRAM, the clock, and the drives but for their requests. -/
structure HandView where
  reg : RegView
  fram : List Host.Cell
  clk : Clk
  drives : Vector XDrive 2

/-- Those parts of `s`. -/
def State.handView (s : State) : HandView := ⟨s.regView, s.fram, s.clk, s.drives⟩

theorem State.handView_of_apart {s t : State} (h : t.apart = s.apart) (hDrives : t.drives = s.drives) : t.handView = s.handView := by
  have hFram := congrArg State.fram h
  have hClk := congrArg State.clk h
  change t.fram = s.fram at hFram
  change t.clk = s.clk at hClk
  unfold State.handView
  rw [State.regView_of_apart h, hFram, hClk, hDrives]

theorem State.handView_of_encView {s t : State} (h : t.encView = s.encView) : t.handView = s.handView :=
  State.handView_of_apart (State.apart_of_encView h) (State.drives_of_encView h)

theorem State.handView_of_quiet {s t : State} (h : t.quiet = s.quiet) : t.handView = s.handView :=
  State.handView_of_encView (State.encView_of_quiet h)

theorem State.cond_handView (s : State) (p : Page) (b : Nat) (c : Copy) (v : Bool) :
    (s.cond p b c v).handView = s.handView := State.handView_of_quiet (State.cond_quiet _ _ _ _ _)

theorem State.presetSlot_handView (s : State) (i : Fin 256) : (s.presetSlot i).handView = s.handView := by
  unfold State.presetSlot
  dsimp only
  split
  · rfl
  · rfl

theorem State.presetDrive_handView (s : State) (d : Drive) : (s.presetDrive d).handView = s.handView :=
  foldl_keeps (fun t i => by
    split
    · exact t.presetSlot_handView i
    · rfl) _ _

theorem State.judgeFreeze_handView (s : State) (d : Drive) : (s.judgeFreeze d).handView = s.handView := by
  unfold State.judgeFreeze
  extract_lets was ok a s1
  split
  · exact s1.presetDrive_handView d
  · rfl

theorem State.driveOut_handView (s : State) (n : Fin 8) (place : Nat) (op : OutOp) :
    (s.driveOut n place op).handView = s.handView := by
  unfold State.driveOut
  extract_lets o o1 pad a p s1
  split
  · exact State.cond_handView s1 _ _ _ _
  · rfl

theorem State.slotAct_handView (s : State) (i : Fin 256) : (s.slotAct i).handView = s.handView := by
  unfold State.slotAct
  extract_lets x n dup
  split
  · rfl
  split
  · split
    · exact State.driveOut_handView _ _ _ _
    · rfl
  · split
    · rfl
    · rfl

theorem State.slotStep_handView (s : State) (i : Fin 256) (up late : Bool) : (s.slotStep i up late).handView = s.handView := by
  unfold State.slotStep
  extract_lets x fire y s1 a s2
  split
  · exact s2.slotAct_handView i
  · rfl

theorem State.slotLatch_handView (s : State) (h : Half) (i : Fin 256) : (s.slotLatch h i).handView = s.handView := by
  unfold State.slotLatch
  dsimp only
  split
  · rfl
  split
  · rfl
  split
  · rfl
  split
  · exact State.slotStep_handView _ _ _ _
  · rfl

theorem State.aevLatch_handView (s : State) (d : Drive) (h : Half) : (s.aevLatch d h).handView = s.handView := by
  unfold State.aevLatch
  extract_lets valid
  split
  · exact foldl_keeps (fun t i => by
      split
      · exact t.slotLatch_handView h i
      · rfl) _ _
  · exact s.judgeFreeze_handView d

theorem State.ownReact_quiet (s : State) (d : Drive) (h : Half) : (s.ownReact d h).quiet = s.quiet := by
  unfold State.ownReact
  split
  · exact State.reactHo_quiet _ _ _ _ _
  · exact State.reactHo_quiet _ _ _ _ _
  · rfl

/-! ## What no fault takes back -/

/-- SSL of drive `d` is set in both halves and REL is clear (R305). -/
def State.latched (s : State) (d : Drive) : Prop := s.safe[d].ssl = ⟨true, true⟩ ∧ s.safe[d].rel = false

/-- From `s` to `t` faults may have been raised: no sticky bit and no safe state has gone. -/
structure State.Raises (s t : State) : Prop where
  sticky : s.StickyUp t
  safe : ∀ d, s.latched d → t.latched d

section
variable {s t u : State}

theorem State.Raises.refl (s : State) : s.Raises s := ⟨.refl s, fun _ h => h⟩

theorem State.Raises.trans (h : s.Raises t) (k : t.Raises u) : s.Raises u :=
  ⟨h.sticky.trans k.sticky, fun d hd => k.safe d (h.safe d hd)⟩

theorem State.latched_of_safe {d : Drive} (h : t.safe = s.safe) (hd : s.latched d) : t.latched d := by
  unfold State.latched at *
  rw [h]
  exact hd

theorem State.Raises.of_eq (hFlt : t.flt = s.flt) (hSafe : t.safe = s.safe) : s.Raises t :=
  ⟨.of_flt hFlt, fun _ => State.latched_of_safe hSafe⟩

theorem State.Raises.foldl {α : Type} {g : State → α → State} (h : ∀ (s : State) x, s.Raises (g s x)) (l : List α) (s : State) :
    s.Raises (l.foldl g s) :=
  List.foldlRecOn (motive := s.Raises) l g (.refl s) fun t ht x _ => ht.trans (h t x)

end

/-- The forms of the halves are no part of the latch. -/
theorem State.reform_latched (s : State) (d : Drive) : s.reform.latched d ↔ s.latched d := by
  have hSafe : s.reform.safe[d] = { s.safe[d] with form := ⟨s.formOf d .h0, s.formOf d .h1⟩ } :=
    Vector.getElem_ofFn _
  unfold State.latched
  rw [hSafe]

theorem State.setSslAt_latched (s : State) (d : Drive) (t : Nat) : (s.setSslAt d t).latched d := by
  unfold State.setSslAt
  dsimp only
  rw [State.reform_latched]
  unfold State.latched
  split
  · dsimp only
    rw [vset_same]
    exact ⟨rfl, rfl⟩
  · dsimp only
    rw [vset_same]
    exact ⟨rfl, rfl⟩

theorem State.setSslAt_latched_other (s : State) {d e : Drive} (h : e ≠ d) (t : Nat) (he : s.latched e) :
    (s.setSslAt d t).latched e := by
  unfold State.setSslAt
  dsimp only
  rw [State.reform_latched]
  unfold State.latched
  split
  · dsimp only
    rw [vset_other _ _ _ _ h]
    exact he
  · dsimp only
    rw [vset_other _ _ _ _ h]
    exact he

theorem State.setSslAt_raises (s : State) (d : Drive) (t : Nat) : s.Raises (s.setSslAt d t) where
  sticky := .of_flt (s.setSslAt_flt d t)
  safe e he := by
    by_cases h : e = d
    · subst h
      exact s.setSslAt_latched e t
    · exact s.setSslAt_latched_other h t he

theorem State.setSsl_raises (s : State) (d : Drive) : s.Raises (s.setSsl d) := s.setSslAt_raises d _

theorem State.reactHo_raises (s : State) (d : Drive) (h : Half) (p : Page) (b : Nat) : s.Raises (s.reactHo d h p b) := by
  unfold State.reactHo
  split
  · split
    · unfold State.askHandover
      dsimp only
      split
      · exact .refl s
      · exact .of_eq rfl rfl
    · exact s.setSsl_raises d
  · exact .of_eq rfl rfl

theorem State.reactDev_raises (s : State) : s.Raises s.reactDev := by
  unfold State.reactDev
  extract_lets t s1 a s2
  have hOpened : s.Raises s2 := by
    unfold s2
    split
    · exact .of_eq rfl rfl
    · exact .of_eq rfl rfl
  exact (hOpened.trans (s2.setSsl_raises 0)).trans (State.setSsl_raises _ 1)

theorem State.updHdr_raises (s : State) (p : Page) {f : FaultHdr → FaultHdr}
    (h : ∀ x b, x.sticky.getLsbD b = true → (f x).sticky.getLsbD b = true) : s.Raises (s.updHdr p f) :=
  ⟨s.updHdr_stickyUp p f h, fun _ => State.latched_of_safe rfl⟩

theorem State.react_raises (s : State) (p : Page) (b r : Nat) (aff : Drive → Bool) : s.Raises (s.react p b r aff) :=
  State.react_steps (fun t => .refl t) (fun _ _ _ => .trans) (fun t => t.reactHo_raises) (fun t => t.setSsl_raises)
    (fun t => t.reactDev_raises) (fun t q _ => t.updHdr_raises q fun _ _ h => h) s p b r aff

theorem State.offer_safe (s : State) (i : Fin 64) (src : Nat) (l : List Byte) : (s.offer i src l).safe = s.safe := by
  unfold State.offer State.settle
  dsimp only
  split <;> rfl

theorem State.fileReport_safe (s : State) (p : Page) (r : Report) : (s.fileReport p r).safe = s.safe := by
  have hYield : ((s.fltTriggers r.react).yieldBlaze p r).safe = s.safe := by
    unfold State.yieldBlaze
    dsimp only
    split
    · split <;> rfl
    · rfl
  unfold State.fileReport
  dsimp only
  split
  · exact (State.offer_safe _ _ _ _).trans hYield
  · exact hYield

theorem State.report_raises (s : State) (p : Page) (b : Nat) (c : Copy) (m : Master) : s.Raises (s.report p b c m) := by
  refine ⟨s.report_stickyUp p b c m, ?_⟩
  unfold State.report
  split
  · exact fun _ h => h
  · intro d hd
    refine (State.react_raises _ _ _ _ _).safe d (State.latched_of_safe (State.fileReport_safe _ _ _) ?_)
    refine State.latched_of_safe ?_ hd
    dsimp only
    split <;> rfl

theorem State.event_raises (s : State) (p : Page) (b : Nat) (c : Copy) : s.Raises (s.event p b c) := by
  refine ⟨s.event_stickyUp p b c, ?_⟩
  unfold State.event
  split
  · exact fun _ h => h
  split
  · exact fun _ => State.latched_of_safe rfl
  · exact fun d hd => ((s.flash p b).report_raises p b c .detector).safe d (State.latched_of_safe rfl hd)

theorem State.cond_raises (s : State) (p : Page) (b : Nat) (c : Copy) (v : Bool) : s.Raises (s.cond p b c v) := by
  refine ⟨s.cond_stickyUp p b c v, ?_⟩
  have hSet (f : FaultHdr → FaultHdr) (d : Drive) (hd : s.latched d) : (s.updHdr p f).latched d := State.latched_of_safe rfl hd
  unfold State.cond
  split
  · exact fun _ h => h
  split
  · exact hSet _
  split
  · exact hSet _
  split
  · exact fun _ => State.latched_of_safe rfl
  split
  · exact hSet _
  · exact fun d hd => (State.report_raises _ _ _ _ _).safe d (hSet _ d hd)

theorem State.tallyEvent_raises (s : State) (n : Fin 4) (code : Nat) (j : Int) : s.Raises (s.tallyEvent n code j) :=
  .of_eq (State.offer_flt _ _ _ _) (State.offer_safe _ _ _ _)

theorem State.setEnc_raises (s : State) (n : Fin 4) (x : Enc) : s.Raises (s.setEnc n x) := .of_eq rfl rfl

theorem State.Raises.ite {s t u : State} {c : Prop} [Decidable c] (ht : s.Raises t) (hu : s.Raises u) :
    s.Raises (if c then t else u) := by
  split
  · exact ht
  · exact hu

theorem State.judgeTally_raises (s : State) (n : Fin 4) : s.Raises (s.judgeTally n) := by
  unfold State.judgeTally
  extract_lets x m hi ovf s1 s2 s3
  have hSet : s.Raises s1 := State.setEnc_raises s n _
  have hHi : s1.Raises s2 := .ite (State.tallyEvent_raises _ _ _ _) (.ite (State.tallyEvent_raises _ _ _ _) (.refl s1))
  have hOvf : s2.Raises s3 := .ite (State.tallyEvent_raises _ _ _ _) (.refl s2)
  exact ((hSet.trans hHi).trans hOvf).trans ((State.cond_raises _ _ _ _ _).trans (State.cond_raises _ _ _ _ _))

theorem State.presetDo_raises (s : State) (n : Fin 4) : s.Raises (s.presetDo n) :=
  ((State.setEnc_raises _ _ _).trans (State.tallyEvent_raises _ _ _ _)).trans (State.judgeTally_raises _ _)

theorem State.presetLate_raises (s : State) (d : Drive) : s.Raises (s.presetLate d) :=
  State.Raises.foldl (fun t n => .ite (.ite (t.setEnc_raises n _) (t.presetDo_raises n)) (.refl t)) _ _

end Sys2Proof.Machine
end

section
/-! PROOFS. Moves of the authority latch (R247 to R252, Table 10.1). -/

namespace Sys2Proof.Machine

/-- Drives that differ in their requests and hold-off windows alone agree on authority and handover. -/
theorem XDrive.fields_of_quiet {x y : XDrive} (h : x.quiet = y.quiet) : x.claim = y.claim ∧ x.conflict = y.conflict ∧
    x.busy = y.busy ∧ x.taking = y.taking ∧ x.orphan = y.orphan ∧ x.hoCnt = y.hoCnt ∧ x.hoCause = y.hoCause ∧
    x.takeCause = y.takeCause ∧ x.takeAt = y.takeAt := by
  simp only [XDrive.quiet, XDrive.mk.injEq] at h
  tauto

theorem State.fields_of_handView {s t : State} (h : t.handView = s.handView) :
    t.clk = s.clk ∧ t.regView = s.regView ∧ t.fram = s.fram ∧ t.drives = s.drives :=
  ⟨congrArg HandView.clk h, congrArg HandView.reg h, congrArg HandView.fram h, congrArg HandView.drives h⟩

theorem State.routAll_handView (s : State) : s.routAll.handView = s.handView := rfl

/-! ## The move -/

/-- The drive after a move of its latch to half `h` at cycle `cyc` and TIME `now` (R249). -/
def XDrive.moved (x : XDrive) (h : Half) (cause cyc : Nat) (now : BitVec 64) : XDrive :=
  { x with
    claim := (Two.mk false false).set h true, conflict := false, noHolderSince := none, busy := false, taking := none, orphan := none
    wasHeld := if x.claim.get h.other then some h.other else if x.claim.get h then some h else none, movedAt := cyc
    hoCause := cause, hoCnt := min 65535 (x.hoCnt + 1), hoTime := now }

/-- The drive as the move of its latch leaves it, before outputs, slots and tags follow. -/
def State.latchMoved (s0 : State) (d : Drive) (h : Half) (cause : Nat) : State :=
  let s := s0.encFollowAll
  s.setX d (s.xd[d].moved h cause s.clk.cyc s.now)

theorem State.setX_regView (s : State) (d : Drive) (x : XDrive) : (s.setX d x).regView = s.regView := rfl

/-- The move itself changes the drive alone; bringing the outputs up to the instant before it changes no register and no clock. -/
theorem State.latchMoved_rest (s : State) (d : Drive) (h : Half) (cause : Nat) : (s.latchMoved d h cause).clk = s.clk ∧
    (s.latchMoved d h cause).regView = s.regView ∧ (s.latchMoved d h cause).fram = s.fram := by
  obtain ⟨hClk, hReg, hFram, -⟩ := State.fields_of_handView (State.handView_of_encView s.encFollowAll_encView)
  unfold State.latchMoved
  dsimp only
  rw [State.setX_clk, State.setX_regView, State.setX_fram]
  exact ⟨hClk, hReg, hFram⟩

theorem State.moveLatch_handView (s : State) (d : Drive) (h : Half) (cause : Nat) :
    (s.moveLatch d h cause).handView = (s.latchMoved d h cause).handView := by
  unfold State.moveLatch
  extract_lets s0 x cl s1 s2 s3
  have hEnds : s2.handView = s1.handView := (State.cond_handView _ _ _ _ _).trans (State.cond_handView _ _ _ _ _)
  have hFollow : s3.handView = s2.handView := by
    refine (State.handView_of_encView (State.encFollowAll_encView _)).trans ?_
    exact (State.aevLatch_handView _ _ _).trans (State.handView_of_encView (State.encLatch_encView _ _ _))
  have hTags : (s3.retagDrive d).handView = s3.handView :=
    State.handView_of_apart (s3.retagDrive_apart d) (s3.retagDrive_drives d)
  have hOuts := (State.routAll_handView (s3.retagDrive d).voteAll).trans (State.handView_of_quiet (State.voteAll_quiet _))
  have hReact := State.handView_of_quiet ((s3.retagDrive d).voteAll.routAll.ownReact_quiet d h)
  have hPreset := State.handView_of_encView (((s3.retagDrive d).voteAll.routAll.ownReact d h).presetLate_encView d)
  rw [hPreset, hReact, hOuts, hTags, hFollow, hEnds]
  rfl

/-- In a drive that claims by half `h` alone, and hands over to none, that half is the single holder (R245). -/
theorem State.holderHalf_of_claim {s : State} {d : Drive} {h : Half} (hClaim : s.xd[d].claim = (Two.mk false false).set h true)
    (hBusy : s.xd[d].busy = false) (hOn : s.halfOn h = true) : s.holderHalf d = some h := by
  have hClaims (g : Half) : s.claims d g = (((Two.mk false false).set h true).get g && s.halfOn g) := by
    unfold State.claims State.claimsToo
    dsimp only
    rw [hClaim, hBusy]
    simp
  unfold State.holderHalf State.holder
  rw [hClaims, hClaims]
  cases h
  · rw [hOn]
    rfl
  · rw [hOn]
    rfl

theorem exec_handoverDone {s : State} {d : Drive} {h : Half} (hTake : s.xd[d].taking = some h) :
    exec (.handoverDone d) s = .next ((s.waitTill (s.xd[d].takeAt + 161)).moveLatch d h s.xd[d].takeCause).domains := by
  change thenDomains (handoverDone d s) = _
  unfold handoverDone
  rw [hTake]
  rfl

theorem handoverDone_moves {s : State} {d : Drive} {h : Half} (hTake : s.xd[d].taking = some h) :
    CompletesVoting (.handoverDone d) s (fun t => t.clk.cyc = max s.clk.cyc (s.xd[d].takeAt + 161) ∧
      t.xd[d].claim = (Two.mk false false).set h true ∧ t.xd[d].conflict = false ∧ t.xd[d].busy = false ∧
      t.xd[d].taking = none ∧ t.xd[d].hoCnt = min 65535 (s.xd[d].hoCnt + 1) ∧ t.xd[d].hoCause = s.xd[d].takeCause ∧
      (s.halfOn h = true → t.holderHalf d = some h) ∧ t.cfg = s.cfg ∧ t.fram = s.fram) := by
  refine ⟨_, exec_handoverDone hTake, ?_⟩
  generalize hw : s.waitTill (s.xd[d].takeAt + 161) = w
  obtain ⟨hClk, hReg, hFram, hDrives⟩ := State.fields_of_handView (w.moveLatch_handView d h s.xd[d].takeCause)
  generalize w.moveLatch d h s.xd[d].takeCause = t at hClk hReg hFram hDrives ⊢
  have hFollow := w.encFollowAll_encView
  have hMoved : (t.xd[d]).quiet =
      (w.encFollowAll.xd[d].moved h s.xd[d].takeCause w.encFollowAll.clk.cyc w.encFollowAll.now).quiet := by
    rw [State.drive_of_drives hDrives]
    exact congrArg XDrive.quiet (State.setX_get _ _ _)
  obtain ⟨hClaim, hConflict, hBusy, hTaking, -, hCnt, hCause, -⟩ := XDrive.fields_of_quiet hMoved
  obtain ⟨-, -, -, -, -, hCntBefore, -⟩ :=
    XDrive.fields_of_quiet (State.drive_of_drives (State.drives_of_encView hFollow) d)
  obtain ⟨hClkMoved, hRegMoved, hFramMoved⟩ := w.latchMoved_rest d h s.xd[d].takeCause
  rw [hClkMoved] at hClk
  rw [hRegMoved] at hReg
  rw [hFramMoved] at hFram
  subst hw
  refine ⟨?_, hClaim, hConflict, hBusy, hTaking, ?_, hCause, fun hOn => ?_, congrArg RegView.cfg hReg, hFram⟩
  · rw [hClk, State.waitTill_clk_cyc, Nat.max_comm]
  · exact hCnt.trans (congrArg (fun k => min 65535 (k + 1)) hCntBefore)
  · exact State.holderHalf_of_claim hClaim hBusy ((State.halfOn_of_pwr (congrArg RegView.pwr hReg) h).trans hOn)

/-! ## Requests -/

/-- A request refused: HO_REFUSED, once more for the other half's request of the same instant, and the drive's safe state,
counted from the declaration (R250, Table 10.2). -/
def State.refuse (s : State) (d : Drive) (t : Nat) (mate : Bool) : State :=
  let s1 := (s.setX d { s.xd[d] with req := [] }).event .xmon (8 * d.val + 7) .shared
  let s2 := if mate then s1.event .xmon (8 * d.val + 7) .shared else s1
  (s2.setSslAt d t).presetLate d

section
variable {s : State} {d : Drive} {r : HoReq} {rest : List HoReq}

/-- The judgement of request `r`, with `rest` the requests behind it (R248, R249, Table 10.2). -/
def State.grants (s : State) (d : Drive) (r : HoReq) (rest : List HoReq) : Bool :=
  s.eligible d r.frm.other && !(s.xd[d].mate == some r.at') && rest.all fun q => q.frm == r.frm

theorem State.grants_iff : s.grants d r rest = true ↔
    s.eligible d r.frm.other = true ∧ s.xd[d].mate ≠ some r.at' ∧ ∀ q ∈ rest, q.frm = r.frm := by
  unfold State.grants
  simp [and_assoc]

theorem exec_handoverRequest (hReq : s.xd[d].req = r :: rest) : exec (.handoverRequest d) s =
    let u := s.waitTill (r.at' + 60)
    if u.grants d r rest then .next (u.beginTake d r.frm.other 1 r.at') else .next (u.refuse d r.at' (u.xd[d].mate == some r.at')) := by
  change execHandoverRequest d s = _
  unfold execHandoverRequest
  rw [hReq]
  rfl

end

theorem State.setSslAt_quiet (s : State) (d : Drive) (t : Nat) : (s.setSslAt d t).quiet = s.quiet := by
  have hSafe (v : Vector SafeDrive 2) : State.quiet { s with safe := v } = s.quiet := rfl
  unfold State.setSslAt
  dsimp only
  rw [State.reform_quiet]
  split
  · refine (State.xd_quiet _ d _ ?_).trans (hSafe _)
    rfl
  · exact hSafe _

theorem State.refuse_steps (s : State) (d : Drive) (t : Nat) (mate : Bool) :
    ∃ u : State, ((s.setX d { s.xd[d] with req := [] }).event .xmon (8 * d.val + 7) .shared).Raises u ∧
      u.quiet = (s.setX d { s.xd[d] with req := [] }).quiet ∧ s.refuse d t mate = (u.setSslAt d t).presetLate d := by
  cases mate
  case false => exact ⟨_, .refl _, State.event_quiet _ _ _ _, rfl⟩
  case true => exact ⟨_, State.event_raises _ _ _ _, (State.event_quiet _ _ _ _).trans (State.event_quiet _ _ _ _), rfl⟩

theorem State.refuse_leaves (s : State) (d : Drive) (t : Nat) (mate : Bool) :
    let u := s.refuse d t mate
    u.clk = s.clk ∧ u.safe[d].ssl = ⟨true, true⟩ ∧ u.safe[d].rel = false ∧ u.xd[d].busy = s.xd[d].busy ∧
      u.xd[d].claim = s.xd[d].claim ∧ (s.reports .xmon (8 * d.val + 7) = true → u.stickyBit .xmon (8 * d.val + 7) = true) := by
  intro u
  have hd := d.isLt
  obtain ⟨v, hRaises, hQuiet, hEq⟩ := s.refuse_steps d t mate
  have hQuietSafe : (v.setSslAt d t).quiet = (s.setX d { s.xd[d] with req := [] }).quiet := (v.setSslAt_quiet d t).trans hQuiet
  obtain ⟨hClk, -, -, hDrives⟩ := State.fields_of_handView
    ((State.handView_of_encView ((v.setSslAt d t).presetLate_encView d)).trans (State.handView_of_quiet hQuietSafe))
  have hPreset := (v.setSslAt d t).presetLate_raises d
  rw [← hEq] at hClk hDrives hPreset
  obtain ⟨hSsl, hRel⟩ := hPreset.safe d (v.setSslAt_latched d t)
  have hDrive := State.drive_of_drives hDrives d
  rw [State.setX_get] at hDrive
  obtain ⟨hClaim, -, hBusy, -⟩ := XDrive.fields_of_quiet hDrive
  refine ⟨hClk, hSsl, hRel, hBusy, hClaim, fun hRep => ?_⟩
  rw [← State.setX_reports s d (x := { s.xd[d] with req := [] }) rfl rfl] at hRep
  exact (hRaises.trans ((v.setSslAt_raises d t).trans hPreset)).sticky _ _ (State.event_sticky _ _ _ _ hRep (by omega))

/-! ## A claim lost -/

/-- The drive without a holder. -/
def XDrive.unclaimed (x : XDrive) : XDrive := { x with claim := ⟨false, false⟩, orphan := none, req := [] }

/-- The state once the claim of drive `d` has gone, before the other half takes over or not (R251). -/
def State.claimDropped (s : State) (d : Drive) : State := ((s.setX d s.xd[d].unclaimed).watchHolder d).retagDrive d

theorem State.watchHolder_own (s : State) (d : Drive) :
    ∃ v, s.watchHolder d = s.setX d { s.xd[d] with noHolderSince := v } := by
  unfold State.watchHolder
  dsimp only
  split
  · exact ⟨_, rfl⟩
  · exact ⟨_, rfl⟩
  · exact ⟨s.xd[d].noHolderSince, (s.setX_self d).symm⟩

theorem State.setX_setX (s : State) (d : Drive) (x y : XDrive) : (s.setX d x).setX d y = s.setX d y :=
  congrArg (fun v => { s with xd := v }) (vset_vset _ _ _ _)

/-- The claim gone, one drive has changed and then its channels' tags. -/
theorem State.claimDropped_eq (s : State) (d : Drive) :
    ∃ v, s.claimDropped d = (s.setX d { s.xd[d].unclaimed with noHolderSince := v }).retagDrive d := by
  obtain ⟨v, hEq⟩ := (s.setX d s.xd[d].unclaimed).watchHolder_own d
  rw [State.setX_get, State.setX_setX] at hEq
  exact ⟨v, congrArg (State.retagDrive · d) hEq⟩

/-- From `s` to `t` drive `d` has lost its holder; besides its claim, the channels named for it and what a report changes, all
stands. -/
structure State.ClaimGone (d : Drive) (s t : State) : Prop where
  apart : t.apart = s.apart
  own : t.xd[d].claim = ⟨false, false⟩ ∧ t.xd[d].orphan = none
  other : ∀ e : Drive, e ≠ d → t.xd[e].claim = s.xd[e].claim
  pch : ∀ n : Fin 8, s.names 0 n.val = false → s.names 1 n.val = false → t.pch[n] = s.pch[n]

theorem State.names_false {s : State} {n : Nat} (h0 : s.names 0 n = false) (h1 : s.names 1 n = false) (d : Drive) :
    s.names d n = false := by
  fin_cases d
  · exact h0
  · exact h1

theorem State.claimDropped_gone (s : State) (d : Drive) :
    s.ClaimGone d (s.claimDropped d) ∧ (s.claimDropped d).xd[d].busy = s.xd[d].busy := by
  obtain ⟨v, hEq⟩ := s.claimDropped_eq d
  rw [hEq]
  generalize hx : ({ s.xd[d].unclaimed with noHolderSince := v } : XDrive) = x
  have hDrives := (s.setX d x).retagDrive_drives d
  have hOwn := State.drive_of_drives hDrives d
  rw [State.setX_get] at hOwn
  obtain ⟨hClaim, -, hBusy, -, hOrphan, -⟩ := XDrive.fields_of_quiet hOwn
  subst hx
  refine ⟨⟨(State.retagDrive_apart _ d).trans rfl, ⟨hClaim, hOrphan⟩, fun e he => ?_, fun n h0 h1 => ?_⟩, hBusy⟩
  · obtain ⟨hOther, -⟩ := XDrive.fields_of_quiet (State.drive_of_drives hDrives e)
    rw [State.setX_get_other _ _ _ _ he] at hOther
    exact hOther
  · exact State.retagDrive_pch_other _ (State.names_false h0 h1 d)

/-- What leaves the channels and the drives but for their requests alone does not bring the claim back. -/
theorem State.ClaimGone.of_encView {d : Drive} {s t u : State} (h : s.ClaimGone d t) (hView : u.encView = t.encView) :
    s.ClaimGone d u := by
  have hDrive := State.drive_of_drives (State.drives_of_encView hView)
  obtain ⟨hClaim, -, -, -, hOrphan, -⟩ := XDrive.fields_of_quiet (hDrive d)
  obtain ⟨hClaimGone, hOrphanGone⟩ := h.own
  refine ⟨(State.apart_of_encView hView).trans h.apart, ⟨hClaim.trans hClaimGone, hOrphan.trans hOrphanGone⟩, fun e he => ?_,
    fun n h0 h1 => ?_⟩
  · obtain ⟨hOther, -⟩ := XDrive.fields_of_quiet (hDrive e)
    exact hOther.trans (h.other e he)
  · rw [State.pch_of_encView hView]
    exact h.pch n h0 h1

/-- A change of the drive elsewhere does not either. -/
theorem State.ClaimGone.setX {d : Drive} {s t : State} {x : XDrive} (h : s.ClaimGone d t) (hClaim : x.claim = t.xd[d].claim)
    (hOrphan : x.orphan = t.xd[d].orphan) : s.ClaimGone d (t.setX d x) := by
  obtain ⟨hClaimGone, hOrphanGone⟩ := h.own
  refine ⟨h.apart, ?_, fun e he => ?_, h.pch⟩
  · rw [State.setX_get]
    exact ⟨hClaim.trans hClaimGone, hOrphan.trans hOrphanGone⟩
  · rw [State.setX_get_other _ _ _ _ he]
    exact h.other e he

/-- The other half takes over: the handover begins, and its hold-off window opens (R251). -/
def State.takenOver (s : State) (d : Drive) (h : Half) : State :=
  let t := s.beginTake d h 2 s.clk.cyc
  (t.setX d { t.xd[d] with holdHo := t.xd[d].holdHo.opened t.clk.cyc (t.clk.cyc + 2400) }).voteAll

section
variable {s : State} {d : Drive} {h : Half}

theorem holderClaimLost_heir (hHeir : s.heir d = some h) : holderClaimLost d s =
    if !s.boot.released || s.xd[d].busy || s.xd[d].conflict then .next s
    else if (s.claimDropped d).eligible d h then .next ((s.claimDropped d).takenOver d h)
    else .next ((s.claimDropped d).presetLate d).voteAll := by
  unfold holderClaimLost State.claimDropped State.takenOver XDrive.unclaimed
  rw [hHeir]

theorem exec_holderClaimLost (hHeir : s.heir d = some h) (hRel : s.boot.released = true) (hBusy : s.xd[d].busy = false)
    (hConf : s.xd[d].conflict = false) : exec (.holderClaimLost d) s =
      .next (if (s.claimDropped d).eligible d h then (s.claimDropped d).takenOver d h
        else ((s.claimDropped d).presetLate d).voteAll).domains := by
  have hIdle : ¬(!s.boot.released || s.xd[d].busy || s.xd[d].conflict) = true := by
    rw [hRel, hBusy, hConf]
    decide
  change thenDomains (holderClaimLost d s) = _
  rw [holderClaimLost_heir hHeir, if_neg hIdle]
  split
  · rfl
  · rfl

theorem exec_holderClaimLost_none (hHeir : s.heir d = none) : exec (.holderClaimLost d) s = .next s.domains := by
  change thenDomains (holderClaimLost d s) = _
  unfold holderClaimLost
  rw [hHeir]
  rfl

end

theorem State.takenOver_gone {s u : State} {d : Drive} (h : Half) (hGone : s.ClaimGone d u) : s.ClaimGone d (u.takenOver d h) := by
  have hBegun : s.ClaimGone d (u.beginTake d h 2 u.clk.cyc) := hGone.setX rfl rfl
  have hOpened := hBegun.setX (x := { (u.beginTake d h 2 u.clk.cyc).xd[d] with
    holdHo := (u.beginTake d h 2 u.clk.cyc).xd[d].holdHo.opened u.clk.cyc (u.clk.cyc + 2400) }) rfl rfl
  exact hOpened.of_encView (State.encView_of_quiet (State.voteAll_quiet _))

theorem State.takenOver_own (s : State) (d : Drive) (h : Half) : (s.takenOver d h).xd[d].busy = true ∧
    (s.takenOver d h).xd[d].taking = some h ∧ (s.takenOver d h).xd[d].takeCause = 2 ∧ (s.takenOver d h).xd[d].takeAt = s.clk.cyc := by
  have hOwn : (s.takenOver d h).xd[d] = { (s.beginTake d h 2 s.clk.cyc).xd[d] with
      holdHo := (s.beginTake d h 2 s.clk.cyc).xd[d].holdHo.opened s.clk.cyc (s.clk.cyc + 2400) } := State.setX_get _ _ _
  have hBegun : (s.beginTake d h 2 s.clk.cyc).xd[d] =
      { s.xd[d] with busy := true, taking := some h, takeCause := 2, takeAt := s.clk.cyc, req := [] } := State.setX_get _ _ _
  rw [hOwn, hBegun]
  exact ⟨rfl, rfl, rfl, rfl⟩

theorem State.clk_of_apart {s t : State} (h : t.apart = s.apart) : t.clk = s.clk := by
  have hClk := congrArg State.clk h
  exact hClk

/-- The other half is eligible: it takes over, from now on. -/
theorem State.claimDropped_taken (s : State) (d : Drive) (h : Half) :
    let t := (s.claimDropped d).takenOver d h
    s.ClaimGone d t ∧ t.xd[d].busy = true ∧ t.xd[d].taking = some h ∧ t.xd[d].takeCause = 2 ∧ t.xd[d].takeAt = s.clk.cyc := by
  obtain ⟨hGone, -⟩ := s.claimDropped_gone d
  generalize s.claimDropped d = u at hGone
  obtain ⟨hBusy, hTaking, hCause, hAt⟩ := u.takenOver_own d h
  rw [State.clk_of_apart hGone.apart] at hAt
  exact ⟨State.takenOver_gone h hGone, hBusy, hTaking, hCause, hAt⟩

/-- No half is eligible: presets that waited take effect, and the pads follow. -/
theorem State.claimDropped_left (s : State) (d : Drive) :
    s.ClaimGone d ((s.claimDropped d).presetLate d).voteAll ∧ ((s.claimDropped d).presetLate d).voteAll.xd[d].busy = s.xd[d].busy := by
  obtain ⟨hGone, hBusy⟩ := s.claimDropped_gone d
  have hView : ((s.claimDropped d).presetLate d).voteAll.encView = (s.claimDropped d).encView :=
    (State.encView_of_quiet (State.voteAll_quiet _)).trans (State.presetLate_encView _ d)
  obtain ⟨-, -, hSame, -⟩ := XDrive.fields_of_quiet (State.drive_of_drives (State.drives_of_encView hView) d)
  exact ⟨hGone.of_encView hView, hSame.trans hBusy⟩

/-- Settles O28: a request by its judgement, a move by the drive it leaves and what the outputs, slots and tags that follow it
leave alone, a lost claim by whether the other half is eligible. -/
theorem authorityHandover : Obligations.AuthorityHandover := by
  intro s d x
  refine ⟨?_, fun h hTake => handoverDone_moves hTake, ?_, exec_holderClaimLost_none⟩
  · intro r rest hReq u ok
    refine ⟨fun hOk => ?_, fun hNot => ?_⟩
    · exact (exec_handoverRequest hReq).trans (if_pos (State.grants_iff.mpr hOk))
    · have hRefused := (exec_handoverRequest hReq).trans (if_neg fun hGrant => hNot (State.grants_iff.mp hGrant))
      exact ⟨_, hRefused, u.refuse_leaves d r.at' _⟩
  · intro h hHeir hRel hBusy hConf u
    refine ⟨_, exec_holderClaimLost hHeir hRel hBusy hConf, ?_⟩
    split
    case isTrue hElig =>
      obtain ⟨⟨hApart, ⟨hClaim, hOrphan⟩, hOther, hPch⟩, hTaken⟩ := s.claimDropped_taken d h
      exact ⟨hClaim, hOrphan, hApart, hOther, hPch, fun _ => hTaken, fun hNot => absurd (hElig.symm.trans hNot) (by decide)⟩
    case isFalse hElig =>
      obtain ⟨⟨hApart, ⟨hClaim, hOrphan⟩, hOther, hPch⟩, hSame⟩ := s.claimDropped_left d
      exact ⟨hClaim, hOrphan, hApart, hOther, hPch, fun h => absurd h hElig, fun _ => hSame.trans hBusy⟩

end Sys2Proof.Machine
end

section
/-! PROOFS. The outputs of encoder emulation: what following the angle and judging the ledger change (R261 to R263, R268, R272): the
output itself, and what a report changes. -/

namespace Sys2Proof.Machine

/-! ## An output changed, besides reports -/

theorem State.enc_of_quiet {s t : State} (h : t.quiet = s.quiet) : t.enc = s.enc := by
  have hEnc := congrArg State.enc h
  exact hEnc

/-- States that differ by reports alone go on to do so when an output of both is replaced. -/
theorem State.setEnc_quiet_congr {s t : State} (h : t.quiet = s.quiet) (n : Fin 4) (x : Enc) :
    (t.setEnc n x).quiet = (s.setEnc n x).quiet :=
  congrArg (fun u : State => u.setEnc n x) h

theorem State.setEnc_setEnc (s : State) (n : Fin 4) (x y : Enc) : (s.setEnc n x).setEnc n y = s.setEnc n y :=
  congrArg (fun v => { s with enc := v }) (vset_vset _ _ _ _)

/-- Only output `n` has changed, to `y`, and else only reports were made. -/
def State.OutputSet (s t : State) (n : Fin 4) (y : Enc) : Prop := t.quiet = (s.setEnc n y).quiet

section
variable {s t u : State} {n : Fin 4} {x y : Enc}

theorem State.OutputSet.own (h : s.OutputSet t n y) : t.enc[n] = y := by
  rw [State.enc_of_quiet h]
  exact State.setEnc_get s n y

theorem State.OutputSet.other (h : s.OutputSet t n y) {k : Fin 4} (hk : k ≠ n) : t.enc[k] = s.enc[k] := by
  rw [State.enc_of_quiet h]
  exact State.setEnc_get_other s n y k hk

theorem State.OutputSet.pads (h : s.OutputSet t n y) : t.pads.encA = s.pads.encA ∧ t.pads.encB = s.pads.encB ∧
    t.pads.encHeld = s.pads.encHeld := by
  have hQuiet : t.quiet = (s.setEnc n y).quiet := h
  have hA := congrArg (fun u : State => u.pads.encA) hQuiet
  have hB := congrArg (fun u : State => u.pads.encB) hQuiet
  have hHeld := congrArg (fun u : State => u.pads.encHeld) hQuiet
  exact ⟨hA, hB, hHeld⟩

theorem State.OutputSet.cfg (h : s.OutputSet t n y) : t.cfg = s.cfg := State.cfg_of_quiet (s := s.setEnc n y) h

theorem State.OutputSet.clk (h : s.OutputSet t n y) : t.clk = s.clk := State.clk_of_quiet (s := s.setEnc n y) h

theorem State.OutputSet.pwr (h : s.OutputSet t n y) : t.pwr = s.pwr := State.pwr_of_quiet (s := s.setEnc n y) h

theorem State.OutputSet.reg (h : s.OutputSet t n y) (a : Nat) : t.reg a = s.reg a := State.reg_of_quiet h a

theorem State.OutputSet.regH (h : s.OutputSet t n y) (g : Half) (a : Nat) : t.regH g a = s.regH g a := h.reg _

theorem State.OutputSet.capt (h : s.OutputSet t n y) : t.capt = s.capt := by
  have hCapt := congrArg State.capt h
  exact hCapt

theorem State.OutputSet.released (h : s.OutputSet t n y) : t.boot.released = s.boot.released := by
  have hRel := congrArg (fun u : State => u.boot.released) h
  exact hRel

theorem State.OutputSet.powered (h : s.OutputSet t n y) (p : Page) : t.powered p = s.powered p := State.powered_of_quiet h p

theorem State.OutputSet.encView (h : s.OutputSet t n y) : t.encView = s.encView := State.encView_of_quiet (s := s.setEnc n y) h

theorem State.OutputSet.trans (h : s.OutputSet t n x) (k : t.OutputSet u n y) : s.OutputSet u n y := by
  refine Eq.trans k ((State.setEnc_quiet_congr h n y).trans ?_)
  rw [State.setEnc_setEnc]

theorem State.OutputSet.setEnc (s : State) (n : Fin 4) (y : Enc) : s.OutputSet (s.setEnc n y) n y := Eq.refl _

/-- Another state that reports alone set apart from `t`. -/
theorem State.OutputSet.quiet (h : s.OutputSet t n y) (k : u.quiet = t.quiet) : s.OutputSet u n y := Eq.trans k h

/-- The registers of an output with the same active copy are those of the same half. -/
theorem State.OutputSet.encHalf (h : s.OutputSet t n y) (hAct : y.act = s.enc[n].act) : t.encHalf n = s.encHalf n := by
  unfold State.encHalf
  rw [h.own, hAct, State.halfOn_of_pwr h.pwr]

end

/-! ## Who holds a drive -/

/-- Where the drives agree but for their requests and hold-off windows, at one instant, the same half holds each (R245). -/
theorem State.holderHalf_of_drives {s t : State} (hDrives : t.drives = s.drives) (hPwr : t.pwr = s.pwr) (hClk : t.clk = s.clk)
    (d : Drive) : t.holderHalf d = s.holderHalf d := by
  obtain ⟨hClaim, hConflict, hBusy, hTaking, -, -, -, hCause, hAt⟩ := XDrive.fields_of_quiet (State.drive_of_drives hDrives d)
  have hClaims (g : Half) : t.claims d g = s.claims d g := by
    unfold State.claims State.claimsToo
    dsimp only
    rw [hClaim, hConflict, hBusy, hTaking, hCause, hAt, hClk, State.halfOn_of_pwr hPwr]
  unfold State.holderHalf State.holder
  rw [hClaims, hClaims]

theorem State.OutputSet.holderHalf {s t : State} {n : Fin 4} {y : Enc} (h : s.OutputSet t n y) (d : Drive) :
    t.holderHalf d = s.holderHalf d :=
  State.holderHalf_of_drives (State.drives_of_encView h.encView) h.pwr h.clk d

theorem State.offer_xd (s : State) (i : Fin 64) (src : Nat) (l : List Byte) : (s.offer i src l).xd = s.xd := by
  unfold State.offer State.settle
  dsimp only
  split <;> rfl

/-! ## The ledger judged (R263, R272) -/

/-- BKL_WARN in force: at most 2^20 (R263). -/
def State.encWarn (s : State) (n : Fin 4) : Nat := min (2 ^ 20) (s.ENC_WARN_BKL_WARN (s.encHalf n) n.val)

/-- The output with its two limits judged. -/
def State.judgedOut (s : State) (n : Fin 4) : Enc :=
  { s.enc[n] with
    hi := decide (s.encWarn n < s.enc[n].backlog.natAbs), ovf := decide (2 ^ 20 < s.enc[n].backlog.natAbs) }

theorem State.tallyEvent_quiet (s : State) (n : Fin 4) (code : Nat) (j : Int) : (s.tallyEvent n code j).quiet = s.quiet :=
  State.offer_quiet _ _ _ _

/-- The limits judged, records of the Tally come before the two conditions are reported. -/
theorem State.judgeTally_steps (s : State) (n : Fin 4) : ∃ u : State, s.OutputSet u n (s.judgedOut n) ∧ u.xd = s.xd ∧
    s.judgeTally n = (u.cond .enc (2 * n.val) .shared (s.judgedOut n).hi).cond .enc (2 * n.val + 1) .shared (s.judgedOut n).ovf := by
  have hTally (t : State) (code : Nat) : (t.tallyEvent n code 0).quiet = t.quiet ∧ (t.tallyEvent n code 0).xd = t.xd :=
    ⟨t.tallyEvent_quiet n code 0, State.offer_xd _ _ _ _⟩
  have hIf (c : Bool) {t u : State} (h : u.quiet = t.quiet ∧ u.xd = t.xd) :
      (if c then u else t).quiet = t.quiet ∧ (if c then u else t).xd = t.xd := by
    cases c
    · exact ⟨rfl, rfl⟩
    · exact h
  unfold State.judgeTally
  extract_lets x m hi ovf s1 s2 s3
  have hHi : s2.quiet = s1.quiet ∧ s2.xd = s1.xd := by
    unfold s2
    split
    · exact hTally s1 4
    · exact hIf _ (hTally s1 5)
  have hOvf : s3.quiet = s2.quiet ∧ s3.xd = s2.xd := hIf _ (hTally s2 6)
  exact ⟨s3, hOvf.1.trans hHi.1, hOvf.2.trans hHi.2, rfl⟩

theorem State.judgeTally_sets (s : State) (n : Fin 4) : s.OutputSet (s.judgeTally n) n (s.judgedOut n) := by
  obtain ⟨u, hSet, -, hEq⟩ := s.judgeTally_steps n
  rw [hEq]
  exact hSet.quiet ((State.cond_quiet _ _ _ _ _).trans (State.cond_quiet _ _ _ _ _))

/-! ## The angle followed (R261, R268, R269) -/

/-- An output without its counts, TARGET, JUMP_ACC and its limits: what it keeps while it follows its angle. -/
def Enc.still (x : Enc) : Enc :=
  { x with q := ⟨0, 0⟩, ofs := ⟨0, 0⟩, valid := ⟨false, false⟩, target := 0, jump := 0, hi := false, ovf := false }

theorem Enc.fields_of_still {x y : Enc} (h : y.still = x.still) : y.armed = x.armed ∧ y.act = x.act ∧ y.cfg = x.cfg := by
  simp only [Enc.still, Enc.mk.injEq] at h
  tauto

theorem Enc.move_still (x : Enc) (h : Half) (c : Option Int) (b : Int) : (x.move h c b).still = x.still := by
  unfold Enc.move
  split
  · rfl
  · split
    · rfl
    · rfl

/-- An output that follows its angle changes in its counts, TARGET, JUMP_ACC and its limits alone. -/
theorem State.encFollow_sets (s : State) (n : Fin 4) :
    ∃ y, s.OutputSet (s.encFollow n) n y ∧ y.still = s.enc[n].still := by
  unfold State.encFollow
  extract_lets x h back xa y d
  have hActive : xa.still = x.still := by
    unfold xa
    split
    · rfl
    · exact Enc.move_still _ _ _ _
  have hBoth : y.still = x.still := (Enc.move_still _ _ _ _).trans hActive
  have hJudged {t : State} {z : Enc} (hSet : s.OutputSet t n z) (hz : z.still = x.still) :
      ∃ y, s.OutputSet (t.judgeTally n) n y ∧ y.still = x.still := by
    refine ⟨_, hSet.trans (t.judgeTally_sets n), ?_⟩
    unfold State.judgedOut
    rw [hSet.own]
    exact hz
  split
  · exact ⟨y, .setEnc s n y, hBoth⟩
  split
  · exact hJudged (.quiet (.setEnc s n (y.addJump d)) (State.tallyEvent_quiet _ _ _ _)) hBoth
  · exact hJudged (.setEnc s n { y with target := wrap48 (y.target + d) }) hBoth

end Sys2Proof.Machine
end

section
/-! PROOFS. TALLY_HI and TALLY_OVF follow BACKLOG (R263): a hold-off window that a report of the same cycle opens does not cover the
next judgement of that cycle (R355). -/

namespace Sys2Proof.Machine

/-! ## Hold-off windows of a handover, within one cycle -/

/-- A window opened in a cycle covers no detection of that cycle which it did not cover before (R355). -/
theorem HoldWin.opened_covers (w : HoldWin) (t e : Nat) : (w.opened t e).covers t = w.covers t := by
  unfold HoldWin.opened HoldWin.covers
  by_cases h : w.at' = t
  · simp [h]
  · simp [h]

/-- The hold-off window that the handovers of drive `d` open (R355). -/
def State.handWin (s : State) (d : Drive) : HoldWin := s.xd[d].holdHo

/-- From `s` to `t`, in one cycle, the windows of handovers cover the same detections. -/
structure State.SameCover (s t : State) : Prop where
  clk : t.clk = s.clk
  covers : ∀ d : Drive, (t.handWin d).covers s.clk.cyc = (s.handWin d).covers s.clk.cyc

section
variable {s t u : State}

theorem State.SameCover.of_xd (hClk : t.clk = s.clk) (hXd : t.xd = s.xd) : s.SameCover t :=
  ⟨hClk, fun d => by
    unfold State.handWin
    rw [hXd]⟩

theorem State.SameCover.trans (h : s.SameCover t) (k : t.SameCover u) : s.SameCover u :=
  ⟨k.clk.trans h.clk, fun d => (h.clk ▸ k.covers d).trans (h.covers d)⟩

/-- One drive changed, its window covering what it did. -/
theorem State.SameCover.drive (hClk : t.clk = s.clk) {d : Drive} {x : XDrive} (hXd : t.xd = vset s.xd d x)
    (hx : x.holdHo.covers s.clk.cyc = (s.handWin d).covers s.clk.cyc) : s.SameCover t := by
  refine ⟨hClk, fun e => ?_⟩
  unfold State.handWin
  rw [hXd]
  by_cases h : e = d
  · subst h
    rw [vset_same]
    exact hx
  · rw [vset_other _ _ _ _ h]

end

theorem State.setSsl_sameCover (s : State) (d : Drive) : s.SameCover (s.setSsl d) := by
  unfold State.setSsl State.setSslAt
  dsimp only
  split
  · exact .drive (d := d) rfl rfl rfl
  · exact .of_xd rfl rfl

theorem State.reactHo_sameCover (s : State) (d : Drive) (h : Half) (p : Page) (b : Nat) : s.SameCover (s.reactHo d h p b) := by
  unfold State.reactHo State.askHandover
  dsimp only
  split
  · split
    · split
      · exact .of_xd rfl rfl
      · exact .drive (d := d) rfl rfl (HoldWin.opened_covers _ _ _)
    · exact s.setSsl_sameCover d
  · exact .drive (d := d) rfl rfl rfl

theorem State.reactDev_sameCover (s : State) : s.SameCover s.reactDev := by
  unfold State.reactDev
  extract_lets t s1 a s2
  have hOpened : s.SameCover s1 := ⟨rfl, fun d => by
    unfold State.handWin
    have hOwn : s1.xd[d] = { s.xd[d] with
        holdHo := s.xd[d].holdHo.opened t (t + 2000), holdSsl := s.xd[d].holdSsl.opened t (t + 2000) } := Vector.getElem_ofFn _
    rw [hOwn]
    exact HoldWin.opened_covers _ _ _⟩
  have hDis : s1.SameCover s2 := by
    unfold s2
    split
    · exact .of_xd rfl rfl
    · exact .of_xd rfl rfl
  exact ((hOpened.trans hDis).trans (State.setSsl_sameCover _ 0)).trans (State.setSsl_sameCover _ 1)

theorem State.react_sameCover (s : State) (p : Page) (b r : Nat) (aff : Drive → Bool) : s.SameCover (s.react p b r aff) :=
  State.react_steps (fun _ => .of_xd rfl rfl) (fun _ _ _ => .trans) (fun t => t.reactHo_sameCover) (fun t => t.setSsl_sameCover)
    (fun t => t.reactDev_sameCover) (fun _ _ _ => .of_xd rfl rfl) s p b r aff

theorem State.fileReport_xd (s : State) (p : Page) (r : Report) : (s.fileReport p r).xd = s.xd := by
  have hYield : ((s.fltTriggers r.react).yieldBlaze p r).xd = s.xd := by
    unfold State.yieldBlaze
    dsimp only
    split
    · split <;> rfl
    · rfl
  unfold State.fileReport
  dsimp only
  split
  · exact (State.offer_xd _ _ _ _).trans hYield
  · exact hYield

theorem State.report_sameCover (s : State) (p : Page) (b : Nat) (c : Copy) (m : Master) : s.SameCover (s.report p b c m) := by
  unfold State.report
  split
  · exact .of_xd rfl rfl
  · refine State.SameCover.trans ?_ (State.react_sameCover _ _ _ _ _)
    refine .of_xd (State.clk_of_quiet ?_) ((State.fileReport_xd _ _ _).trans ?_)
    · rw [State.fileReport_quiet, State.updHdr_quiet]
      split <;> rfl
    · dsimp only
      split <;> rfl

theorem State.cond_sameCover (s : State) (p : Page) (b : Nat) (c : Copy) (v : Bool) : s.SameCover (s.cond p b c v) := by
  have hSet (f : FaultHdr → FaultHdr) : s.SameCover (s.updHdr p f) := .of_xd rfl rfl
  unfold State.cond
  split
  · exact .of_xd rfl rfl
  split
  · exact hSet _
  split
  · exact hSet _
  split
  · exact .of_xd rfl rfl
  split
  · exact hSet _
  · exact (hSet _).trans (State.report_sameCover _ _ _ _ _)

/-! ## The two limits of an output -/

/-- TALLY_HI of an output is held off by the window of its drive's handovers (Table 15.4). -/
theorem State.heldOff_tallyHi (s : State) (n : Fin 4) : s.heldOff .enc (2 * n.val) =
    ((s.handWin s.enc[n].drive).covers s.clk.cyc && !(s.fltForce .enc).getLsbD (2 * n.val)) := by
  have hn : Fin.ofNat 4 (2 * n.val / 2) = n := by
    ext
    simp only [Fin.val_ofNat]
    omega
  have hWin : s.holdWin .enc (2 * n.val) = s.handWin s.enc[n].drive := by
    unfold State.holdWin
    dsimp only
    rw [if_pos ⟨by omega, by omega⟩]
    exact congrArg (fun k : Fin 4 => s.handWin s.enc[k].drive) hn
  have hLoss : s.lossEnd .enc (2 * n.val) = 0 := rfl
  unfold State.heldOff
  rw [hWin, hLoss]
  simp

/-- No window covers TALLY_OVF (Table 15.4). -/
theorem State.holdWin_tallyOvf (s : State) (n : Fin 4) : s.holdWin .enc (2 * n.val + 1) = {} := by
  unfold State.holdWin
  dsimp only
  exact if_neg (by omega)

/-- An output changed, its drive kept, and reports made in the same cycle: TALLY_HI is held off as before. -/
theorem State.OutputSet.heldOff {s t : State} {n : Fin 4} {y : Enc} (h : s.OutputSet t n y) (hCover : s.SameCover t)
    (hCfg : y.cfg = s.enc[n].cfg) : t.heldOff .enc (2 * n.val) = s.heldOff .enc (2 * n.val) := by
  have hDrive : y.drive = s.enc[n].drive := congrArg (fun w : Word => Fin.ofNat 2 (w.fld 0 1)) hCfg
  have hForce : t.fltForce .enc = s.fltForce .enc := State.fltForce_of_quiet (s := s.setEnc n y) h .enc
  rw [State.heldOff_tallyHi, State.heldOff_tallyHi, h.own, hDrive, h.clk, hCover.covers, hForce]

section
variable {s : State} {n : Fin 4}

theorem State.judgeTally_ovf (hp : s.powered .enc = true) :
    (s.judgeTally n).liveBit .enc .shared (2 * n.val + 1) = decide (2 ^ 20 < s.enc[n].backlog.natAbs) := by
  obtain ⟨u, hSet, -, hEq⟩ := s.judgeTally_steps n
  rw [hEq]
  refine State.cond_liveBit ?_ (by omega) (State.holdWin_tallyOvf _ n) rfl _ _
  rw [State.powered_of_quiet (State.cond_quiet _ _ _ _ _), hSet.powered, hp]

theorem State.judgeTally_hi (hp : s.powered .enc = true) (hFree : s.heldOff .enc (2 * n.val) = false) :
    (s.judgeTally n).liveBit .enc .shared (2 * n.val) = decide (s.encWarn n < s.enc[n].backlog.natAbs) := by
  obtain ⟨u, hSet, hXd, hEq⟩ := s.judgeTally_steps n
  have hFreeNow : u.heldOff .enc (2 * n.val) = false := (hSet.heldOff (.of_xd hSet.clk hXd) rfl).trans hFree
  rw [hEq, State.cond_keepsBit _ (.inr (by omega))]
  exact State.cond_live u .enc (2 * n.val) .shared _ ((hSet.powered _).trans hp) (by omega) hFreeNow

theorem State.judgeTally_sameCover (s : State) (n : Fin 4) : s.SameCover (s.judgeTally n) := by
  obtain ⟨u, hSet, hXd, hEq⟩ := s.judgeTally_steps n
  rw [hEq]
  exact ((State.SameCover.of_xd hSet.clk hXd).trans (State.cond_sameCover _ _ _ _ _)).trans (State.cond_sameCover _ _ _ _ _)

theorem State.encFollow_sameCover (s : State) (n : Fin 4) : s.SameCover (s.encFollow n) := by
  have hJudged {t : State} (hClk : t.clk = s.clk) (hXd : t.xd = s.xd) : s.SameCover (t.judgeTally n) :=
    (State.SameCover.of_xd hClk hXd).trans (t.judgeTally_sameCover n)
  unfold State.encFollow
  extract_lets x h back xa y d
  split
  · exact .of_xd rfl rfl
  split
  · exact hJudged (State.clk_of_quiet (s := s.setEnc n (y.addJump d)) (State.tallyEvent_quiet _ _ _ _)) (State.offer_xd _ _ _ _)
  · exact hJudged rfl rfl

end

end Sys2Proof.Machine
end

section
/-! PROOFS. Encoder outputs are enabled and preset (R266, R267, Table 11.4): the configuration written comes into force, and the count
taken stands in the column that the pads show. -/

namespace Sys2Proof.Machine

/-! ## EN (R266, R267) -/

theorem State.setDup_enc (s : State) (a : Nat) (v : Word) : (s.setDup a v).enc = s.enc :=
  State.setDup_keeps State.setReg_enc s a v

section
variable {s : State} {n : Fin 4}

theorem exec_encEnable (h : s.halfOn .h0 = true ∨ s.halfOn .h1 = true) :
    exec (.encEnable n) s = .next { s.encSetEn n true with wst := .ok } :=
  congrArg finish (State.dup_on h _ _)

theorem exec_encDisable (h : s.halfOn .h0 = true ∨ s.halfOn .h1 = true) :
    exec (.encDisable n) s = .next { s.encSetEn n false with wst := .ok } :=
  congrArg finish (State.dup_on h _ _)

/-- EN with the value that it has already: only the registers are written. -/
theorem State.encSetEn_same {en : Bool} (h : ((s.encFollow n).regH ((s.encFollow n).encHalf n) (encAddr n 0)).bit 0 = en) :
    s.encSetEn n en = (s.encFollow n).setDup (encAddr n 0)
      (bput ((s.encFollow n).regH ((s.encFollow n).encHalf n) (encAddr n 0)) 0 en) := by
  unfold State.encSetEn
  dsimp only
  rw [h]
  cases en
  · rfl
  · rfl

theorem State.encSetEn_set (h : ((s.encFollow n).regH ((s.encFollow n).encHalf n) (encAddr n 0)).bit 0 = false) :
    s.encSetEn n true = ((s.encFollow n).setDup (encAddr n 0)
      (bput ((s.encFollow n).regH ((s.encFollow n).encHalf n) (encAddr n 0)) 0 true)).setEnc n
        { (s.encFollow n).enc[n] with armed := true, done := false } := by
  unfold State.encSetEn
  dsimp only
  rw [h, State.setDup_enc]
  rfl

theorem State.encSetEn_clear (h : ((s.encFollow n).regH ((s.encFollow n).encHalf n) (encAddr n 0)).bit 0 = true) :
    s.encSetEn n false = ((s.encFollow n).setDup (encAddr n 0)
      (bput ((s.encFollow n).regH ((s.encFollow n).encHalf n) (encAddr n 0)) 0 false)).setEnc n
        { (s.encFollow n).enc[n] with armed := false, late := none } := by
  unfold State.encSetEn
  dsimp only
  rw [h, State.setDup_enc]
  rfl

end

theorem encoderEnable : Parts.EncoderEnable := by
  intro s n hOn u a en
  have hOut (v : Bool) (x : Enc) : (en v).setEnc n x = { en v with enc := vset u.enc n x } := by
    unfold State.setEnc
    rw [show (en v).enc = u.enc from State.setDup_enc _ _ _]
  rw [exec_encEnable hOn, exec_encDisable hOn]
  refine ⟨fun hClear => ⟨?_, ?_⟩, fun hSet => ⟨?_, ?_⟩⟩
  · rw [State.encSetEn_set hClear]
    exact congrArg (fun t : State => Host.Outcome.next { t with wst := .ok }) (hOut true _)
  · rw [State.encSetEn_same hClear]
  · rw [State.encSetEn_same hSet]
  · rw [State.encSetEn_clear hSet]
    exact congrArg (fun t : State => Host.Outcome.next { t with wst := .ok }) (hOut false _)

/-! ## The count that a preset takes (R264, R266) -/

theorem presetCount_near (q : Int) (col : Nat) : -1 ≤ q - presetCount q col ∧ q - presetCount q col ≤ 2 := by
  unfold presetCount
  omega

theorem presetCount_column (q : Int) {col : Nat} (h : col < 4) : presetCount q col % 4 = col := by
  unfold presetCount
  omega

theorem Enc.column_lt (x : Enc) (a b : Bool) : x.column a b < 4 := by
  unfold Enc.column
  split <;> decide

theorem Enc.cpr_pos (x : Enc) : 0 < x.cpr := by
  unfold Enc.cpr
  dsimp only
  split <;> omega

theorem Enc.four_dvd_cpr (x : Enc) : 4 ∣ x.cpr := ⟨_, rfl⟩

/-- An output that has made no step since it took the count `v` stands in the column of `v`. -/
theorem Enc.outPos_of_start {x : Enc} {v : Int} (hStart : x.p = (v % (x.cpr : Nat)).toNat) (hEmit : x.emit = 0) :
    ((x.outPos % 4 : Nat) : Int) = v % 4 := by
  have hPos : (0 : Int) < (x.cpr : Nat) := Int.natCast_pos.mpr x.cpr_pos
  have hPlace : (x.outPos : Int) = v % (x.cpr : Nat) := by
    unfold Enc.outPos
    rw [hEmit, hStart, Int.add_zero, Int.toNat_of_nonneg (Int.emod_nonneg _ hPos.ne'),
      Int.toNat_of_nonneg (Int.emod_nonneg _ hPos.ne'), Int.emod_emod_of_dvd _ dvd_rfl]
  rw [Int.natCast_mod, hPlace]
  exact Int.emod_emod_of_dvd v (Int.natCast_dvd_natCast.mpr x.four_dvd_cpr)

/-! ## What a preset leaves -/

/-- Output `n` as a preset leaves it, before its limits are judged (R266). -/
def State.presetOut (s : State) (n : Fin 4) : Enc :=
  let x0 := s.encTake n
  let h := (s.holderHalf x0.drive).getD x0.act
  let raw (k : Half) : Int := ((s.encX n x0 k).map fun y => y.floor).getD (x0.q.get k)
  let x := (x0.place h (raw h) (raw h) (s.encValid x0.drive h)).place h.other (raw h.other)
    (nearTurn x0.cpr (raw h.other) (raw h)) (s.encValid x0.drive h.other)
  let v := presetCount (raw h) (x.column (s.pads.encA.getLsbD n.val) (s.pads.encB.getLsbD n.val))
  { x with
    act := h, late := none, done := true
    p := (v % (x.cpr : Nat)).toNat, target := raw h - v, emit := 0, jump := 0, up := 0, dn := 0
    a := s.pads.encA.getLsbD n.val, b := s.pads.encB.getLsbD n.val, z := s.pads.encZ.getLsbD n.val }

theorem State.presetDo_eq (s : State) (n : Fin 4) :
    s.presetDo n = ((s.setEnc n (s.presetOut n)).tallyEvent n 1 0).judgeTally n := rfl

/-- Output `y` is preset by the registers and the pads of `s`, with the copy of half `h` as its active one (R266). -/
structure State.Presets (s : State) (n : Fin 4) (h : Half) (y : Enc) : Prop where
  ledger : y.done = true ∧ y.act = h ∧ y.emit = 0 ∧ y.jump = 0 ∧ y.up = 0 ∧ y.dn = 0
  target : -1 ≤ y.target ∧ y.target ≤ 2
  config : y.cfg = s.regH (s.encHalf n) (encAddr n 4) ∧ y.lines = s.regH (s.encHalf n) (encAddr n 8) ∧
    y.idx = s.regH (s.encHalf n) (encAddr n 0xC)
  column : y.outPos % 4 = y.column (s.pads.encA.getLsbD n.val) (s.pads.encB.getLsbD n.val)

theorem State.Presets.judged {s : State} {n : Fin 4} {h : Half} {y : Enc} (k : s.Presets n h y) (hi ovf : Bool) :
    s.Presets n h { y with hi := hi, ovf := ovf } := ⟨k.ledger, k.target, k.config, k.column⟩

theorem State.Presets.withLate {s : State} {n : Fin 4} {h : Half} {y : Enc} (k : s.Presets n h y) (d : Option Drive) :
    s.Presets n h { y with late := d } := ⟨k.ledger, k.target, k.config, k.column⟩

theorem State.presetOut_presets (s : State) (n : Fin 4) :
    s.Presets n ((s.holderHalf (s.encTake n).drive).getD s.enc[n].act) (s.presetOut n) where
  ledger := ⟨rfl, rfl, rfl, rfl, rfl, rfl⟩
  target := presetCount_near _ _
  config := ⟨rfl, rfl, rfl⟩
  column := Int.natCast_inj.mp ((Enc.outPos_of_start rfl rfl).trans (presetCount_column _ (Enc.column_lt _ _ _)))

/-- The drive that the configuration written names is the one that the output is to serve. -/
theorem State.encTake_drive (s : State) (n : Fin 4) : (s.encTake n).drive = s.encDrive n := by
  have hAddr : 0x80104 + n.val * 0x40 = encAddr n 4 := by
    unfold encAddr
    omega
  unfold State.encDrive State.ENC_CFG_DRIVE
  rw [hAddr]
  rfl

/-- A preset of an output that has followed its angle, or has been changed otherwise, with the active copy of `s`. -/
theorem State.presetDo_sets {s w : State} {n : Fin 4} {x : Enc} (hSet : s.OutputSet w n x) (hAct : x.act = s.enc[n].act) :
    ∃ y, s.OutputSet (w.presetDo n) n y ∧ s.Presets n ((s.holderHalf (s.encDrive n)).getD s.enc[n].act) y ∧
      y.armed = x.armed ∧ y.late = none := by
  obtain ⟨hA, hB, -⟩ := hSet.pads
  have hHalf := hSet.encHalf hAct
  have hDrive : (w.encTake n).drive = s.encDrive n := by
    unfold State.encDrive State.ENC_CFG_DRIVE
    rw [State.encTake_drive, State.encDrive, State.ENC_CFG_DRIVE, hHalf, hSet.regH]
  have hOut : s.Presets n ((s.holderHalf (s.encDrive n)).getD s.enc[n].act) (w.presetOut n) := by
    obtain ⟨hLedger, hTarget, hConfig, hColumn⟩ := w.presetOut_presets n
    rw [hDrive, hSet.holderHalf, hSet.own, hAct] at hLedger
    rw [hHalf, hSet.regH, hSet.regH, hSet.regH] at hConfig
    rw [hA, hB] at hColumn
    exact ⟨hLedger, hTarget, hConfig, hColumn⟩
  have hTaken : w.OutputSet ((w.setEnc n (w.presetOut n)).tallyEvent n 1 0) n (w.presetOut n) :=
    .quiet (.setEnc w n _) (State.tallyEvent_quiet _ _ _ _)
  have hArmed : w.enc[n].armed = x.armed := congrArg Enc.armed hSet.own
  rw [State.presetDo_eq]
  refine ⟨_, (hSet.trans hTaken).trans (State.judgeTally_sets _ n), ?_⟩
  unfold State.judgedOut
  rw [hTaken.own]
  exact ⟨hOut.judged _ _, hArmed, rfl⟩

/-! ## The commands -/

section
variable {s : State} {n : Fin 4}

theorem exec_preset (h : s.halfOn .h0 = true ∨ s.halfOn .h1 = true) :
    exec (.preset n) s = .next { s.encPreset n with wst := .ok } :=
  congrArg finish (State.dup_on h _ _)

theorem State.encPreset_off (h : s.encEn n = false) : s.encPreset n = s := by
  unfold State.encPreset
  rw [h]
  rfl

theorem State.encPreset_waits (hEn : s.encEn n = true) (hHand : s.handing (s.encDrive n) = true) :
    s.encPreset n = s.setEnc n { s.enc[n] with late := some (s.encDrive n) } := by
  unfold State.encPreset
  rw [hEn, hHand]
  rfl

theorem State.encPreset_now (hEn : s.encEn n = true) (hHand : s.handing (s.encDrive n) = false) :
    s.encPreset n = (s.encFollow n).presetDo n := by
  unfold State.encPreset
  rw [hEn, hHand]
  rfl

theorem exec_encFirstPreset_due (h : s.presetDue n = true) (hNow : s.gen.at' = s.clk.cyc) :
    exec (.encFirstPreset n) s = .next ((((s.setEnc n { s.enc[n] with armed := false }).presetDo n).setEnc n
      { ((s.setEnc n { s.enc[n] with armed := false }).presetDo n).enc[n] with late := s.enc[n].late })) :=
  if_pos (by rw [h, hNow, beq_self_eq_true]; rfl)

theorem exec_encFirstPreset_not (h : s.presetDue n = false ∨ s.gen.at' ≠ s.clk.cyc) :
    exec (.encFirstPreset n) s = .next s := by
  refine if_neg fun hDue => ?_
  obtain ⟨hDue, hNow⟩ := Bool.and_eq_true_iff.mp hDue
  rcases h with h | h
  · exact Bool.false_ne_true (h.symm.trans hDue)
  · exact h (beq_iff_eq.mp hNow)

theorem State.presetDue_of {c : Fin 8} (hSrc : s.activeSrc (s.encDrive n) = some c) (hArmed : s.enc[n].armed = true)
    (hRel : s.boot.released = true) (hEn : s.encEn n = true) (hValid : tagValid (s.genTag c) = true)
    (hAcq : tagAcq (s.genTag c) = false) : s.presetDue n = true := by
  unfold State.presetDue
  rw [hSrc, hArmed, hRel, hEn]
  dsimp only
  rw [hValid, hAcq]
  rfl

end

theorem encoderPreset : Parts.EncoderPreset := by
  intro s n hOn d preset
  have hLeft {t : State} {h : Half} {y : Enc} (hSet : s.OutputSet t n y) (hPre : s.Presets n h y) : preset h t := by
    obtain ⟨⟨hDone, hAct, hEmit, hJump, hUp, hDn⟩, ⟨hLo, hHi⟩, ⟨hCfg, hLines, hIdx⟩, hColumn⟩ := hPre
    obtain ⟨hA, hB, -⟩ := hSet.pads
    have hOwn := hSet.own
    subst hOwn
    exact ⟨hDone, hAct, hEmit, hJump, hUp, hDn, hLo, hHi, hCfg, hLines, hIdx, hColumn, fun k hk => hSet.other hk, hA, hB, hSet.cfg⟩
  rw [exec_preset hOn]
  refine ⟨fun hEn => ?_, fun hEn hHand => ?_, fun hEn hHand => ?_, ?_, exec_encFirstPreset_not⟩
  · rw [State.encPreset_off hEn]
  · rw [State.encPreset_waits hEn hHand]
    rfl
  · obtain ⟨x, hFollow, hStill⟩ := s.encFollow_sets n
    obtain ⟨hArmed, hAct, -⟩ := Enc.fields_of_still hStill
    obtain ⟨y, hSet, hPre, hArmedNow, hLate⟩ := State.presetDo_sets hFollow hAct
    have hExec : exec (.preset n) s = .next { (s.encFollow n).presetDo n with wst := .ok } := by
      rw [exec_preset hOn, State.encPreset_now hEn hHand]
    generalize (s.encFollow n).presetDo n = t at hSet hExec
    refine ⟨_, hExec, rfl, ?_, ?_, ?_⟩
    · exact (congrArg Enc.armed hSet.own).trans (hArmedNow.trans hArmed)
    · exact (congrArg Enc.late hSet.own).trans hLate
    · have hPreset := hLeft hSet hPre
      exact hPreset
  · intro h c hHolder hSrc hArmed hRel hEn hValid hAcq hNow
    refine ⟨_, exec_encFirstPreset_due (State.presetDue_of hSrc hArmed hRel hEn hValid hAcq) hNow, ?_⟩
    obtain ⟨y, hSet, hPre, hArmedNow, -⟩ := State.presetDo_sets (State.OutputSet.setEnc s n { s.enc[n] with armed := false }) rfl
    have hAfter := hSet.trans (.setEnc _ n { y with late := s.enc[n].late })
    rw [hSet.own]
    rw [hHolder] at hPre
    have hArmedAfter := (congrArg Enc.armed hAfter.own).trans hArmedNow
    have hLateAfter := congrArg Enc.late hAfter.own
    exact ⟨hArmedAfter, hLateAfter, hLeft hAfter (hPre.withLate _)⟩

end Sys2Proof.Machine
end

section
/-! PROOFS. Count steps of an encoder output (R261 to R264), and what a read of TARGET captures (R276). -/

namespace Sys2Proof.Machine

/-! ## The ledger of one step (R261, R262) -/

/-- The output with one step towards TARGET taken at cycle `cyc` (R261). -/
def Enc.stepped (x : Enc) (cyc : Nat) : Enc :=
  { x with
    emit := wrap48 (x.emit + (if decide (0 < x.backlog) then 1 else -1)), last := cyc
    up := if decide (0 < x.backlog) then (x.up + 1) % 2 ^ 32 else x.up
    dn := if decide (0 < x.backlog) then x.dn else (x.dn + 1) % 2 ^ 32 }

/-- The output with its levels driven by OUT_POS (R264, R265). -/
def Enc.driven (x : Enc) : Enc := { x with a := (x.abOf x.outPos).1, b := (x.abOf x.outPos).2, z := x.zOf x.outPos }

theorem State.encStep_eq (s : State) (n : Fin 4) :
    s.encStep n = ((s.setEnc n (s.enc[n].stepped s.clk.cyc).driven).encPads n).judgeTally n := rfl

section
variable {x : Enc} {cyc : Nat}

theorem Enc.stepped_up (h : 0 < x.backlog) : (x.stepped cyc).emit = wrapSigned (2 ^ 48) (x.emit + 1) ∧
    (x.stepped cyc).up = (x.up + 1) % 2 ^ 32 ∧ (x.stepped cyc).dn = x.dn := by
  simp [Enc.stepped, wrap48, h]

theorem Enc.stepped_down (h : x.backlog < 0) : (x.stepped cyc).emit = wrapSigned (2 ^ 48) (x.emit - 1) ∧
    (x.stepped cyc).dn = (x.dn + 1) % 2 ^ 32 ∧ (x.stepped cyc).up = x.up := by
  simp [Enc.stepped, wrap48, not_lt_of_gt h, Int.sub_eq_add_neg]

/-- EMIT moved by one towards TARGET, both of 48 bits: BACKLOG is one nearer to zero. -/
theorem Enc.stepped_backlog (h : x.backlog ≠ 0) : (x.stepped cyc).backlog.natAbs + 1 = x.backlog.natAbs := by
  have hTarget : (x.stepped cyc).target = x.target := rfl
  rcases lt_or_gt_of_ne h with hDown | hUp
  · obtain ⟨hEmit, -⟩ := Enc.stepped_down (cyc := cyc) hDown
    unfold Enc.backlog at *
    rw [hTarget, hEmit]
    unfold wrap48 wrapSigned at *
    omega
  · obtain ⟨hEmit, -⟩ := Enc.stepped_up (cyc := cyc) hUp
    unfold Enc.backlog at *
    rw [hTarget, hEmit]
    unfold wrap48 wrapSigned at *
    omega

/-- EMIT = UP − DN modulo 2^32 goes on to hold (R262). -/
theorem Enc.stepped_balance (h : x.backlog ≠ 0) (hBalance : (x.emit - ((x.up : Int) - x.dn)) % 2 ^ 32 = 0) :
    ((x.stepped cyc).emit - (((x.stepped cyc).up : Int) - (x.stepped cyc).dn)) % 2 ^ 32 = 0 := by
  rcases lt_or_gt_of_ne h with hDown | hUp
  · obtain ⟨hEmit, hDn, hUp⟩ := Enc.stepped_down (cyc := cyc) hDown
    rw [hEmit, hDn, hUp]
    unfold wrapSigned
    omega
  · obtain ⟨hEmit, hUp, hDn⟩ := Enc.stepped_up (cyc := cyc) hUp
    rw [hEmit, hUp, hDn]
    unfold wrapSigned
    omega

end

/-- Output `y` is output `x` with one step driven at cycle `cyc` (R261 to R264). -/
structure Enc.StepsTo (x y : Enc) (cyc : Nat) : Prop where
  kept : y.target = x.target ∧ y.last = cyc ∧ y.q = x.q ∧ y.jump = x.jump
  nearer : y.backlog.natAbs + 1 = x.backlog.natAbs
  up : 0 < x.backlog → y.emit = wrapSigned (2 ^ 48) (x.emit + 1) ∧ y.up = (x.up + 1) % 2 ^ 32 ∧ y.dn = x.dn
  down : x.backlog < 0 → y.emit = wrapSigned (2 ^ 48) (x.emit - 1) ∧ y.dn = (x.dn + 1) % 2 ^ 32 ∧ y.up = x.up
  balance : (x.emit - ((x.up : Int) - x.dn)) % 2 ^ 32 = 0 → (y.emit - ((y.up : Int) - y.dn)) % 2 ^ 32 = 0
  levels : (y.a, y.b) = y.abOf y.outPos

theorem Enc.stepped_stepsTo {x : Enc} (h : x.backlog ≠ 0) (cyc : Nat) : x.StepsTo (x.stepped cyc).driven cyc where
  kept := ⟨rfl, rfl, rfl, rfl⟩
  nearer := Enc.stepped_backlog (cyc := cyc) h
  up := Enc.stepped_up (cyc := cyc)
  down := Enc.stepped_down (cyc := cyc)
  balance := Enc.stepped_balance (cyc := cyc) h
  levels := rfl

/-- The limits are no part of the ledger. -/
theorem Enc.StepsTo.judged {x y : Enc} {cyc : Nat} (h : x.StepsTo y cyc) (hi ovf : Bool) :
    x.StepsTo { y with hi := hi, ovf := ovf } cyc := ⟨h.kept, h.nearer, h.up, h.down, h.balance, h.levels⟩

/-! ## The pads of an output (R51, R86, R264) -/

theorem State.encPads_keeps {α : Type} {f : State → α} (h : ∀ (s : State) p, f { s with pads := p } = f s) (s : State)
    (n : Fin 4) : f (s.encPads n) = f s := by
  unfold State.encPads
  dsimp only
  split
  · exact h s _
  · rfl

/-- From release on A and B take the levels driven, unless held; Z has a hold of its own. -/
theorem State.encPads_levels (s : State) (n : Fin 4) :
    let moves := s.boot.released && !s.pads.encHeld.getLsbD n.val
    (s.encPads n).pads.encA = (if moves then bput s.pads.encA n.val s.enc[n].a else s.pads.encA) ∧
      (s.encPads n).pads.encB = (if moves then bput s.pads.encB n.val s.enc[n].b else s.pads.encB) := by
  unfold State.encPads
  extract_lets moves x p pa pz
  have hZ : pz.encA = pa.encA ∧ pz.encB = pa.encB := by
    unfold pz
    split <;> exact ⟨rfl, rfl⟩
  have hA : pa.encA = (if p.encHeld.getLsbD n.val then p.encA else bput p.encA n.val x.a) ∧
      pa.encB = (if p.encHeld.getLsbD n.val then p.encB else bput p.encB n.val x.b) := by
    unfold pa
    split <;> exact ⟨rfl, rfl⟩
  cases hRel : s.boot.released
  · unfold moves
    rw [hRel]
    exact ⟨rfl, rfl⟩
  · rw [if_pos rfl]
    obtain ⟨hOutA, hOutB⟩ := hA
    obtain ⟨hPadA, hPadB⟩ := hZ
    rw [hPadA, hPadB, hOutA, hOutB]
    unfold moves
    rw [hRel]
    cases p.encHeld.getLsbD n.val <;> exact ⟨rfl, rfl⟩

theorem State.encPads_held {s : State} {n : Fin 4} (h : s.pads.encHeld.getLsbD n.val = true) :
    (s.encPads n).pads.encA = s.pads.encA ∧ (s.encPads n).pads.encB = s.pads.encB := by
  obtain ⟨hA, hB⟩ := s.encPads_levels n
  rw [hA, hB, h, Bool.not_true, Bool.and_false]
  exact ⟨rfl, rfl⟩

theorem State.encPads_free {s : State} {n : Fin 4} (hRel : s.boot.released = true) (h : s.pads.encHeld.getLsbD n.val = false) :
    (s.encPads n).pads.encA.getLsbD n.val = s.enc[n].a ∧ (s.encPads n).pads.encB.getLsbD n.val = s.enc[n].b := by
  obtain ⟨hA, hB⟩ := s.encPads_levels n
  rw [hA, hB, h, hRel]
  exact ⟨bput_get _ _ _ n.isLt, bput_get _ _ _ n.isLt⟩

/-! ## A step driven -/

/-- The state in which a step has been driven, before the limits are judged. -/
def State.encDriven (s : State) (n : Fin 4) : State := (s.setEnc n (s.enc[n].stepped s.clk.cyc).driven).encPads n

theorem State.encDriven_keeps {α : Type} {f : State → α} (hPads : ∀ (s : State) p, f { s with pads := p } = f s)
    (hEnc : ∀ s x, f (State.setEnc s n x) = f s) (s : State) : f (s.encDriven n) = f s :=
  (State.encPads_keeps hPads _ n).trans (hEnc s _)

section
variable {s : State} {n : Fin 4}

theorem State.encDriven_enc : (s.encDriven n).enc = vset s.enc n (s.enc[n].stepped s.clk.cyc).driven :=
  State.encPads_keeps (f := State.enc) (fun _ _ => rfl) _ n

theorem State.encDriven_own : (s.encDriven n).enc[n] = (s.enc[n].stepped s.clk.cyc).driven := by
  rw [State.encDriven_enc, vset_same]

theorem State.encDriven_clk : (s.encDriven n).clk = s.clk := State.encDriven_keeps (f := State.clk) (fun _ _ => rfl) (fun _ _ => rfl) s

theorem State.encDriven_cfg : (s.encDriven n).cfg = s.cfg := State.encDriven_keeps (f := State.cfg) (fun _ _ => rfl) (fun _ _ => rfl) s

theorem State.encDriven_powered (p : Page) : (s.encDriven n).powered p = s.powered p :=
  State.encDriven_keeps (f := fun t : State => t.powered p) (fun _ _ => rfl) (fun _ _ => rfl) s

theorem State.encDriven_heldOff : (s.encDriven n).heldOff .enc (2 * n.val) = s.heldOff .enc (2 * n.val) :=
  (State.encPads_keeps (f := fun t : State => t.heldOff .enc (2 * n.val)) (fun _ _ => rfl) _ n).trans
    ((State.OutputSet.setEnc s n _).heldOff (.of_xd rfl rfl) rfl)

/-- The limit of TALLY_HI is read from the copy that drives the output, which stays. -/
theorem State.OutputSet.encWarn {t : State} {y : Enc} (h : s.OutputSet t n y) (hAct : y.act = s.enc[n].act) :
    t.encWarn n = s.encWarn n := by
  unfold State.encWarn State.ENC_WARN_BKL_WARN
  rw [h.encHalf hAct, h.regH]

theorem State.encDriven_encWarn : (s.encDriven n).encWarn n = s.encWarn n :=
  (State.encPads_keeps (f := fun t : State => t.encWarn n) (fun _ _ => rfl) _ n).trans
    ((State.OutputSet.setEnc s n _).encWarn rfl)

/-- After a step the output has the ledger and the levels of that step, its limits judged. -/
theorem State.encStep_own : (s.encStep n).enc[n] = { (s.enc[n].stepped s.clk.cyc).driven with
    hi := ((s.encDriven n).judgedOut n).hi, ovf := ((s.encDriven n).judgedOut n).ovf } := by
  rw [State.encStep_eq]
  refine ((s.encDriven n).judgeTally_sets n).own.trans ?_
  unfold State.judgedOut
  rw [State.encDriven_own]

theorem State.encStep_other {k : Fin 4} (h : k ≠ n) : (s.encStep n).enc[k] = s.enc[k] := by
  refine (((s.encDriven n).judgeTally_sets n).other h).trans ?_
  rw [State.encDriven_enc]
  exact vset_other _ _ _ _ h

theorem State.encStep_clk : (s.encStep n).clk = s.clk := ((s.encDriven n).judgeTally_sets n).clk.trans State.encDriven_clk

theorem State.encStep_cfg : (s.encStep n).cfg = s.cfg := ((s.encDriven n).judgeTally_sets n).cfg.trans State.encDriven_cfg

theorem State.encStep_held (h : s.pads.encHeld.getLsbD n.val = true) :
    (s.encStep n).pads.encA = s.pads.encA ∧ (s.encStep n).pads.encB = s.pads.encB := by
  obtain ⟨hA, hB, -⟩ := ((s.encDriven n).judgeTally_sets n).pads
  obtain ⟨hKeepA, hKeepB⟩ := State.encPads_held (s := s.setEnc n (s.enc[n].stepped s.clk.cyc).driven) h
  exact ⟨hA.trans hKeepA, hB.trans hKeepB⟩

theorem State.encStep_free (hRel : s.boot.released = true) (h : s.pads.encHeld.getLsbD n.val = false) :
    (s.encStep n).pads.encA.getLsbD n.val = (s.encStep n).enc[n].a ∧
      (s.encStep n).pads.encB.getLsbD n.val = (s.encStep n).enc[n].b := by
  obtain ⟨hA, hB, -⟩ := ((s.encDriven n).judgeTally_sets n).pads
  obtain ⟨hOwnA, hOwnB⟩ := State.encPads_free (s := s.setEnc n (s.enc[n].stepped s.clk.cyc).driven) hRel h
  rw [State.setEnc_get] at hOwnA hOwnB
  rw [State.encStep_own, State.encStep_eq]
  exact ⟨(congrArg (·.getLsbD n.val) hA).trans hOwnA, (congrArg (·.getLsbD n.val) hB).trans hOwnB⟩

theorem State.encStep_ovf (hp : s.powered .enc = true) :
    (s.encStep n).liveBit .enc .shared (2 * n.val + 1) = decide (2 ^ 20 < (s.encStep n).enc[n].backlog.natAbs) := by
  refine (State.judgeTally_ovf (s := s.encDriven n) ((State.encDriven_powered _).trans hp)).trans ?_
  rw [State.encDriven_own, State.encStep_own]
  rfl

theorem State.encStep_hi (hp : s.powered .enc = true) (hFree : s.heldOff .enc (2 * n.val) = false) :
    (s.encStep n).liveBit .enc .shared (2 * n.val) = decide (s.encWarn n < (s.encStep n).enc[n].backlog.natAbs) := by
  refine (State.judgeTally_hi (s := s.encDriven n) ((State.encDriven_powered _).trans hp)
    (State.encDriven_heldOff.trans hFree)).trans ?_
  rw [State.encDriven_own, State.encDriven_encWarn, State.encStep_own]
  rfl

end

/-! ## Words captured from an address on (R8, R276) -/

section
variable {s : State}

theorem State.captureFrom_keeps {α : Type} {f : State → α} (h : ∀ (s : State) m, f { s with capt := m } = f s) (s : State)
    (a : Nat) (ws : List Word) : f (s.captureFrom a ws) = f s := by
  induction ws generalizing s a with
  | nil => rfl
  | cons w ws ih => exact (ih (s.capture a w) (a + 4)).trans (h s _)

theorem State.captureFrom_below {a b : Nat} (h : b < a) (ws : List Word) : (s.captureFrom a ws).captured b = s.captured b := by
  induction ws generalizing s a with
  | nil => rfl
  | cons w ws ih =>
    refine (ih (a := a + 4) (by omega)).trans ?_
    exact Store.get_set_other 0 0 _ _ _ _ (by omega)

/-- Word `i` of those captured from address `a` on stands at `a + 4 i`. -/
theorem State.captureFrom_get (hwf : Store.wf (fun _ => 0) s.capt = true) (a : Nat) {ws : List Word} {i : Nat} {w : Word}
    (h : ws[i]? = some w) : (s.captureFrom a ws).captured (a + 4 * i) = w := by
  induction ws generalizing s a i with
  | nil => simp at h
  | cons v ws ih =>
    cases i with
    | zero =>
      obtain rfl : v = w := by simpa using h
      refine (State.captureFrom_below (s := s.capture a v) (by omega) ws).trans ?_
      exact Store.get_set_same (fun _ => 0) _ _ _ hwf
    | succ i =>
      have hNext := ih (s := s.capture a v) (Store.set_wf (fun _ => 0) _ a v hwf) (a + 4) (i := i) (by simpa using h)
      rw [show a + 4 * (i + 1) = a + 4 + 4 * i by omega]
      exact hNext

end

/-! ## The commands -/

theorem exec_encCountStep (s : State) (n : Fin 4) (dt : Nat) : exec (.encCountStep n dt) s =
    .next (if ((s.wait dt).encFollow n).encMayStep n then ((s.wait dt).encFollow n).encStep n else (s.wait dt).encFollow n) := rfl

theorem exec_encTargetRead {s : State} {n : Fin 4} (h : s.halfOn .h0 = true ∨ s.halfOn .h1 = true) :
    exec (.encTargetRead n) s = .next { s.encCapture n with wst := .ok } := by
  have hOn : s.dupRead (encAddr n 0x18) (.ok, s.encCapture n) = (.ok, s.encCapture n) := if_pos (by simpa using h)
  exact congrArg finish hOn

theorem State.backlog_of_encMayStep {s : State} {n : Fin 4} (h : s.encMayStep n = true) : s.enc[n].backlog ≠ 0 := by
  unfold State.encMayStep at h
  simp only [Bool.and_eq_true, bne_iff_ne] at h
  obtain ⟨⟨⟨-, hBacklog⟩, -⟩, -⟩ := h
  exact hBacklog

theorem State.encStep_stepsTo {s : State} {n : Fin 4} (h : s.encMayStep n = true) :
    (s.enc[n]).StepsTo (s.encStep n).enc[n] s.clk.cyc := by
  rw [State.encStep_own]
  exact (Enc.stepped_stepsTo (State.backlog_of_encMayStep h) _).judged _ _

theorem encoderSteps : Parts.EncoderSteps := by
  intro s n dt u x w
  obtain ⟨z, hFollow, hStill⟩ := (s.wait dt).encFollow_sets n
  obtain ⟨-, hAct, hCfg⟩ := Enc.fields_of_still hStill
  refine ⟨fun hNot => ?_, fun hMay => ?_, fun hOn hwf => ?_⟩
  · rw [exec_encCountStep, if_neg (by rw [hNot]; decide)]
  · refine ⟨_, (exec_encCountStep s n dt).trans (congrArg Host.Outcome.next (if_pos hMay)), ?_⟩
    obtain ⟨⟨hTarget, hLast, hQ, hJump⟩, hNearer, hUp, hDown, hBalance, hLevels⟩ := State.encStep_stepsTo hMay
    have hWarn : u.encWarn n = s.encWarn n := hFollow.encWarn hAct
    intro y
    refine ⟨hTarget, hLast.trans (congrArg Clk.cyc State.encStep_clk.symm), State.encStep_clk, hQ, hJump, hNearer, hUp, hDown,
      hBalance, hLevels, fun hRel hFree => ?_, State.encStep_held, fun hp => ?_, fun hp hFree => ?_, fun k hk => ?_, ?_⟩
    · exact State.encStep_free (hFollow.released.trans hRel) hFree
    · exact State.encStep_ovf ((hFollow.powered _).trans hp)
    · rw [State.encStep_hi ((hFollow.powered _).trans hp)
        ((hFollow.heldOff ((s.wait dt).encFollow_sameCover n) hCfg).trans hFree), hWarn]
      rfl
    · exact (State.encStep_other hk).trans (hFollow.other hk)
    · exact State.encStep_cfg.trans hFollow.cfg
  · obtain ⟨v, hNow, -⟩ := s.encFollow_sets n
    refine ⟨_, exec_encTargetRead hOn, ?_⟩
    have hWords {i : Nat} {v : Word} (hi : (w.words (s.encFollow n).now)[i]? = some v) :
        (s.encCapture n).captured (encAddr n 0x18 + 4 * i) = v :=
      State.captureFrom_get (hNow.capt ▸ hwf) _ hi
    have hEnc : (s.encCapture n).enc = (s.encFollow n).enc := State.captureFrom_keeps (f := State.enc) (fun _ _ => rfl) _ _ _
    have hCfg : (s.encCapture n).cfg = s.cfg := (State.captureFrom_keeps (f := State.cfg) (fun _ _ => rfl) _ _ _).trans hNow.cfg
    exact ⟨hWords (i := 0) rfl, hWords (i := 1) rfl, hWords (i := 2) rfl, hWords (i := 3) rfl, hWords (i := 4) rfl,
      hWords (i := 5) rfl, hEnc, hCfg⟩

/-- Settles O30: EN and presets by what they write and take, a step by the ledger that it leaves and the pads and limits that
follow, a read of TARGET by the words captured. -/
theorem encoderOutputs : Obligations.EncoderOutputs := ⟨encoderEnable, encoderPreset, encoderSteps⟩

end Sys2Proof.Machine
end

section
/-! PROOFS. The prediction switch (R260, R277, R288): the newest due tick comes into use, and every committed slot takes the words held
for it; presets and freezing move level counts alone. -/

namespace Sys2Proof.Machine

/-! ## The tick that comes into use (R260, Table 1.3) -/

/-- Once the oldest waiting tick is due, some tick comes into use. -/
theorem dueTick_of_due {now c : Nat} (h : c + 500 ≤ now) (q : Vector Pub 8) (more : List (Nat × Vector Pub 8)) :
    ∃ p rest, dueTick now ((c, q) :: more) = some (p, rest) := by
  unfold dueTick
  rw [if_pos h]
  cases dueTick now more with
  | none => exact ⟨q, more, rfl⟩
  | some r => exact ⟨r.1, r.2, rfl⟩

/-! ## What outputs that follow their angles leave of the rest -/

theorem State.OutputSet.tickView {s t : State} {n : Fin 4} {y : Enc} (h : s.OutputSet t n y) : t.tickView = s.tickView :=
  State.tickView_of_quiet (s := s.setEnc n y) h

theorem State.OutputSet.aev {s t : State} {n : Fin 4} {y : Enc} (h : s.OutputSet t n y) : t.aev = s.aev := by
  have hAev := congrArg State.aev h
  exact hAev

theorem State.encFollowAll_tickView (s : State) : s.encFollowAll.tickView = s.tickView :=
  foldl_keeps (fun t n => by
    obtain ⟨y, hSet, -⟩ := t.encFollow_sets n
    exact hSet.tickView) _ _

theorem State.encFollowAll_aev (s : State) : s.encFollowAll.aev = s.aev :=
  foldl_keeps (fun t n => by
    obtain ⟨y, hSet, -⟩ := t.encFollow_sets n
    exact hSet.aev) _ _

/-! ## Slots without their level counts -/

/-- A slot without its level count and the hold of a latch move: what a preset leaves (R279, R287). -/
def AevSlot.plan (x : AevSlot) : AevSlot := { x with c := 0, hold := false }

/-- A slot that has taken the words whose commit waited (R288). -/
def AevSlot.committed (x : AevSlot) : AevSlot :=
  match x.commit with
  | none => x
  | some (a, act, par) => { x with ang := a, act := act.getD x.act, par := par.getD x.par, commit := none }

theorem AevSlot.plan_committed (x : AevSlot) : x.committed.plan = x.plan.committed := by
  obtain ⟨ang, act, par, pAct, pPar, commit⟩ := x
  cases commit <;> rfl

/-- Nothing is left to take. -/
theorem AevSlot.committed_commit (x : AevSlot) : x.committed.commit = none := by
  unfold AevSlot.committed
  split
  case h_1 h => exact h
  case h_2 => rfl

theorem AevSlot.committed_committed (x : AevSlot) : x.committed.committed = x.committed := by
  have hNone := x.committed_commit
  generalize x.committed = y at hNone ⊢
  unfold AevSlot.committed
  rw [hNone]

/-- The plan of slot `i`. -/
def State.plan (s : State) (i : Fin 256) : AevSlot := (s.aev.slot[i]).plan

/-- A slot replaced by one of the same plan changes no plan. -/
theorem State.setSlot_plan {s : State} {i : Fin 256} {x : AevSlot} (h : x.plan = s.plan i) (j : Fin 256) :
    (s.setSlot i x).plan j = s.plan j := by
  unfold State.plan State.setSlot
  by_cases e : j = i
  · subst e
    dsimp only
    rw [vset_same]
    exact h
  · dsimp only
    rw [vset_other _ _ _ _ e]

theorem State.presetSlot_plan (s : State) (i j : Fin 256) : (s.presetSlot i).plan j = s.plan j := by
  unfold State.presetSlot
  dsimp only
  split
  · rfl
  · refine State.setSlot_plan ?_ j
    rfl

theorem State.presetDrive_plan (s : State) (d : Drive) (j : Fin 256) : (s.presetDrive d).plan j = s.plan j :=
  foldl_keeps (view := fun t => t.plan j) (fun t i => by
    split
    · exact t.presetSlot_plan i j
    · rfl) _ _

theorem State.judgeFreeze_plan (s : State) (d : Drive) (j : Fin 256) : (s.judgeFreeze d).plan j = s.plan j := by
  unfold State.judgeFreeze
  extract_lets was ok a s1
  split
  · exact s1.presetDrive_plan d j
  · rfl

/-- A commit acts on its own slot (R288). -/
theorem State.commitSlot_plan (s : State) (i j : Fin 256) :
    (s.commitSlot i).plan j = if j = i then (s.plan j).committed else s.plan j := by
  have hTaken (y : AevSlot) (hy : y = (s.aev.slot[i]).committed) :
      (s.setSlot i y).plan j = if j = i then (s.plan j).committed else s.plan j := by
    subst hy
    unfold State.plan State.setSlot
    dsimp only
    split
    case isTrue e =>
      subst e
      rw [vset_same, AevSlot.plan_committed]
    case isFalse e => rw [vset_other _ _ _ _ e]
  unfold State.commitSlot
  extract_lets x
  split
  case h_1 hNone =>
    have hSame : (s.plan i).committed = s.plan i := by
      unfold State.plan
      rw [← AevSlot.plan_committed]
      unfold AevSlot.committed
      rw [hNone]
    split
    case isTrue e =>
      subst e
      exact hSame.symm
    case isFalse => rfl
  case h_2 a act par hSome =>
    extract_lets y s1
    have hOwn : y = (s.aev.slot[i]).committed := by
      unfold AevSlot.committed
      rw [hSome]
    split
    · exact (s1.presetSlot_plan i j).trans (hTaken y hOwn)
    · exact hTaken y hOwn

/-- Slots committed one after the other: each of them has taken its words, the others stand. -/
theorem State.commitSlots_plan (l : List (Fin 256)) (s : State) (j : Fin 256) :
    (l.foldl State.commitSlot s).plan j = if j ∈ l then (s.plan j).committed else s.plan j := by
  induction l generalizing s with
  | nil => rfl
  | cons i l ih =>
    rw [List.foldl_cons, ih, State.commitSlot_plan]
    by_cases hHere : j = i
    · subst hHere
      simp [AevSlot.committed_committed]
    · simp [hHere]

/-! ## What commits and freezing leave alone -/

theorem State.presetSlot_tickView (s : State) (i : Fin 256) : (s.presetSlot i).tickView = s.tickView := by
  unfold State.presetSlot
  dsimp only
  split
  · rfl
  · rfl

theorem State.commitSlot_tickView (s : State) (i : Fin 256) : (s.commitSlot i).tickView = s.tickView := by
  unfold State.commitSlot
  extract_lets x
  split
  · rfl
  · extract_lets y s1
    split
    · exact s1.presetSlot_tickView i
    · rfl

theorem State.judgeFreeze_tickView (s : State) (d : Drive) : (s.judgeFreeze d).tickView = s.tickView := by
  unfold State.judgeFreeze
  extract_lets was ok a s1
  split
  · refine (foldl_keeps (view := State.tickView) (fun t i => ?_) _ s1 : (s1.presetDrive d).tickView = s1.tickView)
    split
    · exact t.presetSlot_tickView i
    · rfl
  · rfl

/-! ## The switch -/

/-- What follows a tick that has come into use: committed slots take their words, freezing is judged, the outputs follow. -/
def State.switched (s : State) : State :=
  ((((List.finRange 256).foldl State.commitSlot s).judgeFreeze 0).judgeFreeze 1).encFollowAll

theorem State.switched_tickView (s : State) : s.switched.tickView = s.tickView := by
  unfold State.switched
  rw [State.encFollowAll_tickView, State.judgeFreeze_tickView, State.judgeFreeze_tickView]
  exact foldl_keeps State.commitSlot_tickView _ _

theorem State.switched_plan (s : State) (i : Fin 256) : s.switched.plan i = (s.plan i).committed := by
  have hFollow (t : State) : t.encFollowAll.plan i = t.plan i := by
    unfold State.plan
    rw [State.encFollowAll_aev]
  unfold State.switched
  rw [hFollow, State.judgeFreeze_plan, State.judgeFreeze_plan, State.commitSlots_plan, if_pos (List.mem_finRange i)]

section
variable {s : State} {c : Nat} {q p : Vector Pub 8} {more rest : List (Nat × Vector Pub 8)}

theorem exec_predictionSwitch_none (h : s.gen.wait = []) : exec .predictionSwitch s = .next s := by
  change execPredictionSwitch s = _
  unfold execPredictionSwitch
  rw [h]

theorem exec_predictionSwitch (h : s.gen.wait = (c, q) :: more)
    (hDue : dueTick (s.waitTill (c + 500)).encFollowAll.clk.cyc (s.waitTill (c + 500)).encFollowAll.gen.wait = some (p, rest)) :
    exec .predictionSwitch s = .next ((s.waitTill (c + 500)).encFollowAll.takeGen p rest).switched := by
  change execPredictionSwitch s = _
  unfold execPredictionSwitch
  rw [h]
  dsimp only
  rw [hDue]
  rfl

end

/-- The words of a slot that has taken those held for it (R288). -/
theorem AevSlot.words_of_plan {x y : AevSlot} (h : y.plan = x.plan.committed) : y.commit = none ∧
    (∀ a act par, x.commit = some (a, act, par) → y.ang = a ∧ y.act = act.getD x.act ∧ y.par = par.getD x.par) ∧
    y.pAct = x.pAct ∧ y.pPar = x.pPar ∧ (x.commit = none → y.ang = x.ang ∧ y.act = x.act ∧ y.par = x.par) := by
  have hPlan (v : AevSlot) : v.plan.commit = v.commit := rfl
  cases hCommit : x.commit with
  | none =>
    have hSame : x.plan.committed = x.plan := by
      unfold AevSlot.committed
      rw [hPlan, hCommit]
    rw [hSame] at h
    simp only [AevSlot.plan, AevSlot.mk.injEq] at h
    obtain ⟨hAng, hAct, hPar, hPAct, hPPar, hNone, -⟩ := h
    exact ⟨hNone.trans hCommit, nofun, hPAct, hPPar, fun _ => ⟨hAng, hAct, hPar⟩⟩
  | some w =>
    obtain ⟨a, act, par⟩ := w
    have hTaken : x.plan.committed = { x.plan with ang := a, act := act.getD x.act, par := par.getD x.par, commit := none } := by
      unfold AevSlot.committed
      rw [hPlan, hCommit]
      rfl
    rw [hTaken] at h
    simp only [AevSlot.plan, AevSlot.mk.injEq] at h
    obtain ⟨hAng, hAct, hPar, hPAct, hPPar, hNone, -⟩ := h
    refine ⟨hNone, fun a' act' par' hWords => ?_, hPAct, hPPar, nofun⟩
    cases hWords
    exact ⟨hAng, hAct, hPar⟩

theorem predictionSwitches : Parts.PredictionSwitches := by
  intro s
  refine ⟨exec_predictionSwitch_none, fun c q more hWait => ?_⟩
  generalize hu : (s.waitTill (c + 500)).encFollowAll = u
  have hView : u.tickView = (s.waitTill (c + 500)).tickView := hu ▸ State.encFollowAll_tickView _
  have hClk : u.clk = (s.waitTill (c + 500)).clk := congrArg Steady.clk (State.steady_of_tickView hView)
  have hGen : u.gen = s.gen := congrArg Steady.gen (State.steady_of_tickView hView)
  have hCyc : u.clk.cyc = max (c + 500) s.clk.cyc := by rw [hClk, State.waitTill_clk_cyc]
  obtain ⟨p, rest, hDue⟩ := dueTick_of_due (hCyc ▸ Nat.le_max_left (c + 500) s.clk.cyc) q more
  rw [← hWait] at hDue
  have hExec := exec_predictionSwitch hWait (hu.symm ▸ hGen.symm ▸ hDue)
  rw [hu] at hExec
  refine ⟨_, hExec, ?_⟩
  have hAfter := (u.takeGen p rest).switched_tickView
  have hPlans := (u.takeGen p rest).switched_plan
  generalize (u.takeGen p rest).switched = t at hAfter hPlans
  have hSteady := State.steady_of_tickView hAfter
  have hClkNow : t.clk = u.clk := congrArg Steady.clk hSteady
  have hGenNow : t.gen = (u.takeGen p rest).gen := congrArg Steady.gen hSteady
  have hCfg : t.cfg = s.cfg := (congrArg Steady.cfg hSteady).trans (congrArg Steady.cfg (State.steady_of_tickView hView))
  have hPchBefore : u.pch = (s.waitTill (c + 500)).pch := State.pch_of_tickView hView
  have hPch : t.pch = s.pch := (State.pch_of_tickView hAfter).trans hPchBefore
  have hAev : u.aev = s.aev := hu ▸ State.encFollowAll_aev _
  have hPlan (i : Fin 256) : (u.takeGen p rest).plan i = s.plan i := congrArg (fun v : Aev => (v.slot[i]).plan) hAev
  refine ⟨?_, ?_, ?_, hCfg, hPch, fun i => AevSlot.words_of_plan ((hPlans i).trans (congrArg AevSlot.committed (hPlan i)))⟩
  · rw [hClkNow, hCyc, Nat.max_comm]
  · rw [hClkNow, hDue, hGenNow]
    rfl
  · rw [hClkNow, hGenNow]
    rfl

end Sys2Proof.Machine
end

section
/-! PROOFS. Internal triggers arrive at their targets (R284, R285): each is taken by a target that runs, and else dropped and
counted. -/

namespace Sys2Proof.Machine

/-! ## What no arrival changes -/

/-- What the arrival of an internal trigger leaves alone: the clock, the triggers still on their way, registers and pads. -/
def State.trigView (s : State) : Clk × List AevTrig × List (Nat × Word) × BitVec 8 := (s.clk, s.aev.trig, s.cfg, s.pads.aev)

theorem State.trigView_of_quiet {s t : State} (h : t.quiet = s.quiet) : t.trigView = s.trigView := by
  have hView := congrArg State.trigView h
  exact hView

theorem State.trigView_ite {s t u : State} {c : Prop} [Decidable c] (ht : t.trigView = s.trigView) (hu : u.trigView = s.trigView) :
    (if c then t else u).trigView = s.trigView := by
  split
  · exact ht
  · exact hu

theorem State.trigSdm_trigView (s : State) (x : AevTrig) : (s.trigSdm x).trigView = s.trigView :=
  State.trigView_ite (State.trigView_ite rfl rfl) rfl

theorem State.trigSnap_trigView (s : State) (x : AevTrig) : (s.trigSnap x).trigView = s.trigView := by
  unfold State.trigSnap
  split
  · exact State.trigView_ite (State.trigView_of_quiet (State.offer_quiet _ _ _ _)) rfl
  · rfl

theorem State.trigFrec_trigView (s : State) (x : AevTrig) : (s.trigFrec x).trigView = s.trigView := by
  unfold State.trigFrec
  split
  · exact State.trigView_ite rfl rfl
  · rfl

theorem State.trigSsi_trigView (s : State) (x : AevTrig) : (s.trigSsi x).trigView = s.trigView := by
  have hStart (n : Fin 4) : (s.ssiStart n).trigView = s.trigView := State.trigView_ite (State.trigView_ite rfl rfl) rfl
  unfold State.trigSsi
  split
  · exact State.trigView_ite (hStart _) rfl
  · rfl

/-! ## Each target -/

section
variable {s : State} {x : AevTrig}

theorem State.trigSdm_runs (hRel : s.boot.released = true) (hOn : s.halfOn .h0 = true ∨ s.halfOn .h1 = true) :
    s.trigSdm x = s.sdmTrig x.slot (BitVec.ofNat 8 x.target) (x.cyc + 2) x.time :=
  if_pos (by simpa [hRel] using hOn)

theorem State.trigSdm_drops (h : s.boot.released = false ∨ s.halfOn .h0 = false ∧ s.halfOn .h1 = false) :
    s.trigSdm x = s.dropTrig x.slot := by
  refine if_neg fun hRuns => ?_
  obtain ⟨hRel, hOn⟩ := Bool.and_eq_true_iff.mp hRuns
  rcases h with hOff | ⟨h0, h1⟩
  · exact Bool.false_ne_true (hOff.symm.trans hRel)
  · rw [h0, h1] at hOn
    exact Bool.false_ne_true hOn

theorem State.trigSnap_eq {n : Fin 8} (h : n.val = x.target) : s.trigSnap x =
    if s.pchOn n && s.halfOn (pchHalf n.val) then
      s.offer (s.snapQueue n.val) 1 ((s.publishedAt n x.cyc).snapBytes n 2 x.time)
    else s.dropTrig x.slot := by
  obtain ⟨k, hk⟩ := n
  dsimp only at h
  subst h
  exact dif_pos hk

theorem State.trigFrec_eq {n : Fin 8} (h : n.val = x.target) : s.trigFrec x =
    if s.frec[n].st != .off && s.frec[n].cfg.bit 0 then s.setFrec n (s.frec[n].offer 0 x.time s.clk.cyc)
    else s.dropTrig x.slot := by
  obtain ⟨k, hk⟩ := n
  dsimp only at h
  subst h
  exact dif_pos hk

theorem State.trigSsi_eq {n : Fin 4} (h : n.val = x.target) : s.trigSsi x =
    if s.dchOn n && s.dch[n].mode == 2 && s.halfOn (excHalf n.val) then s.ssiStart n else s.dropTrig x.slot := by
  obtain ⟨k, hk⟩ := n
  dsimp only at h
  subst h
  exact dif_pos hk

/-! ## The command -/

/-- The state in which the oldest trigger `x` arrives, `rest` still on their way. -/
def State.arriving (s : State) (x : AevTrig) (rest : List AevTrig) : State :=
  { s.waitTill (x.cyc + 2) with aev := { (s.waitTill (x.cyc + 2)).aev with trig := rest } }

/-- A trigger at its target, by its action (R284). -/
def State.arrive (s : State) (x : AevTrig) : State :=
  match x.action with
  | 5 => s.trigSdm x
  | 6 => s.trigSnap x
  | 7 => s.trigFrec x
  | _ => s.trigSsi x

theorem State.arrive_trigView (s : State) (x : AevTrig) : (s.arrive x).trigView = s.trigView := by
  unfold State.arrive
  split
  · exact s.trigSdm_trigView x
  · exact s.trigSnap_trigView x
  · exact s.trigFrec_trigView x
  · exact s.trigSsi_trigView x

theorem exec_internalTrigger_none (h : s.aev.trig = []) : exec .internalTrigger s = .next s := by
  change execInternalTrigger s = _
  unfold execInternalTrigger
  rw [h]

theorem exec_internalTrigger {rest : List AevTrig} (h : s.aev.trig = x :: rest) :
    exec .internalTrigger s = .next ((s.arriving x rest).arrive x) := by
  change execInternalTrigger s = _
  unfold execInternalTrigger
  rw [h]
  rfl

theorem State.arrive_sdm (h : x.action = 5) : s.arrive x = s.trigSdm x := by
  unfold State.arrive
  simp only [h]

theorem State.arrive_snap (h : x.action = 6) : s.arrive x = s.trigSnap x := by
  unfold State.arrive
  simp only [h]

theorem State.arrive_frec (h : x.action = 7) : s.arrive x = s.trigFrec x := by
  unfold State.arrive
  simp only [h]

theorem State.arrive_ssi (h : x.action = 8) : s.arrive x = s.trigSsi x := by
  unfold State.arrive
  simp only [h]

end

/-- The target of trigger `x` does not run (R285). -/
def State.targetRests (s : State) (x : AevTrig) : Prop :=
  (x.action = 6 ∨ x.action = 7) ∧ 8 ≤ x.target ∨ x.action = 8 ∧ 4 ≤ x.target ∨
    (x.action = 5 ∧ (s.boot.released = false ∨ (s.halfOn .h0 = false ∧ s.halfOn .h1 = false))) ∨
    (x.action = 6 ∧ ∃ n : Fin 8, n.val = x.target ∧ (s.pchOn n = false ∨ s.halfOn (pchHalf n.val) = false)) ∨
    (x.action = 7 ∧ ∃ n : Fin 8, n.val = x.target ∧ (s.frec[n].st = .off ∨ s.frec[n].cfg.bit 0 = false)) ∨
    (x.action = 8 ∧ ∃ n : Fin 4, n.val = x.target ∧
      (s.dchOn n = false ∨ s.dch[n].mode ≠ 2 ∨ s.halfOn (excHalf n.val) = false))

theorem State.arrive_drops {s : State} {x : AevTrig} (h : s.targetRests x) : s.arrive x = s.dropTrig x.slot := by
  rcases h with ⟨hAct | hAct, hFar⟩ | ⟨hAct, hFar⟩ | ⟨hAct, hRests⟩ | ⟨hAct, n, hn, hRests⟩ | ⟨hAct, n, hn, hRests⟩ |
    ⟨hAct, n, hn, hRests⟩
  · rw [State.arrive_snap hAct]
    exact dif_neg (by omega)
  · rw [State.arrive_frec hAct]
    exact dif_neg (by omega)
  · rw [State.arrive_ssi hAct]
    exact dif_neg (by omega)
  · rw [State.arrive_sdm hAct]
    exact State.trigSdm_drops hRests
  · rw [State.arrive_snap hAct, State.trigSnap_eq hn]
    refine if_neg fun hRuns => ?_
    obtain ⟨hOn, hHalf⟩ := Bool.and_eq_true_iff.mp hRuns
    rcases hRests with hOff | hOff
    · exact Bool.false_ne_true (hOff.symm.trans hOn)
    · exact Bool.false_ne_true (hOff.symm.trans hHalf)
  · rw [State.arrive_frec hAct, State.trigFrec_eq hn]
    refine if_neg fun hRuns => ?_
    obtain ⟨hSt, hTakes⟩ := Bool.and_eq_true_iff.mp hRuns
    rcases hRests with hOff | hOff
    · exact bne_iff_ne.mp hSt hOff
    · exact Bool.false_ne_true (hOff.symm.trans hTakes)
  · rw [State.arrive_ssi hAct, State.trigSsi_eq hn]
    refine if_neg fun hRuns => ?_
    obtain ⟨hServes, hHalf⟩ := Bool.and_eq_true_iff.mp hRuns
    obtain ⟨hOn, hMode⟩ := Bool.and_eq_true_iff.mp hServes
    rcases hRests with hOff | hOff | hOff
    · exact Bool.false_ne_true (hOff.symm.trans hOn)
    · exact hOff (beq_iff_eq.mp hMode)
    · exact Bool.false_ne_true (hOff.symm.trans hHalf)

theorem internalTriggers : Parts.InternalTriggers := by
  intro s x rest u w
  refine ⟨exec_internalTrigger_none, fun hTrig => ?_⟩
  have hExec : exec .internalTrigger s = .next (w.arrive x) := exec_internalTrigger hTrig
  refine ⟨⟨_, hExec, ?_⟩, fun hAct n hn hSt hCfg => ?_, fun hAct n hn hOn hHalf => ?_, fun hAct n hn hOn hMode hHalf => ?_,
    fun hAct hRel hOn => ?_, fun hRests => ?_⟩
  · have hView := w.arrive_trigView x
    exact ⟨congrArg Prod.fst hView, congrArg (fun v => v.2.1) hView, congrArg (fun v => v.2.2.1) hView,
      congrArg (fun v => v.2.2.2) hView⟩
  · rw [hExec, State.arrive_frec hAct, State.trigFrec_eq hn, if_pos]
    · rfl
    · exact Bool.and_eq_true_iff.mpr ⟨bne_iff_ne.mpr hSt, hCfg⟩
  · rw [hExec, State.arrive_snap hAct, State.trigSnap_eq hn, if_pos]
    exact Bool.and_eq_true_iff.mpr ⟨hOn, hHalf⟩
  · rw [hExec, State.arrive_ssi hAct, State.trigSsi_eq hn, if_pos]
    exact Bool.and_eq_true_iff.mpr ⟨Bool.and_eq_true_iff.mpr ⟨hOn, beq_iff_eq.mpr hMode⟩, hHalf⟩
  · rw [hExec, State.arrive_sdm hAct, State.trigSdm_runs (s := w) hRel hOn]
  · have hDrops : w.arrive x = w.dropTrig x.slot := State.arrive_drops hRests
    rw [hExec, hDrops]

/-- Settles O33: the switch by the tick that comes into use and what each slot takes, a trigger by its target, which runs or
drops it. -/
theorem predictionsAndTriggers : Obligations.PredictionsAndTriggers := ⟨predictionSwitches, internalTriggers⟩

end Sys2Proof.Machine
end

section
/-! PROOFS. Every step keeps the relation of R411 in every queue: the misses of the queues are as they were after
every command but a reset, or the loss of CORE's state, which empties every queue. -/

namespace Sys2Proof.Machine

/-- By how much the queues miss the relation of R411 in the state that a meaning leads to. -/
def Done.led : Done → Option (Fin 64 → Nat)
  | .next t => some t.base.led
  | _ => none

@[simp] theorem Done.led_next (t : State) : Done.led (.next t) = some t.base.led := rfl

@[simp] theorem Done.led_finish (r : Status × State) : Done.led (finish r) = some r.2.base.led := rfl

@[simp] theorem Done.led_ite (c : Prop) [Decidable c] (a b : Done) :
    Done.led (if c then a else b) = if c then Done.led a else Done.led b := apply_ite _ _ _ _

@[simp] theorem Base.led_ite (c : Prop) [Decidable c] (a b : Base) :
    (if c then a else b).led = if c then a.led else b.led := apply_ite _ _ _ _

/-- The misses are those of the queues. -/
theorem State.led_que (s : State) : s.que.led = s.base.led := rfl

@[simp] theorem Done.led_thenDomains (o : Done) : (thenDomains o).led = o.led := by
  cases o <;> simp [thenDomains]

@[simp] theorem Done.led_answer (a : Answer) : Done.led a.done = some a.post.base.led := by simp [Answer.done]

section
variable (s : State)

/-! ## Supplies and resets (R56, R57, R71 to R76, R103) -/

@[simp] theorem execSupplyGood_led (r : Rail) : Done.led (execSupplyGood r s) = some s.base.led := by
  cases r <;> simp [execSupplyGood, State.led_que]

/-- A device reset empties every queue. -/
theorem State.deviceReset_led (c : Nat) : Done.led (.next (s.deviceReset c)) = some fun _ => 0 := by simp

/-- The loss of a rail resets the device, or leaves the queues alone. -/
theorem execSupplyLost_led (r : Rail) :
    Done.led (execSupplyLost r s) = some (fun _ => 0) ∨ Done.led (execSupplyLost r s) = some s.base.led := by
  cases r with
  | vaon => exact .inl ((s.railLost .vaon).deviceReset_led 0)
  | vio => exact .inl ((s.railLost .vio).deviceReset_led 3)
  | vpre => exact .inl ((s.railLost .vpre).deviceReset_led 4)
  | vdda0 => exact .inr ((congrArg (some ∘ Base.led) ((s.railLost .vdda0).vddaJudge_base .h0)).trans rfl)
  | vdda1 => exact .inr ((congrArg (some ∘ Base.led) ((s.railLost .vdda1).vddaJudge_base .h1)).trans rfl)

theorem execPinReset_led : Done.led (execPinReset s) = some fun _ => 0 := s.deviceReset_led 1

theorem execSoftwareReset_led :
    Done.led (execSoftwareReset s) = some (fun _ => 0) ∨ Done.led (execSoftwareReset s) = some s.base.led := by
  unfold execSoftwareReset
  split
  · exact .inr rfl
  · exact .inl (State.deviceReset_led _ 2)

@[simp] theorem execVuv_led (rail : Fin 2) (mv : BitVec 16) : Done.led (execVuv rail mv s) = some s.base.led := by
  simp [execVuv]

@[simp] theorem execVexcGoodAgain_led (rail : Fin 2) (mv : BitVec 16) :
    Done.led (execVexcGoodAgain rail mv s) = some s.base.led := by
  simp [execVexcGoodAgain]

/-! ## Stores and programming (R90, R100) -/

@[simp] theorem execCalStoreDone_led (latchSet readOk : Bool) :
    Done.led (execCalStoreDone latchSet readOk s) = some s.base.led := by
  unfold execCalStoreDone
  split <;> simp [State.led_que]

@[simp] theorem execFramProgDone_led (ok : Bool) : Done.led (execFramProgDone ok s) = some s.base.led := by
  unfold execFramProgDone
  split <;> simp [State.led_que]

/-! ## The other commands with cases of their own -/

@[simp] theorem execCarrierZeroCrossing_led (n : Fin 4) (m : ExcMeas) :
    Done.led (execCarrierZeroCrossing n m s) = some s.base.led := by
  unfold execCarrierZeroCrossing
  split
  · rfl
  · dsimp only
    split <;> simp [State.foldl_base]

@[simp] theorem execExcRampEnd_led (n : Fin 4) : Done.led (execExcRampEnd n s) = some s.base.led := by
  unfold execExcRampEnd
  dsimp only
  split
  · rfl
  · split <;> simp

@[simp] theorem execTrimSweepStart_led (h : Half) : Done.led (execTrimSweepStart h s) = some s.base.led := by
  unfold execTrimSweepStart
  dsimp only
  split <;> simp

@[simp] theorem execTrimRunEnd_led (n : Fin 8) (t : TrimVals) : Done.led (execTrimRunEnd n t s) = some s.base.led := by
  unfold execTrimRunEnd
  split
  · rfl
  · dsimp only
    split <;> simp

@[simp] theorem execDchTransition_led (n : Fin 4) (samples : Vector (BitVec 3) 16) :
    Done.led (execDchTransition n samples s) = some s.base.led := by
  unfold execDchTransition
  split <;> simp

@[simp] theorem execHallInv_led (n : Fin 4) : Done.led (execHallInv n s) = some s.base.led := by
  unfold execHallInv
  split <;> simp

@[simp] theorem execSsiFrameEnd_led (n : Fin 4) (ready : Bool) (bits : BitVec 32) (endBit : Bool) :
    Done.led (execSsiFrameEnd n ready bits endBit s) = some s.base.led := by
  unfold execSsiFrameEnd
  split <;> simp

@[simp] theorem execSsiRecoveryEnd_led (n : Fin 4) : Done.led (execSsiRecoveryEnd n s) = some s.base.led := by
  unfold execSsiRecoveryEnd
  split <;> simp

@[simp] theorem execAuthConflict_led (d : Drive) : Done.led (execAuthConflict d s) = some s.base.led := by
  rw [execAuthConflict, Done.led_thenDomains]
  unfold authConflict
  split <;> simp

@[simp] theorem execHandoverRequest_led (d : Drive) : Done.led (execHandoverRequest d s) = some s.base.led := by
  unfold execHandoverRequest
  split <;> simp

@[simp] theorem execHandoverDone_led (d : Drive) : Done.led (execHandoverDone d s) = some s.base.led := by
  rw [execHandoverDone, Done.led_thenDomains]
  unfold handoverDone
  split <;> simp

@[simp] theorem execHolderClaimLost_led (d : Drive) : Done.led (execHolderClaimLost d s) = some s.base.led := by
  rw [execHolderClaimLost, Done.led_thenDomains]
  unfold holderClaimLost
  split <;> simp

@[simp] theorem execAevPulseEnd_led (n : Fin 8) : Done.led (execAevPulseEnd n s) = some s.base.led := by
  unfold execAevPulseEnd
  split <;> simp

@[simp] theorem execPredictionSwitch_led : Done.led (execPredictionSwitch s) = some s.base.led := by
  unfold execPredictionSwitch
  split
  · rfl
  · dsimp only
    split <;> simp [State.foldl_base]

@[simp] theorem execInternalTrigger_led : Done.led (execInternalTrigger s) = some s.base.led := by
  unfold execInternalTrigger
  split
  · rfl
  · split <;> simp

@[simp] theorem execSdmLatch_led : Done.led (execSdmLatch s) = some s.base.led := by
  unfold execSdmLatch
  split <;> simp [State.foldl_base]

@[simp] theorem execTqDev_led (d : Drive) : Done.led (execTqDev d s) = some s.base.led := by
  unfold execTqDev
  split <;> simp

@[simp] theorem execRelGapEnd_led (d : Drive) : Done.led (execRelGapEnd d s) = some s.base.led := by
  unfold execRelGapEnd
  split <;> simp

@[simp] theorem execAuxSettleEnd_led (c : Fin 2) : Done.led (execAuxSettleEnd c s) = some s.base.led := by
  unfold execAuxSettleEnd
  split <;> simp

@[simp] theorem execAuxConversionDone_led (c : Fin 2) (m : Conv) :
    Done.led (execAuxConversionDone c m s) = some s.base.led := by
  unfold execAuxConversionDone
  split <;> simp

@[simp] theorem execAuxVisitEnd_led (c : Fin 2) : Done.led (execAuxVisitEnd c s) = some s.base.led := by
  unfold execAuxVisitEnd
  split
  · rfl
  · split <;> simp

@[simp] theorem execHoldoffEnd_led (p : Page) : Done.led (execHoldoffEnd p s) = some s.base.led := by
  unfold execHoldoffEnd
  split <;> simp

@[simp] theorem execCruiseRoundStart_led : Done.led (execCruiseRoundStart s) = some s.base.led := by
  rw [execCruiseRoundStart, Done.led_thenDomains, cruiseRoundStart]
  simp

@[simp] theorem execRestartRnd_led : Done.led (execRestartRnd s) = some s.base.led := by
  rw [execRestartRnd, Done.led_thenDomains, restartRnd]
  simp

@[simp] theorem execCruiseRunEnd_led (i : Fin 15) (terminal sigOk : Bool) (detail : BitVec 24) :
    Done.led (execCruiseRunEnd i terminal sigOk detail s) = some s.base.led := by
  rw [execCruiseRunEnd, Done.led_thenDomains, cruiseRunEnd]
  simp

@[simp] theorem execTimeSlewEnd_led : Done.led (execTimeSlewEnd s) = some s.base.led := by
  unfold execTimeSlewEnd
  split <;> simp

@[simp] theorem execFollowUpRelay_led (rate : Rat) : Done.led (execFollowUpRelay rate s) = some s.base.led := by
  unfold execFollowUpRelay
  extract_lets relay
  have hRelay (t : State) (p : Fin 2) : (relay t p).base = t.base := by
    dsimp only [relay]
    split
    · split <;> simp
    · rfl
  rw [Done.led_next, hRelay, hRelay]

@[simp] theorem execSyncSend_led (p : Fin 2) : Done.led (execSyncSend p s) = some s.base.led := by
  unfold execSyncSend
  split
  · rfl
  · split <;> simp

@[simp] theorem execPdelayReqSend_led (p : Fin 2) : Done.led (execPdelayReqSend p s) = some s.base.led := by
  unfold execPdelayReqSend
  split
  · rfl
  · split <;> simp

@[simp] theorem execStreamFrameBuild_led (k : Fin 8) : Done.led (execStreamFrameBuild k s) = some s.base.led := by
  unfold execStreamFrameBuild
  dsimp only
  split
  · rfl
  split
  · rw [Done.led_next, State.descRead_base]
  split
  · rw [Done.led_next, State.descRead_base]
  split
  · rw [Done.led_next, State.buildFrame_base _ _ _ _ _ (frameRecords_le _ _), State.descRead_base]
  · rw [Done.led_next, State.buildFrame_base, State.waitTill_base, State.descRead_base]
    exact frameRecords_le _ _

@[simp] theorem execFrecEntry_led (n : Fin 8) (written : Bool) :
    Done.led (execFrecEntry n written s) = some s.base.led := by
  unfold execFrecEntry
  dsimp only
  split <;> simp

@[simp] theorem execArm_led (n : Fin 8) : Done.led (execArm n s) = some s.base.led := by
  rw [execArm, Done.led_thenDomains, armRec]
  simp

@[simp] theorem execDisarm_led (n : Fin 8) : Done.led (execDisarm n s) = some s.base.led := by
  rw [execDisarm, Done.led_thenDomains, disarmRec]
  simp

@[simp] theorem execYarderWrite_led : Done.led (execYarderWrite s) = some s.base.led := by
  unfold execYarderWrite
  split
  · rfl
  · split <;> simp

@[simp] theorem execYardStall_led : Done.led (execYardStall s) = some s.base.led := by
  unfold execYardStall
  split <;> simp

@[simp] theorem execQueueAge_led (q : Fin 64) : Done.led (execQueueAge q s) = some s.base.led := by
  unfold execQueueAge
  split <;> simp

@[simp] theorem execDvfsDone_led : Done.led (execDvfsDone s) = some s.base.led := by
  unfold execDvfsDone
  split <;> simp

@[simp] theorem execDvfsTmo_led : Done.led (execDvfsTmo s) = some s.base.led := by
  unfold execDvfsTmo
  split <;> simp

@[simp] theorem execDomainOn_led (x : Dom) : Done.led (execDomainOn x s) = some s.base.led := by
  unfold execDomainOn
  split
  all_goals split <;> simp

@[simp] theorem execAlarm_led : Done.led (execAlarm s) = some s.base.led := by
  unfold execAlarm
  split
  · rfl
  · dsimp only
    split
    · rw [Done.led_next, State.powerNote_base]
      rfl
    · rw [Done.led_next, State.wakeIf_base]
      rfl

@[simp] theorem execAlarmHiWrite_led (v : Word) : Done.led (execAlarmHiWrite v s) = some s.base.led := by
  rw [execAlarmHiWrite, Done.led_finish, State.writeAlarmHi_base]

@[simp] theorem execSafePinHoldExpiry_led (p : SafePin) : Done.led (execSafePinHoldExpiry p s) = some s.base.led := by
  unfold execSafePinHoldExpiry
  split <;> simp

@[simp] theorem execFrameTransmitDone_led (p : Fin 2) : Done.led (execFrameTransmitDone p s) = some s.base.led := by
  unfold execFrameTransmitDone
  split
  · simp
  · split <;> simp

@[simp] theorem execUnlockFirstExpiry_led : Done.led (execUnlockFirstExpiry s) = some s.base.led := by
  unfold execUnlockFirstExpiry
  split <;> simp

/-- A domain that has not returned leaves the queues alone, or, where CORE loses its state, empties them (R446, R451). -/
theorem execDomTmo_led (h : s.base.led = fun _ => 0) (x : Dom) : Done.led (execDomTmo x s) = some fun _ => 0 := by
  unfold execDomTmo
  dsimp only
  split
  all_goals split <;> simp [h]

end

/-! ## Frames of the host (R397 to R414) -/

/-- A frame keeps the counts that the meaning of its command keeps. -/
theorem State.frame_led {s : State} {l : List Byte} {crc : Byte} {queue : Bool} {k : State → Answer}
    (hk : ∀ t, (k t).post.base = t.base) : Done.led (s.frame l crc queue k) = some s.base.led := by
  unfold State.frame
  dsimp only
  split
  · simp
  · simp [hk]

/-- So does a frame with data, whose data phase may be cut short. -/
theorem State.dataFrame_led {s : State} {cmd : Nat} {addr : Word} {len : BitVec 16} {data : List Word} {crc : Byte}
    {queue : Bool} {k : List Word → State → Answer} (hk : ∀ d t, (k d t).post.base = t.base) :
    Done.led (s.dataFrame cmd addr len data crc queue k) = some s.base.led := by
  unfold State.dataFrame
  dsimp only
  split
  · split
    · simp [execQspiFrame]
    · exact State.frame_led (hk _)
  · exact State.frame_led (hk _)

section
variable (s : State) (addr : Word) (len : BitVec 16) (data : List Word) (crc : Byte)

@[simp] theorem execRead_led (cmd : Byte) : Done.led (execRead cmd addr len crc s) = some s.base.led := by
  refine State.frame_led fun t => ?_
  split
  · simp
  · split <;> simp

@[simp] theorem execWrite_led : Done.led (execWrite addr len data crc s) = some s.base.led := by
  refine State.dataFrame_led fun d t => ?_
  split <;> simp

@[simp] theorem execQread_led : Done.led (execQread addr len crc s) = some s.base.led := by
  refine State.frame_led fun t => ?_
  dsimp only
  split <;> simp

@[simp] theorem execQack_led : Done.led (execQack addr len data crc s) = some s.base.led := by
  refine State.dataFrame_led fun d t => ?_
  dsimp only
  split <;> simp

@[simp] theorem execQpush_led : Done.led (execQpush addr len data crc s) = some s.base.led := by
  refine State.dataFrame_led fun d t => ?_
  split <;> simp

end

/-! ## Every command -/

/-- No command takes the counts of a queue out of step. -/
theorem exec_led (c : Instr) (s : State) (h : s.base.led = fun _ => 0) : Done.led (exec c s) = some fun _ => 0 := by
  have hKept : some s.base.led = some fun _ => 0 := congrArg some h
  cases c with
  | supplyLost r => exact (execSupplyLost_led s r).elim id fun hLed => hLed.trans hKept
  | pinReset => exact execPinReset_led s
  | softwareReset => exact (execSoftwareReset_led s).elim id fun hLed => hLed.trans hKept
  | domTmo x => exact execDomTmo_led s h x
  | _ =>
    simp [exec, execSwrstKey, execInternalResetEnd, execVov, execRefLoss, execRefFreq, execTclkFreq, execTpllUnlock,
      execSpllUnlock, execRcFail, execRegUv, execRegOv, execCpmFail, execAvsEval, execRtcXtal, execRtcXtalRestore,
      execHeaderReadDone, execBistPhaseEnd, execBodyReadDone, execSramInitDone, execRegWriteRecord, execRegMaskRecord,
      execRegSeqRecord, execSramLoadRecord, execSramFillRecord, execAuthInitRecord, execEndRecord, execConvCalDone,
      execStoreKey, execDlKeyApply, execDlKeyProgram, execExcEnable, execExcDisable, execExcRestart, execExcFreqWrite,
      execExcPhaseWrite, execExcAmpWrite, execExcModeWrite, execExcSettleEnd, execOc, execOpenLoad, execImbal, execOts,
      execRegSat, execPchEnable, execPchDisable, execPchCntClr, execLossRearm, execAngleTick, execCmwLoss, execPhaseAcqDone,
      execPhLock, execLockDeclared, execBwStepUp, execBwStepDown, execCoastLong, execLol, execOvspd, execAcqTo, execPchSectSet,
      execPchAngleRead, execPchPredAngRead, execPchPredTimeHiWrite, execPchPeakClr, execRevolutionEnd, execLearnBlockEnd,
      execSclPendingApply, execSclCoefWrite, execSclApplyWrite, execNeutral, execAlignWr, execTrimReq, execTrimRunStart,
      execTrimLate, execDchEnable, execDchDisable, execIndexEdge, execIllRate, execRefClr, execUncClr, execSsiTrig,
      execSsiFrameStart, execDchAngleRead, execAngDiv, execSpdDiv, execDref, execCopyMis, execOfsCap, execOfsCapDone,
      execAuthCmd, execEncEnable, execEncDisable, execPreset, execEncFirstPreset, execEncCountStep, execEncTargetRead,
      execAevSlotStep, execAevSlotStageWrite, execAevSlotAngWrite, execAevForceSet, execAevForceClr, execAevEnable,
      execAevDisable, execAevCntClr, execPinMis, execSdmDecimatedOutput, execHi, execLo, execStuck, execFiltMis, execPhsum,
      execTqStale, execTqCmdWrite, execRelCmd, execDisSet, execDisClear, execSdmPeakClr, execLim, execAuxSlotBlocked,
      execSlotEnWrite, execAuxResRead, execFwCodeWrite, execBlzClr, execReactBusyEnd, execFltForceWrite, execStickyClear,
      execChkInvWrite, execParityError, execAliveEdge, execTgtTmo, execCruiseYield, execSyncPair, execSyncLoss, execTimeSet,
      execSyncRelay, execFrameReceive, execFrameForward, execLinkDown, execLinkUp, execFrecTrigger, execFrecFreeze, execTrig,
      execQspiFrame, execRegisterWrite, execFlush, execReqRun, execReqDoze, execReqLookout, execReqOff, execEntryComplete,
      execOppTgtWrite, execVoteWrite, execMemBankInitDone, execHalfCalDone, execPadRelease, execLookoutCycleStart,
      execLookoutCycleEnd, execWakeIn, execHostWake, execNetWake, execWakeCoreReady, execUnlockFirst, execUnlockSecond,
      execRelock, execUnlockTimeout, execSdmBitSample, execResetNRisingEdge, execTapTckEdge, execSclTempReading, execOtsClear,
      State.foldl_base, h]

/-- Settles O5: an idle step leaves the queues alone, and no command takes their counts out of step. -/
theorem stepKeepsQueueRelation : Obligations.StepKeepsQueueRelation := by
  intro s t h ht
  rw [State.queuesBalanced_iff] at h ⊢
  cases hPending : s.pending with
  | nil =>
    obtain rfl := Host.Outcome.next.inj ((step_nil hPending).symm.trans ht)
    simpa using h
  | cons c rest =>
    have hLed := exec_led c (s.waiting rest) h
    rw [← step_cons hPending, ht] at hLed
    exact Option.some.inj hLed

end Sys2Proof.Machine
end

section
/-! PROOFS. A step: the command at the front, which always ends in a next state, or one TCLK cycle (R69, R70, R377). -/

namespace Sys2Proof.Machine

/-- Settles O1: the queue is not empty. -/
theorem stepRunsFrontCommand : Obligations.StepRunsFrontCommand := fun _ _ _ h => step_cons h

/-! ## Every command ends -/

theorem Done.next_of_fixed {o : Done} {x} (h : o.fixed = some x) : ∃ t, o = .next t := by
  cases o with
  | next t => exact ⟨t, rfl⟩
  | fault => exact nomatch h
  | refused => exact nomatch h

/-- Settles O3: each command is a meaning for which a lemma above says what its next state keeps. -/
theorem commandsNeverStop : Obligations.CommandsNeverStop := by
  intro c s
  cases c with
  | supplyGood r => exact Done.next_of_fixed (execSupplyGood_fixed s r)
  | supplyLost r =>
    obtain ⟨_, _, hFixed⟩ := execSupplyLost_fixed s r
    exact Done.next_of_fixed hFixed
  | pinReset => exact ⟨_, exec_pinReset s⟩
  | softwareReset =>
    cases hOwed : s.sys.swrstAt with
    | none => exact ⟨_, exec_softwareReset_idle hOwed⟩
    | some _ => exact ⟨_, exec_softwareReset hOwed⟩
  | vuv rail mv =>
    obtain ⟨_, hFixed⟩ := execVuv_fixed s rail mv
    exact Done.next_of_fixed hFixed
  | vexcGoodAgain rail mv =>
    obtain ⟨_, hFixed⟩ := execVexcGoodAgain_fixed s rail mv
    exact Done.next_of_fixed hFixed
  | calStoreDone latchSet readOk =>
    obtain ⟨_, hFixed⟩ := execCalStoreDone_fixed s latchSet readOk
    exact Done.next_of_fixed hFixed
  | framProgDone ok =>
    obtain ⟨_, hFixed⟩ := execFramProgDone_fixed s ok
    exact Done.next_of_fixed hFixed
  | _ => exact Done.next_of_fixed (x := s.base.fixed) (by simp [exec])

/-! ## A cycle in which nothing happens -/

/-- Rounding gives one of the two neighbours of `x`. -/
theorem roundFree_bounds (point : Nat) (x : Rat) : x - 1 < roundFree point x ∧ (roundFree point x : Rat) < x + 1 := by
  have hLow : (x.floor : Rat) ≤ x := Rat.floor_le x
  have hHigh : x < x.floor + 1 := by exact_mod_cast Rat.lt_floor_add_one x
  unfold roundFree
  split
  · constructor <;> linarith
  · rename_i hInt
    have hLt : (x.floor : Rat) < x := lt_of_le_of_ne hLow hInt
    split
    · push_cast
      constructor <;> linarith
    · constructor <;> linarith

/-- The RTC counts 3,200 parts of a tick in a cycle, or a share within 15 % of 32 kHz (R70). -/
theorem State.rtcRate_xtal {s : State} (hVaon : s.rails.vaon = true) (hSrc : s.sys.rtcLprc = false) : s.rtcRate = 3200 := by
  simp [State.rtcRate, hVaon, hSrc]

theorem State.rtcRate_lprc {s : State} (hVaon : s.rails.vaon = true) (hSrc : s.sys.rtcLprc = true) :
    2657 ≤ s.rtcRate ∧ s.rtcRate ≤ 3593 := by
  have hFree := Nat.mod_lt (Config.freeBits 62 s.clk.cyc) (show 0 < 937 by decide)
  have hRate : s.rtcRate = 2657 + Config.freeBits 62 s.clk.cyc % 937 := by simp [State.rtcRate, hVaon, hSrc]
  omega

theorem State.rtcRate_unsupplied {s : State} (hVaon : s.rails.vaon = false) : s.rtcRate = 0 := by
  simp [State.rtcRate, hVaon]

theorem State.wait_clk_off {s : State} (h : s.pwr.core = .off) (k : Nat) : (s.wait k).clk = s.clk.rest s.rtcRate k := by
  simp [State.wait, h]

theorem State.wait_clk_on {s : State} (h : s.pwr.core ≠ .off) (k : Nat) : (s.wait k).clk = s.clk.run s.rtcRate k := by
  simp [State.wait, h]

/-- TIME in a cycle advances by 2.5 ns at its rate, rounded to a neighbour (R377). -/
theorem timeAdd_one (t : Nat) (r : Int) : ∃ x : Int, 5 * r < 512 * (x + 1) ∧ 512 * (x - 1) < 5 * r ∧
    (timeAdd t r 1 : Int) = ((t : Int) + 5 * 2 ^ 31 + x) % 2 ^ 96 := by
  obtain ⟨hLow, hHigh⟩ := roundFree_bounds 52 (5 * (r : Rat) / 512)
  refine ⟨roundFree 52 (5 * (r : Rat) / 512), ?_, ?_, ?_⟩
  · have : (5 * r : Rat) < 512 * (roundFree 52 (5 * (r : Rat) / 512) + 1) := by linarith
    exact_mod_cast this
  · have : (512 * (roundFree 52 (5 * (r : Rat) / 512) - 1) : Rat) < 5 * r := by linarith
    exact_mod_cast this
  · have hPos : (0 : Int) ≤ ((t : Int) + (1 : Nat) * timeStepOf r) % (2 ^ 96 : Nat) := Int.emod_nonneg _ (by decide)
    rw [timeAdd, wrapInt, Int.toNat_of_nonneg hPos, timeStepOf]
    norm_num [add_assoc]

/-- Settles O2: the clock moves on by one cycle, and nothing else. -/
theorem idleStepPassesOneCycle : Obligations.IdleStepPassesOneCycle := by
  intro s hPending
  refine ⟨s.wait 1, step_nil hPending, rfl, ?_, ?_, fun hVaon hSrc => ?_, fun hVaon hSrc => ?_, fun hVaon => ?_,
    fun hCore => ?_, fun hCore => ?_⟩
  · unfold State.wait
    split <;> rfl
  · unfold State.wait
    split <;> rfl
  · rw [State.wait_rtc, State.rtcRate_xtal hVaon hSrc]
  · have hRate := State.rtcRate_lprc hVaon hSrc
    rw [State.wait_rtc]
    omega
  · rw [State.wait_rtc, State.rtcRate_unsupplied hVaon]
    rfl
  · rw [State.wait_clk_on hCore]
    exact timeAdd_one _ _
  · rw [State.wait_clk_off hCore]
    rfl

end Sys2Proof.Machine
end

section
/-! PROOFS. The statement about the end of a pulse asks who holds the drive where the command finds the device. The pulse ends at its own
cycle; in the one cycle of a handover in which the half that takes the drive over claims it too (R245, Table 10.1), the drive has no
single holder, and the pulse goes on (R49, assumption 57). -/

namespace Sys2Proof.Machine

/-- The device has released, H0 holds both drives, and H1 takes drive 0 over from now on, its claim becoming valid in cycle 160: that in
which a pulse on AEV_0 ends. -/
def pulseEndsAtClaim : State :=
  { State.reset with
    boot := { State.reset.boot with released := true }
    xd := ⟨#[{ claim := ⟨true, false⟩, busy := true, taking := some .h1 }, { claim := ⟨true, false⟩ }], rfl⟩
    aev := { State.reset.aev with out := vset State.reset.aev.out 0 { lvl := true, pulse := some 160 } } }

/-- The end of the pulse on AEV_0 after a command. -/
def pulseAfter : Done → Option (Option Nat)
  | .next t => some t.aev.out[(0 : Fin 8)].pulse
  | _ => none

theorem aevPulseEnd_goes_on : pulseAfter (exec (.aevPulseEnd 0) pulseEndsAtClaim) = some (some 160) := by
  decide +kernel

/-- A pulse whose output's drive has a holder when the command comes, and none when the pulse would end, does not end. -/
theorem not_schedulerPins : ¬ Parts.SchedulerPins := by
  unfold Parts.SchedulerPins
  intro h
  obtain ⟨-, hEnd, -⟩ := h pulseEndsAtClaim 0
  obtain ⟨t, hRun, -, -, hLevel, -⟩ := hEnd 160 rfl (by decide +kernel)
  obtain ⟨-, hNone, -⟩ := hLevel (.inr rfl)
  have hPulse := congrArg pulseAfter hRun
  rw [aevPulseEnd_goes_on] at hPulse
  exact absurd ((Option.some.inj hPulse).trans hNone) (by decide)

/-- Refutes O31: in the cycle of a handover in which both halves claim the drive, a pulse that would end there goes on, though the
drive had a single holder before. -/
theorem not_schedulerControl : ¬ Obligations.SchedulerControl := by
  unfold Obligations.SchedulerControl
  rintro ⟨-, hPins⟩
  exact not_schedulerPins hPins

end Sys2Proof.Machine
end

section
/-! PROOFS. A step of a scheduler slot (R278, R281, R283 to R287): an output that is told something, the action of a firing slot, and
the rule that decides on the step. -/

namespace Sys2Proof.Machine

/-! ## An output that is told something (R284, Table 12.2) -/

/-- The first operation of a cycle acts on the level and the pulse that the output has, and counts an edge where the level changes on
a pin that is no SSI clock. -/
theorem AevOut.told_first {o : AevOut} {t : Nat} (h : o.now.cyc ≠ t ∨ o.now.ops = []) (active claimed : Bool) (place : Nat)
    (op : OutOp) : let r := op.act active (o.lvl, o.pulse)
    (o.told active claimed t place op).lvl = r.1 ∧ (o.told active claimed t place op).pulse = r.2 ∧
      (o.told active claimed t place op).edges = if r.1 = o.lvl ∨ claimed = true then o.edges else (o.edges + 1) % 65536 := by
  have hCycle : o.cycleAt t = ⟨t, o.lvl, o.pulse, o.edges, o.edgeAt, []⟩ := by
    unfold AevOut.cycleAt
    rw [if_neg]
    rintro ⟨hCyc, hOps⟩
    rcases h with h | h
    · exact h hCyc
    · rw [h] at hOps
      exact Bool.noConfusion hOps
  unfold AevOut.told
  rw [hCycle]
  refine ⟨rfl, rfl, ?_⟩
  by_cases hLvl : (op.act active (o.lvl, o.pulse)).1 = o.lvl
  · simp [putOp, hLvl]
  · cases claimed <;> simp [putOp, hLvl]

/-- The pads of the outputs after operation `op` on output `n`: a pad that is held, or that has not been released, keeps its level. -/
def State.outPads (s : State) (n : Fin 8) (o : AevOut) : BitVec 8 :=
  if s.pads.aevHeld.getLsbD n.val || !s.boot.released then s.pads.aev else bput s.pads.aev n.val o.lvl

/-- Besides reports, operation `op` changes its output and the pads. -/
theorem State.driveOut_quiet (s : State) (n : Fin 8) (place : Nat) (op : OutOp) :
    let o := s.aev.out[n].told (s.outActive n) (s.aevClaimed n) s.clk.cyc place op
    (s.driveOut n place op).quiet =
      ({ s with aev := { s.aev with out := vset s.aev.out n o }, pads := { s.pads with aev := s.outPads n o } } : State).quiet := by
  unfold State.driveOut State.outPads
  dsimp only
  split
  · exact State.cond_quiet _ _ _ _ _
  · rfl

section
variable (s : State) (n : Fin 8) (place : Nat) (op : OutOp)

theorem State.driveOut_aev : (s.driveOut n place op).aev = { s.aev with
    out := vset s.aev.out n (s.aev.out[n].told (s.outActive n) (s.aevClaimed n) s.clk.cyc place op) } :=
  congrArg State.aev (s.driveOut_quiet n place op)

theorem State.driveOut_pads : (s.driveOut n place op).pads.aev =
    s.outPads n (s.aev.out[n].told (s.outActive n) (s.aevClaimed n) s.clk.cyc place op) :=
  congrArg (fun t => t.pads.aev) (s.driveOut_quiet n place op)

theorem State.driveOut_out_same : (s.driveOut n place op).aev.out[n] =
    s.aev.out[n].told (s.outActive n) (s.aevClaimed n) s.clk.cyc place op := by
  rw [State.driveOut_aev]
  exact vset_same _ _ _

theorem State.driveOut_out_other {k : Fin 8} (h : k ≠ n) : (s.driveOut n place op).aev.out[k] = s.aev.out[k] := by
  rw [State.driveOut_aev]
  exact vset_other _ _ _ _ h

theorem State.driveOut_pad_follows (hReleased : s.boot.released = true) (hHeld : s.pads.aevHeld.getLsbD n.val = false) :
    (s.driveOut n place op).pads.aev.getLsbD n.val = (s.driveOut n place op).aev.out[n].lvl := by
  rw [State.driveOut_out_same, State.driveOut_pads, State.outPads, hReleased, hHeld]
  exact bput_get _ _ _ n.isLt

theorem State.driveOut_pads_held (hHeld : s.pads.aevHeld.getLsbD n.val = true) :
    (s.driveOut n place op).pads.aev = s.pads.aev := by
  rw [State.driveOut_pads, State.outPads, hHeld]
  rfl

end

/-! ## The action of a firing slot (R284, R285) -/

theorem AevSlot.isPin_iff (x : AevSlot) : x.isPin = true ↔ 1 ≤ x.action ∧ x.action ≤ 4 := decide_eq_true_iff

section
variable {s : State} {i : Fin 256}

theorem State.slotAct_pin {n : Fin 8} (hPin : (s.aev.slot[i]).isPin = true) (hLt : (s.aev.slot[i]).target < 8)
    (hn : n = Fin.ofNat 8 (s.aev.slot[i]).target) (hDrive : s.outDrive n = (s.aev.slot[i]).drv)
    (hClock : s.aevClaimed n = false) :
    s.slotAct i = s.driveOut n (i.val + 1) (s.pinOp n (s.aev.slot[i]).action (s.aev.slot[i]).width) := by
  subst hn
  have hAction := (AevSlot.isPin_iff _).mp hPin
  unfold State.slotAct
  dsimp only
  rw [if_neg (by omega), if_pos hPin, if_pos ⟨hLt, hDrive, hClock⟩]

theorem State.slotAct_trigger (hAction : 5 ≤ (s.aev.slot[i]).action) : let x := s.aev.slot[i]
    s.slotAct i = if s.aev.trig.any (fun g => g.action == x.action && g.target == x.target && g.cyc == s.clk.cyc) then s
      else { s with aev := { s.aev with trig := s.aev.trig ++ [⟨i, x.action, x.target, s.clk.cyc, s.now⟩] } } := by
  unfold State.slotAct
  dsimp only
  rw [if_neg (by omega), if_neg (by rw [AevSlot.isPin_iff]; omega)]

theorem State.slotAct_none (hAction : (s.aev.slot[i]).action < 5)
    (hNot : ¬(1 ≤ (s.aev.slot[i]).action ∧ (s.aev.slot[i]).action ≤ 4 ∧ (s.aev.slot[i]).target < 8 ∧
      s.outDrive (Fin.ofNat 8 (s.aev.slot[i]).target) = (s.aev.slot[i]).drv ∧
      s.aevClaimed (Fin.ofNat 8 (s.aev.slot[i]).target) = false)) : s.slotAct i = s := by
  unfold State.slotAct
  dsimp only
  split
  case isTrue => rfl
  case isFalse hZero =>
    rw [if_pos ((AevSlot.isPin_iff _).mpr (by omega)), if_neg]
    rintro ⟨hLt, hDrive, hClock⟩
    exact hNot ⟨by omega, by omega, hLt, hDrive, hClock⟩

end

/-- A firing slot does what its action says. -/
theorem State.slotAct_firing (s : State) (i : Fin 256) : Parts.FiringActs s (s.slotAct i) i := by
  unfold Parts.FiringActs
  refine ⟨fun ⟨hLow, hHigh, hLt, hDrive, hClock⟩ => ?_, fun hTrig => ?_, fun hAction hNot => ?_⟩
  · rw [State.slotAct_pin ((AevSlot.isPin_iff _).mpr ⟨hLow, hHigh⟩) hLt rfl hDrive hClock]
    refine ⟨?_, fun k hk => State.driveOut_out_other _ _ _ _ hk, ?_, fun hFirst => ?_,
      State.driveOut_pad_follows _ _ _ _, State.driveOut_pads_held _ _ _ _⟩
    · rw [State.driveOut_aev]
    · rw [State.driveOut_out_same, hClock]
    · obtain ⟨hLvl, hPulse, hEdges⟩ := AevOut.told_first hFirst (s.outActive _) false (i.val + 1)
        (s.pinOp _ (s.aev.slot[i]).action (s.aev.slot[i]).width)
      rw [State.driveOut_out_same, hClock]
      obtain h | h | h | h : (s.aev.slot[i]).action = 1 ∨ (s.aev.slot[i]).action = 2 ∨ (s.aev.slot[i]).action = 3 ∨
          (s.aev.slot[i]).action = 4 := by omega
      all_goals
        rw [h] at hLvl hPulse hEdges ⊢
        exact ⟨hLvl, hPulse, hEdges.trans (if_congr (or_iff_left Bool.false_ne_true) rfl rfl)⟩
  · rw [State.slotAct_trigger hTrig]
    split <;> exact ⟨rfl, rfl, rfl⟩
  · rw [State.slotAct_none hAction hNot]
    exact ⟨rfl, rfl, rfl⟩

/-! ## The step (R278, R281, R283) -/

/-- Slot `i` with the counts of a step, and the total of late steps with it. -/
def State.slotMoved (s : State) (i : Fin 256) (y : AevSlot) (late : Nat) : State :=
  { s with aev := { s.aev with slot := vset s.aev.slot i y, lateTotal := late } }

/-- The counts of a slot after a step. -/
def AevSlot.stepped (x : AevSlot) (up late : Bool) : AevSlot :=
  { x with
    c := if up then x.c + 1 else x.c - 1
    late := if late then min 255 (x.late + 1) else x.late
    fire := if x.admits up then (x.fire + 1) % 65536 else x.fire }

section
variable (x : AevSlot) (up late : Bool)

@[simp] theorem AevSlot.stepped_action : (x.stepped up late).action = x.action := rfl
@[simp] theorem AevSlot.stepped_target : (x.stepped up late).target = x.target := rfl
@[simp] theorem AevSlot.stepped_drv : (x.stepped up late).drv = x.drv := rfl
@[simp] theorem AevSlot.stepped_width : (x.stepped up late).width = x.width := rfl

variable (s : State) (i : Fin 256) (y : AevSlot) (k : Nat) (n : Fin 8)

@[simp] theorem State.slotMoved_outDrive : (s.slotMoved i y k).outDrive n = s.outDrive n := rfl
@[simp] theorem State.slotMoved_outActive : (s.slotMoved i y k).outActive n = s.outActive n := rfl
@[simp] theorem State.slotMoved_aevClaimed : (s.slotMoved i y k).aevClaimed n = s.aevClaimed n := rfl
@[simp] theorem State.slotMoved_pinOp (a w : Nat) : (s.slotMoved i y k).pinOp n a w = s.pinOp n a w := rfl

end

/-- The slot's counts do not matter to its action. -/
theorem State.slotMoved_firing {s t : State} {i : Fin 256} {up late : Bool} {k : Nat}
    (h : Parts.FiringActs (s.slotMoved i (s.aev.slot[i].stepped up late) k) t i) : Parts.FiringActs s t i := by
  have hSlot : (s.slotMoved i (s.aev.slot[i].stepped up late) k).aev.slot[i] = s.aev.slot[i].stepped up late := vset_same _ _ _
  unfold Parts.FiringActs at h ⊢
  simp only [hSlot, AevSlot.stepped_action, AevSlot.stepped_target, AevSlot.stepped_drv, AevSlot.stepped_width,
    State.slotMoved_outDrive, State.slotMoved_outActive, State.slotMoved_aevClaimed, State.slotMoved_pinOp] at h ⊢
  exact h

theorem State.slotStep_eq (s : State) (i : Fin 256) (up late : Bool) :
    s.slotStep i up late =
      let w := s.slotMoved i (s.aev.slot[i].stepped up late)
        (if late then min 65535 (s.aev.lateTotal + 1) else s.aev.lateTotal)
      if s.aev.slot[i].admits up then w.slotAct i else w := rfl

/-- An action leaves the clock, the register file, the slots and the counts of late steps alone. -/
theorem State.slotAct_leaves (s : State) (i : Fin 256) : (s.slotAct i).clk = s.clk ∧ (s.slotAct i).cfg = s.cfg ∧
    (s.slotAct i).aev.slot = s.aev.slot ∧ (s.slotAct i).aev.lateTotal = s.aev.lateTotal := by
  unfold State.slotAct
  extract_lets x n dup
  split
  · exact ⟨rfl, rfl, rfl, rfl⟩
  split
  · split
    · have hQuiet := s.driveOut_quiet n (i.val + 1) (s.pinOp n x.action x.width)
      refine ⟨(congrArg State.clk hQuiet :), (congrArg State.cfg hQuiet :), ?_, ?_⟩
      · rw [State.driveOut_aev]
      · rw [State.driveOut_aev]
    · exact ⟨rfl, rfl, rfl, rfl⟩
  · split <;> exact ⟨rfl, rfl, rfl, rfl⟩

/-! ## The rule (R278, R287) -/

section
variable {s : State} {i : Fin 256}

theorem State.slotRule_rests (h : ¬∃ g, (s.aev.slot[i]).en = true ∧ s.aev.live[(s.aev.slot[i]).drv] = true ∧
    s.holderHalf (s.aev.slot[i]).drv = some g ∧ s.aevEn g = true) : s.slotRule i = s := by
  unfold State.slotRule State.frozen
  extract_lets x
  split
  case isTrue => rfl
  case isFalse hRuns =>
    simp only [Bool.or_eq_true, Bool.not_eq_true', not_or, Bool.not_eq_false] at hRuns
    obtain ⟨hEn, hLive⟩ := hRuns
    cases hHolder : s.holderHalf x.drv with
    | none => rfl
    | some g =>
      have hOff : s.aevEn g ≠ true := fun hOn => h ⟨g, hEn, hLive, hHolder, hOn⟩
      simp [hOff]

variable {g : Half} (hEn : (s.aev.slot[i]).en = true) (hLive : s.aev.live[(s.aev.slot[i]).drv] = true)
  (hHolder : s.holderHalf (s.aev.slot[i]).drv = some g) (hOn : s.aevEn g = true)
include hEn hLive hHolder hOn

/-- A slot that runs is judged by its distance from the angle. -/
theorem State.slotRule_runs : s.slotRule i = (s.slotV s.aev.slot[i] g).elim s fun v => let x := s.aev.slot[i]
    if x.hold then (if v.floor = x.c then s.setSlot i { x with hold := false } else s)
    else if (x.c : Rat) + 1 ≤ v then s.slotStep i true (s.clk.cyc == s.gen.at')
    else if v < (x.c : Rat) - s.aevHyst g then s.slotStep i false (s.clk.cyc == s.gen.at')
    else s := by
  unfold State.slotRule State.frozen
  simp only [hEn, hLive, hHolder, hOn, Bool.not_true, Bool.or_self, Bool.false_eq_true, if_false, if_true]
  cases s.slotV s.aev.slot[i] g <;> rfl

variable {v : Rat}

theorem State.slotRule_none (hV : s.slotV s.aev.slot[i] g = none) : s.slotRule i = s := by
  rw [State.slotRule_runs hEn hLive hHolder hOn, hV]
  rfl

theorem State.slotRule_held (hV : s.slotV s.aev.slot[i] g = some v) (hHold : (s.aev.slot[i]).hold = true) :
    s.slotRule i = if v.floor = (s.aev.slot[i]).c then s.setSlot i { s.aev.slot[i] with hold := false } else s := by
  rw [State.slotRule_runs hEn hLive hHolder hOn, hV]
  simp only [Option.elim_some, hHold, if_true]

variable (hV : s.slotV s.aev.slot[i] g = some v) (hHold : (s.aev.slot[i]).hold = false)
include hV hHold

theorem State.slotRule_between (hUp : v < ((s.aev.slot[i]).c : Rat) + 1) (hDown : ((s.aev.slot[i]).c : Rat) - s.aevHyst g ≤ v) :
    s.slotRule i = s := by
  rw [State.slotRule_runs hEn hLive hHolder hOn, hV]
  simp only [Option.elim_some, hHold, Bool.false_eq_true, if_false, not_le.mpr hUp, not_lt.mpr hDown]

theorem State.slotRule_steps {up : Bool} (h : (up = true ∧ ((s.aev.slot[i]).c : Rat) + 1 ≤ v) ∨
    (up = false ∧ v < ((s.aev.slot[i]).c : Rat) + 1 ∧ v < ((s.aev.slot[i]).c : Rat) - s.aevHyst g)) :
    s.slotRule i = s.slotStep i up (s.clk.cyc == s.gen.at') := by
  rw [State.slotRule_runs hEn hLive hHolder hOn, hV]
  rcases h with ⟨rfl, hUp⟩ | ⟨rfl, hUp, hDown⟩
  · simp only [Option.elim_some, hHold, Bool.false_eq_true, if_false, hUp, if_true]
  · simp only [Option.elim_some, hHold, Bool.false_eq_true, if_false, not_le.mpr hUp, hDown, if_true]

end

theorem exec_aevSlotStep (i : Fin 256) (dt : Nat) (s : State) : exec (.aevSlotStep i dt) s = .next ((s.wait dt).slotRule i) := rfl

/-- What a step leaves (R281, R283 to R285). -/
theorem State.slotStep_leaves (u : State) (i : Fin 256) (up : Bool) : let x := u.aev.slot[i]
    let t := u.slotStep i up (u.clk.cyc == u.gen.at')
    t.aev.slot[i] = { x with
      c := if up then x.c + 1 else x.c - 1
      late := if u.clk.cyc = u.gen.at' then min 255 (x.late + 1) else x.late
      fire := if x.admits up = true then (x.fire + 1) % 65536 else x.fire } ∧
    t.aev.lateTotal = (if u.clk.cyc = u.gen.at' then min 65535 (u.aev.lateTotal + 1) else u.aev.lateTotal) ∧
    (∀ k : Fin 256, k ≠ i → t.aev.slot[k] = u.aev.slot[k]) ∧ t.clk = u.clk ∧ t.cfg = u.cfg ∧
    (x.admits up = true → Parts.FiringActs u t i) ∧
    (x.admits up = false → t.aev.out = u.aev.out ∧ t.aev.trig = u.aev.trig ∧ t.pads = u.pads) := by
  intro x t
  generalize hw : u.slotMoved i (x.stepped up (u.clk.cyc == u.gen.at'))
    (if (u.clk.cyc == u.gen.at') = true then min 65535 (u.aev.lateTotal + 1) else u.aev.lateTotal) = w
  have ht : t = if x.admits up then w.slotAct i else w := by
    subst hw
    exact u.slotStep_eq i up _
  obtain ⟨hClk, hCfg, hSlot, hTotal⟩ : t.clk = w.clk ∧ t.cfg = w.cfg ∧ t.aev.slot = w.aev.slot ∧
      t.aev.lateTotal = w.aev.lateTotal := by
    rw [ht]
    split
    · exact w.slotAct_leaves i
    · exact ⟨rfl, rfl, rfl, rfl⟩
  refine ⟨?_, ?_, fun k hk => ?_, ?_, ?_, fun hFires => ?_, fun hRests => ?_⟩
  · rw [hSlot, ← hw]
    refine (vset_same _ _ _).trans ?_
    simp only [AevSlot.stepped, beq_iff_eq]
  · rw [hTotal, ← hw]
    simp only [State.slotMoved, beq_iff_eq]
  · rw [hSlot, ← hw]
    exact vset_other _ _ _ _ hk
  · rw [hClk, ← hw]
    rfl
  · rw [hCfg, ← hw]
    rfl
  · rw [ht, if_pos hFires]
    have hActs := w.slotAct_firing i
    subst hw
    exact State.slotMoved_firing hActs
  · rw [ht, hRests, ← hw]
    exact ⟨rfl, rfl, rfl⟩

/-- Settles O32: the rule judges the slot of the state after the wait, and a step is what `slotStep` leaves. -/
theorem slotSteps : Obligations.SlotSteps := by
  intro s i dt u x runs
  refine ⟨fun hRests => ?_, fun g ⟨hEn, hLive, hHolder, hOn⟩ hV => ?_, fun g v ⟨hEn, hLive, hHolder, hOn⟩ hV hHold => ?_,
    fun g v ⟨hEn, hLive, hHolder, hOn⟩ hV hHold => ⟨fun ⟨hUp, hDown⟩ => ?_, fun up hStep => ?_⟩⟩
  · exact congrArg Host.Outcome.next (State.slotRule_rests (s := u) hRests)
  · exact congrArg Host.Outcome.next (State.slotRule_none (s := u) hEn hLive hHolder hOn hV)
  · exact congrArg Host.Outcome.next (State.slotRule_held (s := u) hEn hLive hHolder hOn hV hHold)
  · exact congrArg Host.Outcome.next (State.slotRule_between (s := u) hEn hLive hHolder hOn hV hHold hUp hDown)
  · refine ⟨_, congrArg Host.Outcome.next (State.slotRule_steps (s := u) hEn hLive hHolder hOn hV hHold hStep), ?_⟩
    exact u.slotStep_leaves i up

end Sys2Proof.Machine
end

section
/-! PROOFS. The statement about the decimated outputs asks in the state before the command whether STUCK_n is live, and so keeps the
phase sum from being evaluated (R302). The outputs come at the next strobe of the common grid (assumption 18). A source that is live for
an instant of detection (R347) can be live in the state before and no longer be so at the strobe; the sum is evaluated there. -/

namespace Sys2Proof.Machine

/-- Cycle 1 of a released device in which STUCK_0 is live for this instant of detection. Inputs 0 to 2 of H0 are the phases of drive 0; an
offset of −100 has input 0 read 100, the tolerance of the sum is 0. -/
def stuckForInstant : State :=
  { State.reset with
    boot := { State.reset.boot with released := true }
    clk := { cyc := 1 }
    cfg := [(0xA0100, 0x05), (0xA0108, 0x4000FF9C), (0xA0120, 0x25), (0xA0140, 0x45), (0xA020C, 0x01010000)]
    flt := vset State.reset.flt Page.sdm.idx { ev := [(2, 2)] } }

/-- The run of the phase sum of drive 0 in H0 after a command. -/
def sumRunAfter : Done → Option Nat
  | .next t => some t.sdm.tq.h0[(0 : Fin 2)].sumRun
  | _ => none

theorem stuckForInstant_not_judged : stuckForInstant.phsumJudged .h0 0 = false := by
  decide +kernel

/-- The sum exceeds its tolerance at the strobe of cycle 1,280, and is counted. -/
theorem decimatedOutput_counts_sum : sumRunAfter (exec .sdmDecimatedOutput stuckForInstant) = some 1 := by
  decide +kernel

/-- The sum is evaluated by the sources that are live at the strobe. -/
theorem not_currentOutputs : ¬ Parts.CurrentOutputs := by
  unfold Parts.CurrentOutputs
  intro h
  obtain ⟨-, hOutput, -⟩ := h stuckForInstant
  obtain ⟨t, hRun, -, -, -, -, -, -, -, hTorque⟩ := hOutput rfl
  obtain ⟨-, -, -, -, hSum⟩ := hTorque .h0 0 (by decide)
  have hCounted := congrArg sumRunAfter hRun
  rw [decimatedOutput_counts_sum] at hCounted
  have hOne : t.sdm.tq.h0[(0 : Fin 2)].sumRun = 1 := (Option.some.inj hCounted).symm
  rw [if_neg fun hBoth => Bool.false_ne_true (stuckForInstant_not_judged.symm.trans hBoth.1)] at hSum
  exact absurd (hOne.symm.trans hSum) (by decide)

/-- Refutes O34: a phase sum that STUCK_0, live for an instant, keeps from being evaluated in the state before the command is evaluated at
the strobe, where that instant is over. -/
theorem not_currentSensing : ¬ Obligations.CurrentSensing := by
  unfold Obligations.CurrentSensing
  rintro ⟨-, hOutputs, -⟩
  exact not_currentOutputs hOutputs

end Sys2Proof.Machine
end

section
/-! PROOFS. The statement about the end of REL_GAP asks who holds the drive where the command finds the device. The gap ends at its own
cycle; in the one cycle of a handover in which the half that takes the drive over claims it too (R245, Table 10.1), the drive has no
single holder, no half votes to release SAFE_INH_d, and the pin stays asserted (Table 13.4). -/

namespace Sys2Proof.Machine

/-- The device has released, H0 holds both drives, drive 0 is released with REL_GAP running to cycle 160, and H1 takes the drive over from
now on, its claim becoming valid in that cycle. -/
def gapEndsAtClaim : State :=
  { State.reset with
    boot := { State.reset.boot with released := true }
    xd := ⟨#[{ claim := ⟨true, false⟩, busy := true, taking := some .h1 }, { claim := ⟨true, false⟩ }], rfl⟩
    safe := vset State.reset.safe 0 { ssl := ⟨false, false⟩, rel := true, gapUntil := some 160 } }

/-- Whether SAFE_INH_0 sinks after a command. -/
def inhSinksAfter : Done → Option Bool
  | .next t => some t.pads.inh[(0 : Fin 2)].sink
  | _ => none

theorem relGapEnd_keeps_inh : inhSinksAfter (exec (.relGapEnd 0) gapEndsAtClaim) = some false := by
  decide +kernel

/-- A drive that has a holder when the command comes, and none when the gap ends, keeps SAFE_INH_d asserted. -/
theorem not_releaseRequest : ¬ Parts.ReleaseRequest := by
  unfold Parts.ReleaseRequest
  intro h
  obtain ⟨-, -, hGap, -⟩ := h gapEndsAtClaim 0
  obtain ⟨t, hRun, -, -, -, hReleased⟩ := hGap 160 rfl
  have hSinks := congrArg inhSinksAfter hRun
  rw [relGapEnd_keeps_inh] at hSinks
  exact absurd ((Option.some.inj hSinks).trans (hReleased rfl rfl (by decide +kernel) rfl rfl)) (by decide)

/-- Refutes O35: in the cycle of a handover in which both halves claim the drive, the end of REL_GAP does not release SAFE_INH_d, though
the drive had a single holder before. -/
theorem not_torqueAndRelease : ¬ Obligations.TorqueAndRelease := by
  unfold Obligations.TorqueAndRelease
  rintro ⟨-, hRelease⟩
  exact not_releaseRequest hRelease

end Sys2Proof.Machine
end

section
/-! PROOFS. The DIS latches (R309) and the hold time of a safe-state pin (R45). -/

namespace Sys2Proof.Machine

/-! ## The vote on DIS_REQ (Table 13.4) -/

theorem VPin.vote_asserted (p : VPin) (a rel : Bool) (now : Nat) : (p.vote a true rel now).sink = a := rfl

theorem VPin.vote_released (p : VPin) (a : Bool) (now : Nat) : (p.vote a false true now).sink = !a := rfl

section
variable {s : State}

theorem State.voteDis_asserts {d : Drive} {h : Half} (hPins : s.votesPins h = true) (hDis : s.sdm.dis.get h = true) :
    s.voteDis d h = .assert := by
  simp [State.voteDis, hPins, hDis]

/-- A half that drives its pins and has its DIS latch set asserts DIS_REQ. -/
theorem State.voteAll_dis_asserted {h : Half} (hPins : s.votesPins h = true) (hDis : s.sdm.dis.get h = true) :
    s.voteAll.pads.dis.sink = true := by
  have hAssert : s.voteDis 0 h = .assert := State.voteDis_asserts hPins hDis
  unfold State.voteAll
  dsimp only
  cases h <;> simp [hAssert, VPin.vote]

/-- A single holder drives its pins. -/
theorem State.holds_of_holderHalf {d : Drive} {h : Half} (hHolder : s.holderHalf d = some h) : s.holds d h = true := by
  unfold State.holds
  rw [hHolder]
  exact beq_self_eq_true _

theorem State.halfOn_of_holderHalf {d : Drive} {h : Half} (hHolder : s.holderHalf d = some h) : s.halfOn h = true := by
  have hClaims : s.claims d h = true := by
    unfold State.holderHalf State.holder at hHolder
    cases h0 : s.claims d .h0 <;> cases h1 : s.claims d .h1 <;> rw [h0, h1] at hHolder <;> cases hHolder <;> assumption
  exact (Bool.and_eq_true_iff.mp hClaims).2

theorem State.voteDis_clear (hDis : s.sdm.dis = ⟨false, false⟩) (d : Drive) (h : Half) : s.voteDis d h ≠ .assert := by
  have hGet : s.sdm.dis.get h = false := by
    rw [hDis]
    cases h <;> rfl
  unfold State.voteDis
  rw [hGet]
  simp only [Bool.false_eq_true, if_false]
  split
  · exact nofun
  · split <;> exact nofun

theorem State.voteDis_releases (hReleased : s.boot.released = true) (hDis : s.sdm.dis = ⟨false, false⟩) {d : Drive} {h : Half}
    (hHolder : s.holderHalf d = some h) : s.voteDis d h = .release := by
  have hGet : s.sdm.dis.get h = false := by
    rw [hDis]
    cases h <;> rfl
  simp [State.voteDis, State.votesPins, hReleased, State.halfOn_of_holderHalf hHolder, hGet, State.holds_of_holderHalf hHolder]

/-- With the latches clear the holders of the drives release DIS_REQ. -/
theorem State.voteAll_dis_released (hScan : s.sys.scan = false) (hReleased : s.boot.released = true)
    (hDis : s.sdm.dis = ⟨false, false⟩) (hHolds : ∀ d : Drive, (s.holderHalf d).isSome = true) :
    s.voteAll.pads.dis.sink = false := by
  have hRel (d : Drive) : (decide (s.voteDis d .h0 = .release) || decide (s.voteDis d .h1 = .release)) = true := by
    obtain ⟨h, hHolder⟩ := Option.isSome_iff_exists.mp (hHolds d)
    have hVote := State.voteDis_releases hReleased hDis hHolder
    cases h <;> simp [hVote]
  unfold State.voteAll
  simp only [hScan, hRel, State.voteDis_clear hDis, decide_false, Bool.or_self, Bool.and_self]
  rfl

end

theorem Drive.zero_or_one : ∀ d : Drive, d = 0 ∨ d = 1 := by decide

/-! ## SSL set (R305) -/

/-- A latch set, beside the form of each half. -/
def SafeDrive.set (x : SafeDrive) : SafeDrive := { x with ssl := ⟨true, true⟩, rel := false, gapUntil := none }

theorem State.setSsl_safe_same (s : State) (d : Drive) : ∃ f, (s.setSsl d).safe[d] = { s.safe[d].set with form := f } := by
  unfold State.setSsl State.setSslAt
  dsimp only
  split <;> exact ⟨_, (Vector.getElem_ofFn _).trans (by simp only [vset_same]; rfl)⟩

theorem State.setSsl_safe_other (s : State) {d e : Drive} (h : e ≠ d) :
    ∃ f, (s.setSsl d).safe[e] = { s.safe[e] with form := f } := by
  unfold State.setSsl State.setSslAt
  dsimp only
  split <;> exact ⟨_, (Vector.getElem_ofFn _).trans (by simp only [vset_other _ _ _ _ h]; rfl)⟩

/-- Setting SSL has the pins follow the votes of the state it leaves. -/
theorem State.setSsl_dis_asserted {s : State} {h : Half} (hPins : s.votesPins h = true) (hDis : s.sdm.dis.get h = true)
    (d : Drive) : (s.setSsl d).pads.dis.sink = true := by
  unfold State.setSsl State.setSslAt
  dsimp only
  split
  · exact State.voteAll_dis_asserted (h := h) hPins hDis
  · exact State.voteAll_dis_asserted (h := h) hPins hDis

/-! ## The commands -/

/-- The state with both DIS latches as given. -/
def State.withDis (s : State) (b : Bool) : State := { s with sdm := { s.sdm with dis := ⟨b, b⟩ } }

theorem exec_disSet (s : State) : exec .disSet s = .next { (((s.withDis true).setSsl 0).setSsl 1) with wst := .ok } := rfl

theorem exec_disClear_denied {s : State} (h : s.SDM_GLB_CFG_DIS_ON_DEV s.lead = 1 ∧ s.devSafe = true) :
    exec .disClear s = .next { s with wst := .denied } := by
  change finish s.disClear = _
  rw [State.disClear, if_pos h]
  rfl

theorem exec_disClear_done {s : State} (h : ¬(s.SDM_GLB_CFG_DIS_ON_DEV s.lead = 1 ∧ s.devSafe = true)) :
    exec .disClear s = .next { (s.withDis false).voteAll with wst := .ok } := by
  change finish s.disClear = _
  rw [State.disClear, if_neg h]
  rfl

theorem exec_safePinHoldExpiry_held {s : State} {p : SafePin} {k : Nat} (h : (s.vpin p).holdUntil = some k) :
    exec (.safePinHoldExpiry p) s =
      .next ((s.waitTill (k + holdCycles s.free)).draw.setVpin p (s.vpin p).expire) := by
  change execSafePinHoldExpiry p s = _
  unfold execSafePinHoldExpiry
  rw [h]
  cases p <;> rfl

theorem exec_safePinHoldExpiry_idle {s : State} {p : SafePin} (h : (s.vpin p).holdUntil = none) :
    exec (.safePinHoldExpiry p) s = .next s := by
  change execSafePinHoldExpiry p s = _
  unfold execSafePinHoldExpiry
  rw [h]

/-- The hold time is 2.0 to 3.0 µs (R45). -/
theorem holdCycles_bounds (n : Nat) : 800 ≤ holdCycles n ∧ holdCycles n ≤ 1200 := by
  unfold holdCycles
  omega

theorem State.setVpin_vpin (s : State) (p : SafePin) (x : VPin) : (s.setVpin p x).vpin p = x := by
  cases p
  · exact vset_same _ _ _
  · exact vset_same _ _ _
  · rfl

theorem State.setVpin_frame (s : State) (p : SafePin) (x : VPin) : s.setVpin p x = { s with pads := (s.setVpin p x).pads } := by
  cases p <;> rfl

/-- After `disSet` both drives are in safe state, no gap running (R305, R309). -/
theorem State.disSet_safe (s : State) (d : Drive) : ((s.setSsl 0).setSsl 1).safe[d].ssl = ⟨true, true⟩ ∧
    ((s.setSsl 0).setSsl 1).safe[d].rel = false ∧ ((s.setSsl 0).setSsl 1).safe[d].gapUntil = none := by
  obtain ⟨f, hFirst⟩ := s.setSsl_safe_same 0
  obtain ⟨g, hOther⟩ := (s.setSsl 0).setSsl_safe_other (d := 1) (e := 0) (by decide)
  obtain ⟨k, hSecond⟩ := (s.setSsl 0).setSsl_safe_same 1
  obtain rfl | rfl := Drive.zero_or_one d
  · rw [hOther, hFirst]
    exact ⟨rfl, rfl, rfl⟩
  · rw [hSecond]
    exact ⟨rfl, rfl, rfl⟩

/-- Settles O36: the latches by the votes of the state they leave, the hold time by the free value in its range. -/
theorem disLatchesAndPins : Obligations.DisLatchesAndPins := by
  intro s
  refine ⟨⟨_, exec_disSet s, rfl, ?_, ?_, (s.withDis true).disSet_safe, fun hReleased hOn => ?_⟩, exec_disClear_denied,
    fun hMay => ⟨_, exec_disClear_done hMay, rfl, fun hScan hReleased hFirst hSecond => ?_⟩, fun p k hHeld => ?_,
    fun p => exec_safePinHoldExpiry_idle⟩
  · simp [State.withDis]
  · simp [State.withDis]
  · have hPins (h : Half) (hh : s.halfOn h = true) : ((s.withDis true).setSsl 0).votesPins h = true := by
      simp only [State.votesPins, State.halfOn, State.setSsl_boot, State.setSsl_pwr]
      exact Bool.and_eq_true_iff.mpr ⟨hReleased, hh⟩
    rcases hOn with hOn | hOn
    · exact State.setSsl_dis_asserted (hPins .h0 hOn) (by simp [State.withDis, Two.get]) 1
    · exact State.setSsl_dis_asserted (hPins .h1 hOn) (by simp [State.withDis, Two.get]) 1
  · refine State.voteAll_dis_released (s := s.withDis false) hScan hReleased rfl fun d => ?_
    obtain rfl | rfl := Drive.zero_or_one d
    · exact hFirst
    · exact hSecond
  · obtain ⟨hLow, hHigh⟩ := holdCycles_bounds s.free
    have hFrame := (s.waitTill (k + holdCycles s.free)).draw.setVpin_frame p (s.vpin p).expire
    have hCyc := s.waitTill_clk_cyc (k + holdCycles s.free)
    refine ⟨_, exec_safePinHoldExpiry_held hHeld, State.setVpin_vpin _ _ _, ?_, ?_, ?_, ?_⟩
    · rw [hFrame]
      change _ ≤ (s.waitTill (k + holdCycles s.free)).clk.cyc
      omega
    · rw [hFrame]
      change (s.waitTill (k + holdCycles s.free)).clk.cyc ≤ _
      omega
    · rw [hFrame]
      rfl
    · rw [hFrame]
      rfl

end Sys2Proof.Machine
end

section
/-! PROOFS. The statement about the end of a visit judges the result by the settings that the visit began with. With the visit over, the
slot is judged on its registers as they stand (R331, Table 14.5): where they have been written meanwhile and now break R319, CFG goes
live, and the tag loses VALID at once. -/

namespace Sys2Proof.Machine

/-- A visit of slot 0 to pins 0 and 1 for VOLT, its one conversion done in cycle 0 and without fault. -/
def endedVisit : AuxVisit :=
  { slot := 0
    set := { pins := 0x3FFFFC20, cfg := 0, rref := 0, lead := 0, r0 := 0, limHi := 0, limLo := 0, short := 0 }
    gS := 0, gL := 0, lead := false, convs := [⟨0, 0, false, false, 0, 0⟩], settling := false, till := 0, t0 := 0, stamp := some 0
    ended := some 0 }

/-- A released device with slot 0 enabled, whose pins have been written back to their reset value during its visit. -/
def pinsWrittenInVisit : State :=
  { State.reset with
    boot := { State.reset.boot with phase := .released, released := true }
    cfg := [(0xB0040, 1)]
    aux := { State.reset.aux with conv := vset State.reset.aux.conv 0 { visit := some endedVisit } } }

/-- VALID of slot 0 after a command. -/
def slotValidAfter : Done → Option Bool
  | .next t => some (t.aux.slot[(0 : Fin 16)].tag.getLsbD 0)
  | _ => none

/-- The slot has no cause by the settings of its visit. -/
theorem pinsWrittenInVisit_sound : pinsWrittenInVisit.auxCond 0 = 0 ∧ endedVisit.clipped = false := by
  decide +kernel

/-- No result of this visit shows a cause. -/
theorem endedVisit_causes (r : AuxRes) : endedVisit.causes r = 0 := by
  have hType : endedVisit.set.ty = 0 := by decide
  have hLead : endedVisit.set.leadMode = 0 := by decide
  have hCompliance : endedVisit.convs.any Conv.atCompliance = false := by decide
  have hWindow : ∀ m ∈ endedVisit.convs, m.outside &&& pinMask ([0, 1, 2, 3].filterMap endedVisit.set.pin) = 0#16 := by
    decide +kernel
  simpa [AuxVisit.causes, hType, hLead, hCompliance] using hWindow

theorem auxVisitEnd_clears_valid : slotValidAfter (exec (.auxVisitEnd 0) pinsWrittenInVisit) = some false := by
  decide +kernel

/-- A result without overrange and without a cause by the settings of its visit loses VALID where the registers break R319. -/
theorem not_auxVisits : ¬ Parts.AuxVisits := by
  unfold Parts.AuxVisits
  intro h
  obtain ⟨-, -, -, -, -, -, hEnd⟩ := h pinsWrittenInVisit 0 endedVisit rfl
  obtain ⟨t, hRun, -, -, -, -, -, -, hValid, -⟩ := hEnd 0 rfl (by decide +kernel)
  have hAfter := congrArg slotValidAfter hRun
  rw [auxVisitEnd_clears_valid] at hAfter
  have hClear : t.aux.slot[(0 : Fin 16)].tag.getLsbD 0 = false := (Option.some.inj hAfter).symm
  have hSet : t.aux.slot[(0 : Fin 16)].tag.getLsbD 0 = true := by
    refine hValid.trans ?_
    rw [endedVisit_causes, show pinsWrittenInVisit.auxCond endedVisit.slot = 0 from pinsWrittenInVisit_sound.1,
      pinsWrittenInVisit_sound.2]
    rfl
  exact absurd (hClear.symm.trans hSet) (by decide)

/-- Refutes O37: a slot whose registers have been written during its visit, so that they break R319, has no VALID after the result. -/
theorem not_auxMeasurement : ¬ Obligations.AuxMeasurement := by
  unfold Obligations.AuxMeasurement
  rintro ⟨hVisits, -⟩
  exact not_auxVisits hVisits

end Sys2Proof.Machine
end

section
/-! PROOFS. The statement about reports says that a handover source of a half leaves the safe state of a drive as it is which the half does not
hold. Where the half holds the other drive and handover is disabled there, that drive goes to safe state (R30), and with it the form of
every drive is judged again (R304): that of the first drive changes where it has not been judged since its mode was written. -/

namespace Sys2Proof.Machine

/-- A released device: H1 holds drive 0, H0 holds drive 1, whose two sources lie in H0, so that handover is disabled; the form of drive 0
is that of another SAFE_MODE. -/
def formJudgedLate : State :=
  { State.reset with
    boot := { State.reset.boot with phase := .released, released := true }
    cfg := [(0xC0140, 0x10)]
    xd := ⟨#[{ claim := ⟨false, true⟩ }, { claim := ⟨true, false⟩ }], rfl⟩
    safe := vset State.reset.safe 0 { form := ⟨true, true⟩ } }

/-- Source 0 of CRZ, that of H0, is reported. -/
def formJudgedLate_reported : State := formJudgedLate.report .crz 0 .shared .detector

theorem formJudgedLate_form : formJudgedLate_reported.safe[(0 : Fin 2)].form.h0 = false := by
  decide +kernel

/-- Refutes O39: the form of a drive that the half does not hold is judged again where the half's source takes its own drive to safe
state. -/
theorem not_reportsTaken : ¬ Obligations.ReportsTaken := by
  unfold Obligations.ReportsTaken
  intro h
  obtain ⟨-, hTaken⟩ := h formJudgedLate .crz 0 .shared .detector (by decide)
  obtain ⟨-, -, -, -, -, -, -, -, -, -, -, hHandover⟩ := hTaken (by decide)
  obtain ⟨hOther, -, -⟩ := hHandover .h0 0 rfl (by decide +kernel) (by decide) rfl
  obtain ⟨hSafe, -⟩ := hOther (by decide +kernel)
  have hForm : formJudgedLate_reported.safe[(0 : Fin 2)].form.h0 = true := congrArg (fun x => x.form.h0) hSafe
  exact absurd (formJudgedLate_form.symm.trans hForm) (by decide)

end Sys2Proof.Machine
end

section
/-! PROOFS. Events of the fault logic (R346, R357, R360, R361, R363), and the lock of the registers (R461, R462). -/

namespace Sys2Proof.Machine

/-! ## Checkers (R363) -/

/-- What checkers have found in a page: UE, and the part of it that is live. -/
def FaultHdr.found (f : FaultHdr) : BitVec 16 × BitVec 16 := (f.ue, f.ueLive)

/-- From `s` to `t` what checkers have found stands. -/
def State.SameFound (s t : State) : Prop := ∀ q, (t.hdr q).found = (s.hdr q).found

section
variable {s t u : State}

theorem State.SameFound.trans (h : s.SameFound t) (k : t.SameFound u) : s.SameFound u := fun q => (k q).trans (h q)

theorem State.SameFound.of_flt (h : t.flt = s.flt) : s.SameFound t := fun q => by
  unfold State.hdr
  rw [h]

theorem State.SameFound.updHdr (s : State) (p : Page) {f : FaultHdr → FaultHdr} (h : ∀ x, (f x).found = x.found) :
    s.SameFound (s.updHdr p f) := by
  intro q
  by_cases e : q = p
  · subst e
    rw [State.updHdr_hdr]
    exact h _
  · exact congrArg FaultHdr.found (vset_other _ _ _ _ fun hIdx => e (Page.idx_injective hIdx))

end

theorem FaultHdr.filed_found (f : FaultHdr) (p : Page) (r : Report) (t : Nat) (n : BitVec 64) (w : Bool) :
    (f.filed p r t n w).found = f.found := by
  unfold FaultHdr.filed FaultHdr.take FaultHdr.counted
  dsimp only
  (repeat' split) <;> rfl

theorem State.fileReport_sameFound (s : State) (p : Page) (r : Report) : s.SameFound (s.fileReport p r) := by
  unfold State.fileReport
  extract_lets t blaze was t1
  have hYield : s.SameFound t := .of_flt (State.yieldBlaze_flt (s.fltTriggers r.react) p r)
  have hFiled : s.SameFound t1 := hYield.trans (.updHdr t p fun x => x.filed_found p r _ _ _)
  split
  · exact hFiled.trans (.of_flt (State.offer_flt _ _ _ _))
  · exact hFiled

theorem State.react_sameFound (s : State) (p : Page) (b r : Nat) (aff : Drive → Bool) : s.SameFound (s.react p b r aff) :=
  State.react_steps (fun _ => .of_flt rfl) (fun _ _ _ => .trans) (fun t d h q i => .of_flt (t.reactHo_flt d h q i))
    (fun t d => .of_flt (State.setSsl_flt t d)) (fun t => .of_flt t.reactDev_flt) (fun t q _ => .updHdr t q fun _ => rfl) s p b r aff

/-- An uncorrected error stays shown in UE_n (R363). -/
theorem State.checkerErr_found {s : State} {p : Page} (h : s.powered p = true) (n : Nat) :
    ((s.checkerErr p n true).hdr p).found = (bput (s.hdr p).ue n true, (s.hdr p).ueLive) := by
  unfold State.checkerErr
  rw [h]
  exact ((State.react_sameFound _ _ _ _ _ p).trans (State.fileReport_sameFound _ _ _ p)).trans
    (by rw [State.updHdr_hdr]; rfl)

/-- A report of FAB shows its source as live at once (R347). -/
theorem State.fabReport_live (s : State) (b : Nat) (m : Master) (addr : Nat) (wr : Bool) (hb : b < 32) :
    ((s.fabReport b m addr wr).fltLive .fab).getLsbD b = true := by
  have hClk : (s.fabReport b m addr wr).clk = s.clk := State.clk_of_quiet (State.fabReport_quiet s b m addr wr)
  have hMem : (b, s.eventTill .fab) ∈ ((s.fabReport b m addr wr).hdr .fab).ev := by
    unfold State.fabReport
    rw [State.react_sameEv _ _ _ _ _ .fab, State.fileReport_sameEv _ _ _ .fab, State.updHdr_hdr]
    unfold State.flash
    rw [State.updHdr_hdr]
    exact List.mem_cons_self
  rw [State.fltLive_bit, FaultHdr.evLive_of_mem hMem (hClk ▸ s.lt_eventTill .fab) hb, Bool.or_true, Bool.true_or]

/-- A parity error that a page has not shown yet (R363). -/
theorem State.parityFound_shows {s : State} {p : Page} (hOn : s.powered p = true)
    (hNew : (s.hdr p).ueLive.getLsbD 0 = false) :
    ((s.parityFound p).hdr p).ue.getLsbD 0 = true ∧ ((s.parityFound p).hdr p).ueLive.getLsbD 0 = true ∧
      (s.parityFound p).quiet = s.quiet := by
  unfold State.parityFound
  rw [hOn, hNew]
  set u := s.updHdr p fun f => { f with ueLive := bput f.ueLive 0 true }
  have hFound := State.checkerErr_found (s := u) (p := p) hOn 0
  have hUe := congrArg Prod.fst hFound
  have hLive := congrArg Prod.snd hFound
  refine ⟨?_, ?_, (State.checkerErr_quiet u p 0 true).trans rfl⟩
  · exact (congrArg (·.getLsbD 0) hUe).trans (bput_get _ _ _ (by decide))
  · refine (congrArg (·.getLsbD 0) hLive).trans ?_
    rw [show u.hdr p = _ from State.updHdr_hdr _ _ _]
    exact bput_get _ _ _ (by decide)

/-! ## Windows (R346, R357) -/

/-- Detecting what a window has held off changes fault headers and what reactions do. -/
theorem State.detectHeld_quiet (s : State) (p : Page) : (s.detectHeld p).quiet = s.quiet := by
  unfold State.detectHeld
  refine foldl_keeps (view := State.quiet) (fun u c => foldl_keeps (view := State.quiet) (fun w b => ?_) _ u) _ s
  dsimp only
  split
  · exact State.cond_quiet _ _ _ _ _
  · rfl

/-- A hold-off window that is still to end is open now. -/
theorem State.lt_nextHoldEnd {s : State} {p : Page} {k : Nat} (h : s.nextHoldEnd p = some k) : s.clk.cyc < k := by
  have hFold (l : List Nat) : ∀ best : Option Nat, (∀ k ∈ best, s.clk.cyc < k) →
      ∀ k ∈ l.foldl (fun best b =>
        let t := s.holdEnd p b
        if s.clk.cyc < t then
          match best with
          | none => some t
          | some u => some (min t u)
        else best) best, s.clk.cyc < k := by
    induction l with
    | nil => exact fun best h => h
    | cons b l ih =>
      intro best hBest
      refine ih _ ?_
      dsimp only
      split
      case isFalse => exact hBest
      case isTrue hOpen =>
        cases best with
        | none => rintro k ⟨⟩; exact hOpen
        | some u =>
          rintro k ⟨⟩
          exact Nat.lt_min.mpr ⟨hOpen, hBest u rfl⟩
  exact hFold _ none (fun _ h => nomatch h) k h

/-! ## ALIVE (R361, R448) -/

section
variable {s : State}

/-- The pad of ALIVE changes nothing else. -/
theorem State.alivePad_eq (s : State) : s.alivePad = { s with alive := { s.alive with pad := s.alivePad.alive.pad } } := by
  unfold State.alivePad
  split <;> rfl

theorem State.alivePad_clk (s : State) : s.alivePad.clk.cyc = s.clk.cyc := congrArg (·.clk.cyc) s.alivePad_eq

theorem State.alivePad_level (s : State) : s.alivePad.alive.level = s.alive.level := congrArg (·.alive.level) s.alivePad_eq

theorem State.alivePad_next (s : State) : s.alivePad.alive.next = s.alive.next := congrArg (·.alive.next) s.alivePad_eq

theorem State.alivePad_pad_free (h : s.pads.heldCore = false) : s.alivePad.alive.pad = s.alive.level := by
  unfold State.alivePad
  rw [h]
  rfl

theorem State.alivePad_pad_held (h : s.pads.heldCore = true) : s.alivePad.alive.pad = s.alive.pad := by
  unfold State.alivePad
  rw [h]
  rfl

end

/-! ## The statements -/

/-- The windows and checkers, ALIVE, and a target that does not answer. -/
theorem parts_faultEvents : Parts.FaultEvents := by
  intro s p
  have hWait (c : Nat) : (s.waitTill c).clk.cyc = max s.clk.cyc c := (State.waitTill_clk_cyc s c).trans (Nat.max_comm _ _)
  refine ⟨?_, ?_, ?_, ?_, ?_, ?_, ?_, ?_⟩
  · refine ⟨_, rfl, rfl, decide_eq_false (Nat.not_lt.mpr ?_)⟩
    rw [hWait]
    exact Nat.le_max_right _ _
  · intro k hNext
    have hOpen := State.lt_nextHoldEnd hNext
    have hQuiet := (s.waitTill k).detectHeld_quiet p
    have hClk := State.clk_of_quiet hQuiet
    refine ⟨(s.waitTill k).detectHeld p, ?_, hOpen, ?_, ?_⟩
    · change execHoldoffEnd p s = _
      unfold execHoldoffEnd
      rw [hNext]
    · rw [hClk, State.waitTill_cyc hOpen.le]
    · rw [hClk]
      exact hQuiet
  · intro hNext
    refine ⟨s.detectHeld p, ?_, s.detectHeld_quiet p⟩
    change execHoldoffEnd p s = _
    unfold execHoldoffEnd
    rw [hNext]
  · intro hBad hOn hNew
    refine ⟨s.parityFound p, ?_, State.parityFound_shows hOn hNew⟩
    change execParityError p s = _
    unfold execParityError
    rw [if_pos hBad]
  · intro hNone
    change execParityError p s = _
    unfold execParityError State.parityFound
    rcases hNone with hNone | hNone <;> simp [hNone]
  · intro hRest
    change execAliveEdge s = _
    unfold execAliveEdge
    rcases hRest with hRest | hRest <;> simp [hRest]
  · intro hRuns hSafe
    refine ⟨_, if_neg (by simp [hRuns, hSafe]), ?_, ?_, ?_, ?_, ?_, ?_⟩
    case refine_6 =>
      unfold State.alivePad
      split <;> rfl
    · exact (State.alivePad_clk _).trans (hWait _)
    · exact State.alivePad_level _
    · exact State.alivePad_next _
    · exact fun hFree => State.alivePad_pad_free hFree
    · exact fun hHeld => State.alivePad_pad_held hHeld
  · intro m addr w
    exact ⟨_, rfl, rfl, State.fabReport_sticky s 2 m addr.toNat w (by decide),
      State.fabReport_live s 2 m addr.toNat w (by decide),
      congrArg (fun q : State => { q with wst := .denied }) (State.fabReport_quiet s 2 m addr.toNat w)⟩

/-- When the second write of the sequence completes it (R461). -/
theorem State.unlockReady_iff (s : State) (blk : Byte) :
    s.unlockReady blk = true ↔ s.boot.released = true ∧ s.safe[(0 : Fin 2)].rel = false ∧ s.safe[(1 : Fin 2)].rel = false ∧
      ∃ k, s.unlock.first = some (blk, k) ∧ s.clk.cyc ≤ k + 4000 := by
  unfold State.unlockReady
  rcases hFirst : s.unlock.first with _ | ⟨b, k⟩
  · simp
  · simp only [Bool.and_eq_true, Bool.not_eq_true', beq_iff_eq, decide_eq_true_eq, Option.some.injEq, Prod.mk.injEq,
      and_assoc]
    refine and_congr_right' (and_congr_right' (and_congr_right' ⟨?_, ?_⟩))
    · rintro ⟨hBlk, hLate⟩
      exact ⟨k, hBlk, rfl, hLate⟩
    · rintro ⟨k', hBlk, rfl, hLate⟩
      exact ⟨hBlk, hLate⟩

section
variable {s : State} {blk : Byte}

/-- A block number that names no block is out of range (R461). -/
theorem State.unlock_range (h : unlockMask blk.toNat = none) :
    s.unlockFirst blk = (.range, s) ∧ s.unlockSecond blk = (.range, s) ∧ s.relock blk = (.range, s) := by
  unfold State.unlockFirst State.unlockSecond State.relock
  rw [h]
  exact ⟨rfl, rfl, rfl⟩

variable {m : BitVec 18} (h : unlockMask blk.toNat = some m)
include h

/-- The first write of the sequence waits for the second (R461). -/
theorem State.unlockFirst_eq : s.unlockFirst blk = (.ok, { s with unlock := { s.unlock with first := some (blk, s.clk.cyc) } }) := by
  unfold State.unlockFirst
  rw [h]

/-- The named blocks lock at once (R462). -/
theorem State.relock_eq : s.relock blk = (.ok, { s with unlock := { s.unlock with blocks := s.unlock.blocks &&& ~~~m } }) := by
  unfold State.relock
  rw [h]

/-- A second write that does not complete the sequence spends the first (R461). -/
theorem State.unlockSecond_denied (hReady : s.unlockReady blk = false) :
    s.unlockSecond blk = (.denied, { s with unlock := { s.unlock with first := none } }) := by
  unfold State.unlockSecond
  rw [h]
  exact if_neg (Bool.eq_false_iff.mp hReady)

/-- A second write that completes the sequence opens the named blocks for UNLK_MS (R461). -/
theorem State.unlockSecond_opens (hReady : s.unlockReady blk = true) : ∃ u : Unlock, s.unlockSecond blk = (.ok, { s with unlock := u }) ∧
    u.blocks = s.unlock.blocks ||| m ∧ u.first = none ∧ u.seen = true ∧
    ∀ i : Fin 18, u.expiry[i] = if m.getLsbD i.val then
      s.clk.cyc + 400000 * max 1 s.SYS_UNLOCK_CFG_UNLK_MS else s.unlock.expiry[i] := by
  have hTill : 1000 * usCyc (max 1 s.SYS_UNLOCK_CFG_UNLK_MS) = 400000 * max 1 s.SYS_UNLOCK_CFG_UNLK_MS := by
    unfold usCyc
    omega
  unfold State.unlockSecond
  rw [h, hTill]
  refine ⟨_, if_pos hReady, rfl, rfl, rfl, fun i => ?_⟩
  rw [Fin.getElem_fin, Vector.getElem_ofFn]

end

/-- A block whose time is not over is open (R462). -/
theorem State.isOpen_of_lt {s : State} {i : Fin 18} (hBlock : s.unlock.blocks.getLsbD i.val = true)
    (hTime : s.clk.cyc < s.unlock.expiry[i]) : s.isOpen i.val = true := by
  unfold State.isOpen
  simpa only [Fin.ofNat_val_eq_self, hBlock, Bool.true_and, decide_eq_true_eq] using hTime

/-- A block whose time is over is open no more (R462). -/
theorem State.isOpen_of_le {s : State} {i : Fin 18} (hTime : s.unlock.expiry[i] ≤ s.clk.cyc) : s.isOpen i.val = false := by
  unfold State.isOpen
  refine Bool.and_eq_false_imp.mpr fun _ => decide_eq_false (Nat.not_lt.mpr ?_)
  simpa only [Fin.ofNat_val_eq_self] using hTime

/-- The lock of the registers. -/
theorem parts_unlockSequence : Parts.UnlockSequence := by
  intro s blk
  have hWait (c : Nat) : (s.waitTill c).clk.cyc = max s.clk.cyc c := (State.waitTill_clk_cyc s c).trans (Nat.max_comm _ _)
  refine ⟨?_, fun m hMask => ⟨?_, ?_, ?_, ?_⟩, ?_, ?_⟩
  · intro hNone i hi
    obtain ⟨hFirst, hSecond, hRelock⟩ := State.unlock_range (s := s) hNone
    simp only [List.mem_cons, List.not_mem_nil, or_false] at hi
    rcases hi with rfl | rfl | rfl
    · exact congrArg finish hFirst
    · exact congrArg finish hSecond
    · exact congrArg finish hRelock
  · exact congrArg finish (State.unlockFirst_eq hMask)
  · exact congrArg finish (State.relock_eq hMask)
  · intro k hFirst hLate hReleased h0 h1
    obtain ⟨u, hOpens, hBlocks, hNone, hSeen, hExpiry⟩ :=
      State.unlockSecond_opens hMask ((s.unlockReady_iff blk).mpr ⟨hReleased, h0, h1, k, hFirst, hLate⟩)
    refine ⟨_, congrArg finish hOpens, rfl, hBlocks, hNone, hSeen, hExpiry, fun i hi => ?_, rfl⟩
    refine State.isOpen_of_lt ?_ ?_
    · exact (congrArg (·.getLsbD i.val) hBlocks).trans (by rw [BitVec.getLsbD_or, hi, Bool.or_true])
    · refine (hExpiry i).symm ▸ ?_
      rw [if_pos hi]
      exact Nat.lt_add_of_pos_right (by omega)
  · intro hBar
    refine congrArg finish (State.unlockSecond_denied hMask ?_)
    rw [← Bool.not_eq_true, s.unlockReady_iff]
    rintro ⟨hReleased, h0, h1, k, hFirst, hLate⟩
    rcases hBar with hNone | hRel | hRel | hHeld | ⟨b, k', hOther, hLost⟩
    · exact absurd (hNone.symm.trans hFirst) (by simp)
    · exact absurd (hRel.symm.trans h0) (by simp)
    · exact absurd (hRel.symm.trans h1) (by simp)
    · exact absurd (hHeld.symm.trans hReleased) (by simp)
    · obtain ⟨rfl, rfl⟩ : b = blk ∧ k' = k := by simpa using hOther.symm.trans hFirst
      exact hLost.elim (· rfl) hLate.not_gt
  · intro b hOpen
    refine ⟨_, if_pos hOpen, hWait _, rfl, State.isOpen_of_le ?_, rfl⟩
    rw [hWait]
    exact Nat.le_max_right _ _
  · intro b k hFirst
    refine ⟨{ s.waitTill (k + 4001) with unlock := { s.unlock with first := none } }, ?_, hWait _, rfl⟩
    change execUnlockFirstExpiry s = _
    unfold execUnlockFirstExpiry
    rw [hFirst]
    rfl

/-- Settles O40: windows end in time, checkers and targets report what they find, and the lock opens to both writes of its
sequence alone. -/
theorem faultEventsAndLock : Obligations.FaultEventsAndLock := ⟨parts_faultEvents, parts_unlockSequence⟩

end Sys2Proof.Machine
end

section
/-! PROOFS. Rounds, runs and yields of Cruise (R366 to R373). -/

namespace Sys2Proof.Machine

/-! ## What the lanes leave alone -/

/-- The state without Cruise, and without what a report can change. -/
def State.offCrz (s : State) : State := ({ s with crz := {} } : State).quiet

/-- Cruise without its lanes and the items left in the round. -/
def Crz.tally (c : Crz) : Crz :=
  { c with act := Vector.replicate 3 none, actAt := Vector.replicate 3 0, ran := Vector.replicate 3 0, seg := 0, part := 0
           todo := [], passed := 0 }

/-- What the ends of runs have shown. -/
def Crz.verdicts (c : Crz) : Vector Nat 15 × Nat × Word × BitVec 2 × Vector (Option (Fin 15 × Nat)) 3 :=
  (c.res, c.failCnt, c.failInfo, c.roles, c.lastEnd)

theorem State.fillLane_frame (s : State) (l : Fin 3) : s.fillLane l = { s with crz := (s.fillLane l).crz } := by
  unfold State.fillLane
  split
  · rfl
  · split <;> rfl

theorem State.fillThree_frame (s : State) : s.fillThree = { s with crz := s.fillThree.crz } := by
  unfold State.fillThree
  rw [State.fillLane_frame _ 2, State.fillLane_frame _ 1, State.fillLane_frame s 0]

theorem State.fillLane_tally (s : State) (l : Fin 3) : (s.fillLane l).crz.tally = s.crz.tally := by
  unfold State.fillLane
  split
  · rfl
  · split <;> rfl

theorem State.fillThree_tally (s : State) : s.fillThree.crz.tally = s.crz.tally :=
  ((State.fillLane_tally _ 2).trans (State.fillLane_tally _ 1)).trans (State.fillLane_tally s 0)

theorem State.judgeStarved_quiet (s : State) : s.judgeStarved.quiet = s.quiet := State.cond_quiet _ _ _ _ _

theorem State.judgeStarved_crz (s : State) : s.judgeStarved.crz = s.crz := congrArg (·.crz) s.judgeStarved_quiet

theorem Crz.verdicts_of_tally {c d : Crz} (h : c.tally = d.tally) : c.verdicts = d.verdicts := (congrArg Crz.verdicts h :)

theorem Crz.round_of_tally {c d : Crz} (h : c.tally = d.tally) : c.rounds = d.rounds ∧ c.roundAt = d.roundAt ∧
    c.inRound = d.inRound ∧ c.again = d.again ∧ c.due = d.due :=
  ⟨(congrArg Crz.rounds h :), (congrArg Crz.roundAt h :), (congrArg Crz.inRound h :), (congrArg Crz.again h :),
    (congrArg Crz.due h :)⟩

theorem Crz.of_verdicts {c d : Crz} (h : c.verdicts = d.verdicts) : c.res = d.res ∧ c.failCnt = d.failCnt ∧
    c.failInfo = d.failInfo ∧ c.roles = d.roles ∧ c.lastEnd = d.lastEnd := by
  simpa only [Crz.verdicts, Prod.mk.injEq] using h

theorem State.offCrz_of_quiet {s t : State} (h : t.quiet = s.quiet) : t.offCrz = s.offCrz :=
  congrArg (fun q : State => { q with crz := {} }) h

theorem State.fillThree_offCrz (s : State) : s.fillThree.offCrz = s.offCrz := by rw [State.fillThree_frame]; rfl

theorem State.roundEnded_offCrz (s : State) : s.roundEnded.offCrz = s.offCrz := by
  unfold State.roundEnded
  split <;> rfl

theorem State.roundDropped_frame (s : State) : s.roundDropped = { s with crz := s.roundDropped.crz } := by
  unfold State.roundDropped
  split <;> rfl

theorem State.fillLanes_offCrz (s : State) : s.fillLanes.offCrz = s.offCrz := by
  have hThree : s.roundDropped.fillThree.offCrz = s.offCrz :=
    (State.fillThree_offCrz _).trans (by rw [State.roundDropped_frame]; rfl)
  have hEnded := (State.roundEnded_offCrz s.roundDropped.fillThree).trans hThree
  rw [State.fillLanes_eq]
  dsimp only
  split
  · split
    · refine (State.fillThree_offCrz _).trans ((State.offCrz_of_quiet (State.judgeStarved_quiet _)).trans ?_)
      exact Eq.trans rfl hEnded
    · exact hEnded
  · exact hThree

theorem State.fillLanes_verdicts (s : State) : s.fillLanes.crz.verdicts = s.crz.verdicts := by
  have hThree : s.roundDropped.fillThree.crz.verdicts = s.crz.verdicts :=
    (Crz.verdicts_of_tally (State.fillThree_tally _)).trans (by unfold State.roundDropped; split <;> rfl)
  have hEnded : s.roundDropped.fillThree.roundEnded.crz.verdicts = s.crz.verdicts :=
    Eq.trans (by unfold State.roundEnded; split <;> rfl) hThree
  rw [State.fillLanes_eq]
  dsimp only
  split
  · split
    · refine (Crz.verdicts_of_tally (State.fillThree_tally _)).trans ?_
      rw [State.judgeStarved_crz]
      exact Eq.trans rfl hEnded
    · exact hEnded
  · exact hThree

/-- A state that differs in Cruise alone, and in what a report can change. -/
theorem State.quiet_of_offCrz {s t : State} (h : t.offCrz = s.offCrz) : t.quiet = ({ s with crz := t.crz } : State).quiet :=
  congrArg (fun q : State => { q with crz := t.crz }) h

theorem State.clk_of_offCrz {s t : State} (h : t.offCrz = s.offCrz) : t.clk = s.clk := congrArg (·.clk) h

theorem State.wst_of_offCrz {s t : State} (h : t.offCrz = s.offCrz) : t.wst = s.wst := congrArg (·.wst) h

/-! ## Lanes (R368) -/

/-- A run in progress goes on. -/
theorem State.fillLane_act {s : State} {k : Fin 3} {i : Fin 15} (l : Fin 3) (h : s.crz.act[k] = some i) :
    (s.fillLane l).crz.act[k] = some i := by
  unfold State.fillLane
  split
  case isTrue => exact h
  case isFalse hFree =>
    split
    · exact h
    · refine (vset_other _ l k _ fun hSame => hFree ?_).trans h
      rw [← hSame, h]
      rfl

theorem State.fillThree_act {s : State} {k : Fin 3} {i : Fin 15} (h : s.crz.act[k] = some i) :
    s.fillThree.crz.act[k] = some i := State.fillLane_act 2 (State.fillLane_act 1 (State.fillLane_act 0 h))

/-- A round without items left starts nothing. -/
theorem State.fillLane_empty {s : State} (h : s.crz.todo = []) (l : Fin 3) :
    (s.fillLane l).crz.act = s.crz.act ∧ (s.fillLane l).crz.todo = [] := by
  unfold State.fillLane State.leaveRound
  rw [h]
  split
  · exact ⟨rfl, h⟩
  · rw [List.find?_nil]
    exact ⟨rfl, congrArg (List.filter _) h⟩

theorem State.fillThree_empty {s : State} (h : s.crz.todo = []) :
    s.fillThree.crz.act = s.crz.act ∧ s.fillThree.crz.todo = [] := by
  obtain ⟨hAct0, hTodo0⟩ := State.fillLane_empty h 0
  obtain ⟨hAct1, hTodo1⟩ := State.fillLane_empty hTodo0 1
  obtain ⟨hAct2, hTodo2⟩ := State.fillLane_empty hTodo1 2
  exact ⟨hAct2.trans (hAct1.trans hAct0), hTodo2⟩

/-- Item `i` is in the round: its run is to come, or in progress. -/
def Crz.holds (c : Crz) (i : Fin 15) : Prop := i ∈ c.todo ∨ c.act[laneOf i] = some i

/-- The first of a sorted list that satisfies `p` comes before every other one that does. -/
theorem first_le {l : List (Fin 15)} {p : Fin 15 → Bool} {i j : Fin 15} (hSorted : l.Pairwise (· < ·))
    (hFound : l.find? p = some j) (hi : i ∈ l) (hp : p i = true) : i = j ∨ j < i := by
  obtain ⟨-, before, after, rfl, hBefore⟩ := List.find?_eq_some_iff_append.mp hFound
  obtain ⟨-, hAfter, -⟩ := List.pairwise_append.mp hSorted
  rcases List.mem_append.mp hi with hi | hi
  · simpa [hp] using hBefore i hi
  · exact (List.mem_cons.mp hi).imp_right ((List.pairwise_cons.mp hAfter).1 i)

/-- The lanes take their items in order, and leave none out that can run (R368, assumption 39). -/
theorem State.fillLane_holds {s : State} {i : Fin 15} (hSorted : s.crz.todo.Pairwise (· < ·)) (hEn : s.itemEn i = true)
    (hHalf : s.itemHalfOn i = true) (h : s.crz.holds i) (l : Fin 3) :
    (s.fillLane l).crz.holds i ∧ (s.fillLane l).crz.todo.Pairwise (· < ·) := by
  have hAct (hRuns : s.crz.act[laneOf i] = some i) : (s.fillLane l).crz.holds i := .inr (State.fillLane_act l hRuns)
  have hKept : (s.fillLane l).crz.todo.Pairwise (· < ·) := by
    unfold State.fillLane
    split
    · exact hSorted
    · split <;> exact hSorted.filter _
  refine ⟨h.elim (fun hTodo => ?_) hAct, hKept⟩
  unfold State.fillLane
  split
  case isTrue => exact .inl hTodo
  case isFalse =>
    split
    next hNone =>
      refine .inl (List.mem_filter.mpr ⟨hTodo, ?_⟩)
      have := List.find?_eq_none.mp hNone i hTodo
      simp_all
    next j hFound =>
      by_cases hLane : laneOf i = l
      case neg => exact .inl (List.mem_filter.mpr ⟨hTodo, by simp [hLane]⟩)
      case pos =>
        subst hLane
        rcases first_le hSorted hFound hTodo (by simp [hEn, hHalf]) with rfl | hLater
        · exact .inr (vset_same _ _ _)
        · exact .inl (List.mem_filter.mpr ⟨hTodo, by simpa using hLater⟩)

theorem State.fillThree_holds {s : State} {i : Fin 15} (hSorted : s.crz.todo.Pairwise (· < ·)) (hEn : s.itemEn i = true)
    (hHalf : s.itemHalfOn i = true) (h : s.crz.holds i) : s.fillThree.crz.holds i := by
  have hLane (t : State) (l : Fin 3) (hFrame : t = { s with crz := t.crz }) (hHolds : t.crz.holds i)
      (hList : t.crz.todo.Pairwise (· < ·)) := State.fillLane_holds (s := t) (i := i) hList
    (hFrame ▸ hEn) (hFrame ▸ hHalf) hHolds l
  have hFrame0 := s.fillLane_frame 0
  have hFrame1 := (s.fillLane 0).fillLane_frame 1
  obtain ⟨hHolds0, hList0⟩ := hLane s 0 rfl h hSorted
  obtain ⟨hHolds1, hList1⟩ := hLane _ 1 hFrame0 hHolds0 hList0
  exact (hLane _ 2 (by rw [hFrame1, hFrame0]) hHolds1 hList1).1

/-! ## Rounds (R368, Table 16.2) -/

section
variable {s : State}

theorem Crz.idle_iff (c : Crz) : c.idle = true ↔ ∀ l : Fin 3, c.act[l] = none := by
  unfold Crz.idle
  rw [List.all_eq_true]
  constructor
  · intro h l
    exact Option.isNone_iff_eq_none.mp (h _ (by simp))
  · intro h x hx
    obtain ⟨l, hl, rfl⟩ := Vector.mem_iff_getElem.mp (Vector.mem_toList_iff.mp hx)
    exact Option.isNone_iff_eq_none.mpr (h ⟨l, hl⟩)

theorem State.roundDropped_act (s : State) : s.roundDropped.crz.act = s.crz.act := by
  unfold State.roundDropped
  split <;> rfl

/-- While a run is in progress no round begins. -/
theorem State.fillLanes_of_runs (h : s.crz.idle = false) : s.fillLanes = s.roundDropped.fillThree := by
  have hSome (c : Crz) : c.idle = false ↔ ∃ l : Fin 3, c.act[l] ≠ none := by
    rw [← Bool.not_eq_true, c.idle_iff, not_forall]
  obtain ⟨l, hl⟩ := (hSome s.crz).mp h
  obtain ⟨i, hRuns⟩ := Option.ne_none_iff_exists'.mp hl
  have hStill : s.roundDropped.fillThree.crz.act[l] = some i :=
    State.fillThree_act (Eq.trans (congrArg (·[l]) s.roundDropped_act) hRuns)
  have hBusy : s.roundDropped.fillThree.crz.idle = false := (hSome _).mpr ⟨l, by rw [hStill]; simp⟩
  rw [State.fillLanes_eq]
  exact if_neg (by rw [hBusy]; simp)

theorem State.roundItems_begun (s : State) : s.roundItems.crz.rounds = s.crz.rounds + 1 ∧
    s.roundItems.crz.roundAt = s.clk.cyc ∧ s.roundItems.crz.inRound = true := ⟨rfl, rfl, rfl⟩

/-- A round that has been asked for begins where nothing runs, and no item is left in the one before. -/
theorem State.fillLanes_begins (hOn : s.cruiseOn = true) (hIdle : s.crz.idle = true)
    (hTodo : s.crz.again = true ∨ s.crz.todo = []) (hAsk : s.crz.again = true ∨ s.crz.due = true) :
    s.fillLanes.crz.rounds = s.crz.rounds + 1 ∧ s.fillLanes.crz.roundAt = s.clk.cyc ∧ s.fillLanes.crz.inRound = true := by
  have hLeft : s.roundDropped.crz.todo = [] := by
    unfold State.roundDropped
    split
    · rfl
    next hNot => exact hTodo.resolve_left hNot
  obtain ⟨hAct, hNone⟩ := State.fillThree_empty hLeft
  set t := s.roundDropped.fillThree with ht
  have hFree : t.crz.idle = true := by
    rw [Crz.idle_iff, hAct, s.roundDropped_act]
    exact (Crz.idle_iff _).mp hIdle
  have hTally : t.crz.tally = s.crz.tally := (State.fillThree_tally _).trans (by unfold State.roundDropped; split <;> rfl)
  obtain ⟨hRounds, -, -, hAgain, hDue⟩ := Crz.round_of_tally hTally
  have hBegins : ((t.crz.again || t.crz.due) && t.cruiseOn) = true := by
    have hCruise : t.cruiseOn = s.cruiseOn := by rw [ht, State.fillThree_frame, State.roundDropped_frame]; rfl
    rw [hAgain, hDue, hCruise, hOn, Bool.and_true, Bool.or_eq_true]
    exact hAsk
  have hEq : s.fillLanes = t.roundEnded.roundItems.judgeStarved.fillThree := by
    rw [State.fillLanes_eq]
    exact (if_pos (by rw [← ht, hFree, hNone]; rfl)).trans (if_pos hBegins)
  have hBegun : s.fillLanes.crz.tally = t.roundEnded.roundItems.crz.tally := by
    rw [hEq, State.fillThree_tally, State.judgeStarved_crz]
  have hEnded : t.roundEnded.crz.rounds = t.crz.rounds := by unfold State.roundEnded; split <;> rfl
  have hClk : t.roundEnded.clk = s.clk :=
    Eq.trans (by unfold State.roundEnded; split <;> rfl) (by rw [ht, State.fillThree_frame, State.roundDropped_frame])
  obtain ⟨hOne, hAt, hIn⟩ := t.roundEnded.roundItems_begun
  obtain ⟨hRoundsEq, hAtEq, hInEq, -, -⟩ := Crz.round_of_tally hBegun
  rw [hRoundsEq, hAtEq, hInEq, hOne, hAt, hIn, hEnded, hRounds, hClk]
  exact ⟨rfl, rfl, rfl⟩

end

theorem State.rest_of_offCrz {s t : State} (h : t.offCrz = ({ s with clk := t.clk, wst := t.wst } : State).offCrz) :
    t.quiet = ({ s with clk := t.clk, crz := t.crz, wst := t.wst } : State).quiet :=
  congrArg (fun q : State => { q with crz := t.crz }) h

/-- What the start of a round changes besides Cruise. -/
theorem State.rest_of_fillLanes {s u : State} (h : u.offCrz = ({ s with clk := u.clk, wst := u.wst } : State).offCrz) :
    u.fillLanes.quiet = ({ s with clk := u.fillLanes.clk, crz := u.fillLanes.crz, wst := u.fillLanes.wst } : State).quiet := by
  have hLanes := u.fillLanes_offCrz
  refine State.rest_of_offCrz (hLanes.trans (h.trans ?_))
  rw [State.clk_of_offCrz hLanes, State.wst_of_offCrz hLanes]

theorem State.rest_withWst {s t : State} (h : t.quiet = ({ s with clk := t.clk, crz := t.crz, wst := t.wst } : State).quiet)
    (st : Status) : ({ t with wst := st } : State).quiet = ({ s with clk := t.clk, crz := t.crz, wst := st } : State).quiet :=
  congrArg (fun q : State => { q with wst := st }) h

theorem exec_restartRnd {s t : State} (h : s.startRound = t) :
    exec .restartRnd s = .next ({ t with wst := .ok } : State).domains := h ▸ rfl

/-- Rounds of Cruise start. -/
theorem parts_cruiseRoundStarts : Parts.CruiseRoundStarts := by
  intro s
  extract_lets e begun rest
  have hDue : s.crz.roundAt + 1000 * usCyc (max 1 s.CRZ_SCHED_PERIOD_MS) = s.crz.roundAt + 400000 * max 1 s.CRZ_SCHED_PERIOD_MS := by
    unfold usCyc
    omega
  set w := s.waitTill (s.crz.roundAt + 1000 * usCyc (max 1 s.CRZ_SCHED_PERIOD_MS)) with hw
  have hCyc : w.clk.cyc = e := by
    rw [hw, State.waitTill_clk_cyc, hDue]
    exact Nat.max_comm _ _
  set u : State := { w with crz := { w.crz with due := true } } with hu
  set v : State := { s with crz := { s.crz with again := true } } with hv
  have hStart (hOn : s.cruiseOn = true) : exec .cruiseRoundStart s = .next u.fillLanes.domains :=
    congrArg thenDomains (congrArg Host.Outcome.next (if_pos hOn))
  have hRest : rest u.fillLanes := State.rest_of_fillLanes rfl
  have hClk : u.fillLanes.clk = w.clk := State.clk_of_offCrz u.fillLanes_offCrz
  have hAgain (hOn : s.cruiseOn = true) : exec .restartRnd s = .next ({ v.fillLanes with wst := .ok } : State).domains :=
    exec_restartRnd (if_neg (by simp [hOn]))
  have hRestV : rest { v.fillLanes with wst := .ok } :=
    State.rest_withWst (t := v.fillLanes) (State.rest_of_fillLanes (s := s) (u := v) rfl) .ok
  have hClkV : v.fillLanes.clk = s.clk := State.clk_of_offCrz v.fillLanes_offCrz
  refine ⟨?_, ?_, ?_, ?_, ?_, ?_⟩
  · intro hOn hIdle hTodo
    obtain ⟨hRounds, hAt, hIn⟩ := State.fillLanes_begins (s := u) hOn hIdle (.inr hTodo) (.inr rfl)
    exact ⟨_, hStart hOn, (congrArg Clk.cyc hClk).trans hCyc, ⟨hRounds, hAt.trans hCyc, hIn⟩, hRest⟩
  · intro hOn hBusy
    have hLanes : u.fillLanes = u.roundDropped.fillThree := State.fillLanes_of_runs hBusy
    have hTally : u.fillLanes.crz.tally = u.crz.tally := by
      rw [hLanes, State.fillThree_tally]
      unfold State.roundDropped
      split <;> rfl
    obtain ⟨hRounds, -, -, -, hDueT⟩ := Crz.round_of_tally hTally
    refine ⟨_, hStart hOn, (congrArg Clk.cyc hClk).trans hCyc, hRest, hRounds, hDueT, ?_, ?_⟩
    · intro l i hRuns
      rw [hLanes]
      exact State.fillThree_act ((congrArg (·[l]) u.roundDropped_act).trans hRuns)
    · intro hNone hSorted i hi hEn hHalf
      have hSame : u.roundDropped = u := if_neg (Bool.eq_false_iff.mp hNone)
      rw [hLanes, hSame]
      exact State.fillThree_holds (s := u) hSorted hEn hHalf (.inl hi)
  · intro hOff
    exact ⟨w, congrArg thenDomains (congrArg Host.Outcome.next (if_neg (Bool.eq_false_iff.mp hOff))), rfl, hCyc⟩
  · intro hOn hIdle
    exact ⟨_, hAgain hOn, rfl, hClkV, State.fillLanes_begins (s := v) hOn hIdle (.inl rfl) (.inl rfl), hRestV⟩
  · intro hOn hBusy
    have hLanes : v.fillLanes = v.roundDropped.fillThree := State.fillLanes_of_runs hBusy
    have hTally : v.fillLanes.crz.tally = v.crz.tally := by
      rw [hLanes, State.fillThree_tally]
      rfl
    obtain ⟨hRounds, -, -, hAsked, -⟩ := Crz.round_of_tally hTally
    obtain ⟨hAct, hTodo⟩ := State.fillThree_empty (s := v.roundDropped) rfl
    refine ⟨_, hAgain hOn, rfl, hClkV, hRestV, hRounds, hAsked, ?_, ?_⟩
    · exact (congrArg (·.crz.act) hLanes).trans hAct
    · exact (congrArg (·.crz.todo) hLanes).trans hTodo
  · intro hOff
    exact exec_restartRnd (if_pos (by simp [hOff]))

/-! ## Runs (R369 to R373) -/

/-- The run of item `i` has ended with result `r` in cycle `cyc` (R371). -/
def Crz.ended (c : Crz) (i : Fin 15) (r cyc : Nat) : Crz :=
  { c with
    act := vset c.act (laneOf i) none, lastEnd := vset c.lastEnd (laneOf i) (some (i, cyc))
    res := vset c.res i r, done := bput c.done i.val true, missed := vset c.missed i 0
    roles := if r = 2 ∧ i.val = 12 then c.roles ^^^ 1 else if r = 2 ∧ i.val = 13 then c.roles ^^^ 2 else c.roles }

/-- A failure is counted and shown (R371). -/
def Crz.failed (c : Crz) (i : Fin 15) (r : Nat) (detail : BitVec 24) : Crz :=
  { c with
    failCnt := min 65535 (c.failCnt + 1)
    failInfo := Word.put 28 4 i.val ||| Word.put 24 3 r ||| Word.put 0 24 (runDetail i r detail) }

/-- The result of the run of item `i` is latched, and a failure reported (R371). -/
def State.latchRun (w : State) (i : Fin 15) (r : Nat) (detail : BitVec 24) : State :=
  let c := w.crz.ended i r w.clk.cyc
  if r = 2 then { w with crz := c }
  else (State.flash { w with crz := c.failed i r detail } .crz (laneOf i).val).report .crz (laneOf i).val .shared .cruise

section
variable {s : State} {i : Fin 15} {r : Nat} {detail : BitVec 24}

theorem cruiseRunEnd_rests {ok sig : Bool}
    (h : ¬(s.crz.act[laneOf i] = some i ∧ s.runRate i ≠ 0) ∨ s.stopsAt i (runResult i ok sig) detail = false) :
    cruiseRunEnd i ok sig detail s = .next s := by
  refine if_pos ?_
  rcases h with h | h
  · simp only [Bool.or_eq_true, bne_iff_ne, beq_iff_eq]
    tauto
  · simp [h]

theorem cruiseRunEnd_runs {ok sig : Bool} (hRuns : s.crz.act[laneOf i] = some i ∧ s.runRate i ≠ 0)
    (hStops : s.stopsAt i (runResult i ok sig) detail = true) : cruiseRunEnd i ok sig detail s =
      .next ((s.crzMark.waitTill (s.crzMark.runDue i (runResult i ok sig) detail)).latchRun i
        (runResult i ok sig) detail).judgeStarved.fillLanes :=
  if_neg (by simp [hRuns.1, hRuns.2, hStops])

theorem State.latchRun_crz (s : State) (i : Fin 15) (r : Nat) (detail : BitVec 24) : (s.latchRun i r detail).crz =
    if r = 2 then s.crz.ended i r s.clk.cyc else (s.crz.ended i r s.clk.cyc).failed i r detail := by
  unfold State.latchRun
  dsimp only
  split
  · rfl
  · exact congrArg (·.crz) ((State.report_quiet _ _ _ _ _).trans (State.flash_quiet _ _ _))

theorem State.latchRun_offCrz (s : State) (i : Fin 15) (r : Nat) (detail : BitVec 24) :
    (s.latchRun i r detail).offCrz = s.offCrz := by
  unfold State.latchRun
  dsimp only
  split
  · rfl
  · exact (State.offCrz_of_quiet ((State.report_quiet _ _ _ _ _).trans (State.flash_quiet _ _ _))).trans rfl

theorem State.latchRun_sticky (hOn : s.powered .crz = true) (hFail : r ≠ 2) :
    (s.latchRun i r detail).stickyBit .crz (laneOf i).val = true := by
  unfold State.latchRun
  dsimp only
  rw [if_neg hFail]
  exact State.report_sticky _ _ _ _ _ hOn (by have := (laneOf i).isLt; omega)

/-- The lanes clear no sticky bit. -/
theorem State.fillLanes_stickyUp (s : State) : s.StickyUp s.fillLanes := by
  have hThree (t : State) : t.StickyUp t.fillThree := .of_flt (by rw [State.fillThree_frame])
  have hDropped : s.StickyUp s.roundDropped := .of_flt (by rw [State.roundDropped_frame])
  have hEnded (t : State) : t.StickyUp t.roundEnded := .of_flt (by unfold State.roundEnded; split <;> rfl)
  have hNow : s.StickyUp s.roundDropped.fillThree := hDropped.trans (hThree _)
  rw [State.fillLanes_eq]
  dsimp only
  split
  · split
    · refine (hNow.trans (hEnded _)).trans (.trans ?_ (hThree _))
      exact State.StickyUp.trans (t := State.roundItems _) (.of_flt rfl) (State.cond_stickyUp _ _ _ _ _)
    · exact hNow.trans (hEnded _)
  · exact hNow

end

/-- Runs of Cruise end and yield. -/
theorem parts_cruiseRuns : Parts.CruiseRuns := by
  intro s i ok sig detail ns
  extract_lets l r m n runs
  refine ⟨?_, ?_, ?_, ?_, ?_⟩
  · intro h
    exact congrArg thenDomains (cruiseRunEnd_rests h)
  · intro hRuns hStops hOn
    set w := m.waitTill (m.runDue i r detail) with hw
    set u := w.latchRun i r detail with hu
    set t := u.judgeStarved.fillLanes with ht
    have hOff : t.offCrz = w.offCrz := (State.fillLanes_offCrz _).trans
      ((State.offCrz_of_quiet (State.judgeStarved_quiet _)).trans (State.latchRun_offCrz _ _ _ _))
    have hClk : t.clk = w.clk := State.clk_of_offCrz hOff
    have hWst : t.wst = s.wst := (State.wst_of_offCrz hOff).trans rfl
    have hSame : t.offCrz = ({ s with clk := t.clk, wst := t.wst } : State).offCrz := by rw [hClk, hWst]; exact hOff
    have hU : u.crz = if r = 2 then w.crz.ended i r w.clk.cyc else (w.crz.ended i r w.clk.cyc).failed i r detail :=
      State.latchRun_crz _ _ _ _
    obtain ⟨hRes, hCnt, hInfo, hRoles, hLast⟩ :=
      Crz.of_verdicts (show t.crz.verdicts = u.crz.verdicts by rw [ht, State.fillLanes_verdicts, State.judgeStarved_crz])
    have hResEq : t.crz.res = vset s.crz.res i r := by
      rw [hRes, hU]
      split <;> rfl
    refine ⟨t, congrArg thenDomains (cruiseRunEnd_runs hRuns hStops), ?_, ?_, ?_, ?_, ?_, ?_, ?_, ?_, ?_⟩
    · rw [hResEq]
      exact vset_same _ _ _
    · rw [hClk, hw, State.waitTill_clk_cyc]
      exact Nat.max_comm _ _
    · rw [hLast, hU, hClk]
      split <;> exact vset_same _ _ _
    · have hRest := State.rest_of_offCrz hSame
      rwa [hWst] at hRest
    · intro j hj
      rw [hResEq]
      exact vset_other _ _ _ _ hj
    · rw [hCnt, hU]
      split <;> rfl
    · rw [hInfo, hU]
      split <;> rfl
    · intro hFail
      exact State.fillLanes_stickyUp _ _ _ (State.cond_stickyUp _ _ _ _ _ _ _ (State.latchRun_sticky hOn hFail))
    · rw [hRoles, hU]
      simp only [Fin.ext_iff]
      split <;> rfl
  · intro h
    refine congrArg Host.Outcome.next (if_pos ?_)
    rcases h with h | ⟨hRuns, hEnd⟩
    · simp [h]
    · have hNot : (s.crz.act[laneOf i] == some i && s.runRate i != 0) = false := by simpa [runs] using hRuns
      rw [hNot, beq_eq_false_iff_ne.mpr hEnd]
      simp
  · intro hYields hRuns
    obtain ⟨hAct, hRate⟩ : s.crz.act[laneOf i] = some i ∧ s.runRate i ≠ 0 := hRuns
    have hRun : (s.crz.act[laneOf i] == some i && s.runRate i != 0) = true := by simp [hAct, hRate]
    refine congrArg Host.Outcome.next ((if_neg ?_).trans ?_)
    · simp only [hYields, hRun, Bool.not_true, Bool.true_or, Bool.or_self, Bool.false_eq_true, not_false_eq_true]
    · simp only [hRun, if_true, Bool.true_and, beq_iff_eq, Fin.ext_iff]
      rfl
  · intro hYields hRuns hEnd
    refine congrArg Host.Outcome.next ((if_neg ?_).trans ?_)
    · simp [hYields, l, hEnd]
    · have hRun : (s.crz.act[laneOf i] == some i && s.runRate i != 0) = false := by simpa [runs] using hRuns
      simp only [hRun, Bool.false_and, Bool.false_eq_true, if_false]
      rfl

/-- Settles O41: rounds begin when they are due or asked for, and runs end with their results. -/
theorem cruiseRounds : Obligations.CruiseRounds := ⟨parts_cruiseRoundStarts, parts_cruiseRuns⟩

end Sys2Proof.Machine
end

section
/-! PROOFS. The time base: steps, slews and the servo (R377 to R382, R395). -/

namespace Sys2Proof.Machine

/-! ## Stamps of AUX when the relation between TIME and cycles changes (R378, R379) -/

theorem State.auxStamp_spec (s : State) (c : Fin 2) : ∃ x : Aux, x.slot = s.aux.slot ∧ s.auxStamp c = { s with aux := x } := by
  unfold State.auxStamp
  split
  · exact ⟨s.aux, rfl, rfl⟩
  · split
    · exact ⟨s.aux, rfl, rfl⟩
    · exact ⟨(s.setConv c _).aux, rfl, rfl⟩

theorem State.stampAll_spec (s : State) : ∃ x : Aux, x.slot = s.aux.slot ∧ s.stampAll = { s with aux := x } := by
  obtain ⟨x, hx, hFirst⟩ := s.auxStamp_spec 0
  obtain ⟨y, hy, hSecond⟩ := (s.auxStamp 0).auxStamp_spec 1
  refine ⟨y, hy.trans ?_, hSecond.trans ?_⟩
  · rw [hFirst]
    exact hx
  · rw [hFirst]

theorem State.setRate_spec (s : State) (r : Int) : ∃ x : Aux, x.slot = s.aux.slot ∧
    s.setRate r = { s with aux := x, clk := { s.clk with rate := r } } := by
  obtain ⟨x, hx, hStamp⟩ := s.stampAll_spec
  refine ⟨x, hx, ?_⟩
  unfold State.setRate
  rw [hStamp]

/-! ## Rates, slews and steps (R380, R381) -/

section
variable {s : State} {e : Int}

/-- RATE_ADJ follows the servo where no slew holds it. -/
theorem State.applyRate_free (h : s.tim.slewTill = none) : ∃ x : Aux, x.slot = s.aux.slot ∧
    s.applyRate = { s with aux := x, clk := { s.clk with rate := s.servoRate } } := by
  obtain ⟨x, hx, hRate⟩ := s.setRate_spec s.servoRate
  exact ⟨x, hx, (if_neg (by simp [h])).trans hRate⟩

/-- What RATE_ADJ taken from the servo changes. -/
theorem State.applyRate_spec (s : State) : ∃ (x : Aux) (r : Int), x.slot = s.aux.slot ∧
    s.applyRate = { s with aux := x, clk := { s.clk with rate := r } } := by
  rcases h : s.tim.slewTill with _ | n
  · obtain ⟨x, hx, hRate⟩ := State.applyRate_free h
    exact ⟨x, _, hx, hRate⟩
  · exact ⟨s.aux, s.clk.rate, rfl, if_pos (by simp [h])⟩

theorem State.endSlew_spec (s : State) : ∃ x : Aux, x.slot = s.aux.slot ∧
    s.endSlew = { s with aux := x, clk := { s.clk with rate := s.servoRate }, tim := { s.tim with slewTill := none } } := by
  obtain ⟨x, hx, hRate⟩ := State.applyRate_free (s := { s with tim := { s.tim with slewTill := none } }) rfl
  exact ⟨x, hx, hRate⟩

/-- A backward step with NO_BACK set becomes a slew (R381). -/
theorem State.timeStep_slews (hBack : s.TIME_CFG_NO_BACK = 1) (he : e < 0) : ∃ x : Aux, x.slot = s.aux.slot ∧
    s.timeStep e = { s with
      aux := x, clk := { s.clk with rate := -rateMax }
      tim := { s.tim with slewTill := some (s.clk.cyc + slewCycles e.natAbs) } } := by
  obtain ⟨x, hx, hEnd⟩ := s.endSlew_spec
  obtain ⟨y, hy, hRate⟩ := s.endSlew.setRate_spec (-rateMax)
  refine ⟨y, hy.trans (by rw [hEnd]; exact hx), ?_⟩
  refine (if_pos ⟨by rw [hEnd]; exact hBack, he⟩).trans ?_
  rw [hRate, hEnd]

/-- The state of a step of `e` ns, before it is reported and recorded (R381). -/
def State.stepped (s : State) (e : Int) (x : Aux) : State :=
  { s with
    aux := x
    clk := { s.clk with rate := s.servoRate, time := wrapInt 96 ((s.clk.time : Int) + e * 2 ^ 32) }
    tim := { s.tim with slewTill := none, step := e, stepCnt := min 65535 (s.tim.stepCnt + 1), mr := !s.tim.mr } }

/-- Any other step moves TIME at once (R381). -/
theorem State.timeStep_steps (h : ¬(s.TIME_CFG_NO_BACK = 1 ∧ e < 0)) : ∃ x : Aux, x.slot = s.aux.slot ∧
    s.timeStep e = ((s.stepped e x).event .time 1 .shared).timeRecord 3 e := by
  obtain ⟨x, hx, hEnd⟩ := s.endSlew_spec
  obtain ⟨y, hy, hStamp⟩ := s.endSlew.stampAll_spec
  refine ⟨y, hy.trans (by rw [hEnd]; exact hx), (if_neg (by rw [hEnd]; exact h)).trans ?_⟩
  rw [hStamp, hEnd]
  rfl

end

/-! ## Records and reports of TIME (R391, R395) -/

@[simp] theorem State.timeRecord_quiet (s : State) (code : Nat) (step : Int) : (s.timeRecord code step).quiet = s.quiet := by
  unfold State.timeRecord
  split
  · rfl
  · exact State.offer_quiet _ _ _ _

theorem State.timeRecord_flt (s : State) (code : Nat) (step : Int) : (s.timeRecord code step).flt = s.flt := by
  unfold State.timeRecord
  split
  · rfl
  · exact State.offer_flt _ _ _ _

/-- No hold-off window of Table 15.4 covers a source of TIME. -/
theorem State.reports_time {s : State} (hp : s.powered .time = true) (b : Nat) : s.reports .time b = true := by
  unfold State.reports State.heldOff
  rw [hp, show s.holdWin .time b = {} from rfl, show s.lossEnd .time b = 0 from rfl]
  simp [HoldWin.covers]

/-- A step is reported and recorded, and nothing else (R381, R395). -/
theorem State.stepped_told (s : State) (e : Int) :
    ((s.event .time 1 .shared).timeRecord 3 e).quiet = s.quiet ∧
      (s.powered .time = true → ((s.event .time 1 .shared).timeRecord 3 e).stickyBit .time 1 = true) := by
  refine ⟨(State.timeRecord_quiet _ _ _).trans (State.event_quiet _ _ _ _), fun hOn => ?_⟩
  exact State.StickyUp.of_flt (State.timeRecord_flt _ _ _) _ _
    (State.event_sticky s .time 1 .shared (State.reports_time hOn 1) (by decide))

/-! ## Writes of TIME_SET_HI (R382) -/

/-- A step of the difference to `v` takes TIME to `v`. -/
theorem now_of_step (t v : Nat) :
    BitVec.ofNat 64 (wrapInt 96 ((t : Int) + ((v : Int) - ((BitVec.ofNat 64 (t / 2 ^ 32)).toNat : Int)) * 2 ^ 32) / 2 ^ 32) =
      BitVec.ofNat 64 v := by
  apply BitVec.eq_of_toNat_eq
  rw [BitVec.toNat_ofNat, BitVec.toNat_ofNat, BitVec.toNat_ofNat]
  unfold wrapInt
  omega

/-- A write of a register clears no sticky bit, and sets none. -/
theorem State.setReg_stickyBit (s : State) (a : Nat) (v : Word) (p : Page) (b : Nat) :
    (s.setReg a v).stickyBit p b = s.stickyBit p b := by
  have hMark (t : State) (q : Page) : (t.markParity q a).stickyBit p b = t.stickyBit p b := by
    unfold State.markParity
    dsimp only
    (repeat' split) <;> try rfl
    by_cases hPage : p = q
    · subst hPage
      exact (congrArg (fun f : FaultHdr => f.sticky.getLsbD b) (vset_same _ _ _)).trans rfl
    · exact congrArg (fun f : FaultHdr => f.sticky.getLsbD b)
        (vset_other _ _ _ _ fun hIdx => hPage (Page.idx_injective hIdx))
  unfold State.setReg
  split
  · rfl
  · exact hMark _ _

section
variable {s : State} {hi : Word}

/-- A write while the servo has TIME is refused (R382). -/
theorem State.timeSet_denied (h : s.discOn = true) : s.timeSet hi = (.denied, s) := if_pos h

theorem State.timeSet_steps (h : s.discOn = false) : s.timeSet hi = (.ok, (s.setReg 0xE0074 hi).timeStep
    (((hi.toNat * 2 ^ 32 + (s.setReg 0xE0074 hi).TIME_SET_LO_SET : Nat) : Int) - (s.now.toNat : Int))) := by
  refine (if_neg (Bool.eq_false_iff.mp h)).trans ?_
  have hNow : (s.setReg 0xE0074 hi).now = s.now := congrArg (fun c : Clk => BitVec.ofNat 64 (c.time / 2 ^ 32)) (State.setReg_clk _ _ _)
  dsimp only
  rw [hNow]
  push_cast
  rfl

theorem State.discOn_eq_true : s.discOn = true ↔ s.qb = false ∧ s.TIME_CFG_DISC_EN = 1 := by
  unfold State.discOn
  simp

theorem State.discOn_eq_false (h : s.qb = true ∨ s.TIME_CFG_DISC_EN ≠ 1) : s.discOn = false := by
  rw [← Bool.not_eq_true, State.discOn_eq_true]
  rcases h with h | h <;> simp [h]

end

theorem rateMax_neg : -rateMax < 0 := by decide

/-- Settles O42: a write of TIME_SET_HI is a step, or a slew. -/
theorem timeSetSteps : Obligations.TimeSetSteps := by
  intro s hi
  extract_lets u v e
  refine ⟨fun hQa hDisc => congrArg finish (State.timeSet_denied (State.discOn_eq_true.mpr ⟨hQa, hDisc⟩)), fun hFree => ?_⟩
  have hExec : exec (.timeSet hi) s = finish (.ok, u.timeStep e) := congrArg finish (State.timeSet_steps (State.discOn_eq_false hFree))
  have hClk : u.clk = s.clk := State.setReg_clk s _ _
  have hTim : u.tim = s.tim := State.setReg_tim s _ _
  have hAux : u.aux = s.aux := State.setReg_aux s _ _
  by_cases hSlew : u.TIME_CFG_NO_BACK = 1 ∧ e < 0
  · obtain ⟨x, hx, hStep⟩ := State.timeStep_slews hSlew.1 hSlew.2
    rw [hStep] at hExec
    refine ⟨_, hExec, rfl, rfl, (congrArg Clk.cyc hClk :), hx.trans (congrArg Aux.slot hAux), fun hNot => ?_, fun _ _ => ?_⟩
    · exact absurd hSlew (by omega)
    · refine ⟨?_, rateMax_neg, (congrArg Tim.step hTim :), rfl, (congrArg Tim.stepCnt hTim :), s.setReg_stickyBit _ _ _ _⟩
      exact (congrArg (fun c : Clk => BitVec.ofNat 64 (c.time / 2 ^ 32)) hClk :)
  · obtain ⟨x, hx, hStep⟩ := State.timeStep_steps (s := u) hSlew
    obtain ⟨hQuiet, hSticky⟩ := (u.stepped e x).stepped_told e
    rw [hStep] at hExec
    set t := ((u.stepped e x).event .time 1 .shared).timeRecord 3 e with ht
    have hTim' : t.tim = (u.stepped e x).tim := (congrArg State.tim hQuiet :)
    have hClk' : t.clk = (u.stepped e x).clk := State.clk_of_quiet hQuiet
    have hAux' : t.aux = x := (congrArg State.aux hQuiet :)
    refine ⟨_, hExec, rfl, ?_, ?_, ?_, fun _ => ⟨?_, ?_, ?_, ?_, ?_⟩, fun hBack he => absurd ⟨hBack, he⟩ hSlew⟩
    · rw [hTim', hClk', hAux']
      exact congrArg (fun q : State => { q with wst := .ok }) (hQuiet.trans rfl)
    · exact (congrArg Clk.cyc hClk' :).trans (congrArg Clk.cyc hClk :)
    · exact (congrArg Aux.slot hAux' :).trans (hx.trans (congrArg Aux.slot hAux))
    · refine (congrArg (fun c : Clk => BitVec.ofNat 64 (c.time / 2 ^ 32)) hClk' :).trans ?_
      refine Eq.trans ?_ (now_of_step s.clk.time v)
      exact (congrArg (fun c : Clk => BitVec.ofNat 64 (wrapInt 96 ((c.time : Int) + e * 2 ^ 32) / 2 ^ 32)) hClk :)
    · exact (congrArg Tim.step hTim' :)
    · exact (congrArg Tim.slewTill hTim' :)
    · exact (congrArg Tim.stepCnt hTim' :).trans (congrArg (fun x : Tim => min 65535 (x.stepCnt + 1)) hTim :)
    · exact fun hOn => hSticky ((s.setReg_powered _ _ _).trans hOn)

end Sys2Proof.Machine
end

section
/-! PROOFS. The time servo, and slews (R379 to R381, R395). -/

namespace Sys2Proof.Machine

theorem parts_backwardSets : Parts.BackwardSets := by
  intro s hi
  extract_lets v
  intro hFree hBack hEarlier
  obtain ⟨x, -, hStep⟩ := State.timeStep_slews (s := s.setReg 0xE0074 hi) (e := (v : Int) - (s.now.toNat : Int)) hBack (by omega)
  have hExec : exec (.timeSet hi) s = finish (.ok, _) := congrArg finish (State.timeSet_steps (State.discOn_eq_false hFree))
  rw [hStep] at hExec
  refine ⟨_, hExec, rfl, ?_⟩
  have hAbs : ((v : Int) - (s.now.toNat : Int)).natAbs = s.now.toNat - v := by omega
  have hClk : (s.setReg 0xE0074 hi).clk = s.clk := State.setReg_clk s _ _
  exact (congrArg₂ (fun (c : Clk) n => some (c.cyc + slewCycles n)) hClk hAbs :)

/-! ## What the servo may change -/

/-- From `s` to `t` time has not passed, and besides TIME, its servo and the stamps of AUX nothing has changed but what a report
can change; the detectors' live bits stand, and no sticky bit has cleared. -/
structure State.Timed (s t : State) : Prop where
  quiet : t.quiet = ({ s with clk := t.clk, tim := t.tim, aux := t.aux } : State).quiet
  cyc : t.clk.cyc = s.clk.cyc
  slot : t.aux.slot = s.aux.slot
  live : s.SameLive t
  sticky : s.StickyUp t

section
variable {s t u : State}

theorem State.Timed.trans (h : s.Timed t) (k : t.Timed u) : s.Timed u where
  quiet := k.quiet.trans (congrArg (fun q : State => { q with clk := u.clk, tim := u.tim, aux := u.aux }) h.quiet)
  cyc := k.cyc.trans h.cyc
  slot := k.slot.trans h.slot
  live := h.live.trans k.live
  sticky := h.sticky.trans k.sticky

/-- A change of TIME, of the servo and of the stamps. -/
theorem State.Timed.of_eq {x : Aux} {c : Clk} {y : Tim} (hx : x.slot = s.aux.slot) (hc : c.cyc = s.clk.cyc) :
    s.Timed { s with aux := x, clk := c, tim := y } := ⟨rfl, hc, hx, .of_flt rfl, .of_flt rfl⟩

/-- A report, or a record, of TIME. -/
theorem State.Timed.of_quiet (h : t.quiet = s.quiet) (hLive : s.SameLive t) (hSticky : s.StickyUp t) : s.Timed t := by
  have hAux : t.aux = s.aux := (congrArg State.aux h :)
  have hTim : t.tim = s.tim := (congrArg State.tim h :)
  have hClk : t.clk = s.clk := State.clk_of_quiet h
  refine ⟨?_, congrArg Clk.cyc hClk, congrArg Aux.slot hAux, hLive, hSticky⟩
  rw [hAux, hTim, hClk]
  exact h

theorem State.timeRecord_timed (s : State) (code : Nat) (step : Int) : s.Timed (s.timeRecord code step) :=
  .of_quiet (State.timeRecord_quiet _ _ _) (.of_flt (State.timeRecord_flt _ _ _)) (.of_flt (State.timeRecord_flt _ _ _))

theorem State.event_sameLive (s : State) (p : Page) (b : Nat) (c : Copy) : s.SameLive (s.event p b c) := by
  have hHeld : s.SameLive (s.noteHeld p b) := State.updHdr_sameLive _ _ _ fun x c => by cases c <;> rfl
  have hFlash : s.SameLive (s.flash p b) := State.updHdr_sameLive _ _ _ fun x c => by cases c <;> rfl
  unfold State.event
  split
  · exact .of_flt rfl
  · split
    · exact hHeld
    · exact hFlash.trans (State.report_sameLive _ _ _ _ _)

theorem State.event_timed (s : State) (b : Nat) : s.Timed (s.event .time b .shared) :=
  .of_quiet (State.event_quiet _ _ _ _) (State.event_sameLive _ _ _ _) (State.event_stickyUp _ _ _ _)

theorem State.timeStep_timed (s : State) (e : Int) : s.Timed (s.timeStep e) := by
  by_cases hSlew : s.TIME_CFG_NO_BACK = 1 ∧ e < 0
  · obtain ⟨x, hx, hStep⟩ := State.timeStep_slews hSlew.1 hSlew.2
    rw [hStep]
    exact .of_eq hx rfl
  · obtain ⟨x, hx, hStep⟩ := State.timeStep_steps hSlew
    rw [hStep]
    have hMoved : s.Timed (s.stepped e x) := .of_eq hx rfl
    exact (hMoved.trans (State.event_timed _ _)).trans (State.timeRecord_timed _ _ _)

/-! ## The grandmaster (R395) -/

/-- Grandmaster `id` is used. -/
def State.gmTaken (s : State) (id : BitVec 64) : State :=
  { s with tim := { s.tim with
    gm := id, gmUsed := true, mr := if s.tim.gmUsed && s.tim.gm != id then !s.tim.mr else s.tim.mr } }

/-- Taking a grandmaster reports and records a change. -/
theorem State.takeGm_spec (s : State) (id : BitVec 64) : (s.gmTaken id).Timed (s.takeGm id) ∧
    (s.takeGm id).quiet = (s.gmTaken id).quiet ∧
    (s.powered .time = true → s.tim.gmUsed = true → s.tim.gm ≠ id → (s.takeGm id).stickyBit .time 2 = true) := by
  by_cases h : (s.tim.gmUsed && s.tim.gm != id) = true
  · have hEq : s.takeGm id = ((s.gmTaken id).event .time 2 .shared).timeRecord 4 0 := if_pos h
    rw [hEq]
    refine ⟨(State.event_timed _ _).trans (State.timeRecord_timed _ _ _),
      (State.timeRecord_quiet _ _ _).trans (State.event_quiet _ _ _ _), fun hOn _ _ => ?_⟩
    exact (State.timeRecord_timed _ _ _).sticky _ _
      (State.event_sticky _ .time 2 .shared (State.reports_time hOn 2) (by decide))
  · have hEq : s.takeGm id = s.gmTaken id := if_neg h
    rw [hEq]
    exact ⟨.of_quiet rfl (.of_flt rfl) (.refl _), rfl, fun _ hUsed hOther => absurd (by simp [hUsed, hOther]) h⟩

/-! ## The servo (R380) -/

/-- The servo after a pair of offset `off` that does not step (R380). -/
def State.servoTim (s : State) (off : Int) (interval : Nat) : Tim :=
  let t := s.tim
  let lock : Nat := s.TIME_THR_LOCK_NS
  let freq := clampInt (-rateMax) rateMax (t.freq + servoTerm (-off) interval s.TIME_CFG_KI s.free)
  let good := if off.natAbs < lock then t.good + 1 else 0
  let st1 : TimeSt := if t.st = .acq ∧ 8 ≤ good then .locked else t.st
  { t with
    freq := freq, rate := clampInt (-rateMax) rateMax (freq + servoTerm (-off) interval s.TIME_CFG_KP s.free)
    good := good, st := if st1 = .locked ∧ 4 * lock < off.natAbs then .acq else st1 }

/-- A servo that has a source does not go free. -/
theorem State.servoTim_st {s : State} {off : Int} {n : Nat} (h : s.tim.st ≠ .free) : (s.servoTim off n).st ≠ .free := by
  unfold State.servoTim
  extract_lets t lock freq good st1
  have hSt : st1 ≠ .free := by
    dsimp only [st1]
    split
    · decide
    · exact h
  dsimp only
  split
  · decide
  · exact hSt

/-- A record, where there is one to take. -/
theorem State.timeRecord_ite (s : State) (b : Prop) [Decidable b] (code : Nat) : s.Timed (if b then s.timeRecord code 0 else s) ∧
    (if b then s.timeRecord code 0 else s).quiet = s.quiet := by
  split
  · exact ⟨State.timeRecord_timed _ _ _, State.timeRecord_quiet _ _ _⟩
  · exact ⟨.of_quiet rfl (.of_flt rfl) (.refl _), rfl⟩

theorem State.servoUpdate_spec (s : State) (off : Int) (interval : Nat) : s.Timed (s.servoUpdate off interval) ∧
    (s.servoUpdate off interval).tim = s.servoTim off interval ∧
    (s.servoUpdate off interval).clk = (State.applyRate { s with tim := s.servoTim off interval }).clk := by
  unfold State.servoUpdate
  extract_lets t e lock freq rate good st1 st2 s1 s2
  obtain ⟨x, r, hx, hRate⟩ := State.applyRate_spec { s with tim := s.servoTim off interval }
  have hRated : s1 = { s with aux := x, clk := { s.clk with rate := r }, tim := s.servoTim off interval } := hRate
  have hTimed : s.Timed s1 := by
    rw [hRated]
    exact .of_eq hx rfl
  obtain ⟨hTimed1, hQuiet1⟩ := State.timeRecord_ite s1 (st1 = .locked ∧ t.st ≠ .locked) 1
  obtain ⟨hTimed2, hQuiet2⟩ := State.timeRecord_ite s2 (st2 = .acq ∧ st1 = .locked) 5
  have hQuiet := hQuiet2.trans hQuiet1
  refine ⟨(hTimed.trans hTimed1).trans hTimed2, ?_, State.clk_of_quiet hQuiet⟩
  exact (congrArg State.tim hQuiet :).trans (congrArg State.tim hRated)

/-! ## Pairs (R380) -/

/-- The offset that the pair `i` forms (R379, R380). -/
def State.pairOffset (s : State) (i : SyncInfo) : Int :=
  i.rxTime - (s.NET_PORT_LAT_RX_LAT i.port.val : Nat) - (i.origin + i.correction + ((s.net.port[i.port]).pdly : Nat))

/-- The servo once a pair of offset `off` has come, before it acts on it. -/
def State.pairTim (s : State) (i : SyncInfo) (off : Int) : Tim :=
  { s.tim with
    offset := off, lastPair := s.clk.cyc, gm := i.gmId, gmUsed := true
    mr := if s.tim.gmUsed && s.tim.gm != i.gmId then !s.tim.mr else s.tim.mr }

/-- A pair of offset `off` has come: SYNC_LOSS ends, and its grandmaster is used. -/
def State.pairTaken (s : State) (i : SyncInfo) (off : Int) : State :=
  (State.cond { s with tim := { s.tim with offset := off, lastPair := s.clk.cyc } } .time 0 .shared false).takeGm i.gmId

theorem State.pairTaken_spec (s : State) (i : SyncInfo) (off : Int) :
    (s.pairTaken i off).quiet = ({ s with tim := s.pairTim i off } : State).quiet ∧
      (s.powered .time = true → (s.pairTaken i off).liveBit .time .shared 0 = false) ∧
      (s.powered .time = true → s.tim.gmUsed = true → s.tim.gm ≠ i.gmId →
        (s.pairTaken i off).stickyBit .time 2 = true) := by
  set u : State := { s with tim := { s.tim with offset := off, lastPair := s.clk.cyc } } with hu
  have hCond : (u.cond .time 0 .shared false).quiet = u.quiet := State.cond_quiet _ _ _ _ _
  have hTim : (u.cond .time 0 .shared false).tim = u.tim := (congrArg State.tim hCond :)
  obtain ⟨hTimed, hQuiet, hSticky⟩ := (u.cond .time 0 .shared false).takeGm_spec i.gmId
  refine ⟨hQuiet.trans ?_, fun hOn => ?_, fun hOn hUsed hOther => hSticky ?_ ?_ ?_⟩
  · unfold State.gmTaken
    rw [hTim]
    exact congrArg (fun q : State => { q with tim := s.pairTim i off }) hCond
  · have hLive : (u.cond .time 0 .shared false).liveBit .time .shared 0 = false :=
      State.cond_liveBit (s := u) (p := .time) hOn (by decide) rfl rfl .shared false
    exact (congrArg (·.getLsbD 0) (hTimed.live .time .shared)).trans hLive
  · exact (State.powered_of_quiet hCond _).trans hOn
  · rw [hTim]
    exact hUsed
  · rw [hTim]
    exact hOther

/-- A pair that steps TIME (R380, R381). -/
def State.pairSteps (s : State) (off : Int) : State :=
  State.timeStep { s with tim := { s.tim with st := .acq, good := 0 } } (-off)

section
variable {i : SyncInfo}

theorem execSyncPair_rests (h : ¬(s.qb = false ∧ s.TIME_CFG_DISC_EN = 1 ∧ s.boot.released = true) ∨ s.slavePort ≠ some i.port) :
    exec (.syncPair i) s = .next s := by
  refine if_pos ?_
  rw [Bool.not_eq_true', ← Bool.not_eq_true, Bool.and_eq_true, Bool.and_eq_true, State.discOn_eq_true, beq_iff_eq]
  tauto

theorem execSyncPair_eq (h : (s.qb = false ∧ s.TIME_CFG_DISC_EN = 1 ∧ s.boot.released = true) ∧ s.slavePort = some i.port) :
    exec (.syncPair i) s =
      let t := s.pairTaken i (s.pairOffset i)
      if t.tim.st = .free ∨ t.tim.st = .holdover ∨ 1000 * max 1 s.TIME_THR_STEP_THR < (s.pairOffset i).natAbs then
        let u := t.pairSteps (s.pairOffset i)
        .next (if t.tim.st = .locked then u.timeRecord 5 0 else u).draw
      else .next (t.servoUpdate (s.pairOffset i) i.interval).draw := by
  have hTake : (!(s.discOn && s.boot.released && s.slavePort == some i.port)) = false := by
    obtain ⟨⟨hQa, hDisc, hReleased⟩, hSlave⟩ := h
    rw [State.discOn_eq_true.mpr ⟨hQa, hDisc⟩, hReleased, hSlave, beq_self_eq_true]
    rfl
  refine (if_neg (Bool.eq_false_iff.mp hTake)).trans ?_
  dsimp only
  refine if_congr Iff.rfl (congrArg Host.Outcome.next ?_) rfl
  rw [apply_ite State.draw]
  rfl

end

/-- What follows a pair leaves alone what the pair has left alone. -/
theorem State.pairTaken_then {s t : State} {i : SyncInfo} {off : Int} (hOn : s.powered .time = true)
    (h : (s.pairTaken i off).Timed t) : t.draw.liveBit .time .shared 0 = false ∧ t.draw.free = s.free + 1 ∧
      t.draw.clk.cyc = s.clk.cyc ∧
      t.draw.quiet = ({ s with clk := t.clk, tim := t.tim, aux := t.aux, free := t.draw.free } : State).quiet ∧
      t.draw.aux.slot = s.aux.slot ∧ (s.tim.gmUsed = true → s.tim.gm ≠ i.gmId → t.draw.stickyBit .time 2 = true) := by
  obtain ⟨hQuiet, hLive, hSticky⟩ := s.pairTaken_spec i off
  have hClk : (s.pairTaken i off).clk = s.clk := (congrArg State.clk hQuiet :)
  have hAux : (s.pairTaken i off).aux = s.aux := (congrArg State.aux hQuiet :)
  have hRest : t.quiet = ({ s with clk := t.clk, tim := t.tim, aux := t.aux } : State).quiet :=
    h.quiet.trans (congrArg (fun q : State => { q with clk := t.clk, tim := t.tim, aux := t.aux }) hQuiet)
  have hFree : t.free = s.free := (congrArg State.free hRest :)
  refine ⟨?_, congrArg (· + 1) hFree, h.cyc.trans (congrArg Clk.cyc hClk), ?_, h.slot.trans (congrArg Aux.slot hAux),
    fun hUsed hOther => h.sticky _ _ (hSticky hOn hUsed hOther)⟩
  · exact (congrArg (·.getLsbD 0) (h.live .time .shared)).trans (hLive hOn)
  · exact congrArg (fun q : State => { q with free := t.free + 1 }) hRest

section
variable {s : State} {off : Int}

/-- A pair that steps TIME at once (R381). -/
theorem State.pairSteps_moves (h : s.TIME_CFG_NO_BACK ≠ 1 ∨ off ≤ 0) : (s.pairSteps off).tim = { s.tim with
      st := .acq, good := 0, slewTill := none, step := -off, stepCnt := min 65535 (s.tim.stepCnt + 1), mr := !s.tim.mr } ∧
    (s.pairSteps off).clk.time = wrapInt 96 ((s.clk.time : Int) - off * 2 ^ 32) := by
  obtain ⟨x, -, hStep⟩ := State.timeStep_steps (s := { s with tim := { s.tim with st := .acq, good := 0 } }) (e := -off)
    (by rintro ⟨hBack, hLate⟩; exact h.elim (· hBack) (by omega))
  obtain ⟨hQuiet, -⟩ := (State.stepped { s with tim := { s.tim with st := .acq, good := 0 } } (-off) x).stepped_told (-off)
  unfold State.pairSteps
  rw [hStep]
  refine ⟨(congrArg State.tim hQuiet :), (congrArg Clk.time (State.clk_of_quiet hQuiet)).trans ?_⟩
  rw [sub_eq_add_neg, ← neg_mul]
  rfl

/-- A pair whose step becomes a slew (R381). -/
theorem State.pairSteps_slews (hBack : s.TIME_CFG_NO_BACK = 1) (hLate : 0 < off) :
    (s.pairSteps off).clk.rate = -549755813 ∧ (s.pairSteps off).tim = { s.tim with
      st := .acq, good := 0, slewTill := some (s.clk.cyc + slewCycles (-off).natAbs) } := by
  obtain ⟨x, -, hStep⟩ := State.timeStep_slews (s := { s with tim := { s.tim with st := .acq, good := 0 } }) (e := -off)
    hBack (by omega)
  unfold State.pairSteps
  rw [hStep]
  exact ⟨rfl, rfl⟩

/-- What the servo knows of a pair that steps TIME. -/
theorem State.pairSteps_knows (s : State) (off : Int) : (s.pairSteps off).tim.st = .acq ∧
    (s.pairSteps off).tim.offset = s.tim.offset ∧ (s.pairSteps off).tim.lastPair = s.tim.lastPair ∧
    (s.pairSteps off).tim.gm = s.tim.gm := by
  by_cases h : s.TIME_CFG_NO_BACK = 1 ∧ 0 < off
  · rw [(State.pairSteps_slews h.1 h.2).2]
    exact ⟨rfl, rfl, rfl, rfl⟩
  · rw [(State.pairSteps_moves (by omega)).1]
    exact ⟨rfl, rfl, rfl, rfl⟩

end

theorem State.pairSteps_timed (s : State) (off : Int) : s.Timed (s.pairSteps off) := by
  have hSt : s.Timed { s with tim := { s.tim with st := .acq, good := 0 } } := .of_eq (x := s.aux) (c := s.clk) rfl rfl
  exact hSt.trans (State.timeStep_timed _ _)

/-- SYNC_TMO has passed without a pair (R380). -/
def State.sourceLost (s : State) : State :=
  if s.tim.st == .acq || s.tim.st == .locked
  then (State.applyRate { s with tim := { s.tim with st := .holdover, rate := s.tim.freq } }).timeRecord 2 0 else s

theorem State.sourceLost_spec (s : State) : s.Timed s.sourceLost ∧
    (s.tim.st = .acq ∨ s.tim.st = .locked → s.sourceLost.tim = { s.tim with st := .holdover, rate := s.tim.freq }) ∧
    (s.tim.st = .free ∨ s.tim.st = .holdover → s.sourceLost.tim = s.tim) := by
  unfold State.sourceLost
  split
  next hHold =>
    obtain ⟨x, r, hx, hRate⟩ := State.applyRate_spec { s with tim := { s.tim with st := .holdover, rate := s.tim.freq } }
    rw [hRate]
    have hRated : s.Timed { s with
      aux := x, clk := { s.clk with rate := r }, tim := { s.tim with st := .holdover, rate := s.tim.freq } } := .of_eq hx rfl
    refine ⟨hRated.trans (State.timeRecord_timed _ _ _), fun _ => (congrArg State.tim (State.timeRecord_quiet _ _ _) :), fun hFree => ?_⟩
    rcases hFree with h | h <;> simp [h] at hHold
  next hFree =>
    refine ⟨.of_quiet rfl (.of_flt rfl) (.refl _), fun hHold => absurd ?_ hFree, fun _ => rfl⟩
    rcases hHold with h | h <;> simp [h]

/-- The servo updates, slews and loses its source. -/
theorem parts_servoUpdates : Parts.ServoUpdates := by
  intro s i
  extract_lets on off steps k
  refine ⟨execSyncPair_rests, fun hAct hSlave hOn => ?_, ?_, ?_, ?_, ?_⟩
  · have hExec := execSyncPair_eq ⟨hAct, hSlave⟩
    obtain ⟨hQuiet, -, -⟩ := s.pairTaken_spec i off
    set t := s.pairTaken i off with ht
    have hTim : t.tim = s.pairTim i off := (congrArg State.tim hQuiet :)
    have hClk : t.clk = s.clk := (congrArg State.clk hQuiet :)
    have hSt : t.tim.st = s.tim.st := (congrArg Tim.st hTim :)
    have hDoes : (t.tim.st = .free ∨ t.tim.st = .holdover ∨ 1000 * max 1 s.TIME_THR_STEP_THR < off.natAbs) ↔ steps := by
      rw [hSt]
    by_cases hSteps : steps
    · have hTake := hExec.trans (if_pos (hDoes.mpr hSteps))
      have hBack : t.TIME_CFG_NO_BACK = s.TIME_CFG_NO_BACK := (congrArg State.TIME_CFG_NO_BACK hQuiet :)
      obtain ⟨hTold, hTellQuiet⟩ := (t.pairSteps off).timeRecord_ite (t.tim.st = .locked) 5
      obtain ⟨hLive, hFree, hCyc, hRest, hSlot, hSticky⟩ := State.pairTaken_then hOn ((t.pairSteps_timed off).trans hTold)
      obtain ⟨hAcq, hOffset, hLast, hGm⟩ := t.pairSteps_knows off
      have hTimU := congrArg State.tim hTellQuiet
      have hClkU := congrArg State.clk hTellQuiet
      refine ⟨_, hTake, ?_, ?_, ?_, hLive, hFree, hCyc, hRest, hSlot, hSticky, fun _ => ⟨?_, fun hMoves => ?_, fun hNo hLate => ?_⟩,
        fun hNot => absurd hSteps hNot⟩
      · exact ((congrArg Tim.offset hTimU :).trans hOffset).trans (congrArg Tim.offset hTim :)
      · exact ((congrArg Tim.lastPair hTimU :).trans hLast).trans (congrArg Tim.lastPair hTim :)
      · exact ((congrArg Tim.gm hTimU :).trans hGm).trans (congrArg Tim.gm hTim :)
      · exact (congrArg Tim.st hTimU :).trans hAcq
      · obtain ⟨hTimV, hTime⟩ := State.pairSteps_moves (s := t) (off := off) (by rw [hBack]; exact hMoves)
        have hTimW := hTimU.trans hTimV
        refine ⟨(congrArg Tim.step hTimW :), (congrArg Tim.stepCnt hTimW :).trans ?_, (congrArg Clk.time hClkU :).trans (hTime.trans ?_)⟩
        · exact (congrArg (fun y : Tim => min 65535 (y.stepCnt + 1)) hTim :)
        · rw [hClk]
      · obtain ⟨hRate, hTimV⟩ := State.pairSteps_slews (s := t) (off := off) (hBack.trans hNo) hLate
        have hTimW := hTimU.trans hTimV
        exact ⟨(congrArg Clk.rate hClkU :).trans hRate, (congrArg Tim.stepCnt hTimW :).trans (congrArg Tim.stepCnt hTim :)⟩
    · have hKeep := hExec.trans (if_neg (mt hDoes.mp hSteps))
      obtain ⟨hTimed, hTimU, hClkU⟩ := t.servoUpdate_spec off i.interval
      obtain ⟨hLive, hFree, hCyc, hRest, hSlot, hSticky⟩ := State.pairTaken_then hOn hTimed
      have hServo := hTimU.trans (congrArg (fun q : State => q.servoTim off i.interval) hQuiet :)
      have hServed : (t.servoUpdate off i.interval).tim =
          ({ s with tim := s.pairTim i off } : State).servoTim off i.interval := hServo
      refine ⟨_, hKeep, (congrArg Tim.offset hServed :), (congrArg Tim.lastPair hServed :), (congrArg Tim.gm hServed :),
        hLive, hFree, hCyc, hRest, hSlot, hSticky, fun hDoes => absurd hDoes hSteps, fun _ =>
        ⟨?_, (congrArg Tim.stepCnt hServed :), (congrArg Tim.good hServed :), (congrArg Tim.st hServed :), fun hInterval => ⟨?_, ?_⟩,
          fun hNone => ?_⟩⟩
      · obtain ⟨x, r, -, hRate⟩ := State.applyRate_spec { t with tim := t.servoTim off i.interval }
        exact (congrArg Clk.time hClkU :).trans ((congrArg (fun q : State => q.clk.time) hRate :).trans (congrArg Clk.time hClk :))
      · refine (congrArg Tim.freq hServed :).trans ?_
        exact congrArg (fun x => clampInt (-549755813) 549755813 (s.tim.freq + x)) (if_neg hInterval)
      · have hFreq : (t.servoUpdate off i.interval).tim.freq = _ := (congrArg Tim.freq hServed :)
        refine (congrArg Tim.rate hServed :).trans ?_
        change _ = clampInt (-549755813) 549755813 ((t.servoUpdate off i.interval).tim.freq + _)
        rw [hFreq]
        exact congrArg (fun x => clampInt (-549755813) 549755813 (_ + x)) (if_neg hInterval)
      · obtain ⟨x, -, hRate⟩ := State.applyRate_free (s := { t with tim := t.servoTim off i.interval })
          ((congrArg Tim.slewTill hTim :).trans hNone)
        have hServes : (t.servoTim off i.interval).st ≠ .free := by
          rw [← hTimU, hServed]
          exact State.servoTim_st (mt .inl hSteps)
        refine (congrArg Clk.rate hClkU :).trans ((congrArg (fun q : State => q.clk.rate) hRate :).trans ?_)
        exact (if_neg hServes).trans (congrArg Tim.rate hTimU).symm
  · intro hNone
    change execTimeSlewEnd s = _
    unfold execTimeSlewEnd
    rw [hNone]
  · intro n hSlew
    obtain ⟨x, hx, hEnd⟩ := (s.waitTill n).endSlew_spec
    refine ⟨(s.waitTill n).endSlew, ?_, ?_, ?_, ?_, ?_⟩
    · change execTimeSlewEnd s = _
      unfold execTimeSlewEnd
      rw [hSlew]
    · rw [hEnd]
      exact (State.waitTill_clk_cyc s n).trans (Nat.max_comm _ _)
    · rw [hEnd]
      rfl
    · rw [hEnd]
      exact hx
    · rw [hEnd]
      rfl
  · intro hOff
    refine if_pos ?_
    rw [Bool.not_eq_true', ← Bool.not_eq_true, Bool.and_eq_true, State.discOn_eq_true]
    tauto
  · intro hAct hOn
    obtain ⟨hQa, hDisc, hReleased⟩ : s.qb = false ∧ s.TIME_CFG_DISC_EN = 1 ∧ s.boot.released = true := hAct
    have hTill : s.tim.lastPair + 1000 * usCyc (max 1 s.TIME_TMO_SYNC_TMO) = k := by
      unfold usCyc
      omega
    set w := s.waitTill (s.tim.lastPair + 1000 * usCyc (max 1 s.TIME_TMO_SYNC_TMO)) with hw
    obtain ⟨hTimed, hHolds, hStays⟩ := w.sourceLost_spec
    have hCond := State.cond_quiet w.sourceLost .time 0 .shared true
    have hTim : (w.sourceLost.cond .time 0 .shared true).tim = w.sourceLost.tim := (congrArg State.tim hCond :)
    have hClk : (w.sourceLost.cond .time 0 .shared true).clk = w.sourceLost.clk := State.clk_of_quiet hCond
    have hAux : (w.sourceLost.cond .time 0 .shared true).aux = w.sourceLost.aux := (congrArg State.aux hCond :)
    have hPower : w.sourceLost.powered .time = true := (State.powered_of_quiet hTimed.quiet _).trans hOn
    refine ⟨w.sourceLost.cond .time 0 .shared true, if_neg ?_, ?_, State.cond_liveBit hPower (by decide) rfl rfl .shared true,
      fun hHold => hTim.trans (hHolds hHold), fun hFree => hTim.trans (hStays hFree), ?_, ?_⟩
    · simp [State.discOn_eq_true.mpr ⟨hQa, hDisc⟩, hReleased]
    · rw [hClk, hTimed.cyc, hw, hTill]
      exact (State.waitTill_clk_cyc s k).trans (Nat.max_comm _ _)
    · rw [hAux]
      exact hTimed.slot
    · rw [hTim, hClk, hAux]
      exact hCond.trans hTimed.quiet

/-- Settles O43: the servo steps, updates and slews TIME. -/
theorem servoActs : Obligations.ServoActs := ⟨parts_backwardSets, parts_servoUpdates⟩

end

end Sys2Proof.Machine
end

section
/-! PROOFS. Ports of the vehicle network: frames enter a class, and begin (R385, R388). -/

namespace Sys2Proof.Machine

/-! ## Frames of a message -/

/-- Frames of message `m` that wait in a class. -/
def waiting (q : Vector (List TxFrame) 4) (m : NetMsg) : Nat := ((q.toList.flatten).filter fun f => decide (f.msg = m)).length

/-- Frames of message `m` in transmission. -/
def sending (c : Option (TxFrame × Nat)) (m : NetMsg) : Nat := c.elim 0 fun f => if f.1.msg = m then 1 else 0

/-- A message that follows no other up. -/
def NetMsg.plain (m : NetMsg) : Prop := ∀ k, m ≠ .ownFollowUp k ∧ m ≠ .pdelayRespFollowUp k

theorem Port.count_eq (x : Port) (m : NetMsg) : x.count m = waiting x.q m + sending x.cur m := by
  unfold Port.count waiting sending
  rcases x.cur with _ | ⟨f, k⟩ <;> rfl

theorem waiting_eq_sum (q : Vector (List TxFrame) 4) (m : NetMsg) :
    waiting q m = ∑ c : Fin 4, ((q[c]).filter fun f => decide (f.msg = m)).length := by
  obtain ⟨⟨l⟩, h⟩ := q
  match l, h with
  | [a, b, c, d], _ => simp [waiting, Fin.sum_univ_four, Nat.add_assoc]

/-- Class `c` holds the frames `l` instead. -/
theorem waiting_vset (q : Vector (List TxFrame) 4) (c : Fin 4) (l : List TxFrame) (m : NetMsg) :
    waiting (vset q c l) m + ((q[c]).filter fun f => decide (f.msg = m)).length =
      waiting q m + (l.filter fun f => decide (f.msg = m)).length := by
  have hOther : ∑ i ∈ Finset.univ.erase c, (((vset q c l)[i]).filter fun f => decide (f.msg = m)).length =
      ∑ i ∈ Finset.univ.erase c, ((q[i]).filter fun f => decide (f.msg = m)).length :=
    Finset.sum_congr rfl fun i hi => by rw [vset_other _ _ _ _ (Finset.ne_of_mem_erase hi)]
  have hQ := Finset.add_sum_erase Finset.univ (fun i : Fin 4 => ((q[i]).filter fun f => decide (f.msg = m)).length)
    (Finset.mem_univ c)
  have hV := Finset.add_sum_erase Finset.univ
    (fun i : Fin 4 => (((vset q c l)[i]).filter fun f => decide (f.msg = m)).length) (Finset.mem_univ c)
  rw [hOther, vset_same] at hV
  rw [waiting_eq_sum, waiting_eq_sum]
  omega

theorem waiting_append (q : Vector (List TxFrame) 4) (f : TxFrame) (m : NetMsg) :
    waiting (vset q f.cls (q[f.cls] ++ [f])) m = waiting q m + if f.msg = m then 1 else 0 := by
  have hSet := waiting_vset q f.cls (q[f.cls] ++ [f]) m
  have hOne : ([f].filter fun f => decide (f.msg = m)).length = if f.msg = m then 1 else 0 := by
    by_cases h : f.msg = m <;> simp [h]
  rw [List.filter_append, List.length_append, hOne] at hSet
  omega

/-- What follows a message up is no plain message. -/
theorem followsUp_plain {m n : NetMsg} {t : Int} (hn : n ∈ followsUp m t) : ¬n.plain := by
  intro hPlain
  cases m with
  | sync => exact (hPlain t).1 (by simpa [followsUp] using hn)
  | pdelayResp r => exact (hPlain t).2 (by simpa [followsUp] using hn)
  | _ => simp [followsUp] at hn

/-- A frame that begins leaves its class. -/
theorem waiting_begins {q : Vector (List TxFrame) 4} {c : Fin 4} {f : TxFrame} {rest more : List TxFrame} {m : NetMsg}
    (hq : q[c] = f :: rest) (hMore : ∀ g ∈ more, g.msg ≠ m) :
    waiting (vset q c (rest ++ more)) m + (if f.msg = m then 1 else 0) = waiting q m := by
  have hSet := waiting_vset q c (rest ++ more) m
  have hNone : more.filter (fun f => decide (f.msg = m)) = [] := List.filter_eq_nil_iff.mpr (by simpa using hMore)
  have hHead : ((f :: rest).filter fun f => decide (f.msg = m)).length =
      (rest.filter fun f => decide (f.msg = m)).length + if f.msg = m then 1 else 0 := by
    by_cases h : f.msg = m <;> simp [h]
  rw [hq, hHead, List.filter_append, hNone, List.append_nil] at hSet
  omega

/-! ## What sending leaves alone -/

/-- An error that a checker finds clears no sticky bit. -/
theorem State.checkerErr_stickyUp (s : State) (p : Page) (n : Nat) (uncorr : Bool) : s.StickyUp (s.checkerErr p n uncorr) := by
  unfold State.checkerErr
  split
  · exact .refl s
  · refine .trans ?_ (State.react_stickyUp _ _ _ _ _)
    refine .trans (State.updHdr_stickyUp _ _ _ fun x b h => ?_) (State.fileReport_stickyUp _ _ _)
    split <;> exact h

/-- A port without its frames, its credits and the Sync that it relays. -/
def Port.book (x : Port) : Port :=
  { x with q := Vector.replicate 4 [], cur := none, credA := 0, credB := 0, credAt := 0, relay := none }

/-- From `s` to `t` nothing has changed but port `p`, and what a check-bit error of the frame buffer can. -/
structure State.OnPort (s t : State) (p : Fin 2) : Prop where
  quiet : t.quiet = ({ s with net := t.net } : State).quiet
  net : t.net = { s.net with port := vset s.net.port p t.net.port[p] }
  sticky : s.StickyUp t

/-- From `s` to `t` frames have entered port `p`, of message `m` as many as `k m`, and have begun. -/
structure State.Sends (s t : State) (p : Fin 2) (k : NetMsg → Nat) : Prop extends State.OnPort s t p where
  book : (t.net.port[p]).book = (s.net.port[p]).book
  count : ∀ m : NetMsg, m.plain → (t.net.port[p]).count m = (s.net.port[p]).count m + k m
  relay : ∃ e : Relay → Option Rat, (t.net.port[p]).relay = (s.net.port[p]).relay.map fun r => { r with egress := e r }

section
variable {s t u : State} {p : Fin 2} {k l : NetMsg → Nat}

theorem State.OnPort.clk (h : s.OnPort t p) : t.clk = s.clk := (congrArg State.clk h.quiet :)

theorem State.OnPort.other (h : s.OnPort t p) {o : Fin 2} (ho : o ≠ p) : t.net.port[o] = s.net.port[o] := by
  rw [h.net]
  exact vset_other _ _ _ _ ho

theorem State.OnPort.str (h : s.OnPort t p) : t.net.str = s.net.str := by rw [h.net]

theorem State.OnPort.egressStamp (h : s.OnPort t p) (o : Fin 2) : t.egressStamp o = s.egressStamp o :=
  (congrArg (fun q : State => q.egressStamp o) h.quiet :)

theorem State.OnPort.portUp (h : s.OnPort t p) (hLink : (t.net.port[p]).link = (s.net.port[p]).link) (o : Fin 2) :
    t.portUp o = s.portUp o := by
  have hEn : t.portEn o = s.portEn o := (congrArg (fun q : State => q.portEn o) h.quiet :)
  have hOne : (t.net.port[o]).link = (s.net.port[o]).link := by
    by_cases ho : o = p
    · rw [ho]
      exact hLink
    · rw [h.other ho]
  unfold State.portUp
  rw [hEn, hOne]

theorem State.OnPort.trans (h : s.OnPort t p) (g : t.OnPort u p) : s.OnPort u p where
  quiet := g.quiet.trans (congrArg (fun q : State => { q with net := u.net }) h.quiet)
  net := by
    have hBoth := congrArg (fun n : Net => { n with port := vset n.port p u.net.port[p] }) h.net
    refine g.net.trans (hBoth.trans ?_)
    dsimp only
    rw [vset_vset]
  sticky := h.sticky.trans g.sticky

theorem State.OnPort.setPort (hQuiet : t.quiet = s.quiet) (hSticky : s.StickyUp t) (y : Port) : s.OnPort (t.setPort p y) p := by
  have hNet : t.net = s.net := (congrArg State.net hQuiet :)
  have hPort : (t.setPort p y).net.port[p] = y := vset_same _ _ _
  refine ⟨congrArg (fun q : State => { q with net := (t.setPort p y).net }) hQuiet, ?_, hSticky.trans (.of_flt rfl)⟩
  rw [hPort]
  exact (congrArg (fun n : Net => { n with port := vset n.port p y }) hNet :)

theorem State.setPort_port (s : State) (p : Fin 2) (y : Port) : (s.setPort p y).net.port[p] = y := vset_same _ _ _

theorem State.Sends.trans (h : s.Sends t p k) (g : t.Sends u p l) : s.Sends u p (fun m => k m + l m) where
  toOnPort := h.toOnPort.trans g.toOnPort
  book := g.book.trans h.book
  count m hm := by rw [g.count m hm, h.count m hm, Nat.add_assoc]
  relay := by
    obtain ⟨e, he⟩ := h.relay
    obtain ⟨e', he'⟩ := g.relay
    refine ⟨fun r => e' { r with egress := e r }, ?_⟩
    rw [he', he, Option.map_map]
    rfl

theorem Port.link_of_book {x y : Port} (h : y.book = x.book) : y.link = x.link := (congrArg Port.link h :)

/-- A change of port `p` itself. -/
theorem State.Sends.of_setPort {y : Port} (hBook : y.book = (s.net.port[p]).book)
    (hCount : ∀ m : NetMsg, m.plain → y.count m = (s.net.port[p]).count m + k m)
    (hRelay : ∃ e : Relay → Option Rat, y.relay = (s.net.port[p]).relay.map fun r => { r with egress := e r })
    (hQuiet : t.quiet = s.quiet) (hSticky : s.StickyUp t) : s.Sends (t.setPort p y) p k := by
  refine ⟨.setPort hQuiet hSticky y, ?_, ?_, ?_⟩ <;> rw [State.setPort_port]
  · exact hBook
  · exact hCount
  · exact hRelay

/-- The relayed Sync that waits for no egress stamp. -/
theorem relay_same (r : Option Relay) : ∃ e : Relay → Option Rat, r = r.map fun r => { r with egress := e r } :=
  ⟨fun r => r.egress, by rw [Option.map_id']⟩

theorem State.credits_sends (s : State) (p : Fin 2) : s.Sends (s.credits p) p fun _ => 0 :=
  .of_setPort rfl (fun _ _ => rfl) (relay_same _) rfl (.refl s)

theorem State.Sends.refl (s : State) (p : Fin 2) : s.Sends s p fun _ => 0 where
  quiet := rfl
  net := by rw [vset_self]
  sticky := .refl s
  book := rfl
  count _ _ := rfl
  relay := relay_same _

/-- What port `p` is about to send has begun (R388). -/
theorem State.txKick_sends (s : State) (p : Fin 2) : s.Sends (s.txKick p) p fun _ => 0 := by
  have hCred := s.credits_sends p
  have hNone (u : State) (hu : (s.credits p).Sends u p fun _ => 0) : s.Sends u p fun _ => 0 := hCred.trans hu
  refine hNone _ ?_
  unfold State.txKick
  generalize s.credits p = v
  extract_lets w x
  split
  · exact .refl v p
  next hFree =>
    split
    · exact .refl v p
    next c hPick =>
      split
      · exact .refl v p
      next f rest hq =>
        extract_lets more rel s1
        have hCur : x.cur = none := (by simpa using hFree : _ ∧ x.cur = none).2
        have hQuiet : s1.quiet = v.quiet := by
          dsimp only [s1]
          split
          · rfl
          · exact State.checkerErr_quiet _ _ _ _
        have hSticky : v.StickyUp s1 := by
          dsimp only [s1]
          split
          · exact .refl v
          · exact State.checkerErr_stickyUp _ _ _ _
        refine .of_setPort rfl (fun m hm => ?_) ?_ hQuiet hSticky
        · have hMore : ∀ g ∈ more, g.msg ≠ m := by
            intro g hg hMsg
            obtain ⟨n, hn, rfl⟩ := List.mem_map.mp hg
            exact followsUp_plain hn ((show n = m from hMsg) ▸ hm)
          have hBegins := waiting_begins hq hMore
          have hSent : sending v.net.port[p].cur m = 0 := congrArg (sending · m) hCur
          rw [Port.count_eq, Port.count_eq, hSent]
          exact hBegins
        · dsimp only [rel]
          split
          · exact ⟨_, rfl⟩
          · exact relay_same _

/-- The frame `f` has entered its class at port `p` (R388). -/
def State.entered (s : State) (p : Fin 2) (f : TxFrame) : State :=
  let x := s.net.port[p]
  s.setPort p { x with q := vset x.q f.cls (x.q[f.cls] ++ [{ f with ecc := s.chkInv .net 1 }]) }

theorem State.entered_sends (s : State) (p : Fin 2) (f : TxFrame) :
    s.Sends (s.entered p f) p fun m => if f.msg = m then 1 else 0 := by
  refine .of_setPort rfl (fun m _ => ?_) (relay_same _) rfl (.refl _)
  have hAppend := waiting_append s.net.port[p].q { f with ecc := s.chkInv .net 1 } m
  rw [Port.count_eq, Port.count_eq]
  dsimp only at hAppend ⊢
  omega

theorem State.enqueue_eq (s : State) (p : Fin 2) (f : TxFrame) : s.enqueue p f = ((s.credits p).entered p f).txKick p := rfl

/-- A frame enters its class, and what the port is about to send begins (R388). -/
theorem State.enqueue_sends (s : State) (p : Fin 2) (f : TxFrame) :
    s.Sends (s.enqueue p f) p fun m => if f.msg = m then 1 else 0 := by
  have hEnter := ((s.credits_sends p).trans (State.entered_sends _ p f)).trans (State.txKick_sends _ p)
  rw [State.enqueue_eq]
  simpa only [Nat.zero_add, Nat.add_zero] using hEnter

/-- An idle port begins the frame at the head of the class that it picks (R379, R388). -/
theorem State.txKick_begins {c : Fin 4} {f : TxFrame} {rest : List TxFrame} (hUp : s.portUp p = true)
    (hCur : (s.net.port[p]).cur = none) (hPick : ((s.credits p).net.port[p]).pick = some c)
    (hq : (s.net.port[p]).q[c] = f :: rest) :
    ((s.txKick p).net.port[p]).q = vset (s.net.port[p]).q c
      (rest ++ (followsUp f.msg (s.egressStamp p)).map fun m => { gptpFrame m with ecc := s.chkInv .net 1 }) ∧
    ((s.txKick p).net.port[p]).cur = some (f, s.clk.cyc + wireCycles f.len) := by
  have hCred := s.credits_sends p
  have hPort : (s.credits p).net.port[p] = _ := State.setPort_port _ _ _
  have hUp' : (s.credits p).portUp p = true := (hCred.portUp (Port.link_of_book hCred.book) p).trans hUp
  have hCur' : ((s.credits p).net.port[p]).cur = none := by rw [hPort]; exact hCur
  have hQ : ((s.credits p).net.port[p]).q = (s.net.port[p]).q := by rw [hPort]
  have hq' : ((s.credits p).net.port[p]).q[c] = f :: rest := by rw [hQ]; exact hq
  unfold State.txKick
  simp only [hUp', hCur', hPick, hq', State.setPort_port, Bool.not_true, Option.isSome_none, Bool.or_self,
    Bool.false_eq_true, if_false]
  rw [hQ]
  exact ⟨rfl, rfl⟩

end

end Sys2Proof.Machine
end

section
/-! PROOFS. gPTP messages are sent and relayed (R379, R384, R385). -/

namespace Sys2Proof.Machine

/-! ## When a port sends (R384) -/

/-- The state in which a port sends what it has last sent in cycle `l`, at the interval of field `f` (R384). -/
def State.paced (s : State) (l : Option Nat) (f : Nat) : State := l.elim s fun n => s.waitTill (n + logCycles f)

theorem State.paced_eq (s : State) (l : Option Nat) (f : Nat) : s.paced l f = { s with clk := (s.paced l f).clk } := by
  cases l <;> rfl

theorem State.paced_cyc (s : State) (l : Option Nat) (f : Nat) :
    (s.paced l f).clk.cyc = l.elim s.clk.cyc fun n => max s.clk.cyc (n + logCycles f) := by
  cases l
  case none => rfl
  case some n => exact (State.waitTill_clk_cyc s _).trans (Nat.max_comm _ _)

/-- What a port announces, and whether it does, depends on the cycle, and on no other part of the clock. -/
theorem State.announce_of_cyc (s : State) {c d : Clk} (h : c.cyc = d.cyc) :
    ({ s with clk := c } : State).announceFrame = ({ s with clk := d } : State).announceFrame ∧
      ({ s with clk := c } : State).passesOn = ({ s with clk := d } : State).passesOn := by
  obtain ⟨cyc, t, r, q⟩ := c
  obtain ⟨cyc', t', r', q'⟩ := d
  obtain rfl : cyc = cyc' := h
  exact ⟨rfl, rfl⟩

section
variable {s : State} {p : Fin 2}

theorem execSyncSend_eq (hUp : s.portUp p = true) (hRole : s.portRole p = 2) :
    exec (.syncSend p) s =
      let w := s.paced (s.net.port[p]).syncAt s.NET_PTP_CFG_LOG_SYNC
      let v := (w.announce p).setPort p { (w.announce p).net.port[p] with syncAt := some w.clk.cyc }
      .next (v.enqueue p (gptpFrame .sync)) := by
  refine (if_neg (by simp [hUp, hRole])).trans ?_
  unfold State.paced
  rcases (s.net.port[p]).syncAt with _ | n <;> rfl

theorem execPdelayReqSend_eq (hUp : s.portUp p = true) :
    exec (.pdelayReqSend p) s =
      let w := s.paced (s.net.port[p]).pdlyAt s.NET_PTP_CFG_LOG_PDLY
      let x := w.net.port[p]
      let v := w.setPort p { x with pdlyAt := some w.clk.cyc, pdlyOk := x.pdlyOk && !x.pdlyWait, pdlyWait := true }
      .next (v.enqueue p (gptpFrame .pdelayReq)) := by
  refine (if_neg (by simp [hUp])).trans ?_
  unfold State.paced
  rcases (s.net.port[p]).pdlyAt with _ | n <;> rfl

/-- An Announce is due (R384). -/
def State.announces (s : State) (p : Fin 2) : Prop :=
  (s.NET_PTP_CFG_PRIO1 < 255 ∨ s.passesOn = true) ∧ ∀ n, (s.net.port[p]).annAt = some n → n + 400000000 ≤ s.clk.cyc

theorem State.announce_due (h : s.announces p) : s.announce p =
    (s.setPort p { s.net.port[p] with annAt := some s.clk.cyc }).enqueue p s.announceFrame := by
  obtain ⟨hCapable, hTime⟩ := h
  refine if_pos (Bool.and_eq_true_iff.mpr ⟨by simpa using hCapable, ?_⟩)
  rcases hLast : (s.net.port[p]).annAt with _ | n
  · rfl
  · exact decide_eq_true (hTime n hLast)

theorem State.announce_rests (h : ¬s.announces p) : s.announce p = s := by
  refine if_neg fun hDue => h ?_
  obtain ⟨hCapable, hTime⟩ := Bool.and_eq_true_iff.mp hDue
  refine ⟨by simpa using hCapable, fun n hLast => ?_⟩
  rw [hLast] at hTime
  exact of_decide_eq_true hTime

theorem State.announceFrame_msg (s : State) : ∃ a b c d, s.announceFrame.msg = .announce a b c d := by
  unfold State.announceFrame
  dsimp only
  split <;> exact ⟨_, _, _, _, rfl⟩

theorem State.announceFrame_plain (s : State) : s.announceFrame.msg.plain := by
  obtain ⟨a, b, c, d, h⟩ := s.announceFrame_msg
  rw [h]
  exact fun k => ⟨by simp, by simp⟩

theorem State.announceFrame_ne_sync (s : State) : s.announceFrame.msg ≠ .sync := by
  obtain ⟨a, b, c, d, h⟩ := s.announceFrame_msg
  rw [h]
  simp

/-- An Announce that is due enters its class. -/
theorem State.announce_sends (h : s.announces p) : s.OnPort (s.announce p) p ∧
    ((s.announce p).net.port[p]).link = (s.net.port[p]).link ∧
    ((s.announce p).net.port[p]).annAt = some s.clk.cyc ∧
    ∀ m : NetMsg, m.plain → ((s.announce p).net.port[p]).count m =
      (s.net.port[p]).count m + if s.announceFrame.msg = m then 1 else 0 := by
  rw [State.announce_due h]
  set v := s.setPort p { s.net.port[p] with annAt := some s.clk.cyc } with hv
  have hPort : v.net.port[p] = { s.net.port[p] with annAt := some s.clk.cyc } := State.setPort_port _ _ _
  have hSet : s.OnPort v p := .setPort rfl (.refl s) _
  have hSends := v.enqueue_sends p s.announceFrame
  refine ⟨hSet.trans hSends.toOnPort, ?_, ?_, fun m hm => ?_⟩
  · rw [Port.link_of_book hSends.book, hPort]
  · exact (congrArg Port.annAt hSends.book :).trans (congrArg Port.annAt hPort :)
  · rw [hSends.count m hm, hPort]
    rfl

/-- The own Follow_Up of a Sync that begins at once is behind it (R379). -/
theorem State.sync_followed (hUp : s.portUp p = true) (hCur : (s.net.port[p]).cur = none)
    (hq : (s.net.port[p]).q = Vector.replicate 4 []) :
    ((s.enqueue p (gptpFrame .sync)).net.port[p]).count (.ownFollowUp (s.egressStamp p)) = 1 := by
  rw [State.enqueue_eq]
  have hCred := s.credits_sends p
  have hEnter := (s.credits p).entered_sends p (gptpFrame .sync)
  set e := (s.credits p).entered p (gptpFrame .sync) with he
  have hCredPort : (s.credits p).net.port[p] = _ := State.setPort_port _ _ _
  have hPort : e.net.port[p] = _ := State.setPort_port _ _ _
  have hStart : e.Sends (e.credits p) p _ := e.credits_sends p
  have hNextPort : (e.credits p).net.port[p] = _ := State.setPort_port _ _ _
  have hBoth := hCred.trans hEnter
  have hUpE : e.portUp p = true := (hBoth.portUp (Port.link_of_book hBoth.book) p).trans hUp
  have hCurE : (e.net.port[p]).cur = none := by rw [hPort, hCredPort]; exact hCur
  have hQE : (e.net.port[p]).q = vset (Vector.replicate 4 []) 0 [{ gptpFrame .sync with ecc := (s.credits p).chkInv .net 1 }] := by
    rw [hPort, hCredPort]
    exact (congrArg (fun q : Vector (List TxFrame) 4 =>
      vset q 0 (q[(0 : Fin 4)] ++ [{ gptpFrame .sync with ecc := (s.credits p).chkInv .net 1 }])) hq :)
  have hHead : (e.net.port[p]).q[(0 : Fin 4)] = { gptpFrame .sync with ecc := (s.credits p).chkInv .net 1 } :: [] := by
    rw [hQE]
    exact vset_same _ _ _
  have hPick : ((e.credits p).net.port[p]).pick = some 0 := by
    rw [hNextPort]
    exact if_pos (by rw [hHead]; simp)
  obtain ⟨hQ, hSent⟩ := State.txKick_begins hUpE hCurE hPick hHead
  have hWait := waiting_vset (Vector.replicate 4 []) 0 [{ gptpFrame (.ownFollowUp (s.egressStamp p)) with ecc := e.chkInv .net 1 }]
    (.ownFollowUp (s.egressStamp p))
  have hOne : ([{ gptpFrame (.ownFollowUp (s.egressStamp p)) with ecc := e.chkInv .net 1 }].filter
      fun f => decide (f.msg = .ownFollowUp (s.egressStamp p))).length = 1 := by
    rw [List.filter_cons_of_pos (by simp [gptpFrame])]
    rfl
  rw [hOne] at hWait
  rw [Port.count_eq, hQ, hSent, hQE, vset_vset, hBoth.egressStamp]
  exact hWait

/-- A master port sends its Sync (R384). -/
theorem State.syncSend_spec (s : State) (p : Fin 2) :
    let v := (s.announce p).setPort p { (s.announce p).net.port[p] with syncAt := some s.clk.cyc }
    let t := v.enqueue p (gptpFrame .sync)
    s.OnPort t p ∧ (t.net.port[p]).syncAt = some t.clk.cyc ∧ (t.net.port[p]).count .sync = (s.net.port[p]).count .sync + 1 ∧
      (s.announces p → (t.net.port[p]).count s.announceFrame.msg = (s.net.port[p]).count s.announceFrame.msg + 1 ∧
        (t.net.port[p]).annAt = some t.clk.cyc) ∧
      (¬s.announces p → (t.net.port[p]).count s.announceFrame.msg = (s.net.port[p]).count s.announceFrame.msg ∧
        (s.portUp p = true → (s.net.port[p]).cur = none → (s.net.port[p]).q = Vector.replicate 4 [] →
          (t.net.port[p]).count (.ownFollowUp (t.egressStamp p)) = 1)) := by
  intro v t
  have hPort : v.net.port[p] = { (s.announce p).net.port[p] with syncAt := some s.clk.cyc } := State.setPort_port _ _ _
  have hSet : (s.announce p).OnPort v p := .setPort rfl (.refl _) _
  have hSends : v.Sends t p _ := v.enqueue_sends p (gptpFrame .sync)
  have hSyncAt : (t.net.port[p]).syncAt = some s.clk.cyc := 
    (congrArg Port.syncAt hSends.book :).trans (congrArg Port.syncAt hPort :)
  have hCount (m : NetMsg) (hm : m.plain) : (t.net.port[p]).count m =
      ((s.announce p).net.port[p]).count m + if NetMsg.sync = m then 1 else 0 := by
    rw [hSends.count m hm, hPort]
    rfl
  have hSync : NetMsg.plain .sync := fun k => ⟨by simp, by simp⟩
  by_cases hDue : s.announces p
  · obtain ⟨hOn, hLink, hAnnAt, hAnn⟩ := State.announce_sends hDue
    have hAll := (hOn.trans hSet).trans hSends.toOnPort
    refine ⟨hAll, ?_, ?_, fun _ => ⟨?_, ?_⟩, fun hNot => absurd hDue hNot⟩
    · rw [hSyncAt, hAll.clk]
    · rw [hCount _ hSync, hAnn _ hSync, if_neg s.announceFrame_ne_sync, if_pos rfl]
    · rw [hCount _ s.announceFrame_plain, hAnn _ s.announceFrame_plain, if_neg s.announceFrame_ne_sync.symm, if_pos rfl]
    · rw [hAll.clk]
      exact ((congrArg Port.annAt hSends.book :).trans (congrArg Port.annAt hPort :)).trans hAnnAt
  · have hSame : s.announce p = s := State.announce_rests hDue
    have hAll : s.OnPort t p := (hSame ▸ hSet : s.OnPort v p).trans hSends.toOnPort
    refine ⟨hAll, ?_, ?_, fun h => absurd h hDue, fun _ => ⟨?_, fun hUp hCur hq => ?_⟩⟩
    · rw [hSyncAt, hAll.clk]
    · rw [hCount _ hSync, hSame, if_pos rfl]
    · rw [hCount _ s.announceFrame_plain, hSame, if_neg s.announceFrame_ne_sync.symm]
      rfl
    · rw [hSends.egressStamp]
      rw [hSame] at hPort
      have hOn : s.OnPort v p := hSame ▸ hSet
      refine State.sync_followed ((hOn.portUp (by rw [hPort]) p).trans hUp) ?_ ?_ <;> rw [hPort]
      · exact hCur
      · exact hq

end

theorem ne_otherPort (p : Fin 2) : p ≠ otherPort p := by
  fin_cases p <;> decide

/-- The Follow_Up of the Sync that port `p` has relayed, once that has left (R385). -/
def State.followUpAt (s : State) (rate : Rat) (p : Fin 2) : State :=
  match s.net.port[p].relay with
  | some r => match r.egress with
    | some e => (s.setPort p { s.net.port[p] with relay := none }).enqueue p (gptpFrame (.followUp (relayCorrection r e rate)))
    | none => s
  | none => s

theorem exec_followUpRelay (rate : Rat) (s : State) :
    exec (.followUpRelay rate) s = .next ((s.followUpAt rate 0).followUpAt rate 1) := rfl

theorem State.followUpAt_spec (s : State) (p : Fin 2) (rate : Rat) : s.OnPort (s.followUpAt rate p) p ∧
    (∀ r e, (s.net.port[p]).relay = some r → r.egress = some e → ((s.followUpAt rate p).net.port[p]).relay = none ∧
      ((s.followUpAt rate p).net.port[p]).count (.followUp (relayCorrection r e rate)) =
        (s.net.port[p]).count (.followUp (relayCorrection r e rate)) + 1) ∧
    ((∀ r, (s.net.port[p]).relay = some r → r.egress = none) → (s.followUpAt rate p).net.port[p] = s.net.port[p]) := by
  rcases hRelay : (s.net.port[p]).relay with _ | r
  · have hSame : s.followUpAt rate p = s := by
      unfold State.followUpAt
      rw [hRelay]
    rw [hSame]
    exact ⟨(State.Sends.refl s p).toOnPort, fun r e hr => (nomatch hr), fun _ => rfl⟩
  · rcases hLeft : r.egress with _ | e
    · have hSame : s.followUpAt rate p = s := by
        unfold State.followUpAt
        rw [hRelay]
        dsimp only
        rw [hLeft]
      rw [hSame]
      refine ⟨(State.Sends.refl s p).toOnPort, fun r' e hr he => ?_, fun _ => rfl⟩
      obtain rfl : r = r' := Option.some.inj hr
      exact absurd (hLeft.symm.trans he) (by simp)
    · have hSends : s.followUpAt rate p = (s.setPort p { s.net.port[p] with relay := none }).enqueue p
          (gptpFrame (.followUp (relayCorrection r e rate))) := by
        unfold State.followUpAt
        rw [hRelay]
        dsimp only
        rw [hLeft]
      rw [hSends]
      set v := s.setPort p { s.net.port[p] with relay := none } with hv
      have hPort : v.net.port[p] = _ := State.setPort_port _ _ _
      have hSet : s.OnPort v p := .setPort rfl (.refl s) _
      have hOne := v.enqueue_sends p (gptpFrame (.followUp (relayCorrection r e rate)))
      refine ⟨hSet.trans hOne.toOnPort, fun r' e' hr he => ?_, fun hNone => absurd (hNone r rfl) (by simp [hLeft])⟩
      obtain rfl : r = r' := Option.some.inj hr
      obtain rfl : e = e' := Option.some.inj (hLeft.symm.trans he)
      refine ⟨?_, ?_⟩
      · obtain ⟨g, hg⟩ := hOne.relay
        rw [hg, hPort]
        rfl
      · rw [hOne.count _ fun k => ⟨by simp, by simp⟩, hPort]
        exact congrArg (Port.count (s.net.port[p]) _ + ·) (if_pos rfl)

/-- Settles O44: gPTP messages leave at their intervals, and a Sync is relayed with its correction. -/
theorem gptpMessages : Obligations.GptpMessages := by
  intro s p rx c rate
  extract_lets x o at' u ann due frame
  have hAt (l : Option Nat) (f : Nat) : (s.paced l f).clk.cyc = at' l f := (s.paced_cyc l f).trans (by cases l <;> rfl)
  have hU (l : Option Nat) : (s.waitTill (at' l s.NET_PTP_CFG_LOG_SYNC)).clk.cyc = at' l s.NET_PTP_CFG_LOG_SYNC := by
    refine State.waitTill_cyc ?_
    cases l
    case none => exact le_rfl
    case some n => exact Nat.le_max_left _ _
  refine ⟨?_, ?_, ?_, ?_, ?_, ?_, ?_⟩
  · intro hUp hRole
    obtain ⟨c, hPaced⟩ : ∃ c, s.paced x.syncAt s.NET_PTP_CFG_LOG_SYNC = { s with clk := c } := ⟨_, s.paced_eq _ _⟩
    have hCyc : c.cyc = at' x.syncAt s.NET_PTP_CFG_LOG_SYNC := (congrArg (fun t : State => t.clk.cyc) hPaced).symm.trans (hAt _ _)
    have hSame : c.cyc = u.clk.cyc := hCyc.trans (hU x.syncAt).symm
    obtain ⟨hFrame, hPass⟩ := s.announce_of_cyc hSame
    have hExec := execSyncSend_eq hUp hRole
    rw [hPaced] at hExec
    obtain ⟨hOn, hSyncAt, hCount, hDo, hDont⟩ := State.syncSend_spec { s with clk := c } p
    have hMsg : ({ s with clk := c } : State).announceFrame.msg = ann := congrArg TxFrame.msg hFrame
    have hDue : ({ s with clk := c } : State).announces p ↔ due := by
      unfold State.announces
      rw [hPass, hSame]
      rfl
    rw [hDue, hMsg] at hDo hDont
    refine ⟨_, hExec, ?_, ?_, hSyncAt, hCount, hDo, fun hNot => ⟨(hDont hNot).1, (hDont hNot).2 hUp⟩⟩
    · dsimp only [frame]
      rw [hOn.clk]
      exact hOn.quiet
    · rw [hOn.clk]
      exact hCyc
  · intro hNot
    refine if_pos ?_
    rcases hNot with h | h <;> simp [h]
  · intro hUp
    obtain ⟨c, hPaced⟩ : ∃ c, s.paced x.pdlyAt s.NET_PTP_CFG_LOG_PDLY = { s with clk := c } := ⟨_, s.paced_eq _ _⟩
    have hCyc : c.cyc = at' x.pdlyAt s.NET_PTP_CFG_LOG_PDLY := (congrArg (fun t : State => t.clk.cyc) hPaced).symm.trans (hAt _ _)
    have hExec := execPdelayReqSend_eq hUp
    rw [hPaced] at hExec
    set v : State := State.setPort { s with clk := c } p { x with
      pdlyAt := some c.cyc, pdlyOk := x.pdlyOk && !x.pdlyWait, pdlyWait := true } with hv
    have hPort : v.net.port[p] = _ := State.setPort_port _ _ _
    have hSet : State.OnPort { s with clk := c } v p := .setPort rfl (.refl _) _
    have hSends := v.enqueue_sends p (gptpFrame .pdelayReq)
    have hOn := hSet.trans hSends.toOnPort
    refine ⟨_, hExec, ?_, ?_, ?_, ?_, ?_, ?_⟩
    · dsimp only [frame]
      rw [hOn.clk]
      exact hOn.quiet
    · rw [hOn.clk]
      exact hCyc
    · rw [hOn.clk]
      exact (congrArg Port.pdlyAt hSends.book :).trans (congrArg Port.pdlyAt hPort :)
    · exact (congrArg Port.pdlyWait hSends.book :).trans (congrArg Port.pdlyWait hPort :)
    · exact (congrArg Port.pdlyOk hSends.book :).trans (congrArg Port.pdlyOk hPort :)
    · rw [hSends.count .pdelayReq fun k => ⟨by simp, by simp⟩, hPort]
      exact congrArg (x.count .pdelayReq + ·) (if_pos rfl)
  · intro hDown
    exact if_pos (by simp [hDown])
  · intro hSlave hMaster hCapable hSync
    set r : Relay := ⟨s.clk.cyc - s.cyclesOf (wrapSigned (2 ^ 96) ((s.clk.time : Int) - rx * 2 ^ 32)) -
      (s.NET_PORT_LAT_RX_LAT p.val : Nat) * 2 / 5, c, x.pdly, none⟩ with hr
    set v := s.setPort o { s.net.port[o] with relay := some r } with hv
    have hPort : v.net.port[o] = _ := State.setPort_port _ _ _
    have hSet : s.OnPort v o := .setPort rfl (.refl _) _
    have hSends := v.enqueue_sends o (gptpFrame .relayed)
    have hOn := hSet.trans hSends.toOnPort
    have hExec : exec (.syncRelay p rx c) s = .next (v.enqueue o (gptpFrame .relayed)) := if_pos (by
      simp only [Bool.and_eq_true, beq_iff_eq, Bool.or_eq_true, Bool.not_eq_true']
      exact ⟨⟨⟨hSlave, hMaster⟩, hCapable⟩, hSync⟩)
    refine ⟨_, hExec, ?_, hOn.clk, hOn.other (ne_otherPort p), ?_, ?_⟩
    · dsimp only [frame]
      rw [hOn.clk]
      exact hOn.quiet
    · rw [hSends.count .relayed fun k => ⟨by simp, by simp⟩, hPort]
      exact congrArg (Port.count (s.net.port[o]) .relayed + ·) (if_pos rfl)
    · obtain ⟨e, he⟩ := hSends.relay
      exact ⟨e r, by rw [he, hPort]; rfl⟩
  · intro hNot
    refine if_neg ?_
    simp only [Bool.and_eq_true, beq_iff_eq, Bool.or_eq_true, Bool.not_eq_true']
    rintro ⟨⟨⟨hSlave, hMaster⟩, hCapable⟩, hSync⟩
    rcases hNot with h | h | h | ⟨hLive, hGm⟩
    · exact h hSlave
    · exact h hMaster
    · exact absurd (h.symm.trans hCapable) (by simp)
    · rcases hSync with h | h
      · exact absurd (h.symm.trans hLive) (by simp)
      · exact absurd (hGm.symm.trans h) (by simp)
  · obtain ⟨hOn0, hDone0, hRest0⟩ := s.followUpAt_spec 0 rate
    obtain ⟨hOn1, hDone1, hRest1⟩ := (s.followUpAt rate 0).followUpAt_spec 1 rate
    set v := s.followUpAt rate 0 with hv
    set t := v.followUpAt rate 1 with ht
    have hClk : t.clk = s.clk := hOn1.clk.trans hOn0.clk
    have hQuiet : frame t := by
      dsimp only [frame]
      rw [hClk]
      exact hOn1.quiet.trans (congrArg (fun q : State => { q with net := t.net }) hOn0.quiet)
    have hPort0 : t.net.port[(0 : Fin 2)] = v.net.port[(0 : Fin 2)] := hOn1.other (by decide)
    have hPort1 : v.net.port[(1 : Fin 2)] = s.net.port[(1 : Fin 2)] := hOn0.other (by decide)
    rw [hPort1] at hDone1 hRest1
    refine ⟨t, exec_followUpRelay rate s, hQuiet, hClk, ?_⟩
    rcases Drive.zero_or_one p with rfl | rfl
    · exact hPort0 ▸ ⟨hDone0, hRest0⟩
    · exact ⟨hDone1, hRest1⟩

end Sys2Proof.Machine
end

section
/-! PROOFS. Network frames are received, forwarded and transmitted (R383, R386 to R388, R391). -/

namespace Sys2Proof.Machine

/-! ## The end of a transmission (R388) -/

section
variable {s : State} {p : Fin 2}

/-- The frame in transmission has ended and is counted (R388). -/
def State.txEnded (s : State) (p : Fin 2) : State :=
  let x := s.net.port[p]
  s.setPort p { x with cur := none, txf := (x.txf + 1) % 2 ^ 32 }

theorem execFrameTransmitDone_ends {f : TxFrame} {k : Nat} (h : (s.net.port[p]).cur = some (f, k)) :
    exec (.frameTransmitDone p) s = .next ((((s.waitTill k).credits p).txEnded p).txKick p) := by
  change execFrameTransmitDone p s = _
  unfold execFrameTransmitDone
  rw [h]
  rfl

/-- At an idle port the next frame begins, where its class has credit, or gets it (R388). -/
theorem execFrameTransmitDone_idle (h : (s.net.port[p]).cur = none) :
    ∃ c : Clk, exec (.frameTransmitDone p) s = .next (State.txKick { s with clk := c } p) := by
  change ∃ c, execFrameTransmitDone p s = _
  unfold execFrameTransmitDone
  rw [h]
  rcases s.creditAt p with _ | k
  · exact ⟨s.clk, rfl⟩
  · exact ⟨(s.waitTill k).clk, rfl⟩

end

/-! ## gPTP messages (R379, R384) -/

section
variable {s : State} {p : Fin 2}

theorem State.announceRx_spec (s : State) (p : Fin 2) (m : List Byte) : s.OnPort (s.announceRx p m) p ∧
    ∃ a, (s.announceRx p m).net.port[p] = { s.net.port[p] with annRx := a } ∧
      (gptpType m = 11 → gptpField m 61 2 < 255 → gptpField m 20 8 ≠ s.clockId → a =
        some (gptpField m 47 16 * 2 ^ 80 + gptpField m 20 10, s.clk.cyc + 3 * secCycles (signedOf 8 (gptpField m 33 1)))) := by
  unfold State.announceRx
  split
  next hNot => exact ⟨(State.Sends.refl s p).toOnPort, (s.net.port[p]).annRx, rfl, fun h1 h2 h3 => by omega⟩
  next => exact ⟨.setPort rfl (.refl s) _, _, State.setPort_port _ _ _, fun _ _ _ => rfl⟩

/-- The delay of the link of port `p` as an exchange has given it (R379). -/
def State.delayRx (s : State) (p : Fin 2) (delay : Option Nat) (lat : Rat) : State :=
  match delay with
  | some d => s.setPort p { s.net.port[p] with
      pdly := (roundFree 53 ((d : Rat) - lat)).toNat % 2 ^ 32, pdlyOk := true, pdlyWait := false }
  | none => s

theorem State.delayRx_spec (s : State) (p : Fin 2) (delay : Option Nat) (lat : Rat) : s.OnPort (s.delayRx p delay lat) p ∧
    ∃ d k w, (s.delayRx p delay lat).net.port[p] = { s.net.port[p] with pdly := d, pdlyOk := k, pdlyWait := w } ∧
      ∀ n, delay = some n → d = (roundFree 53 ((n : Rat) - lat)).toNat % 2 ^ 32 ∧ k = true := by
  rcases delay with _ | n
  · exact ⟨(State.Sends.refl s p).toOnPort, (s.net.port[p]).pdly, (s.net.port[p]).pdlyOk, (s.net.port[p]).pdlyWait, rfl,
      fun n h => nomatch h⟩
  · refine ⟨.setPort rfl (.refl s) _, _, _, _, State.setPort_port _ _ _, fun n' h => ?_⟩
    obtain rfl := Option.some.inj h
    exact ⟨rfl, rfl⟩

/-- A Pdelay_Req is answered (R379). -/
def State.answersPdelay (s : State) (p : Fin 2) (m : List Byte) (r : Int) : State :=
  if gptpType m = 2 then s.enqueue p (gptpFrame (.pdelayResp r)) else s

theorem State.answersPdelay_sends (s : State) (p : Fin 2) (m : List Byte) (r : Int) :
    s.Sends (s.answersPdelay p m r) p fun n => if gptpType m = 2 ∧ .pdelayResp r = n then 1 else 0 := by
  unfold State.answersPdelay
  split
  next h =>
    simp only [h, true_and]
    exact s.enqueue_sends p (gptpFrame (.pdelayResp r))
  next h => simpa only [h, false_and, if_false] using State.Sends.refl s p

theorem State.gptpRx_eq (s : State) (p : Fin 2) (b : List Byte) (delay : Option Nat) : s.gptpRx p b delay =
    ((State.announceRx { s with net := { s.net with gptp := s.net.gptp + 1 } } p (payloadOf b)).delayRx p delay
      (((s.NET_PORT_LAT_TX_LAT p.val + s.NET_PORT_LAT_RX_LAT p.val : Nat) : Rat) / 2)).answersPdelay p (payloadOf b)
        (s.receiptStamp p) := by
  cases delay <;> rfl

end

section
variable {s : State} {p : Fin 2} {b : List Byte} {delay : Option Nat}

theorem State.countRx_port (s : State) (p : Fin 2) :
    (s.countRx p false).net.port[p] = { s.net.port[p] with rxf := ((s.net.port[p]).rxf + 1) % 2 ^ 32 } :=
  State.setPort_port _ _ _

/-- What the book of a port shows of what has come in. -/
theorem Port.seen_of_book {x y : Port} (h : y.book = x.book) : y.rxf = x.rxf ∧ y.rxdrop = x.rxdrop ∧ y.pdly = x.pdly ∧
    y.pdlyOk = x.pdlyOk ∧ y.annRx = x.annRx :=
  ⟨(congrArg Port.rxf h :), (congrArg Port.rxdrop h :), (congrArg Port.pdly h :), (congrArg Port.pdlyOk h :),
    (congrArg Port.annRx h :)⟩

/-- A gPTP message that is taken (R379, R384, R386). -/
theorem State.gptpRx_spec (s : State) (p : Fin 2) (b : List Byte) (delay : Option Nat) :
    let t := s.gptpRx p b delay
    let g := payloadOf b
    let lat : Rat := ((s.NET_PORT_LAT_TX_LAT p.val + s.NET_PORT_LAT_RX_LAT p.val : Nat) : Rat) / 2
    t.quiet = ({ s with net := t.net } : State).quiet ∧ (t.net.port[p]).rxf = (s.net.port[p]).rxf ∧
      (t.net.port[p]).rxdrop = (s.net.port[p]).rxdrop ∧
      (∀ d, delay = some d → (t.net.port[p]).pdly = (roundFree 53 ((d : Rat) - lat)).toNat % 2 ^ 32 ∧
        (t.net.port[p]).pdlyOk = true) ∧
      (gptpType g = 11 → gptpField g 61 2 < 255 → gptpField g 20 8 ≠ s.clockId → (t.net.port[p]).annRx =
        some (gptpField g 47 16 * 2 ^ 80 + gptpField g 20 10, s.clk.cyc + 3 * secCycles (signedOf 8 (gptpField g 33 1)))) ∧
      (gptpType g = 2 → (t.net.port[p]).count (.pdelayResp (s.receiptStamp p)) =
        (s.net.port[p]).count (.pdelayResp (s.receiptStamp p)) + 1) := by
  intro t g lat
  obtain ⟨hAnn, a, hAnnPort, hAnnRx⟩ := State.announceRx_spec { s with net := { s.net with gptp := s.net.gptp + 1 } } p g
  set v := State.announceRx { s with net := { s.net with gptp := s.net.gptp + 1 } } p g with hv
  obtain ⟨hDelay, d, k, w, hDelayPort, hDelayed⟩ := v.delayRx_spec p delay lat
  set u := v.delayRx p delay lat with hu
  have hSends := u.answersPdelay_sends p g (s.receiptStamp p)
  have hT : t = u.answersPdelay p g (s.receiptStamp p) := s.gptpRx_eq p b delay
  rw [← hT] at hSends
  have hPort : u.net.port[p] = { s.net.port[p] with annRx := a, pdly := d, pdlyOk := k, pdlyWait := w } := by
    rw [hDelayPort, hAnnPort]
  have hOn := (hAnn.trans hDelay).trans hSends.toOnPort
  obtain ⟨hRxf, hDrop, hPdly, hOk, hRx⟩ := Port.seen_of_book hSends.book
  refine ⟨hOn.quiet, ?_, ?_, fun n hn => ?_, fun h1 h2 h3 => ?_, fun hReq => ?_⟩
  · rw [hRxf, hPort]
  · rw [hDrop, hPort]
  · rw [hPdly, hOk, hPort]
    exact hDelayed n hn
  · rw [hRx, hPort]
    exact hAnnRx h1 h2 h3
  · rw [hSends.count _ fun k => ⟨by simp, by simp⟩, hPort, if_pos ⟨hReq, rfl⟩]
    rfl

/-- Where a frame that the device accepts goes (R383, R386, R391). -/
theorem execFrameReceive_accepts (hUp : s.portUp p = true) (hKeep : discards b = false) (hAccept : s.accepts b = true) :
    exec (.frameReceive p b delay) s =
      if etherType b = 0x88F7 then
        .next (if gptpDiscards (payloadOf b) then s.countRx p true else (s.countRx p false).gptpRx p b delay)
      else if s.NET_CTL_ETYPE_CTL_EN = 1 ∧ etherType b = s.NET_CTL_ETYPE_CTL_ETYPE ∧ dstOf b = s.macAddr then
        let q : Fin 64 := if p = 0 then 49 else 50
        if (s.que.q[q]).limit < recLen b then .next (s.countRx p true)
        else .next ((s.countRx p false).offer q 9 b)
      else .next (s.countRx p false) := by
  refine (if_neg (by simp [hUp])).trans ((if_neg (by simp [hKeep])).trans ((if_neg (by simp [hAccept])).trans rfl))

end

/-! ## Offers of records (R408, R409) -/

section
variable {s : State} {i : Fin 64}

theorem Queue.enter_nseq (q : Queue) (x : Staged) : (q.enter x).nseq = q.nseq := by
  unfold Queue.enter Queue.dropOne
  dsimp only
  split <;> rfl

/-- Every offer takes a sequence number (R408). -/
theorem State.offerRaw_nseq (s : State) (i : Fin 64) (src : Nat) (l : List Byte) :
    ((s.offerRaw i src l).que.q[i]).nseq = ((s.que.q[i]).nseq + 1) % 2 ^ 64 := by
  unfold State.offerRaw
  dsimp only
  rw [vset_same]
  split
  · rfl
  · exact Queue.enter_nseq _ _

/-- Judging the interrupt of a queue offers nothing to the queue itself (R421). -/
theorem State.settle_queue (s : State) (i : Fin 64) :
    ((s.settle i).que.q[i]).nseq = (s.que.q[i]).nseq ∧ ((s.settle i).que.q[i]).staged = (s.que.q[i]).staged := by
  have hQ : (vupd s.que.q i fun q => { q with intWas := s.queInt i })[i] = { s.que.q[i] with intWas := s.queInt i } :=
    vset_same _ _ _
  unfold State.settle
  dsimp only
  split
  next h =>
    have hOther : i ≠ Fin.ofNat 64 s.QUE_GLB_CFG_MSG_Q := by simpa using (Bool.and_eq_true_iff.mp h).2
    unfold State.offerRaw
    dsimp only
    rw [vset_other _ _ _ _ hOther, hQ]
    exact ⟨rfl, rfl⟩
  next => rw [hQ]; exact ⟨rfl, rfl⟩

theorem State.offer_nseq (s : State) (i : Fin 64) (src : Nat) (l : List Byte) :
    ((s.offer i src l).que.q[i]).nseq = ((s.que.q[i]).nseq + 1) % 2 ^ 64 :=
  (State.settle_queue _ i).1.trans (s.offerRaw_nseq i src l)

/-- A record behind those of its cycle and of the staging enters at the end (R408, R409). -/
theorem Queue.enter_last {q : Queue} {x : Staged} (hRoom : q.staged.length < 2) (hLast : ∀ y ∈ q.staged, y.seq < x.seq) :
    (q.enter x).staged = q.staged ++ [x] := by
  have hTake : q.staged.takeWhile (fun y => decide (y.seq < x.seq)) = q.staged :=
    List.takeWhile_eq_self_iff.mpr fun y hy => decide_eq_true (hLast y hy)
  have hDrop : q.staged.dropWhile (fun y => decide (y.seq < x.seq)) = [] :=
    List.dropWhile_eq_nil_iff.mpr fun y hy => decide_eq_true (hLast y hy)
  unfold Queue.enter
  rw [hTake, hDrop]
  exact congrArg Queue.staged (if_pos (by rw [List.length_append]; exact hRoom))

theorem Queue.number_last {q : Queue} {src t : Nat} (h : q.sameAt = t → ∀ m ∈ q.same, m ≤ src) :
    (q.number src t).1 = q.nseq ∧ (q.number src t).2.staged = q.staged := by
  have hLater : (if q.sameAt = t then q.same else []).countP (fun x => decide (src < x)) = 0 := by
    refine List.countP_eq_zero.mpr fun m hm => ?_
    split at hm
    next hSame => simpa using h hSame m hm
    next => exact absurd hm List.not_mem_nil
  unfold Queue.number
  dsimp only
  rw [hLater]
  simp

/-- An offer that R409 lets in, and that comes last of its cycle, is staged at the end. -/
theorem State.offer_staged {src : Nat} {l : List Byte} (hEn : s.queEn i.val = true) (hRing : s.ringBad i = false)
    (hRuns : (s.que.q[i]).halted = false) (hFits : recLen l ≤ (s.que.q[i]).limit) (hRoom : (s.que.q[i]).staged.length < 2)
    (hCycle : (s.que.q[i]).sameAt = s.clk.cyc → ∀ m ∈ (s.que.q[i]).same, m ≤ src)
    (hLast : ∀ y ∈ (s.que.q[i]).staged, y.seq < (s.que.q[i]).nseq) :
    ((s.offer i src l).que.q[i]).staged.map Staged.payload = (s.que.q[i]).staged.map Staged.payload ++ [l] := by
  obtain ⟨hSeq, hStaged⟩ := Queue.number_last hCycle
  have hIn : (!s.queEn i.val || s.ringBad i || (s.que.q[i]).halted || decide ((s.que.q[i]).limit < recLen l)) = false := by
    rw [hEn, hRing, hRuns, decide_eq_false (Nat.not_lt.mpr hFits)]
    rfl
  have hRaw : ((s.offerRaw i src l).que.q[i]).staged = (s.que.q[i]).staged ++ [⟨(s.que.q[i]).nseq, src, l, s.clk.cyc, s.que.offers⟩] := by
    unfold State.offerRaw
    dsimp only
    rw [vset_same, hIn, if_neg Bool.false_ne_true, Queue.enter_last, hSeq, hStaged]
    · rw [hStaged]
      exact hRoom
    · rw [hStaged, hSeq]
      exact hLast
  have hSettled : ((s.offer i src l).que.q[i]).staged = ((s.offerRaw i src l).que.q[i]).staged := (State.settle_queue _ i).2
  rw [hSettled, hRaw, List.map_append]
  rfl

end

/-- Settles O45: what a frame does where it is received, forwarded and transmitted. -/
theorem framesPass : Obligations.FramesPass := by
  intro s p b delay ok
  extract_lets x o q rxf net dropped frame g lat plain fwd ctl
  have hPass : (if p = 0 then s.NET_CTRL_FWD_01 == 1 else s.NET_CTRL_FWD_10 == 1) = true ↔ fwd := by
    dsimp only [fwd]
    split <;> exact beq_iff_eq
  refine ⟨?_, ?_, ?_, ?_, ?_, ?_, ?_, ?_⟩
  · intro hDown
    exact ⟨if_pos (by simp [hDown]), if_pos (by simp [hDown])⟩
  · intro hUp hDiscard
    exact (if_neg (by simp [hUp])).trans (if_pos hDiscard)
  · intro hUp hKeep
    have hExec (hAccept : s.accepts b = true) := execFrameReceive_accepts (delay := delay) hUp hKeep hAccept
    refine ⟨?_, ?_, ?_, ?_, ?_, ?_⟩
    · intro hOther
      exact (if_neg (by simp [hUp])).trans ((if_neg (by simp [hKeep])).trans (if_pos (by simp [hOther])))
    · intro hAccept hGptp hDiscard
      exact (hExec hAccept).trans ((if_pos hGptp).trans (congrArg Host.Outcome.next (if_pos hDiscard)))
    · intro hAccept hGptp hTake
      obtain ⟨hQuiet, hRxf, hDrop, hDelay, hAnn, hResp⟩ := (s.countRx p false).gptpRx_spec p b delay
      have hPort := s.countRx_port p
      refine ⟨_, (hExec hAccept).trans ((if_pos hGptp).trans (congrArg Host.Outcome.next (if_neg (Bool.eq_false_iff.mp hTake)))), ⟨?_, ?_⟩, ?_,
        hDelay, hAnn, fun hReq => ?_⟩
      · rw [hRxf, hPort]
      · rw [hDrop, hPort]
      · dsimp only [frame]
        rw [show ((s.countRx p false).gptpRx p b delay).clk = s.clk from (congrArg State.clk hQuiet :)]
        exact hQuiet
      · refine (hResp hReq).trans ?_
        rw [hPort]
        rfl
    · intro hAccept hPlain hCtl hLong
      exact (hExec hAccept).trans ((if_neg hPlain).trans ((if_pos hCtl).trans (if_pos hLong)))
    · intro hAccept hPlain hCtl hFits
      have hQue : (s.countRx p false).que = s.que := rfl
      have hQuiet : ((s.countRx p false).offer q 9 b).quiet = (s.countRx p false).quiet := State.offer_quiet _ _ _ _
      have hNet : ((s.countRx p false).offer q 9 b).net = (s.countRx p false).net := (congrArg State.net hQuiet :)
      refine ⟨_, (hExec hAccept).trans ((if_neg hPlain).trans ((if_pos hCtl).trans (if_neg (Nat.not_lt.mpr hFits)))), ⟨?_, ?_⟩, ?_,
        State.offer_nseq _ _ _ _, fun hRoom hEn hRing hRuns hCycle hLast => ?_⟩
      · rw [hNet, s.countRx_port]
      · rw [hNet, s.countRx_port]
      · dsimp only [frame]
        rw [hNet, State.clk_of_quiet hQuiet]
        exact hQuiet
      · exact State.offer_staged (s := s.countRx p false) hEn hRing hRuns hFits hRoom hCycle hLast
    · intro hAccept hPlain hNot
      refine ⟨_, (hExec hAccept).trans ((if_neg hPlain).trans (if_neg hNot)), ⟨?_, ?_⟩, rfl, rfl, rfl⟩ <;> rw [s.countRx_port]
  · intro hUp hAccept
    exact if_pos (by simp [hAccept])
  · intro hUp hOther hBar
    refine (if_neg (by simp [hUp, hOther])).trans (if_pos ?_)
    rcases hBar with h | h | h | h
    · simp [h]
    · simp [h]
    · have hNo := Bool.eq_false_iff.mpr (mt hPass.mp h)
      simp [hNo]
    · have hDown : s.portUp (otherPort p) = false := h
      simp [hDown]
  · intro hUp hOther hOk hKeep hFwd hUpO
    have hBars : (!ok || discards b || !(if p = 0 then s.NET_CTRL_FWD_01 == 1 else s.NET_CTRL_FWD_10 == 1) || !s.portUp o) = false := by
      rw [hOk, hKeep, hPass.mpr hFwd, hUpO]
      rfl
    obtain ⟨c, hExec⟩ : ∃ c : Fin 4, exec (.frameForward p b ok) s =
        .next ((s.countRx p false).enqueue o ⟨.forward, c, b, max 64 (b.length + 4), 0, 0, false⟩) :=
      ⟨_, (if_neg (by simp [hUp, hOther])).trans (if_neg (Bool.eq_false_iff.mp hBars))⟩
    have hRx : s.OnPort (s.countRx p false) p := .setPort rfl (.refl s) _
    have hSends := (s.countRx p false).enqueue_sends o ⟨.forward, c, b, max 64 (b.length + 4), 0, 0, false⟩
    have hClk := hSends.clk.trans hRx.clk
    refine ⟨_, hExec, ?_, ?_, ?_⟩
    · dsimp only [rxf]
      rw [hSends.other (ne_otherPort p), s.countRx_port]
      exact ⟨rfl, rfl⟩
    · dsimp only [frame]
      rw [hClk]
      exact hSends.quiet
    · rw [hSends.count .forward fun k => ⟨by simp, by simp⟩, hRx.other (ne_otherPort p).symm]
      exact congrArg (Port.count (s.net.port[o]) .forward + ·) (if_pos rfl)
  · intro f k hCur
    have hCred := (s.waitTill k).credits_sends p
    set v := (s.waitTill k).credits p with hv
    have hSet : v.OnPort (v.txEnded p) p := .setPort rfl (.refl v) _
    have hPort : (v.txEnded p).net.port[p] = _ := State.setPort_port _ _ _
    have hKick := (v.txEnded p).txKick_sends p
    have hOn := (hCred.toOnPort.trans hSet).trans hKick.toOnPort
    refine ⟨_, execFrameTransmitDone_ends hCur, ?_, ?_, ?_, hOn.other (ne_otherPort p).symm, fun m hm => ?_⟩
    · dsimp only [frame]
      rw [hOn.clk]
      exact hOn.quiet
    · rw [hOn.clk]
      exact (State.waitTill_clk_cyc s k).trans (Nat.max_comm _ _)
    · refine (congrArg Port.txf hKick.book :).trans ((congrArg Port.txf hPort :).trans ?_)
      exact congrArg (fun n => (n + 1) % 2 ^ 32) (congrArg Port.txf hCred.book :)
    · have hEnd : ((v.txEnded p).net.port[p]).count m = waiting (v.net.port[p]).q m := by
        rw [hPort]
        exact Port.count_eq _ _
      have hNow : (v.net.port[p]).cur = some (f, k) := by
        rw [show v.net.port[p] = _ from State.setPort_port _ _ _]
        exact hCur
      have hBoth := hCred.count m hm
      have hSending : sending (v.net.port[p]).cur m = if f.msg = m then 1 else 0 := by rw [hNow]; rfl
      rw [Port.count_eq, hSending] at hBoth
      rw [hKick.count m hm, hEnd]
      exact hBoth
  · intro hCur
    obtain ⟨c, hExec⟩ := execFrameTransmitDone_idle hCur
    have hSends := State.txKick_sends { s with clk := c } p
    refine ⟨_, hExec, ?_, (congrArg Port.txf hSends.book :), hSends.count⟩
    dsimp only [frame]
    rw [hSends.clk]
    exact hSends.quiet

end Sys2Proof.Machine
end

section
/-! PROOFS. Links go up and down, and streams drain their queues (R389, R390, R395, R443). -/

namespace Sys2Proof.Machine

/-! ## Links (R395) -/

section
variable {s : State} {p : Fin 2}

theorem State.loseFrame_net (s : State) (k : Fin 8) : (s.loseFrame k).net.port = s.net.port ∧
    s.loseFrame k = { s with net := (s.loseFrame k).net } := ⟨rfl, rfl⟩

theorem State.loseFrames_net (l : List (Fin 8)) (s : State) : (l.foldl State.loseFrame s).net.port = s.net.port ∧
    l.foldl State.loseFrame s = { s with net := (l.foldl State.loseFrame s).net } := by
  induction l generalizing s with
  | nil => exact ⟨rfl, rfl⟩
  | cons k l ih => exact ih (s.loseFrame k)

/-- Frames that are lost count up to 255 (R390). -/
theorem State.loseFrames_lost (l : List (Fin 8)) (s : State) (k : Fin 8) (h : (s.net.str[k]).lost ≤ 255) :
    ((l.foldl State.loseFrame s).net.str[k]).lost = min 255 ((s.net.str[k]).lost + l.count k) := by
  induction l generalizing s with
  | nil => exact (Nat.min_eq_right h).symm
  | cons j l ih =>
    by_cases hj : k = j
    · subst hj
      have hOne : ((s.loseFrame k).net.str[k]).lost = min 255 ((s.net.str[k]).lost + 1) :=
        congrArg NStream.lost (vset_same _ _ _)
      refine (ih _ (by rw [hOne]; exact Nat.min_le_left _ _)).trans ?_
      rw [hOne, List.count_cons_self]
      omega
    · have hOther : ((s.loseFrame j).net.str[k]).lost = (s.net.str[k]).lost := congrArg NStream.lost (vset_other _ _ _ _ hj)
      refine (ih _ (by rw [hOther]; exact h)).trans ?_
      rw [hOther, List.count_cons_of_ne (Ne.symm hj)]

theorem State.judgeLink_quiet (s : State) (p : Fin 2) : (s.judgeLink p).quiet = s.quiet := State.cond_quiet _ _ _ _ _

/-- LINK_DOWN_n follows the link of an enabled port (R395). -/
theorem State.judgeLink_live (hOn : s.powered .net = true) (p : Fin 2) :
    (s.judgeLink p).liveBit .net .shared p.val = (s.portEn p && !(s.net.port[p]).link) :=
  State.cond_liveBit hOn (by have := p.isLt; omega) rfl rfl .shared _

end

/-- What is left of port `p` without link (R395). -/
def State.linkLost (s : State) (p : Fin 2) : State :=
  let x := s.net.port[p]
  let o := otherPort p
  (s.setPort o ((s.net.port[o]).forsaken (x.q.toList.flatten.filter fun f => f.streams != []))).setPort p { x with
    link := false, pdlyOk := false, pdlyWait := false, syncAt := none, pdlyAt := none, annAt := none, annRx := none
    q := Vector.replicate 4 [], cur := none, credA := 0, credB := 0, credAt := s.clk.cyc, relay := none }

theorem State.dropLink_eq (s : State) (p : Fin 2) : s.dropLink p =
    (((s.net.port[p]).lostFrames).foldl State.loseFrame (s.linkLost p)).judgeLink p := rfl

/-! ## Streams (R389, R390) -/

/-- The frame `f p` goes to each port `p` that `takes` names. -/
def State.spread (s : State) (takes : Fin 2 → Bool) (f : Fin 2 → TxFrame) : State :=
  (List.finRange 2).foldl (fun st p => if takes p then st.enqueue p (f p) else st) s

section
variable {s : State} {takes : Fin 2 → Bool} {f : Fin 2 → TxFrame}

theorem State.enqueueIf_sends (s : State) (takes : Fin 2 → Bool) (f : Fin 2 → TxFrame) (p : Fin 2) :
    s.Sends (if takes p then s.enqueue p (f p) else s) p fun m => if takes p ∧ (f p).msg = m then 1 else 0 := by
  split
  next h =>
    simp only [h, true_and]
    exact s.enqueue_sends p (f p)
  next h => simpa only [h, Bool.false_eq_true, false_and, if_false] using State.Sends.refl s p

theorem State.spread_spec (s : State) (takes : Fin 2 → Bool) (f : Fin 2 → TxFrame) :
    (s.spread takes f).quiet = ({ s with net := (s.spread takes f).net } : State).quiet ∧
      (s.spread takes f).net.str = s.net.str ∧ s.StickyUp (s.spread takes f) ∧
      ∀ (p : Fin 2) (m : NetMsg), m.plain → takes p = true → (f p).msg = m →
        ((s.spread takes f).net.port[p]).count m = (s.net.port[p]).count m + 1 := by
  have hFirst := s.enqueueIf_sends takes f 0
  set u := if takes 0 then s.enqueue 0 (f 0) else s with hu
  have hSecond := u.enqueueIf_sends takes f 1
  set t := if takes 1 then u.enqueue 1 (f 1) else u with ht
  have hEq : s.spread takes f = t := rfl
  rw [hEq]
  refine ⟨hSecond.quiet.trans (congrArg (fun q : State => { q with net := t.net }) hFirst.quiet),
    hSecond.str.trans hFirst.str, hFirst.sticky.trans hSecond.sticky, fun p m hm hTakes hMsg => ?_⟩
  rcases Drive.zero_or_one p with rfl | rfl
  · rw [hSecond.other (by decide), hFirst.count m hm, if_pos ⟨hTakes, hMsg⟩]
  · rw [hSecond.count m hm, hFirst.other (by decide), if_pos ⟨hTakes, hMsg⟩]

end

/-! ## Delivery (R410, R411, R414) -/

theorem State.queue_of_quiet {s t : State} (h : t.quiet = s.quiet) (i : Fin 64) : (t.que.q[i]).quiet = (s.que.q[i]).quiet := by
  have hMap (u : State) : (u.quiet.que.q)[i] = (u.que.q[i]).quiet := by
    unfold State.quiet
    simp
  rw [← hMap, h, hMap]

/-- Queue `q` once the `k` oldest records have been delivered, before its descriptor is written (R410, R411). -/
def Queue.delivered (q : Queue) (k : Nat) : Queue :=
  let bytes := ((q.ring.take k).map fun r => r.len).sum
  { q with ring := q.ring.drop k, rptr := (q.rptr + bytes) % q.size, credit := q.credit + bytes / 8, deliv := (q.deliv + k) % 2 ^ 32 }

theorem State.deliver_eq (s : State) (i : Fin 64) (k : Nat) : s.deliver i k =
    (s.setQ i { (s.que.q[i]).delivered k with badEcc := s.chkInv .que 1 }).settle i := by
  have hTwice (x y : Queue) : (s.setQ i x).setQ i y = s.setQ i y :=
    congrArg (fun v => { s with que := { s.que with q := v } }) (vset_vset _ _ _ _)
  unfold State.deliver State.descWrite
  dsimp only
  rw [State.setQ_get, hTwice]
  rfl

theorem State.settle_flt (s : State) (i : Fin 64) : (s.settle i).flt = s.flt := by rw [State.settle_frame]

/-- What a delivery leaves in queue `i`, but what offers of records change. -/
theorem State.deliver_queue (s : State) (i : Fin 64) (k : Nat) :
    ((s.deliver i k).que.q[i]).quiet = { (s.que.q[i]).delivered k with badEcc := s.chkInv .que 1 }.quiet := by
  rw [State.deliver_eq]
  refine (State.queue_of_quiet (State.settle_quiet _ i) i).trans ?_
  rw [State.setQ_get]

/-- A delivery changes nothing but queues. -/
theorem State.deliver_quiet (s : State) (i : Fin 64) (k : Nat) :
    (s.deliver i k).quiet = ({ s with que := (s.deliver i k).que } : State).quiet := by
  rw [State.deliver_eq, State.settle_frame]
  rfl

theorem State.deliver_flt (s : State) (i : Fin 64) (k : Nat) : (s.deliver i k).flt = s.flt := by
  rw [State.deliver_eq, State.settle_flt]
  rfl

/-! ## Stream frames (R390) -/

/-- No hold-off window of Table 15.4 covers a source of NET. -/
theorem State.reports_net {s : State} (hp : s.powered .net = true) (b : Nat) : s.reports .net b = true := by
  unfold State.reports State.heldOff
  rw [hp, show s.holdWin .net b = {} from rfl, show s.lossEnd .net b = 0 from rfl]
  simp [HoldWin.covers]

/-- A stream frame takes the oldest records to every port named that is up (R390). -/
theorem State.buildFrame_spec (s : State) (k : Fin 8) (i : Fin 64) (c oldest : Nat) :
    let t := s.buildFrame k i c oldest
    t.quiet = ({ s with net := t.net, que := t.que } : State).quiet ∧
      (t.que.q[i]).ring = (s.que.q[i]).ring.drop c ∧ (t.que.q[i]).deliv = ((s.que.q[i]).deliv + c) % 2 ^ 32 ∧
      (t.net.str[k]).frames = ((s.net.str[k]).frames + 1) % 65536 ∧ (t.net.str[k]).seq = ((s.net.str[k]).seq + 1) % 256 ∧
      (∀ p : Fin 2, (s.NET_STR_CFG_PORTS k.val).testBit p.val = true → s.portUp p = true →
        (t.net.port[p]).count (.stream k) = (s.net.port[p]).count (.stream k) + 1) ∧
      (2 * s.maxLat k < s.clk.cyc - oldest → s.powered .net = true → t.stickyBit .net 2 = true) := by
  unfold State.buildFrame
  extract_lets q lens bytes s0 acf cls s1 takes s2 net2 s3 t
  have hQuiet0 : s0.quiet = s.quiet := by
    dsimp only [s0]
    split
    · rfl
    · exact State.fabReport_quiet _ _ _ _ _
  have hQuiet1 : s1.quiet = s.quiet := by
    refine Eq.trans ?_ hQuiet0
    dsimp only [s1]
    split
    · exact State.event_quiet _ _ _ _
    · rfl
  obtain ⟨hQuiet2, hStr, hSticky, hCount⟩ := s1.spread_spec takes fun p =>
    ⟨.stream k, cls, s1.streamBytes k p acf, max 64 ((s1.streamBytes k p acf).length + 4), 0, (s0.net.str[k]).frames, takes 0 && takes 1⟩
  have hSpread : s2 = s1.spread takes _ := rfl
  rw [← hSpread] at hQuiet2 hStr hSticky hCount
  have hNet1 : s1.net = s.net := (congrArg State.net hQuiet1 :)
  have hNet : t.net = s3.net := (congrArg State.net (s3.deliver_quiet i c) :)
  have hStr3 : s3.net.str[k] = { s.net.str[k] with
      frames := ((s.net.str[k]).frames + 1) % 65536, seq := ((s.net.str[k]).seq + 1) % 256 } := by
    refine (vset_same _ _ _).trans ?_
    rw [hStr, hNet1]
  have hQueue2 : (s2.que.q[i]).quiet = (s.que.q[i]).quiet :=
    (State.queue_of_quiet hQuiet2 i).trans (State.queue_of_quiet hQuiet1 i)
  have hQueue := s3.deliver_queue i c
  refine ⟨?_, ?_, ?_, ?_, ?_, fun p hPort hUp => ?_, fun hLate hOn => ?_⟩
  · rw [hNet]
    have hRest := hQuiet2.trans (congrArg (fun q : State => { q with net := s2.net }) hQuiet1)
    exact (s3.deliver_quiet i c).trans (congrArg (fun q : State => { q with net := s3.net, que := t.quiet.que }) hRest)
  · exact (congrArg Queue.ring hQueue :).trans (congrArg (fun q : Queue => q.ring.drop c) hQueue2 :)
  · exact (congrArg Queue.deliv hQueue :).trans (congrArg (fun q : Queue => (q.deliv + c) % 2 ^ 32) hQueue2 :)
  · rw [hNet, hStr3]
  · rw [hNet, hStr3]
  · have hUp0 : s0.portUp p = true := (congrArg (fun q : State => q.portUp p) hQuiet0 :).trans hUp
    have hPort0 : (s0.NET_STR_CFG_PORTS k.val).testBit p.val = true :=
      (congrArg (fun q : State => (q.NET_STR_CFG_PORTS k.val).testBit p.val) hQuiet0 :).trans hPort
    rw [hNet]
    refine (hCount p (.stream k) (fun n => ⟨by simp, by simp⟩) ?_ rfl).trans ?_
    · exact Bool.and_eq_true_iff.mpr ⟨hPort0, hUp0⟩
    · rw [hNet1]
  · have hOn0 : s0.powered .net = true := (State.powered_of_quiet hQuiet0 _).trans hOn
    have hLate0 : 2 * s0.maxLat k < s0.clk.cyc - oldest := by
      have hLat : s0.maxLat k = s.maxLat k := (congrArg (fun q : State => q.maxLat k) hQuiet0 :)
      rw [hLat, State.clk_of_quiet hQuiet0]
      exact hLate
    have hEvent : s1.stickyBit .net 2 = true := by
      dsimp only [s1]
      rw [if_pos hLate0]
      exact State.event_sticky s0 .net 2 .shared (State.reports_net hOn0 2) (by decide)
    have hFlt : t.flt = s2.flt := s3.deliver_flt i c
    exact State.StickyUp.of_flt hFlt _ _ (hSticky _ _ hEvent)

theorem execStreamFrameBuild_eq {s : State} {k : Fin 8} {i : Fin 64} (hi : Fin.ofNat 64 (s.NET_STR_CFG_QUEUE k.val) = i)
    (hDrains : s.streamDrains k = true) (hEcc : (s.que.q[i]).badEcc = 0) : exec (.streamFrameBuild k) s =
      if (s.que.q[i]).halted then .next s
      else (s.que.q[i]).ring.head?.elim (.next s) fun r =>
        let c := frameRecords (s.maxBytes k) (s.que.q[i]).ring
        if c < (s.que.q[i]).ring.length then .next (s.buildFrame k i c r.cyc)
        else .next ((s.waitTill (r.cyc + s.maxLat k)).buildFrame k i c r.cyc) := by
  subst hi
  have hRead : s.descRead (Fin.ofNat 64 (s.NET_STR_CFG_QUEUE k.val)) = s := by
    unfold State.descRead
    rw [hEcc]
    rfl
  change execStreamFrameBuild k s = _
  unfold execStreamFrameBuild
  dsimp only
  rw [hRead, if_neg (by simp [hDrains])]
  rcases (s.que.q[Fin.ofNat 64 (s.NET_STR_CFG_QUEUE k.val)]).ring with _ | ⟨r, l⟩ <;> rfl

/-- Settles O46: a link that goes down takes its frames with it, and a stream frame takes the oldest records. -/
theorem linksAndStreams : Obligations.LinksAndStreams := by
  intro s p k
  extract_lets frame i q c
  refine ⟨?_, ?_, ?_, ?_, ?_, ?_⟩
  · intro hOn
    set l := (s.net.port[p]).lostFrames with hl
    set v := s.linkLost p with hv
    obtain ⟨hPorts, hFrame⟩ := State.loseFrames_net l v
    set u := l.foldl State.loseFrame v with hu
    have hQuiet := u.judgeLink_quiet p
    have hNet : (u.judgeLink p).net = u.net := (congrArg State.net hQuiet :)
    have hPort : u.net.port[p] = v.net.port[p] := by rw [hPorts]
    have hOther : u.net.port[otherPort p] = v.net.port[otherPort p] := by rw [hPorts]
    have hLost : v.net.port[p] = _ := State.setPort_port _ _ _
    refine ⟨_, congrArg Host.Outcome.next (s.dropLink_eq p), ?_, ?_, ?_, ?_, ?_, ?_, ?_⟩
    · dsimp only [frame]
      rw [hNet]
      exact hQuiet.trans ((congrArg State.quiet hFrame).trans rfl)
    · rw [hNet, hPort, hLost]
    · rw [hNet, hPort, hLost]
    · rw [hNet, hPort, hLost]
    · have hSame : u.quiet = ({ v with net := u.net } : State).quiet := congrArg State.quiet hFrame
      have hEn : u.portEn p = s.portEn p := (congrArg (fun t : State => t.portEn p) hSame :)
      rw [State.judgeLink_live ((State.powered_of_quiet hSame _).trans hOn), hPort, hLost, hEn]
      exact Bool.and_true _
    · intro hLow
      rw [hNet]
      exact State.loseFrames_lost l v k hLow
    · rw [hNet, hOther]
      exact (vset_other _ _ _ _ (ne_otherPort p).symm).trans (vset_same _ _ _)
  · intro hEn hMac hOn
    set v := s.setPort p { s.net.port[p] with
      link := true, credAt := if (s.net.port[p]).link then (s.net.port[p]).credAt else s.clk.cyc } with hv
    have hPort : v.net.port[p] = _ := State.setPort_port _ _ _
    have hQuiet := v.judgeLink_quiet p
    have hNet : (v.judgeLink p).net = v.net := (congrArg State.net hQuiet :)
    refine ⟨v.judgeLink p, if_pos ?_, ?_, ?_, ?_⟩
    · rw [Bool.and_eq_true, Bool.or_eq_true, bne_iff_ne]
      exact ⟨hEn, hMac⟩
    · dsimp only [frame]
      rw [hNet]
      exact hQuiet.trans rfl
    · rw [hNet, hPort]
    · rw [State.judgeLink_live (s := v) hOn, hPort]
      exact Bool.and_false _
  · intro hBar
    refine if_neg ?_
    rw [Bool.and_eq_true, Bool.or_eq_true, bne_iff_ne]
    rintro ⟨hEn, hMac⟩
    rcases hBar with ⟨h1, h2⟩ | h
    · rw [h1, h2] at hEn
      exact absurd hEn (by simp)
    · exact hMac h
  · intro hRests
    exact if_pos (by simp [hRests])
  · intro hDrains hEcc hNone
    have hExec := execStreamFrameBuild_eq (i := i) rfl hDrains hEcc
    rcases hNone with hHalted | hEmpty
    · exact hExec.trans (if_pos hHalted)
    · refine hExec.trans ?_
      rw [show (s.que.q[i]).ring = [] from hEmpty]
      exact ite_self _
  · intro r l hDrains hEcc hRuns hRing at'
    have hExec := (execStreamFrameBuild_eq (i := i) rfl hDrains hEcc).trans (if_neg (Bool.eq_false_iff.mp hRuns))
    have hHead : (s.que.q[i]).ring.head? = some r := congrArg List.head? hRing
    rw [hHead] at hExec
    obtain ⟨d, hd, hRun⟩ : ∃ d : Clk, d.cyc = at' ∧ exec (.streamFrameBuild k) s =
        .next (State.buildFrame { s with clk := d } k i c r.cyc) := by
      by_cases hMore : c < q.ring.length
      · exact ⟨s.clk, (if_pos hMore).symm, hExec.trans (if_pos hMore)⟩
      · refine ⟨(s.waitTill (r.cyc + s.maxLat k)).clk, ?_, hExec.trans (if_neg hMore)⟩
        exact ((State.waitTill_clk_cyc s _).trans (Nat.max_comm _ _)).trans (if_neg hMore).symm
    obtain ⟨hQuiet, hRecs, hDeliv, hFrames, hSeq, hCount, hLate⟩ := State.buildFrame_spec { s with clk := d } k i c r.cyc
    have hClk : (State.buildFrame { s with clk := d } k i c r.cyc).clk = d := (congrArg State.clk hQuiet :)
    refine ⟨_, hRun, ?_, ?_, hRecs, hDeliv, hFrames, hSeq, hCount p, fun hWaits hOn => hLate ?_ hOn⟩
    · rw [hClk, hd]
    · rw [hClk]
      exact hQuiet
    · change 2 * s.maxLat k < d.cyc - r.cyc
      rw [hd]
      exact hWaits

end Sys2Proof.Machine
end

section
/-! PROOFS. The flight recorders (R392, R393). -/

namespace Sys2Proof.Machine

section
variable {s : State} {n : Fin 8}

theorem State.setFrec_self (s : State) (n : Fin 8) : s.setFrec n s.frec[n] = s :=
  congrArg (fun v => { s with frec := v }) (vset_self _ _)

theorem State.setFrec_setFrec (s : State) (n : Fin 8) (f g : Frec) : (s.setFrec n f).setFrec n g = s.setFrec n g :=
  congrArg (fun v => { s with frec := v }) (vset_vset _ _ _ _)

theorem State.frec_of_quiet {t : State} (h : t.quiet = s.quiet) (n : Fin 8) : (t.frec[n]).quiet = (s.frec[n]).quiet := by
  have hMap (u : State) : (u.quiet.frec)[n] = (u.frec[n]).quiet := by
    unfold State.quiet
    simp
  rw [← hMap, h, hMap]

/-- A recorder put into two states that differ only in what a report can change leaves two such states. -/
theorem State.setFrec_quiet {t : State} (h : t.quiet = s.quiet) (f : Frec) :
    (t.setFrec n f).quiet = (s.setFrec n f).quiet := by
  have hPut (u : State) : (u.setFrec n f).quiet = { u.quiet with frec := vset u.quiet.frec n f.quiet } := by
    unfold State.quiet State.setFrec
    simp [vset]
  rw [hPut, hPut, h]

/-! ## Triggers -/

/-- A trigger reaches an armed recorder (R393, Table 17.8). -/
theorem Frec.offer_armed {f : Frec} {c : Nat} {t : BitVec 64} {y : Nat} (h : f.st = .armed) :
    f.offer c t y = if f.pend = 0 then { f with pend := bput 0 c true, pendTime := t, pendCyc := y }
      else if f.pendCyc = y then { f with pend := bput f.pend c true } else f := by
  unfold Frec.offer
  rw [h]

/-- A trigger reaches a recorder that is not armed: one of its cycle joins the cause, any other is ignored. -/
theorem Frec.offer_other {f : Frec} {c : Nat} {t : BitVec 64} {y : Nat} (h : f.st ≠ .armed) :
    f.offer c t y = if f.st = .post ∧ f.pendCyc = y then { f with cause := bput f.cause c true } else f := by
  obtain ⟨st⟩ := f
  cases st with
  | armed => exact absurd rfl h
  | off => exact (if_neg (by simp)).symm
  | frozen => exact (if_neg (by simp)).symm
  | post => simp [Frec.offer]

theorem Frec.offer_last {f : Frec} {c : Nat} {t : BitVec 64} {y : Nat} (h : f.st = .armed) : (f.offer c t y).last = f.last := by
  rw [Frec.offer_armed h]
  repeat' split
  all_goals rfl

/-- A recorder has taken a trigger of cause `c` and time `a` (R393). -/
structure State.FrecTaken (s : State) (n : Fin 8) (c : BitVec 3) (a : BitVec 64) (t : State) : Prop where
  st : (t.frec[n]).st = .post
  cause : (t.frec[n]).cause = c
  time : (t.frec[n]).time = a
  pend : (t.frec[n]).pend = 0
  post : (t.frec[n]).post = 0
  idx : ∀ e, (s.frec[n]).last = some e → (t.frec[n]).trigIdx = e
  free : t.free = s.free + 1
  others : ∀ m : Fin 8, m ≠ n → t.frec[m] = s.frec[m]
  frame : t = { s with frec := t.frec, free := t.free, wst := t.wst }

theorem State.frecTake_taken (s : State) (n : Fin 8) :
    s.FrecTaken n (s.frec[n]).pend (s.frec[n]).pendTime (s.frecTake n) := by
  have hGet : (s.frecTake n).frec[n] = { s.frec[n] with
      st := .post, cause := (s.frec[n]).pend, time := (s.frec[n]).pendTime, pend := 0, post := 0
      trigIdx := (s.frec[n]).last.getD (Config.freeBits 61 s.free % 2 ^ 32) } := vset_same _ _ _
  exact ⟨congrArg Frec.st hGet, congrArg Frec.cause hGet, congrArg Frec.time hGet, congrArg Frec.pend hGet,
    congrArg Frec.post hGet, fun e h => (congrArg Frec.trigIdx hGet).trans (congrArg (fun o => Option.getD o (Config.freeBits 61 s.free % 2 ^ 32)) h), rfl,
    fun m h => vset_other _ _ _ _ h, rfl⟩

/-- TRIG at an armed recorder: the firmware trigger is offered, and the one that then waits is taken. -/
theorem State.frecTrig_taken (hArmed : (s.frec[n]).st = .armed) :
    s.FrecTaken n ((s.frec[n]).offer 2 s.now s.clk.cyc).pend ((s.frec[n]).offer 2 s.now s.clk.cyc).pendTime (s.frecTrig n) := by
  have hTrig : s.frecTrig n = (s.setFrec n ((s.frec[n]).offer 2 s.now s.clk.cyc)).frecTake n := if_pos hArmed
  rw [hTrig]
  obtain ⟨hSt, hCause, hTime, hPend, hPost, hIdx, hFree, hOthers, hFrame⟩ :=
    (s.setFrec n ((s.frec[n]).offer 2 s.now s.clk.cyc)).frecTake_taken n
  rw [State.setFrec_get] at hCause hTime hIdx
  exact ⟨hSt, hCause, hTime, hPend, hPost, fun e h => hIdx e ((Frec.offer_last hArmed).trans h), hFree,
    fun m h => (hOthers m h).trans (State.setFrec_get_other _ _ _ _ h), hFrame⟩

/-- TRIG at a recorder that is not armed joins the trigger of the same cycle, or is ignored (Table 17.8). -/
theorem State.frecTrig_ignored (hOther : (s.frec[n]).st ≠ .armed) :
    s.frecTrig n = if (s.frec[n]).st = .post ∧ (s.frec[n]).pendCyc = s.clk.cyc then
      s.setFrec n { s.frec[n] with cause := bput (s.frec[n]).cause 2 true } else s := by
  have hTrig : s.frecTrig n = s.setFrec n ((s.frec[n]).offer 2 s.now s.clk.cyc) := if_neg hOther
  rw [hTrig]
  rw [Frec.offer_other hOther]
  split
  · rfl
  · exact s.setFrec_self n

/-! ## Control -/

theorem State.frecRangeOk_iff : s.frecRangeOk n = true ↔ s.FREC_BASE_BASE n.val % 32 = 0 ∧ 0x80000 ≤ s.FREC_BASE_BASE n.val ∧
    s.FREC_BASE_BASE n.val + 32 * max 1 (s.FREC_LEN_ENTRIES n.val) ≤ 0x800000 := by
  simp [State.frecRangeOk, and_assoc]

end

/-! ## Entries -/

section
variable {s : State} {n : Fin 8} {e : List Byte}

/-- The place of the entry that is due in recorder `n`. -/
def State.frecOff (s : State) (n : Fin 8) : Nat := (s.frec[n]).base + 32 * (s.frec[n]).next

/-- Entry `e` comes to its place in recorder `n`, written if `w` and its bank is on (R392, R359). -/
def State.frecEnter (s : State) (n : Fin 8) (w : Bool) (e : List Byte) : State :=
  let ok := w && s.bankOn (bankOf (s.frecOff n))
  let s1 := if ok then s.sramPut (s.frecOff n) e
    else if w then s.fabReport 0 .yarder (0x10000000 + s.frecOff n) true else s
  s1.setFrec n ((s1.frec[n]).advance ok)

theorem execFrecEntry_due (hDue : (s.frec[n]).due = some e) (w : Bool) :
    execFrecEntry n w s = .next (s.frecEnter n w e) := by
  unfold execFrecEntry
  dsimp only
  rw [hDue]
  rfl

theorem execFrecEntry_none (hNone : (s.frec[n]).due = none) (w : Bool) : execFrecEntry n w s = .next s := by
  unfold execFrecEntry
  dsimp only
  rw [hNone]

/-- The Yarder does not write the entry. -/
theorem State.frecEnter_skipped : s.frecEnter n false e = s.setFrec n ((s.frec[n]).advance false) := rfl

/-- The Yarder finds the bank of the entry off. -/
theorem State.frecEnter_accOff (hOff : s.bankOn (bankOf (s.frecOff n)) = false) :
    let r := s.fabReport 0 .yarder (0x10000000 + s.frecOff n) true
    s.frecEnter n true e = r.setFrec n ((r.frec[n]).advance false) := by
  unfold State.frecEnter
  rw [hOff]
  rfl

/-- The Yarder writes the entry. -/
theorem State.frecEnter_written (hOn : s.bankOn (bankOf (s.frecOff n)) = true) :
    s.frecEnter n true e = (s.sramPut (s.frecOff n) e).setFrec n ((s.frec[n]).advance true) := by
  unfold State.frecEnter
  rw [hOn]
  rfl

/-- A recorder past the place of an entry, whatever became of the entry. -/
theorem State.frecEnter_place (w : Bool) :
    let g := (s.frecEnter n w e).frec[n]
    g.due = none ∧ g.next = ((s.frec[n]).next + 1) % (s.frec[n]).len ∧ g.total = (s.frec[n]).total + 1 ∧
      ((s.frec[n]).st = .post → g.post = (s.frec[n]).post + 1) := by
  obtain ⟨ok, f, hQuiet, hGet⟩ : ∃ ok f, Frec.quiet f = (s.frec[n]).quiet ∧ (s.frecEnter n w e).frec[n] = f.advance ok := by
    refine ⟨_, _, ?_, State.setFrec_get _ _ _⟩
    repeat' split
    · rfl
    · exact State.frec_of_quiet (State.fabReport_quiet _ _ _ _ _) n
    · rfl
  dsimp only
  rw [hGet]
  have hAt {β : Type} (F : Frec → β) (h : ∀ x : Frec, F x.quiet = F x) : F f = F s.frec[n] :=
    (h f).symm.trans ((congrArg F hQuiet).trans (h _))
  refine ⟨rfl, hAt (fun x => (x.next + 1) % x.len) fun _ => rfl, hAt (fun x => x.total + 1) fun _ => rfl, fun hPost => ?_⟩
  exact (if_pos ((hAt Frec.st fun _ => rfl).trans hPost)).trans (hAt (fun x => x.post + 1) fun _ => rfl)

end

/-- Settles O47: each clause is the branch of its operation; a report on the way to an entry leaves the recorder as it was but for
a trigger that waits. -/
theorem recorderRuns : Obligations.RecorderRuns := by
  unfold Obligations.RecorderRuns
  intro s n c w
  extract_lets f b len legal put taken
  have hTaken {t : State} {by' : BitVec 3} {at' : BitVec 64} (h : s.FrecTaken n by' at' t) : taken t by' at' :=
    ⟨h.st, h.cause, h.time, h.pend, h.post, h.idx, h.free, h.others, h.frame⟩
  have hTrigOk {by' : BitVec 3} {at' : BitVec 64} (h : s.FrecTaken n by' at' (s.frecTrig n)) :
      taken { s.frecTrig n with wst := .ok } by' at' :=
    ⟨h.st, h.cause, h.time, h.pend, h.post, h.idx, h.free, h.others, congrArg (fun q : State => { q with wst := .ok }) h.frame⟩
  refine ⟨fun hLegal => ?_, fun hNot => ?_, rfl, fun hOther => ⟨?_, ?_⟩, fun hArmed hPend => ?_, fun hArmed hPend => ?_,
    fun hArmed hBit => ?_, fun hDue => ?_, fun e hDue => ?_, fun hPost hFull => ?_, fun hRest => ?_⟩
  · refine ⟨_, congrArg (fun r => thenDomains (finish r)) (if_pos (State.frecRangeOk_iff.mpr hLegal)), ?_⟩
    have hGet (g : Frec) : (vset s.frec n g)[n] = g := vset_same _ _ _
    dsimp only [State.setFrec]
    rw [hGet]
    exact ⟨rfl, rfl, rfl, rfl, rfl, rfl, rfl⟩
  · exact congrArg (fun r => thenDomains (finish r)) (if_neg fun h => hNot (State.frecRangeOk_iff.mp h))
  · refine if_neg fun h => hOther ?_
    exact beq_iff_eq.mp (Bool.and_eq_true_iff.mp h).1
  · exact congrArg (fun t => Host.Outcome.next { t with wst := Status.ok }) (State.frecTrig_ignored hOther)
  · have h := State.frecTrig_taken hArmed
    rw [Frec.offer_armed hArmed, if_pos hPend] at h
    exact ⟨_, rfl, rfl, hTrigOk h⟩
  · have h := State.frecTrig_taken hArmed
    rw [Frec.offer_armed hArmed, if_neg hPend] at h
    refine ⟨_, rfl, rfl, hTrigOk ?_⟩
    split at h
    next hCyc => rwa [if_pos hCyc]
    next hCyc => rwa [if_neg hCyc]
  · refine ⟨_, if_pos (by rw [hArmed, hBit]; rfl), rfl, hTaken (s.frecTake_taken n)⟩
  · exact execFrecEntry_none hDue w
  · obtain ⟨hNone, hPlace, hTotal, hCount⟩ := State.frecEnter_place (s := s) (n := n) (e := e) w
    refine ⟨_, execFrecEntry_due hDue w, hNone, hPlace, hTotal, hCount, fun hSkip => ?_, fun hWritten hOff => ?_,
      fun hWritten hOn => ?_⟩
    · subst hSkip
      rw [State.frecEnter_skipped, State.setFrec_get]
      exact ⟨rfl, rfl⟩
    · subst hWritten
      have hEnter := State.frecEnter_accOff (e := e) hOff
      dsimp only at hEnter
      generalize hReport : s.fabReport 0 .yarder (0x10000000 + s.frecOff n) true = r at hEnter
      have hQuiet : r.quiet = s.quiet := by rw [← hReport, State.fabReport_quiet]
      have hSticky : r.stickyBit .fab 0 = true := by rw [← hReport]; exact State.fabReport_sticky _ _ _ _ _ (by decide)
      rw [hEnter, State.setFrec_get]
      have hDrop := (congrArg Frec.drop (State.frec_of_quiet hQuiet n) :)
      exact ⟨State.setFrec_quiet hQuiet _, hSticky, congrArg (fun k => min 65535 (k + 1)) hDrop⟩
    · subst hWritten
      rw [State.frecEnter_written hOn, State.setFrec_get]
      refine ⟨rfl, rfl, fun hWf j hj => ?_, fun hWf a ha => Memory.read_writeBytes_other _ _ _ _ _ ha, rfl⟩
      exact (Memory.read_writeBytes_at hWf hj).trans (List.getD_eq_getElem _ _ hj).symm
  · have hNext : exec (.frecFreeze n) s = .next ((s.setFrec n { f with st := .frozen, due := none }).offer
        (Fin.ofNat 64 (40 + n.val)) 7 (Frec.bytes { f with st := .frozen, due := none } n)) :=
      if_pos (by rw [hPost, decide_eq_true hFull]; rfl)
    generalize Frec.bytes { f with st := .frozen, due := none } n = l at hNext
    refine ⟨_, hNext, ?_, State.offer_frame _ _ _ _, State.offer_nseq _ _ _ _⟩
    rw [State.offer_frame]
    exact congrArg Frec.st (vset_same s.frec n { f with st := .frozen, due := none } :)
  · exact if_neg (by
      rw [Bool.and_eq_true, decide_eq_true_eq, beq_iff_eq]
      exact fun h => hRest.elim (fun hSt => hSt h.1) fun hLess => absurd h.2 (Nat.not_le.mpr hLess))

end Sys2Proof.Machine
end

section
/-! PROOFS. The first rules for a frame (R400, R401, R404, R432, R442, R450). -/

namespace Sys2Proof.Machine

/-! ## The frame of a command -/

/-- A data phase with as many words as LEN says. -/
theorem State.dataFrame_whole {s : State} {cmd : Nat} {a : Word} {len : BitVec 16} {d : List Word} {crc : Byte} {queue : Bool}
    {k : List Word → State → Answer} (h : d.length = len.toNat + 1) :
    s.dataFrame cmd a len d crc queue k = s.frame (reqBytes cmd a len d) crc queue (k d) := by
  unfold State.dataFrame
  dsimp only
  rw [← h, List.take_length, List.drop_length]
  exact if_neg (lt_irrefl _)

/-- Every request is a frame, judged by the first rules and then by the command's own. -/
theorem exec_request {c : Instr} {l : List Byte} {crc : Byte} (h : c.request = some (l, crc)) :
    ∃ k, ∀ s, exec c s = s.frame l crc (Parts.queueFrame c) k := by
  have hData {n : BitVec 16} {d : List Word} {l' : List Byte} {crc' : Byte}
      (h : (if d.length = n.toNat + 1 then some (l', crc') else none) = some (l, crc)) :
      d.length = n.toNat + 1 ∧ l' = l ∧ crc' = crc := by
    rw [Option.ite_none_right_eq_some, Option.some.injEq, Prod.mk.injEq] at h
    exact h
  cases c with
  | read m a n x =>
    obtain ⟨rfl, rfl⟩ := Prod.mk.inj (Option.some.inj h)
    exact ⟨_, fun s => show execRead m a n x s = _ from rfl⟩
  | qread a n x =>
    obtain ⟨rfl, rfl⟩ := Prod.mk.inj (Option.some.inj h)
    exact ⟨_, fun s => show execQread a n x s = _ from rfl⟩
  | write a n d x =>
    obtain ⟨hLen, rfl, rfl⟩ := hData h
    exact ⟨_, fun s => show execWrite a n d x s = _ from State.dataFrame_whole hLen⟩
  | qack a n d x =>
    obtain ⟨hLen, rfl, rfl⟩ := hData h
    exact ⟨_, fun s => show execQack a n d x s = _ from State.dataFrame_whole hLen⟩
  | qpush a n d x =>
    obtain ⟨hLen, rfl, rfl⟩ := hData h
    exact ⟨_, fun s => show execQpush a n d x s = _ from State.dataFrame_whole hLen⟩
  | _ => exact nomatch h

section
variable {s : State} {l : List Byte} {crc : Byte} {queue : Bool} {k : State → Answer}

/-- The state in which a frame is judged: a wake has noted it, and no response is driven. -/
def State.heardAt (s : State) : State := { s.hostWaking with resp := none }

theorem State.hostWaking_asleep (h : s.asleep = false) : s.hostWaking.asleep = false := by
  unfold State.hostWaking
  split
  next hWaking =>
    cases hEn : s.wakeEnabled 5 with
    | false => rwa [State.wakeIf_disabled hEn]
    | true =>
      rw [State.wakeIf_waking hEn hWaking]
      exact h
  next => exact h

theorem State.frame_deaf (hAwake : s.asleep = false) (h : s.hostWaking.hears = false) :
    s.frame l crc queue k = .next s.heardAt :=
  (if_neg (ne_true_of_eq_false (State.hostWaking_asleep hAwake))).trans (if_pos (congrArg (!·) h))

theorem State.frame_hears (hAwake : s.asleep = false) (h : s.hostWaking.hears = true) : s.frame l crc queue k =
    if s.hostWaking.sys.scan then (s.heardAt.turnAway queue .notReady).done
    else if crc8 l ≠ crc then (s.heardAt.crcFault.turnAway queue .crcBad).done
    else if !s.hostWaking.boot.released && (!s.hostWaking.boot.inHold || queue) then (s.heardAt.turnAway queue .notReady).done
    else (k s.heardAt).done :=
  (if_neg (ne_true_of_eq_false (State.hostWaking_asleep hAwake))).trans
    (if_neg (ne_true_of_eq_false (congrArg (!·) h)))

theorem execQspiFrame_deaf (hAwake : s.asleep = false) (h : s.hostWaking.hears = false) :
    execQspiFrame s = .next s.heardAt :=
  (if_neg (ne_true_of_eq_false (State.hostWaking_asleep hAwake))).trans (if_pos (congrArg (!·) h))

theorem execQspiFrame_hears (hAwake : s.asleep = false) (h : s.hostWaking.hears = true) :
    execQspiFrame s = .next s.heardAt.frameFault :=
  (if_neg (ne_true_of_eq_false (State.hostWaking_asleep hAwake))).trans
    (if_neg (ne_true_of_eq_false (congrArg (!·) h)))

end

/-! ## Answers without data -/

/-- A frame turned away by a state `u`: the response, and nothing else but the draw of its ERR_IDX. -/
theorem State.turnAway_done (u : State) (c : Instr) (st : Status) :
    ∃ t, (u.turnAway (Parts.queueFrame c) st).done = .next t ∧ Parts.TurnedAway c st t ∧
      t = { u with free := t.free, resp := t.resp, wst := st } := by
  unfold State.turnAway
  split
  next hQueue => exact ⟨_, rfl, ⟨0xFF, by decide, rfl, fun _ => rfl⟩, rfl⟩
  next hOther => exact ⟨_, rfl, ⟨_, Nat.mod_lt _ (by decide), rfl, fun h => absurd h hOther⟩, rfl⟩

/-! ## Faults of a frame -/

theorem State.yieldBlaze_boot (s : State) (p : Page) (r : Report) : (s.yieldBlaze p r).boot = s.boot := by
  unfold State.yieldBlaze
  dsimp only
  repeat' split
  all_goals rfl

theorem State.fileReport_boot (s : State) (p : Page) (r : Report) : (s.fileReport p r).boot = s.boot := by
  have hBlaze : ((s.fltTriggers r.react).yieldBlaze p r).boot = s.boot := State.yieldBlaze_boot _ p r
  unfold State.fileReport
  dsimp only
  split
  · rw [State.offer_frame]
    exact hBlaze
  · exact hBlaze

theorem State.react_boot (s : State) (p : Page) (b r : Nat) (aff : Drive → Bool) : (s.react p b r aff).boot = s.boot := by
  refine State.react_steps (R := fun s t => t.boot = s.boot) (fun _ => rfl) (fun _ _ _ h k => k.trans h) (fun s d h p b => ?_)
    (fun s d => State.setSsl_boot s d) (fun s => ?_) (fun _ _ _ => rfl) s p b r aff
  · unfold State.reactHo State.askHandover
    dsimp only
    split
    · split
      · split <;> rfl
      · exact State.setSsl_boot s d
    · rfl
  · unfold State.reactDev
    dsimp only
    rw [State.setSsl_boot, State.setSsl_boot]
    split <;> rfl

/-- A fault outside SYS leaves what BIST has noted (R93). -/
theorem State.event_boot (s : State) {p : Page} (b : Nat) (c : Copy) (h : p ≠ .sys) : (s.event p b c).boot = s.boot := by
  have hReport (u : State) : (u.report p b c .detector).boot = u.boot := by
    unfold State.report
    split
    · rfl
    · dsimp only
      rw [State.react_boot, State.fileReport_boot, if_neg fun hSys => h hSys.1]
      rfl
  unfold State.event
  split
  · rfl
  · split
    · rfl
    · exact hReport (s.flash p b)

/-- What a report can have changed, where what BIST has noted is as before. -/
theorem State.frame_of_quiet {s t : State} (h : t.quiet = s.quiet) (hBoot : t.boot = s.boot) :
    t = { s with flt := t.flt, que := t.que, frec := t.frec, safe := t.safe, xd := t.xd, pads := t.pads, sdm := t.sdm } := by
  obtain ⟨⟩ := s
  obtain ⟨⟩ := t
  dsimp only at hBoot
  simp only [State.quiet, State.mk.injEq] at h ⊢
  simp [h, hBoot]

theorem State.reports_que {s : State} (h : s.hears = true) (b : Nat) : s.reports .que b = true := by
  have hp : s.powered .que = true := by
    unfold State.powered
    rw [show s.pageOn .que = true from rfl, Bool.and_true]
    exact h
  unfold State.reports State.heldOff
  rw [hp, show s.holdWin .que b = {} from rfl, show s.lossEnd .que b = 0 from rfl]
  simp [HoldWin.covers]

/-- A CRC_REQ that is wrong: counted and reported (R398). -/
theorem State.crcFault_spec {s : State} (h : s.hears = true) : let t := s.crcFault
    t.quiet = ({ s with que := { s.que with crcErrs := t.que.crcErrs } } : State).quiet ∧
      t.que.crcErrs = min 65535 (s.que.crcErrs + 1) ∧ t.stickyBit .que 3 = true ∧ t.boot = s.boot := by
  intro t
  have hQuiet : t.quiet = ({ s with que := { s.que with crcErrs := min 65535 (s.que.crcErrs + 1) } } : State).quiet :=
    State.event_quiet _ _ _ _
  have hErrs : t.que.crcErrs = min 65535 (s.que.crcErrs + 1) := (congrArg (fun q : State => q.que.crcErrs) hQuiet :)
  rw [hErrs]
  exact ⟨hQuiet, rfl, State.event_sticky _ _ _ _ (State.reports_que h 3) (by decide), State.event_boot _ _ _ (by decide)⟩

/-- A frame cut short: counted and reported (R401). -/
theorem State.frameFault_spec {s : State} (h : s.hears = true) : let t := s.frameFault
    t.quiet = ({ s with que := { s.que with frameErrs := t.que.frameErrs } } : State).quiet ∧
      t.que.frameErrs = min 65535 (s.que.frameErrs + 1) ∧ t.stickyBit .que 4 = true := by
  intro t
  have hQuiet : t.quiet = ({ s with que := { s.que with frameErrs := min 65535 (s.que.frameErrs + 1) } } : State).quiet :=
    State.event_quiet _ _ _ _
  have hErrs : t.que.frameErrs = min 65535 (s.que.frameErrs + 1) := (congrArg (fun q : State => q.que.frameErrs) hQuiet :)
  rw [hErrs]
  exact ⟨hQuiet, rfl, State.event_sticky _ _ _ _ (State.reports_que h 4) (by decide)⟩

/-! ## Frames while the device enters a sleep (R432, R442) -/

section
variable {s : State}

/-- A source that acts during an entry is noted; CORE goes on as it is (R441). -/
theorem State.wakeIf_entering_core (b : Nat) (h : s.pwr.st = .entering) : (s.wakeIf b).pwr.core = s.pwr.core := by
  unfold State.wakeIf
  split
  · unfold State.wakeEvent
    simp only [h]
    repeat' split
    all_goals rfl
  · rfl

/-- The state once the frame has been latched, before it is judged. -/
def State.latchedBy (s : State) (n : Nat) (bits : BitVec 64) : State :=
  { (s.latchFrame n bits).wakeIf 5 with resp := none }

theorem State.latchFrame_spec (s : State) (n : Nat) (bits : BitVec 64) : (s.latchFrame n bits).pwr.hostLatched = true ∧
    (s.latchFrame n bits).pwr.st = s.pwr.st ∧ (s.latchFrame n bits).pwr.core = s.pwr.core ∧
    s.latchFrame n bits = { s with pwr := (s.latchFrame n bits).pwr } := by
  unfold State.latchFrame
  dsimp only
  split
  next h => exact ⟨h, rfl, rfl, rfl⟩
  next => exact ⟨rfl, rfl, rfl, rfl⟩

/-- A frame in ENTERING is latched, and its response, if any, is still to come. -/
theorem State.latchedBy_spec (h : s.pwr.st = .entering) (n : Nat) (bits : BitVec 64) : let t := s.latchedBy n bits
    t.resp = none ∧ t.pwr.hostLatched = true ∧ t.que = s.que ∧ t.flt = s.flt ∧ t.boot = s.boot ∧ t.coreOn = s.coreOn := by
  obtain ⟨hLatched, hSt, hCore, hFrame⟩ := s.latchFrame_spec n bits
  have hWake := (s.latchFrame n bits).wakeIf_step 5
  have hRest := hWake.rest
  refine ⟨rfl, (congrArg Pwr.hostLatched hWake.power :).trans hLatched, ?_, ?_, ?_, ?_⟩
  · exact (congrArg State.que hRest :).trans (congrArg State.que hFrame :)
  · exact (congrArg State.flt hRest :).trans (congrArg State.flt hFrame :)
  · exact (congrArg State.boot hRest :).trans (congrArg State.boot hFrame :)
  · exact congrArg DomSt.isOn ((State.wakeIf_entering_core 5 (hSt.trans h)).trans hCore)

theorem State.asleepRequest_latched (s : State) (l : List Byte) (x : Heard) :
    ∃ n bits, s.asleepRequest l x = s.draw.hostAsleep n bits x := ⟨_, _, rfl⟩

/-- What the target makes of a frame that has been latched while CORE is on (R400, R401). -/
def State.judge (s : State) : Heard → State
  | .short => s.frameFault
  | .request false queue =>
    let a := s.crcFault.turnAway queue .crcBad
    { a.post with resp := some (mkResp a.st a.idx a.data) }
  | .request true queue =>
    let a := s.turnAway queue .notReady
    { a.post with resp := some (mkResp a.st a.idx a.data) }
  | .levels =>
    let a := s.turnAway false .notReady
    { a.post with resp := some (mkResp a.st a.idx a.data) }

theorem State.hostAsleep_eq (s : State) (n : Nat) (bits : BitVec 64) (x : Heard) :
    s.hostAsleep n bits x = if s.coreOn then (s.latchedBy n bits).judge x else s.latchedBy n bits := by
  unfold State.hostAsleep
  cases s.coreOn with
  | false => rfl
  | true =>
    cases x with
    | request ok queue => cases ok <;> rfl
    | short => rfl
    | levels => rfl

/-- A frame in ENTERING that is turned away while CORE is on. -/
theorem State.turnAway_answers (u : State) (c : Instr) (st : Status) :
    let a := u.turnAway (Parts.queueFrame c) st
    let t : State := { a.post with resp := some (mkResp a.st a.idx a.data) }
    Parts.TurnedAway c st t ∧ t = { u with free := t.free, resp := t.resp } := by
  unfold State.turnAway
  dsimp only
  split
  next hQueue => exact ⟨⟨0xFF, by decide, rfl, fun _ => rfl⟩, rfl⟩
  next hOther => exact ⟨⟨_, Nat.mod_lt _ (by decide), rfl, fun h => absurd h hOther⟩, rfl⟩

/-- A device that enters a sleep hears the frame as it stands. -/
theorem State.heardAt_entering (h : s.pwr.st = .entering) : s.heardAt = { s with resp := none } := by
  unfold State.heardAt State.hostWaking
  rw [if_neg (by rw [h]; decide)]

/-- Where a frame in ENTERING is judged, the frame has been latched, and its response is still to come. -/
structure State.Latched (s t : State) : Prop where
  resp : t.resp = none
  latched : t.pwr.hostLatched = true
  que : t.que = s.que
  flt : t.flt = s.flt
  boot : t.boot = s.boot
  core : t.coreOn = s.coreOn

theorem State.Latched.hears {t : State} (h : s.Latched t) (hOn : s.coreOn = true) (hPhase : s.boot.phase ≠ .reset) :
    t.hears = true := by
  unfold State.hears
  rw [h.core, hOn, h.boot]
  simpa using hPhase

/-- A frame in ENTERING: latched, and judged while CORE is on. -/
theorem State.asleepRequest_entering (h : s.pwr.st = .entering) (l : List Byte) (x : Heard) :
    ∃ t, s.Latched t ∧ s.heardAt.asleepRequest l x = if s.coreOn then t.judge x else t := by
  obtain ⟨n, bits, hTo⟩ := s.heardAt.asleepRequest_latched l x
  rw [hTo, State.hostAsleep_eq, State.heardAt_entering h]
  obtain ⟨hResp, hLatched, hQue, hFlt, hBoot, hCore⟩ := State.latchedBy_spec (s := ({ s with resp := none } : State).draw) h n bits
  refine ⟨_, ⟨hResp, hLatched, hQue, hFlt, hBoot, hCore⟩, rfl⟩

theorem State.asleep_entering (h : s.pwr.st = .entering) : s.heardAt.asleep = true := by
  rw [State.heardAt_entering h]
  unfold State.asleep
  rw [h]
  rfl

theorem State.frame_entering {l : List Byte} {crc : Byte} {queue : Bool} {k : State → Answer} (h : s.pwr.st = .entering) :
    s.frame l crc queue k = .next (s.heardAt.asleepRequest (l ++ [crc]) (.request (crc8 l == crc) queue)) :=
  if_pos (State.asleep_entering h)

theorem execQspiFrame_entering (h : s.pwr.st = .entering) : execQspiFrame s = .next (s.heardAt.asleepRequest [] .short) :=
  if_pos (State.asleep_entering h)

end

theorem awakeFrames : Parts.AwakeFrames := by
  unfold Parts.AwakeFrames
  intro s0 c l crc hReq hAwake
  obtain ⟨k, hExec⟩ := exec_request hReq
  extract_lets s q0 turned
  have hHeard : s.hears = true → exec c s0 = _ := fun h => (hExec s0).trans (State.frame_hears hAwake h)
  have framed {st : Status} {t : State} (h : t = { q0 with free := t.free, resp := t.resp, wst := st }) :
      t = { ({ s with free := t.free, resp := t.resp } : State) with
        wst := st, flt := t.flt, que := t.que, frec := t.frec, safe := t.safe, xd := t.xd, pads := t.pads, sdm := t.sdm } := by
    rw [h]
  have hTurned (st : Status) (hTo : exec c s0 = (q0.turnAway (Parts.queueFrame c) st).done) :
      Completes c s0 (fun t => turned st t ∧ t.que = s.que ∧ t.flt = s.flt) := by
    obtain ⟨t, hDone, hAway, hFrame⟩ := q0.turnAway_done c st
    exact ⟨t, hTo.trans hDone, ⟨hAway, framed hFrame⟩, (congrArg State.que hFrame :), (congrArg State.flt hFrame :)⟩
  refine ⟨fun hDeaf => ⟨(hExec s0).trans (State.frame_deaf hAwake hDeaf), execQspiFrame_deaf hAwake hDeaf⟩,
    fun hHears hScan => hTurned _ ?_, fun hHears hScan hCrc => ?_, fun hHears hScan hCrc hRel hHold => hTurned _ ?_, fun hHears => ?_⟩
  · exact (hHeard hHears).trans (if_pos hScan)
  · have hTo := (hHeard hHears).trans ((if_neg (ne_true_of_eq_false hScan)).trans (if_pos hCrc))
    obtain ⟨hQuiet, hErrs, hSticky, hBoot⟩ := State.crcFault_spec (s := q0) hHears
    obtain ⟨t, hDone, hAway, hFrame⟩ := q0.crcFault.turnAway_done c .crcBad
    have hFault := State.frame_of_quiet (s := { q0 with que := { q0.que with crcErrs := q0.crcFault.que.crcErrs } }) hQuiet hBoot
    have hQue : t.que = q0.crcFault.que := (congrArg State.que hFrame :)
    have hFlt : t.flt = q0.crcFault.flt := (congrArg State.flt hFrame :)
    refine ⟨t, hTo.trans hDone, ⟨hAway, ?_⟩, ?_, (congrArg Que.crcErrs hQue).trans hErrs, ?_⟩
    · rw [hFrame, hFault]
    · rw [hQue, hFrame]
      exact congrArg (fun q : State => { q with free := t.free, resp := t.resp, wst := .crcBad }) hQuiet
    · exact State.StickyUp.of_flt hFlt _ _ hSticky
  · refine (hHeard hHears).trans ((if_neg (ne_true_of_eq_false hScan)).trans ((if_neg (not_not.mpr hCrc)).trans (if_pos ?_)))
    rw [hRel, hHold]
    rfl
  · obtain ⟨hQuiet, hErrs, hSticky⟩ := State.frameFault_spec (s := q0) hHears
    exact ⟨_, execQspiFrame_hears hAwake hHears, (congrArg State.resp hQuiet :), hSticky, hErrs, hQuiet⟩

theorem enteringFrames : Parts.EnteringFrames := by
  unfold Parts.EnteringFrames
  intro s c l crc hReq hEnter
  obtain ⟨k, hExec⟩ := exec_request hReq
  have hFrame := (hExec s).trans (State.frame_entering hEnter)
  have hShort : exec .qspiFrame s = _ := execQspiFrame_entering hEnter
  obtain ⟨t, hLatched, hTo⟩ := State.asleepRequest_entering hEnter (l ++ [crc]) (.request (crc8 l == crc) (Parts.queueFrame c))
  obtain ⟨u, hLatchedU, hToU⟩ := State.asleepRequest_entering hEnter [] .short
  rw [hTo] at hFrame
  rw [hToU] at hShort
  refine ⟨fun hOff => ?_, fun hOn => ⟨fun hCrc => ?_, fun hCrc hPhase => ?_, fun hPhase => ?_⟩⟩
  · rw [hOff] at hFrame hShort
    exact ⟨⟨t, hFrame, hLatched.resp, hLatched.latched⟩, ⟨u, hShort, hLatchedU.resp, hLatchedU.latched⟩⟩
  · rw [hOn, if_pos rfl, beq_iff_eq.mpr hCrc] at hFrame
    obtain ⟨hAway, hRest⟩ := t.turnAway_answers c .notReady
    exact ⟨_, hFrame, hAway, (congrArg (fun q : State => q.pwr.hostLatched) hRest :).trans hLatched.latched,
      (congrArg State.que hRest :).trans hLatched.que, (congrArg State.flt hRest :).trans hLatched.flt⟩
  · rw [hOn, if_pos rfl, beq_eq_false_iff_ne.mpr hCrc] at hFrame
    obtain ⟨hQuiet, hErrs, hSticky, -⟩ := State.crcFault_spec (hLatched.hears hOn hPhase)
    obtain ⟨hAway, hRest⟩ := t.crcFault.turnAway_answers c .crcBad
    refine ⟨_, hFrame, hAway, ?_, ?_, State.StickyUp.of_flt (congrArg State.flt hRest :) _ _ hSticky⟩
    · exact (congrArg (fun q : State => q.pwr.hostLatched) hRest :).trans
        ((congrArg (fun q : State => q.pwr.hostLatched) hQuiet :).trans hLatched.latched)
    · rw [← hLatched.que]
      exact (congrArg (fun q : State => q.que.crcErrs) hRest :).trans hErrs
  · rw [hOn, if_pos rfl] at hShort
    obtain ⟨hQuiet, hErrs, hSticky⟩ := State.frameFault_spec (hLatchedU.hears hOn hPhase)
    refine ⟨_, hShort, (congrArg State.resp hQuiet :).trans hLatchedU.resp,
      (congrArg (fun q : State => q.pwr.hostLatched) hQuiet :).trans hLatchedU.latched, ?_, hSticky⟩
    rw [← hLatchedU.que]
    exact hErrs

/-- Settles O48: every request is one frame, whose first rules are judged in one place; a fault of the frame changes what any report
may change. -/
theorem framesJudged : Obligations.FramesJudged := by
  unfold Obligations.FramesJudged
  exact ⟨awakeFrames, enteringFrames⟩

end Sys2Proof.Machine
end

section
/-! PROOFS. Bursts of the host (R400), and QACK (R414). -/

namespace Sys2Proof.Machine

section
variable {s : State}

/-! ## A frame the device answers -/

theorem State.answers_awake (h : s.answers) : s.asleep = false ∧ s.hostWaking = s := by
  obtain ⟨hSt, -⟩ := h
  unfold State.asleep State.hostWaking
  rcases hSt with hSt | hSt <;> rw [hSt] <;> exact ⟨rfl, rfl⟩

/-- A frame with the right CRC_REQ comes to the rules of its own command once the device is released. -/
theorem State.frame_answers {l : List Byte} {crc : Byte} {queue : Bool} {k : State → Answer} (h : s.answers)
    (hCrc : crc8 l = crc) : s.frame l crc queue k = (k { s with resp := none }).done := by
  obtain ⟨hAwake, hSame⟩ := State.answers_awake h
  obtain ⟨-, hHears, hScan, hRel⟩ := h
  have hFrame := State.frame_hears (l := l) (crc := crc) (queue := queue) (k := k) hAwake (hSame.symm ▸ hHears)
  rw [State.heardAt, hSame, hScan, hRel] at hFrame
  exact hFrame.trans (if_neg (not_not.mpr hCrc))

/-- A READ or WRITE turned away with RANGE. -/
theorem State.turnAway_range (s : State) : ∃ i, i < 256 ∧ (({ s with resp := none } : State).turnAway false .range).done =
    .next (({ s with free := s.free + 1 } : State).respond .range i []) := ⟨_, Nat.mod_lt _ (by decide), rfl⟩

/-! ## Words of a burst -/

theorem State.shut_released (h : s.boot.released = true) (a : Nat) : s.shut a = false := by
  unfold State.shut
  rw [h]
  rfl

/-- One word of a READ. -/
theorem State.burstRead_succ (h : s.boot.released = true) (a i n : Nat) : s.burstRead a i (n + 1) =
    if (s.hostRead a).1 = .ok then
      let x := (s.hostRead a).2.2.burstRead (a + 4) (i + 1) n
      { x with data := (s.hostRead a).2.1 :: x.data }
    else ⟨(s.hostRead a).1, i, (s.hostRead a).2.1 :: List.replicate n 0, (s.hostRead a).2.2⟩ := by
  conv_lhs => unfold State.burstRead
  rw [State.shut_released h]
  rfl

/-- One word of a WRITE. -/
theorem State.burstWrite_cons (h : s.boot.released = true) (a i : Nat) (v : Word) (l : List Word) : s.burstWrite a i (v :: l) =
    if (s.hostWrite a v).1 = .ok then (s.hostWrite a v).2.burstWrite (a + 4) (i + 1) l
    else ⟨(s.hostWrite a v).1, i, [], (s.hostWrite a v).2⟩ := by
  conv_lhs => unfold State.burstWrite
  rw [State.shut_released h]
  rfl

/-- The words that are read with OK: the rest of the burst goes on after them. -/
theorem State.burstRead_ok {a k m : Nat} {w : List Word} {u : State} (h : s.hostReads a k = some (w, u)) (i : Nat) :
    s.burstRead a i (k + m) = let x := u.burstRead (a + 4 * k) (i + k) m; { x with data := w ++ x.data } := by
  induction k generalizing s a i w with
  | zero =>
    obtain ⟨rfl, rfl⟩ := Prod.mk.inj (Option.some.inj h)
    rw [Nat.zero_add]
    rfl
  | succ k ih =>
    unfold State.hostReads at h
    split at h
    next hRel =>
      rw [Nat.succ_add, State.burstRead_succ hRel]
      generalize s.hostRead a = r at h ⊢
      obtain ⟨st, v, t⟩ := r
      cases st with
      | ok =>
        obtain ⟨⟨w', u'⟩, hRest, hEq⟩ := Option.map_eq_some_iff.mp h
        obtain ⟨rfl, rfl⟩ := Prod.mk.inj hEq
        refine (if_pos rfl).trans ?_
        dsimp only
        rw [ih hRest, Nat.add_right_comm i 1 k, show a + 4 + 4 * k = a + 4 * (k + 1) by ring]
        rfl
      | _ => exact nomatch h
    next => exact nomatch h

theorem State.burstWrite_ok {a : Nat} {d : List Word} {u : State} (h : s.hostWrites a d = some u) (i : Nat) (l : List Word) :
    s.burstWrite a i (d ++ l) = u.burstWrite (a + 4 * d.length) (i + d.length) l := by
  induction d generalizing s a i with
  | nil =>
    obtain rfl := Option.some.inj h
    rfl
  | cons v d ih =>
    unfold State.hostWrites at h
    split at h
    next hRel =>
      rw [List.cons_append, State.burstWrite_cons hRel]
      generalize s.hostWrite a v = r at h ⊢
      obtain ⟨st, t⟩ := r
      cases st with
      | ok =>
        refine (if_pos rfl).trans ?_
        dsimp only
        rw [ih h, List.length_cons, Nat.add_right_comm i 1 d.length, show a + 4 + 4 * d.length = a + 4 * (d.length + 1) by ring]
        rfl
      | _ => exact nomatch h
    next => exact nomatch h

end

/-- Settles O49: a burst is cut where its first word fails; the words before it go one by one. -/
theorem burstsAccess : Obligations.BurstsAccess := by
  unfold Obligations.BurstsAccess
  intro s a len d crc hAnswers
  extract_lets q0 n bad turned
  have hBad : bad ↔ 64 ≤ len.toNat ∨ a.toNat % 4 ≠ 0 := or_congr_left (by omega)
  have hRange {e : Done} (h : e = (q0.turnAway false .range).done) : ∃ t, e = .next t ∧ turned t := by
    obtain ⟨i, hLess, hTo⟩ := s.turnAway_range
    exact ⟨_, h.trans hTo, i, hLess, rfl⟩
  refine ⟨fun hCrc => ?_, fun m hNot hCrc => hRange ?_, fun hLen hCrc => ?_⟩
  · have hRead : execRead 0x10 a len crc s = _ := State.frame_answers hAnswers hCrc
    rw [if_neg (not_not.mpr rfl)] at hRead
    have hAll (h : ¬ bad) : execRead 0x10 a len crc s = (q0.burstRead a.toNat 0 n).done :=
      hRead.trans (congrArg Answer.done (if_neg fun hIsBad => h (hBad.mpr hIsBad)))
    refine ⟨fun hIsBad => hRange (hRead.trans (congrArg Answer.done (if_pos (hBad.mp hIsBad)))), fun w u hNot hReads => ?_,
      fun i w u st v t hNot hi hReads hRel hFails hSt => ?_⟩
    · have hWords := State.burstRead_ok (m := 0) hReads 0
      refine (hAll hNot).trans ((congrArg Answer.done hWords).trans ?_)
      exact congrArg (fun l => Host.Outcome.next (u.respond .ok 0xFF l)) (List.append_nil w)
    · have hWords := State.burstRead_ok (m := n - 1 - i + 1) hReads 0
      rw [show i + (n - 1 - i + 1) = n by omega, State.burstRead_succ hRel, hFails, if_neg hSt, Nat.zero_add] at hWords
      exact (hAll hNot).trans (congrArg Answer.done hWords)
  · have hRead : execRead m a len crc s = _ := State.frame_answers hAnswers hCrc
    obtain ⟨-, -, -, hRel⟩ := hAnswers
    refine hRead.trans (congrArg Answer.done ((if_pos fun (h : m = 0x10) => hNot (h ▸ List.mem_cons_self)).trans ?_))
    exact congrArg (State.turnAway q0 false) (if_pos hRel)
  · have hWrite : execWrite a len d crc s = _ := (State.dataFrame_whole hLen).trans (State.frame_answers hAnswers hCrc)
    have hAll (h : ¬ bad) : execWrite a len d crc s = (q0.burstWrite a.toNat 0 d).done :=
      hWrite.trans (congrArg Answer.done (if_neg fun hIsBad => h (hBad.mpr hIsBad)))
    refine ⟨fun hIsBad => hRange (hWrite.trans (congrArg Answer.done (if_pos (hBad.mp hIsBad)))), fun u hNot hWrites => ?_,
      fun d1 v d2 u st t hNot hSplit hWrites hRel hFails hSt => ?_⟩
    · have hWords := State.burstWrite_ok hWrites 0 []
      rw [List.append_nil] at hWords
      exact (hAll hNot).trans (congrArg Answer.done hWords)
    · have hWords := State.burstWrite_ok hWrites 0 (v :: d2)
      rw [← hSplit, State.burstWrite_cons hRel, hFails, if_neg hSt, Nat.zero_add] at hWords
      exact (hAll hNot).trans (congrArg Answer.done hWords)

/-! ## QACK -/

section
variable {s : State} {i : Fin 64}

theorem State.descRead_sound (h : (s.que.q[i]).badEcc = 0) : s.descRead i = s := by
  unfold State.descRead
  rw [h]
  rfl

/-- A QACK of a queue that is not halted (R414). -/
theorem State.qack_live {k : Nat} (hEcc : (s.que.q[i]).badEcc = 0) (hHalt : (s.que.q[i]).halted = false) :
    s.qack i k = if k = 0 then (.ok, s) else if s.netOwn i then (.denied, s)
      else if (s.que.q[i]).ring.length < k then (.range, s) else (.ok, s.deliver i k) := by
  unfold State.qack
  rw [State.descRead_sound hEcc]
  dsimp only
  rw [hHalt]
  simp

/-- Judging the interrupt of a queue changes nothing else of that queue: a notice goes to another one (R421). -/
theorem State.settle_get (s : State) (i : Fin 64) : ((s.settle i).que.q[i]) = { s.que.q[i] with intWas := s.queInt i } := by
  have hQ : (vupd s.que.q i fun q => { q with intWas := s.queInt i })[i] = { s.que.q[i] with intWas := s.queInt i } :=
    vset_same _ _ _
  unfold State.settle
  dsimp only
  split
  next hTold =>
    have hOther : i ≠ Fin.ofNat 64 s.QUE_GLB_CFG_MSG_Q := by simpa using (Bool.and_eq_true_iff.mp hTold).2
    exact (vset_other _ _ _ _ hOther).trans hQ
  next => exact hQ

/-- What a delivery makes of its queue. -/
theorem State.deliver_get (s : State) (i : Fin 64) (k : Nat) : ∃ ecc was,
    (s.deliver i k).que.q[i] = { (s.que.q[i]).delivered k with badEcc := ecc, intWas := was } := by
  rw [State.deliver_eq, State.settle_get, State.setQ_get]
  exact ⟨_, _, rfl⟩

theorem State.deliver_frame (s : State) (i : Fin 64) (k : Nat) : s.deliver i k = { s with que := (s.deliver i k).que } := by
  rw [State.deliver_eq, State.settle_frame]
  rfl

/-- The one word of a QACK: K in its lower half. -/
theorem Word.fld_of_short (k : BitVec 16) : Word.fld (k.setWidth 32) 0 16 = k.toNat ∧ Word.fld (k.setWidth 32) 16 16 = 0 := by
  have hLess := k.isLt
  have hWord : (k.setWidth 32).toNat = k.toNat := by
    rw [BitVec.toNat_setWidth]
    omega
  unfold Word.fld
  rw [hWord, Nat.shiftRight_zero, Nat.shiftRight_eq_div_pow]
  exact ⟨Nat.mod_eq_of_lt hLess, by rw [Nat.div_eq_of_lt hLess, Nat.zero_mod]⟩

end

/-- Settles O50: with K in the lower half of the word and no broken descriptor the tests of a QACK come in the order stated. -/
theorem qackDelivers : Obligations.QackDelivers := by
  unfold Obligations.QackDelivers
  intro s i k crc hAnswers
  extract_lets a c q bytes
  intro hCrc hEcc hHalt
  obtain ⟨hLow, hHigh⟩ := Word.fld_of_short k
  have hAddr : a.toNat = i.val := (BitVec.toNat_ofNat _ _).trans (Nat.mod_eq_of_lt (by omega))
  have hQueue : Fin.ofNat 64 a.toNat = i := Fin.ext ((congrArg (· % 64) hAddr).trans (Nat.mod_eq_of_lt i.isLt))
  have hFrame : execQack a 0 [k.setWidth 32] crc s = _ := (State.dataFrame_whole rfl).trans (State.frame_answers hAnswers hCrc)
  let q0 : State := { s with resp := none }
  have hSound : ¬ ((0 : BitVec 16).toNat ≠ 0 ∨ 64 ≤ a.toNat ∨ Word.fld (k.setWidth 32) 16 16 ≠ 0) := by
    rw [hAddr, hHigh]
    have := i.isLt
    simp
  have hTo := hFrame.trans (congrArg Answer.done (if_neg hSound))
  change exec c s = Answer.done (let r := q0.qack (Fin.ofNat 64 a.toNat) (Word.fld (k.setWidth 32) 0 16); ⟨r.1, 0xFF, [], r.2⟩) at hTo
  rw [hQueue, hLow, State.qack_live (s := q0) hEcc hHalt] at hTo
  have hZero : k.toNat = 0 ↔ k = 0 := ⟨fun h => BitVec.eq_of_toNat_eq h, fun h => congrArg BitVec.toNat h⟩
  refine ⟨fun hNone hOwn => ?_, fun hSome hFits hOwn => ?_, fun hMore hOwn => ?_, fun hSome hFits hOwn => ?_⟩
  · rw [if_pos (hZero.mpr hNone)] at hTo
    exact hTo
  · rw [if_neg (mt hZero.mp hSome), if_pos (show q0.netOwn i = true from hOwn)] at hTo
    exact hTo
  · rw [if_neg (Nat.ne_of_gt (Nat.zero_lt_of_lt hMore)), if_neg (ne_true_of_eq_false (show q0.netOwn i = false from hOwn)),
      if_pos (show (q0.que.q[i]).ring.length < k.toNat from hMore)] at hTo
    exact hTo
  · rw [if_neg (mt hZero.mp hSome), if_neg (ne_true_of_eq_false (show q0.netOwn i = false from hOwn)),
      if_neg (show ¬ (q0.que.q[i]).ring.length < k.toNat from Nat.not_lt.mpr hFits)] at hTo
    obtain ⟨ecc, was, hGet⟩ := q0.deliver_get i k.toNat
    have hNext : exec c s = .next ((q0.deliver i k.toNat).respond .ok 0xFF []) := hTo
    have hFrame := congrArg (fun u : State => u.respond .ok 0xFF []) (q0.deliver_frame i k.toNat)
    exact ⟨_, hNext, hFrame, congrArg Queue.ring hGet, congrArg Queue.deliv hGet, congrArg Queue.credit hGet,
      congrArg Queue.rptr hGet, (congrArg Queue.staged hGet :), (congrArg Queue.drop hGet :), (congrArg Queue.nseq hGet :)⟩

end Sys2Proof.Machine
end

section
/-! PROOFS. The Yarder (R406, R409, R410): what it makes of a ring, and the queues that reports and notices leave alone. -/

namespace Sys2Proof.Machine

/-! ## Queues that no report and no notice goes to -/

theorem vupd_other {α : Type} {n : Nat} (v : Vector α n) (i j : Fin n) (f : α → α) (h : j ≠ i) : (vupd v i f)[j] = v[j] :=
  vset_other v i j _ h

/-- From `s` to `t` every queue but 17, the fault queue of FAB, MEM, QUE and CRZ, and that of the notices is as before. -/
structure State.Spares (s t : State) : Prop where
  spare : ∀ j : Fin 64, j ≠ 17 → s.QUE_GLB_CFG_MSG_Q ≠ j.val → t.que.q[j] = s.que.q[j]
  msgQ : t.QUE_GLB_CFG_MSG_Q = s.QUE_GLB_CFG_MSG_Q

section
variable {s t u : State}

theorem State.Spares.trans (h : s.Spares t) (k : t.Spares u) : s.Spares u :=
  ⟨fun j hj hm => (k.spare j hj (h.msgQ.trans_ne hm)).trans (h.spare j hj hm), k.msgQ.trans h.msgQ⟩

theorem State.Spares.of_que (hQue : t.que = s.que) (hMsg : t.QUE_GLB_CFG_MSG_Q = s.QUE_GLB_CFG_MSG_Q) : s.Spares t :=
  ⟨fun _ _ _ => by rw [hQue], hMsg⟩

theorem State.msgQ_lt (s : State) : s.QUE_GLB_CFG_MSG_Q < 64 := Nat.mod_lt _ (by decide)

/-- A notice goes to the queue of the notices. -/
theorem State.settle_other (s : State) {i j : Fin 64} (hi : j ≠ i) (hm : s.QUE_GLB_CFG_MSG_Q ≠ j.val) :
    (s.settle i).que.q[j] = s.que.q[j] := by
  have hMsg : j ≠ Fin.ofNat 64 s.QUE_GLB_CFG_MSG_Q := fun h =>
    hm ((Nat.mod_eq_of_lt s.msgQ_lt).symm.trans (congrArg Fin.val h).symm)
  have hQ : (vupd s.que.q i fun q => { q with intWas := s.queInt i })[j] = s.que.q[j] := vupd_other _ _ _ _ hi
  unfold State.settle
  dsimp only
  split
  · exact (vset_other _ _ _ _ hMsg).trans hQ
  · exact hQ

theorem State.offer_spares (s : State) {i : Fin 64} (src : Nat) (l : List Byte) (hi : i = 17) : s.Spares (s.offer i src l) := by
  subst hi
  refine ⟨fun j hj hm => ?_, by rw [State.offer_frame]; rfl⟩
  exact (State.settle_other (s.offerRaw 17 src l) hj hm).trans (vset_other _ _ _ _ hj)

theorem State.yieldBlaze_spares (s : State) {p : Page} (r : Report) (hp : faultQueue p = 17) : s.Spares (s.yieldBlaze p r) := by
  unfold State.yieldBlaze State.markRecord
  dsimp only
  rw [hp]
  split
  · split
    · exact ⟨fun j hj _ => vupd_other _ _ _ _ hj, rfl⟩
    · exact ⟨fun j hj _ => vupd_other _ _ _ _ hj, rfl⟩
  · exact .of_que rfl rfl

theorem State.fileReport_spares (s : State) {p : Page} (r : Report) (hp : faultQueue p = 17) : s.Spares (s.fileReport p r) := by
  have hStart : s.Spares (s.fltTriggers r.react) := .of_que rfl rfl
  have hBlaze := hStart.trans (State.yieldBlaze_spares (s.fltTriggers r.react) r hp)
  generalize hAt : (s.fltTriggers r.react).yieldBlaze p r = v at hBlaze
  have hFiled (f : FaultHdr → FaultHdr) : s.Spares (v.updHdr p f) := hBlaze.trans (.of_que rfl rfl)
  unfold State.fileReport
  rw [hAt]
  dsimp only
  split
  · exact (hFiled _).trans (State.offer_spares _ _ _ hp)
  · exact hFiled _

theorem State.react_spares (s : State) (p : Page) (b r : Nat) (aff : Drive → Bool) : s.Spares (s.react p b r aff) :=
  .of_que (State.react_que s p b r aff) (congrArg State.QUE_GLB_CFG_MSG_Q (State.react_quiet s p b r aff) :)

theorem State.report_spares (s : State) {p : Page} (b : Nat) (c : Copy) (m : Master) (hp : faultQueue p = 17) :
    s.Spares (s.report p b c m) := by
  unfold State.report
  split
  · exact .of_que rfl rfl
  · dsimp only
    refine State.Spares.trans ?_ (State.react_spares _ _ _ _ _)
    refine State.Spares.trans ?_ (State.fileReport_spares _ _ hp)
    split <;> exact .of_que rfl rfl

theorem State.updHdr_spares (s : State) (p : Page) (f : FaultHdr → FaultHdr) : s.Spares (s.updHdr p f) := .of_que rfl rfl

theorem State.event_spares (s : State) {p : Page} (b : Nat) (c : Copy) (hp : faultQueue p = 17) : s.Spares (s.event p b c) := by
  unfold State.event
  split
  · exact .of_que rfl rfl
  · split
    · exact State.updHdr_spares _ _ _
    · exact State.Spares.trans (State.updHdr_spares s p _ : s.Spares (s.flash p b)) (State.report_spares (s.flash p b) b c _ hp)

theorem State.cond_spares (s : State) {p : Page} (b : Nat) (c : Copy) (v : Bool) (hp : faultQueue p = 17) :
    s.Spares (s.cond p b c v) := by
  unfold State.cond
  split
  · exact .of_que rfl rfl
  · repeat' split
    · exact State.updHdr_spares _ _ _
    · exact State.updHdr_spares _ _ _
    · exact (State.updHdr_spares _ _ _).trans (State.updHdr_spares _ _ _)
    · exact State.updHdr_spares _ _ _
    · exact (State.updHdr_spares s p _).trans (State.report_spares _ b c _ hp)

theorem State.fabReport_spares (s : State) (b : Nat) (m : Master) (addr : Nat) (wr : Bool) : s.Spares (s.fabReport b m addr wr) := by
  unfold State.fabReport
  refine State.Spares.trans ?_ (State.react_spares _ _ _ _ _)
  refine State.Spares.trans ?_ (State.fileReport_spares _ _ rfl)
  exact (State.updHdr_spares s .fab _ : s.Spares (s.flash .fab b)).trans (State.updHdr_spares _ _ _)

/-- From `s` to `t` only queues have changed, besides what a report changes. -/
def State.OnlyQue (s t : State) : Prop := t.quiet = ({ s with que := t.que } : State).quiet

theorem State.OnlyQue.trans (h : s.OnlyQue t) (k : t.OnlyQue u) : s.OnlyQue u :=
  Eq.trans k (congrArg (fun q : State => { q with que := u.quiet.que }) h)

theorem State.OnlyQue.of_quiet (h : t.quiet = s.quiet) : s.OnlyQue t :=
  h.trans (congrArg (fun q : State => { s.quiet with que := q.que }) h.symm)

theorem State.settle_onlyQue (s : State) (i : Fin 64) : s.OnlyQue (s.settle i) :=
  congrArg State.quiet (State.settle_frame s i)

/-- The stall judged (R417): YARD_STALL goes live or dead, and STALL_Q may follow. -/
theorem State.judgeStall_cond (s : State) : ∃ st q v,
    s.judgeStall = ({ s with que := { s.que with stalled := st, stallQ := q } } : State).cond .que 2 .shared v := by
  unfold State.judgeStall
  repeat' split
  all_goals exact ⟨_, _, _, rfl⟩

theorem State.judgeStall_spares (s : State) : s.Spares s.judgeStall := by
  obtain ⟨st, q, v, hTo⟩ := s.judgeStall_cond
  rw [hTo]
  exact State.Spares.trans (t := { s with que := { s.que with stalled := st, stallQ := q } }) ⟨fun _ _ _ => rfl, rfl⟩
    (State.cond_spares _ 2 .shared v rfl)

theorem State.judgeStall_onlyQue (s : State) : s.OnlyQue s.judgeStall := by
  obtain ⟨st, q, v, hTo⟩ := s.judgeStall_cond
  rw [hTo]
  exact State.OnlyQue.trans (t := { s with que := { s.que with stalled := st, stallQ := q } }) rfl
    (.of_quiet (State.cond_quiet _ _ _ _ _))

theorem State.judgeStall_queue (s : State) (i : Fin 64) : (s.judgeStall.que.q[i]).quiet = (s.que.q[i]).quiet := by
  obtain ⟨st, q, v, hTo⟩ := s.judgeStall_cond
  rw [hTo]
  exact State.queue_of_quiet
    (State.cond_quiet ({ s with que := { s.que with stalled := st, stallQ := q } } : State) .que 2 .shared v) i

theorem State.judgeStall_stickyUp (s : State) : s.StickyUp s.judgeStall := by
  obtain ⟨st, q, v, hTo⟩ := s.judgeStall_cond
  rw [hTo]
  exact State.StickyUp.trans (State.StickyUp.of_flt (t := { s with que := { s.que with stalled := st, stallQ := q } }) rfl)
    (State.cond_stickyUp _ _ _ _ _)

end

/-! ## The bytes of a ring (R406) -/

section
variable {base size p : Nat}

/-- Four bytes at a multiple of four do not wrap. -/
theorem ring_four (hSize : size % 4 = 0) (hp : p % 4 = 0) (hPos : 0 < size) {j : Nat} (hj : j < 4) :
    (p + j) % size = p % size + j := by
  have hLess := Nat.mod_lt p hPos
  have hFour : p % size % 4 = 0 := by
    rw [Nat.mod_mod_of_dvd _ (Nat.dvd_of_mod_eq_zero hSize)]
    exact hp
  rw [Nat.add_mod, Nat.mod_eq_of_lt (a := j) (by omega)]
  exact Nat.mod_eq_of_lt (by omega)

theorem ring_ne {i k : Nat} (hik : i < k) (hk : k < size) : (p + i) % size ≠ (p + k) % size := fun h => by
  have hMod : i % size = k % size := Nat.ModEq.add_left_cancel' p h
  rw [Nat.mod_eq_of_lt (hik.trans hk), Nat.mod_eq_of_lt hk] at hMod
  omega

/-- The ring and the check bits that writing into it changes. -/
theorem State.ringPut_frame (s : State) (base size p : Nat) (l : List Byte) :
    ∃ m e, s.ringPut base size p l = { s with sram := m, badEcc := e } := by
  fun_induction State.ringPut s base size p l with
  | case1 s p a b c d l ih =>
    obtain ⟨m, e, h⟩ := ih
    exact ⟨m, e, h⟩
  | case2 l s p h => exact ⟨_, _, rfl⟩

/-- A place that no byte of the record comes to. -/
theorem State.ringPut_read_other (s : State) (l : List Byte) {c : Nat} (hSize : size % 4 = 0) (hp : p % 4 = 0) (hPos : 0 < size)
    (hc : ∀ k < l.length, c ≠ base + (p + k) % size) :
    Memory.read sramDefault (s.ringPut base size p l).sram c = Memory.read sramDefault s.sram c := by
  fun_induction State.ringPut s base size p l with
  | case1 s p b0 b1 b2 b3 l ih =>
    refine (ih (by omega) fun k hk => ?_).trans (Memory.read_writeBytes_other _ _ _ _ _ ?_)
    · rw [Nat.add_assoc]
      exact hc (4 + k) (by simp only [List.length_cons]; omega)
    · have hOut (j : Nat) (hj : j < 4) : c ≠ base + p % size + j := by
        rw [Nat.add_assoc, ← ring_four hSize hp hPos hj]
        exact hc j (by simp only [List.length_cons]; omega)
      have h0 := hOut 0 (by decide)
      have h1 := hOut 1 (by decide)
      have h2 := hOut 2 (by decide)
      have h3 := hOut 3 (by decide)
      simp only [List.length_cons, List.length_nil]
      omega
  | case2 l s p h => rfl

/-- What a record written into a ring gives back byte by byte (R406). -/
theorem State.ringPut_read_at (s : State) (l : List Byte) (hWf : Memory.wf sramDefault s.sram = true) (hSize : size % 4 = 0)
    (hp : p % 4 = 0) (hLen : l.length % 4 = 0) (hFits : l.length ≤ size) {k : Nat} (hk : k < l.length) :
    Memory.read sramDefault (s.ringPut base size p l).sram (base + (p + k) % size) = l[k] := by
  fun_induction State.ringPut s base size p l generalizing k with
  | case1 s p b0 b1 b2 b3 l ih =>
    have hPos : 0 < size := by simp only [List.length_cons] at hFits; omega
    simp only [List.length_cons] at hLen hFits hk
    by_cases hFirst : k < 4
    · refine (State.ringPut_read_other _ l hSize (by omega) hPos fun j hj h => ?_).trans ?_
      · rw [Nat.add_assoc] at h
        exact ring_ne (p := p) (by omega : k < 4 + j) (by omega) (Nat.add_left_cancel h)
      · rw [ring_four hSize hp hPos hFirst, ← Nat.add_assoc]
        refine (Memory.read_writeBytes_at hWf (show k < [b0, b1, b2, b3].length from hFirst)).trans ?_
        exact (List.getElem_append_left (bs := l) (show k < [b0, b1, b2, b3].length from hFirst)).symm
    · obtain ⟨j, rfl⟩ := Nat.exists_eq_add_of_le' (Nat.not_lt.mp hFirst)
      have hRest := ih (k := j) (Memory.writeBytes_wf _ _ _ _ hWf) (by omega) (by omega) (by omega) (by omega)
      rw [Nat.add_assoc, Nat.add_comm 4 j] at hRest
      exact hRest
  | case2 l s p h =>
    rcases l with _ | ⟨_, _ | ⟨_, _ | ⟨_, _ | ⟨d, l⟩⟩⟩⟩
    · exact absurd hk (Nat.not_lt_zero _)
    · exact absurd hLen (by simp only [List.length_cons, List.length_nil]; decide)
    · exact absurd hLen (by simp only [List.length_cons, List.length_nil]; decide)
    · exact absurd hLen (by simp only [List.length_cons, List.length_nil]; decide)
    · exact (h _ _ _ d l rfl).elim

theorem ringBytes_length (m : List Host.Cell) (base size p n : Nat) : (ringBytes m base size p n).length = n := by
  induction n generalizing p with
  | zero => rfl
  | succ n ih => exact congrArg (· + 1) (ih _)

theorem ringBytes_get (m : List Host.Cell) (base size p n k : Nat) (hk : k < (ringBytes m base size p n).length) :
    (ringBytes m base size p n)[k] = Memory.read sramDefault m (base + (p + k) % size) := by
  induction n generalizing p k with
  | zero => exact absurd hk (Nat.not_lt_zero _)
  | succ n ih =>
    cases k with
    | zero => rfl
    | succ k =>
      refine (ih (p + 1) k (Nat.lt_of_succ_lt_succ hk)).trans ?_
      rw [Nat.add_assoc, Nat.add_comm 1 k]

/-- A record written into a ring is what its bytes give back. -/
theorem State.ringPut_ringBytes (s : State) (l : List Byte) (hWf : Memory.wf sramDefault s.sram = true) (hSize : size % 4 = 0)
    (hp : p % 4 = 0) (hLen : l.length % 4 = 0) (hFits : l.length ≤ size) :
    ringBytes (s.ringPut base size p l).sram base size p l.length = l := by
  refine List.ext_getElem (ringBytes_length _ _ _ _ _) fun k hk hIn => ?_
  rw [ringBytes_get]
  exact s.ringPut_read_at l hWf hSize hp hLen hFits hIn

end

/-! ## One service (R409, R410) -/

theorem recBytes_length (i : Fin 64) (x : Staged) (gap : Bool) :
    (recBytes i x gap).length = recLen x.payload ∧ (recBytes i x gap).length % 4 = 0 := by
  have hPad : (pad8 x.payload).length % 8 = 0 := by
    unfold pad8
    rw [List.length_append, List.length_replicate]
    omega
  have hLen : (recBytes i x gap).length = 16 + (pad8 x.payload).length := by
    unfold recBytes
    simp only [List.length_append, leBytes_length]
  exact ⟨hLen, by omega⟩

section
variable {s : State} {i : Fin 64} {x : Staged}

/-- The record served next is at the head of its staging, and the Yarder can do something with it. -/
theorem State.yardNext_spec (h : s.yardNext = some (i, x)) :
    ∃ rest, (s.que.q[i]).staged = x :: rest ∧ s.yardAct i x ≠ .hold := by
  refine List.foldlRecOn (motive := fun best : Option (Fin 64 × Staged) => ∀ i x, best = some (i, x) →
    ∃ rest, (s.que.q[i]).staged = x :: rest ∧ s.yardAct i x ≠ .hold) (List.finRange 64) _
    (fun _ _ h => (Option.some_ne_none _ h.symm).elim) (fun best hBest j _ i x h => ?_) i x h
  split at h
  next => exact hBest i x h
  next y rest hStaged =>
    split at h
    next => exact hBest i x h
    next hCan =>
      have hHere : some (j, y) = some (i, x) → ∃ rest, (s.que.q[i]).staged = x :: rest ∧ s.yardAct i x ≠ .hold := fun hEq => by
        obtain ⟨rfl, rfl⟩ := Prod.mk.inj (Option.some.inj hEq)
        exact ⟨rest, hStaged, hCan⟩
      split at h
      next => exact hHere h
      next =>
        split at h
        next => exact hHere h
        next => exact hBest i x h

/-- What the Yarder can do with a record of a queue (R409). -/
theorem State.yardAct_cases (h : s.yardAct i x ≠ .hold) : (s.que.q[i]).halted = false ∧
    (recLen x.payload / 8 ≤ (s.que.q[i]).credit → s.yardAct i x = .write) ∧
    ((s.que.q[i]).credit < recLen x.payload / 8 → s.yardAct i x = .drop) := by
  unfold State.yardAct at h ⊢
  dsimp only at h ⊢
  cases hHalt : (s.que.q[i]).halted with
  | true =>
    rw [hHalt] at h
    exact absurd rfl h
  | false =>
    rw [hHalt] at h
    refine ⟨rfl, fun hFits => if_pos (decide_eq_true hFits), fun hShort => ?_⟩
    have hNot : ¬ decide (recLen x.payload / 8 ≤ (s.que.q[i]).credit) = true :=
      ne_true_of_eq_false (decide_eq_false (Nat.not_le.mpr hShort))
    rw [if_neg Bool.false_ne_true, if_neg hNot] at h ⊢
    split at h
    next hPolicy => exact if_pos hPolicy
    next => exact absurd rfl h

theorem execYarderWrite_serves (hOn : s.coreOn = true) (h : s.yardNext = some (i, x)) :
    execYarderWrite s = .next (s.yardServe i) := by
  unfold execYarderWrite
  rw [hOn, h]
  rfl

theorem execYarderWrite_idle (h : s.coreOn = false ∨ s.yardNext = none) : execYarderWrite s = .next s := by
  unfold execYarderWrite
  rcases h with h | h
  · rw [h]
    rfl
  · rw [h]
    exact ite_self _

/-- A service of a queue whose credits do not add up (R410). -/
theorem State.yardServe_broken (hEcc : (s.que.q[i]).badEcc = 0) (hHalt : (s.que.q[i]).halted = false)
    (hCredit : (s.que.q[i]).creditOk = false) :
    s.yardServe i = (s.setQ i { s.que.q[i] with halted := true }).event .que 0 .shared := by
  unfold State.yardServe
  rw [State.descRead_sound hEcc]
  dsimp only
  rw [hHalt, hCredit]
  rfl

/-- The head of a staging written, or dropped. -/
theorem State.yardServe_head {rest : List Staged} (hEcc : (s.que.q[i]).badEcc = 0) (hHalt : (s.que.q[i]).halted = false)
    (hCredit : (s.que.q[i]).creditOk = true) (hStaged : (s.que.q[i]).staged = x :: rest) :
    (s.yardAct i x = .write → s.yardServe i = ((s.ringWrite i x rest).settle i).judgeStall) ∧
    (s.yardAct i x = .drop → s.yardServe i =
      ((s.setQ i { (s.que.q[i]).dropOne with staged := rest, same := [] }).settle i).judgeStall) := by
  unfold State.yardServe
  rw [State.descRead_sound hEcc]
  dsimp only
  rw [hHalt, hCredit, hStaged]
  refine ⟨fun hAct => ?_, fun hAct => ?_⟩ <;> dsimp only <;> rw [hAct] <;> rfl

/-- After a service the queue's interrupt and the stall are judged; they offer records to two queues at most. -/
theorem State.yardDone (u : State) (i : Fin 64) : let t := (u.settle i).judgeStall
    u.OnlyQue t ∧ (t.que.q[i]).quiet = (u.que.q[i]).quiet ∧ u.StickyUp t ∧
      (i ≠ 17 → u.QUE_GLB_CFG_MSG_Q ≠ i.val → t.que.q[i] = { u.que.q[i] with intWas := u.queInt i }) := by
  intro t
  have hMsg : (u.settle i).QUE_GLB_CFG_MSG_Q = u.QUE_GLB_CFG_MSG_Q := by rw [State.settle_frame]; rfl
  refine ⟨(u.settle_onlyQue i).trans (u.settle i).judgeStall_onlyQue,
    ((u.settle i).judgeStall_queue i).trans (State.queue_of_quiet (u.settle_quiet i) i),
    (State.StickyUp.of_flt (u.settle_flt i)).trans (u.settle i).judgeStall_stickyUp, fun hi hm => ?_⟩
  exact ((u.settle i).judgeStall_spares.spare i hi (hMsg.trans_ne hm)).trans (u.settle_get i)

end

section
variable {s : State} {i : Fin 64} {x : Staged} {rest : List Staged}

theorem State.setQ_setQ (s : State) (i : Fin 64) (x y : Queue) : (s.setQ i x).setQ i y = s.setQ i y :=
  congrArg (fun v => { s with que := { s.que with q := v } }) (vset_vset _ _ _ _)

/-- A record that finds the bank of the Landing off (R359). -/
theorem State.ringWrite_off (hOff : s.bankOn 0 = false) : s.ringWrite i x rest =
    (s.setQ i { (s.que.q[i]).dropOne with staged := rest, same := [] }).fabReport 0 .yarder
      (0x10000000 + (s.que.q[i]).base + (s.que.q[i]).wptr) true := by
  unfold State.ringWrite
  rw [hOff]
  rfl

/-- A record that comes to its ring (R406, R409). -/
theorem State.ringWrite_on (hOn : s.bankOn 0 = true) : let q := s.que.q[i]
    let len := recLen x.payload
    let u := s.ringWrite i x rest
    (∃ c, u.que.q[i] = { q with
      staged := rest, same := [], ring := q.ring ++ [⟨len, s.clk.cyc⟩], wptr := (q.wptr + len) % q.size
      credit := q.credit - len / 8, gap := false, nextSeq := x.seq + 1, badEcc := c }) ∧
    u.sram = (s.ringPut q.base q.size q.wptr (recBytes i x (q.gap || decide (x.seq ≠ q.nextSeq)))).sram ∧
    u = { s with que := u.que, sram := u.sram, badEcc := u.badEcc } := by
  intro q len u
  obtain ⟨m, e, hPut⟩ := s.ringPut_frame q.base q.size q.wptr (recBytes i x (q.gap || decide (x.seq ≠ q.nextSeq)))
  have hWrite : u = ((s.ringPut q.base q.size q.wptr (recBytes i x (q.gap || decide (x.seq ≠ q.nextSeq)))).setQ i { q with
      staged := rest, same := [], ring := q.ring ++ [⟨len, s.clk.cyc⟩], wptr := (q.wptr + len) % q.size
      credit := q.credit - len / 8, gap := false, nextSeq := x.seq + 1 }).descWrite i := if_neg (by rw [hOn]; decide)
  rw [hPut] at hWrite ⊢
  unfold State.descWrite at hWrite
  rw [State.setQ_get, State.setQ_setQ] at hWrite
  rw [hWrite]
  exact ⟨⟨_, State.setQ_get _ _ _⟩, rfl, rfl⟩

end

/-- Settles O53: the queue served next has a head that is written or dropped; what follows it offers records, and that to two queues
at most. -/
theorem yarderServes : Obligations.YarderServes := by
  unfold Obligations.YarderServes
  intro s
  refine ⟨fun hIdle => ?_, fun i x hOn hNext hEcc => ?_⟩
  · exact execYarderWrite_idle hIdle
  · obtain ⟨rest, hStaged, hCan⟩ := State.yardNext_spec hNext
    obtain ⟨hHalt, hWrite, hDrop⟩ := State.yardAct_cases hCan
    have hTo : exec .yarderWrite s = _ := execYarderWrite_serves hOn hNext
    extract_lets q len gap
    refine ⟨fun hCredit hPower => ?_, fun hCredit hFits hOff => ?_, fun hCredit hFits hBank => ?_, fun hCredit hShort => ?_⟩
    · rw [State.yardServe_broken hEcc hHalt hCredit] at hTo
      have hQueue := State.queue_of_quiet (State.event_quiet (s.setQ i { q with halted := true }) .que 0 .shared) i
      rw [State.setQ_get] at hQueue
      exact ⟨_, hTo, (congrArg Queue.halted hQueue :),
        State.event_sticky _ _ _ _ (State.reports_que (Bool.and_eq_true_iff.mp hPower).1 0) (by decide), (congrArg Queue.ring hQueue :)⟩
    · rw [(State.yardServe_head hEcc hHalt hCredit hStaged).1 (hWrite hFits)] at hTo
      rw [State.ringWrite_off hOff] at hTo
      have hGet := s.setQ_get i { q.dropOne with staged := rest, same := [] }
      generalize hPut : s.setQ i { q.dropOne with staged := rest, same := [] } = u at hTo hGet
      have hFirst : s.OnlyQue u := by rw [← hPut]; exact rfl
      have hMsg : u.QUE_GLB_CFG_MSG_Q = s.QUE_GLB_CFG_MSG_Q := by rw [← hPut]; rfl
      have hReport := u.fabReport_quiet 0 .yarder (0x10000000 + q.base + q.wptr) true
      have hSticky := u.fabReport_sticky 0 .yarder (0x10000000 + q.base + q.wptr) true (by decide)
      have hLeft := u.fabReport_spares 0 .yarder (0x10000000 + q.base + q.wptr) true
      generalize u.fabReport 0 .yarder (0x10000000 + q.base + q.wptr) true = v at hTo hReport hSticky hLeft
      obtain ⟨hOnly, hQueue, hUp, hSpare⟩ := v.yardDone i
      have hSame := hQueue.trans (State.queue_of_quiet hReport i)
      rw [hGet] at hSame
      refine ⟨_, hTo, (hFirst.trans (.of_quiet hReport)).trans hOnly, (congrArg Queue.ring hSame :), (congrArg Queue.credit hSame :),
        hUp _ _ hSticky, fun hi hm => ?_⟩
      rw [hSpare hi ((hLeft.msgQ.trans hMsg).trans_ne hm), hLeft.spare i hi (hMsg.trans_ne hm), hGet, hStaged]
      exact ⟨rfl, rfl⟩
    · rw [(State.yardServe_head hEcc hHalt hCredit hStaged).1 (hWrite hFits)] at hTo
      obtain ⟨⟨c, hGet⟩, hSram, hFrame⟩ := State.ringWrite_on (s := s) (i := i) (x := x) (rest := rest) hBank
      generalize s.ringWrite i x rest = u at hTo hGet hSram hFrame
      have hMsg : u.QUE_GLB_CFG_MSG_Q = s.QUE_GLB_CFG_MSG_Q := by rw [hFrame]; rfl
      obtain ⟨hOnly, hQueue, -, hSpare⟩ := u.yardDone i
      generalize (u.settle i).judgeStall = t at hTo hOnly hQueue hSpare
      have hMem : t.sram = u.sram := (congrArg State.sram hOnly :)
      have hBits : t.badEcc = u.badEcc := (congrArg State.badEcc hOnly :)
      rw [hGet] at hQueue hSpare
      refine ⟨_, hTo, ?_, (congrArg Queue.ring hQueue :), (congrArg Queue.credit hQueue :), (congrArg Queue.wptr hQueue :),
        (congrArg Queue.deliv hQueue :), fun hi hm => ?_, fun hWf hSize hPtr hRoom => ?_⟩
      · rw [hMem, hBits]
        exact Eq.trans hOnly (congrArg (fun v : State => State.quiet { v with que := t.que }) hFrame)
      · rw [hSpare hi (hMsg.trans_ne hm), hStaged]
        rfl
      · obtain ⟨hLen, hFour⟩ := recBytes_length i x gap
        have hBytes := s.ringPut_ringBytes (base := q.base) (recBytes i x gap) hWf hSize hPtr hFour (hLen.trans_le hRoom)
        rw [hLen] at hBytes
        rw [hMem, hSram]
        exact hBytes
    · rw [(State.yardServe_head hEcc hHalt hCredit hStaged).2 (hDrop hShort)] at hTo
      have hGet := s.setQ_get i { q.dropOne with staged := rest, same := [] }
      generalize hPut : s.setQ i { q.dropOne with staged := rest, same := [] } = u at hTo hGet
      obtain ⟨hOnly, hQueue, -, hSpare⟩ := u.yardDone i
      have hFirst : s.OnlyQue u := by rw [← hPut]; exact rfl
      rw [hGet] at hQueue hSpare
      have hMsg : u.QUE_GLB_CFG_MSG_Q = s.QUE_GLB_CFG_MSG_Q := by rw [← hPut]; rfl
      refine ⟨_, hTo, hFirst.trans hOnly, (congrArg Queue.ring hQueue :), (congrArg Queue.credit hQueue :), fun hi hm => ?_⟩
      rw [hSpare hi (hMsg.trans_ne hm), hStaged]
      exact ⟨rfl, rfl⟩

end Sys2Proof.Machine
end

section
/-! PROOFS. Flush, stall, age, notices and interrupts of the queues (R405, R410, R411, R417, R420, R421). -/

namespace Sys2Proof.Machine

/-! ## Notices (R421) -/

section
variable {s : State} {i : Fin 64}

/-- A notice goes out when the interrupt of a queue of ROUTE 8 rises, but to the queue itself. -/
def State.noticed (s : State) (i : Fin 64) : Prop :=
  s.queInt i = true ∧ (s.que.q[i]).intWas = false ∧ s.QUE_CFG_ROUTE i.val = 8 ∧ i ≠ Fin.ofNat 64 s.QUE_GLB_CFG_MSG_Q

/-- Queue `i` with its interrupt judged. -/
def State.judgedInt (s : State) (i : Fin 64) : State :=
  { s with que := { s.que with q := vupd s.que.q i fun q => { q with intWas := s.queInt i } } }

theorem State.settle_notice (h : s.noticed i) :
    s.settle i = (s.judgedInt i).offerRaw (Fin.ofNat 64 s.QUE_GLB_CFG_MSG_Q) 12 (s.noticeBytes i) := by
  obtain ⟨hInt, hWas, hRoute, hOther⟩ := h
  unfold State.settle
  dsimp only
  rw [hInt, hWas, hRoute]
  exact (if_pos (by simpa using hOther)).trans (by unfold State.judgedInt; rw [hInt])

theorem State.settle_quietly (h : ¬ s.noticed i) : s.settle i = s.judgedInt i := by
  unfold State.settle
  refine if_neg fun hTold => h ?_
  simpa [State.noticed, and_assoc] using hTold

theorem State.judgedInt_get (j : Fin 64) : ((s.judgedInt i).que.q[j]).nseq = (s.que.q[j]).nseq ∧
    ((s.judgedInt i).que.q[j]).staged = (s.que.q[j]).staged := by
  by_cases hj : j = i
  · subst hj
    have hGet : (s.judgedInt j).que.q[j] = { s.que.q[j] with intWas := s.queInt j } := vset_same _ _ _
    rw [hGet]
    exact ⟨rfl, rfl⟩
  · have hGet : (s.judgedInt i).que.q[j] = s.que.q[j] := vupd_other _ _ _ _ hj
    rw [hGet]
    exact ⟨rfl, rfl⟩

end

theorem noticesOffered : Parts.NoticesOffered := by
  unfold Parts.NoticesOffered
  intro s i
  refine ⟨fun hInt hWas hRoute hOther => ?_, fun hNone j => ?_, congrArg Queue.intWas (s.settle_get i)⟩
  · rw [State.settle_notice ⟨hInt, hWas, hRoute, hOther⟩, State.offerRaw_nseq, (State.judgedInt_get _).1]
  · have hQuietly : ¬ s.noticed i := fun ⟨hInt, hWas, hRoute, hOther⟩ => by
      rcases hNone with h | h | h | h
      · exact Bool.false_ne_true (h.symm.trans hInt)
      · exact Bool.false_ne_true (hWas.symm.trans h)
      · exact h hRoute
      · exact hOther h
    rw [State.settle_quietly hQuietly]
    exact State.judgedInt_get j

/-! ## Interrupts and their pads (R420) -/

theorem foldl_bput_get {w : Nat} (f : Nat → Bool) (n k : Nat) (hk : k < w) :
    ((List.range n).foldl (fun (m : BitVec w) i => bput m i (f i)) 0).getLsbD k = (decide (k < n) && f k) := by
  induction n with
  | zero => simp
  | succ n ih =>
    rw [List.range_succ, List.foldl_append]
    by_cases h : k = n
    · subst h
      rw [List.foldl_cons, List.foldl_nil, bput_get _ _ _ hk]
      simp
    · rw [List.foldl_cons, List.foldl_nil, bput_get_other _ _ _ _ h, ih]
      have hLess : k < n ↔ k < n + 1 := by omega
      simp only [hLess]

theorem State.queAged_iff {s : State} {i : Fin 64} : s.queAged i = true ↔ s.QUE_CTRL_AGE_US i.val ≠ 0 ∧
    ∃ r l, (s.que.q[i]).ring = r :: l ∧ 400 * s.QUE_CTRL_AGE_US i.val ≤ s.clk.cyc - r.cyc := by
  unfold State.queAged
  cases hRing : (s.que.q[i]).ring with
  | nil => simp
  | cons r l =>
    have hUs : usCyc (s.QUE_CTRL_AGE_US i.val) = 400 * s.QUE_CTRL_AGE_US i.val := rfl
    simp only [Bool.and_eq_true, decide_eq_true_eq, hUs, List.cons.injEq]
    exact and_congr_right fun _ => ⟨fun h => ⟨r, l, ⟨rfl, rfl⟩, h⟩, fun ⟨_, _, ⟨rfl, rfl⟩, h⟩ => h⟩

/-- QUE_IRQ_STAT is a register of its own, none of whose bits are stored. -/
theorem irqStat_row : ∃ row, lookup .que (pageOff .que (Page.base .que + 0x44)) = some (some (row, 0)) ∧ row.off = 0x44 ∧
    row.rw ||| row.lk = 0 := by
  have hFacts : (lookup .que (pageOff .que (Page.base .que + 0x44))).map (fun o => o.map fun x => (x.1.off, x.1.rw ||| x.1.lk, x.2)) =
      some (some (0x44, 0, 0)) := by decide +kernel
  obtain ⟨o, hLook, hSome⟩ := Option.map_eq_some_iff.mp hFacts
  obtain ⟨⟨row, k⟩, rfl, hEq⟩ := Option.map_eq_some_iff.mp hSome
  obtain ⟨hOff, hMask, hInst⟩ : row.off = 0x44 ∧ row.rw ||| row.lk = 0 ∧ k = 0 := by simpa using hEq
  subst hInst
  exact ⟨row, hLook, hOff, hMask⟩

theorem queueInterrupts : Parts.QueueInterrupts := by
  unfold Parts.QueueInterrupts
  intro s
  refine ⟨fun i => ⟨?_, ?_⟩, fun hHeld n hn => ?_, fun hOn hPar => ?_⟩
  · unfold State.quePend State.queThr
    rw [Bool.and_eq_true, Bool.or_eq_true, decide_eq_true_eq, State.queAged_iff]
  · simp [State.queInt]
  · have hPads : s.irqPads = (List.range 8).foldl (fun m n => bput m n (s.boot.released && s.irqLine n)) 0 :=
      if_neg (ne_true_of_eq_false hHeld)
    rw [hPads, foldl_bput_get _ _ _ hn]
    simp [hn, State.irqLine]
  · obtain ⟨row, hRow, hOff, hMask⟩ := irqStat_row
    have hRead := State.hostRead_row (t := s) (p := .que) (w := Page.base .que + 0x44) (by decide) (by decide) hOn hRow rfl
    have hPlain : readsAside .que row.off = false := by rw [hOff]; rfl
    have hKept : Page.base .que + 0x44 ∉ s.badPar := fun h => by simp [h] at hPar
    rw [State.parityRead_sound hKept, State.regRead_plain _ _ _ hPlain] at hRead
    rw [hRead]
    have hLive : s.readLive .que row.off 0 = s.irqPads.setWidth 32 := by
      rw [hOff]
      have hLess := s.irqPads.isLt
      refine BitVec.eq_of_toNat_eq ?_
      change (Word.put 0 8 s.irqPads.toNat).toNat = _
      simp only [Word.put, BitVec.toNat_ofNat, BitVec.toNat_setWidth, Nat.shiftLeft_zero]
      omega
    have hStored : s.storedWord .que row (pageOff .que (Page.base .que + 0x44)) (Page.base .que + 0x44) = 0 := by
      unfold State.storedWord
      rw [hMask]
      exact BitVec.and_zero
    rw [State.regWord, hLive, hStored]
    exact congrArg (fun v => (Status.ok, v, s)) BitVec.or_zero

/-! ## The stall (R417) -/

section
variable {s : State} {i : Fin 64}

/-- A source that is not there clears its bit, and nothing else. -/
theorem State.cond_clears (s : State) (p : Page) (b : Nat) (c : Copy) :
    s.cond p b c false = { s with flt := (s.cond p b c false).flt } := by
  unfold State.cond
  split
  · rfl
  · rfl

theorem State.oldestStaged_spec {i : Fin 64} {x : Staged} (h : s.oldestStaged = some (i, x)) : (s.que.q[i]).staged.head? = some x := by
  refine List.foldlRecOn (motive := fun best : Option (Fin 64 × Staged) => ∀ i x, best = some (i, x) →
    (s.que.q[i]).staged.head? = some x) (List.finRange 64) _ (fun _ _ h => (Option.some_ne_none _ h.symm).elim)
    (fun best hBest j _ i x h => ?_) i x h
  split at h
  next => exact hBest i x h
  next y rest hStaged =>
    have hHere : some (j, y) = some (i, x) → (s.que.q[i]).staged.head? = some x := fun hEq => by
      obtain ⟨rfl, rfl⟩ := Prod.mk.inj (Option.some.inj hEq)
      rw [hStaged]
      rfl
    split at h
    next => exact hHere h
    next =>
      split at h
      next => exact hHere h
      next => exact hBest i x h

/-- No record at the head of a staging is stale (R417). -/
def State.FreshHeads (s : State) : Prop := ∀ (j : Fin 64) x, (s.que.q[j]).staged.head? = some x → s.isStale x = false

/-- Without a stale record at the head of a staging, YARD_STALL is dead. -/
theorem State.judgeStall_fresh (h : s.FreshHeads) (i : Fin 64) :
    s.judgeStall.que.q[i] = s.que.q[i] := by
  have hClear : s.judgeStall = ({ s with que := { s.que with stalled := false } } : State).cond .que 2 .shared false := by
    unfold State.judgeStall
    split
    next j x hOldest => exact if_neg (ne_true_of_eq_false (h j x (State.oldestStaged_spec hOldest)))
    next => rfl
  rw [hClear, State.cond_clears]

theorem State.judgeStall_stale {i : Fin 64} {x : Staged} (h : s.oldestStaged = some (i, x)) (hStale : s.isStale x = true) :
    s.judgeStall = ({ s with que := { s.que with stalled := true, stallQ := i.val } } : State).cond .que 2 .shared true := by
  unfold State.judgeStall
  rw [h]
  exact if_pos hStale

/-- A record that enters a staging comes to its head, or leaves the head as it is. -/
theorem Queue.enter_head (q : Queue) (x : Staged) :
    (q.enter x).staged.head? = some x ∨ (q.enter x).staged.head? = q.staged.head? := by
  have hCut (l : List Staged) (h : ¬ l.length ≤ 2) : l.dropLast.head? = l.head? := by
    rcases l with _ | ⟨a, _ | ⟨b, l⟩⟩
    · rfl
    · exact absurd (by simp) h
    · rfl
  have hLine : (q.enter x).staged.head? =
      ((q.staged.takeWhile fun y => decide (y.seq < x.seq)) ++ x :: q.staged.dropWhile fun y => decide (y.seq < x.seq)).head? := by
    unfold Queue.enter
    dsimp only
    split
    next => rfl
    next h => exact hCut _ h
  rw [hLine]
  cases q.staged with
  | nil => exact .inl rfl
  | cons a l =>
    by_cases h : a.seq < x.seq
    · exact .inr (by simp [h])
    · exact .inl (by simp [h])

/-- The head of a staging after an offer: the head before, by its cycle, or the record offered. -/
theorem Queue.offered_head {q : Queue} {src t : Nat} {x y : Staged} (hx : x.cyc = t)
    (h : (((q.number src t).2.enter x).staged.head? = some y) ∨ (((q.number src t).2.dropOne).staged.head? = some y)) :
    y.cyc = t ∨ ∃ z, q.staged.head? = some z ∧ y.cyc = z.cyc := by
  have hNumbered : (q.number src t).2.staged.head? = some y → ∃ z, q.staged.head? = some z ∧ y.cyc = z.cyc := fun h => by
    unfold Queue.number at h
    dsimp only at h
    rw [List.head?_map] at h
    obtain ⟨z, hz, hEq⟩ := Option.map_eq_some_iff.mp h
    refine ⟨z, hz, ?_⟩
    rw [← hEq, apply_ite Staged.cyc]
    exact ite_self _
  rcases h with h | h
  · rcases (q.number src t).2.enter_head x with hNew | hOld
    · rw [hNew] at h
      exact .inl (Option.some.inj h ▸ hx)
    · exact .inr (hNumbered (hOld ▸ h))
  · exact .inr (hNumbered h)

theorem State.offerRaw_fresh (h : s.FreshHeads) (m : Fin 64) (src : Nat) (l : List Byte) : (s.offerRaw m src l).FreshHeads := by
  intro j y hy
  have hNow : s.isStale ⟨0, src, l, s.clk.cyc, 0⟩ = false := by
    unfold State.isStale
    simp
  by_cases hj : j = m
  · subst hj
    have hGet : ((s.offerRaw j src l).que.q[j]) = _ := vset_same _ _ _
    rw [hGet] at hy
    have hHead := Queue.offered_head (q := s.que.q[j]) (src := src) (t := s.clk.cyc) (y := y)
      (x := ⟨((s.que.q[j]).number src s.clk.cyc).1, src, l, s.clk.cyc, s.que.offers⟩) rfl (by
        split at hy
        · exact .inr hy
        · exact .inl hy)
    rcases hHead with hCyc | ⟨z, hz, hCyc⟩
    · exact (congrArg (fun c => s.isStale ⟨0, src, l, c, 0⟩) hCyc :).trans hNow
    · exact (congrArg (fun c => s.isStale ⟨0, src, l, c, 0⟩) hCyc :).trans (h j z hz)
  · have hGet : ((s.offerRaw m src l).que.q[j]) = s.que.q[j] := vset_other _ _ _ _ hj
    rw [hGet] at hy
    exact h j y hy

theorem State.settle_fresh (h : s.FreshHeads) (i : Fin 64) : (s.settle i).FreshHeads := by
  have hJudged : (s.judgedInt i).FreshHeads := fun j y hy => h j y ((congrArg List.head? (State.judgedInt_get j).2).symm.trans hy)
  by_cases hTold : s.noticed i
  · rw [State.settle_notice hTold]
    exact State.offerRaw_fresh hJudged _ _ _
  · rw [State.settle_quietly hTold]
    exact hJudged

/-! ## Flush (R405, R410, R411) -/

/-- Queue `q` flushed to the ring `base`, `size`, but for its descriptor (R405, R410, R411). -/
def Queue.flushed (q : Queue) (base size : Nat) : Queue :=
  { q with
    base := base, size := size, credit := size / 8, ring := [], staged := [], same := [], rptr := 0, wptr := 0
    drop := (q.drop + q.held) % 2 ^ 32
    dropEv := q.dropEv || decide (q.held ≠ 0)
    gap := q.gap || decide (q.held ≠ 0) }

/-- Two states whose rings lie alike judge a ring alike (R405). -/
theorem State.ringValid_congr {t : State} (hEn : ∀ j, t.queEn j = s.queEn j)
    (hRings : ∀ j : Fin 64, (t.que.q[j]).base = (s.que.q[j]).base ∧ (t.que.q[j]).size = (s.que.q[j]).size) (i : Fin 64) :
    t.ringValid i = s.ringValid i := by
  have hShape (j : Fin 64) : (t.que.q[j]).ringShape = (s.que.q[j]).ringShape := by
    unfold Queue.ringShape
    rw [(hRings j).1, (hRings j).2]
  have hOverlaps (j k : Fin 64) : (t.que.q[j]).overlaps t.que.q[k] = (s.que.q[j]).overlaps s.que.q[k] := by
    unfold Queue.overlaps
    rw [(hRings j).1, (hRings j).2, (hRings k).1, (hRings k).2]
  unfold State.ringValid
  simp only [hShape, hOverlaps, hEn]

/-- The queues flushed, before RING_CFG, the descriptor, the interrupt and the stall are judged. -/
def State.flushed (s : State) (i : Fin 64) : State :=
  let q := (s.que.q[i]).flushed (s.QUE_BASE_BASE i.val) (s.QUE_SIZE_SIZE i.val)
  s.setQ i { q with halted := q.halted && !(s.setQ i q).ringValid i }

theorem State.flush_eq (s : State) (i : Fin 64) :
    s.flush i = ((((s.flushed i).ringCfg).descWrite i).settle i).judgeStall := by
  have hHalt (q : Queue) (c : Bool) : (if c then (s.setQ i q).setQ i { q with halted := false } else s.setQ i q) =
      s.setQ i { q with halted := q.halted && !c } := by
    cases c with
    | true =>
      rw [if_pos rfl, State.setQ_setQ, Bool.not_true, Bool.and_false]
    | false =>
      rw [if_neg Bool.false_ne_true, Bool.not_false, Bool.and_true]
  exact congrArg (fun v : State => ((v.ringCfg.descWrite i).settle i).judgeStall) (hHalt _ _)

/-- A step that leaves the lie of every ring. -/
def State.SameLie (s t : State) : Prop := (∀ j, t.queEn j = s.queEn j) ∧
  ∀ j : Fin 64, (t.que.q[j]).base = (s.que.q[j]).base ∧ (t.que.q[j]).size = (s.que.q[j]).size

theorem State.SameLie.trans {t u : State} (h : s.SameLie t) (k : t.SameLie u) : s.SameLie u :=
  ⟨fun j => (k.1 j).trans (h.1 j), fun j => ⟨(k.2 j).1.trans (h.2 j).1, (k.2 j).2.trans (h.2 j).2⟩⟩

theorem State.SameLie.of_queues {t : State} (hOnly : s.OnlyQue t) (h : ∀ j : Fin 64, (t.que.q[j]).quiet = (s.que.q[j]).quiet) :
    s.SameLie t :=
  ⟨fun j => (congrArg (fun u : State => u.queEn j) hOnly :),
    fun j => ⟨(congrArg Queue.base (h j) :), (congrArg Queue.size (h j) :)⟩⟩

theorem State.SameLie.of_quiet {t : State} (h : t.quiet = s.quiet) : s.SameLie t :=
  .of_queues (.of_quiet h) fun j => State.queue_of_quiet h j

theorem State.descWrite_sameLie (s : State) (i : Fin 64) : s.SameLie (s.descWrite i) := by
  refine ⟨fun _ => rfl, fun j => ?_⟩
  by_cases hj : j = i
  · subst hj
    have hGet : (s.descWrite j).que.q[j] = { s.que.q[j] with badEcc := s.chkInv .que 1 } := State.setQ_get _ _ _
    rw [hGet]
    exact ⟨rfl, rfl⟩
  · have hGet : (s.descWrite i).que.q[j] = s.que.q[j] := State.setQ_get_other _ _ _ _ hj
    rw [hGet]
    exact ⟨rfl, rfl⟩

theorem State.SameLie.ringValid {t : State} (h : s.SameLie t) (i : Fin 64) : t.ringValid i = s.ringValid i :=
  State.ringValid_congr h.1 h.2 i

theorem State.SameLie.ringBad {t : State} (h : s.SameLie t) (i : Fin 64) : t.ringBad i = s.ringBad i := by
  unfold State.ringBad
  rw [h.1, h.ringValid]

theorem State.flushed_get (s : State) (i : Fin 64) :
    let q := (s.que.q[i]).flushed (s.QUE_BASE_BASE i.val) (s.QUE_SIZE_SIZE i.val)
    (s.flushed i).que.q[i] = { q with halted := q.halted && !(s.flushed i).ringValid i } := by
  intro q
  have hGet : (s.flushed i).que.q[i] = { q with halted := q.halted && !(s.setQ i q).ringValid i } := State.setQ_get _ _ _
  have hLie : (s.setQ i q).SameLie (s.flushed i) := by
    refine ⟨fun _ => rfl, fun j => ?_⟩
    by_cases hj : j = i
    · subst hj
      rw [hGet, State.setQ_get]
      exact ⟨rfl, rfl⟩
    · have hSame : (s.flushed i).que.q[j] = (s.setQ i q).que.q[j] :=
        (State.setQ_get_other _ _ _ _ hj).trans (State.setQ_get_other _ _ _ _ hj).symm
      rw [hSame]
      exact ⟨rfl, rfl⟩
  rw [hGet, hLie.ringValid]

/-- A flush, from the queue emptied on, leaves where the rings lie, and of the queue what offers do not change. -/
theorem State.flush_spec (s : State) (i : Fin 64) : (s.flushed i).OnlyQue (s.flush i) ∧ (s.flushed i).SameLie (s.flush i) ∧
    ∃ c, ((s.flush i).que.q[i]).quiet = { (s.flushed i).que.q[i] with badEcc := c }.quiet := by
  rw [State.flush_eq]
  generalize s.flushed i = u
  have hCfg : u.ringCfg.quiet = u.quiet := State.cond_quiet _ _ _ _ _
  have hDone := (u.ringCfg.descWrite i).yardDone i
  obtain ⟨hOnly, hQueue, -, -⟩ := hDone
  have hSettle : (u.ringCfg.descWrite i).SameLie ((u.ringCfg.descWrite i).settle i) :=
    .of_quiet (State.settle_quiet _ i)
  have hStall : ((u.ringCfg.descWrite i).settle i).SameLie (((u.ringCfg.descWrite i).settle i).judgeStall) :=
    .of_queues (State.judgeStall_onlyQue _) fun j => State.judgeStall_queue _ j
  refine ⟨?_, (((State.SameLie.of_quiet hCfg).trans (State.descWrite_sameLie _ i)).trans hSettle).trans hStall,
    u.ringCfg.chkInv .que 1, ?_⟩
  · have hDesc : u.ringCfg.OnlyQue (u.ringCfg.descWrite i) := rfl
    exact ((State.OnlyQue.of_quiet hCfg).trans hDesc).trans hOnly
  · have hGet : (u.ringCfg.descWrite i).que.q[i] = { u.ringCfg.que.q[i] with badEcc := u.ringCfg.chkInv .que 1 } := State.setQ_get _ _ _
    rw [hQueue, hGet]
    exact congrArg (fun q : Queue => { q with badEcc := u.ringCfg.chkInv .que 1 }) (State.queue_of_quiet hCfg i)

/-- A flush that leaves every ring good, no record being stale: only the queue's own interrupt offers a record. -/
theorem State.flush_fresh (hRings : ∀ j, (s.flush i).ringBad j = false) (hFresh : s.FreshHeads) :
    ∃ c w, (s.flush i).que.q[i] = { (s.flushed i).que.q[i] with badEcc := c, intWas := w } := by
  obtain ⟨-, hLie, -⟩ := s.flush_spec i
  have hBad : ((List.finRange 64).any fun j => (s.flushed i).ringBad j) = false :=
    List.any_eq_false.mpr fun j _ => ne_true_of_eq_false ((hLie.ringBad j).symm.trans (hRings j))
  have hCfg : (s.flushed i).ringCfg = { s.flushed i with flt := ((s.flushed i).ringCfg).flt } := by
    unfold State.ringCfg
    rw [hBad]
    exact State.cond_clears _ _ _ _
  have hHeads : ((s.flushed i).ringCfg.descWrite i).FreshHeads := by
    rw [hCfg]
    intro j y hy
    by_cases hj : j = i
    · subst hj
      have hEmpty : ((({ s.flushed j with flt := ((s.flushed j).ringCfg).flt } : State).descWrite j).que.q[j]).staged = [] := by
        unfold State.descWrite
        rw [State.setQ_get]
        exact congrArg Queue.staged (State.flushed_get s j)
      rw [hEmpty] at hy
      exact (Option.some_ne_none _ hy.symm).elim
    · have hSame : (({ s.flushed i with flt := ((s.flushed i).ringCfg).flt } : State).descWrite i).que.q[j] = s.que.q[j] :=
        (State.setQ_get_other _ _ _ _ hj).trans (State.setQ_get_other _ _ _ _ hj)
      rw [hSame] at hy
      exact hFresh j y hy
  rw [State.flush_eq, State.judgeStall_fresh (State.settle_fresh hHeads i), State.settle_get]
  have hGet : (s.flushed i).ringCfg.que = (s.flushed i).que := (congrArg State.que hCfg :)
  unfold State.descWrite
  rw [State.setQ_get, hGet]
  exact ⟨_, _, rfl⟩

end

section
variable {s : State} {i : Fin 64}

theorem execYardStall_none (h : s.oldestStaged = none) : execYardStall s = .next s := by
  unfold execYardStall
  rw [h]

theorem execYardStall_some {j : Fin 64} {x : Staged} (h : s.oldestStaged = some (j, x)) :
    execYardStall s = .next (s.waitTill (x.cyc + usCyc (max 1 s.QUE_GLB_CFG_STALL_US) + 1)).judgeStall := by
  unfold execYardStall
  rw [h]

theorem execQueueAge_idle (h : (s.que.q[i]).ring = [] ∨ s.QUE_CTRL_AGE_US i.val = 0) : execQueueAge i s = .next s := by
  unfold execQueueAge
  cases hRing : (s.que.q[i]).ring with
  | nil => rfl
  | cons r l => exact if_pos (h.resolve_left (by rw [hRing]; exact List.cons_ne_nil r l))

theorem execQueueAge_ages {r : RingRec} {l : List RingRec} (hRing : (s.que.q[i]).ring = r :: l) (hAge : s.QUE_CTRL_AGE_US i.val ≠ 0) :
    execQueueAge i s = .next ((s.waitTill (r.cyc + usCyc (s.QUE_CTRL_AGE_US i.val))).settle i) := by
  unfold execQueueAge
  rw [hRing]
  exact if_neg hAge

end

theorem flushStallAge : Parts.FlushStallAge := by
  unfold Parts.FlushStallAge
  intro s i
  extract_lets q size
  refine ⟨?_, fun hNone => ?_, fun j x hOldest hPower => ?_, fun hNone => ?_, fun r l hRing hAge => ?_⟩
  · have hTo : exec (.flush i) s = .next { s.flush i with wst := .ok } := rfl
    obtain ⟨hOnly, hLie, c, hQueue⟩ := s.flush_spec i
    have hFresh := State.flush_fresh (s := s) (i := i)
    have hStart : s.OnlyQue (s.flushed i) := rfl
    have hFrame := hStart.trans hOnly
    rw [s.flushed_get i, ← hLie.ringValid] at hQueue
    rw [s.flushed_get i] at hFresh
    generalize (s.flushed i).ringValid i = v at hFresh
    generalize s.flush i = t at hTo hFrame hQueue hFresh
    refine ⟨_, hTo, rfl, congrArg (fun u : State => { u with wst := .ok }) hFrame, (congrArg Queue.base hQueue :),
      (congrArg Queue.size hQueue :), (congrArg Queue.credit hQueue :), (congrArg Queue.ring hQueue :), (congrArg Queue.rptr hQueue :),
      (congrArg Queue.wptr hQueue :), (congrArg Queue.deliv hQueue :), fun hRings hHeads => ?_, (congrArg Queue.halted hQueue :)⟩
    obtain ⟨c, w, hAll⟩ := hFresh hRings hHeads
    refine ⟨congrArg Queue.staged hAll, congrArg Queue.drop hAll, (congrArg Queue.nseq hAll :), fun hHeld => ⟨?_, ?_⟩⟩
    · refine (congrArg Queue.dropEv hAll).trans ?_
      exact Bool.or_eq_true_iff.mpr (.inr (decide_eq_true hHeld))
    · refine (congrArg Queue.gap hAll).trans ?_
      exact Bool.or_eq_true_iff.mpr (.inr (decide_eq_true hHeld))
  · exact execYardStall_none hNone
  · have hTo : exec .yardStall s = _ := execYardStall_some hOldest
    have hCyc := s.waitTill_clk_cyc (x.cyc + usCyc (max 1 s.QUE_GLB_CFG_STALL_US) + 1)
    have hOld : (s.waitTill (x.cyc + usCyc (max 1 s.QUE_GLB_CFG_STALL_US) + 1)).oldestStaged = some (j, x) := hOldest
    have hFrame : s.waitTill (x.cyc + usCyc (max 1 s.QUE_GLB_CFG_STALL_US) + 1) =
      { s with clk := (s.waitTill (x.cyc + usCyc (max 1 s.QUE_GLB_CFG_STALL_US) + 1)).clk } := rfl
    have hUs : usCyc (max 1 s.QUE_GLB_CFG_STALL_US) = 400 * max 1 s.QUE_GLB_CFG_STALL_US := rfl
    generalize s.waitTill (x.cyc + usCyc (max 1 s.QUE_GLB_CFG_STALL_US) + 1) = u at hTo hCyc hOld hFrame
    have hStale : u.isStale x = true := by
      have hLimit : u.QUE_GLB_CFG_STALL_US = s.QUE_GLB_CFG_STALL_US := by rw [hFrame]; rfl
      unfold State.isStale
      rw [hLimit, hCyc]
      exact decide_eq_true (by omega)
    rw [State.judgeStall_stale hOld hStale] at hTo
    have hQuiet := State.cond_quiet ({ u with que := { u.que with stalled := true, stallQ := j.val } } : State) .que 2 .shared true
    have hPowerNow : ({ u with que := { u.que with stalled := true, stallQ := j.val } } : State).powered .que = true := by
      rw [hFrame]
      exact hPower
    refine ⟨_, hTo, ?_, State.cond_liveBit hPowerNow (by decide) rfl rfl _ _, (congrArg (fun v : State => v.que.stallQ) hQuiet :), ?_⟩
    · refine (congrArg (fun v : State => v.clk.cyc) hQuiet :).trans (hCyc.trans ?_)
      rw [Nat.max_comm, hUs]
    · have hClk := State.clk_of_quiet hQuiet
      generalize ({ u with que := { u.que with stalled := true, stallQ := j.val } } : State).cond .que 2 .shared true = t at hQuiet hClk
      rw [hClk]
      have hOnly : u.OnlyQue t :=
        State.OnlyQue.trans (t := { u with que := { u.que with stalled := true, stallQ := j.val } }) rfl (.of_quiet hQuiet)
      exact Eq.trans hOnly (congrArg (fun v : State => State.quiet { v with que := t.que }) hFrame)
  · exact execQueueAge_idle hNone
  · have hTo : exec (.queueAge i) s = _ := execQueueAge_ages hRing hAge
    have hCyc := s.waitTill_clk_cyc (r.cyc + usCyc (s.QUE_CTRL_AGE_US i.val))
    have hFrame : s.waitTill (r.cyc + usCyc (s.QUE_CTRL_AGE_US i.val)) =
      { s with clk := (s.waitTill (r.cyc + usCyc (s.QUE_CTRL_AGE_US i.val))).clk } := rfl
    have hUs : usCyc (s.QUE_CTRL_AGE_US i.val) = 400 * s.QUE_CTRL_AGE_US i.val := rfl
    generalize s.waitTill (r.cyc + usCyc (s.QUE_CTRL_AGE_US i.val)) = u at hTo hCyc hFrame
    have hSettle := u.settle_frame i
    have hGet := u.settle_get i
    generalize u.settle i = t at hTo hSettle hGet
    have hClk : t.clk = u.clk := (congrArg State.clk hSettle :)
    have hAll : t = { s with clk := t.clk, que := t.que } := by
      rw [hClk]
      exact hSettle.trans (congrArg (fun v : State => { v with que := t.que }) hFrame)
    have hSame : t.QUE_CTRL_AGE_US i.val = s.QUE_CTRL_AGE_US i.val ∧ t.queEn i.val = s.queEn i.val := by
      rw [hAll]
      exact ⟨rfl, rfl⟩
    have hRingNow : (t.que.q[i]).ring = r :: l := by
      rw [hGet, hFrame]
      exact hRing
    have hAged : t.queAged i = true := by
      refine State.queAged_iff.mpr ⟨hSame.1.trans_ne hAge, r, l, hRingNow, ?_⟩
      rw [hSame.1, hClk, hCyc, hUs]
      omega
    refine ⟨t, hTo, ?_, hAged, fun hEn => ?_, hAll⟩
    · rw [hClk, hCyc, Nat.max_comm, hUs]
    · unfold State.quePend
      rw [hSame.2, hEn, hAged, Bool.or_true]
      rfl

/-- Settles O54: of a queue's interrupt only a notice to another queue comes, and a flush changes the rest of its queue in one place. -/
theorem flushAgeNotices : Obligations.FlushAgeNotices := by
  unfold Obligations.FlushAgeNotices
  exact ⟨flushStallAge, noticesOffered, queueInterrupts⟩

end Sys2Proof.Machine
end

section
/-! PROOFS. State requests and the end of an entry (R97, R426 to R432, R441, R445). -/

namespace Sys2Proof.Machine

/-! ## What the domains' answer to the votes leaves alone (R426, R427) -/

/-- From `s` to `t` the clock and the device state stay. -/
def State.Beats (s t : State) : Prop := t.clk = s.clk ∧ t.pwr.st = s.pwr.st

section
variable {s t u : State}

theorem State.Beats.refl (s : State) : s.Beats s := ⟨rfl, rfl⟩

theorem State.Beats.trans (h : s.Beats t) (k : t.Beats u) : s.Beats u := ⟨k.1.trans h.1, k.2.trans h.2⟩

theorem State.Beats.of_kept (h : s.Kept t) : s.Beats t :=
  ⟨congrArg ReleaseView.clk h.view, congrArg (fun v : ReleaseView => v.pwr.st) h.view⟩

theorem State.Beats.of_apart (h : t.apart = s.apart) : s.Beats t :=
  ⟨(congrArg State.clk h :), (congrArg (fun v : State => v.pwr.st) h :)⟩

theorem State.Beats.foldl {α : Type} {g : State → α → State} (h : ∀ (s : State) x, s.Beats (g s x)) (l : List α) (s : State) :
    s.Beats (l.foldl g s) :=
  List.foldlRecOn (motive := s.Beats) l g (.refl s) fun t ht x _ => ht.trans (h t x)

theorem State.cruiseJudge_kept (s : State) : s.Kept s.cruiseJudge := by
  unfold State.cruiseJudge
  dsimp only
  have hLeft (p : Fin 15 → Bool) : s.Kept (s.abandonRuns p) := .same rfl
  exact .ite (((hLeft _).trans (State.cond_kept _ _ _ _ _)).trans (State.fillLanes_kept _))
    (((hLeft _).trans (State.withCrz_kept _ _)).trans (State.cond_kept _ _ _ _ _))

theorem State.crzBanks_beats (s : State) : s.Beats s.crzBanks := by
  unfold State.crzBanks
  dsimp only
  split
  · exact .refl s
  · exact ⟨rfl, rfl⟩

theorem State.dropClaim_beats (s : State) (h : Half) (d : Drive) : s.Beats (s.dropClaim h d) := by
  unfold State.dropClaim
  dsimp only
  have hSet (x : XDrive) : s.Beats (s.setX d x) := ⟨rfl, rfl⟩
  exact ((hSet _).trans (.of_kept (State.watchHolder_kept _ d))).trans (.of_apart (State.retagDrive_apart _ d))

theorem State.halfDown_beats (s : State) (h : Half) : s.Beats (s.halfDown h) := by
  have hHeld (v : State) : v.Beats (v.holdHalf h) := by
    unfold State.holdHalf State.holdPads
    dsimp only
    split <;> exact ⟨rfl, rfl⟩
  have hCold (v : State) : v.Beats (v.coldHalf h) := ⟨rfl, rfl⟩
  have hXmon (v : State) : v.Beats v.xmonOff := by
    unfold State.xmonOff
    split <;> exact ⟨rfl, rfl⟩
  have hWatch (v : State) : v.Beats (v.aliveWatch s) := by
    unfold State.aliveWatch
    split <;> exact ⟨rfl, rfl⟩
  have hOff (v : State) : v.Beats { v with pwr := { v.pwr with
      half := v.pwr.half.set h .off, calBusy := v.pwr.calBusy.set h false, padOpen := v.pwr.padOpen.set h false } } := ⟨rfl, rfl⟩
  have hJudged (v : State) : v.Beats v.judgeDrvAll.auxJudge.cruiseJudge.routAll.reform := .of_kept
    ((((v.judgeDrvAll_kept.trans (State.auxJudge_kept _)).trans (State.cruiseJudge_kept _)).trans (State.routAll_kept _)).trans
      (State.reform_kept _))
  have hPads := (State.Beats.of_apart (State.encFollowAll_apart s)).trans (hHeld _)
  have hLost := (((hPads.trans (hOff _)).trans (hCold _)).trans (State.dropClaim_beats _ h 0)).trans (State.dropClaim_beats _ h 1)
  exact ((hLost.trans (hXmon _)).trans (hJudged _)).trans (hWatch _)

theorem State.netDown_beats (s : State) : s.Beats s.netDown := by
  unfold State.netDown State.aliveWatch
  dsimp only
  split <;> exact ⟨rfl, rfl⟩

theorem State.powerNote_beats (s : State) (c : Nat) : s.Beats (s.powerNote c) := .of_kept (.of_quiet (s.powerNote_quiet c))

theorem State.turnHalf_beats (s : State) (h : Half) : s.Beats (s.turnHalf h) := by
  unfold State.turnHalf State.unstick
  dsimp only
  split
  · split <;> exact ⟨rfl, rfl⟩
  · split
    · exact (s.halfDown_beats h).trans (State.powerNote_beats _ _)
    · exact ⟨rfl, rfl⟩
  · exact ⟨rfl, rfl⟩

theorem State.turnNet_beats (s : State) : s.Beats s.turnNet := by
  unfold State.turnNet State.unstick
  dsimp only
  split
  · exact .refl s
  · split
    · split <;> exact ⟨rfl, rfl⟩
    · split
      · exact s.netDown_beats.trans (State.powerNote_beats _ _)
      · exact ⟨rfl, rfl⟩
    · exact ⟨rfl, rfl⟩

theorem State.turnBank_beats (s : State) (b : Fin 8) : s.Beats (s.turnBank b) := by
  unfold State.turnBank State.unstick
  dsimp only
  split
  · split <;> exact ⟨rfl, rfl⟩
  · split
    · exact State.Beats.trans (t := s.bankDown b) ⟨rfl, rfl⟩ (State.powerNote_beats _ _)
    · exact ⟨rfl, rfl⟩
  · exact ⟨rfl, rfl⟩

theorem State.domains_beats (s : State) : s.Beats s.domains := by
  unfold State.domains
  split
  · have hHalves := (s.crzBanks_beats.trans (State.turnHalf_beats _ .h0)).trans (State.turnHalf_beats _ .h1)
    exact ((hHalves.trans (State.turnNet_beats _)).trans (.foldl State.turnBank_beats _ _)).trans (State.crzBanks_beats _)
  · exact .refl s

end

/-! ## State requests (R97, R429 to R431) -/

section
variable {s : State} {t : Fin 4}

theorem State.stateReq_held (h : s.pwr.st = .entering ∨ (s.inRun = true ∧ s.pwr.dvfs.isSome = true)) :
    s.stateReq t = (.ok, { s with pwr := { s.pwr with pend := some t } }) := if_pos h

theorem State.stateReq_early (hSt : s.pwr.st ≠ .entering) (hRun : s.inRun = false) : s.stateReq t = s.only .notReady :=
  (if_neg fun h => h.elim hSt fun h => Bool.false_ne_true (hRun.symm.trans h.1)).trans (if_pos (congrArg (!·) hRun))

theorem State.inRun_st (h : s.inRun = true) : s.pwr.st = .run ∨ s.pwr.st = .doze := by
  simpa [State.inRun] using (Bool.and_eq_true_iff.mp h).2

theorem State.stateReq_starts (hRun : s.inRun = true) (hDvfs : s.pwr.dvfs = none) : s.stateReq t = s.startReq t := by
  have hSt : s.pwr.st ≠ .entering := by
    rcases State.inRun_st hRun with h | h <;> rw [h] <;> decide
  refine (if_neg fun h => h.elim hSt fun h => ?_).trans (if_neg (ne_true_of_eq_false (congrArg (!·) hRun)))
  rw [hDvfs] at h
  exact Bool.false_ne_true h.2

/-- A change between RUN and DOZE: the record, and the domains after it. -/
theorem State.powerRec_domains_st (v : State) (c f : Nat) : v.Beats (v.powerRec c f).domains :=
  State.Beats.trans (.of_kept (State.offer_kept _ _ _ _)) (State.domains_beats _)

theorem State.startReq_doze (h : s.pwr.st = .run) :
    (s.startReq 1).1 = .ok ∧ (s.startReq 1).2.pwr.st = .doze ∧ (s.startReq 1).2.clk = s.clk := by
  have hTo : s.startReq 1 = (.ok, (({ s with pwr := { s.pwr with st := .doze } }.cruiseJudge).powerRec 2 0).domains) :=
    congrArg (Prod.mk Status.ok) (if_pos h)
  have hBeats := (State.Beats.of_kept (State.cruiseJudge_kept { s with pwr := { s.pwr with st := .doze } })).trans
    (State.powerRec_domains_st _ 2 0)
  rw [hTo]
  exact ⟨rfl, hBeats.2, hBeats.1⟩

theorem State.startReq_run (h : s.pwr.st = .doze) :
    (s.startReq 0).1 = .ok ∧ (s.startReq 0).2.pwr.st = .run ∧ (s.startReq 0).2.clk = s.clk := by
  have hTo : s.startReq 0 = (.ok, (({ s with pwr := { s.pwr with st := .run } }.startRound).powerRec 3 1).domains) :=
    congrArg (Prod.mk Status.ok) (if_pos h)
  have hBeats := (State.Beats.of_kept (State.startRound_kept { s with pwr := { s.pwr with st := .run } })).trans
    (State.powerRec_domains_st _ 3 1)
  rw [hTo]
  exact ⟨rfl, hBeats.2, hBeats.1⟩

/-- LOOKOUT or OFF asked for (R430). -/
theorem State.startReq_entry {u : PState} (hTo : (t = 2 ∧ u = .lookout) ∨ (t = 3 ∧ u = .off)) :
    s.startReq t = if s.mayEnter u then (.ok, s.enter u) else s.only .denied := by
  rcases hTo with ⟨rfl, rfl⟩ | ⟨rfl, rfl⟩ <;> rfl

theorem State.startReq_same (h : s.pwr.st = reqState t) (ht : t = 0 ∨ t = 1) : s.startReq t = (.ok, s) := by
  rcases ht with rfl | rfl
  · exact congrArg (Prod.mk Status.ok) (if_neg (by rw [h]; decide))
  · exact congrArg (Prod.mk Status.ok) (if_neg (by rw [h]; decide))

theorem State.mayEnter_released {u : PState} (h : s.safe[(0 : Fin 2)].rel = true ∨ s.safe[(1 : Fin 2)].rel = true ∨
    (∀ b, b < 7 → s.wakeCounts u b = false)) : s.mayEnter u = false := by
  unfold State.mayEnter
  rcases h with h | h | h
  · rw [h]
    rfl
  · rw [h]
    simp
  · have hNone : (List.range 7).any (s.wakeCounts u) = false :=
      List.any_eq_false.mpr fun b hb => ne_true_of_eq_false (h b (List.mem_range.mp hb))
    rw [hNone]
    simp

theorem State.mayEnter_unfit (h : s.PCH_CFG_EXC_SEL s.lkCh.val ≠ 0 ∨ s.PCH_CFG_DEMOD_MODE s.lkCh.val ≠ 0) :
    s.mayEnter .lookout = false := by
  have hUnfit : s.lookoutOk = false := by
    unfold State.lookoutOk
    dsimp only
    rcases h with h | h
    · rw [beq_eq_false_iff_ne.mpr h]
      rfl
    · rw [beq_eq_false_iff_ne.mpr h, Bool.and_false]
      rfl
  unfold State.mayEnter
  rw [hUnfit]
  simp

end

theorem stateRequests : Parts.StateRequests := by
  unfold Parts.StateRequests
  intro s
  extract_lets done busy now held entry
  have hEntry {t : Fin 4} {u : PState} {c : Instr} (hRun : s.inRun = true) (hDvfs : s.pwr.dvfs = none)
      (hExec : exec c s = finish (s.stateReq t)) (hTo : (t = 2 ∧ u = .lookout) ∨ (t = 3 ∧ u = .off)) : entry u (exec c s) := by
    rw [State.stateReq_starts hRun hDvfs, State.startReq_entry hTo] at hExec
    have hDenied (h : s.mayEnter u = false) : exec c s = done .denied :=
      hExec.trans (congrArg finish (if_neg (ne_true_of_eq_false h)))
    exact ⟨fun h => hExec.trans (congrArg finish (if_pos h)), hDenied, fun h => hDenied (State.mayEnter_released h)⟩
  refine ⟨fun hBusy => ?_, fun hSt hRun c hMem => ?_, fun hRun hDvfs hSt => ⟨?_, ?_⟩, fun hRun hDvfs hSt => ⟨?_, ?_⟩,
    fun hRun hDvfs => ⟨hEntry hRun hDvfs rfl (.inl ⟨rfl, rfl⟩), hEntry hRun hDvfs rfl (.inr ⟨rfl, rfl⟩), fun hUnfit => ?_⟩⟩
  · have hHeld (t : Fin 4) : finish (s.stateReq t) = held t := congrArg finish (State.stateReq_held hBusy)
    exact ⟨hHeld 0, hHeld 1, hHeld 2, hHeld 3⟩
  · have hEarly (t : Fin 4) : finish (s.stateReq t) = done .notReady := congrArg finish (State.stateReq_early hSt hRun)
    rcases List.mem_cons.mp hMem with rfl | hMem
    · exact hEarly 0
    rcases List.mem_cons.mp hMem with rfl | hMem
    · exact hEarly 1
    rcases List.mem_cons.mp hMem with rfl | hMem
    · exact hEarly 2
    · obtain rfl := List.mem_singleton.mp hMem
      exact hEarly 3
  · have hSame := State.startReq_same (s := s) (t := 0) hSt (.inl rfl)
    exact congrArg finish ((State.stateReq_starts hRun hDvfs).trans hSame)
  · obtain ⟨hOk, hDoze, hClk⟩ := State.startReq_doze hSt
    exact ⟨_, congrArg finish (State.stateReq_starts hRun hDvfs), hOk, hDoze, hClk⟩
  · have hSame := State.startReq_same (s := s) (t := 1) hSt (.inr rfl)
    exact congrArg finish ((State.stateReq_starts hRun hDvfs).trans hSame)
  · obtain ⟨hOk, hAwake, hClk⟩ := State.startReq_run hSt
    exact ⟨_, congrArg finish (State.stateReq_starts hRun hDvfs), hOk, hAwake, hClk⟩
  · exact (hEntry hRun hDvfs rfl (.inl ⟨rfl, rfl⟩) : entry .lookout _).2.1 (State.mayEnter_unfit hUnfit)

/-! ## The end of an entry (R426, R428, R431, R432, R441) -/

/-- From `s` to `t` everything but AON, the pads and what is kept beside them has gone off. -/
structure State.Slept (s t : State) : Prop where
  sram : t.sram = []
  released : t.boot.released = false
  phase : t.boot.phase = .reset
  fram : t.fram = s.fram
  clk : t.clk = s.clk
  half : t.pwr.half = ⟨.off, .off⟩
  bank : t.pwr.bank = Vector.replicate 8 .off
  offTime : t.pwr.offTime = s.clk.time
  heldH : t.pads.heldH = ⟨true, true⟩
  heldCore : t.pads.heldCore = true
  encHeld : t.pads.encHeld = 0xF
  aevHeld : t.pads.aevHeld = 0xFF
  alarm : t.pwr.alarm = s.pwr.alarm
  alarmEn : t.pwr.alarmEn = s.pwr.alarmEn
  lkSet : t.pwr.lkSet = s.lookoutSet
  lkAcc : t.pwr.lkAcc = 0
  repCols : t.boot.repCols = s.boot.repCols
  repRows : t.boot.repRows = s.boot.repRows
  torn : t.boot.torn = s.boot.torn
  xtalOk : t.sys.xtalOk = s.sys.xtalOk
  tpllLock : t.sys.tpllLock = s.sys.tpllLock
  spllLock : t.sys.spllLock = s.sys.spllLock
  votes : t.pwr.keptVotes = s.votesOfCore
  lkLow : s.clk.rtc ≤ t.pwr.lkNext
  lkTick : t.pwr.lkNext % rtcUnit = 0

section
variable {s : State}

theorem rtc_nextTick (r : Nat) : r ≤ (r + rtcUnit - 1) / rtcUnit * rtcUnit ∧ (r + rtcUnit - 1) / rtcUnit * rtcUnit % rtcUnit = 0 := by
  have hUnit : 0 < rtcUnit := by decide
  have hDiv := Nat.div_add_mod (r + rtcUnit - 1) rtcUnit
  have hMod := Nat.mod_lt (r + rtcUnit - 1) hUnit
  rw [Nat.mul_comm] at hDiv
  exact ⟨by omega, Nat.mul_mod_left _ _⟩

theorem State.coreDown_slept (s : State) : s.Slept s.coreDown := by
  constructor
  case lkLow => exact (rtc_nextTick _).1
  case lkTick => exact (rtc_nextTick _).2
  all_goals rfl

theorem State.Slept.wakes {c : State} (h : s.Slept c) (src : BitVec 7) (first : Nat) : s.Slept (c.startWake src first) := by
  obtain ⟨⟩ := h
  constructor <;> assumption

theorem State.Slept.ticked {c : State} (h : s.Slept c) (k : Nat) : s.Slept { c with pwr := { c.pwr with firstTick := k } } := by
  obtain ⟨⟩ := h
  constructor <;> assumption

theorem State.Slept.netDown {c : State} (h : s.Slept c) : s.Slept { c.netDown with pwr := { c.netDown.pwr with st := .off } } := by
  obtain ⟨⟩ := h
  unfold State.netDown State.aliveWatch
  dsimp only
  split
  · constructor <;> assumption
  · constructor <;> assumption

/-- A wake that starts from `c`. -/
structure State.Woken (c t : State) (src : BitVec 7) (first : Nat) : Prop where
  st : t.pwr.st = .waking
  core : t.pwr.core = .rising t.nextTick
  wakeFrom : t.pwr.wakeFrom = c.pwr.st.code
  wakeCnt : t.pwr.wakeCnt = min 65535 (c.pwr.wakeCnt + 1)
  wakeRtc : t.pwr.wakeRtc = c.rtcNow
  src : t.pwr.src = src
  first : t.pwr.first = first

theorem State.startWake_woken (c : State) (src : BitVec 7) (first : Nat) : c.Woken (c.startWake src first) src first :=
  ⟨rfl, rfl, rfl, rfl, rfl, rfl, rfl⟩

/-- RUN or DOZE is asked for. -/
def askedAwake (pend : Option (Fin 4)) : Prop := pend = some 0 ∨ pend = some 1

theorem askedAwake_iff {pend : Option (Fin 4)} : (pend == some 0 || pend == some 1) = true ↔ askedAwake pend := by
  rw [Bool.or_eq_true, beq_iff_eq, beq_iff_eq]
  rfl

section
variable {pend : Option (Fin 4)}

/-- Sources were seen, and RUN or DOZE was asked for as well. -/
theorem State.afterEntry_both (hSrc : s.pwr.srcEnt ≠ 0) (hAsk : askedAwake pend) :
    s.afterEntry pend = s.startWake (bput s.pwr.srcEnt 5 true) (s.earliest s.pwr.firstEnt 5) :=
  (if_pos hSrc).trans (if_pos (askedAwake_iff.mpr hAsk))

theorem State.afterEntry_sources (hSrc : s.pwr.srcEnt ≠ 0) (hAsk : ¬ askedAwake pend) :
    s.afterEntry pend = s.startWake s.pwr.srcEnt s.pwr.firstEnt :=
  (if_pos hSrc).trans (if_neg fun h => hAsk (askedAwake_iff.mp h))

theorem State.afterEntry_asked (hSrc : s.pwr.srcEnt = 0) (hAsk : askedAwake pend) : s.afterEntry pend = s.wakeBy 5 :=
  (if_neg (not_not.mpr hSrc)).trans (if_pos (askedAwake_iff.mpr hAsk))

theorem State.afterEntry_rest (hSrc : s.pwr.srcEnt = 0) (hAsk : ¬ askedAwake pend) : s.afterEntry pend =
    if pend = some 3 ∧ s.pwr.st = .lookout then { s.netDown with pwr := { s.netDown.pwr with st := .off } } else s :=
  (if_neg (not_not.mpr hSrc)).trans (if_neg fun h => hAsk (askedAwake_iff.mp h))

/-- However an entry ends, what has gone off stays off. -/
theorem State.Slept.afterEntry {c : State} (h : s.Slept c) (pend : Option (Fin 4)) : s.Slept (c.afterEntry pend) := by
  by_cases hSrc : c.pwr.srcEnt = 0 <;> by_cases hAsk : askedAwake pend
  · rw [State.afterEntry_asked hSrc hAsk]
    exact (h.ticked _).wakes _ _
  · rw [State.afterEntry_rest hSrc hAsk]
    split
    · exact h.netDown
    · exact h
  · rw [State.afterEntry_both hSrc hAsk]
    exact h.wakes _ _
  · rw [State.afterEntry_sources hSrc hAsk]
    exact h.wakes _ _

end

end

theorem entryCompletes : Parts.EntryCompletes := by
  unfold Parts.EntryCompletes
  intro s host
  refine ⟨fun hNot => if_neg fun h => hNot.elim (fun hSt => hSt h.1) fun hStore => hStore h.2, fun hSt hStore => ?_⟩
  have hTo : exec .entryComplete s = _ := if_pos ⟨hSt, hStore⟩
  have hSlept := s.coreDown_slept.afterEntry s.pwr.pend
  have hBoth := State.afterEntry_both (s := s.coreDown) (pend := s.pwr.pend)
  have hSources := State.afterEntry_sources (s := s.coreDown) (pend := s.pwr.pend)
  have hAsked := State.afterEntry_asked (s := s.coreDown) (pend := s.pwr.pend)
  have hRest := State.afterEntry_rest (s := s.coreDown) (pend := s.pwr.pend)
  generalize hAt : s.coreDown.afterEntry s.pwr.pend = t at hTo hSlept hBoth hSources hAsked hRest
  have hWoken {src : BitVec 7} {first k : Nat}
      (h : t = ({ s.coreDown with pwr := { s.coreDown.pwr with firstTick := k } } : State).startWake src first) :
      (t.pwr.st = .waking ∧ t.pwr.core = .rising t.nextTick ∧ t.pwr.wakeFrom = s.pwr.entTgt.code ∧
        t.pwr.wakeCnt = min 65535 (s.pwr.wakeCnt + 1) ∧ t.pwr.wakeRtc = s.rtcNow) ∧ t.pwr.src = src ∧ t.pwr.first = first := by
    subst h
    exact ⟨⟨rfl, rfl, rfl, rfl, rfl⟩, rfl, rfl⟩
  refine ⟨t, hTo, hSlept.sram, hSlept.released, hSlept.phase, hSlept.fram, hSlept.clk, hSlept.half, hSlept.bank, hSlept.offTime,
    hSlept.heldH, hSlept.heldCore, hSlept.encHeld, hSlept.aevHeld, hSlept.alarm, hSlept.alarmEn, hSlept.lkSet, hSlept.lkAcc,
    hSlept.repCols, hSlept.repRows, hSlept.torn, hSlept.xtalOk, hSlept.tpllLock, hSlept.spllLock, hSlept.votes, hSlept.lkLow,
    hSlept.lkTick, fun hSrc hPend => ?_, fun hAny => ?_, fun hSrc hNot => ?_, fun hSrc hHost => ?_, fun hSrc hHost => ?_,
    fun hSrc hPend hTgt => ?_⟩
  · have hSame := hRest hSrc fun h => by
      rw [hPend] at h
      exact h.elim (nomatch ·) (nomatch ·)
    rw [if_neg fun h => by rw [hPend] at h; exact nomatch h.1] at hSame
    rw [hSame]
    exact ⟨rfl, rfl, rfl⟩
  · by_cases hSrc : s.pwr.srcEnt = 0
    · exact (hWoken (hAsked hSrc (hAny.resolve_left (not_not.mpr hSrc)))).1
    · by_cases hHost : host
      · exact (hWoken (hBoth hSrc hHost)).1
      · exact (hWoken (hSources hSrc hHost)).1
  · exact (hWoken (hSources hSrc hNot)).2
  · exact (hWoken (hBoth hSrc hHost)).2
  · exact (hWoken (hAsked hSrc hHost)).2
  · have hOff := hRest hSrc fun h => by
      rw [hPend] at h
      exact h.elim (by decide) (by decide)
    rw [if_pos ⟨hPend, hTgt⟩] at hOff
    rw [hOff]
    refine ⟨rfl, ?_⟩
    unfold State.netDown State.aliveWatch
    dsimp only
    split <;> exact Bool.and_false _

/-- Settles O55: each request is one test after another; an entry leaves what AON holds, and wakes or rests by what was seen
meanwhile. -/
theorem statesAndEntry : Obligations.StatesAndEntry := by
  unfold Obligations.StatesAndEntry
  exact ⟨stateRequests, entryCompletes⟩

end Sys2Proof.Machine
end

section
/-! PROOFS. Operating points, and the release of pads (R52, R53, R62, R431, R433, R434). -/

namespace Sys2Proof.Machine

/-! ## The regulators' loop resumes (R61 to R63) -/

/-- From `s` to `t` only the regulators' codes and live bits of the headers move. -/
def State.Tuned (s t : State) : Prop := t = { s with sys := t.sys, flt := t.flt }

section
variable {s t u : State}

theorem State.Tuned.trans (h : s.Tuned t) (k : t.Tuned u) : s.Tuned u := by
  unfold State.Tuned at h k ⊢
  rw [k, h]

theorem State.setCode_tuned (s : State) (x : VDom) (c n : Nat) : s.Tuned (s.setCode x c n) := rfl

theorem State.Tuned.clears (s : State) (p : Page) (b : Nat) (c : Copy) : s.Tuned (s.cond p b c false) := by
  have hSys : (s.cond p b c false).sys = s.sys := (congrArg State.sys (s.cond_clears p b c) :)
  unfold State.Tuned
  rw [hSys]
  exact s.cond_clears p b c

theorem State.avsLimit_tuned (s : State) (x : VDom) : s.Tuned (s.avsLimit x) := by
  unfold State.avsLimit
  dsimp only
  split
  · rfl
  · split
    · exact State.Tuned.trans (t := s.toNominal x) rfl (State.Tuned.clears _ _ _ _)
    · exact s.setCode_tuned x _ _

theorem State.avsApply_tuned (s : State) : s.Tuned s.avsApply :=
  ((((s.avsLimit_tuned .h0).trans (State.avsLimit_tuned _ .h1)).trans (State.avsLimit_tuned _ .core)).trans
    (State.avsLimit_tuned _ .mem)).trans (State.avsLimit_tuned _ .net)

theorem State.avsResume_tuned (s : State) : s.Tuned s.avsResume := by
  unfold State.avsResume
  dsimp only
  split
  · rfl
  · exact State.Tuned.trans (t := { s.toNominal .core with sys := { (s.toNominal .core).sys with avsHeld := none } }) rfl
      (State.avsApply_tuned _)

theorem State.avsResume_code (h : s.sys.avsHeld = none) : s.avsResume.sys.avsCode[VDom.num .core] = s.vNominal .core := by
  have hTo : s.avsResume = s.toNominal .core := if_pos (Option.isNone_iff_eq_none.mpr h)
  rw [hTo]
  exact vset_same _ _ _

end

/-! ## Operating points (R433, R434) -/

section
variable {s : State} {v w x : BitVec 2}

theorem exec_oppTgtWrite : exec (.oppTgtWrite v) s = .next { s.writeOpp v with wst := .ok } := rfl

theorem State.writeOpp_waits (h : s.pwr.dvfs.isSome = true) : s.writeOpp v =
    { s.setReg 0x10048 (Word.put 0 2 v.toNat) with pwr := { s.pwr with oppPend := some v } } := by
  unfold State.writeOpp
  dsimp only
  rw [State.setReg_pwr, if_pos h]

theorem State.writeOpp_same (h : s.pwr.dvfs = none) (hSame : v = s.pwr.oppNow) :
    s.writeOpp v = s.setReg 0x10048 (Word.put 0 2 v.toNat) := by
  unfold State.writeOpp
  dsimp only
  rw [State.setReg_pwr, h, Option.isSome_none, if_neg Bool.false_ne_true, if_pos hSame]

theorem State.writeOpp_starts (h : s.pwr.dvfs = none) (hOther : v ≠ s.pwr.oppNow) :
    s.writeOpp v = { s.setReg 0x10048 (Word.put 0 2 v.toNat) with
      crz := (s.writeOpp v).crz
      pwr := { s.pwr with
        dvfs := some v, dvfsFrom := s.pwr.oppNow, dvfsAt := s.clk.cyc
        oppNow := if s.pwr.oppNow.toNat < v.toNat then v else s.pwr.oppNow } } := by
  have hTo : s.writeOpp v = (s.setReg 0x10048 (Word.put 0 2 v.toNat)).startDvfs v := by
    unfold State.writeOpp
    dsimp only
    rw [State.setReg_pwr, h, Option.isSome_none, if_neg Bool.false_ne_true, if_neg hOther]
  have hPwr : (s.setReg 0x10048 (Word.put 0 2 v.toNat)).pwr = s.pwr := State.setReg_pwr _ _ _
  have hClk : (s.setReg 0x10048 (Word.put 0 2 v.toNat)).clk = s.clk := State.setReg_clk _ _ _
  rw [hTo, ← hPwr, ← hClk]
  rfl

theorem State.oppPend_none (h : s.pwr.oppPend = none) : ({ s with pwr := { s.pwr with oppPend := none } } : State) = s := by
  rw [← h]

theorem State.afterDvfs_rests (hOpp : s.pwr.oppPend = none) (hPend : s.pwr.pend = none) : s.afterDvfs = s := by
  unfold State.afterDvfs
  dsimp only
  split
  case h_1 h => exact nomatch (congrArg (Option.filter _) hOpp).symm.trans h
  case h_2 =>
    split
    case h_1 h => exact nomatch hPend.symm.trans h
    case h_2 => exact State.oppPend_none hOpp

theorem State.afterDvfs_starts (hOpp : s.pwr.oppPend = some x) (hOther : x ≠ s.pwr.oppNow) :
    s.afterDvfs = State.startDvfs { s with pwr := { s.pwr with oppPend := none } } x := by
  have hFilter : s.pwr.oppPend.filter (fun y => y != s.pwr.oppNow) = some x := by
    rw [hOpp, Option.filter_some, if_pos (by simpa using hOther)]
  unfold State.afterDvfs
  rw [hFilter]

/-- The sequence towards `w` is over at cycle `k`, at operating point `n`. -/
def State.dvfsOver (s : State) (k : Nat) (n : BitVec 2) : State :=
  let r := (s.waitTill k).crzMark
  { r with pwr := { r.pwr with oppNow := n, dvfs := none } }

theorem exec_dvfsDone (h : s.pwr.dvfs = some w) :
    exec .dvfsDone s = .next (((s.dvfsOver (s.dvfsEnd w) w).avsResume.powerNote 4).afterDvfs) := by
  change execDvfsDone s = _
  unfold execDvfsDone
  rw [h]
  rfl

theorem exec_dvfsTmo (h : s.pwr.dvfs = some w) :
    exec .dvfsTmo s = .next (((s.dvfsOver (s.rampEnd w + 2000)
      (if s.pwr.dvfsFrom.toNat < w.toNat then w else s.pwr.dvfsFrom)).avsResume.event .pwr 1 .shared).afterDvfs) := by
  change execDvfsTmo s = _
  unfold execDvfsTmo
  rw [h]
  rfl

theorem State.rampEnd_eq (s : State) (w : BitVec 2) : s.rampEnd w = s.pwr.dvfsAt + (if w.toNat < s.pwr.dvfsFrom.toNat then 40 else 80) +
    200 * (max s.sys.avsCode[VDom.num .core] (oppCode w) - min s.sys.avsCode[VDom.num .core] (oppCode w)) := by
  unfold State.rampEnd State.rampAt State.dvfsUp
  simp only [decide_eq_true_eq]

theorem State.dvfsEnd_eq (s : State) (w : BitVec 2) :
    s.dvfsEnd w = if w.toNat < s.pwr.dvfsFrom.toNat then s.rampEnd w + 880 else s.rampEnd w := by
  unfold State.dvfsEnd State.dvfsUp usCyc
  split <;> split <;> simp_all

theorem State.avsResume_quiet (s : State) : s.avsResume.quiet = ({ s with sys := s.avsResume.sys } : State).quiet := by
  conv_lhs => rw [s.avsResume_tuned]
  rfl

/-- The end of a sequence at `n`, and `t` after the loop has resumed and a report has been made. -/
theorem State.dvfsOver_quiet {k : Nat} {n : BitVec 2} {t : State} (h : t.quiet = (s.dvfsOver k n).avsResume.quiet) :
    t.clk.cyc = max s.clk.cyc k ∧ t.pwr = { s.pwr with oppNow := n, dvfs := none } ∧
    t.sys = (s.dvfsOver k n).avsResume.sys ∧
    t.quiet = ({ s with clk := t.clk, crz := t.crz, pwr := { s.pwr with oppNow := n, dvfs := none }, sys := t.sys } : State).quiet := by
  rw [State.avsResume_quiet] at h
  have hClk : t.clk = (s.waitTill k).clk := (congrArg State.clk h :)
  have hSys : t.sys = (s.dvfsOver k n).avsResume.sys := (congrArg State.sys h :)
  have hCrz : t.crz = (s.dvfsOver k n).crz := (congrArg State.crz h :)
  refine ⟨?_, State.pwr_of_quiet h, hSys, ?_⟩
  · rw [hClk]
    exact (State.waitTill_clk_cyc _ _).trans (max_comm _ _)
  · rw [hClk, hSys, hCrz, h]
    rfl

/-- The state before a pending request is served, when the sequence towards `w` has completed. -/
def State.dvfsEnded (s : State) (w : BitVec 2) : State := (s.dvfsOver (s.dvfsEnd w) w).avsResume.powerNote 4

theorem State.dvfsEnded_quiet (s : State) (w : BitVec 2) :
    (s.dvfsEnded w).quiet = (s.dvfsOver (s.dvfsEnd w) w).avsResume.quiet := State.powerNote_quiet _ 4

theorem State.dvfsEnded_nseq (s : State) (w : BitVec 2) :
    ((s.dvfsEnded w).que.q[(57 : Fin 64)]).nseq = ((s.que.q[(57 : Fin 64)]).nseq + 1) % 2 ^ 64 := by
  have hQue : (s.dvfsOver (s.dvfsEnd w) w).avsResume.que = s.que := (congrArg State.que (State.avsResume_tuned _) :)
  unfold State.dvfsEnded State.powerNote State.powerRec
  rw [State.offer_nseq, hQue]

theorem State.reports_pwr {s : State} (hp : s.powered .pwr = true) (b : Nat) : s.reports .pwr b = true := by
  unfold State.reports State.heldOff
  rw [hp, show s.holdWin .pwr b = {} from rfl, show s.lossEnd .pwr b = 0 from rfl]
  simp [HoldWin.covers]

/-- The state after a sequence towards `w` has timed out. -/
def State.dvfsFailed (s : State) (w : BitVec 2) : State :=
  (s.dvfsOver (s.rampEnd w + 2000) (if s.pwr.dvfsFrom.toNat < w.toNat then w else s.pwr.dvfsFrom)).avsResume.event .pwr 1 .shared

theorem State.dvfsFailed_quiet (s : State) (w : BitVec 2) : (s.dvfsFailed w).quiet =
    (s.dvfsOver (s.rampEnd w + 2000) (if s.pwr.dvfsFrom.toNat < w.toNat then w else s.pwr.dvfsFrom)).avsResume.quiet :=
  State.event_quiet _ .pwr 1 .shared

theorem State.dvfsFailed_sticky (h : s.powered .pwr = true) : (s.dvfsFailed w).stickyBit .pwr 1 = true := by
  refine State.event_sticky _ .pwr 1 .shared (State.reports_pwr ?_ 1) (by decide)
  unfold State.powered State.coreOn State.pageOn
  rw [State.avsResume_tuned]
  exact h

theorem dvfsDone_rests (hRuns : s.pwr.dvfs = some w) (hOpp : s.pwr.oppPend = none) (hPend : s.pwr.pend = none) :
    Completes .dvfsDone s (fun t => t.clk.cyc = max s.clk.cyc (s.dvfsEnd w) ∧ t.pwr.oppNow = w ∧ t.pwr.dvfs = none ∧
      (s.sys.avsHeld = none → t.sys.avsCode[VDom.num .core] = t.vNominal .core) ∧
      (t.que.q[(57 : Fin 64)]).nseq = ((s.que.q[(57 : Fin 64)]).nseq + 1) % 2 ^ 64 ∧
      t.quiet = ({ s with
        clk := t.clk, crz := t.crz, pwr := { s.pwr with oppNow := w, dvfs := none }, sys := t.sys } : State).quiet) := by
  have hTo : exec .dvfsDone s = .next (s.dvfsEnded w).afterDvfs := exec_dvfsDone hRuns
  have hNseq := s.dvfsEnded_nseq w
  obtain ⟨hCyc, hPwr, hSys, hFrame⟩ := State.dvfsOver_quiet (s.dvfsEnded_quiet w)
  generalize s.dvfsEnded w = t at hTo hNseq hCyc hPwr hSys hFrame
  have hRests : t.afterDvfs = t := State.afterDvfs_rests (by rw [hPwr]; exact hOpp) (by rw [hPwr]; exact hPend)
  rw [hRests] at hTo
  refine ⟨t, hTo, hCyc, ?_, ?_, fun hHeld => ?_, hNseq, hFrame⟩
  · rw [hPwr]
  · rw [hPwr]
  · rw [hSys]
    refine (State.avsResume_code (s := s.dvfsOver (s.dvfsEnd w) w) hHeld).trans ?_
    unfold State.vNominal
    rw [hPwr]
    rfl

theorem dvfsDone_goesOn (hRuns : s.pwr.dvfs = some w) (hOpp : s.pwr.oppPend = some x) (hOther : x ≠ w) :
    Completes .dvfsDone s (fun t => t.clk.cyc = max s.clk.cyc (s.dvfsEnd w) ∧ t.pwr.dvfs = some x ∧ t.pwr.dvfsFrom = w ∧
      t.pwr.dvfsAt = t.clk.cyc ∧ t.pwr.oppPend = none ∧ t.pwr.oppNow = if w.toNat < x.toNat then x else w) := by
  have hTo : exec .dvfsDone s = .next (s.dvfsEnded w).afterDvfs := exec_dvfsDone hRuns
  obtain ⟨hCyc, hPwr, -, -⟩ := State.dvfsOver_quiet (s.dvfsEnded_quiet w)
  generalize s.dvfsEnded w = t at hTo hCyc hPwr
  have hStarts := State.afterDvfs_starts (s := t) (x := x) (by rw [hPwr]; exact hOpp) (by rw [hPwr]; exact hOther)
  rw [hStarts, hPwr] at hTo
  exact ⟨_, hTo, hCyc, rfl, rfl, rfl, rfl, rfl⟩

theorem dvfsTmo_stops (hRuns : s.pwr.dvfs = some w) (hOpp : s.pwr.oppPend = none) (hPend : s.pwr.pend = none) :
    Completes .dvfsTmo s (fun t => t.pwr.dvfs = none ∧ t.clk.cyc = max s.clk.cyc (s.rampEnd w + 2000) ∧
      t.pwr.oppNow.toNat = max s.pwr.dvfsFrom.toNat w.toNat ∧ (s.powered .pwr = true → t.stickyBit .pwr 1 = true) ∧
      t.quiet = ({ s with
        clk := t.clk, crz := t.crz, pwr := { s.pwr with oppNow := t.pwr.oppNow, dvfs := none }, sys := t.sys } : State).quiet) := by
  have hTo : exec .dvfsTmo s = .next (s.dvfsFailed w).afterDvfs := exec_dvfsTmo hRuns
  have hSticky := State.dvfsFailed_sticky (s := s) (w := w)
  obtain ⟨hCyc, hPwr, -, hFrame⟩ := State.dvfsOver_quiet (s.dvfsFailed_quiet w)
  generalize s.dvfsFailed w = t at hTo hSticky hCyc hPwr hFrame
  have hRests : t.afterDvfs = t := State.afterDvfs_rests (by rw [hPwr]; exact hOpp) (by rw [hPwr]; exact hPend)
  rw [hRests] at hTo
  refine ⟨t, hTo, ?_, hCyc, ?_, hSticky, ?_⟩
  · rw [hPwr]
  · rw [hPwr]
    dsimp only
    split <;> omega
  · rw [hFrame, hPwr]

theorem operatingPoints : Parts.OperatingPoints := by
  unfold Parts.OperatingPoints
  intro s v w
  dsimp only
  have hU (z : BitVec 2) : (s.setReg 0x10048 (Word.put 0 2 z.toNat)).pwr = s.pwr := State.setReg_pwr _ _ _
  refine ⟨fun hRuns => ?_, fun hIdle hSame => ?_, fun hIdle hOther => ?_, fun hIdle => ?_, fun hRuns => ?_⟩
  · rw [exec_oppTgtWrite, State.writeOpp_waits hRuns]
  · rw [exec_oppTgtWrite, State.writeOpp_same hIdle hSame]
  · exact ⟨_, exec_oppTgtWrite, congrArg (fun y : State => { y with wst := .ok }) (State.writeOpp_starts hIdle hOther)⟩
  · refine ⟨?_, ?_⟩
    · change execDvfsDone s = _
      unfold execDvfsDone
      rw [hIdle]
    · change execDvfsTmo s = _
      unfold execDvfsTmo
      rw [hIdle]
  · rw [← State.rampEnd_eq, ← State.dvfsEnd_eq]
    exact ⟨dvfsDone_rests hRuns, fun x => dvfsDone_goesOn hRuns, dvfsTmo_stops hRuns⟩

end

/-! ## The release of pads (R52, R53) -/

section
variable {s t : State}

/-- From `s` to `t` only the outputs and the holds of the ENC pads move. -/
def State.EncFreed (s t : State) : Prop := t = { s with pads := { s.pads with
  encHeld := t.pads.encHeld, encZHeld := t.pads.encZHeld, encA := t.pads.encA, encB := t.pads.encB, encZ := t.pads.encZ } }

/-- From `s` to `t` only the outputs and the holds of the AEV pads move. -/
def State.AevFreed (s t : State) : Prop := t = { s with pads := { s.pads with aevHeld := t.pads.aevHeld, aev := t.pads.aev } }

/-- Pad `pin` of drive `d` is released: by the half of the channel that clocks it, or by the holder of the drive (R52). -/
def State.pinFrees (s : State) (m : Two Bool) (pin : Nat) (d : Drive) : Bool := (s.claimHalf pin).elim (s.padHolder d m) m.get

/-- The bits of the pads that a walk over them has released. -/
theorem foldl_frees {k w : Nat} {g : State → Fin k → State} {bits : State → BitVec w} {P : State → Prop} {go : Fin k → Bool}
    (hStep : ∀ v n, P v → P (g v n) ∧ bits (g v n) = if go n then bput (bits v) n.val false else bits v) (l : List (Fin k))
    (hW : k ≤ w) (n : Fin k) : ∀ v, P v → P (l.foldl g v) ∧
      (bits (l.foldl g v)).getLsbD n.val = ((bits v).getLsbD n.val && !(decide (n ∈ l) && go n)) := by
  induction l with
  | nil => simp
  | cons i l ih =>
    intro v hv
    obtain ⟨hNext, hBits⟩ := hStep v i hv
    obtain ⟨hLast, hRest⟩ := ih _ hNext
    refine ⟨hLast, hRest.trans ?_⟩
    rw [hBits]
    by_cases hi : n = i
    · subst hi
      cases hGo : go n with
      | false => simp
      | true => simp [bput_get _ _ _ (Nat.lt_of_lt_of_le n.isLt hW)]
    · have hVal : n.val ≠ i.val := fun h => hi (Fin.ext h)
      cases go i <;> simp [bput_get_other _ _ _ _ hVal, hi]

theorem State.encPads_freed (s : State) (n : Fin 4) : s.encPads n = { s with pads := { s.pads with
    encA := (s.encPads n).pads.encA, encB := (s.encPads n).pads.encB, encZ := (s.encPads n).pads.encZ } } := by
  unfold State.encPads
  dsimp only
  split
  · split
    · split <;> rfl
    · split <;> rfl
  · rfl

theorem State.releaseEnc_spec (s : State) (m : Two Bool) (n : Fin 4) : s.EncFreed (s.releaseEnc m n) ∧
    (s.releaseEnc m n).pads.encHeld = (if s.padHolder s.enc[n].drive m then bput s.pads.encHeld n.val false else s.pads.encHeld) ∧
    (s.releaseEnc m n).pads.encZHeld =
      (if s.pinFrees m (8 + n.val) s.enc[n].drive then bput s.pads.encZHeld n.val false else s.pads.encZHeld) := by
  unfold State.EncFreed State.pinFrees State.releaseEnc
  dsimp only
  rw [State.encPads_freed]
  refine ⟨rfl, rfl, ?_⟩
  cases s.claimHalf (8 + n.val) <;> rfl

theorem State.releaseAev_spec (s : State) (m : Two Bool) (n : Fin 8) : s.AevFreed (s.releaseAev m n) ∧
    (s.releaseAev m n).pads.aevHeld =
      (if s.pinFrees m n.val (s.outDrive n) then bput s.pads.aevHeld n.val false else s.pads.aevHeld) := by
  unfold State.AevFreed State.pinFrees State.releaseAev
  dsimp only
  refine ⟨rfl, ?_⟩
  cases s.claimHalf n.val <;> rfl

theorem State.EncFreed.trans {u : State} (h : s.EncFreed t) (k : t.EncFreed u) : s.EncFreed u := by
  unfold State.EncFreed at h k ⊢
  rw [k, h]

theorem State.AevFreed.trans {u : State} (h : s.AevFreed t) (k : t.AevFreed u) : s.AevFreed u := by
  unfold State.AevFreed at h k ⊢
  rw [k, h]

theorem State.EncFreed.holder (h : s.EncFreed t) (m : Two Bool) (n : Fin 4) :
    t.padHolder t.enc[n].drive m = s.padHolder s.enc[n].drive m ∧
    t.pinFrees m (8 + n.val) t.enc[n].drive = s.pinFrees m (8 + n.val) s.enc[n].drive := by
  rw [h]
  exact ⟨rfl, rfl⟩

theorem State.AevFreed.pin (h : s.AevFreed t) (m : Two Bool) (n : Fin 8) :
    t.pinFrees m n.val (t.outDrive n) = s.pinFrees m n.val (s.outDrive n) := by
  rw [h]
  rfl

/-- The encoder outputs and the scheduler's outputs after a write of PAD_RELEASE. -/
theorem State.releaseEncs_spec (s : State) (m : Two Bool) (n : Fin 4) :
    let t := (List.finRange 4).foldl (fun st n => st.releaseEnc m n) s
    s.EncFreed t ∧ t.pads.encHeld.getLsbD n.val = (s.pads.encHeld.getLsbD n.val && !s.padHolder s.enc[n].drive m) ∧
      t.pads.encZHeld.getLsbD n.val = (s.pads.encZHeld.getLsbD n.val && !s.pinFrees m (8 + n.val) s.enc[n].drive) := by
  intro t
  have hStep (v : State) (i : Fin 4) (hv : s.EncFreed v) : s.EncFreed (v.releaseEnc m i) := hv.trans (v.releaseEnc_spec m i).1
  obtain ⟨hFreed, hHeld⟩ := foldl_frees (g := fun st n => st.releaseEnc m n) (bits := fun v => v.pads.encHeld) (P := s.EncFreed)
    (go := fun n => s.padHolder s.enc[n].drive m)
    (fun v i hv => ⟨hStep v i hv, by rw [← (hv.holder m i).1]; exact (v.releaseEnc_spec m i).2.1⟩) (List.finRange 4) (Nat.le_refl 4) n
    s rfl
  obtain ⟨-, hZHeld⟩ := foldl_frees (g := fun st n => st.releaseEnc m n) (bits := fun v => v.pads.encZHeld) (P := s.EncFreed)
    (go := fun n => s.pinFrees m (8 + n.val) s.enc[n].drive)
    (fun v i hv => ⟨hStep v i hv, by rw [← (hv.holder m i).2]; exact (v.releaseEnc_spec m i).2.2⟩) (List.finRange 4) (Nat.le_refl 4) n
    s rfl
  simp only [List.mem_finRange, decide_true, Bool.true_and] at hHeld hZHeld
  exact ⟨hFreed, hHeld, hZHeld⟩

theorem State.releaseAevs_spec (s : State) (m : Two Bool) (n : Fin 8) :
    let t := (List.finRange 8).foldl (fun st n => st.releaseAev m n) s
    s.AevFreed t ∧ t.pads.aevHeld.getLsbD n.val = (s.pads.aevHeld.getLsbD n.val && !s.pinFrees m n.val (s.outDrive n)) := by
  intro t
  obtain ⟨hFreed, hHeld⟩ := foldl_frees (g := fun st n => st.releaseAev m n) (bits := fun v => v.pads.aevHeld) (P := s.AevFreed)
    (go := fun n => s.pinFrees m n.val (s.outDrive n))
    (fun v i hv => ⟨hv.trans (v.releaseAev_spec m i).1, by rw [← hv.pin m i]; exact (v.releaseAev_spec m i).2⟩)
    (List.finRange 8) (Nat.le_refl 8) n s rfl
  simp only [List.mem_finRange, decide_true, Bool.true_and] at hHeld
  exact ⟨hFreed, hHeld⟩

/-- The domains that a write of PAD_RELEASE names, so far as they are on. -/
def State.padMask (s : State) (v : Word) : Two Bool := ⟨v.bit 0 && s.halfOn .h0, v.bit 1 && s.halfOn .h1⟩

/-- The holds of whole domains taken away by a write of PAD_RELEASE. -/
def State.padsNamed (s : State) (v : Word) : State :=
  let m := s.padMask v
  let p := s.pads
  { s with
    pads := { p with
      heldH := ⟨p.heldH.h0 && !m.h0, p.heldH.h1 && !m.h1⟩
      sdiOff := ⟨p.sdiOff.h0 && !m.h0, p.sdiOff.h1 && !m.h1⟩
      heldNet := p.heldNet && !(v.bit 2 && s.netOn), heldCore := p.heldCore && !(v.bit 3 && s.coreOn) }
    pwr := { s.pwr with
      padOpen := ⟨s.pwr.padOpen.h0 && !m.h0, s.pwr.padOpen.h1 && !m.h1⟩
      padOpenNet := s.pwr.padOpenNet && !(v.bit 2 && s.netOn) } }

/-- The state in which the pads of the encoders and of the scheduler are released too. -/
def State.padsFreed (s : State) (v : Word) : State :=
  (List.finRange 8).foldl (fun st n => st.releaseAev (s.padMask v) n)
    ((List.finRange 4).foldl (fun st n => st.releaseEnc (s.padMask v) n) (s.padsNamed v))

theorem exec_padRelease (s : State) (v : Word) :
    exec (.padRelease v) s = .next { (s.padsFreed v).alivePad.sdclkFrom s with wst := .ok } := rfl

theorem State.padsFreed_spec (s : State) (v : Word) : let t := s.padsFreed v
    let u := s.padsNamed v
    let m := s.padMask v
    t = { u with pads := { u.pads with
      encHeld := t.pads.encHeld, encZHeld := t.pads.encZHeld, encA := t.pads.encA, encB := t.pads.encB, encZ := t.pads.encZ
      aevHeld := t.pads.aevHeld, aev := t.pads.aev } } ∧
    (∀ n : Fin 4, t.pads.encHeld.getLsbD n.val = (u.pads.encHeld.getLsbD n.val && !u.padHolder u.enc[n].drive m) ∧
      t.pads.encZHeld.getLsbD n.val = (u.pads.encZHeld.getLsbD n.val && !u.pinFrees m (8 + n.val) u.enc[n].drive)) ∧
    ∀ n : Fin 8, t.pads.aevHeld.getLsbD n.val = (u.pads.aevHeld.getLsbD n.val && !u.pinFrees m n.val (u.outDrive n)) := by
  intro t u m
  have hEnc := u.releaseEncs_spec m
  generalize ht : (List.finRange 4).foldl (fun st n => st.releaseEnc m n) u = w at hEnc
  have hAev := w.releaseAevs_spec m
  rw [show (List.finRange 8).foldl (fun st n => st.releaseAev m n) w = t from by rw [← ht]; rfl] at hAev
  obtain ⟨hFreed, -⟩ := hEnc 0
  obtain ⟨hLast, -⟩ := hAev 0
  refine ⟨?_, fun n => ?_, fun n => ?_⟩
  · unfold State.EncFreed State.AevFreed at *
    rw [hLast, hFreed]
  · obtain ⟨-, hHeld, hZHeld⟩ := hEnc n
    rw [hLast]
    exact ⟨hHeld, hZHeld⟩
  · refine (hAev n).2.trans ?_
    rw [hFreed]
    rfl

/-- After the release of the pads: the pad of ALIVE, and the strobes of the bitstream clocks. -/
def State.padsShown (t s : State) : State := { t.alivePad.sdclkFrom s with wst := .ok }

theorem State.padsShown_eq (t s : State) : t.padsShown s = { t with
    alive := { t.alive with pad := (t.padsShown s).alive.pad }, sdm := { t.sdm with next := (t.padsShown s).sdm.next }
    wst := .ok } := by
  unfold State.padsShown State.alivePad State.sdclkFrom
  split <;> rfl

theorem State.padsShown_alive (t s : State) (h : t.pads.heldCore = false) : (t.padsShown s).alive.pad = t.alive.level := by
  unfold State.padsShown State.alivePad State.sdclkFrom
  rw [if_neg (ne_true_of_eq_false h)]

theorem State.padsShown_next (t s : State) (k : Fin 2) : (t.padsShown s).sdm.next[k] =
    if (t.padsShown s).sdclkRuns k.val = true ∧ s.sdclkRuns k.val = false then t.clk.cyc else t.sdm.next[k] := by
  have hRuns : (t.padsShown s).sdclkRuns k.val = t.alivePad.sdclkRuns k.val := rfl
  have hKept : t.alivePad.clk = t.clk ∧ t.alivePad.sdm = t.sdm := by
    unfold State.alivePad
    split <;> exact ⟨rfl, rfl⟩
  have hNext : (t.padsShown s).sdm.next[k] = if t.alivePad.sdclkRuns k.val && !s.sdclkRuns k.val then t.alivePad.clk.cyc
      else t.alivePad.sdm.next[k] := Vector.getElem_ofFn _
  rw [hNext, hRuns, hKept.1, hKept.2]
  simp only [Bool.and_eq_true, Bool.not_eq_true']

/-- Which drive an output names does not turn on the pads. -/
theorem State.outDrive_pads (s : State) (p : Pads) (a : Alive) (w : Status) (x : Sdm) (n : Fin 8) :
    State.outDrive { s with pads := p, alive := a, wst := w, sdm := x } n = s.outDrive n := rfl

theorem padsRelease : Parts.PadsRelease := by
  unfold Parts.PadsRelease
  intro s v
  have hTo : exec (.padRelease v) s = .next ((s.padsFreed v).padsShown s) := exec_padRelease s v
  obtain ⟨hFreed, hEnc, hAev⟩ := s.padsFreed_spec v
  generalize s.padsFreed v = w at hTo hFreed hEnc hAev
  have hShown := w.padsShown_eq s
  have hAlive := w.padsShown_alive s
  have hNext := w.padsShown_next s
  refine ⟨_, hTo, ?_⟩
  generalize w.padsShown s = t at hShown hAlive hNext
  have hPads : t.pads = w.pads := (congrArg State.pads hShown :)
  have hAll : t = { s with
      pads := t.pads, alive := { s.alive with pad := t.alive.pad }, wst := .ok
      sdm := { s.sdm with next := t.sdm.next }, pwr := (s.padsNamed v).pwr } := by
    rw [hShown, hFreed]
    rfl
  have hHolder (d : Drive) (m : Two Bool) : t.padHolder d m = s.padHolder d m := by
    rw [hAll]
    rfl
  have hDrive (n : Fin 8) : t.outDrive n = (s.padsNamed v).outDrive n := by
    rw [hAll]
    exact (s.padsNamed v).outDrive_pads _ _ _ _ n
  have hPwr : t.pwr = (s.padsNamed v).pwr := (congrArg State.pwr hAll :)
  have hClaim (k : Nat) : (s.padsNamed v).claimHalf k = s.claimHalf k := rfl
  simp only [hPads, hPwr, hHolder, hDrive]
  refine ⟨?_, ?_, ?_, ?_, rfl, rfl, fun n => (hEnc n).1, fun n => (hEnc n).2.trans ?_, fun n => (hAev n).trans ?_, fun h => ?_,
    fun k => ?_, ?_⟩
  · rw [hFreed]; rfl
  · rw [hFreed]; rfl
  · rw [hFreed]; rfl
  · rw [hFreed]; rfl
  · unfold State.pinFrees
    rw [hClaim]
    cases s.claimHalf (8 + n.val) <;> rfl
  · unfold State.pinFrees
    rw [hClaim]
    cases s.claimHalf n.val <;> rfl
  · exact (hAlive h).trans (congrArg (fun x : State => x.alive.level) hFreed :)
  · rw [hNext k, (congrArg (fun x : State => x.clk.cyc) hFreed :), (congrArg (fun x : State => x.sdm.next[k]) hFreed :)]
    rfl
  · rw [← hPads]
    exact hAll

end

/-- Settles O58: the end of a sequence or its time-out only moves the clock, the loop's codes and the operating point before the
report, and a write of PAD_RELEASE is a walk over the outputs that takes away the holds of those whose half or holder it names. -/
theorem pointsAndPads : Obligations.PointsAndPads := by
  unfold Obligations.PointsAndPads
  exact ⟨operatingPoints, padsRelease⟩

end Sys2Proof.Machine
end

section
/-! PROOFS. Domains return, calibrate, or fail (R427, R446, R451). -/

namespace Sys2Proof.Machine

/-! ## What judging a domain that returns leaves alone -/

/-- From `s` to `t` the oscillators, resets and regulators' codes, the channels' trims, and what the calibrations found stay. -/
structure State.Trimmed (s t : State) : Prop where
  sys : t.sys = s.sys
  trims : ∀ n : Fin 8, (t.scl[n]).trims = (s.scl[n]).trims
  aux : t.aux.calf = s.aux.calf
  calf : ∀ n : Fin 8, (t.pch[n]).calf = (s.pch[n]).calf

namespace State.Trimmed

variable {s t u : State}

theorem refl (s : State) : s.Trimmed s := ⟨rfl, fun _ => rfl, rfl, fun _ => rfl⟩

theorem trans (h : s.Trimmed t) (k : t.Trimmed u) : s.Trimmed u :=
  ⟨k.sys.trans h.sys, fun n => (k.trims n).trans (h.trims n), k.aux.trans h.aux, fun n => (k.calf n).trans (h.calf n)⟩

/-- A step that changes none of it by definition. -/
theorem same (h : (t.sys, t.scl, t.aux.calf, t.pch) = (s.sys, s.scl, s.aux.calf, s.pch)) : s.Trimmed t := by
  simp only [Prod.mk.injEq] at h
  obtain ⟨hSys, hScl, hAux, hPch⟩ := h
  exact ⟨hSys, fun n => by rw [hScl], hAux, fun n => by rw [hPch]⟩

/-- A fault and its report (R343). -/
theorem of_quiet (h : t.quiet = s.quiet) : s.Trimmed t :=
  .same (congrArg (fun v : State => (v.sys, v.scl, v.aux.calf, v.pch)) h :)

theorem ite {c : Prop} [Decidable c] (ht : s.Trimmed t) (hu : s.Trimmed u) : s.Trimmed (if c then t else u) := by
  split
  · exact ht
  · exact hu

theorem foldl {α : Type} {g : State → α → State} (h : ∀ (s : State) x, s.Trimmed (g s x)) (l : List α) (s : State) :
    s.Trimmed (l.foldl g s) :=
  List.foldlRecOn (motive := s.Trimmed) l g (refl s) fun t ht x _ => ht.trans (h t x)

end State.Trimmed

open State (Trimmed)

section
variable {s : State}

theorem State.cond_trimmed (s : State) (p : Page) (b : Nat) (c : Copy) (v : Bool) : s.Trimmed (s.cond p b c v) :=
  .of_quiet (State.cond_quiet s p b c v)

theorem State.pcond_trimmed (s : State) (n : Fin 8) (b : Nat) (v : Bool) : s.Trimmed (s.pcond n b v) :=
  State.cond_trimmed _ _ _ _ _

theorem State.setPch_trimmed (n : Fin 8) {x : Pch} (h : x.calf = (s.pch[n]).calf) : s.Trimmed (s.setPch n x) where
  sys := rfl
  trims _ := rfl
  aux := rfl
  calf k := by
    by_cases e : k = n
    · rw [e, State.setPch_get, h]
    · exact congrArg Pch.calf (vset_other s.pch n k x e :)

theorem State.causeEnds_trimmed (s : State) (n : Fin 8) (i : Nat) : s.Trimmed (s.causeEnds n i) :=
  (State.setPch_trimmed n (x := { s.pch[n] with live := bput s.pch[n].live i false }) rfl).trans (State.pcond_trimmed _ _ _ _)

theorem State.lossWindow_trimmed (s : State) (n : Fin 8) : s.Trimmed (s.lossWindow n) := .ite (.same rfl) (.refl s)

theorem Pch.toLost_calf (x : Pch) : x.toLost.calf = x.calf := by
  unfold Pch.toLost
  split <;> rfl

theorem State.declareLoss_trimmed (s : State) (n : Fin 8) (i : Nat) : s.Trimmed (s.declareLoss n i) := by
  unfold State.declareLoss
  extract_lets s1 x c
  have hWindow : s.Trimmed s1 := State.lossWindow_trimmed s n
  have hCalf : x.calf = (s1.pch[n]).calf := Pch.toLost_calf _
  have hDrop (t : State) : t.Trimmed (t.dropCratio n) := .ite (.refl t) (State.pcond_trimmed _ _ _ _)
  have hSet : s1.Trimmed (s1.setPch n { x with live := bput x.live i true, cause := c }) := State.setPch_trimmed n hCalf
  exact hWindow.trans ((hSet.trans (State.pcond_trimmed _ _ _ _)).trans (hDrop _))

theorem State.judgeDrv_trimmed (s : State) (n : Fin 8) : s.Trimmed (s.judgeDrv n) := by
  unfold State.judgeDrv
  dsimp only
  have hCond : s.Trimmed (s.pcond n 8 (s.pchOn n && s.drvBad n)) := State.pcond_trimmed _ _ _ _
  exact .ite (.ite hCond (hCond.trans (State.declareLoss_trimmed _ _ _))) (hCond.trans (State.causeEnds_trimmed _ _ _))

theorem State.standingCauses_trimmed (s : State) (n : Fin 8) : s.Trimmed (s.standingCauses n) := by
  unfold State.standingCauses
  extract_lets s1 s2
  have hCal : s.Trimmed s1 := .ite (State.declareLoss_trimmed _ _ _) (.refl s)
  have hVdda : s1.Trimmed s2 := .ite (.refl s1) (State.declareLoss_trimmed _ _ _)
  exact (hCal.trans hVdda).trans (State.judgeDrv_trimmed _ _)

theorem State.chanSet_trimmed (n : Fin 8) {x : Pch} {c : Scl} (hx : x.calf = (s.pch[n]).calf) (hc : c.trims = (s.scl[n]).trims) :
    s.Trimmed (s.chanSet n x c) :=
  (State.setPch_trimmed n hx).trans ⟨rfl, fun k => by
    by_cases e : k = n
    · rw [e]
      exact (congrArg Scl.trims (vset_same s.scl n c) :).trans hc
    · exact congrArg Scl.trims (vset_other s.scl n k c e :), rfl, fun _ => rfl⟩

theorem State.startChan_keeping (s : State) (n : Fin 8) (rearm : Bool) : ∃ (x : Pch) (c : Scl) (v : Bool),
    s.startChan n rearm = ((((s.chanSet n x c).pcond n 9 false).pcond n 5 v).standingCauses n).reform ∧
    x.calf = (s.pch[n]).calf ∧ c.trims = (s.scl[n]).trims := ⟨_, _, _, rfl, rfl, rfl⟩

theorem State.startChan_trimmed (s : State) (n : Fin 8) (rearm : Bool) : s.Trimmed (s.startChan n rearm) := by
  obtain ⟨x, c, v, hEq, hx, hc⟩ := s.startChan_keeping n rearm
  rw [hEq]
  have hConds (t : State) : t.Trimmed ((t.pcond n 9 false).pcond n 5 v) :=
    (State.pcond_trimmed _ _ _ _).trans (State.pcond_trimmed _ _ _ _)
  exact ((State.chanSet_trimmed n hx hc).trans (hConds _)).trans
    ((State.standingCauses_trimmed _ n).trans (.of_quiet (State.reform_quiet _)))

theorem State.auxJudge_trimmed (s : State) : s.Trimmed s.auxJudge := by
  have hDrop (t : State) (c : Fin 2) : t.Trimmed (t.dropVisit c) := by
    unfold State.dropVisit
    split
    · exact .refl t
    · exact .ite (.refl t) (.same rfl)
  have hSlot (t : State) (k : Fin 16) : t.Trimmed (t.judgeSlot k) := by
    unfold State.judgeSlot
    extract_lets y t1
    have hTag : t.Trimmed t1 := .ite (.refl t) (.same rfl)
    exact hTag.trans (State.cond_trimmed _ _ _ _ _)
  have hKick (t : State) (c : Fin 2) (k : Nat) : t.Trimmed (t.kickConv c k) := by
    unfold State.kickConv
    split
    · exact .refl t
    · split
      · exact .refl t
      · exact .same rfl
  unfold State.auxJudge
  extract_lets s1 s2
  have hRout (t : State) : t.Trimmed t.routAll := .same rfl
  have hVisits : s.Trimmed s1 := (hDrop s 0).trans (hDrop _ 1)
  have hSlots : s1.Trimmed s2 := Trimmed.foldl hSlot _ _
  exact (hVisits.trans hSlots).trans (((hKick _ _ _).trans (hKick _ _ _)).trans (hRout _))

theorem State.cruiseJudge_trimmed (s : State) : s.Trimmed s.cruiseJudge := by
  have hLane (t : State) (l : Fin 3) : t.Trimmed (t.fillLane l) := by
    unfold State.fillLane
    split
    · exact .refl t
    · split <;> exact .same rfl
  have hThree (t : State) : t.Trimmed t.fillThree := ((hLane t 0).trans (hLane _ 1)).trans (hLane _ 2)
  have hFill (t : State) : t.Trimmed t.fillLanes := by
    rw [State.fillLanes_eq]
    extract_lets u
    have hDropped : t.Trimmed t.roundDropped := .ite (.same rfl) (.refl t)
    have hEnded : u.Trimmed u.roundEnded := .ite (.same rfl) (.refl u)
    have hItems : u.roundEnded.Trimmed u.roundEnded.roundItems := .same rfl
    have hBegun : u.Trimmed u.roundEnded.roundItems.judgeStarved.fillThree :=
      (hEnded.trans hItems).trans ((State.cond_trimmed _ _ _ _ _).trans (hThree _))
    exact (hDropped.trans (hThree _)).trans (.ite (.ite hBegun hEnded) (.refl u))
  unfold State.cruiseJudge
  dsimp only
  have hCrz (t : State) (x : Crz) : t.Trimmed { t with crz := x } := .same rfl
  have hLeft (p : Fin 15 → Bool) : s.Trimmed (s.abandonRuns p) := .same rfl
  exact .ite (((hLeft _).trans (State.cond_trimmed _ _ _ _ _)).trans (hFill _))
    (((hLeft _).trans (hCrz _ _)).trans (State.cond_trimmed _ _ _ _ _))

theorem State.watchHolder_trimmed (s : State) (d : Drive) : s.Trimmed (s.watchHolder d) := by
  unfold State.watchHolder
  dsimp only
  split
  · exact .same rfl
  · exact .same rfl
  · exact .refl s

end

/-! ## A half returns (R427) -/

section
variable {s : State} {h : Half} {k : Nat}

theorem Store.get_filter {α : Type} (d : α) (p : Nat → Bool) (l : List (Nat × α)) (a : Nat) :
    Store.get d (l.filter fun e => !p e.1) a = if p a then d else Store.get d l a := by
  induction l with
  | nil => simp [Store.get]
  | cons e l ih =>
    obtain ⟨i, v⟩ := e
    by_cases hi : i = a
    · subst hi
      cases hp : p i <;> simp [Store.get, hp, ih]
    · cases hp : p i <;> simp [Store.get, hp, hi, ih]

/-- Half `h` on again, before its conditions are judged (R427). -/
def State.halfBack (s0 : State) (h : Half) : State :=
  let s := ((s0.latchesReturn h).slotsReturn h).toNominal (halfVdom h)
  let car : Carrier := { t0 := s.clk.cyc }
  { s with
    exc := Vector.ofFn fun n : Fin 4 => if excHalf n.val = h then { s.exc[n] with car := car, old := car } else s.exc[n]
    sys := { s.sys with rcOk := s.sys.rcOk.set h true }
    sdm := { s.sdm with next := vset s.sdm.next (Fin.ofNat 2 h.num) s.clk.cyc }
    pwr := { s.pwr with
      half := s.pwr.half.set h .on, calBusy := s.pwr.calBusy.set h true, calAt := s.pwr.calAt.set h (s.clk.cyc + usCyc 6500)
      padOpen := s.pwr.padOpen.set h (s.inRunDoze && s.boot.released)
      domFail := bput s.pwr.domFail h.num false } }

/-- The conditions of a half that is on again, judged. -/
def State.halfJudged (s : State) : State :=
  (((((s.vexcJudge 0).vexcJudge 1).watchHolder 0).watchHolder 1).judgeDrvAll.auxJudge.cruiseJudge).reform

theorem State.halfUp_eq (s : State) (h : Half) : s.halfUp h =
    let t := (s.halfBack h).halfJudged
    if t.inRunDoze then t.powerNote 5 else t := rfl

theorem State.halfJudged_kept (s : State) : s.Kept s.halfJudged := by
  have hRails : s.Kept ((s.vexcJudge 0).vexcJudge 1) :=
    .of_quiet ((State.vexcJudge_quiet (s.vexcJudge 0) 1).trans (s.vexcJudge_quiet 0))
  have hHolders := (hRails.trans (State.watchHolder_kept _ 0)).trans (State.watchHolder_kept _ 1)
  exact ((hHolders.trans ((State.judgeDrvAll_kept _).trans (State.auxJudge_kept _))).trans (State.cruiseJudge_kept _)).trans
    (State.reform_kept _)

theorem State.halfJudged_trimmed (s : State) : s.Trimmed s.halfJudged := by
  have hRails : s.Trimmed ((s.vexcJudge 0).vexcJudge 1) :=
    .of_quiet ((State.vexcJudge_quiet (s.vexcJudge 0) 1).trans (s.vexcJudge_quiet 0))
  have hDrv (t : State) : t.Trimmed t.judgeDrvAll := Trimmed.foldl State.judgeDrv_trimmed _ _
  have hHolders := (hRails.trans (State.watchHolder_trimmed _ 0)).trans (State.watchHolder_trimmed _ 1)
  exact ((hHolders.trans ((hDrv _).trans (State.auxJudge_trimmed _))).trans (State.cruiseJudge_trimmed _)).trans
    (.of_quiet (State.reform_quiet _))

theorem State.halfUp_keeps (s : State) (h : Half) : (s.halfBack h).Kept (s.halfUp h) ∧ (s.halfUp h).sys = (s.halfBack h).sys := by
  rw [State.halfUp_eq]
  dsimp only
  have hJudged := (s.halfBack h).halfJudged_kept
  have hSys := (s.halfBack h).halfJudged_trimmed.sys
  split
  · have hNote := State.powerNote_quiet (s.halfBack h).halfJudged 5
    exact ⟨hJudged.trans (.of_quiet hNote), (Trimmed.of_quiet hNote).sys.trans hSys⟩
  · exact ⟨hJudged, hSys⟩

theorem State.halfBack_spec (s : State) (h : Half) : let t := s.halfBack h
    t.clk = s.clk ∧ t.qb = s.qb ∧ t.cfg = s.cfg.filter (fun e => !s.slotReg h (e.1 % 0x100000000)) ∧
    t.sys.avsCode[VDom.num (halfVdom h)] = 50 ∧
    t.pwr = { s.pwr with
      half := s.pwr.half.set h .on, calBusy := s.pwr.calBusy.set h true, calAt := s.pwr.calAt.set h (s.clk.cyc + 2600000)
      padOpen := s.pwr.padOpen.set h (s.inRunDoze && s.boot.released)
      domFail := bput s.pwr.domFail h.num false } := by
  unfold State.halfBack State.latchesReturn
  dsimp only
  have hCode (v : State) : (v.toNominal (halfVdom h)).sys.avsCode[VDom.num (halfVdom h)] = 50 := by
    refine (vset_same _ _ _).trans ?_
    cases h <;> rfl
  split
  · exact ⟨rfl, rfl, rfl, hCode _, rfl⟩
  · exact ⟨rfl, rfl, rfl, hCode _, rfl⟩

/-- The domain of half `h`. -/
def halfDom : Half → Dom
  | .h0 => .h0
  | .h1 => .h1

theorem exec_domainOn_half (hRise : s.pwr.half.get h = .rising k) :
    exec (.domainOn (halfDom h)) s = .next ((s.waitTill (k + 80000)).halfUp h) := by
  cases h with
  | h0 =>
    change execDomainOn .h0 s = _
    unfold execDomainOn
    rw [show s.pwr.half.h0 = .rising k from hRise]
    rfl
  | h1 =>
    change execDomainOn .h1 s = _
    unfold execDomainOn
    rw [show s.pwr.half.h1 = .rising k from hRise]
    rfl

theorem Half.num_lt (h : Half) : h.num < 3 := by
  cases h <;> decide

theorem domainOn_half (hRise : s.pwr.half.get h = .rising k) : Completes (.domainOn (halfDom h)) s (fun t =>
    t.clk.cyc = max s.clk.cyc (k + 400 * 200) ∧ t.halfOn h = true ∧ t.pwr.calBusy.get h = true ∧
    (t.pwr.padOpen.get h = true ↔ (s.pwr.st = .run ∨ s.pwr.st = .doze) ∧ s.boot.released = true) ∧
    t.pwr.domFail.getLsbD h.num = false ∧
    (∀ a, t.reg a = if s.slotReg h (a % 0x100000000) then regReset s.qb a else s.reg a) ∧
    t.pwr.calAt.get h = t.clk.cyc + 2600000 ∧
    t.sys.avsCode[VDom.num (halfVdom h)] = 50 ∧
    t.pwr.half.get h.other = s.pwr.half.get h.other) := by
  obtain ⟨hClk, hQb, hCfg, hCode, hPwr⟩ := (s.waitTill (k + 80000)).halfBack_spec h
  obtain ⟨hKept, hSys⟩ := (s.waitTill (k + 80000)).halfUp_keeps h
  refine ⟨_, exec_domainOn_half hRise, ?_⟩
  generalize (s.waitTill (k + 80000)).halfUp h = t at hKept hSys
  have hTClk : t.clk = _ := (congrArg ReleaseView.clk hKept.view).trans hClk
  have hTPwr : t.pwr = _ := (congrArg ReleaseView.pwr hKept.view).trans hPwr
  have hTCfg : t.cfg = _ := (congrArg ReleaseView.cfg hKept.view).trans hCfg
  have hTQb : t.qb = _ := (congrArg ReleaseView.qb hKept.view).trans hQb
  have hCyc : t.clk.cyc = max s.clk.cyc (k + 80000) := by
    rw [hTClk, State.waitTill_clk_cyc, max_comm]
  unfold State.halfOn State.reg
  rw [hTPwr, hTCfg, hTQb, hTClk, hSys]
  dsimp only
  simp only [Two.get_set]
  refine ⟨hTClk ▸ hCyc, rfl, trivial, ?_, bput_get _ _ _ (Half.num_lt h), fun a => ?_, trivial, hCode, ?_⟩
  · rw [Bool.and_eq_true, State.inRunDoze_iff]
    rfl
  · exact Store.get_filter _ (fun a => s.slotReg h (a % 0x100000000)) s.cfg a
  · exact Two.get_set_other _ _ (by cases h <;> decide)

/-! ## Returns that fail (R451) -/

/-- DOM_TMO is an event: reported, it changes nothing else (R343). -/
theorem State.domTmoEvent_spec (s : State) :
    s.domTmoEvent.quiet = s.quiet ∧ (s.powered .pwr = true → s.domTmoEvent.stickyBit .pwr 2 = true) :=
  ⟨State.event_quiet s .pwr 2 .shared, fun hp => State.event_sticky s .pwr 2 .shared (State.reports_pwr hp 2) (by decide)⟩

/-- The return of a half has failed: the failure is recorded (R451). -/
def State.halfFails (s : State) (h : Half) : State :=
  { s with pwr := { s.pwr with
    half := s.pwr.half.set h .off, domFail := bput s.pwr.domFail h.num true, stuck := bput s.pwr.stuck h.num true
    tmoNow := s.pwr.tmoNow || s.pwr.st == .waking } }

theorem exec_domTmo_half (hRise : s.pwr.half.get h = .rising k) :
    exec (.domTmo (halfDom h)) s = .next ((s.waitTill (k + 200000)).halfFails h).domTmoEvent := by
  cases h with
  | h0 =>
    change execDomTmo .h0 s = _
    unfold execDomTmo
    rw [show s.pwr.half.h0 = .rising k from hRise]
    rfl
  | h1 =>
    change execDomTmo .h1 s = _
    unfold execDomTmo
    rw [show s.pwr.half.h1 = .rising k from hRise]
    rfl

theorem domTmo_half (hRise : s.pwr.half.get h = .rising k) : Completes (.domTmo (halfDom h)) s (fun t =>
    t.clk.cyc = max s.clk.cyc (k + 400 * 500) ∧ t.pwr.half.get h = .off ∧ t.pwr.domFail.getLsbD h.num = true ∧
    t.pwr.stuck.getLsbD h.num = true ∧ (s.powered .pwr = true → t.stickyBit .pwr 2 = true) ∧
    t.quiet = ({ s with clk := t.clk, pwr := t.pwr } : State).quiet) := by
  obtain ⟨hQuiet, hSticky⟩ := ((s.waitTill (k + 200000)).halfFails h).domTmoEvent_spec
  refine ⟨_, exec_domTmo_half hRise, ?_⟩
  generalize State.domTmoEvent _ = t at hQuiet hSticky
  have hClk : t.clk = (s.waitTill (k + 200000)).clk := (congrArg State.clk hQuiet :)
  have hPwr : t.pwr = ((s.waitTill (k + 200000)).halfFails h).pwr := State.pwr_of_quiet hQuiet
  rw [hClk, hPwr, State.waitTill_clk_cyc]
  have hLess := Half.num_lt h
  exact ⟨max_comm _ _, Two.get_set _ _ _, bput_get _ _ _ hLess, bput_get _ _ _ (by omega), hSticky, hQuiet⟩

end

/-! ## NET, the banks and CORE (R427, R446, R451) -/

section
variable {s : State} {b : Fin 8} {k : Nat}

/-- NET is on again (R427). -/
def State.netBack (s0 : State) : State :=
  let s := s0.toNominal .net
  { s with pwr := { s.pwr with
    net := .on, padOpenNet := s.inRunDoze && s.boot.released, domFail := bput s.pwr.domFail 2 false } }

/-- A domain is on again: in RUN and DOZE with a record of it (R449). -/
def State.noted (s : State) : State := if s.inRunDoze then s.powerNote 5 else s

theorem State.noted_quiet (s : State) : s.noted.quiet = s.quiet := by
  unfold State.noted
  split
  · exact s.powerNote_quiet 5
  · rfl

theorem exec_domainOn_net (hRise : s.pwr.net = .rising k) : exec (.domainOn .net) s = .next (s.waitTill (k + 80000)).netBack.noted := by
  change execDomainOn .net s = _
  unfold execDomainOn
  rw [hRise]
  rfl

theorem domainOn_net (hRise : s.pwr.net = .rising k) : Completes (.domainOn .net) s (fun t =>
    t.clk.cyc = max s.clk.cyc (k + 400 * 200) ∧ t.pwr.net = .on ∧
    (t.pwr.padOpenNet = true ↔ (s.pwr.st = .run ∨ s.pwr.st = .doze) ∧ s.boot.released = true) ∧
    t.sys.avsCode[VDom.num .net] = 50 ∧
    t.quiet = ({ s with clk := t.clk, pwr := t.pwr, sys := t.sys } : State).quiet) := by
  refine ⟨_, exec_domainOn_net hRise, ?_⟩
  have hQuiet := (s.waitTill (k + 80000)).netBack.noted_quiet
  generalize State.noted _ = t at hQuiet
  have hClk : t.clk = (s.waitTill (k + 80000)).clk := (congrArg State.clk hQuiet :)
  have hPwr : t.pwr = (s.waitTill (k + 80000)).netBack.pwr := State.pwr_of_quiet hQuiet
  have hSys : t.sys = (s.waitTill (k + 80000)).netBack.sys := (congrArg State.sys hQuiet :)
  dsimp only
  rw [hClk, hPwr, hSys, State.waitTill_clk_cyc]
  refine ⟨max_comm _ _, rfl, ?_, vset_same _ _ _, hQuiet⟩
  change (s.inRunDoze && s.boot.released) = true ↔ _
  rw [Bool.and_eq_true, State.inRunDoze_iff]

/-- The return of NET has failed (R451). -/
def State.netFails (s : State) : State :=
  { s with pwr := { s.pwr with
    net := .off, domFail := bput s.pwr.domFail 2 true, stuck := bput s.pwr.stuck 2 true
    tmoNow := s.pwr.tmoNow || s.pwr.st == .waking } }

theorem exec_domTmo_net (hRise : s.pwr.net = .rising k) :
    exec (.domTmo .net) s = .next (s.waitTill (k + 200000)).netFails.domTmoEvent := by
  change execDomTmo .net s = _
  unfold execDomTmo
  rw [hRise]
  rfl

theorem domTmo_net (hRise : s.pwr.net = .rising k) : Completes (.domTmo .net) s (fun t =>
    t.clk.cyc = max s.clk.cyc (k + 400 * 500) ∧ t.pwr.net = .off ∧ t.pwr.domFail.getLsbD 2 = true ∧
    t.pwr.stuck.getLsbD 2 = true ∧ (s.powered .pwr = true → t.stickyBit .pwr 2 = true)) := by
  obtain ⟨hQuiet, hSticky⟩ := (s.waitTill (k + 200000)).netFails.domTmoEvent_spec
  refine ⟨_, exec_domTmo_net hRise, ?_⟩
  generalize State.domTmoEvent _ = t at hQuiet hSticky
  have hClk : t.clk = (s.waitTill (k + 200000)).clk := (congrArg State.clk hQuiet :)
  have hPwr : t.pwr = (s.waitTill (k + 200000)).netFails.pwr := State.pwr_of_quiet hQuiet
  rw [hClk, hPwr, State.waitTill_clk_cyc]
  exact ⟨max_comm _ _, rfl, bput_get _ _ _ (by decide), bput_get _ _ _ (by decide), hSticky⟩

/-- Bank `b` is on again, not yet initialised (R427). -/
def State.bankBack (s : State) (b : Fin 8) : State :=
  { s with pwr := { s.pwr with
    bank := vset s.pwr.bank b .on, bankAt := vset s.pwr.bankAt b (s.initFrom + 200000)
    bankFail := bput s.pwr.bankFail b.val false } }

theorem exec_domainOn_bank (hRise : s.pwr.bank[b] = .rising k) :
    exec (.domainOn (.bank b)) s = .next ((s.waitTill (k + 80000)).bankBack b).noted := by
  change execDomainOn (.bank b) s = _
  unfold execDomainOn
  dsimp only
  rw [hRise]
  rfl

theorem domainOn_bank (hRise : s.pwr.bank[b] = .rising k) : Completes (.domainOn (.bank b)) s (fun t =>
    t.clk.cyc = max s.clk.cyc (k + 400 * 200) ∧ t.pwr.bank[b] = .on ∧ t.pwr.bankInit = s.pwr.bankInit ∧
    (s.pwr.st ≠ .waking → t.pwr.bankAt[b] = t.clk.cyc + 200000) ∧
    t.quiet = ({ s with clk := t.clk, pwr := t.pwr } : State).quiet) := by
  refine ⟨_, exec_domainOn_bank hRise, ?_⟩
  have hQuiet := ((s.waitTill (k + 80000)).bankBack b).noted_quiet
  generalize State.noted _ = t at hQuiet
  have hClk : t.clk = (s.waitTill (k + 80000)).clk := (congrArg State.clk hQuiet :)
  have hPwr : t.pwr = ((s.waitTill (k + 80000)).bankBack b).pwr := State.pwr_of_quiet hQuiet
  dsimp only
  rw [hClk, hPwr]
  refine ⟨(State.waitTill_clk_cyc _ _).trans (max_comm _ _), vset_same _ _ _, rfl, fun hAwake => ?_, hQuiet⟩
  have hFrom : (s.waitTill (k + 80000)).initFrom = (s.waitTill (k + 80000)).clk.cyc := if_neg hAwake
  exact (vset_same _ _ _).trans (congrArg (· + 200000) hFrom)

/-- The return of bank `b` has failed (R451). -/
def State.bankFails (s : State) (b : Fin 8) : State :=
  { s with pwr := { s.pwr with
    bank := vset s.pwr.bank b .off, bankFail := bput s.pwr.bankFail b.val true, memTmo := s.pwr.memTmo || s.pwr.st == .waking
    stuck := bput s.pwr.stuck (3 + b.val) true, tmoNow := s.pwr.tmoNow || s.pwr.st == .waking } }

theorem exec_domTmo_bank (hRise : s.pwr.bank[b] = .rising k) : exec (.domTmo (.bank b)) s = .next
    (if s.pwr.st == .waking then ((s.waitTill (k + 200000)).bankFails b).domTmoEvent.wakeRetry
      else ((s.waitTill (k + 200000)).bankFails b).domTmoEvent) := by
  change execDomTmo (.bank b) s = _
  unfold execDomTmo
  dsimp only
  rw [hRise]
  rfl

theorem domTmo_bank (hRise : s.pwr.bank[b] = .rising k) (hAwake : s.pwr.st ≠ .waking) : Completes (.domTmo (.bank b)) s (fun t =>
    t.clk.cyc = max s.clk.cyc (k + 400 * 500) ∧ t.pwr.bank[b] = .off ∧ t.pwr.bankFail.getLsbD b.val = true ∧
    t.pwr.stuck.getLsbD (3 + b.val) = true ∧ (s.powered .pwr = true → t.stickyBit .pwr 2 = true)) := by
  obtain ⟨hQuiet, hSticky⟩ := ((s.waitTill (k + 200000)).bankFails b).domTmoEvent_spec
  refine ⟨_, (exec_domTmo_bank hRise).trans (congrArg _ (if_neg (by simpa using hAwake))), ?_⟩
  generalize State.domTmoEvent _ = t at hQuiet hSticky
  have hClk : t.clk = (s.waitTill (k + 200000)).clk := (congrArg State.clk hQuiet :)
  have hPwr : t.pwr = ((s.waitTill (k + 200000)).bankFails b).pwr := State.pwr_of_quiet hQuiet
  rw [hClk, hPwr, State.waitTill_clk_cyc]
  have hLess := b.isLt
  exact ⟨max_comm _ _, vset_same _ _ _, bput_get _ _ _ hLess, bput_get _ _ _ (by omega), hSticky⟩

theorem State.wakeRetry_again (h : s.pwr.wakeRestarts = 0) : let t := s.wakeRetry
    t.clk = s.clk ∧ t.pwr.st = s.pwr.st ∧ t.pwr.wakeRestarts = 1 ∧ t.pwr.memTmo = s.pwr.memTmo ∧ t.pwr.coreTmo = s.pwr.coreTmo ∧
    t.pwr.core = .rising t.nextTick := by
  unfold State.wakeRetry
  dsimp only
  rw [if_pos h]
  exact ⟨rfl, rfl, rfl, rfl, rfl, rfl⟩

theorem State.wakeRetry_fails (h : s.pwr.wakeRestarts ≠ 0) : let t := s.wakeRetry
    t.clk = s.clk ∧ t.pwr.core = .off ∧ t.pwr.st = .off ∧ t.pwr.wakeFail = true ∧ t.pwr.offHeld = true := by
  unfold State.wakeRetry
  dsimp only
  rw [if_neg h]
  exact ⟨rfl, rfl, rfl, rfl, rfl⟩

theorem domTmo_bank_waking (hRise : s.pwr.bank[b] = .rising k) (hWaking : s.pwr.st = .waking) (hFirst : s.pwr.wakeRestarts = 0) :
    Completes (.domTmo (.bank b)) s (fun t => t.clk.cyc = max s.clk.cyc (k + 400 * 500) ∧ t.pwr.st = .waking ∧
      t.pwr.wakeRestarts = 1 ∧ t.pwr.memTmo = true ∧ t.pwr.core = .rising t.nextTick) := by
  have hQuiet := (((s.waitTill (k + 200000)).bankFails b).domTmoEvent_spec).1
  refine ⟨_, (exec_domTmo_bank hRise).trans (congrArg _ (if_pos (by simpa using hWaking))), ?_⟩
  generalize State.domTmoEvent _ = t at hQuiet
  have hClk : t.clk = (s.waitTill (k + 200000)).clk := (congrArg State.clk hQuiet :)
  have hPwr : t.pwr = ((s.waitTill (k + 200000)).bankFails b).pwr := State.pwr_of_quiet hQuiet
  have hCount : t.pwr.wakeRestarts = 0 := by rw [hPwr]; exact hFirst
  obtain ⟨hKept, hSt, hOne, hMem, -, hCore⟩ := State.wakeRetry_again hCount
  refine ⟨?_, ?_, hOne, ?_, hCore⟩
  · rw [hKept, hClk, State.waitTill_clk_cyc, max_comm]
  · rw [hSt, hPwr]; exact hWaking
  · rw [hMem, hPwr]
    change (s.pwr.memTmo || s.pwr.st == .waking) = true
    rw [hWaking]
    exact Bool.or_true _

theorem domainOn_core (hRise : s.pwr.core = .rising k) : Completes (.domainOn .core) s (fun t =>
    t.clk.cyc = max s.clk.cyc (k + 400 * 200) ∧ t = { s with clk := t.clk, pwr := { s.pwr with core := .on } }) := by
  have hTo : exec (.domainOn .core) s =
      .next { s.waitTill (k + 80000) with pwr := { (s.waitTill (k + 80000)).pwr with core := .on } } := by
    change execDomainOn .core s = _
    unfold execDomainOn
    rw [hRise]
    rfl
  exact ⟨_, hTo, (State.waitTill_clk_cyc _ _).trans (max_comm _ _), rfl⟩

/-- The return of CORE has failed (R446). -/
def State.coreFails (s : State) : State := { s with pwr := { s.pwr with coreTmo := true } }

theorem exec_domTmo_core (hRise : s.pwr.core = .rising k) :
    exec (.domTmo .core) s = .next (s.waitTill (k + 200000)).coreFails.wakeRetry := by
  change execDomTmo .core s = _
  unfold execDomTmo
  rw [hRise]
  rfl

theorem domTmo_core (hRise : s.pwr.core = .rising k) :
    (s.pwr.wakeRestarts = 0 → Completes (.domTmo .core) s (fun t => t.clk.cyc = max s.clk.cyc (k + 400 * 500) ∧
      t.pwr.core = .rising t.nextTick ∧ t.pwr.wakeRestarts = 1 ∧ t.pwr.st = s.pwr.st ∧ t.pwr.coreTmo = true)) ∧
    (s.pwr.wakeRestarts ≠ 0 → Completes (.domTmo .core) s (fun t => t.clk.cyc = max s.clk.cyc (k + 400 * 500) ∧
      t.pwr.core = .off ∧ t.pwr.st = .off ∧ t.pwr.wakeFail = true ∧ t.pwr.offHeld = true)) := by
  have hCyc : (s.waitTill (k + 200000)).coreFails.clk.cyc = max s.clk.cyc (k + 400 * 500) :=
    (State.waitTill_clk_cyc _ _).trans (max_comm _ _)
  refine ⟨fun h => ⟨_, exec_domTmo_core hRise, ?_⟩, fun h => ⟨_, exec_domTmo_core hRise, ?_⟩⟩
  · obtain ⟨hClk, hSt, hOne, -, hTmo, hCore⟩ := State.wakeRetry_again (s := (s.waitTill (k + 200000)).coreFails) h
    exact ⟨hClk ▸ hCyc, hCore, hOne, hSt, hTmo⟩
  · obtain ⟨hClk, hRest⟩ := State.wakeRetry_fails (s := (s.waitTill (k + 200000)).coreFails) h
    exact ⟨hClk ▸ hCyc, hRest⟩

theorem State.crzBanks_frame (s : State) : s.crzBanks = { s with crz := s.crzBanks.crz } := by
  unfold State.crzBanks
  dsimp only
  split <;> rfl

theorem memBankInitDone_opens (hOn : s.pwr.bank[b].isOn = true) (hInit : s.pwr.bankInit.getLsbD b.val = false) :
    Completes (.memBankInitDone b) s (fun t => t.clk.cyc = max s.clk.cyc s.pwr.bankAt[b] ∧ t.bankOn b = true ∧
      t = { s with clk := t.clk, crz := t.crz, pwr := { s.pwr with bankInit := bput s.pwr.bankInit b.val true } }) := by
  have hTo : exec (.memBankInitDone b) s = .next (State.crzBanks { s.waitTill s.pwr.bankAt[b] with
      pwr := { s.pwr with bankInit := bput s.pwr.bankInit b.val true } }) :=
    if_pos (by rw [hOn, hInit]; rfl)
  have hFrame := State.crzBanks_frame { s.waitTill s.pwr.bankAt[b] with
      pwr := { s.pwr with bankInit := bput s.pwr.bankInit b.val true } }
  refine ⟨_, hTo, ?_⟩
  generalize State.crzBanks _ = t at hFrame
  have hClk : t.clk = (s.waitTill s.pwr.bankAt[b]).clk := (congrArg State.clk hFrame :)
  have hPwr : t.pwr = { s.pwr with bankInit := bput s.pwr.bankInit b.val true } := (congrArg State.pwr hFrame :)
  refine ⟨?_, ?_, ?_⟩
  · rw [hClk, State.waitTill_clk_cyc, max_comm]
  · unfold State.bankOn
    rw [hPwr]
    exact Bool.and_eq_true_iff.mpr ⟨hOn, bput_get _ _ _ b.isLt⟩
  · rw [hClk]
    exact hFrame

theorem memBankInitDone_rests (h : s.pwr.bank[b].isOn = false ∨ s.pwr.bankInit.getLsbD b.val = true) :
    exec (.memBankInitDone b) s = .next s := by
  refine if_neg ?_
  rw [Bool.and_eq_true, Bool.not_eq_true']
  rintro ⟨hOn, hInit⟩
  rcases h with h | h
  · exact Bool.false_ne_true (h.symm.trans hOn)
  · exact Bool.false_ne_true (hInit.symm.trans h)

end

/-! ## The calibration of a half (R427) -/

section
variable {s : State} {h : Half} {pf : BitVec 4} {tr : Vector TrimVals 4}

/-- The channels of half `h`, in order. -/
def halfChan (h : Half) (i : Fin 4) : Fin 8 := Fin.ofNat 8 (4 * h.num + i.val)

theorem halfChan_inj {i j : Fin 4} (e : halfChan h i = halfChan h j) : i = j := by
  cases h <;> revert i j <;> decide

/-- The trims that the calibration of half `h` has measured, for the channels in `l`. -/
def State.halfLatched (s : State) (h : Half) (pf : BitVec 4) (tr : Vector TrimVals 4) (l : List (Fin 4)) : State :=
  l.foldl (fun st i => st.latchTrims (halfChan h i) (pf.getLsbD i.val) tr[i]) s

theorem State.latchTrims_get (s : State) (n m : Fin 8) (bad : Bool) (t : TrimVals) :
    ((s.latchTrims n bad t).scl[m]).trims = if m = n ∧ bad = false then t else (s.scl[m]).trims := by
  unfold State.latchTrims
  cases bad with
  | true => simp
  | false =>
    by_cases e : m = n
    · rw [e]
      simpa using (congrArg Scl.trims (vset_same s.scl n _) :)
    · simpa [e] using (congrArg Scl.trims (vset_other s.scl n m _ e) :)

theorem State.halfLatched_get (i : Fin 4) (l : List (Fin 4)) : ∀ s : State,
    ((s.halfLatched h pf tr l).scl[halfChan h i]).trims =
      if i ∈ l ∧ pf.getLsbD i.val = false then tr[i] else (s.scl[halfChan h i]).trims := by
  induction l with
  | nil => simp [State.halfLatched]
  | cons j l ih =>
    intro s
    refine (ih _).trans ?_
    rw [State.latchTrims_get]
    by_cases e : i = j
    · subst e
      cases pf.getLsbD i.val <;> simp
    · have hOther : halfChan h i ≠ halfChan h j := fun g => e (halfChan_inj g)
      simp [e, hOther]

theorem State.halfLatched_frame (s : State) (l : List (Fin 4)) :
    s.halfLatched h pf tr l = { s with scl := (s.halfLatched h pf tr l).scl } := by
  refine List.foldlRecOn (motive := fun t : State => t = { s with scl := t.scl }) l _ rfl fun t ht i _ => ?_
  unfold State.latchTrims
  split
  · exact ht
  · rw [ht]

/-- The calibration of half `h` has ended, its channels and slots not yet started. -/
def State.halfCalibrated (s : State) (h : Half) (pf : BitVec 4) (tr : Vector TrimVals 4) : State :=
  let t := (s.waitTill (s.pwr.calAt.get h)).halfLatched h pf tr (List.finRange 4)
  { t with pwr := { t.pwr with calBusy := t.pwr.calBusy.set h false } }

/-- The channels and slots of half `h` that have been enabled start. -/
def State.halfStarts (s : State) (h : Half) : State :=
  ((List.finRange 4).foldl (fun st i =>
    if st.PCH_CTRL_EN (halfChan h i).val = 1 then st.enableChan (halfChan h i) else st) s).auxJudge

theorem State.enableChan_keeps (s : State) (n : Fin 8) : s.Kept (s.enableChan n) ∧ s.Trimmed (s.enableChan n) :=
  ⟨.ite (State.startChan_kept _ _ _) (.refl s), .ite (State.startChan_trimmed _ _ _) (.refl s)⟩

theorem State.halfStarts_keeps (s : State) (h : Half) : s.Kept (s.halfStarts h) ∧ s.Trimmed (s.halfStarts h) := by
  unfold State.halfStarts
  have hKept (t : State) (i : Fin 4) :
      t.Kept (if t.PCH_CTRL_EN (halfChan h i).val = 1 then t.enableChan (halfChan h i) else t) :=
    .ite (t.enableChan_keeps _).1 (.refl t)
  have hTrimmed (t : State) (i : Fin 4) :
      t.Trimmed (if t.PCH_CTRL_EN (halfChan h i).val = 1 then t.enableChan (halfChan h i) else t) :=
    .ite (t.enableChan_keeps _).2 (.refl t)
  exact ⟨(State.Kept.foldl hKept _ _).trans (State.auxJudge_kept _),
    (Trimmed.foldl hTrimmed _ _).trans (State.auxJudge_trimmed _)⟩

theorem exec_halfCalDone {af : Bool} (hBusy : s.pwr.calBusy.get h = true) :
    exec (.halfCalDone h pf af tr) s = .next ((s.halfCalibrated h pf tr).halfStarts h) :=
  if_neg (by rw [hBusy]; exact Bool.false_ne_true)

theorem halfCalDone_ends {af : Bool} (hBusy : s.pwr.calBusy.get h = true) : Completes (.halfCalDone h pf af tr) s (fun t =>
    t.pwr.calBusy.get h = false ∧ t.aux.calf = s.aux.calf ∧ t.clk.cyc = max s.clk.cyc (s.pwr.calAt.get h) ∧ t.cfg = s.cfg ∧
    ∀ i : Fin 4, let n : Fin 8 := Fin.ofNat 8 (4 * h.num + i.val)
      (t.pch[n]).calf = (s.pch[n]).calf ∧ (t.scl[n]).trims = if pf.getLsbD i.val then (s.scl[n]).trims else tr[i]) := by
  obtain ⟨hKept, hTrimmed⟩ := (s.halfCalibrated h pf tr).halfStarts_keeps h
  have hGet (i : Fin 4) := State.halfLatched_get (h := h) (pf := pf) (tr := tr) i (List.finRange 4) (s.waitTill (s.pwr.calAt.get h))
  have hFrame := (s.waitTill (s.pwr.calAt.get h)).halfLatched_frame (h := h) (pf := pf) (tr := tr) (List.finRange 4)
  have hStart : s.halfCalibrated h pf tr = { s.waitTill (s.pwr.calAt.get h) with
      scl := (s.halfCalibrated h pf tr).scl, pwr := { s.pwr with calBusy := s.pwr.calBusy.set h false } } := by
    unfold State.halfCalibrated
    dsimp only
    rw [hFrame]
    rfl
  have hScl : (s.halfCalibrated h pf tr).scl =
      ((s.waitTill (s.pwr.calAt.get h)).halfLatched h pf tr (List.finRange 4)).scl := rfl
  rw [← hScl] at hGet
  refine ⟨_, exec_halfCalDone hBusy, ?_⟩
  generalize (s.halfCalibrated h pf tr).halfStarts h = t at hKept hTrimmed
  generalize s.halfCalibrated h pf tr = u at hKept hTrimmed hStart hGet
  have hClk : t.clk = u.clk := congrArg ReleaseView.clk hKept.view
  have hPwr : t.pwr = u.pwr := congrArg ReleaseView.pwr hKept.view
  have hCfg : t.cfg = u.cfg := congrArg ReleaseView.cfg hKept.view
  refine ⟨?_, ?_, ?_, ?_, fun i => ⟨?_, ?_⟩⟩
  · rw [hPwr, hStart]
    exact Two.get_set _ _ _
  · exact hTrimmed.aux.trans (congrArg (fun v : State => v.aux.calf) hStart :)
  · rw [hClk, (congrArg State.clk hStart :)]
    exact (State.waitTill_clk_cyc _ _).trans (max_comm _ _)
  · exact hCfg.trans (congrArg State.cfg hStart :)
  · exact (hTrimmed.calf _).trans (congrArg (fun v : State => (v.pch[halfChan h i]).calf) hStart :)
  · refine (hTrimmed.trims _).trans ((hGet i).trans ?_)
    cases pf.getLsbD i.val <;> simp [halfChan, State.waitTill, State.wait]

theorem halfCalDone_rests {af : Bool} (hIdle : s.pwr.calBusy.get h = false) : exec (.halfCalDone h pf af tr) s = .next s :=
  if_pos (by rw [hIdle]; rfl)

end

/-- Settles O57: a return of a domain writes its own fields, and what is judged after it, conditions, slots, channels and Cruise,
keeps clock, registers, power manager, regulators' codes and trims; a return that fails is an event or a wake begun again. -/
theorem domainsReturn : Obligations.DomainsReturn := by
  unfold Obligations.DomainsReturn
  intro s h b k pf af tr
  refine ⟨fun hRise => ?_, fun hRise => ⟨domainOn_net hRise, domTmo_net hRise⟩,
    fun hRise => ⟨domainOn_bank hRise, domTmo_bank hRise, domTmo_bank_waking hRise⟩,
    fun hRise => ⟨domainOn_core hRise, domTmo_core hRise⟩, memBankInitDone_opens, memBankInitDone_rests, halfCalDone_rests,
    halfCalDone_ends⟩
  cases h with
  | h0 => exact ⟨domainOn_half (h := .h0) hRise, domTmo_half (h := .h0) hRise⟩
  | h1 => exact ⟨domainOn_half (h := .h1) hRise, domTmo_half (h := .h1) hRise⟩

end Sys2Proof.Machine
end

section
/-! PROOFS. What leaves the SRAM alone: nearly every operation of the model, chapter by chapter. -/

namespace Sys2Proof.Machine

@[simp] theorem State.sram_ite (c : Prop) [Decidable c] (a b : State) : (if c then a else b).sram = if c then a.sram else b.sram :=
  apply_ite _ _ _ _

/-- A fold over operations that leave the SRAM alone leaves it alone. -/
theorem State.foldl_sram {α : Type} (g : State → α → State) (h : ∀ s x, (g s x).sram = s.sram) (l : List α) (s : State) :
    (l.foldl g s).sram = s.sram :=
  List.foldlRecOn (motive := fun t : State => t.sram = s.sram) l g rfl fun t ht x _ => (h t x).trans ht

section
variable (s : State)

/-! ## Registers -/

@[simp] theorem State.markParity_sram (p : Page) (a : Nat) : (s.markParity p a).sram = s.sram := by simp [State.markParity]

/-! ## Shared operations -/

@[simp] theorem State.only_sram (st : Status) : (s.only st).2.sram = s.sram := rfl

@[simp] theorem State.setSslAt_sram (d : Drive) (t : Nat) : (s.setSslAt d t).sram = s.sram := by simp [State.setSslAt]

@[simp] theorem State.offerRaw_sram (i : Fin 64) (src : Nat) (payload : List Byte) :
    (s.offerRaw i src payload).sram = s.sram := rfl

@[simp] theorem State.settle_sram (i : Fin 64) : (s.settle i).sram = s.sram := by simp [State.settle]

@[simp] theorem State.settleAll_sram : s.settleAll.sram = s.sram := by simp [State.settleAll, State.foldl_sram]

@[simp] theorem State.offer_sram (i : Fin 64) (src : Nat) (payload : List Byte) : (s.offer i src payload).sram = s.sram := by
  simp [State.offer]

/-! ## Flags, reports, reactions -/

@[simp] theorem State.noteHeld_sram (p : Page) (b : Nat) : (s.noteHeld p b).sram = s.sram := rfl

@[simp] theorem State.askHandover_sram (d : Drive) (h : Half) (p : Page) (b : Nat) : (s.askHandover d h p b).sram = s.sram := by
  simp [State.askHandover]

@[simp] theorem State.reactHo_sram (d : Drive) (h : Half) (p : Page) (b : Nat) : (s.reactHo d h p b).sram = s.sram := by
  simp [State.reactHo]

@[simp] theorem State.reactDev_sram : s.reactDev.sram = s.sram := by simp [State.reactDev]

@[simp] theorem State.react_sram (p : Page) (b : Nat) (r : Nat) (aff : Drive → Bool) : (s.react p b r aff).sram = s.sram := by
  unfold State.react
  (repeat' split) <;> simp

@[simp] theorem State.fltTriggers_sram (r : Nat) : (s.fltTriggers r).sram = s.sram := rfl

@[simp] theorem State.markRecord_sram (p : Page) (code : Word) (full : Bool) : (s.markRecord p code full).sram = s.sram := rfl

@[simp] theorem State.yieldBlaze_sram (p : Page) (r : Report) : (s.yieldBlaze p r).sram = s.sram := by simp [State.yieldBlaze]

@[simp] theorem State.fileReport_sram (p : Page) (r : Report) : (s.fileReport p r).sram = s.sram := by simp [State.fileReport]

@[simp] theorem State.report_sram (p : Page) (b : Nat) (c : Copy) (m : Master) : (s.report p b c m).sram = s.sram := by
  simp [State.report]

@[simp] theorem State.flash_sram (p : Page) (b : Nat) : (s.flash p b).sram = s.sram := rfl

@[simp] theorem State.event_sram (p : Page) (b : Nat) (c : Copy) : (s.event p b c).sram = s.sram := by simp [State.event]

@[simp] theorem State.cond_sram (p : Page) (b : Nat) (c : Copy) (v : Bool) : (s.cond p b c v).sram = s.sram := by
  simp [State.cond]

@[simp] theorem State.checkerErr_sram (p : Page) (n : Nat) (uncorr : Bool) : (s.checkerErr p n uncorr).sram = s.sram := by
  simp [State.checkerErr]

@[simp] theorem State.eccPut_sram (p : Page) (a : Nat) : (s.eccPut p a).sram = s.sram := rfl

@[simp] theorem State.eccGet_sram (p : Page) (a : Nat) (v : Word) : (s.eccGet p a v).2.2.sram = s.sram := by
  unfold State.eccGet
  (repeat' split) <;> simp

@[simp] theorem State.fabReport_sram (b : Nat) (m : Master) (addr : Nat) (wr : Bool) :
    (s.fabReport b m addr wr).sram = s.sram := by simp [State.fabReport]

@[simp] theorem State.inst_sram (s : State) (x : Half) (addr : Nat) (r : Status × State) (h : r.2.sram = s.sram) :
    (s.inst x addr r).2.sram = s.sram := by
  unfold State.inst
  split <;> simp [h]

@[simp] theorem State.instRead_sram (s : State) (x : Half) (addr : Nat) (r : Status × State) (h : r.2.sram = s.sram) :
    (s.instRead x addr r).2.sram = s.sram := by
  unfold State.instRead
  split <;> simp [h]

/-! ## Bridges and angle generators -/

@[simp] theorem State.startExc_sram (n : Fin 4) : (s.startExc n).sram = s.sram := by simp [State.startExc]

@[simp] theorem State.judgeClip_sram (n : Fin 4) : (s.judgeClip n).sram = s.sram := by simp [State.judgeClip]

@[simp] theorem State.reframeAll_sram (s old : State) : (s.reframeAll old).sram = s.sram := rfl

@[simp] theorem State.takeGen_sram (p : Vector Pub 8) (rest : List (Nat × Vector Pub 8)) : (s.takeGen p rest).sram = s.sram := rfl

/-! ## Encoder outputs and channels, at a loss -/

@[simp] theorem State.tallyEvent_sram (n : Fin 4) (code : Nat) (jump : Int) : (s.tallyEvent n code jump).sram = s.sram := by
  simp [State.tallyEvent]

@[simp] theorem State.judgeTally_sram (n : Fin 4) : (s.judgeTally n).sram = s.sram := by simp [State.judgeTally]

@[simp] theorem State.encFollow_sram (n : Fin 4) : (s.encFollow n).sram = s.sram := by simp [State.encFollow]

@[simp] theorem State.encFollowAll_sram : s.encFollowAll.sram = s.sram := by simp [State.encFollowAll, State.foldl_sram]

@[simp] theorem State.pcond_sram (n : Fin 8) (b : Nat) (v : Bool) : (s.pcond n b v).sram = s.sram := by simp [State.pcond]

@[simp] theorem State.freezeLost_sram : s.freezeLost.sram = s.sram := rfl

@[simp] theorem State.setTag_sram (n : Fin 8) (tag : BitVec 8) : (s.setTag n tag).sram = s.sram := by simp [State.setTag]

@[simp] theorem State.retag_sram (n : Fin 8) : (s.retag n).sram = s.sram := by simp [State.retag]

@[simp] theorem State.unvalid_sram (n : Fin 8) : (s.unvalid n).sram = s.sram := by simp [State.unvalid]

@[simp] theorem State.dropCratio_sram (n : Fin 8) : (s.dropCratio n).sram = s.sram := by simp [State.dropCratio]

@[simp] theorem State.lossWindow_sram (n : Fin 8) : (s.lossWindow n).sram = s.sram := by simp [State.lossWindow]

@[simp] theorem State.declareLoss_sram (n : Fin 8) (i : Nat) : (s.declareLoss n i).sram = s.sram := by simp [State.declareLoss]

@[simp] theorem State.declareOnce_sram (n : Fin 8) (i : Nat) : (s.declareOnce n i).sram = s.sram := by simp [State.declareOnce]

@[simp] theorem State.causeEnds_sram (n : Fin 8) (i : Nat) : (s.causeEnds n i).sram = s.sram := by simp [State.causeEnds]

@[simp] theorem State.judgeDrv_sram (n : Fin 8) : (s.judgeDrv n).sram = s.sram := by simp [State.judgeDrv]

@[simp] theorem State.judgeDrvAll_sram : s.judgeDrvAll.sram = s.sram := by simp [State.judgeDrvAll, State.foldl_sram]

@[simp] theorem State.standingCauses_sram (n : Fin 8) : (s.standingCauses n).sram = s.sram := by simp [State.standingCauses]

@[simp] theorem State.startChan_sram (n : Fin 8) (rearm : Bool) : (s.startChan n rearm).sram = s.sram := by simp [State.startChan]

@[simp] theorem State.enableChan_sram (n : Fin 8) : (s.enableChan n).sram = s.sram := by simp [State.enableChan]

@[simp] theorem State.stopChan_sram (n : Fin 8) : (s.stopChan n).sram = s.sram := by simp [State.stopChan]

@[simp] theorem State.rearm_sram (n : Fin 8) : (s.rearm n).sram = s.sram := by simp [State.rearm]

/-! ## Channels: front end and loop -/

@[simp] theorem State.sampleBits_sram (n : Fin 8) : (s.sampleBits n).sram = s.sram := by simp [State.sampleBits]

@[simp] theorem State.oneSample_sram (n : Fin 8) (k : Nat) (x : Sample) (t : TickSum) :
    (s.oneSample n k x t).1.sram = s.sram := by
  unfold State.oneSample
  dsimp only
  (repeat' split) <;> simp

@[simp] theorem State.fiveSamples_sram (n : Fin 8) (i : TickSamples) : (s.fiveSamples n i).1.sram = s.sram := by
  simp [State.fiveSamples]

@[simp] theorem State.formPair_sram (n : Fin 8) (t0 : TickSum) : (s.formPair n t0).sram = s.sram := by simp [State.formPair]

@[simp] theorem State.ampVerdict_sram (n : Fin 8) (b : Nat) (i : Nat) (v : Bool) : (s.ampVerdict n b i v).sram = s.sram := by
  simp [State.ampVerdict]

@[simp] theorem State.judgeAmp_sram (n : Fin 8) : (s.judgeAmp n).sram = s.sram := by simp [State.judgeAmp]

@[simp] theorem State.periodTick_sram (n : Fin 8) : (s.periodTick n).sram = s.sram := rfl

@[simp] theorem State.phaseAdapt_sram (n : Fin 8) : (s.phaseAdapt n).sram = s.sram := by simp [State.phaseAdapt]

@[simp] theorem State.coefPut_sram (s : State) (n : Fin 8) (m : BitVec 18) : (s.coefPut n m).sram = s.sram := by
  unfold State.coefPut
  exact State.foldl_sram _ (fun _ _ => State.eccPut_sram _ _ _) _ _

@[simp] theorem State.sclTake_sram (s : State) (n : Fin 8) : (s.sclTake n).sram = s.sram := by
  unfold State.sclTake
  dsimp only
  split <;> simp

@[simp] theorem State.sclApplyDue_sram (s : State) (n : Fin 8) : (s.sclApplyDue n).sram = s.sram := by
  simp [State.sclApplyDue]

@[simp] theorem State.loopTick_sram (n : Fin 8) : (s.loopTick n).sram = s.sram := rfl

@[simp] theorem State.judgeCratio_sram (n : Fin 8) : (s.judgeCratio n).sram = s.sram := by simp [State.judgeCratio]

@[simp] theorem State.endCoastLong_sram (n : Fin 8) : (s.endCoastLong n).sram = s.sram := by simp [State.endCoastLong]

@[simp] theorem State.respTick_sram (n : Fin 8) : (s.respTick n).sram = s.sram := by simp [State.respTick]

@[simp] theorem State.takeSect_sram (n : Fin 8) : (s.takeSect n).sram = s.sram := by
  unfold State.takeSect
  dsimp only
  (repeat' split) <;> simp

@[simp] theorem State.publish_sram (n : Fin 8) (first : Bool) : (s.publish n first).sram = s.sram := by simp [State.publish]

@[simp] theorem State.learnTick_sram (n : Fin 8) : (s.learnTick n).sram = s.sram := rfl

@[simp] theorem State.chanTick_sram (s : State) (n : Fin 8) (i : TickSamples) : (s.chanTick n i).sram = s.sram := by
  unfold State.chanTick
  dsimp only
  split
  · rfl
  · split <;> simp

/-! ## Channels and their coefficients, written by the host -/

@[simp] theorem State.pchSetEn_sram (n : Fin 8) (en : Bool) : (s.pchSetEn n en).sram = s.sram := by simp [State.pchSetEn]

@[simp] theorem State.pchCntClr_sram (n : Fin 8) : (s.pchCntClr n).sram = s.sram := rfl

@[simp] theorem State.clearLoss_sram (n : Fin 8) : (s.clearLoss n).sram = s.sram := by simp [State.clearLoss]

@[simp] theorem State.trackFault_sram (n : Fin 8) (b : Nat) (i : Nat) : (s.trackFault n b i).sram = s.sram := by
  simp [State.trackFault]

@[simp] theorem State.writeSect_sram (n : Fin 8) (v : Word) : (s.writeSect n v).2.sram = s.sram := by simp [State.writeSect]

@[simp] theorem State.pchCapture_sram (n : Fin 8) : (s.pchCapture n).sram = s.sram := by simp [State.pchCapture]

@[simp] theorem State.predRead_sram (n : Fin 8) : (s.predRead n).sram = s.sram := rfl

@[simp] theorem State.writePredLo_sram (n : Fin 8) (v : Word) : (s.writePredLo n v).sram = s.sram := by simp [State.writePredLo]

@[simp] theorem State.writePredHi_sram (n : Fin 8) (v : Word) : (s.writePredHi n v).sram = s.sram := by simp [State.writePredHi]

@[simp] theorem State.pchPeakClr_sram (n : Fin 8) : (s.pchPeakClr n).sram = s.sram := rfl

@[simp] theorem State.sclCoef_sram (n : Fin 8) (r : Fin 18) (v : Word) : (s.sclCoef n r v).sram = s.sram := rfl

@[simp] theorem State.sclCtrl_sram (n : Fin 8) (v : Word) : (s.sclCtrl n v).sram = s.sram := by simp [State.sclCtrl]

@[simp] theorem State.sclNeutral_sram (n : Fin 8) : (s.sclNeutral n).sram = s.sram := rfl

@[simp] theorem State.sclAlign_sram (n : Fin 8) (v : Nat) : (s.sclAlign n v).2.sram = s.sram := by simp [State.sclAlign]

@[simp] theorem State.trimReq_sram (n : Fin 8) : (s.trimReq n).sram = s.sram := by simp [State.trimReq]

@[simp] theorem State.awaitGate_sram (n : Fin 8) : (s.awaitGate n).sram = s.sram := by simp [State.awaitGate]

@[simp] theorem State.sweepTurns_sram (h : Half) : (s.sweepTurns h).sram = s.sram := by simp [State.sweepTurns, State.foldl_sram]

@[simp] theorem State.sweepDone_sram (n : Fin 8) : (s.sweepDone n).sram = s.sram := by simp [State.sweepDone]

/-! ## Bridges -/

@[simp] theorem State.excAtOnce_sram (n : Fin 4) : (s.excAtOnce n).sram = s.sram := by
  unfold State.excAtOnce
  dsimp only
  (repeat' split) <;> simp

@[simp] theorem State.tripExc_sram (n : Fin 4) : (s.tripExc n).sram = s.sram := by
  unfold State.tripExc
  dsimp only
  (repeat' split) <;> simp

@[simp] theorem State.excSetEn_sram (n : Fin 4) (en : Bool) : (s.excSetEn n en).sram = s.sram := by
  unfold State.excSetEn
  dsimp only
  (repeat' split) <;> simp

@[simp] theorem State.excRestart_sram (n : Fin 4) : (s.excRestart n).sram = s.sram := by simp [State.excRestart]

@[simp] theorem State.excStore_sram (n : Fin 4) (off : Nat) (v : Word) : (s.excStore n off v).sram = s.sram := by
  simp [State.excStore]

@[simp] theorem State.writeExcFreq_sram (n : Fin 4) (v : Word) : (s.writeExcFreq n v).2.sram = s.sram := by
  simp [State.writeExcFreq]

@[simp] theorem State.writeExcCtrl_sram (n : Fin 4) (v : Word) : (s.writeExcCtrl n v).sram = s.sram := by
  simp [State.writeExcCtrl]

@[simp] theorem State.excMeasure_sram (n : Fin 4) (m : ExcMeas) : (s.excMeasure n m).sram = s.sram := by simp [State.excMeasure]

@[simp] theorem State.excLevel_sram (n : Fin 4) : (s.excLevel n).sram = s.sram := by
  unfold State.excLevel
  dsimp only
  (repeat' split) <;> simp

@[simp] theorem State.ceilMove_sram (c : Fin 8) : (s.ceilMove c).sram = s.sram := by simp [State.ceilMove]

@[simp] theorem State.excTake_sram (n : Fin 4) : (s.excTake n).sram = s.sram := by simp [State.excTake, State.foldl_sram]

@[simp] theorem State.excStop_sram (n : Fin 4) : (s.excStop n).sram = s.sram := by simp [State.excStop]

@[simp] theorem State.excTemp_sram (n : Fin 4) (t : BitVec 16) : (s.excTemp n t).sram = s.sram := rfl

@[simp] theorem State.tripRail_sram (r : Fin 2) : (s.tripRail r).sram = s.sram := by simp [State.tripRail]

@[simp] theorem State.setVexc_sram (r : Fin 2) (mv : Nat) : (s.setVexc r mv).sram = s.sram := by simp [State.setVexc]

@[simp] theorem State.railCond_sram (r : Fin 2) (high v : Bool) : (s.railCond r high v).sram = s.sram := by simp [State.railCond]

@[simp] theorem State.vexcJudge_sram (r : Fin 2) : (s.vexcJudge r).sram = s.sram := by simp [State.vexcJudge]

@[simp] theorem State.excRelease_sram : s.excRelease.sram = s.sram := by simp [State.excRelease, State.foldl_sram]

/-! ## Digital inputs -/

@[simp] theorem State.dcond_sram (n : Fin 4) (b : Nat) (v : Bool) : (s.dcond n b v).sram = s.sram := by simp [State.dcond]

@[simp] theorem State.devent_sram (n : Fin 4) (b : Nat) : (s.devent n b).sram = s.sram := by simp [State.devent]

@[simp] theorem State.dchStart_sram (n : Fin 4) : (s.dchStart n).sram = s.sram := rfl

@[simp] theorem State.dchStop_sram (n : Fin 4) : (s.dchStop n).sram = s.sram := by simp [State.dchStop]

@[simp] theorem State.dchSetEn_sram (n : Fin 4) (en : Bool) : (s.dchSetEn n en).sram = s.sram := by simp [State.dchSetEn]

@[simp] theorem State.dchModeWritten_sram (n : Fin 4) : (s.dchModeWritten n).sram = s.sram := by simp [State.dchModeWritten]

@[simp] theorem State.judgeMiss_sram (n : Fin 4) : (s.judgeMiss n).sram = s.sram := by simp [State.judgeMiss]

@[simp] theorem State.dchMove_sram (n : Fin 4) (v : BitVec 3) : (s.dchMove n v).sram = s.sram := by simp [State.dchMove]

@[simp] theorem State.dchSample_sram : s.dchSample.sram = s.sram := rfl

@[simp] theorem State.indexJudge_sram (n : Fin 4) : (s.indexJudge n).sram = s.sram := by simp [State.indexJudge]

@[simp] theorem State.raiseSlip_sram (n : Fin 4) : (s.raiseSlip n).sram = s.sram := by simp [State.raiseSlip]

@[simp] theorem State.refClr_sram (n : Fin 4) : (s.refClr n).sram = s.sram := by
  unfold State.refClr
  dsimp only
  (repeat' split) <;> simp

@[simp] theorem State.uncClr_sram (n : Fin 4) : (s.uncClr n).sram = s.sram := rfl

@[simp] theorem State.ssiStart_sram (n : Fin 4) : (s.ssiStart n).sram = s.sram := by simp [State.ssiStart]

@[simp] theorem State.dchTick_sram (n : Fin 4) : (s.dchTick n).sram = s.sram := by simp [State.dchTick]

@[simp] theorem State.captureFrom_sram (s : State) (a : Nat) (xs : List Word) : (s.captureFrom a xs).sram = s.sram := by
  induction xs generalizing s a with
  | nil => rfl
  | cons w ws ih => simp [State.captureFrom, ih]

@[simp] theorem State.writeDchCtrl_sram (n : Fin 4) (v : Word) : (s.writeDchCtrl n v).sram = s.sram := by
  simp [State.writeDchCtrl]

@[simp] theorem State.dchRelease_sram : s.dchRelease.sram = s.sram := by simp [State.dchRelease, State.foldl_sram]

/-! ## Encoder outputs -/

@[simp] theorem State.encPads_sram (n : Fin 4) : (s.encPads n).sram = s.sram := by simp [State.encPads]

@[simp] theorem State.presetDo_sram (n : Fin 4) : (s.presetDo n).sram = s.sram := by simp [State.presetDo]

@[simp] theorem State.encPreset_sram (n : Fin 4) : (s.encPreset n).sram = s.sram := by simp [State.encPreset]

@[simp] theorem State.presetLate_sram (d : Drive) : (s.presetLate d).sram = s.sram := by simp [State.presetLate, State.foldl_sram]

@[simp] theorem State.encConfig_sram (n : Fin 4) (off : Nat) : (s.encConfig n off).sram = s.sram := by simp [State.encConfig]

@[simp] theorem State.setDup_sram (a : Nat) (v : Word) : (s.setDup a v).sram = s.sram := by simp [State.setDup]

@[simp] theorem State.encSetEn_sram (n : Fin 4) (en : Bool) : (s.encSetEn n en).sram = s.sram := by simp [State.encSetEn]

@[simp] theorem State.dup_sram (s : State) (addr : Nat) (r : Status × State) (h : r.2.sram = s.sram) :
    (s.dup addr r).2.sram = s.sram := by
  unfold State.dup
  split <;> simp [h]

@[simp] theorem State.dupRead_sram (s : State) (addr : Nat) (r : Status × State) (h : r.2.sram = s.sram) :
    (s.dupRead addr r).2.sram = s.sram := by
  unfold State.dupRead
  split <;> simp [h]

@[simp] theorem State.encStep_sram (n : Fin 4) : (s.encStep n).sram = s.sram := by simp [State.encStep]

@[simp] theorem State.encCapture_sram (n : Fin 4) : (s.encCapture n).sram = s.sram := by simp [State.encCapture]

@[simp] theorem State.encLatch_sram (d : Drive) (h : Half) : (s.encLatch d h).sram = s.sram := by
  simp [State.encLatch, State.foldl_sram]

@[simp] theorem State.writeEncCtrl_sram (n : Fin 4) (v : Word) : (s.writeEncCtrl n v).sram = s.sram := by
  simp [State.writeEncCtrl]

/-! ## The scheduler -/

@[simp] theorem State.presetSlot_sram (i : Fin 256) : (s.presetSlot i).sram = s.sram := by
  unfold State.presetSlot
  dsimp only
  (repeat' split) <;> simp

@[simp] theorem State.driveOut_sram (n : Fin 8) (place : Nat) (op : OutOp) : (s.driveOut n place op).sram = s.sram := by
  simp [State.driveOut]

@[simp] theorem State.slotAct_sram (i : Fin 256) : (s.slotAct i).sram = s.sram := by simp [State.slotAct]

@[simp] theorem State.slotStep_sram (i : Fin 256) (up : Bool) (late : Bool) : (s.slotStep i up late).sram = s.sram := by
  simp [State.slotStep]

@[simp] theorem State.slotRule_sram (i : Fin 256) : (s.slotRule i).sram = s.sram := by
  unfold State.slotRule
  dsimp only
  (repeat' split) <;> simp

@[simp] theorem State.commitSlot_sram (i : Fin 256) : (s.commitSlot i).sram = s.sram := by
  unfold State.commitSlot
  dsimp only
  (repeat' split) <;> simp

@[simp] theorem State.presetDrive_sram (d : Drive) : (s.presetDrive d).sram = s.sram := by
  simp [State.presetDrive, State.foldl_sram]

@[simp] theorem State.judgeFreeze_sram (d : Drive) : (s.judgeFreeze d).sram = s.sram := by simp [State.judgeFreeze]

@[simp] theorem State.stageSlot_sram (i : Fin 256) (par : Bool) (v : Word) : (s.stageSlot i par v).sram = s.sram := rfl

@[simp] theorem State.angSlot_sram (i : Fin 256) (v : Word) : (s.angSlot i v).sram = s.sram := rfl

@[simp] theorem State.aevForce_sram (n : Fin 8) (set : Bool) (clr : Bool) : (s.aevForce n set clr).sram = s.sram := by
  simp [State.aevForce]

@[simp] theorem State.aevSetEn_sram (en : Bool) : (s.aevSetEn en).sram = s.sram := by simp [State.aevSetEn, State.foldl_sram]

@[simp] theorem State.aevCntClr_sram : s.aevCntClr.sram = s.sram := rfl

@[simp] theorem State.writeAevCtrl_sram (v : Word) : (s.writeAevCtrl v).sram = s.sram := by simp [State.writeAevCtrl]

@[simp] theorem State.slotLatch_sram (h : Half) (i : Fin 256) : (s.slotLatch h i).sram = s.sram := by
  unfold State.slotLatch
  dsimp only
  (repeat' split) <;> simp

@[simp] theorem State.aevLatch_sram (d : Drive) (h : Half) : (s.aevLatch d h).sram = s.sram := by
  simp [State.aevLatch, State.foldl_sram]

@[simp] theorem State.aevRelease_sram : s.aevRelease.sram = s.sram := rfl

/-! ## Auxiliary measurement -/

@[simp] theorem State.routEval_sram (n : Fin 2) : (s.routEval n).sram = s.sram := rfl

@[simp] theorem State.routAll_sram : s.routAll.sram = s.sram := rfl

@[simp] theorem State.beginVisit_sram (c : Fin 2) (k : Fin 16) (t : Nat) : (s.beginVisit c k t).sram = s.sram := rfl

@[simp] theorem State.kickConv_sram (c : Fin 2) (t : Nat) : (s.kickConv c t).sram = s.sram := by
  unfold State.kickConv
  (repeat' split) <;> simp

@[simp] theorem State.dropVisit_sram (c : Fin 2) : (s.dropVisit c).sram = s.sram := by
  unfold State.dropVisit
  (repeat' split) <;> simp

@[simp] theorem State.judgeSlot_sram (k : Fin 16) : (s.judgeSlot k).sram = s.sram := by simp [State.judgeSlot]

@[simp] theorem State.auxJudge_sram : s.auxJudge.sram = s.sram := by simp [State.auxJudge, State.foldl_sram]

@[simp] theorem State.auxStop_sram : s.auxStop.sram = s.sram := rfl

@[simp] theorem State.auxStamp_sram (c : Fin 2) : (s.auxStamp c).sram = s.sram := by
  unfold State.auxStamp
  (repeat' split) <;> simp

@[simp] theorem State.auxPublish_sram (v : AuxVisit) : (s.auxPublish v).sram = s.sram := by simp [State.auxPublish]

@[simp] theorem State.writeSlotEn_sram (v : Word) : (s.writeSlotEn v).sram = s.sram := by simp [State.writeSlotEn]

@[simp] theorem State.auxCapture_sram (k : Fin 16) : (s.auxCapture k).sram = s.sram := rfl

@[simp] theorem State.auxCfgWritten_sram (k : Fin 16) (isCfg : Bool) : (s.auxCfgWritten k isCfg).sram = s.sram := by
  simp [State.auxCfgWritten]

@[simp] theorem State.writeFwCode_sram (n : Fin 2) (v : Word) : (s.writeFwCode n v).sram = s.sram := by simp [State.writeFwCode]

/-! ## Comparison and handover -/

@[simp] theorem State.perHalf_sram (s : State) (f : State → Half → State) (h : ∀ s x, (f s x).sram = s.sram) :
    (s.perHalf f).sram = s.sram := by
  unfold State.perHalf
  simp only [State.sram_ite, h, ite_self]

@[simp] theorem State.judgeCfgMis_sram (d : Drive) : (s.judgeCfgMis d).sram = s.sram := by simp [State.judgeCfgMis]

@[simp] theorem State.xcompare_sram (h : Half) (d : Drive) : (s.xcompare h d).sram = s.sram := by simp [State.xcompare]

@[simp] theorem State.xmonTick_sram (d : Drive) : (s.xmonTick d).sram = s.sram := by simp [State.xmonTick]

@[simp] theorem State.dropCapture_sram (d : Drive) : (s.dropCapture d).sram = s.sram := rfl

@[simp] theorem State.ofsCap_sram (d : Drive) : (s.ofsCap d).sram = s.sram := by simp [State.ofsCap]

@[simp] theorem State.writeXmonCtrl_sram (d : Drive) (v : Word) : (s.writeXmonCtrl d v).sram = s.sram := by
  simp [State.writeXmonCtrl]

@[simp] theorem State.watchHolder_sram (d : Drive) : (s.watchHolder d).sram = s.sram := by
  unfold State.watchHolder
  dsimp only
  (repeat' split) <;> simp

@[simp] theorem State.ownReact_sram (d : Drive) (h : Half) : (s.ownReact d h).sram = s.sram := by
  unfold State.ownReact
  (repeat' split) <;> simp

@[simp] theorem State.retagDrive_sram (d : Drive) : (s.retagDrive d).sram = s.sram := by simp [State.retagDrive, State.foldl_sram]

@[simp] theorem State.moveLatch_sram (d : Drive) (h : Half) (cause : Nat) : (s.moveLatch d h cause).sram = s.sram := by
  simp [State.moveLatch]

@[simp] theorem State.beginTake_sram (d : Drive) (h : Half) (cause : Nat) (t : Nat) :
    (s.beginTake d h cause t).sram = s.sram := rfl

@[simp] theorem State.authCmd_sram (d : Drive) (dst : Half) : (s.authCmd d dst).2.sram = s.sram := by simp [State.authCmd]

@[simp] theorem State.writeAuthCmd_sram (v : Word) : (s.writeAuthCmd v).2.sram = s.sram := by simp [State.writeAuthCmd]

@[simp] theorem State.authRelease_sram (d : Drive) : (s.authRelease d).sram = s.sram := by simp [State.authRelease]

@[simp] theorem State.dropClaim_sram (h : Half) (d : Drive) : (s.dropClaim h d).sram = s.sram := by simp [State.dropClaim]

@[simp] theorem State.dropClaims_sram (h : Half) : (s.dropClaims h).sram = s.sram := by simp [State.dropClaims]

/-! ## Queues -/

@[simp] theorem State.sramRead_sram (off : Nat) : (s.sramRead off).2.2.sram = s.sram := by
  unfold State.sramRead
  (repeat' split) <;> simp

@[simp] theorem State.ringCfg_sram : s.ringCfg.sram = s.sram := by simp [State.ringCfg]

@[simp] theorem State.descWrite_sram (i : Fin 64) : (s.descWrite i).sram = s.sram := rfl

@[simp] theorem State.descRead_sram (i : Fin 64) : (s.descRead i).sram = s.sram := by
  unfold State.descRead
  (repeat' split) <;> simp

@[simp] theorem State.judgeStall_sram : s.judgeStall.sram = s.sram := by
  unfold State.judgeStall
  (repeat' split) <;> simp

@[simp] theorem State.flush_sram (i : Fin 64) : (s.flush i).sram = s.sram := by simp [State.flush]

@[simp] theorem State.deliver_sram (s : State) (i : Fin 64) (k : Nat) : (s.deliver i k).sram = s.sram := by
  simp [State.deliver]

@[simp] theorem State.qack_sram (s : State) (i : Fin 64) (k : Nat) : (s.qack i k).2.sram = s.sram := by
  unfold State.qack
  dsimp only
  (repeat' split) <;> simp

@[simp] theorem State.qread_sram (i : Fin 64) (n : Nat) : (s.qread i n).2.2.sram = s.sram := by
  unfold State.qread
  dsimp only
  (repeat' split) <;> simp

@[simp] theorem State.qpush_sram (i : Fin 64) (ws : List Word) : (s.qpush i ws).2.sram = s.sram := by simp [State.qpush]

@[simp] theorem State.ringsAtRelease_sram : s.ringsAtRelease.sram = s.sram := by simp [State.ringsAtRelease, State.foldl_sram]

/-! ## The time base -/

@[simp] theorem State.stampAll_sram : s.stampAll.sram = s.sram := by simp [State.stampAll]

@[simp] theorem State.setRate_sram (r : Int) : (s.setRate r).sram = s.sram := by simp [State.setRate]

@[simp] theorem State.applyRate_sram : s.applyRate.sram = s.sram := by simp [State.applyRate]

@[simp] theorem State.endSlew_sram : s.endSlew.sram = s.sram := by simp [State.endSlew]

@[simp] theorem State.timeRecord_sram (code : Nat) (step : Int) : (s.timeRecord code step).sram = s.sram := by
  simp [State.timeRecord]

@[simp] theorem State.timeStep_sram (e : Int) : (s.timeStep e).sram = s.sram := by simp [State.timeStep]

@[simp] theorem State.servoUpdate_sram (off : Int) (interval : Nat) : (s.servoUpdate off interval).sram = s.sram := by
  simp [State.servoUpdate]

@[simp] theorem State.takeGm_sram (id : BitVec 64) : (s.takeGm id).sram = s.sram := by simp [State.takeGm]

@[simp] theorem State.timeSet_sram (hi : Word) : (s.timeSet hi).2.sram = s.sram := by simp [State.timeSet]

@[simp] theorem State.timeCfgWritten_sram : s.timeCfgWritten.sram = s.sram := by simp [State.timeCfgWritten]

@[simp] theorem State.timeTmoWritten_sram : s.timeTmoWritten.sram = s.sram := by simp [State.timeTmoWritten]

/-! ## The network -/

@[simp] theorem State.judgeLink_sram (p : Fin 2) : (s.judgeLink p).sram = s.sram := by simp [State.judgeLink]

@[simp] theorem State.credits_sram (p : Fin 2) : (s.credits p).sram = s.sram := rfl

@[simp] theorem State.txKick_sram (p : Fin 2) : (s.txKick p).sram = s.sram := by
  unfold State.txKick
  dsimp only
  (repeat' split) <;> simp

@[simp] theorem State.enqueue_sram (p : Fin 2) (f : TxFrame) : (s.enqueue p f).sram = s.sram := by simp [State.enqueue]

@[simp] theorem State.announce_sram (p : Fin 2) : (s.announce p).sram = s.sram := by simp [State.announce]

@[simp] theorem State.countRx_sram (p : Fin 2) (drop : Bool) : (s.countRx p drop).sram = s.sram := rfl

@[simp] theorem State.announceRx_sram (p : Fin 2) (m : List Byte) : (s.announceRx p m).sram = s.sram := by simp [State.announceRx]

@[simp] theorem State.gptpRx_sram (p : Fin 2) (b : List Byte) (delay : Option Nat) : (s.gptpRx p b delay).sram = s.sram := by
  unfold State.gptpRx
  (repeat' split) <;> simp

@[simp] theorem State.loseFrame_sram (k : Fin 8) : (s.loseFrame k).sram = s.sram := rfl

@[simp] theorem State.dropLink_sram (s : State) (p : Fin 2) : (s.dropLink p).sram = s.sram :=
  congrArg ReleaseView.sram (s.dropLink_kept p).view

@[simp] theorem State.netCtrlWritten_sram (s : State) : s.netCtrlWritten.sram = s.sram := by
  have hJudged : s.judgePorts.sram = s.sram := congrArg ReleaseView.sram s.judgePorts_kept.view
  simp [State.netCtrlWritten, hJudged]

@[simp] theorem State.buildFrame_sram (s : State) (k : Fin 8) (i : Fin 64) (c oldest : Nat) :
    (s.buildFrame k i c oldest).sram = s.sram := by
  unfold State.buildFrame
  extract_lets q lens bytes s0 acf cls s1 takes s2 s3
  have hRead : s0.sram = s.sram := by
    dsimp only [s0]
    split <;> simp
  have hLate : s1.sram = s0.sram := by
    dsimp only [s1]
    split <;> simp
  have hSent : s2.sram = s1.sram := State.foldl_sram _ (fun t p => by split <;> simp) _ _
  exact (State.deliver_sram _ _ _).trans (hSent.trans (hLate.trans hRead))

@[simp] theorem State.creditsAll_sram : s.creditsAll.sram = s.sram := rfl

@[simp] theorem State.netOff_sram : s.netOff.sram = s.sram := rfl

/-! ## The lock, release, the safe-state pins -/

@[simp] theorem State.unlockFirst_sram (blk : Byte) : (s.unlockFirst blk).2.sram = s.sram := by
  unfold State.unlockFirst
  (repeat' split) <;> simp

@[simp] theorem State.unlockSecond_sram (blk : Byte) : (s.unlockSecond blk).2.sram = s.sram := by
  unfold State.unlockSecond
  (repeat' split) <;> simp

@[simp] theorem State.relock_sram (blk : Byte) : (s.relock blk).2.sram = s.sram := by
  unfold State.relock
  (repeat' split) <;> simp

@[simp] theorem State.relockAll_sram : s.relockAll.sram = s.sram := rfl

@[simp] theorem State.writeUnlock_sram (v : Word) : (s.writeUnlock v).2.sram = s.sram := by simp [State.writeUnlock]

@[simp] theorem State.relCmd_sram (d : Drive) : (s.relCmd d).2.sram = s.sram := by
  unfold State.relCmd
  (repeat' split) <;> simp

@[simp] theorem State.writeRelCmd_sram (v : Word) : (s.writeRelCmd v).2.sram = s.sram := by simp [State.writeRelCmd]

@[simp] theorem State.disSet_sram : s.disSet.2.sram = s.sram := by simp [State.disSet]

@[simp] theorem State.disClear_sram : s.disClear.2.sram = s.sram := by simp [State.disClear]

@[simp] theorem State.writeDisCmd_sram (v : Word) : (s.writeDisCmd v).2.sram = s.sram := by simp [State.writeDisCmd]

@[simp] theorem State.setVpin_sram (p : SafePin) (x : VPin) : (s.setVpin p x).sram = s.sram := by
  unfold State.setVpin
  (repeat' split) <;> simp

@[simp] theorem State.raiseSdm_sram (n : Fin 8) (k : Nat) (h : Half) : (s.raiseSdm n k h).sram = s.sram := by
  simp [State.raiseSdm]

/-! ## Current inputs -/

@[simp] theorem State.sdmBit_sram (h : Half) (n : Fin 8) (b : Bool) : (s.sdmBit h n b).sram = s.sram := by simp [State.sdmBit]

@[simp] theorem State.latchIn_sram (n : Fin 8) (t : Nat) : (s.latchIn n t).sram = s.sram := rfl

@[simp] theorem State.takeSample_sram (k : Fin 2) (h : Half) (t dl : Nat) (n : Fin 8) (b : Bool) :
    (s.takeSample k h t dl n b).sram = s.sram := by simp [State.takeSample]

@[simp] theorem State.sampleAt_sram (k : Fin 2) (bits : Byte) (t dl : Nat) : (s.sampleAt k bits t dl).sram = s.sram := by
  simp [State.sampleAt, State.foldl_sram]

@[simp] theorem State.sdclkFrom_sram (old : State) : (s.sdclkFrom old).sram = s.sram := rfl

@[simp] theorem State.tqStep_sram (h : Half) (d : Drive) : (s.tqStep h d).sram = s.sram := by simp [State.tqStep]

@[simp] theorem State.decimate_sram (h : Half) (n : Fin 8) : (s.decimate h n).sram = s.sram := by simp [State.decimate]

@[simp] theorem State.filtCompare_sram : s.filtCompare.sram = s.sram := rfl

@[simp] theorem State.staleCond_sram (d : Drive) (v : Bool) : (s.staleCond d v).sram = s.sram := by simp [State.staleCond]

@[simp] theorem State.restartTq_sram (d : Drive) : (s.restartTq d).sram = s.sram := rfl

@[simp] theorem State.writeTqCmd_sram (d : Drive) (v : Word) : (s.writeTqCmd d v).sram = s.sram := by simp [State.writeTqCmd]

@[simp] theorem State.sdmPeakClr_sram : s.sdmPeakClr.sram = s.sram := rfl

@[simp] theorem State.sdmQuiet_sram (h : Half) (n : Fin 8) : (s.sdmQuiet h n).sram = s.sram := by
  simp [State.sdmQuiet, State.foldl_sram]

@[simp] theorem State.sdmCfgWritten_sram (n : Fin 8) (old : Word) : (s.sdmCfgWritten n old).sram = s.sram := by
  simp [State.sdmCfgWritten]

@[simp] theorem State.tqCfgWritten_sram (d : Drive) (old : Word) : (s.tqCfgWritten d old).sram = s.sram := by
  simp [State.tqCfgWritten]

@[simp] theorem State.sdmTrig_sram (i : Fin 256) (mask : BitVec 8) (c : Nat) (t : BitVec 64) :
    (s.sdmTrig i mask c t).sram = s.sram := by simp [State.sdmTrig]

@[simp] theorem State.dropTrig_sram (i : Fin 256) : (s.dropTrig i).sram = s.sram := rfl

@[simp] theorem State.latchRecords_sram (q : Fin 64) (drv : Nat) (t : BitVec 64) (l : List (Fin 8 × Int)) :
    (s.latchRecords q drv t l).sram = s.sram := by simp [State.latchRecords]

@[simp] theorem State.latchShow_sram (p : SdmPend) : (s.latchShow p).sram = s.sram := by simp [State.latchShow, State.foldl_sram]

/-! ## The recorders, and what a trigger snaps -/

@[simp] theorem State.frecArm_sram (n : Fin 8) : (s.frecArm n).2.sram = s.sram := by simp [State.frecArm]

@[simp] theorem State.frecDisarm_sram (n : Fin 8) : (s.frecDisarm n).sram = s.sram := rfl

@[simp] theorem State.frecTake_sram (n : Fin 8) : (s.frecTake n).sram = s.sram := rfl

@[simp] theorem State.frecTrig_sram (n : Fin 8) : (s.frecTrig n).sram = s.sram := by simp [State.frecTrig]

@[simp] theorem State.writeFrecCtrl_sram (n : Fin 8) (v : Word) : (s.writeFrecCtrl n v).2.sram = s.sram := by
  simp [State.writeFrecCtrl]

@[simp] theorem State.frecTick_sram (n : Fin 8) : (s.frecTick n).sram = s.sram := by simp [State.frecTick]

@[simp] theorem State.snapAll_sram (k : Nat) : (s.snapAll k).sram = s.sram := by simp [State.snapAll, State.foldl_sram]

@[simp] theorem State.trigSdm_sram (x : AevTrig) : (s.trigSdm x).sram = s.sram := by simp [State.trigSdm]

@[simp] theorem State.trigSnap_sram (x : AevTrig) : (s.trigSnap x).sram = s.sram := by
  unfold State.trigSnap
  (repeat' split) <;> simp

@[simp] theorem State.trigFrec_sram (x : AevTrig) : (s.trigFrec x).sram = s.sram := by
  unfold State.trigFrec
  (repeat' split) <;> simp

@[simp] theorem State.trigSsi_sram (x : AevTrig) : (s.trigSsi x).sram = s.sram := by
  unfold State.trigSsi
  (repeat' split) <;> simp

/-! ## Cruise -/

@[simp] theorem State.judgeStarved_sram : s.judgeStarved.sram = s.sram := by simp [State.judgeStarved]

@[simp] theorem State.crzMark_sram : s.crzMark.sram = s.sram := rfl

@[simp] theorem State.passOver_sram (l : List (Fin 15)) : (s.passOver l).sram = s.sram := rfl

@[simp] theorem State.leaveRound_sram (l : Fin 3) (p : Fin 15 → Bool) : (s.leaveRound l p).sram = s.sram := rfl

@[simp] theorem State.fillLane_sram (l : Fin 3) : (s.fillLane l).sram = s.sram := by
  unfold State.fillLane
  (repeat' split) <;> simp

@[simp] theorem State.roundItems_sram : s.roundItems.sram = s.sram := rfl

@[simp] theorem State.fillThree_sram : s.fillThree.sram = s.sram := by simp [State.fillThree]

@[simp] theorem State.fillLanes_sram : s.fillLanes.sram = s.sram := by simp [State.fillLanes]

@[simp] theorem State.startRound_sram : s.startRound.sram = s.sram := by simp [State.startRound]

@[simp] theorem State.crzYield_sram (i : Fin 15) (n : Nat) : (s.crzYield i n).sram = s.sram := by simp [State.crzYield]

@[simp] theorem State.storeYield_sram : s.storeYield.sram = s.sram := by simp [State.storeYield]

@[simp] theorem State.abandonRuns_sram (p : Fin 15 → Bool) : (s.abandonRuns p).sram = s.sram := rfl

@[simp] theorem State.cruiseJudge_sram : s.cruiseJudge.sram = s.sram := by simp [State.cruiseJudge]

@[simp] theorem State.writeCrzCtrl_sram (v : Word) : (s.writeCrzCtrl v).sram = s.sram := by simp [State.writeCrzCtrl]

/-! ## The fault registers -/

@[simp] theorem State.page_sram (s : State) (p : Page) (off : Nat) (wr : Bool) (r : Status × State) (h : r.2.sram = s.sram) :
    (s.page p off wr r).2.sram = s.sram := by
  unfold State.page
  split <;> simp [h]

@[simp] theorem State.aliveWatch_sram (old : State) : (s.aliveWatch old).sram = s.sram := by simp [State.aliveWatch]

@[simp] theorem State.alivePad_sram : s.alivePad.sram = s.sram := by simp [State.alivePad]

@[simp] theorem State.detectHeld_sram (p : Page) : (s.detectHeld p).sram = s.sram := by simp [State.detectHeld, State.foldl_sram]

@[simp] theorem State.blazeAnew_sram (p : Page) : (s.blazeAnew p).sram = s.sram := by simp [State.blazeAnew]

@[simp] theorem State.blzClr_sram (p : Page) : (s.blzClr p).2.sram = s.sram := by simp [State.blzClr]

@[simp] theorem State.writeForce_sram (p : Page) (v : Word) : (s.writeForce p v).sram = s.sram := by
  simp [State.writeForce, State.foldl_sram]

@[simp] theorem State.writeSticky_sram (p : Page) (v : Word) : (s.writeSticky p v).sram = s.sram := by
  unfold State.writeSticky
  (repeat' split) <;> simp

@[simp] theorem State.writeInv_sram (p : Page) (v : Word) : (s.writeInv p v).sram = s.sram := by simp [State.writeInv]

@[simp] theorem State.writeChk_sram (p : Page) (v : Word) : (s.writeChk p v).sram = s.sram := by simp [State.writeChk]

@[simp] theorem State.writeReact_sram (p : Page) (lo : Nat) (v : Word) : (s.writeReact p lo v).sram = s.sram := by
  simp [State.writeReact]

@[simp] theorem State.writeChkReact_sram (p : Page) (r : Nat) : (s.writeChkReact p r).sram = s.sram := by
  simp [State.writeChkReact]

@[simp] theorem State.writeStat_sram (p : Page) (v : Word) (unlocked : Bool) : (s.writeStat p v unlocked).2.sram = s.sram := by
  simp [State.writeStat]

@[simp] theorem State.writeHdr_sram (p : Page) (off : Nat) (v : Word) (unlocked : Bool) :
    (s.writeHdr p off v unlocked).2.sram = s.sram := by
  unfold State.writeHdr
  (repeat' split) <;> simp

@[simp] theorem State.parityFound_sram (p : Page) : (s.parityFound p).sram = s.sram := by simp [State.parityFound]

/-! ## Regulators and clocks -/

@[simp] theorem State.setCode_sram (x : VDom) (code : Nat) (high : Nat) : (s.setCode x code high).sram = s.sram := rfl

@[simp] theorem State.toNominal_sram (x : VDom) : (s.toNominal x).sram = s.sram := rfl

@[simp] theorem State.avsDomain_sram (x : VDom) (m : Margin) : (s.avsDomain x m).sram = s.sram := by simp [State.avsDomain]

@[simp] theorem State.avsLimit_sram (x : VDom) : (s.avsLimit x).sram = s.sram := by simp [State.avsLimit]

@[simp] theorem State.avsApply_sram : s.avsApply.sram = s.sram := by simp [State.avsApply]

@[simp] theorem State.avsCfgWritten_sram (old : Word) : (s.avsCfgWritten old).sram = s.sram := by simp [State.avsCfgWritten]

@[simp] theorem State.avsResume_sram : s.avsResume.sram = s.sram := by simp [State.avsResume]

@[simp] theorem State.rtcJudge_sram : s.rtcJudge.sram = s.sram := by simp [State.rtcJudge]

/-! ## Domains that go off -/

@[simp] theorem State.parityGone_sram : s.parityGone.sram = s.sram := rfl

@[simp] theorem State.dropRegs_sram (p : Nat → Bool) (q : Nat → Bool) : (s.dropRegs p q).sram = s.sram := rfl

@[simp] theorem State.coldHalf_sram (h : Half) : (s.coldHalf h).sram = s.sram := rfl

@[simp] theorem State.xmonOff_sram : s.xmonOff.sram = s.sram := by simp [State.xmonOff]

@[simp] theorem State.holdPads_sram (all : Bool) (z : BitVec 4) (v : BitVec 8) : (s.holdPads all z v).sram = s.sram := by
  simp [State.holdPads]

@[simp] theorem State.holdHalf_sram (h : Half) : (s.holdHalf h).sram = s.sram := by simp [State.holdHalf]

@[simp] theorem State.halfDown_sram (h : Half) : (s.halfDown h).sram = s.sram := by simp [State.halfDown]

@[simp] theorem State.netDown_sram : s.netDown.sram = s.sram := by simp [State.netDown]

@[simp] theorem State.pinsDefault_sram : s.pinsDefault.sram = s.sram := rfl

@[simp] theorem State.scanPins_sram : s.scanPins.sram = s.sram := by simp [State.scanPins]

@[simp] theorem State.vddaJudge_sram (h : Half) : (s.vddaJudge h).sram = s.sram := by simp [State.vddaJudge, State.foldl_sram]

@[simp] theorem State.writeSwrst_sram (v : Word) : (s.writeSwrst v).2.sram = s.sram := by simp [State.writeSwrst]

@[simp] theorem State.startMonitors_sram : s.startMonitors.sram = s.sram := by simp [State.startMonitors]

/-! ## Votes, returns, wakes, state requests, operating points -/

@[simp] theorem State.crzBanks_sram : s.crzBanks.sram = s.sram := by simp [State.crzBanks]

@[simp] theorem State.powerRec_sram (c : Nat) (frm : Nat) : (s.powerRec c frm).sram = s.sram := by simp [State.powerRec]

@[simp] theorem State.powerNote_sram (c : Nat) : (s.powerNote c).sram = s.sram := by simp [State.powerNote]

@[simp] theorem State.unstick_sram (i : Nat) (want : Bool) : (s.unstick i want).sram = s.sram := by simp [State.unstick]

@[simp] theorem State.turnHalf_sram (h : Half) : (s.turnHalf h).sram = s.sram := by
  unfold State.turnHalf
  dsimp only
  (repeat' split) <;> simp

@[simp] theorem State.turnNet_sram : s.turnNet.sram = s.sram := by
  unfold State.turnNet
  dsimp only
  (repeat' split) <;> simp

@[simp] theorem State.latchesReturn_sram (h : Half) : (s.latchesReturn h).sram = s.sram := by simp [State.latchesReturn]

@[simp] theorem State.slotsReturn_sram (h : Half) : (s.slotsReturn h).sram = s.sram := rfl

@[simp] theorem State.halfUp_sram (h : Half) : (s.halfUp h).sram = s.sram := by simp [State.halfUp]

@[simp] theorem State.netUp_sram : s.netUp.sram = s.sram := by
  unfold State.netUp
  dsimp only
  (repeat' split) <;> simp

@[simp] theorem State.bankUp_sram (b : Fin 8) : (s.bankUp b).sram = s.sram := by simp [State.bankUp]

@[simp] theorem State.latchTrims_sram (n : Fin 8) (bad : Bool) (t : TrimVals) : (s.latchTrims n bad t).sram = s.sram := by
  simp [State.latchTrims]

@[simp] theorem State.latchCal_sram (n : Fin 8) (bad : Bool) (t : TrimVals) : (s.latchCal n bad t).sram = s.sram := by
  simp [State.latchCal]

@[simp] theorem State.startWake_sram (src : BitVec 7) (first : Nat) : (s.startWake src first).sram = s.sram := rfl

@[simp] theorem State.wakeBy_sram (b : Nat) : (s.wakeBy b).sram = s.sram := rfl

@[simp] theorem State.wakeEvent_sram (b : Nat) : (s.wakeEvent b).sram = s.sram := by
  unfold State.wakeEvent
  dsimp only
  (repeat' split) <;> simp

@[simp] theorem State.wakeIf_sram (b : Nat) : (s.wakeIf b).sram = s.sram := by simp [State.wakeIf]

@[simp] theorem State.writeAlarmHi_sram (v : Word) : (s.writeAlarmHi v).sram = s.sram := by simp [State.writeAlarmHi]

@[simp] theorem State.enter_sram (t : PState) : (s.enter t).sram = s.sram := by simp [State.enter]

@[simp] theorem State.afterEntry_sram (pend : Option (Fin 4)) : (s.afterEntry pend).sram = s.sram := by simp [State.afterEntry]

@[simp] theorem State.startDvfs_sram (v : BitVec 2) : (s.startDvfs v).sram = s.sram := rfl

@[simp] theorem State.writeOpp_sram (v : BitVec 2) : (s.writeOpp v).sram = s.sram := by simp [State.writeOpp]

@[simp] theorem State.domTmoEvent_sram : s.domTmoEvent.sram = s.sram := by simp [State.domTmoEvent]

@[simp] theorem State.releaseEnc_sram (m : Two Bool) (n : Fin 4) : (s.releaseEnc m n).sram = s.sram := by simp [State.releaseEnc]

@[simp] theorem State.releaseAev_sram (m : Two Bool) (n : Fin 8) : (s.releaseAev m n).sram = s.sram := rfl

@[simp] theorem State.padRelease_sram (s : State) (v : Word) : (s.padRelease v).sram = s.sram := by
  unfold State.padRelease
  dsimp only
  rw [State.sdclkFrom_sram, State.alivePad_sram, State.foldl_sram _ fun _ _ => State.releaseAev_sram _ _ _,
    State.foldl_sram _ fun _ _ => State.releaseEnc_sram _ _ _]

/-! ## Boot -/

@[simp] theorem State.takeHeader_sram (h : List Byte) : (s.takeHeader h).sram = s.sram := by simp [State.takeHeader]

@[simp] theorem State.readSlots_sram : s.readSlots.sram = s.sram := rfl

@[simp] theorem State.startBist_sram (k : Nat) : (s.startBist k).sram = s.sram := rfl

@[simp] theorem State.bankTested_sram (b : Fin 8) (r : BistRun) : (s.bankTested b r).sram = s.sram := rfl

@[simp] theorem State.bistLatch_sram (k : Nat) (lo : BistRun) (hi : BistRun) (logic : BistRun) :
    (s.bistLatch k lo hi logic).sram = s.sram := by simp [State.bistLatch]

@[simp] theorem State.judgeBody_sram (b : List Byte) : (s.judgeBody b).sram = s.sram := by simp [State.judgeBody]

@[simp] theorem State.undoBlocks_sram : s.undoBlocks.sram = s.sram := rfl

@[simp] theorem State.keepForced_sram : s.keepForced.sram = s.sram := by simp [State.keepForced]

@[simp] theorem State.failApply_sram (s : State) (c : Nat) : (s.failApply c).sram = s.sram := by
  simp [State.failApply, State.enterHold_sram]

@[simp] theorem State.pastRec_sram (r : RecHead) : (s.pastRec r).sram = s.sram := rfl

@[simp] theorem State.recFails_sram (s bad : State) (r : RecHead) (c : Nat) (h : bad.sram = s.sram) :
    (s.recFails bad r c).sram = s.sram := by
  simp [State.recFails, h]

@[simp] theorem State.settleWalk_sram (s : State) (n : Nat) : (s.settleWalk n).sram = s.sram := by
  induction n generalizing s with
  | zero => rfl
  | succ n ih =>
    unfold State.settleWalk
    dsimp only
    split
    · rfl
    · rw [ih, State.recFails_sram _ _ _ _ rfl]

@[simp] theorem State.beginApply_sram (s : State) : s.beginApply.sram = s.sram := State.settleWalk_sram _ _

@[simp] theorem State.dlKey_sram (s : State) (prog : Bool) : (s.dlKey prog).2.sram = s.sram := by
  unfold State.dlKey
  split
  · rfl
  · dsimp only
    (repeat' split) <;> simp [State.enterHold_sram]

@[simp] theorem State.storeKey_sram : s.storeKey.2.sram = s.sram := by simp [State.storeKey]

@[simp] theorem State.writeCalCmd_sram (v : Word) : (s.writeCalCmd v).2.sram = s.sram := by simp [State.writeCalCmd]

@[simp] theorem State.storeRecord_sram (code : Nat) (x : Store90) : (s.storeRecord code x).sram = s.sram := by
  simp [State.storeRecord]

/-! ## Reads -/

@[simp] theorem State.queCapture_sram (i : Nat) : (s.queCapture i).sram = s.sram := by simp [State.queCapture]

@[simp] theorem State.readSide_sram (p : Page) (off : Nat) (i : Nat) : (s.readSide p off i).sram = s.sram := by
  unfold State.readSide
  (repeat' split) <;> simp

@[simp] theorem State.regRead_sram (p : Page) (r : RegRow) (i : Nat) (off : Nat) (a : Nat) :
    (s.regRead p r i off a).2.2.sram = s.sram := by
  unfold State.regRead
  (repeat' split) <;> simp

/-! ## Writes -/

@[simp] theorem State.storeCopy_sram (p : Page) (r : RegRow) (o : Owner) (h : Half) (a : Nat) (v : Word) :
    (s.storeCopy p r o h a v).sram = s.sram := by simp [State.storeCopy]

@[simp] theorem State.store_sram (p : Page) (r : RegRow) (o : Owner) (a : Nat) (v : Word) :
    (s.store p r o a v).sram = s.sram := by
  unfold State.store
  (repeat' split) <;> simp

@[simp] theorem State.plain_sram (x : Access) : (s.plain x).sram = s.sram := by simp [State.plain]

@[simp] theorem State.writeSys_sram (x : Access) : (s.writeSys x).2.sram = s.sram := by
  unfold State.writeSys
  (repeat' split) <;> simp

@[simp] theorem State.judgeMis_sram : s.judgeMis.sram = s.sram := by simp [State.judgeMis]

@[simp] theorem State.writePch_sram (n : Fin 8) (x : Access) : (s.writePch n x).2.sram = s.sram := by
  unfold State.writePch
  (repeat' split) <;> simp

@[simp] theorem State.writeExc_sram (x : Access) : (s.writeExc x).2.sram = s.sram := by
  unfold State.writeExc
  (repeat' split) <;> simp

@[simp] theorem State.writeSclCtrl_sram (n : Fin 8) (w : Word) : (s.writeSclCtrl n w).2.sram = s.sram := by
  simp [State.writeSclCtrl]

@[simp] theorem State.writeScl_sram (x : Access) : (s.writeScl x).2.sram = s.sram := by
  unfold State.writeScl
  (repeat' split) <;> simp

@[simp] theorem State.writeDch_sram (x : Access) : (s.writeDch x).2.sram = s.sram := by
  unfold State.writeDch
  (repeat' split) <;> simp

@[simp] theorem State.writeEnc_sram (x : Access) : (s.writeEnc x).2.sram = s.sram := by
  unfold State.writeEnc
  (repeat' split) <;> simp

@[simp] theorem State.writeAev_sram (x : Access) : (s.writeAev x).2.sram = s.sram := by
  unfold State.writeAev
  (repeat' split) <;> simp

@[simp] theorem State.writeSdm_sram (x : Access) : (s.writeSdm x).2.sram = s.sram := by
  unfold State.writeSdm
  (repeat' split) <;> simp

@[simp] theorem State.writeAux_sram (x : Access) : (s.writeAux x).2.sram = s.sram := by
  unfold State.writeAux
  (repeat' split) <;> simp

@[simp] theorem State.seenClr_sram (v : Word) : (s.seenClr v).sram = s.sram := rfl

@[simp] theorem State.writeXmon_sram (x : Access) : (s.writeXmon x).2.sram = s.sram := by
  unfold State.writeXmon
  (repeat' split) <;> simp

@[simp] theorem State.parityRead_sram (s : State) (p : Page) (off : Nat) (r : Status × Word × State) (h : r.2.2.sram = s.sram) :
    (s.parityRead p off r).2.2.sram = s.sram := by
  unfold State.parityRead
  extract_lets a key
  split
  · exact (State.parityFound_sram _ _).trans h
  · exact h

@[simp] theorem State.regReadAt_sram (m : Master) (a : Nat) : (s.regReadAt m a).2.2.sram = s.sram := by
  unfold State.regReadAt
  dsimp only
  (repeat' split) <;> simp

@[simp] theorem State.hostRead_sram (a : Nat) : (s.hostRead a).2.2.sram = s.sram := by
  unfold State.hostRead
  (repeat' split) <;> simp

/-! ## Apply and release -/

@[simp] theorem State.loadChan_sram (s : State) (choice : Nat) (n : Fin 8) : (s.loadChan choice n).sram = s.sram := by
  have h (l : List (Fin 18)) (t : State) : (l.foldl (fun st r => st.eccPut .scl (coefAddr n r)) t).sram = t.sram :=
    State.foldl_sram _ (fun _ _ => State.eccPut_sram _ _ _) l t
  unfold State.loadChan
  dsimp only
  (repeat' split) <;> simp [h]

@[simp] theorem State.takeStanding_sram : s.takeStanding.sram = s.sram := by simp [State.takeStanding, State.foldl_sram]

@[simp] theorem State.releaseRecord_sram : s.releaseRecord.sram = s.sram := by simp [State.releaseRecord]

@[simp] theorem State.wakeOver_sram : s.wakeOver.sram = s.sram := rfl

@[simp] theorem State.replayNet_sram (s : State) (l : List (Fin 2 × List Byte)) : (s.replayNet l).sram = s.sram := by
  have h (f : Fin 2 × List Byte) (t u : State) (e : execFrameReceive f.1 f.2 none t = .next u) : u.sram = t.sram := by
    unfold execFrameReceive at e
    dsimp only at e
    (repeat' split at e) <;> (injection e with e; subst e; simp)
  unfold State.replayNet
  apply State.foldl_sram
  intro t f
  split
  · rename_i e
    exact h _ _ _ e
  · rfl

@[simp] theorem State.startBlocks_sram : s.startBlocks.sram = s.sram := by simp [State.startBlocks, State.foldl_sram]

/-! ## Frames -/

@[simp] theorem State.turnAway_sram (queue : Bool) (st : Status) : (s.turnAway queue st).post.sram = s.sram := by
  unfold State.turnAway
  (repeat' split) <;> simp

@[simp] theorem State.latchFrame_sram (clks : Nat) (bits : BitVec 64) : (s.latchFrame clks bits).sram = s.sram := by
  simp [State.latchFrame]

@[simp] theorem State.crcFault_sram : s.crcFault.sram = s.sram := by simp [State.crcFault]

@[simp] theorem State.frameFault_sram : s.frameFault.sram = s.sram := by simp [State.frameFault]

@[simp] theorem State.hostAsleep_sram (clks : Nat) (bits : BitVec 64) (x : Heard) :
    (s.hostAsleep clks bits x).sram = s.sram := by
  unfold State.hostAsleep
  (repeat' split) <;> simp

@[simp] theorem State.hostWaking_sram : s.hostWaking.sram = s.sram := by simp [State.hostWaking]

@[simp] theorem State.asleepRequest_sram (l : List Byte) (x : Heard) : (s.asleepRequest l x).sram = s.sram := by
  simp [State.asleepRequest]

@[simp] theorem State.burstRead_sram (s : State) (a i n : Nat) : (s.burstRead a i n).post.sram = s.sram := by
  induction n generalizing s a i with
  | zero => rfl
  | succ n ih =>
    have h : (if s.shut a then (Status.notReady, (0 : Word), s) else s.hostRead a).2.2.sram = s.sram := by
      split <;> simp
    unfold State.burstRead
    dsimp only
    generalize (if s.shut a then (Status.notReady, (0 : Word), s) else s.hostRead a) = r at h
    split <;> simp only [ih, h]

/-! ## The TAP -/

@[simp] theorem State.tapRise_sram (tms : Bool) (tdi : Bool) : (s.tapRise tms tdi).sram = s.sram := by
  unfold State.tapRise
  dsimp only
  (repeat' split) <;> simp

@[simp] theorem State.tapFall_sram : s.tapFall.sram = s.sram := by
  unfold State.tapFall
  dsimp only
  (repeat' split) <;> simp

end
end Sys2Proof.Machine
end

section
/-! PROOFS. What writes the SRAM keeps it in canonical form: words stored, the bytes of a record, a bank that goes off. -/

namespace Sys2Proof.Machine

section
variable {s : State} (h : Memory.wf sramDefault s.sram = true)
include h

@[simp] theorem State.sramPut_wf (off : Nat) (bs : List Byte) : Memory.wf sramDefault (s.sramPut off bs).sram = true :=
  Memory.writeBytes_wf _ _ _ _ h

@[simp] theorem State.ringPut_wf (base size p : Nat) (l : List Byte) :
    Memory.wf sramDefault (s.ringPut base size p l).sram = true := by
  fun_induction State.ringPut s base size p l with
  | case1 s p a b c d t ih => exact ih (State.sramPut_wf h _ _)
  | case2 => exact h

@[simp] theorem State.ringWrite_wf (i : Fin 64) (x : Staged) (rest : List Staged) :
    Memory.wf sramDefault (s.ringWrite i x rest).sram = true := by
  unfold State.ringWrite
  dsimp only
  split <;> simp [h]

@[simp] theorem State.yardServe_wf (i : Fin 64) : Memory.wf sramDefault (s.yardServe i).sram = true := by
  unfold State.yardServe
  dsimp only
  (repeat' split) <;> simp [h]

@[simp] theorem State.bankDown_wf (b : Fin 8) : Memory.wf sramDefault (s.bankDown b).sram = true := Memory.clear_wf _ _ _ _ h

@[simp] theorem State.turnBank_wf (b : Fin 8) : Memory.wf sramDefault (s.turnBank b).sram = true := by
  unfold State.turnBank
  dsimp only
  (repeat' split) <;> simp [h]

@[simp] theorem State.domains_wf : Memory.wf sramDefault s.domains.sram = true := by
  unfold State.domains
  split
  · rw [State.crzBanks_sram]
    exact List.foldlRecOn (motive := fun t : State => Memory.wf sramDefault t.sram = true) _ _ (by simp [h])
      fun t ht b _ => State.turnBank_wf ht b
  · exact h

@[simp] theorem State.writeVotes_wf (v : Word) : Memory.wf sramDefault (s.writeVotes v).sram = true := by
  simp [State.writeVotes, h]

@[simp] theorem State.startReq_wf (t : Fin 4) : Memory.wf sramDefault (s.startReq t).2.sram = true := by
  unfold State.startReq
  split
  · dsimp only
    split <;> simp [h]
  · dsimp only
    split <;> simp [h]
  · split <;> simp [h]

@[simp] theorem State.stateReq_wf (t : Fin 4) : Memory.wf sramDefault (s.stateReq t).2.sram = true := by
  unfold State.stateReq
  (repeat' split) <;> simp [h]

@[simp] theorem State.afterDvfs_wf : Memory.wf sramDefault s.afterDvfs.sram = true := by
  unfold State.afterDvfs
  dsimp only
  (repeat' split) <;> simp [h]

@[simp] theorem State.wakeReleased_wf : Memory.wf sramDefault s.wakeReleased.sram = true := by
  unfold State.wakeReleased
  dsimp only
  (repeat' split) <;> simp [h]

omit h in
theorem State.beforeRecord_sram (s : State) : s.beforeRecord.sram = s.sram := by
  obtain ⟨x, -, -, hView⟩ := s.aliveAtRelease_view
  have hExc := (State.excRelease_only s.aliveAtRelease).view
  exact (congrArg ReleaseView.sram ((s.beforeRecord_kept.view.trans hExc).trans hView) :)

@[simp] theorem State.release_wf : Memory.wf sramDefault s.release.sram = true := by
  unfold State.release
  extract_lets wake t _ _ s1 s2 _ s3 s4 _ s5 s6 s7
  have hStart : t.sram = s.sram := by
    dsimp only [t]
    split
    · exact s.wakeOver_sram
    · rfl
  have h1 : s1 = t.releaseSet := rfl
  have h2 : s2 = s1.authorised := rfl
  have h3 : s3 = s2.aliveStarted := rfl
  have h6 : s6 = s3.startBlocks.standingTaken := rfl
  have hBefore : s6 = t.beforeRecord := by
    rw [h6, h3, h2, h1]
    rfl
  have hRound : Memory.wf sramDefault s7.sram = true := by
    dsimp only [s7]
    rw [State.startRound_sram, State.releaseRecord_sram, hBefore, State.beforeRecord_sram, hStart]
    exact h
  refine State.domains_wf ?_
  rw [State.sdclkFrom_sram, State.voteAll_sram]
  split
  · exact State.wakeReleased_wf hRound
  · exact hRound

@[simp] theorem State.writePwr_wf (x : Access) : Memory.wf sramDefault (s.writePwr x).2.sram = true := by
  unfold State.writePwr State.writeStateReq State.writeOpp
  dsimp only
  (repeat' split) <;> simp [h]

@[simp] theorem State.writeBoot_wf (x : Access) : Memory.wf sramDefault (s.writeBoot x).2.sram = true := by
  unfold State.writeBoot State.writeDlCmd
  dsimp only
  (repeat' split) <;> simp [h]

@[simp] theorem State.writeCrz_wf (x : Access) : Memory.wf sramDefault (s.writeCrz x).2.sram = true := by
  unfold State.writeCrz
  split <;> simp [h]

@[simp] theorem State.writeTime_wf (x : Access) : Memory.wf sramDefault (s.writeTime x).2.sram = true := by
  unfold State.writeTime
  split <;> simp [h]

@[simp] theorem State.writeNet_wf (x : Access) : Memory.wf sramDefault (s.writeNet x).2.sram = true := by
  unfold State.writeNet
  (repeat' split) <;> simp [h]

@[simp] theorem State.writeQue_wf (x : Access) : Memory.wf sramDefault (s.writeQue x).2.sram = true := by
  unfold State.writeQue
  dsimp only
  (repeat' split) <;> simp [h]

@[simp] theorem State.regStore_wf (x : Access) : Memory.wf sramDefault (s.regStore x).2.sram = true := by
  unfold State.regStore
  split <;> simp [h]

@[simp] theorem State.regWrite_wf (m : Master) (a : Nat) (v : Word) : Memory.wf sramDefault (s.regWrite m a v).2.sram = true := by
  unfold State.regWrite
  dsimp only
  (repeat' split) <;> simp [h]

@[simp] theorem State.hostWrite_wf (a : Nat) (v : Word) : Memory.wf sramDefault (s.hostWrite a v).2.sram = true := by
  unfold State.hostWrite State.sramWrite
  (repeat' split) <;> simp [h]

@[simp] theorem State.burstWrite_wf (a i : Nat) (l : List Word) : Memory.wf sramDefault (s.burstWrite a i l).post.sram = true := by
  induction l generalizing s a i with
  | nil => exact h
  | cons v t ih =>
    have hFirst : Memory.wf sramDefault (if s.shut a then s.only .notReady else s.hostWrite a v).2.sram = true := by
      split <;> simp [h]
    unfold State.burstWrite
    generalize (if s.shut a then s.only .notReady else s.hostWrite a v) = r at hFirst
    dsimp only
    split
    · exact ih hFirst _ _
    · exact hFirst

theorem State.recFails_wf {bad : State} (hBad : Memory.wf sramDefault bad.sram = true) (r : RecHead) (c : Nat) :
    Memory.wf sramDefault (s.recFails bad r c).sram = true := by
  unfold State.recFails
  split <;> simp [h, hBad]

theorem State.processRec_wf (t : Nat) (wellFormed : RecHead → List Byte → Bool) {apply : List Byte → State → Bool × State}
    (hApply : ∀ l, Memory.wf sramDefault (apply l s).2.sram = true) :
    Memory.wf sramDefault (s.processRec t wellFormed apply).sram = true := by
  unfold State.processRec
  dsimp only
  split
  · exact h
  · rw [State.settleWalk_sram]
    split
    · exact State.recFails_wf h h _ _
    · split
      · simp [hApply]
      · exact State.recFails_wf h (hApply _) _ _

theorem State.bootWrite_wf (a : Nat) (v : Word) : Memory.wf sramDefault (s.bootWrite a v).2.sram = true := by
  unfold State.bootWrite
  split <;> simp [h]

theorem State.bootPut_wf (off : Nat) (v : Word) : Memory.wf sramDefault (s.bootPut off v).2.sram = true := by
  unfold State.bootPut
  split <;> simp [h]

theorem State.writePairs_wf (l : List Word) : Memory.wf sramDefault (s.writePairs l).2.sram = true := by
  fun_induction State.writePairs s l with
  | case1 s a v t r hr ih => exact ih (State.bootWrite_wf h _ _)
  | case2 s a v t r hr => exact State.bootWrite_wf h _ _
  | case3 => exact h

theorem State.writeMasks_wf (l : List Word) : Memory.wf sramDefault (s.writeMasks l).2.sram = true := by
  fun_induction State.writeMasks s l with
  | case1 s a m v t old r hr ih => exact ih (State.bootWrite_wf h _ _)
  | case2 s a m v t old r hr => exact State.bootWrite_wf h _ _
  | case3 => exact h

theorem State.writeSeq_wf (a : Nat) (l : List Word) : Memory.wf sramDefault (s.writeSeq a l).2.sram = true := by
  fun_induction State.writeSeq s a l with
  | case1 s a v t r hr ih => exact ih (State.bootWrite_wf h _ _)
  | case2 s a v t r hr => exact State.bootWrite_wf h _ _
  | case3 => exact h

theorem State.loadSram_wf (off : Nat) (l : List Word) : Memory.wf sramDefault (s.loadSram off l).2.sram = true := by
  fun_induction State.loadSram s off l with
  | case1 s off v t r hr ih => exact ih (State.bootPut_wf h _ _)
  | case2 s off v t r hr => exact State.bootPut_wf h _ _
  | case3 => exact h

theorem State.fillSram_wf (off : Nat) (v : Word) (n : Nat) : Memory.wf sramDefault (s.fillSram off v n).2.sram = true := by
  induction n generalizing s off with
  | zero => exact h
  | succ n ih =>
    have hPut := State.bootPut_wf h off v
    unfold State.fillSram
    dsimp only
    split
    · exact ih hPut _
    · exact hPut

end

end Sys2Proof.Machine
end

section
/-! PROOFS. Every command, and so every step, keeps the SRAM in canonical form (R402). -/

namespace Sys2Proof.Machine

@[simp] theorem Memory.wf_ite (d : Byte) (c : Prop) [Decidable c] (a b : List Host.Cell) :
    (Memory.wf d (if c then a else b) = true) = if c then Memory.wf d a = true else Memory.wf d b = true := by
  split <;> rfl

/-- The state that a meaning leads to has its SRAM in canonical form. -/
def Done.sramWf : Done → Prop
  | .next t => Memory.wf sramDefault t.sram = true
  | _ => True

@[simp] theorem Done.sramWf_next (t : State) : Done.sramWf (.next t) = (Memory.wf sramDefault t.sram = true) := rfl

@[simp] theorem Done.sramWf_finish (r : Status × State) : Done.sramWf (finish r) = (Memory.wf sramDefault r.2.sram = true) := rfl

@[simp] theorem State.setVexcOk_sram (s : State) (r : Fin 2) (ok : Bool) : (s.setVexcOk r ok).sram = s.sram := by
  unfold State.setVexcOk
  split <;> rfl

@[simp] theorem Done.sramWf_ite (c : Prop) [Decidable c] (a b : Done) :
    Done.sramWf (if c then a else b) = if c then Done.sramWf a else Done.sramWf b := apply_ite _ _ _ _

@[simp] theorem Done.sramWf_answer (a : Answer) : Done.sramWf a.done = (Memory.wf sramDefault a.post.sram = true) := rfl

@[simp] theorem Done.sramWf_thenDomains {o : Done} (h : o.sramWf) : (thenDomains o).sramWf := by
  cases o with
  | next t => exact State.domains_wf h
  | _ => trivial

section
variable (s : State) (hWf : Memory.wf sramDefault s.sram = true)
include hWf

@[simp] theorem State.inst_wf (h : Half) (addr : Nat) {r : Status × State} (hr : Memory.wf sramDefault r.2.sram = true) :
    Memory.wf sramDefault (s.inst h addr r).2.sram = true := by
  unfold State.inst
  split <;> simp [hr, hWf]

@[simp] theorem State.instRead_wf (h : Half) (addr : Nat) {r : Status × State} (hr : Memory.wf sramDefault r.2.sram = true) :
    Memory.wf sramDefault (s.instRead h addr r).2.sram = true := by
  unfold State.instRead
  split <;> simp [hr, hWf]

@[simp] theorem State.dup_wf (addr : Nat) {r : Status × State} (hr : Memory.wf sramDefault r.2.sram = true) :
    Memory.wf sramDefault (s.dup addr r).2.sram = true := by
  unfold State.dup
  split <;> simp [hr, hWf]

@[simp] theorem State.writeDlCmd_wf (v : Word) : Memory.wf sramDefault (s.writeDlCmd v).2.sram = true := by
  unfold State.writeDlCmd
  split
  · simp [hWf]
  · split <;> simp [hWf]

theorem execVuv_wf (rail : Fin 2) (mv : BitVec 16) : (execVuv rail mv s).sramWf := by
  simp [execVuv, hWf]

theorem execVexcGoodAgain_wf (rail : Fin 2) (mv : BitVec 16) : (execVexcGoodAgain rail mv s).sramWf := by
  simp [execVexcGoodAgain, apply_ite State.sram, hWf]

@[simp] theorem execCalStoreDone_wf (latchSet readOk : Bool) : (execCalStoreDone latchSet readOk s).sramWf := by
  unfold execCalStoreDone
  split <;> simp [hWf]

@[simp] theorem execFramProgDone_wf (ok : Bool) : (execFramProgDone ok s).sramWf := by
  unfold execFramProgDone
  split
  · split <;> simp [State.enterHold_sram, hWf]
  · exact hWf

@[simp] theorem execCarrierZeroCrossing_wf (n : Fin 4) (m : ExcMeas) : (execCarrierZeroCrossing n m s).sramWf := by
  unfold execCarrierZeroCrossing
  split
  · exact hWf
  · dsimp only
    split <;> simp [State.foldl_sram, hWf]

@[simp] theorem execExcRampEnd_wf (n : Fin 4) : (execExcRampEnd n s).sramWf := by
  unfold execExcRampEnd
  dsimp only
  split
  · exact hWf
  · split <;> simp [hWf]

@[simp] theorem execTrimSweepStart_wf (h : Half) : (execTrimSweepStart h s).sramWf := by
  unfold execTrimSweepStart
  dsimp only
  split <;> simp [hWf]

@[simp] theorem execTrimRunEnd_wf (n : Fin 8) (t : TrimVals) : (execTrimRunEnd n t s).sramWf := by
  unfold execTrimRunEnd
  split
  · exact hWf
  · dsimp only
    split <;> simp [hWf]

@[simp] theorem execDchTransition_wf (n : Fin 4) (samples : Vector (BitVec 3) 16) : (execDchTransition n samples s).sramWf := by
  unfold execDchTransition
  split <;> simp [hWf]

@[simp] theorem execHallInv_wf (n : Fin 4) : (execHallInv n s).sramWf := by
  unfold execHallInv
  split <;> simp [hWf]

@[simp] theorem execSsiFrameEnd_wf (n : Fin 4) (ready : Bool) (bits : BitVec 32) (endBit : Bool) :
    (execSsiFrameEnd n ready bits endBit s).sramWf := by
  unfold execSsiFrameEnd
  split <;> simp [hWf]

@[simp] theorem execSsiRecoveryEnd_wf (n : Fin 4) : (execSsiRecoveryEnd n s).sramWf := by
  unfold execSsiRecoveryEnd
  split <;> simp [hWf]

@[simp] theorem execAuthConflict_wf (d : Drive) : (execAuthConflict d s).sramWf := by
  rw [execAuthConflict]
  refine Done.sramWf_thenDomains ?_
  unfold authConflict
  split <;> simp [hWf]

@[simp] theorem execHandoverRequest_wf (d : Drive) : (execHandoverRequest d s).sramWf := by
  unfold execHandoverRequest
  split <;> simp [hWf]

@[simp] theorem execHandoverDone_wf (d : Drive) : (execHandoverDone d s).sramWf := by
  rw [execHandoverDone]
  refine Done.sramWf_thenDomains ?_
  unfold handoverDone
  split <;> simp [hWf]

@[simp] theorem execHolderClaimLost_wf (d : Drive) : (execHolderClaimLost d s).sramWf := by
  rw [execHolderClaimLost]
  refine Done.sramWf_thenDomains ?_
  unfold holderClaimLost
  split <;> simp [hWf]

@[simp] theorem execAevPulseEnd_wf (n : Fin 8) : (execAevPulseEnd n s).sramWf := by
  unfold execAevPulseEnd
  split <;> simp [hWf]

@[simp] theorem execPredictionSwitch_wf : (execPredictionSwitch s).sramWf := by
  unfold execPredictionSwitch
  split
  · exact hWf
  · dsimp only
    split <;> simp [State.foldl_sram, hWf]

@[simp] theorem execInternalTrigger_wf : (execInternalTrigger s).sramWf := by
  unfold execInternalTrigger
  split
  · exact hWf
  · split <;> simp [hWf]

@[simp] theorem execSdmLatch_wf : (execSdmLatch s).sramWf := by
  unfold execSdmLatch
  split <;> simp [State.foldl_sram, hWf]

@[simp] theorem execTqDev_wf (d : Drive) : (execTqDev d s).sramWf := by
  unfold execTqDev
  split <;> simp [hWf]

@[simp] theorem execRelGapEnd_wf (d : Drive) : (execRelGapEnd d s).sramWf := by
  unfold execRelGapEnd
  split <;> simp [hWf]

@[simp] theorem execAuxSettleEnd_wf (c : Fin 2) : (execAuxSettleEnd c s).sramWf := by
  unfold execAuxSettleEnd
  split <;> simp [hWf]

@[simp] theorem execAuxConversionDone_wf (c : Fin 2) (m : Conv) : (execAuxConversionDone c m s).sramWf := by
  unfold execAuxConversionDone
  split <;> simp [hWf]

@[simp] theorem execAuxVisitEnd_wf (c : Fin 2) : (execAuxVisitEnd c s).sramWf := by
  unfold execAuxVisitEnd
  split
  · exact hWf
  · split <;> simp [hWf]

@[simp] theorem execHoldoffEnd_wf (p : Page) : (execHoldoffEnd p s).sramWf := by
  unfold execHoldoffEnd
  split <;> simp [hWf]

@[simp] theorem execCruiseRoundStart_wf : (execCruiseRoundStart s).sramWf := by
  rw [execCruiseRoundStart]
  refine Done.sramWf_thenDomains ?_
  rw [cruiseRoundStart]
  simp [hWf]

@[simp] theorem execRestartRnd_wf : (execRestartRnd s).sramWf := by
  rw [execRestartRnd]
  refine Done.sramWf_thenDomains ?_
  rw [restartRnd]
  simp [hWf]

@[simp] theorem execCruiseRunEnd_wf (i : Fin 15) (terminal sigOk : Bool) (detail : BitVec 24) :
    (execCruiseRunEnd i terminal sigOk detail s).sramWf := by
  rw [execCruiseRunEnd]
  refine Done.sramWf_thenDomains ?_
  rw [cruiseRunEnd]
  simp [hWf]

@[simp] theorem execTimeSlewEnd_wf : (execTimeSlewEnd s).sramWf := by
  unfold execTimeSlewEnd
  split <;> simp [hWf]

@[simp] theorem execFollowUpRelay_wf (rate : Rat) : (execFollowUpRelay rate s).sramWf := by
  unfold execFollowUpRelay
  extract_lets relay
  have hRelay (t : State) (p : Fin 2) : (relay t p).sram = t.sram := by
    dsimp only [relay]
    split
    · split <;> simp
    · rfl
  rw [Done.sramWf_next, hRelay, hRelay]
  exact hWf

@[simp] theorem execSyncSend_wf (p : Fin 2) : (execSyncSend p s).sramWf := by
  unfold execSyncSend
  split
  · exact hWf
  · split <;> simp [hWf]

@[simp] theorem execPdelayReqSend_wf (p : Fin 2) : (execPdelayReqSend p s).sramWf := by
  unfold execPdelayReqSend
  split
  · exact hWf
  · split <;> simp [hWf]

@[simp] theorem execStreamFrameBuild_wf (k : Fin 8) : (execStreamFrameBuild k s).sramWf := by
  unfold execStreamFrameBuild
  dsimp only
  (repeat' split) <;> simp [hWf]

@[simp] theorem execFrecEntry_wf (n : Fin 8) (written : Bool) : (execFrecEntry n written s).sramWf := by
  unfold execFrecEntry
  dsimp only
  split
  · exact hWf
  · rw [Done.sramWf_next, State.setFrec_sram]
    (repeat' split) <;> simp [hWf]

@[simp] theorem execArm_wf (n : Fin 8) : (execArm n s).sramWf := by
  rw [execArm]
  refine Done.sramWf_thenDomains ?_
  rw [armRec]
  simp [hWf]

@[simp] theorem execDisarm_wf (n : Fin 8) : (execDisarm n s).sramWf := by
  rw [execDisarm]
  refine Done.sramWf_thenDomains ?_
  rw [disarmRec]
  simp [hWf]

@[simp] theorem execYarderWrite_wf : (execYarderWrite s).sramWf := by
  unfold execYarderWrite
  split
  · exact hWf
  · split <;> simp [hWf]

@[simp] theorem execYardStall_wf : (execYardStall s).sramWf := by
  unfold execYardStall
  split <;> simp [hWf]

@[simp] theorem execQueueAge_wf (q : Fin 64) : (execQueueAge q s).sramWf := by
  unfold execQueueAge
  split <;> simp [hWf]

@[simp] theorem execDvfsDone_wf : (execDvfsDone s).sramWf := by
  unfold execDvfsDone
  split <;> simp [hWf]

@[simp] theorem execDvfsTmo_wf : (execDvfsTmo s).sramWf := by
  unfold execDvfsTmo
  split <;> simp [hWf]

@[simp] theorem execDomainOn_wf (x : Dom) : (execDomainOn x s).sramWf := by
  unfold execDomainOn
  split
  all_goals split <;> simp [hWf]

@[simp] theorem execAlarm_wf : (execAlarm s).sramWf := by
  unfold execAlarm
  split
  · exact hWf
  · dsimp only
    split
    · rw [Done.sramWf_next, State.powerNote_sram]
      exact hWf
    · rw [Done.sramWf_next, State.wakeIf_sram]
      exact hWf

@[simp] theorem execAlarmHiWrite_wf (v : Word) : (execAlarmHiWrite v s).sramWf := by
  rw [execAlarmHiWrite, Done.sramWf_finish, State.writeAlarmHi_sram]
  exact hWf

@[simp] theorem execSafePinHoldExpiry_wf (p : SafePin) : (execSafePinHoldExpiry p s).sramWf := by
  unfold execSafePinHoldExpiry
  split <;> simp [hWf]

@[simp] theorem execFrameTransmitDone_wf (p : Fin 2) : (execFrameTransmitDone p s).sramWf := by
  unfold execFrameTransmitDone
  split
  · simp [hWf]
  · split <;> simp [hWf]

@[simp] theorem execUnlockFirstExpiry_wf : (execUnlockFirstExpiry s).sramWf := by
  unfold execUnlockFirstExpiry
  split <;> simp [hWf]

/-! ## Resets, and CORE's loss of its state (R71 to R76, R446) -/

omit hWf in
/-- A device reset empties the SRAM. -/
theorem State.deviceReset_sram (c : Nat) : (s.deviceReset c).sram = [] := by
  unfold State.deviceReset
  dsimp only
  rw [State.scanPins_sram]

omit hWf in
theorem State.deviceReset_wf (c : Nat) : Memory.wf sramDefault (s.deviceReset c).sram = true := by
  rw [State.deviceReset_sram]
  rfl

omit hWf in
theorem execPinReset_wf : (execPinReset s).sramWf := s.deviceReset_wf 1

theorem execSupplyLost_wf (r : Rail) : (execSupplyLost r s).sramWf := by
  cases r with
  | vaon => exact (s.railLost .vaon).deviceReset_wf 0
  | vio => exact (s.railLost .vio).deviceReset_wf 3
  | vpre => exact (s.railLost .vpre).deviceReset_wf 4
  | vdda0 => exact (congrArg (Memory.wf sramDefault) ((s.railLost .vdda0).vddaJudge_sram .h0)).trans hWf
  | vdda1 => exact (congrArg (Memory.wf sramDefault) ((s.railLost .vdda1).vddaJudge_sram .h1)).trans hWf

theorem execSoftwareReset_wf : (execSoftwareReset s).sramWf := by
  unfold execSoftwareReset
  split
  · exact hWf
  · exact State.deviceReset_wf _ 2

omit hWf in
@[simp] theorem State.wakeRetry_wf : Memory.wf sramDefault s.wakeRetry.sram = true := by
  unfold State.wakeRetry
  dsimp only
  split <;> rfl

theorem execDomTmo_wf (x : Dom) : (execDomTmo x s).sramWf := by
  unfold execDomTmo
  dsimp only
  split
  all_goals split <;> simp [State.domTmoEvent, hWf]

omit hWf in
/-- With CORE's state the SRAM is gone (R428). -/
theorem State.coreDown_sram : s.coreDown.sram = [] := rfl

theorem execEntryComplete_wf : (execEntryComplete s).sramWf := by
  unfold execEntryComplete
  split
  · rw [Done.sramWf_next, State.afterEntry_sram, State.coreDown_sram]
    rfl
  · exact hWf

theorem execSupplyGood_wf (r : Rail) : (execSupplyGood r s).sramWf := by
  cases r <;> simp [execSupplyGood, hWf]

end

/-! ## Frames of the host (R397 to R414) -/

/-- A frame keeps the form that the meaning of its command keeps. -/
theorem State.frame_wf {s : State} (hWf : Memory.wf sramDefault s.sram = true) {l : List Byte} {crc : Byte} {queue : Bool}
    {k : State → Answer} (hk : ∀ t : State, Memory.wf sramDefault t.sram = true → Memory.wf sramDefault (k t).post.sram = true) :
    (s.frame l crc queue k).sramWf := by
  unfold State.frame
  dsimp only
  split
  · simp [hWf]
  · simp [hk, hWf]

/-- So does a frame with data, whose data phase may be cut short. -/
theorem State.dataFrame_wf {s : State} (hWf : Memory.wf sramDefault s.sram = true) {cmd : Nat} {addr : Word} {len : BitVec 16}
    {data : List Word} {crc : Byte} {queue : Bool} {k : List Word → State → Answer}
    (hk : ∀ d (t : State), Memory.wf sramDefault t.sram = true → Memory.wf sramDefault (k d t).post.sram = true) :
    (s.dataFrame cmd addr len data crc queue k).sramWf := by
  unfold State.dataFrame
  dsimp only
  split
  · split
    · simp [execQspiFrame, hWf]
    · exact State.frame_wf hWf (hk _)
  · exact State.frame_wf hWf (hk _)

section
variable (s : State) (hWf : Memory.wf sramDefault s.sram = true) (addr : Word) (len : BitVec 16) (data : List Word) (crc : Byte)
include hWf

theorem execRead_wf (cmd : Byte) : (execRead cmd addr len crc s).sramWf := by
  refine State.frame_wf hWf fun t ht => ?_
  split
  · simp [ht]
  · split <;> simp [ht]

theorem execWrite_wf : (execWrite addr len data crc s).sramWf := by
  refine State.dataFrame_wf hWf fun d t ht => ?_
  split <;> simp [ht]

theorem execQread_wf : (execQread addr len crc s).sramWf := by
  refine State.frame_wf hWf fun t ht => ?_
  dsimp only
  split <;> simp [ht]

theorem execQack_wf : (execQack addr len data crc s).sramWf := by
  refine State.dataFrame_wf hWf fun d t ht => ?_
  dsimp only
  split <;> simp [ht]

theorem execQpush_wf : (execQpush addr len data crc s).sramWf := by
  refine State.dataFrame_wf hWf fun d t ht => ?_
  split <;> simp [ht]

end

/-! ## Boot and apply (R83, R84, R92 to R96) -/

section
variable (s : State) (hWf : Memory.wf sramDefault s.sram = true)
include hWf

theorem State.staged_wf (body : List Byte) : Memory.wf sramDefault (s.staged body) = true :=
  Memory.writeBytes_wf _ _ _ _ (Memory.writeBytes_wf _ _ _ _ (Memory.writeBytes_wf _ _ _ _ hWf))

theorem execBodyReadDone_wf : (execBodyReadDone s).sramWf := by
  have hStaged := s.staged_wf hWf
  unfold execBodyReadDone
  dsimp only
  split
  · rw [Done.sramWf_next]
    (repeat' split) <;> simp [State.enterHold_sram, hStaged]
  · exact hWf

theorem execSramInitDone_wf : (execSramInitDone s).sramWf := by
  unfold execSramInitDone
  dsimp only
  split
  · rw [Done.sramWf_next]
    (repeat' split) <;> simp [State.enterHold_sram, hWf]
  · exact hWf

theorem execConvCalDone_wf (pf : BitVec 8) (af : BitVec 2) (tr : Vector TrimVals 8) : (execConvCalDone pf af tr s).sramWf := by
  unfold execConvCalDone
  split
  · refine State.release_wf (Memory.clear_wf _ _ _ _ ?_)
    rw [State.foldl_sram _ fun t n => by split <;> simp]
    exact hWf
  · exact hWf

theorem execRegWriteRecord_wf : (execRegWriteRecord s).sramWf := State.processRec_wf hWf _ _ fun _ => State.writePairs_wf hWf _

theorem execRegMaskRecord_wf : (execRegMaskRecord s).sramWf := State.processRec_wf hWf _ _ fun _ => State.writeMasks_wf hWf _

theorem execRegSeqRecord_wf : (execRegSeqRecord s).sramWf := State.processRec_wf hWf _ _ fun _ => State.writeSeq_wf hWf _ _

theorem execSramLoadRecord_wf : (execSramLoadRecord s).sramWf := State.processRec_wf hWf _ _ fun l => by
  dsimp only
  split
  · exact State.loadSram_wf hWf _ _
  · exact hWf

theorem execSramFillRecord_wf : (execSramFillRecord s).sramWf := State.processRec_wf hWf _ _ fun l => by
  dsimp only
  split
  · exact State.fillSram_wf hWf _ _ _
  · exact hWf

theorem execAuthInitRecord_wf : (execAuthInitRecord s).sramWf := State.processRec_wf hWf _ _ fun _ => hWf

end

/-! ## Every command -/

/-- No command takes the SRAM out of canonical form. -/
theorem exec_sramWf (c : Instr) (s : State) (hWf : Memory.wf sramDefault s.sram = true) : Done.sramWf (exec c s) := by
  cases c with
  | supplyGood r => exact execSupplyGood_wf s hWf r
  | supplyLost r => exact execSupplyLost_wf s hWf r
  | pinReset => exact execPinReset_wf s
  | softwareReset => exact execSoftwareReset_wf s hWf
  | domTmo x => exact execDomTmo_wf s hWf x
  | entryComplete => exact execEntryComplete_wf s hWf
  | bodyReadDone => exact execBodyReadDone_wf s hWf
  | sramInitDone => exact execSramInitDone_wf s hWf
  | convCalDone pf af tr => exact execConvCalDone_wf s hWf pf af tr
  | regWriteRecord => exact execRegWriteRecord_wf s hWf
  | regMaskRecord => exact execRegMaskRecord_wf s hWf
  | regSeqRecord => exact execRegSeqRecord_wf s hWf
  | sramLoadRecord => exact execSramLoadRecord_wf s hWf
  | sramFillRecord => exact execSramFillRecord_wf s hWf
  | authInitRecord => exact execAuthInitRecord_wf s hWf
  | read cmd addr len crc => exact execRead_wf s hWf addr len crc cmd
  | write addr len data crc => exact execWrite_wf s hWf addr len data crc
  | qread addr len crc => exact execQread_wf s hWf addr len crc
  | qack addr len data crc => exact execQack_wf s hWf addr len data crc
  | vuv rail mv => exact execVuv_wf s hWf rail mv
  | vexcGoodAgain rail mv => exact execVexcGoodAgain_wf s hWf rail mv
  | qpush addr len data crc => exact execQpush_wf s hWf addr len data crc
  | _ =>
    simp [exec, execSwrstKey, execInternalResetEnd, execVov, execRefLoss, execRefFreq, execTclkFreq, execTpllUnlock,
      execSpllUnlock, execRcFail, execRegUv, execRegOv, execCpmFail, execAvsEval, execRtcXtal, execRtcXtalRestore,
      execHeaderReadDone, execBistPhaseEnd, execEndRecord, execStoreKey, execDlKeyApply, execDlKeyProgram, execExcEnable,
      execExcDisable, execExcRestart, execExcFreqWrite, execExcPhaseWrite, execExcAmpWrite, execExcModeWrite, execExcSettleEnd,
      execOc, execOpenLoad, execImbal, execOts, execRegSat, execPchEnable, execPchDisable, execPchCntClr, execLossRearm,
      execAngleTick, execCmwLoss, execPhaseAcqDone, execPhLock, execLockDeclared, execBwStepUp, execBwStepDown, execCoastLong,
      execLol, execOvspd, execAcqTo, execPchSectSet, execPchAngleRead, execPchPredAngRead, execPchPredTimeHiWrite,
      execPchPeakClr, execRevolutionEnd, execLearnBlockEnd, execSclPendingApply, execSclCoefWrite, execSclApplyWrite,
      execNeutral, execAlignWr, execTrimReq, execTrimRunStart, execTrimLate, execDchEnable, execDchDisable, execIndexEdge,
      execIllRate, execRefClr, execUncClr, execSsiTrig, execSsiFrameStart, execDchAngleRead, execAngDiv, execSpdDiv, execDref,
      execCopyMis, execOfsCap, execOfsCapDone, execAuthCmd, execEncEnable, execEncDisable, execPreset, execEncFirstPreset,
      execEncCountStep, execEncTargetRead, execAevSlotStep, execAevSlotStageWrite, execAevSlotAngWrite, execAevForceSet,
      execAevForceClr, execAevEnable, execAevDisable, execAevCntClr, execPinMis, execSdmDecimatedOutput, execHi, execLo,
      execStuck, execFiltMis, execPhsum, execTqStale, execTqCmdWrite, execRelCmd, execDisSet, execDisClear, execSdmPeakClr,
      execLim, execAuxSlotBlocked, execSlotEnWrite, execAuxResRead, execFwCodeWrite, execBlzClr, execReactBusyEnd,
      execFltForceWrite, execStickyClear, execChkInvWrite, execParityError, execAliveEdge, execTgtTmo, execCruiseYield,
      execSyncPair, execSyncLoss, execTimeSet, execSyncRelay, execFrameReceive, execFrameForward, execLinkDown, execLinkUp,
      execFrecTrigger, execFrecFreeze, execTrig, execQspiFrame, execRegisterWrite, execFlush, execReqRun, execReqDoze,
      execReqLookout, execReqOff, execOppTgtWrite, execVoteWrite, execMemBankInitDone, execHalfCalDone, execPadRelease,
      execLookoutCycleStart, execLookoutCycleEnd, execWakeIn, execHostWake, execNetWake, execWakeCoreReady, execUnlockFirst,
      execUnlockSecond, execRelock, execUnlockTimeout, execSdmBitSample, execResetNRisingEdge, execTapTckEdge,
      execSclTempReading, execOtsClear, State.foldl_sram, hWf]

/-- Settles O7: an idle step leaves the SRAM alone, and what every command writes, clears or loses keeps its form. -/
theorem stepKeepsSramCanonical : Obligations.StepKeepsSramCanonical := by
  intro s t h ht
  cases hPending : s.pending with
  | nil =>
    obtain rfl := Host.Outcome.next.inj ((step_nil hPending).symm.trans ht)
    exact h
  | cons c rest =>
    have hWf := exec_sramWf c (s.waiting rest) h
    rw [← step_cons hPending, ht] at hWf
    exact hWf

end Sys2Proof.Machine
end
